-- ==== Sys2Proof/Word.lean ====
section
/-! DEFINITION. The word types of the JM-4832 model and the two-valued and keyed containers every later file uses. -/

namespace Sys2Proof

/-- One byte of a register, a packet or memory. -/
abbrev Byte := BitVec 8

/-- A run of bytes, lowest address first. -/
abbrev Bytes := List Byte

/-- West or East: names a half, its host port (HPW, HPE) and its control die (CDW, CDE) (00_scope, R12). -/
inductive Side where
  | west
  | east
  deriving DecidableEq, Repr

/-- The other half, port or die. -/
def Side.other : Side → Side
  | .west => .east
  | .east => .west

/-- 0 for West, 1 for East (the coding of HALF, PORT and DIE fields). -/
def Side.idx : Side → Nat
  | .west => 0
  | .east => 1

/-- The half that an index 0 or otherwise names. -/
def Side.ofIdx (n : Nat) : Side := if n = 0 then .west else .east

/-- A value held once for each half, host port or control die. -/
structure Pair (α : Type) where
  w : α
  e : α
  deriving DecidableEq, Repr

def Pair.get {α : Type} (p : Pair α) : Side → α
  | .west => p.w
  | .east => p.e

def Pair.set {α : Type} (p : Pair α) : Side → α → Pair α
  | .west, x => { p with w := x }
  | .east, x => { p with e := x }

def Pair.upd {α : Type} (p : Pair α) (h : Side) (f : α → α) : Pair α := p.set h (f (p.get h))

/-- Sparse data by number: pairs in strictly rising key order. -/
abbrev Tab (α : Type) := List (Nat × α)

def Tab.get? {α : Type} : Tab α → Nat → Option α
  | [], _ => none
  | (k, x) :: r, n => if k = n then some x else Tab.get? r n

def Tab.getD {α : Type} (t : Tab α) (n : Nat) (d : α) : α := (Tab.get? t n).getD d

def Tab.set {α : Type} : Tab α → Nat → α → Tab α
  | [], n, x => [(n, x)]
  | (k, y) :: r, n, x =>
    if n < k then (n, x) :: (k, y) :: r
    else if n = k then (n, x) :: r
    else (k, y) :: Tab.set r n x

def Tab.erase {α : Type} : Tab α → Nat → Tab α
  | [], _ => []
  | (k, y) :: r, n => if k = n then r else (k, y) :: Tab.erase r n

/-- The entry n passed through f; nothing when there is none. -/
def Tab.upd {α : Type} : Tab α → Nat → (α → α) → Tab α
  | [], _, _ => []
  | (k, y) :: r, n, f => if k = n then (k, f y) :: r else (k, y) :: Tab.upd r n f

/-- The list with element i passed through f (unchanged when i is past its end). -/
def modAt {α : Type} : List α → Nat → (α → α) → List α
  | [], _, _ => []
  | x :: r, 0, f => f x :: r
  | x :: r, i + 1, f => x :: modAt r i f

end Sys2Proof
end

