-- ==== Sys2Proof/Config.lean ====
section
/-! DEFINITION. What the spec leaves open: free values, and what manufacture gave the device. No constant here has a body. -/

namespace Sys2Proof

/-- A fresh 64-bit value, one for each number: window keys, nonces (R176, R496) and other values the spec leaves open (log 5). -/
opaque Config.freeValue : Nat → BitVec 64

/-- SEVERITY of an error-log code: R560 lists the four values and no rule gives a code's own (log 14). -/
opaque Config.logSeverity : Nat → BitVec 8

/-- What a read delivers of a codeword with four or more symbols in error: nothing (found uncorrectable) or 32 wrong bytes (R55; log 6). -/
opaque Config.miscorrected : Nat → Option Bytes

/-- Where within 2 units in the last place of the exact value the engine's exp (0) or ln (1) of an operand lies (R79; log 7). -/
opaque Config.ulpOffset : Nat → BitVec 32 → Nat

/-- exp in FP32 of an operand whose exp no finite FP32 number comes near: R79 states no value (log 7). -/
opaque Config.expF32 : BitVec 32 → BitVec 32

/-- ln in FP32 of zero, of a negative number and of plus infinity: R79 states no value (log 7). -/
opaque Config.lnF32 : BitVec 32 → BitVec 32

/-- Where a leg's binary search lands in a list out of order: first index and count, of the list's keys and the leg's range (R136, R137; log 8). -/
opaque Config.setOpSearch : List Nat → List Nat → Nat × Nat

/-- The unspecified function of R136: the keys a leg of SET_OP gives where a list is out of order and no leg reads the disorder; of the lists' contents and their placement (log 8). -/
opaque Config.setOpUnordered : List (List Nat) → List Nat → List Nat

/-- The set of the 512 sets of the run-entry cache that a tenant's address falls in (R160 gives no index; log 9). -/
opaque Config.runCacheSet : Nat → Nat → Nat

/-- The 256-bit seed of the device's PUF (R497; log 11). -/
opaque Config.pufSeed : Bytes

/-- The PUF's public helper data, in the protected store from manufacture (R497, R502; log 11). -/
opaque Config.pufHelper : Bytes

/-- The fuzzy extractor: a seed of one reading of the PUF and the helper data (R497; log 11). -/
opaque Config.fuzzyExtract : Bytes → Bytes → Bytes

/-- The check value of a seed (R497; log 11). -/
opaque Config.seedCheck : Bytes → Bytes

/-- How a P-521 private key is taken from what HKDF derives (R497; log 11). -/
opaque Config.keyScalar : Bytes → Nat

/-- The SPDM certificate chain of slot 0, from manufacture (R499, R502, R503; log 11). -/
opaque Config.certChain : Bytes

/-- The boot ROM, which R504 measures, and the four digests of root keys in it (R501; log 11). -/
opaque Config.bootRom : Bytes
opaque Config.romRootDigest : Nat → Bytes

/-- The image of a type, 1 to 5, that bank A holds from manufacture (R500; log 61). -/
opaque Config.factoryImage : Nat → Bytes

/-- CTExponent, and DataTransferSize with MaxSPDMmsgSize, of CAPABILITIES (R503; log 12). -/
opaque Config.spdmCt : Byte
opaque Config.spdmSizes : Bytes

/-- What an SPDM signature signs, of the request, the answer before its signature and the messages before them: DSP0274 defines it (R503; log 12). -/
opaque Config.spdmSigned : Bytes → Bytes → Bytes

/-- The body of an MCTP control or PLDM answer, which the cited DMTF documents define (R414; log 12). -/
opaque Config.dmtfAnswer : Nat → Bytes → Bytes

end Sys2Proof
end

