-- ==== Sys2Proof/Syntax.lean ====
section
/-! DEFINITION. The commands of the block: one constructor of Instr for each row of spec/opcode_table.json, with the operands the row's event brings from outside. -/

namespace Sys2Proof

/-- Who may hold a Hasp or the Latch, or use a mailbox: a host port or a control die (R390). -/
inductive Agent where
  | port (p : Side)
  | die (d : Side)
  deriving DecidableEq, Repr

/-- Errors that AER logs (R381, R403, R415, R532): those the rows report, and the link's own, which arrive as a TLP that is no access. -/
inductive AerError where
  | completerAbort
  | poisonedTlp
  | completionTimeout
  | unexpectedCompletion
  | correctedInternal
  | malformedTlp
  | unsupportedRequest
  | ecrc
  | receiverOverflow
  | flowControl
  | dataLinkProtocol
  | surpriseDown
  | acsViolation
  | uncorrectableInternal
  | receiverError
  | badTlp
  | badDllp
  | replayRollover
  | replayTimeout
  | advisoryNonFatal
  | headerLogOverflow
  deriving DecidableEq, Repr

/-- What a host programs in a function's configuration space (R381, R386, R415). -/
inductive ConfigReg where
  | maxPayload
  | maxReadRequest
  | tagBits
  | relaxedOrdering
  | completionTimeout
  | atsEnable
  | priAllocation
  | aspm
  | functionMask
  | aerMask (e : AerError)
  | aerSeverity (e : AerError)
  deriving DecidableEq, Repr

/-- Where a register write comes from: an access to BAR0 on a host port, the leading control die's access over the management network (R401), the host's write to a configuration register of the port, or a TLP that is no access (R415; log 31). -/
inductive RegWriter where
  | bar (p : Side)
  | die (s : Side)
  | config (p : Side) (r : ConfigReg)
  | malformed (p : Side) (e : AerError)
  deriving DecidableEq, Repr

/-- Where a register read comes from and its offset and size in BAR0; a mailbox word of a control die has the same offset (R388, R402). -/
structure RegAt where
  off : Nat
  size : Nat
  deriving DecidableEq, Repr

/-- How the I3C controller gives the device its dynamic address (R413). -/
inductive I3cAssign where
  | entdaa (addr : BitVec 7)
  | setdasa (static addr : BitVec 7)
  deriving DecidableEq, Repr

/-- Where a command came from: a command ring of a host port, or the I3C sideband (R418, R435). -/
inductive CmdSlot where
  | ring (p : Side) (k : Nat)
  | sideband
  deriving DecidableEq, Repr

/-- An Ewewa packet as it arrives or leaves (R236, R239): the row names its PTYPE. -/
structure Pkt where
  ver : BitVec 8 := 0x20#8
  pflags : BitVec 8 := 0#8
  path : BitVec 8 := 0#8
  dstNode : BitVec 16 := 0#16
  srcNode : BitVec 16 := 0#16
  dstQpn : BitVec 32 := 0#32
  srcQpn : BitVec 32 := 0#32
  psn : BitVec 32 := 0#32
  msn : BitVec 32 := 0#32
  msgOffset : BitVec 32 := 0#32
  txTime : BitVec 32 := 0#32
  ext : Bytes := []
  payload : Bytes := []
  trailer : Bytes := []
  ipv6 : Bool := false
  tagged : Bool := false
  entropy : BitVec 14 := 0#14
  deriving DecidableEq, Repr

/-- What R238 looks at in a received frame. -/
structure FrameHdr where
  fcsOk : Bool
  tags : Nat
  ipMine : Bool
  plainIpv4 : Bool
  udpPort : BitVec 16
  ipv6 : Bool
  udpSumOk : Bool
  /-- bytes of UDP payload -/
  udpLen : Nat
  /-- the PTYPE byte and what else the UDP payload holds, where it is long enough -/
  ptype : BitVec 8
  p : Pkt := {}
  deriving DecidableEq, Repr

/-- A 256 B block of a DIRECT link (R315). -/
structure Block where
  hdr : BitVec 64
  payload : Bytes
  crc : BitVec 32
  deriving DecidableEq, Repr

/-- A credit queue class (R20). -/
inductive QClass where
  | req
  | rsp
  | col
  | mgt
  deriving DecidableEq, Repr

/-- One credit queue: its row of R22 counted from 1, its class and its instance. -/
structure QueueId where
  row : Nat
  cls : QClass
  inst : Nat
  deriving DecidableEq, Repr

/-- Who reads or writes codewords on a stack link. -/
inductive Requester where
  | leg (xfer : Nat) (leg : Nat)
  | opLeg (op : Nat) (leg : Nat)
  | rope (slot : Nat)
  | other
  deriving DecidableEq, Repr

/-- What a write brings: its bytes, and the symbol errors that its merges find in the codewords they read, by index (R55). -/
structure WriteData where
  bytes : Bytes
  errs : List (Nat × Nat)
  deriving DecidableEq, Repr

/-- A stack whose move ends, with the symbol errors that the copy finds in the row group's codewords, by index (R55, R61). -/
structure MoveEnd where
  stack : Nat
  errs : List (Nat × Nat)
  deriving DecidableEq, Repr

/-- What an ARP request or a neighbour solicitation says: the asker's MAC and IP addresses, and the address asked for (R238). -/
structure AddressAsk where
  mac : Bytes
  src : Bytes
  ip : Bytes
  deriving DecidableEq, Repr

/-- What waits on a translation fault (R164). -/
inductive Waiter where
  | sqFetch (qpn : Nat)
  | rqFetch (qpn : Nat)
  | entry (qpn : Nat) (idx : Nat)
  | op (id : Nat)
  | rope (slot : Nat)
  | cqWrite (cqn : Nat)
  deriving DecidableEq, Repr

/-- Whose packets a delivery timer runs for: a queue pair, or a rope's hop (R365). -/
inductive Sender where
  | qp (n : Nat)
  | rope (slot : Nat)
  deriving DecidableEq, Repr

/-- What is fetched again for its PHASE (R195, R354, R428, R492). -/
inductive RefetchTarget where
  | sq (qpn : Nat)
  | rq (qpn : Nat)
  | command (c : CmdSlot)
  | job
  | ropeCall (slot : Nat)
  deriving DecidableEq, Repr

/-- What a failed host request was made for (R415, R426). -/
inductive HostTarget where
  | req (tag : Nat)
  | result (c : CmdSlot)
  | cqWrite (cqn : Nat)
  | ats (tag : Nat)
  deriving DecidableEq, Repr

/-- An ATS translation completion (R163, R415). -/
structure AtsCpl where
  addr : Nat
  size : Nat
  present : Bool
  read : Bool
  write : Bool
  deriving DecidableEq, Repr

/-- Page request group response codes (R171). -/
inductive PriCode where
  | success
  | invalid
  | failure
  deriving DecidableEq, Repr

/-- The SPDM routes: DOE of each host port, and MCTP (R503). -/
inductive SpdmRoute where
  | doe (p : Side)
  | mctp
  deriving DecidableEq, Repr

/-- The SPDM requests of R503; any other is answered UnsupportedRequest. -/
inductive SpdmReq where
  | getVersion
  | getCapabilities
  | negotiateAlgorithms
  | getDigests
  | getCertificate
  | challenge
  | getMeasurements
  | unsupported
  deriving DecidableEq, Repr

/-- An entry of a replicated table as a control die writes it to a tile (R39). -/
inductive TableWrite where
  | windowClosing (w : Nat)
  | windowFree (w : Nat)
  | windowOpen (w : Nat)
  | nodeEntry (i : Nat) (e : Bytes)
  | profileEntry (k : Nat)
  | tenantEntry (t : Nat)
  deriving DecidableEq, Repr

/-- Input voltage bands of R511. -/
inductive VinBand where
  | high58
  | low40
  | below38
  | powerLoss
  deriving DecidableEq, Repr

/-- Wake causes of R538 that reach the device as an event of their own. -/
inductive WakeCause where
  | doorbell
  | frame
  | keptPortDown
  | portEvent
  | halfReset
  | withdraw
  | command
  deriving DecidableEq, Repr

/-- How a cipher job's data path ended (R493). -/
inductive JobEnd where
  | finished
  | uncorrectable
  | unmapAbort
  | tenantReset
  deriving DecidableEq, Repr

/-- A record of the protected store as the boot reads it (R502): its kind, its bytes, its value of the monotonic counter, its MAC. -/
structure StoreRead where
  kind : Nat
  data : Bytes
  count : BitVec 64
  mac : Bytes
  deriving DecidableEq, Repr

/-- What the boot meets at power-on (R541): straps, which stacks train, the readings of the PUF (R497), records that do not read as they were written (R502), and what a control die loads where it is not its image (R501 step 4). -/
structure PowerOnEnv where
  straps : Nat
  stacksTrained : BitVec 32
  puf : List Bytes
  store : List StoreRead
  dieLoads : List (Side × Bytes)
  deriving DecidableEq, Repr

/-- Readings that the sensors take (R544): degrees in 1/256, mV, 10 mA and W. -/
structure Sensors where
  /-- one for each logic die and power stage -/
  dies : List Int
  inlet : Int
  outlet : Int
  vin : Nat
  iin : Nat
  pin : Nat
  halfW : Nat
  halfE : Nat
  deriving DecidableEq, Repr

/-- The commands of the block. Each constructor is one row of the table of operations and events. -/
inductive Instr where
  -- command packets: the begun command of a slot runs (Command packets and the chapter each names)
  | deviceInfo (c : CmdSlot)
  | envCheck (c : CmdSlot) (record : Bytes)
  | halfReset (c : CmdSlot)
  | powerState (c : CmdSlot)
  | setPowerLimit (c : CmdSlot)
  | tenantCreate (c : CmdSlot)
  | tenantDestroy (c : CmdSlot) (stubs : Option Bytes)
  | tenantReset (c : CmdSlot)
  | tenantFreeze (c : CmdSlot)
  | tenantSave (c : CmdSlot)
  | tenantRestore (c : CmdSlot) (snap : Bytes) (handles : Bytes)
  | tenantThaw (c : CmdSlot)
  | tenantQuery (c : CmdSlot)
  | memAlloc (c : CmdSlot)
  | memFree (c : CmdSlot)
  | mapRange (c : CmdSlot)
  | unmapRange (c : CmdSlot)
  | cairnResolve (c : CmdSlot)
  | retireQuery (c : CmdSlot)
  | windowOpen (c : CmdSlot)
  | windowRevoke (c : CmdSlot)
  | windowQuery (c : CmdSlot)
  | qpCreate (c : CmdSlot)
  | qpModify (c : CmdSlot)
  | qpDestroy (c : CmdSlot)
  | cqCreate (c : CmdSlot)
  | cqDestroy (c : CmdSlot)
  | pathSet (c : CmdSlot)
  | ccProfileSet (c : CmdSlot)
  | ropeCreate (c : CmdSlot)
  | ropeDestroy (c : CmdSlot)
  | ropeQuery (c : CmdSlot)
  | shaperSet (c : CmdSlot)
  | meterSet (c : CmdSlot)
  | gateListSet (c : CmdSlot)
  | nodeTableWrite (c : CmdSlot)
  | linkControl (c : CmdSlot)
  | laneRecal (c : CmdSlot)
  | keyLoad (c : CmdSlot)
  | keyErase (c : CmdSlot)
  | imageStage (c : CmdSlot) (data : Bytes)
  | imageVerify (c : CmdSlot)
  | traverseBegin (c : CmdSlot)
  | traverseCommit (c : CmdSlot)
  | traverseAbort (c : CmdSlot)
  | microcodeLoad (c : CmdSlot)
  | counterSelect (c : CmdSlot)
  | counterRead (c : CmdSlot)
  | logRead (c : CmdSlot)
  | logClear (c : CmdSlot)
  | identityGet (c : CmdSlot)
  | recordLoad (c : CmdSlot) (record : Bytes)
  -- command rings, leadership, Hasps, mailboxes
  | cmdRingProdWrite (p : Side) (ring : Side) (k : Nat) (v : BitVec 32)
  | cmdRingEnable (p : Side) (ring : Side) (k : Nat) (v : BitVec 32)
  | cmdRingDisable (p : Side) (ring : Side) (k : Nat) (v : BitVec 32)
  | commandFetch (data : Option Bytes)
  | commandBegin (c : CmdSlot)
  | commandDeadline (c : CmdSlot)
  | sidebandRequest (msg : Bytes)
  | leaseRenewal
  | leaseExpiry
  | controlDieStart (d : Side)
  | cdeAcquireDelay
  | fenceNoRenewal (d : Side)
  | fenceUnreachable (d : Side)
  | fencedRecovery (d : Side)
  | controlDieLost (d : Side)
  | haspAcquire (a : Agent) (n : Nat) (token : BitVec 16)
  | haspRelease (a : Agent) (n : Nat) (token : BitVec 16)
  | latchAcquire (a : Agent) (token : BitVec 16)
  | latchRelease (a : Agent) (token : BitVec 16)
  | mbxDataWrite (a : Agent) (k : Nat) (word : BitVec 64)
  | mbxDataRead (a : Agent) (reg : RegAt)
  | withdraw (a : Agent) (k : Nat)
  | mbxTimeout (k : Nat)
  -- registers and doorbells
  | msiXUnmask (p : Side) (vector : Option Nat)
  | registerWrite (p : RegWriter) (off : Nat) (size : Nat) (v : BitVec 64) (requester : BitVec 16)
  | xltCairnEnable (p : Side) (g : Side) (v : BitVec 32)
  | xltCairnDisable (p : Side) (g : Side) (v : BitVec 32)
  | xltCairnConsWrite (p : Side) (g : Side) (v : BitVec 32)
  | ciphJobEnable (a : Agent) (v : BitVec 32)
  | ciphJobDisable (a : Agent) (v : BitVec 32)
  | ciphJobProdWrite (a : Agent) (v : BitVec 32)
  | capture (p : Side)
  | legacyLiveRead (p : Side) (off : Nat) (size : Nat) (agree : List Bool)
  | warmReset (p : Side)
  | sqDoorbell (p : Side) (requester : BitVec 16) (page : Nat) (number : BitVec 16) (index : BitVec 16) (arm : Bool)
  | rqDoorbell (p : Side) (requester : BitVec 16) (page : Nat) (number : BitVec 16) (index : BitVec 16) (arm : Bool)
  | cqDoorbell (p : Side) (requester : BitVec 16) (page : Nat) (number : BitVec 16) (index : BitVec 16)
  | eventRingDoorbell (p : Side) (requester : BitVec 16) (page : Nat) (number : BitVec 16) (index : BitVec 16)
  | arm (p : Side) (requester : BitVec 16) (page : Nat) (event : Bool) (number : BitVec 16) (index : BitVec 16)
  -- host ports
  | perstN (p : Side)
  | hotReset (p : Side)
  | linkDown (p : Side)
  | functionLevelReset (p : Side)
  | hostLinkUp (p : Side) (width : Nat) (gen : Nat) (flit : Bool)
  | busMasterEnableSet (p : Side)
  | busMasterEnableClear (p : Side)
  | d3hotEntry (p : Side)
  | d0Return (p : Side)
  | hostCompletion (tag : Nat) (data : Bytes)
  | hostReqFailed (t : HostTarget)
  | completionTimeout (t : HostTarget)
  | poisonedCompletion (tag : Nat) (data : Bytes) (granules : List Nat)
  | unexpectedCompletion (p : Side)
  | poisonedWrite (p : Side)
  | atsCompletion (p : Side) (tag : Nat) (cpl : AtsCpl)
  | atsInvalidation (p : Side) (pasid : Nat) (addr : Nat) (len : Nat)
  | priResponse (p : Side) (group : Nat) (code : PriCode)
  -- sideband
  | entdaa (addr : I3cAssign)
  | mctpControl (msg : Bytes)
  | pldm (msg : Bytes)
  | spdm (route : SpdmRoute) (req : SpdmReq) (msg : Bytes)
  -- translation and windows
  | replicatedTableWrite (tile : Nat) (epoch : BitVec 32) (w : TableWrite)
  | translationWalkDone (tile : Nat) (tenant : Nat) (addr : BitVec 64) (write : Bool) (who : Waiter)
  | cairnTimer (p : Side)
  | faultLimitExpiry (record : Nat)
  | invalidationAck (tile : Nat) (inv : Nat)
  | unmapAbort (tile : Nat) (inv : Nat)
  | windowDrained (w : Nat)
  -- memory stacks
  | stackRead (stack : Nat) (off : Nat) (codewords : Nat) (who : Requester) (errs : List (Nat × Nat))
  | stackWrite (stack : Nat) (off : Nat) (data : WriteData) (who : Requester)
  | retirementMoveDone (move : MoveEnd)
  | patrolScrub (stack : Nat) (symbols : Nat)
  | ceTrackExpiry (stack : Nat) (chimney : Nat) (group : Nat)
  | memCe (stack : Nat)
  | stackInit (stack : Nat) (ok : Bool)
  | parkIdle (stack : Nat)
  | parkDrained (stack : Nat)
  | stackWakeDone (stack : Nat)
  | chimneyFail (stack : Nat) (chimney : Nat)
  | zeroingDone (handle : Nat)
  -- credit queues and internal links
  | creditQueueSend (q : QueueId)
  | creditReturn (q : QueueId)
  | creditStall (q : QueueId)
  | creditQueueReady (q : QueueId)
  | segmentDown (n : Nat)
  | segmentUp (n : Nat)
  | intraHalfLinkDown (a : Nat) (b : Nat)
  -- rings and work entries
  | workFetch (tile : Nat) (host : Bytes)
  | phaseRefetch (t : RefetchTarget) (data : Bytes)
  | entryBegin (qpn : Nat) (hostDesc : Bytes)
  | legDone (xfer : Nat) (leg : Nat)
  | waitSatisfied (qpn : Nat)
  | waitPatchDone (qpn : Nat)
  | cqStallLimit (cqn : Nat)
  -- engine
  | mergeSpaceGrant (tile : Nat)
  | legGrant (stack : Nat)
  | opstoreStarvation (stack : Nat)
  | operandLoadDone (op : Nat) (leg : Nat)
  | legFinish (op : Nat) (leg : Nat)
  | legFail (op : Nat) (leg : Nat) (detail : BitVec 8)
  | graphWalkRound (op : Nat)
  -- wire
  | write (port : Nat) (p : Pkt)
  | readReq (port : Nat) (p : Pkt)
  | readResp (port : Nat) (p : Pkt)
  | send (port : Nat) (p : Pkt)
  | atomicReq (port : Nat) (p : Pkt)
  | atomicResp (port : Nat) (p : Pkt)
  | operateReq (port : Nat) (p : Pkt)
  | operateResp (port : Nat) (p : Pkt)
  | ack (port : Nat) (p : Pkt)
  | nak (port : Nat) (p : Pkt)
  | probe (port : Nat) (p : Pkt)
  | disconnect (port : Nat) (p : Pkt)
  | responderAdmit (qpn : Nat)
  | nonEwewaFrame (port : Nat) (h : FrameHdr)
  | arpRequest (port : Nat) (ask : AddressAsk)
  | neighbourSolicitation (port : Nat) (ask : AddressAsk)
  | pauseFrame (port : Nat)
  | lldpdu (port : Nat) (chassis : Bytes) (portId : Bytes)
  | packetSend (qpn : Nat)
  | retransmitTimer (q : Sender) (psn : BitVec 32)
  | ackTimer (q : Sender)
  | notReadyBackoff (qpn : Nat) (msn : BitVec 32)
  | msnProbe (qpn : Nat)
  | grantAnnounce (qpn : Nat)
  | disconnectRepeat (qpn : Nat)
  | tombstoneExpiry (qpn : Nat)
  -- congestion and shaping
  | pathHoldExpiry (qpn : Nat) (path : Nat)
  | baseWinRotate (qpn : Nat) (path : Nat)
  | bucketFill
  | portSchedule (port : Nat)
  | gateEntryAdvance (port : Nat)
  | gateListTakeover (port : Nat)
  | eqSamplePeriod
  -- links
  | data (port : Nat) (b : Block)
  | idle (port : Nat) (b : Block)
  | replayReq (port : Nat) (b : Block)
  | replayReqTimer (port : Nat)
  | retrainTimeout (port : Nat)
  | ident (port : Nat) (msg : Bytes)
  | laneState (port : Nat) (mask : BitVec 8)
  | widthReq (port : Nat) (mask : BitVec 8) (width : Nat)
  | widthAck (port : Nat) (mask : BitVec 8) (width : Nat)
  | sleepReq (port : Nat)
  | sleepAck (port : Nat)
  | sleepIdleTimer (port : Nat)
  | linkWake (port : Nat)
  | laneUnhealthy (port : Nat) (lane : Nat)
  | laneStepUp (port : Nat) (lane : Nat)
  | laneRecalDone (port : Nat) (ok : Bool)
  | trainingDone (port : Nat) (lanes : BitVec 8)
  | trainingTimeout (port : Nat)
  | identTimeout (port : Nat)
  | lldpTimeout (port : Nat)
  | lossOfSignal (port : Nat)
  | frameForward (port : Nat)
  -- ropes
  | ropeCallDue (slot : Nat)
  | ropeAckRepeat (slot : Nat)
  | ropeData (port : Nat) (p : Pkt)
  | ropeConfirm (port : Nat) (p : Pkt)
  | ropeAck (port : Nat) (p : Pkt)
  | ropeAbort (port : Nat) (p : Pkt)
  | ropePitchServe (tile : Nat)
  | pitchTimeout (slot : Nat)
  | ropeAbortRepeat (slot : Nat)
  | ropeSlotFreed (slot : Nat)
  -- tenants
  | freezeDrained (tenant : Nat)
  | freezeLimit (tenant : Nat)
  | stubExpiry (qpn : Nat)
  -- cipher
  | cipherJobBegin (entry : Bytes)
  | cipherJobDone (index : Nat) (how : JobEnd)
  | drbgReseed (drbg : Nat) (ok : Bool)
  | drbgStop (drbg : Nat)
  -- power and clocks
  | limiterStep (average : Nat) (hottest : Int)
  | powerSample (watts : Nat)
  | thermalShutdown
  | vinEvent (band : VinBand) (mV : Nat)
  | isolationLinkLoss
  | isolationLinkTimeout
  | stageLost
  | pwrEnAssert (mV : Nat)
  | pwrEnDeassert
  | powerOn (env : PowerOnEnv)
  | clockLoss
  | clockLockReturn
  | clockHalt
  | serdesPllLoss (engine : Nat)
  | pciePllLoss (p : Side)
  | bivouacDrained
  | bivouacEntryTimeout
  | bivouacWake (cause : WakeCause)
  | bivouacExitDone
  | sensorUpdate (v : Sensors)
  -- service
  | traverseDieFollower (d : Side)
  | traverseRestartTimeout (d : Side)
  | microcodeUnitDrained (unit : Nat)
  | microcodeDrainTimeout (unit : Nat)
  | tileLost (tile : Nat)
  | ethFecUncorrectableRetrain (port : Nat) (worstLane : Nat)
  | adminDownDrainEnd (port : Nat)
  | tableCopyRebuilt (tenant : Nat) (extent : Nat)
  | priReset (p : Side)
  | ibiAccept
  | ibiDisabledTimeout
  | undervoltageRecovery
  | inputInRange (mV : Nat)
  | powerOnHoldoff
  | isolationLinkReturn
  | centreRuntimeRestartDone
  deriving DecidableEq, Repr

end Sys2Proof
end

