-- ==== Sys2Proof/Decode.lean ====
section
/-! DEFINITION. The commands that a word spells: none, since no row of the table gives bits. -/

namespace Sys2Proof

/-- No row of the table of operations and events has an encoding in bits: commands are events, not words (log 1). -/
def decodeTableWord (_nbits _w : Nat) : Option Instr := none

end Sys2Proof
end

