-- ==== Sys2Proof/Machine/Bits.lean ====
section
/-! DEFINITION. Bytes, fields and byte order: little-endian structures (R2), big-endian wire headers (R3). -/

namespace Sys2Proof.Machine

/-- The value of bytes, first byte least significant. -/
def leN : Bytes → Nat
  | [] => 0
  | b :: r => b.toNat + 256 * leN r

/-- The value of bytes, first byte most significant. -/
def beN (b : Bytes) : Nat := leN b.reverse

/-- The k low bytes of n, least significant first. -/
def toLE : Nat → Nat → Bytes
  | 0, _ => []
  | k + 1, n => BitVec.ofNat 8 n :: toLE k (n / 256)

/-- The k low bytes of n, most significant first. -/
def toBE (k n : Nat) : Bytes := (toLE k n).reverse

/-- len bytes from offset off; missing bytes read 0. -/
def slice (b : Bytes) (off len : Nat) : Bytes :=
  let r := (b.drop off).take len
  r ++ List.replicate (len - r.length) 0#8

def u8 (b : Bytes) (off : Nat) : Nat := leN (slice b off 1)
def u16 (b : Bytes) (off : Nat) : Nat := leN (slice b off 2)
def u24 (b : Bytes) (off : Nat) : Nat := leN (slice b off 3)
def u32 (b : Bytes) (off : Nat) : Nat := leN (slice b off 4)
def u64 (b : Bytes) (off : Nat) : Nat := leN (slice b off 8)

/-- Every byte of the stretch is 0. -/
def zeros (b : Bytes) (off len : Nat) : Bool := (slice b off len).all fun x => x = 0#8

/-- n bytes of zero. -/
def zpad (n : Nat) : Bytes := List.replicate n 0#8

/-- Bit i of n. -/
def tb (n i : Nat) : Bool := n / 2 ^ i % 2 = 1

/-- Bits lo to lo + w - 1 of n. -/
def fld (n lo w : Nat) : Nat := n / 2 ^ lo % 2 ^ w

def b2n (b : Bool) : Nat := if b then 1 else 0

/-- The numbers below n whose bit is set in m, rising. -/
def bitsOf (n m : Nat) : List Nat := (List.range n).filter fun i => tb m i

/-- A mask from the numbers below n that satisfy p. -/
def maskOf (n : Nat) (p : Nat → Bool) : Nat :=
  (List.range n).foldl (fun a i => if p i then a + 2 ^ i else a) 0

def ceilDiv (a b : Nat) : Nat := (a + b - 1) / b

/-- Addition that stops at the top of w bits. -/
def satAdd {w : Nat} (x : BitVec w) (n : Nat) : BitVec w :=
  BitVec.ofNat w (min (x.toNat + n) (2 ^ w - 1))

/-- a - b modulo 2S, for ring indices (R193). -/
def ringSub (s a b : Nat) : Nat := (a + 2 * s - b % (2 * s)) % (2 * s)

/-- The next ring index (R193). -/
def ringAdd (s a n : Nat) : Nat := (a + n) % (2 * s)

/-- PHASE of the entry at index i (R194). -/
def phaseOf (s i : Nat) : Bool := i % (2 * s) < s

/-- a - b of sequence numbers as a signed 32-bit number (R249). -/
def seqDiff (a b : BitVec 32) : Int := (a - b).toInt

/-- The first number of l that satisfies p. -/
def firstNum (l : List Nat) (p : Nat → Bool) : Option Nat := l.find? p

/-- ASCII bytes of a text. -/
def ascii (t : String) : Bytes := t.toList.map fun c => BitVec.ofNat 8 c.toNat

/-- b with new bytes in place from offset off. -/
def patch (b : Bytes) (off : Nat) (new : Bytes) : Bytes :=
  b.take off ++ new ++ b.drop (off + new.length)

/-- Ascending insertion without repeats. -/
def insNat : List Nat → Nat → List Nat
  | [], n => [n]
  | k :: r, n => if n < k then n :: k :: r else if n = k then k :: r else k :: insNat r n

/-- f applied n times. -/
def iter {α : Type} (f : α → α) : Nat → α → α
  | 0, x => x
  | n + 1, x => iter f n (f x)

/-- The first of n numbers from k on that satisfies p. -/
def findFrom (p : Nat → Bool) : Nat → Nat → Option Nat
  | 0, _ => none
  | n + 1, k => if p k then some k else findFrom p n (k + 1)

/-- Element i of a list, or d past its end. -/
def nth {α : Type} (l : List α) (i : Nat) (d : α) : α := (l[i]?).getD d

end Sys2Proof.Machine
end

