-- ==== Sys2Proof/Machine/TypesEng.lean ====
section
/-! DEFINITION. The state of the near-memory engine: operations, legs, partial results, dispatchers (03_near_memory_engine, 04_operators). Defaults are the reset values. -/

namespace Sys2Proof.Machine

/-- NUM_FLAGS of the result header (R89). -/
structure NumFlags where
  saturated : Bool := false
  nanSeen : Bool := false
  infProduced : Bool := false
  outSaturated : Bool := false
  kShort : Bool := false
  empty : Bool := false
  deriving DecidableEq, Repr

/-- A value of the float family in FP32, or of the integer family. -/
inductive Num where
  | f (x : BitVec 32)
  | i (x : Int)
  deriving DecidableEq, Repr

/-- A selected entry (R114): identifier, score, INFO. -/
structure Entry where
  id : Nat
  score : Num
  info : Nat
  deriving DecidableEq, Repr

/-- A bag's partial: contributions met (none: marked, R127) and its elements. -/
structure BagPart where
  count : Nat
  elems : List Num
  deriving DecidableEq, Repr

/-- A partial result of log-sum-exp form (R101). -/
structure Lse where
  m : BitVec 32
  l : BitVec 32
  o : List (BitVec 32)
  deriving DecidableEq, Repr

/-- What a leg hands back (R112, last column). -/
inductive Partial where
  | nothing
  | selected (lists : List (List Entry))
  | dense (scores : List (List Num))
  | bags (b : List BagPart)
  | keys (ks : List Nat)
  | attend (h : List Lse)
  | scan (matched : Nat) (sum : Num) (minmax : Option (Num × Num)) (ids : List Nat)
  | applied (n : Nat)
  deriving DecidableEq, Repr

/-- A stretch contiguous both in logical source offset and in DPA (R95). -/
structure SrcRun where
  off : Nat
  dpa : Nat
  len : Nat
  deriving DecidableEq, Repr

/-- Where bytes lie: device memory by DPA, or host memory by bus or tenant address on a port. -/
inductive Place where
  | dev (dpa : Nat)
  | host (port : Side) (pasid : Option Nat) (addr : Nat)
  deriving DecidableEq, Repr

/-- Where a leg stands: waits for a pending-leg place, waits in its stack's list, loads its operand, streams, ended. -/
inductive LegStage where
  | unplaced
  | placed
  | loading
  | running
  | ended
  deriving DecidableEq, Repr

/-- One leg of an operation (R95, R99). -/
structure Leg where
  stack : Nat
  runs : List SrcRun
  blocks : Nat
  stage : LegStage := .unplaced
  part : Partial := .nothing
  flags : NumFlags := {}
  straddled : Nat := 0
  streamed : Nat := 0
  /-- the operand its blocks hold (R83) -/
  operand : Bytes := []
  /-- SET_OP: the first key of its part of list 0, and of the next leg's (R137) -/
  lo : Nat := 0
  hi : Option Nat := none
  /-- GRAPH_WALK: it gave its context back and waits for lower-numbered stacks (R98) -/
  back : Bool := false
  /-- its place in its stack's list, which it keeps when it gives back (R92, R98) -/
  ticket : Nat := 0
  deriving DecidableEq, Repr

/-- The state a GRAPH_WALK's tile keeps between rounds (R130): beam entries with their expanded marks and stored neighbours, visited rows, the counters. -/
structure BeamEntry where
  entry : Entry
  row : Nat
  expanded : Bool
  nbrs : List Nat
  deriving DecidableEq, Repr

structure Walk where
  beam : List BeamEntry := []
  visited : List Nat := []
  rounds : Nat := 0
  scored : Nat := 0
  badEdges : Nat := 0
  stop : Nat := 0
  deriving DecidableEq, Repr

/-- Who submitted an operation: a local work entry (R208), or a message of a peer (R36) whose window starts at a DVA. -/
inductive OpSource where
  | entry (qpn : Nat) (idx : Nat)
  | message (qpn : Nat) (msn : BitVec 32) (window : Nat) (base : Nat)
  deriving DecidableEq, Repr

/-- Where an operation stands: it waits for merge space (R97), its cut waits on a fault (R95), its legs wait or run. -/
inductive OpStage where
  | waiting
  | stalled
  /-- its cut goes on once what it reads can be reached (R18) -/
  | reading
  | cut
  deriving DecidableEq, Repr

/-- One operation held by a tile. -/
structure Op where
  tile : Nat
  tenant : Nat
  src : OpSource
  desc : Bytes
  stage : OpStage := .waiting
  /-- operand-store blocks each leg needs (R82), and result body bytes -/
  blocks : Nat := 0
  body : Nat := 0
  /-- merge store it needs, in 4 KiB units, and whether it holds it (R97) -/
  need : Nat := 0
  merge : Bool := false
  /-- the source, the operand and the destination of COPY_CONVERT as the cut translated them -/
  srcRuns : List SrcRun := []
  opndRuns : List SrcRun := []
  dstRuns : List SrcRun := []
  /-- the places of a local result (R87) -/
  resRuns : List (Place × Nat) := []
  legs : List Leg := []
  walk : Walk := {}
  /-- timestamp counter at the start of the cut (R89 ENGINE_TIME) -/
  start : BitVec 64 := 0#64
  deriving DecidableEq, Repr

/-- The dispatcher's and base die's state for one stack (R92, R93, R108). -/
structure StackEng where
  /-- legs waiting for a context, in arrival order: operation and leg number -/
  queue : List (Nat × Nat) := []
  /-- legs that have joined the list: the place of the next one -/
  arrivals : Nat := 0
  deficit : Tab Nat := []
  /-- the tenant whose turn it is -/
  turn : Nat := 0
  /-- the head leg that other block grants wait for (R93) -/
  starving : Option (Nat × Nat) := none
  legsEnded : BitVec 48 := 0#48
  deriving DecidableEq, Repr

/-- The engine of the device. -/
structure Eng where
  ops : Tab Op := []
  nextOp : Nat := 0
  stk : List StackEng := List.replicate 32 {}
  /-- operations completed by each tile's merger (R110) -/
  opsDone : List (BitVec 48) := List.replicate 8 0#48
  /-- the last PENDING, MERGE_FREE and OPS of a lost tile (R110) -/
  lastTile : Tab (Nat × Nat × BitVec 48) := []
  deriving DecidableEq, Repr

end Sys2Proof.Machine
end

