-- ==== Sys2Proof/Machine/TypesQp.lean ====
section
/-! DEFINITION. The state of queue pairs, completion queues, local transfers and the transport of each queue pair (06_rings_qps_verbs, 07_wire_delivery, 08 per-path state, 14 packet keys). -/

namespace Sys2Proof.Machine

/-- KIND of a queue pair (R220). -/
inductive QpKind where
  | loc
  | v2
  | v1
  deriving DecidableEq, Repr

/-- Queue-pair states (R223). -/
inductive QpState where
  | reset
  | init
  | rtr
  | rts
  | flushing
  | error
  deriving DecidableEq, Repr

/-- What R220 creates a queue pair with; kept through a half reset (R234). -/
structure QpParams where
  tenant : Nat
  kind : QpKind
  weight : Nat
  sqStanding : Bool
  rqStanding : Bool
  noRq : Bool
  sqAddr : BitVec 64
  rqAddr : BitVec 64
  sqLog2 : Nat
  rqLog2 : Nat
  sendCq : Nat
  recvCq : Nat
  deriving DecidableEq, Repr

/-- A work ring's indices (R193): producer, consumer, and the next index to fetch, these two counted on from INIT in the send queue so that an entry keeps one number; for a standing ring, whether it has started (R225). The consumer index is the first entry not begun (log 25). -/
structure WorkRing where
  p : Nat := 0
  c : Nat := 0
  f : Nat := 0
  started : Bool := false
  /-- fetches repeated for PHASE of the entry at f (R195) -/
  refetch : Nat := 0
  /-- the fetch waits on a translation fault (R164) -/
  stalled : Bool := false
  /-- the RECV whose buffer translation the fetch waits on -/
  held : Bytes := []
  deriving DecidableEq, Repr

/-- A fetched send-queue entry that has not begun (R201): its number and its 64 bytes, with the failure its checks found (R212). -/
structure Fetched where
  idx : Nat
  bytes : Bytes
  fail : Option (Nat × Nat)
  deriving DecidableEq, Repr

/-- How a send-queue entry ended: completion code, detail, BYTE_COUNT, AUX. -/
structure WorkEnd where
  code : Nat
  detail : Nat
  count : Nat := 0
  aux : BitVec 64 := 0#64
  deriving DecidableEq, Repr

/-- A begun send-queue entry, released in ring order (R214, R216). -/
structure Begun where
  idx : Nat
  bytes : Bytes
  msn : Option (BitVec 32)
  fin : Option WorkEnd
  /-- its start waits on a translation fault (R164) -/
  held : Bool := false
  deriving DecidableEq, Repr

/-- A RECV fetched and translated (R201, R205, R257): ordinal, index, bytes; its end. -/
structure Recv where
  ord : Nat
  idx : Nat
  bytes : Bytes
  /-- taken by the message of this MSN -/
  msn : Option (BitVec 32) := none
  fin : Option (WorkEnd × Option (BitVec 32)) := none
  /-- its buffer as translated at its fetch, kept until it ends (R164) -/
  runs : List (Place × Nat) := []
  /-- that translation was removed by an invalidation (R164, R257) -/
  removed : Bool := false
  deriving DecidableEq, Repr

/-- A WAIT that has begun (R211). -/
structure WaitSt where
  idx : Nat
  cq : Nat
  target : BitVec 32
  count : BitVec 32 := 0#32
  satisfied : Bool := false
  /-- WAIT_MARK before it, for a WAIT returned unfetched (R461); patch items committed -/
  prev : BitVec 32 := 0#32
  items : Nat := 0
  /-- a patch met poison (R58) -/
  poisoned : Bool := false
  deriving DecidableEq, Repr

/-- One path of a transport queue pair (R254, R279). W is in 1/256 B. -/
structure Path where
  egress : Nat
  entropy : BitVec 14
  w : Nat
  inflight : Nat := 0
  srtt : Option Nat := none
  baseCur : Option Nat := none
  basePrev : Option Nat := none
  base : Option Nat := none
  lastDec : Nat := 0
  nextSend : Nat := 0
  up : Bool := true
  timeouts : Nat := 0
  holdStart : Nat := 0
  /-- when the PROBEs left that are not yet answered (R262, R284) -/
  probe : List Nat := []
  ignored : Bool := false
  deriving DecidableEq, Repr

/-- A packet that takes a PSN and is not yet acknowledged (R252, R261, R263). Not yet sent: sends is 0. -/
structure TxPkt where
  psn : BitVec 32
  ptype : BitVec 8
  msn : BitVec 32
  off : Nat
  len : Nat
  first : Bool
  last : Bool
  /-- extension and payload kept for responses the responder must keep (R258) or read at first sending -/
  ext : Bytes := []
  data : Option Bytes := none
  /-- tenant address that the first byte of the whole message or response is read from -/
  addr : Option Nat := none
  /-- index of the path last sent on, and the port it left by; 255 and 16 for none. From 256 on: paths that PATH_SET has removed, each with a number of its own (R254, R263) -/
  path : Nat := 255
  port : Nat := 16
  sends : Nat := 0
  /-- retransmissions counted under R263 -/
  retx : Nat := 0
  /-- bytes charged to INFLIGHT -/
  charge : Nat := 0
  sentAt : Nat := 0
  /-- order of sending on its path, for the early rule of R263 -/
  order : Nat := 0
  earlyDone : Bool := false
  /-- the packet waits to be sent (first time or again) -/
  due : Bool := true
  imm : Bool := false
  /-- tenant whose address the source is, where it is not the queue pair's own (a window's owner) -/
  srcTen : Option Nat := none
  /-- tile whose merge store keeps an OPERATE result (R258) -/
  tile : Nat := 0
  /-- bytes of the whole message or response -/
  total : Nat := 0
  /-- merge store that an OPERATE result keeps, in 4 KiB units (R97, R258) -/
  keep : Nat := 0
  deriving DecidableEq, Repr

/-- A request this queue pair has opened (R249). -/
structure TxMsg where
  msn : BitVec 32
  idx : Nat
  verb : Nat
  len : Nat
  /-- source data already read: INLINE_DATA, host memory or an OPERATE's descriptor -/
  data : Option Bytes
  /-- host read whose data the message waits for -/
  hostTag : Option Nat := none
  /-- its MSN came before MSN_LIMIT and its packets are numbered (R251) -/
  opened : Bool := false
  /-- ordinal among messages that consume a RECV (R242) -/
  ssn : Option (BitVec 32) := none
  notReady : Nat := 0
  suspended : Bool := false
  probes : Nat := 0
  /-- bytes of the response placed, the end of the highest, the header held back (R256), poison met (R259) -/
  placed : Nat := 0
  top : Nat := 0
  total : Option Nat := none
  header : Bytes := []
  poisoned : Bool := false
  uncorrectable : Bool := false
  /-- the places of its source (WRITE, SEND) or of its result, as translated when its entry began (R164, R173) -/
  runs : List (Place × Nat) := []
  deriving DecidableEq, Repr

/-- A message arriving at this queue pair (R256 to R258). -/
structure RxMsg where
  msn : BitVec 32
  verb : BitVec 8
  len : Option Nat
  placed : Nat := 0
  /-- end of the highest byte placed -/
  top : Nat := 0
  /-- the port its packets are checked at -/
  port : Nat := 0
  ssn : Option (BitVec 32) := none
  imm : Option (BitVec 32) := none
  /-- the request packet, for a READ, ATOMIC or OPERATE to admit -/
  request : Option Pkt := none
  admitted : Bool := false
  done : Bool := false
  /-- a codeword was left poisoned (R259) -/
  poisoned : Bool := false
  failed : Bool := false
  /-- its latest packet: PSN, PATH, and when it arrived (R243, R244) -/
  psn : BitVec 32 := 0#32
  path : BitVec 8 := 0#8
  arrived : BitVec 32 := 0#32
  deriving DecidableEq, Repr

/-- The packet keys a queue pair derived (R485 to R487) and the counters they run on. -/
structure Auth where
  slot : Nat
  sendKey : Bytes
  recvKey : Bytes
  sendSalt : Bytes
  recvSalt : Bytes
  csn : BitVec 64 := 0#64
  /-- one past the highest CSN accepted, and the replay bitmap below that one (R487) -/
  rxTop : BitVec 64 := 0#64
  rxMap : BitVec 64 := 0#64
  dead : Bool := false
  /-- a control packet would have taken CSN 2³¹ (R488) -/
  spent : Bool := false
  deriving DecidableEq, Repr

/-- The connection of a transport queue pair. Cleared on the move to RESET. -/
structure Conn where
  mtu : Nat := 1024
  peerNode : BitVec 16 := 0#16
  peerQpn : BitVec 32 := 0#32
  nextPsn : BitVec 32 := 0#32
  /-- SEND_PSN of QP_MODIFY (R249, R488) -/
  psn0 : BitVec 32 := 0#32
  cumTx : BitVec 32 := 0#32
  nextMsn : BitVec 32 := 0#32
  nextSsn : BitVec 32 := 0#32
  msnLimit : BitVec 32 := 0#32
  unacked : List TxPkt := []
  msgs : List TxMsg := []
  cumRx : BitVec 32 := 0#32
  rxMap : List Bool := List.replicate 256 false
  granted : BitVec 32 := 0#32
  /-- oldest request not complete at the receiver -/
  rxMsn : BitVec 32 := 0#32
  rx : List RxMsg := []
  /-- a valid packet has come from the peer (R251) -/
  gotValid : Bool := false
  /-- commits since the last ACK and the packet the next ACK echoes: PSN, TX_TIME, PATH, arrival -/
  commits : Nat := 0
  echo : BitVec 32 × BitVec 32 × BitVec 8 × BitVec 32 := (0#32, 0#32, 0#8, 0#32)
  lastLimit : BitVec 32 := 0#32
  /-- NAK UNCORRECTABLE of whole WRITEs, sent before the next ACK (R259): MSN and PSN -/
  pendNak : List (BitVec 32 × BitVec 32) := []
  /-- version 1: NAK SEQUENCE sent for this value of CUM_PSN (R274) -/
  seqNak : Option (BitVec 32) := none
  /-- the fatal NAK given, and when it was last sent (R267) -/
  fatal : Option (BitVec 8 × BitVec 8 × BitVec 32 × Nat) := none
  srtt : Nat := 0
  rttvar : Nat := 0
  rto : Nat := 50000
  sampled : Bool := false
  order : Nat := 0
  /-- violations within 1 ms: kind and time (R272) -/
  viol : List (Nat × Nat) := []
  /-- PATH_SETs since INIT, by which removed paths are told apart (R263) -/
  pathSets : Nat := 0
  /-- DISCONNECTs still to send and their REASON (R266) -/
  discLeft : Nat := 0
  discReason : Nat := 0
  auth : Option Auth := none
  deriving DecidableEq, Repr

/-- A queue pair. -/
structure Qp where
  par : QpParams
  st : QpState := .reset
  sq : WorkRing := {}
  rq : WorkRing := {}
  fetched : List Fetched := []
  begun : List Begun := []
  recvs : List Recv := []
  recvOrd : Nat := 0
  waitMark : BitVec 32 := 0#32
  wait : Option WaitSt := none
  /-- the entry to begin waits on a fault (R164) -/
  entryStalled : Bool := false
  /-- the receive queue had the last fetch turn (R200) -/
  lastRq : Bool := false
  /-- after an overflow of one completion queue, which other completion carries CQ_OVERFLOW next: true the receive queue's (R227) -/
  overflowNote : Option Bool := none
  conn : Conn := {}
  paths : List Path := []
  profile : Nat := 0
  deriving DecidableEq, Repr

/-- Completion-queue states (R227). -/
inductive CqState where
  | open
  | holding
  | stalled
  | overflow
  deriving DecidableEq, Repr

/-- A completion entry before its PHASE (R217). -/
structure Cqe where
  wrId : BitVec 64
  count : Nat
  imm : BitVec 32
  aux : BitVec 64
  qpn : Nat
  idx : Nat
  verb : Nat
  code : Nat
  detail : Nat
  immValid : Bool
  fromRq : Bool
  deriving DecidableEq, Repr

/-- A completion queue (R226, R227). -/
structure Cq where
  tenant : Nat
  log2 : Nat
  vector : BitVec 16
  addr : BitVec 64
  stallMs : Nat
  st : CqState := .open
  p : Nat := 0
  c : Nat := 0
  held : List Cqe := []
  count : BitVec 32 := 0#32
  discarded : Nat := 0
  armed : Bool := false
  /-- the CQ_STALL_LIMIT timer runs (R227) -/
  timer : Bool := false
  /-- a write of the ring waits on a translation fault (R164) -/
  stalledWrite : Bool := false
  deriving DecidableEq, Repr

/-- A leg of a local transfer (R30, R31): tile is the one it is given to, which serves its source stack, or the owning tile. -/
structure XLeg where
  tile : Nat := 0
  src : Place
  dst : Place
  len : Nat
  /-- data read from host memory, and the request that reads it -/
  data : Option Bytes := none
  hostTag : Option Nat := none
  /-- 256 B granules that came poisoned from the host -/
  bad : List Nat := []
  done : Bool := false
  deriving DecidableEq, Repr

/-- A local transfer in progress (R30). -/
structure Xfer where
  qpn : Nat
  idx : Nat
  tile : Nat
  entry : Bytes
  legs : List XLeg
  poisoned : Bool := false
  fail : Option (Nat × Nat) := none
  deriving DecidableEq, Repr

/-- What a device read of host memory was made for. -/
inductive HostUse where
  | leg (xfer : Nat) (leg : Nat)
  | message (qpn : Nat) (msn : BitVec 32)
  deriving DecidableEq, Repr

/-- A device read of host memory that is outstanding (R386). -/
structure HostReq where
  port : Side
  addr : Nat
  len : Nat
  use : HostUse
  pasid : Option Nat := none
  /-- it has left the port (R387), and when -/
  sent : Bool := true
  at_ : Nat := 0
  deriving DecidableEq, Repr

/-- Why a place keeps a tombstone (R269). -/
inductive TombCause where
  | hostLost
  | other
  deriving DecidableEq, Repr

/-- A tombstone, with the connection fields its NAKs are authenticated by (R269, R489). -/
structure Tomb where
  cause : TombCause
  peerNode : BitVec 16 := 0#16
  peerQpn : BitVec 32 := 0#32
  auth : Option Auth := none
  deriving DecidableEq, Repr

/-- Queue pairs, completion queues, tombstones, transfers. -/
structure Qps where
  qps : Tab Qp := []
  cqs : Tab Cq := []
  tombs : Tab Tomb := []
  /-- destroyed queue pairs with DISCONNECTs still to send (R266, R457 step 4) -/
  gone : Tab Qp := []
  xfers : Tab Xfer := []
  nextXfer : Nat := 0
  hostReqs : Tab HostReq := []
  nextTag : Nat := 0
  /-- fetch order: deficit of each tenant and the last served tenant, and its queue pair in turn with the turns left, by tile (R200) -/
  deficits : List (Tab Nat) := List.replicate 8 []
  lastTenant : List Nat := List.replicate 8 0
  lastQueue : List (Tab (Nat × Nat)) := List.replicate 8 []
  /-- last BAD_QP NAK to each source node (R266) -/
  badQpNak : Tab Nat := []
  deriving DecidableEq, Repr

end Sys2Proof.Machine
end

