-- ==== Sys2Proof/Machine/TypesNet.lean ====
section
/-! DEFINITION. The state of the sixteen network ports: egress queues, shapers, meters, gates, links, the node table, congestion profiles (07 to 09). Defaults are the reset values. -/

namespace Sys2Proof.Machine

/-- What an egress or forwarding queue holds. -/
inductive FrameKind where
  | pkt (ptype : BitVec 8) (p : Pkt) (qpn : Option Nat) (path : Nat)
  /-- an ARP or neighbour answer, from destination MAC to FCS (R238) -/
  | arp (bytes : Bytes)
  | neighbour (bytes : Bytes)
  /-- a frame in transit, byte for byte (R329) -/
  | transit (bytes : Bytes)
  /-- a link-management message (R337) -/
  | mgt (msg : Bytes)
  deriving DecidableEq, Repr

/-- A frame in an egress queue (R276 to R278): length from destination MAC to FCS, EXCESS tag (R295), time of entry. -/
structure Frame where
  len : Nat
  excess : Bool
  entered : Nat
  kind : FrameKind
  /-- a packet's Ethernet, IP and UDP headers, as built when it entered (R236, R237, R325) -/
  outer : Bytes := []
  /-- a sealed packet's work at a core, which it waits for in its queue (R474) -/
  ticket : Option Nat := none
  deriving DecidableEq, Repr

/-- A configuration that waits for the next fill (R293, R298): ENABLE, ACCUM, WEIGHT, CIR, PIR, CBS, PBS. -/
structure ShaperCfg where
  enable : Bool
  accum : Bool
  weight : Nat
  cir : Nat
  pir : Nat
  cbs : Nat
  pbs : Nat
  deriving DecidableEq, Repr

/-- A committed and a peak bucket (R291): levels in 1/1,024 B. Defaults are those of R294, which gives no rate before SHAPER_SET (log 26). -/
structure Shaper where
  enable : Bool := false
  accum : Bool := true
  weight : Nat := 1
  cir : Nat := 0
  pir : Nat := 100
  cbs : Nat := 8362
  pbs : Nat := 8362
  committed : Int := 8562688
  peak : Int := 8562688
  next : Option ShaperCfg := none
  deriving DecidableEq, Repr

/-- METER modes (R298). -/
inductive MeterMode where
  | off
  | mark
  | police
  deriving DecidableEq, Repr

/-- A meter configuration that waits for the next fill (R298). -/
structure MeterCfg where
  mode : MeterMode
  cir : Nat
  pir : Nat
  cbs : Nat
  pbs : Nat
  yellowFill : Nat
  deriving DecidableEq, Repr

/-- An ingress meter (R297, R298). -/
structure Meter where
  mode : MeterMode := .off
  cir : Nat := 0
  pir : Nat := 100
  cbs : Nat := 8362
  pbs : Nat := 8362
  yellowFill : Nat := 0
  committed : Int := 8562688
  peak : Int := 8562688
  next : Option MeterCfg := none
  deriving DecidableEq, Repr

/-- One egress queue (R276 to R278, R304 to R308). -/
structure EgressQ where
  frames : List Frame := []
  shaper : Shaper := {}
  deficit : Nat := 0
  /-- largest depth and sojourn of the running period, and the latched ones -/
  maxDepth : Nat := 0
  maxSojourn : Nat := 0
  peakDepth : Nat := 0
  peakSojourn : Nat := 0
  sent : BitVec 48 := 0#48
  /-- the head frame was at the head when its gate opened (R301) -/
  headWaited : Bool := false
  deriving DecidableEq, Repr

/-- A gate list (R301, R302): entries of duration and mask. -/
structure GateList where
  base : Nat
  cycle : Nat
  entries : List (Nat × BitVec 8)
  deriving DecidableEq, Repr

/-- A gate change that waits for its cycle start (R303). -/
structure GatePending where
  list : Option GateList
  cmd : CmdSlot
  at_ : Nat
  deriving DecidableEq, Repr

/-- Port modes (R311). -/
inductive PortMode where
  | none
  | dr8
  | splitDr4
  | direct
  deriving DecidableEq, Repr

def PortMode.code : PortMode → Nat
  | .none => 0
  | .dr8 => 1
  | .splitDr4 => 2
  | .direct => 3

/-- Port states (R340, R344). -/
inductive PortState where
  | down
  | training
  | checking
  | up
  | stepping
  | held
  | adminDown
  | sleep
  deriving DecidableEq, Repr

def PortState.code : PortState → Nat
  | .down => 0
  | .training => 1
  | .checking => 2
  | .up => 3
  | .stepping => 4
  | .held => 5
  | .adminDown => 6
  | .sleep => 7

/-- What a width step is for (R333, R334, R336, R341). -/
inductive StepCause where
  | lane
  | up
  | recalDown (lane : Nat) (cmd : CmdSlot)
  | recalUp (lane : Nat) (cmd : CmdSlot)
  | cap (cmd : CmdSlot)
  deriving DecidableEq, Repr

/-- A width step in progress (R333, R337): the mask proposed, and which messages have come. -/
structure WidthStep where
  cause : StepCause
  mask : BitVec 8
  stateIn : Bool := false
  reqSent : Bool := false
  ackIn : Bool := false
  ackOut : Bool := false
  /-- the width that the peer's proposal allows -/
  peerWidth : Nat := 8
  deriving DecidableEq, Repr

/-- The direct link layer of one port (R314 to R320). -/
structure Link where
  txSeq : Nat := 0
  unacked : List (Nat × Block) := []
  rxSeq : Nat := 0
  /-- a REPLAY_REQ for rxSeq is outstanding (R320) -/
  reqOut : Bool := false
  /-- replays from one SEQ without progress -/
  replaySeq : Nat := 0
  replayCount : Nat := 0
  /-- credits held for each of the seven channels (R317), and owed to the peer -/
  credits : List Nat := [832, 832, 832, 832, 320, 320, 128]
  owed : List Nat := List.replicate 7 0
  nextOwed : Nat := 0
  /-- places of this end's buffer the peer may still fill -/
  rxCredits : List Nat := [832, 832, 832, 832, 320, 320, 128]
  /-- blocks of the frame open on each channel; dropping: the rest of it is discarded -/
  openBlocks : List (List Bytes) := List.replicate 7 []
  dropping : List Bool := List.replicate 7 false
  /-- whole frames for other nodes, which wait to be forwarded (R329): channel and bytes -/
  whole : List (Nat × Bytes) := []
  /-- whole frames for this node, whose packets have not been taken (R316): channel and bytes -/
  inward : List (Nat × Bytes) := []
  /-- violations of each kind and their times (R343) -/
  viol : List (Nat × Nat) := []
  deriving DecidableEq, Repr

/-- The Lamold entry of one port (R339, R340). -/
structure PortEntry where
  mode : PortMode := .none
  fallback : Bool := false
  peerPort : Nat := 0
  peerNode : BitVec 16 := 0#16
  peerId : Bytes := []
  chassis : Bytes := []
  portId : Bytes := []
  /-- torus direction of a DIRECT port, 0 to 5, none otherwise (R327) -/
  dir : Option Nat := none
  mac : Bytes := []
  ipv4 : Bytes := []
  ipv6 : Bytes := []
  deriving DecidableEq, Repr

/-- One network port. -/
structure NetPort where
  ent : PortEntry := {}
  st : PortState := .down
  lanesActive : BitVec 8 := 0#8
  lanesHealthy : BitVec 8 := 0#8
  recal : Option (Nat × CmdSlot) := none
  /-- a LANE_RECAL of an Ethernet port that is answered once the port is UP again -/
  recalUp : Option CmdSlot := none
  /-- how a recalibration ended that a width step has wait (R336) -/
  recalDone : Option Bool := none
  /-- a lane stepped out is healthy again while no step can start (R334) -/
  stepUpDue : Bool := false
  /-- a step that waits for the port to be UP: one that a retrain cut short, or that of a new cap (R336, R341) -/
  stepAfter : Option StepCause := none
  /-- lanes whose check of R332 a run of bad blocks has asked for (R343) -/
  laneCheck : BitVec 8 := 0#8
  fallbackActive : Bool := false
  sublinkA : Bool := false
  sublinkB : Bool := false
  peerNode : BitVec 16 := 0#16
  peerPort : Nat := 0
  /-- DEVICE_ID of the last IDENT, and the chassis and port ID of the last LLDPDU, which ENV_CHECK compares (R558) -/
  peerId : Bytes := []
  lldpSeen : Option (Bytes × Bytes) := none
  peerMatch : Bool := false
  replays : BitVec 32 := 0#32
  retrains : BitVec 16 := 0#16
  steps : BitVec 16 := 0#16
  /-- a replay retrain keeps link state (R320) -/
  replayRetrain : Bool := false
  step : Option WidthStep := none
  widthCap : Nat := 8
  /-- the LINK_CONTROL whose DOWN waits for the replay drain (R341) -/
  adminDrain : Option CmdSlot := none
  sleepReq : Bool := false
  sleepSent : Bool := false
  /-- SLEEP_ACK has passed: the port sleeps once its replay buffer is empty (R534, R536) -/
  sleepDue : Bool := false
  identSeen : Bool := false
  /-- a new record has the port exchange IDENT again while it stays UP (R342) -/
  recheck : Bool := false
  /-- that check failed: the port ends in HELD once its replay buffer is empty (R342) -/
  holding : Bool := false
  lldpDue : Bool := false
  /-- the second FEC retrain within 60 s (R343): time of the last -/
  fecLast : Option Nat := none
  link : Link := {}
  queues : List EgressQ := List.replicate 8 {}
  /-- the device's own frames that wait for room in EQ6 and EQ7, oldest first (R18, R277) -/
  held6 : List Frame := []
  held7 : List Frame := []
  /-- forwarding queues of the seven channels (R329) -/
  forward : List (List Frame) := List.replicate 7 []
  forwardTurn : Nat := 0
  excessTurn : Nat := 0
  meter : Meter := {}
  gate : Option GateList := none
  gateIdx : Nat := 0
  gateOn : Bool := false
  /-- when the entry in force began -/
  gateAt : Nat := 0
  gatePending : Option GatePending := none
  /-- RX and LNK counts by event-counter source (R272, R343) -/
  counts : Tab Nat := []
  /-- trailer mismatches within 1 s (R272) -/
  trailerBad : List Nat := []
  deriving DecidableEq, Repr

/-- A congestion profile (R288, R290); the defaults are profile 0. -/
structure Profile where
  targetDelay : Nat := 2000
  wInit : Nat := 65536
  wMin : Nat := 1024
  wMax : Nat := 524288
  ai : Nat := 1024
  beta : Nat := 192
  mdMax : Nat := 128
  baseWin : Nat := 1000
  paceGain : Nat := 320
  pathHold : Nat := 1000
  deriving DecidableEq, Repr

/-- A tenant's shaper and meter on one tile (R295, R297). -/
structure TenantPace where
  shapers : List Shaper := List.replicate 8 {}
  meters : List Meter := List.replicate 8 {}
  /-- the egress queue that a SHAPER_SET gives the tenant at the next fill -/
  egressNext : Option Nat := none
  deriving DecidableEq, Repr

/-- The network side of the device. -/
structure Net where
  ports : List NetPort := List.replicate 16 {}
  /-- VALID entries of the node table, 32 bytes each (R324); the copies of the tiles follow it (R40) -/
  nodes : Tab Bytes := []
  tileNodes : List (Tab Bytes) := List.replicate 8 []
  nodeId : BitVec 16 := 0#16
  torus : Nat × Nat × Nat := (0, 0, 0)
  udpPort : BitVec 16 := 47312#16
  profiles : List Profile := List.replicate 16 {}
  /-- the copies of the tiles (R289) -/
  tileProfiles : List (List Profile) := List.replicate 8 (List.replicate 16 {})
  /-- profiles that are defined; one that is not holds the values of profile 0 (log 29) -/
  defined : List Nat := [0]
  /-- profile bound for every transport queue pair of a tenant (R288) -/
  tenantProfile : Tab Nat := []
  pace : Tab TenantPace := []
  /-- fills made, modulo 125: the model's own count, by which no rate is lost to rounding (log 51) -/
  fills : Nat := 0
  /-- first-per-60-s log entries: kind, object, time (R272, R343) -/
  loggedAt : List (Nat × Nat × Nat) := []
  deriving DecidableEq, Repr

end Sys2Proof.Machine
end

