-- ==== Sys2Proof/Machine/TypesRope.lean ====
section
/-! DEFINITION. The state of ropes (10_ropes). Defaults are the reset values. -/

namespace Sys2Proof.Machine

/-- Rope slot states other than FREE (R376). -/
inductive RopeState where
  | idle
  | running
  | aborted
  deriving DecidableEq, Repr

/-- The creation record of a rope (R347). -/
structure RopeParams where
  tenant : Nat
  ropeId : BitVec 32
  tile : Nat
  members : Nat
  index : Nat
  priority : Nat
  mtu : Nat
  downNode : BitVec 16
  downSlot : Nat
  downEgress : Nat
  upNode : BitVec 16
  upSlot : Nat
  upEgress : Nat
  pieceLog2 : Nat
  ledges : Nat
  entropy : BitVec 14
  timeoutUs : Nat
  callAddr : Nat
  callLog2 : Nat
  triggerCq : Nat
  doneCq : Nat
  maxRate : Nat
  deriving DecidableEq, Repr

/-- Bytes of a piece-lap in its ledge, as one packet brought them; used once this member has written or combined them. -/
structure Chunk where
  off : Nat
  data : Bytes
  used : Bool := false
  deriving DecidableEq, Repr

/-- A piece-lap in a ledge of this member (R366): its HPN, the flags that came with it, and at a root of REDUCE_BROADCAST its result. -/
structure PieceIn where
  piece : Nat
  lap : Nat
  hpn : Nat
  chunks : List Chunk := []
  flags : Nat := 0
  res : List Chunk := []
  deriving DecidableEq, Repr

/-- A piece-lap this member sends (R360): its HPN and the packets that have been made. -/
structure PieceOut where
  piece : Nat
  lap : Nat
  hpn : Nat
  sent : Nat := 0
  flags : Nat := 0
  deriving DecidableEq, Repr

/-- One packet sent on a hop and not yet acknowledged (R365). -/
structure HopPkt where
  psn : BitVec 32
  ptype : BitVec 8
  piece : Nat
  lap : Nat
  p : Pkt
  sends : Nat := 0
  sentAt : Nat := 0
  retx : Nat := 0
  /-- it waits to be sent, first time or again; sending order, for the early rule of R263 -/
  due : Bool := true
  order : Nat := 0
  earlyDone : Bool := false
  deriving DecidableEq, Repr

/-- The sending end of the downstream hop, afresh for each call (R365, R366); the smoothed round trip is the rope's. -/
structure HopTx where
  started : Bool := false
  nextPsn : BitVec 32 := 0#32
  cum : BitVec 32 := 0#32
  limit : Nat := 0
  nextHpn : Nat := 0
  unacked : List HopPkt := []
  order : Nat := 0
  deriving DecidableEq, Repr

/-- The receiving end of the upstream hop. -/
structure HopRx where
  cum : BitVec 32 := 0#32
  map : List Bool := List.replicate 256 false
  limit : Nat := 0
  gotFirst : Bool := false
  /-- commits since the last ROPE_ACK, and what the next one echoes: PSN, TX_TIME, arrival (R260) -/
  commits : Nat := 0
  echo : BitVec 32 × BitVec 32 × Nat := (0#32, 0#32, 0)
  deriving DecidableEq, Repr

/-- A call that has begun (R352, R359): piece-laps in ledges, piece-laps being sent, those wholly received and committed here, those wholly sent and acknowledged, pieces confirmed to this member and by it, the flags it will report. -/
structure Call where
  num : Nat
  entry : Bytes
  input : List PieceIn := []
  output : List PieceOut := []
  got : List (Nat × Nat) := []
  gave : List (Nat × Nat) := []
  confIn : Nat := 0
  confOut : Nat := 0
  flags : Nat := 0
  tx : HopTx := {}
  rx : HopRx := {}
  deriving DecidableEq, Repr

/-- A rope slot that is not FREE. -/
structure Rope where
  par : RopeParams
  st : RopeState := .idle
  /-- trigger mark (R349) and the next call -/
  mark : BitVec 32
  nextCall : Nat := 0
  callsDone : BitVec 32 := 0#32
  call : Option Call := none
  refetch : Nat := 0
  stalled : Bool := false
  /-- completions that DONE_CQ has not taken yet, each with its SIGNAL (R227) -/
  waiting : List (Cqe × Bool) := []
  /-- the last call that completed here: number, CUM_PSN, LEDGE_LIMIT, for its packets that come again (R365) -/
  past : Nat × BitVec 32 × Nat := (0, 0#32, 0)
  abortCall : Nat := 0
  abortOrigin : Nat := 0
  abortReason : Nat := 0
  /-- the entry of the call that aborted, for the repeats of ROPE_ABORT -/
  abortEntry : Bytes := []
  /-- ROPE_ABORT sendings left downstream and upstream (R373) -/
  abortDown : Nat := 0
  abortUp : Nat := 0
  pitches : BitVec 64 := 0#64
  retx : BitVec 64 := 0#64
  srtt : Nat := 0
  rttvar : Nat := 0
  sampled : Bool := false
  bucket : Int := 0
  /-- since when each pitch, a piece and its lap, has been eligible (R375) -/
  since : List ((Nat × Nat) × Nat) := []
  /-- ROPE_DESTROY runs: its command, or a tenant reset's freeing -/
  destroying : Option (Option CmdSlot) := none
  deriving DecidableEq, Repr

/-- Ropes of the device. -/
structure Ropes where
  slots : Tab Rope := []
  /-- the pitch each tile served last, slot, piece and lap in one number, for round robin within one priority (R375) -/
  last : List Nat := List.replicate 8 0
  /-- last NO_ROPE answer to each source node (R367) -/
  noRope : Tab Nat := []
  deriving DecidableEq, Repr

end Sys2Proof.Machine
end

