-- ==== Sys2Proof/Machine/TypesCtl.lean ====
section
/-! DEFINITION. The state of the host ports, the centre die's Hasps, lease and mailboxes, the control dies and the command rings (11_host_ports_control, 12_command_packets). Defaults are the reset values. -/

namespace Sys2Proof.Machine

/-- An MSI-X table entry: message address, data, mask (R411, R412). -/
structure MsixEntry where
  addr : BitVec 64 := 0#64
  data : BitVec 32 := 0#32
  masked : Bool := true
  pending : Bool := false
  deriving DecidableEq, Repr

/-- Errors a port has logged through AER: how often each, and the header logged with the latest that carries one (R381, R415). -/
structure AerLog where
  counts : List (AerError × Nat) := []
  header : BitVec 128 := 0#128
  /-- severity and mask that the host programs, by error: set bits are fatal, or masked (R415); reset values of the family (log 31) -/
  severe : List AerError := [.dataLinkProtocol, .surpriseDown, .flowControl, .receiverOverflow, .malformedTlp, .uncorrectableInternal]
  masked : List AerError := [.uncorrectableInternal, .correctedInternal, .advisoryNonFatal, .headerLogOverflow]
  deriving DecidableEq, Repr

/-- Completion-timeout ranges of R386, each with its two halves in us: 50 us to 64 s. -/
inductive CplRange where
  | a | b | c | d
  deriving DecidableEq, Repr

/-- A range's bounds in us (R386; the split among A to D is PRESUMED from PCI Express, log 31). -/
def CplRange.bounds : CplRange → Nat × Nat
  | .a => (50, 10000)
  | .b => (10000, 250000)
  | .c => (250000, 4000000)
  | .d => (4000000, 64000000)

/-- The range that a programmed timeout lies in. -/
def CplRange.of (us : Nat) : Option CplRange :=
  [CplRange.a, .b, .c, .d].find? fun r => r.bounds.1 ≤ us && us ≤ r.bounds.2

/-- A port's configuration space: what identifies the part (R11, R382), and what the host programs within R381 and R386 (log 31). -/
structure ConfigSpace where
  vendor : BitVec 16 := 0x1D5A#16
  device : BitVec 16 := 0x4832#16
  revision : BitVec 8 := 0xB0#8
  classCode : BitVec 24 := 0x120000#24
  subsysVendor : BitVec 16 := 0x1D5A#16
  subsysId : BitVec 16 := 0x0001#16
  interruptPin : BitVec 8 := 0x00#8
  /-- maximum payload and maximum read request, in bytes -/
  maxPayload : Nat := 128
  maxReadRequest : Nat := 512
  /-- width of the tags in use -/
  tagBits : Nat := 8
  relaxedOrdering : Bool := true
  /-- completion timeout in us: 50 ms until the host programs another (R386) -/
  completionTimeout : Nat := 50000
  /-- reported in the power management capability (R387) -/
  noSoftReset : Bool := true
  /-- ASPM L1, and its substates L1.1 and L1.2, enabled by the host (R381) -/
  aspmL1 : Bool := false
  aspmL11 : Bool := false
  aspmL12 : Bool := false
  deriving DecidableEq, Repr

/-- Work that a port holds while it cannot issue requests, one entry for each item in the order in which it was held (R387). -/
inductive HeldWork where
  | write
  | reply (k : Nat)
  | read (tag : Nat)
  | ats (tag : Nat)
  | cairn
  | pages
  | event (tenant : Nat)
  | completion (cqn : Nat)
  | msix (vector : Nat)
  | job
  deriving DecidableEq, Repr

/-- One host port (R381 to R387, R411, R415 to R417). -/
structure HostPort where
  config : ConfigSpace := {}
  linkUp : Bool := false
  width : Nat := 0
  gen : Nat := 0
  flit : Bool := false
  belowRecord : Bool := false
  degraded : Bool := false
  recordWidth : Nat := 0
  d3hot : Bool := false
  busMaster : Bool := false
  /-- function mask of MSI-X -/
  funcMask : Bool := false
  /-- entries that differ from masked and zero -/
  msix : Tab MsixEntry := []
  aer : AerLog := {}
  /-- ATS enabled by the host; page request allocation (R163, R171) -/
  atsEnabled : Bool := false
  priAlloc : Nat := 0
  /-- violations of each kind (R415): counts, and the times of those that escalate -/
  counts : Tab Nat := []
  escal : List Nat := []
  /-- writes held until requests may be issued again (R387): PASID, address, bytes, whether it may be relaxed -/
  heldWrites : List (Option Nat × Nat × Bytes × Bool) := []
  /-- everything held, oldest first (R387) -/
  waits : List HeldWork := []
  /-- ATS invalidations held for a place among 32 -/
  invHeld : List (Nat × Nat × Nat) := []
  deriving DecidableEq, Repr

/-- One Hasp (R391, R392). -/
structure Hasp where
  epoch : BitVec 32 := 0#32
  token : BitVec 16 := 0#16
  holder : Option Agent := none
  deriving DecidableEq, Repr

/-- One mailbox (R402 to R409). -/
structure Mailbox where
  word : BitVec 64 := 0#64
  full : Bool := false
  taken : Bool := false
  reject : Bool := false
  timeout : Bool := false
  receiverReset : Bool := false
  senderReset : Bool := false
  deriving DecidableEq, Repr

/-- Control die states (R398), with lost for R399. -/
inductive DieState where
  | starting
  | leader
  | follower
  | fenced
  | lost
  deriving DecidableEq, Repr

/-- The fields of a command header (R422). -/
structure CmdHdr where
  opcode : BitVec 16
  hflags : BitVec 8
  length : Nat
  deadline : Nat
  cmdId : BitVec 64
  hasp : Nat
  token : BitVec 16
  epoch : BitVec 32
  deriving DecidableEq, Repr

/-- An object a hold is taken on (R430). -/
inductive HoldObj where
  | tenant (n : Nat)
  | alloc (h : Nat)
  | window (n : Nat)
  | qp (n : Nat)
  | cq (n : Nat)
  | rope (n : Nat)
  | port (n : Nat)
  | key (n : Nat)
  | hasp (n : Nat)
  deriving DecidableEq, Repr

/-- A hold: its object, and whether it is exclusive. -/
structure Hold where
  obj : HoldObj
  excl : Bool
  deriving DecidableEq, Repr

/-- Where the command of a slot stands: fetched and waiting for its holds; begun, its effect to come; running until another row ends it. -/
inductive CmdStage where
  | fetched
  | begun
  | running
  /-- its reply is written as soon as the port can issue requests again (R387) -/
  | replied
  deriving DecidableEq, Repr

/-- The command of a ring or of the sideband. -/
structure Cmd where
  hdr : CmdHdr
  /-- parameters, from offset 0x40 -/
  params : Bytes
  /-- ring index modulo 2S -/
  idx : Nat
  stage : CmdStage
  holds : List Hold := []
  /-- fetch order -/
  order : Nat
  visible : Nat
  began : Nat := 0
  /-- it has begun, which its stage no longer shows once it is answered -/
  ran : Bool := false
  /-- status of a reply that is held (R387) -/
  status : Nat := 0
  /-- begun under this leadership epoch -/
  epoch : BitVec 32 := 0#32
  resultLost : Bool := false
  late : Bool := false
  /-- the port was reset while it ran: no reply (R436) -/
  orphan : Bool := false
  /-- progress of a command that ends by other rows: what its own chapter counts -/
  work : List Nat := []
  deriving DecidableEq, Repr

/-- One command ring (R441 to R444). -/
structure CmdRing where
  base : BitVec 64 := 0#64
  replyBase : BitVec 64 := 0#64
  vector : BitVec 11 := 0#11
  sizeLog2 : BitVec 4 := 4#4
  enable : Bool := false
  prod : BitVec 16 := 0#16
  cons : BitVec 16 := 0#16
  prodInvalid : Bool := false
  stopping : Bool := false
  cmd : Option Cmd := none
  /-- the packet at cons did not match its PHASE: its re-reads so far (R428) -/
  refetch : Nat := 0
  /-- acceptance time of the producer index that made each index visible: index bound, time (R431) -/
  visible : List (Nat × Nat) := []
  /-- commands below this index waited for a leader (LATE of R424) -/
  lateTo : Option Nat := none
  deriving DecidableEq, Repr

/-- A command's reply to come: its slot and opcode, status, result record. -/
structure ReplyDue where
  slot : CmdSlot
  opcode : Nat
  status : Nat
  res : Option (Nat × Bytes)
  deriving DecidableEq, Repr

/-- A change of replicated tables under way (R40): the writes not yet acknowledged, each with its tile (8 and 9: host-interface die), and the reply that completes the change. -/
structure Repl where
  writes : List (Nat × TableWrite)
  reply : Option ReplyDue
  deriving DecidableEq, Repr

/-- The management sideband (R413, R414, R435). -/
structure Sideband where
  dynAddr : Option (BitVec 7) := none
  /-- MCTP endpoint identifier, 0 for none (R414) -/
  eid : BitVec 8 := 0#8
  cmd : Option Cmd := none
  /-- a request that has arrived and is not yet fetched -/
  request : Option Bytes := none
  reqTime : Nat := 0
  /-- the request waited for a leader (LATE of R424) -/
  late : Bool := false
  /-- In-Band Interrupts pending, by vector 0 or 3 -/
  ibi : List Nat := []
  deriving DecidableEq, Repr

/-- Control of the device. -/
structure Ctl where
  dies : Pair DieState := ⟨.starting, .starting⟩
  hasps : List Hasp := List.replicate 64 {}
  /-- microseconds left on the lease (R400) -/
  lease : Nat := 0
  mbx : List Mailbox := List.replicate 6 {}
  /-- command rings 0 to 3 of each host port -/
  rings : Pair (List CmdRing) := ⟨List.replicate 4 {}, List.replicate 4 {}⟩
  side : Sideband := {}
  /-- ring last served, for round robin over nine (R429) -/
  turn : Nat := 8
  nextOrder : Nat := 0
  /-- changes of replicated tables that not every live unit has acknowledged (R40) -/
  repl : List Repl := []
  /-- a half reset names the leader's half and waits for the handover: the half (R432) -/
  handover : Option Side := none
  /-- ALERT_N causes held (R581) -/
  alerts : List Nat := []
  deriving DecidableEq, Repr

end Sys2Proof.Machine
end

