-- ==== Sys2Proof/Machine/TypesMem.lean ====
section
/-! DEFINITION. The state of the internal credit queues and of the device memory stacks (01_architecture, 02_memory_stacks). Defaults are the reset values. -/

namespace Sys2Proof.Machine

/-- A unit on its way between two tiles, with its class: its flow (R14, R17). On the other queues the tiles are 0. -/
structure Flit where
  cls : QClass
  src : Nat := 0
  dst : Nat := 0
  deriving DecidableEq, Repr

/-- A unit out on a queue: its flow, and between the halves the segment it took when it left its source (R15, R17). -/
structure Sent where
  flow : Flit
  seg : Option Nat := none
  deriving DecidableEq, Repr

/-- One credit queue that is not at rest (R18 to R29); an unlisted queue has every credit and holds nothing. -/
structure CreditQ where
  id : QueueId
  /-- units sent whose credit has not come back: they stand in the receiver's queue, oldest first -/
  units : List Sent := []
  /-- units the sender holds for want of credit; those between tiles wait in Fab.waiting -/
  held : Nat := 0
  /-- one end is in reset: nothing is sent until it is ready (R28) -/
  resetting : Bool := false
  /-- when the sender last sent, or began to hold units (R27) -/
  since : Nat := 0
  /-- when its stall was last logged; none once it has sent again (R27) -/
  logged : Option Nat := none
  deriving DecidableEq, Repr

/-- A unit that waits at its source tile, and since when (R17, R18). -/
structure WaitingFlit where
  flit : Flit
  since : Nat
  deriving DecidableEq, Repr

/-- An access of a host port to a register of a base die: a write of a value by a requester, or a read (R13, R41). -/
structure DieAccess where
  port : Side
  off : Nat
  size : Nat
  write : Option (BitVec 64 × BitVec 16)
  deriving DecidableEq, Repr

/-- What has arrived and cannot be served yet: a doorbell (port, page, ring kind and number, index, ARM), a packet with its port and PTYPE, one that a queue pair has accepted and when it arrived, data of a host read with its poisoned granules where it came poisoned, an access to a base die's register, the leadership epoch that is broadcast to a base die. -/
inductive Arrived where
  | bell (p : Side) (requester : BitVec 16) (page : Nat) (kind : Nat) (number : BitVec 16) (index : BitVec 16) (arm : Bool)
  | pkt (port : Nat) (ptype : BitVec 8) (p : Pkt)
  | completion (tag : Nat) (data : Bytes) (bad : Option (List Nat))
  | accepted (qpn port : Nat) (ptype : BitVec 8) (p : Pkt) (at_ : BitVec 32)
  /-- a rope packet on its way from its port's tile to the rope's (R37) -/
  | rope (port : Nat) (ptype : BitVec 8) (p : Pkt)
  /-- a packet for EQ6 or EQ7 on its way to the port's tile, with its headers -/
  | outward (port : Nat) (ptype : BitVec 8) (p : Pkt) (qpn : Option Nat) (path : Nat) (outer : Bytes)
  | register (r : DieAccess)
  /-- an epoch for the base die of a stack (R13, R20) -/
  | epoch (stack : Nat) (e : BitVec 32)
  deriving DecidableEq, Repr

/-- What must cross the package on a flow, and waits for it in the order of its flow (R17, R18, R30, R34, R41): by the input port of its source tile's switch at which it enters, and to a base die by the MGT class of its stack link. -/
structure Crossing where
  flow : Flit
  entry : Nat
  base : Option Nat := none
  what : Arrived
  deriving DecidableEq, Repr

/-- Credit queues, bridge segments and intra-half links (01_architecture). -/
structure Fab where
  queues : List CreditQ := []
  /-- units between tiles that wait at their source, oldest first -/
  waiting : List WaitingFlit := []
  /-- places that requesters have reserved in their RSP receive queues, one entry a place (R21): the RSP queue of rows 2 and 4, or of rows 6 and 8 with the flow of the response -/
  rsp : List QueueId := []
  /-- what waits to cross the package -/
  crossings : List Crossing := []
  /-- bridge segments 0 to 3 that are up (R15) -/
  segUp : List Bool := [true, true, true, true]
  /-- intra-half links that are down, by their two tiles, lower first (R16) -/
  linksDown : List (Nat × Nat) := []
  /-- live tiles (R40, TILE_LOST) -/
  tileLive : List Bool := [true, true, true, true, true, true, true, true]
  /-- the leadership epoch each tile, and as 8 and 9 each host-interface die, last learned (R39) -/
  tileEpoch : List (BitVec 32) := List.replicate 10 0#32
  /-- the leadership epoch each base die last learned by broadcast (R13, R20) -/
  baseEpoch : List (BitVec 32) := List.replicate 32 0#32
  /-- stale replicated-table writes each has rejected (R39) -/
  staleCount : List Nat := List.replicate 10 0
  deriving DecidableEq, Repr

/-- Stack states (R65). -/
inductive StackMode where
  | init
  | online
  | parking
  | parked
  | waking
  | offline
  deriving DecidableEq, Repr

/-- The coding of STATE in DEV_STACK_STATUS (R67). -/
def StackMode.code : StackMode → Nat
  | .init => 0
  | .online => 1
  | .parking => 2
  | .parked => 3
  | .waking => 4
  | .offline => 5

/-- Why a row group was retired (R64). -/
inductive RetireCause where
  | correctable
  | uncorrectable
  | withoutMove
  deriving DecidableEq, Repr

def RetireCause.code : RetireCause → Nat
  | .correctable => 1
  | .uncorrectable => 2
  | .withoutMove => 3

/-- A redirect entry or lost row group (R61 to R64); spare is a reserve row group number, none when retired without a move. -/
structure Retired where
  spare : Option Nat
  /-- timestamp counter at retirement, 0 when made before the last power-on -/
  time : BitVec 64
  cause : RetireCause
  owner : Option Nat
  poisoned : Nat
  deriving DecidableEq, Repr

/-- What the ECC check of one codeword finds (R55): its bytes, its corrected bytes, an uncorrectable codeword, or one poisoned before. -/
inductive Found where
  | clean (b : Bytes)
  | fixed (b : Bytes)
  | lost
  | poison
  deriving DecidableEq, Repr

/-- An access held by a base die (R61, R65): a read or write with the symbol errors of its codewords, or one whose cells have been served and whose answer is still held. -/
inductive Access where
  | read (off : Nat) (codewords : Nat) (who : Requester) (errs : List (Nat × Nat))
  | write (off : Nat) (data : Bytes) (who : Requester) (errs : List (Nat × Nat))
  | readDone (off : Nat) (who : Requester) (found : List Found)
  | writeDone (off : Nat) (len : Nat) (who : Requester) (found : List (Nat × Found)) (bad : Bool)
  deriving DecidableEq, Repr

/-- A row-group move in progress (R61): the group, its reserve group, why, and the accesses that wait for it. -/
structure Move where
  group : Nat
  spare : Nat
  cause : RetireCause
  hold : List Access := []
  deriving DecidableEq, Repr

/-- A tracked chimney row: its chimney, row group and correctable errors (R60). -/
structure CeTrack where
  chimney : Nat
  group : Nat
  count : Nat
  deriving DecidableEq, Repr

/-- One memory stack (R65 to R69 and the retirement records of R60 to R63). -/
structure Stack where
  mode : StackMode := .init
  parkReq : Bool := false
  /-- codewords read in the current scrub pass (R59) -/
  scrubPos : Nat := 0
  reserveExhausted : Bool := false
  ueSeen : Bool := false
  ceSeen : Bool := false
  ceCount : BitVec 48 := 0#48
  ueCount : BitVec 48 := 0#48
  /-- correctable errors since the last log entry (R56) -/
  ceUnlogged : Nat := 0
  /-- when they were last logged (R56) -/
  ceLogged : Option Nat := none
  lostGroups : BitVec 16 := 0#16
  reserveUsed : Nat := 0
  /-- reserve row groups set aside that served none, by number within the reserve (R60) -/
  aside : List Nat := []
  retired : Tab Retired := []
  /-- retirement moves, the one in progress first (R61) -/
  moves : List Move := []
  /-- 2 MiB extents never allocated again (R62), by extent number -/
  withheld : List Nat := []
  /-- extents freed while the stack was offline (R54) -/
  freedOffline : List Nat := []
  /-- tracked chimney rows, oldest last error first (R60) -/
  track : List CeTrack := []
  /-- uncorrectable errors of the last 60 s: chimney, row group, time (chapter Device memory stacks, Losing a chimney) -/
  ues : List (Nat × Nat × Nat) := []
  /-- accesses that wait on the stack link for REQ credits: the stack wakes (R65), or its hold queue is full (R61) -/
  held : List Access := []
  deriving DecidableEq, Repr

/-- A run of an allocation: first 2 MiB unit of the device (DPA / 2 MiB) and length in units (R51). -/
structure Run where
  unit : Nat
  len : Nat
  deriving DecidableEq, Repr

/-- A live allocation (R51): owner, runs in dealt order, whether its extents are 1 GiB, whether it is still being zeroed (R53). -/
structure Alloc where
  tenant : Nat
  runs : List Run
  huge : Bool
  zeroing : Bool
  deriving DecidableEq, Repr

/-- Device memory: bytes by DPA, poisoned codewords by number (DPA / 32), the stacks, the allocations. A 2 MiB unit is free when no allocation, table extent or withheld list names it. -/
structure Mem where
  bytes : List Host.Cell := []
  poison : List Nat := []
  stk : List Stack := List.replicate 32 {}
  allocs : Tab Alloc := []
  nextHandle : Nat := 1
  deriving DecidableEq, Repr

end Sys2Proof.Machine
end

