-- ==== Sys2Proof/Machine/Crypto.lean ====
section
/-! DEFINITION. The algorithms of the published standards that chapter 14 names and uses as they stand: SHA-512 (FIPS 180-4), HMAC and HKDF (RFC 2104, RFC 5869), AES (FIPS 197), CMAC (SP 800-38B), GCM (SP 800-38D), XTS (IEEE 1619), key wrap (RFC 3394), P-521 with ECDSA and ECDH (FIPS 186, SP 800-56A). -/

namespace Sys2Proof.Machine

-- SHA-512

/-- The round constants: the first 64 bits of the fractional parts of the cube roots of the first 80 primes. -/
def sha512K0 : List (BitVec 64) :=
  [0x428a2f98d728ae22#64, 0x7137449123ef65cd#64, 0xb5c0fbcfec4d3b2f#64, 0xe9b5dba58189dbbc#64, 0x3956c25bf348b538#64,
   0x59f111f1b605d019#64, 0x923f82a4af194f9b#64, 0xab1c5ed5da6d8118#64, 0xd807aa98a3030242#64, 0x12835b0145706fbe#64,
   0x243185be4ee4b28c#64, 0x550c7dc3d5ffb4e2#64, 0x72be5d74f27b896f#64, 0x80deb1fe3b1696b1#64, 0x9bdc06a725c71235#64,
   0xc19bf174cf692694#64, 0xe49b69c19ef14ad2#64, 0xefbe4786384f25e3#64, 0x0fc19dc68b8cd5b5#64, 0x240ca1cc77ac9c65#64]

def sha512K1 : List (BitVec 64) :=
  [0x2de92c6f592b0275#64, 0x4a7484aa6ea6e483#64, 0x5cb0a9dcbd41fbd4#64, 0x76f988da831153b5#64, 0x983e5152ee66dfab#64,
   0xa831c66d2db43210#64, 0xb00327c898fb213f#64, 0xbf597fc7beef0ee4#64, 0xc6e00bf33da88fc2#64, 0xd5a79147930aa725#64,
   0x06ca6351e003826f#64, 0x142929670a0e6e70#64, 0x27b70a8546d22ffc#64, 0x2e1b21385c26c926#64, 0x4d2c6dfc5ac42aed#64,
   0x53380d139d95b3df#64, 0x650a73548baf63de#64, 0x766a0abb3c77b2a8#64, 0x81c2c92e47edaee6#64, 0x92722c851482353b#64]

def sha512K2 : List (BitVec 64) :=
  [0xa2bfe8a14cf10364#64, 0xa81a664bbc423001#64, 0xc24b8b70d0f89791#64, 0xc76c51a30654be30#64, 0xd192e819d6ef5218#64,
   0xd69906245565a910#64, 0xf40e35855771202a#64, 0x106aa07032bbd1b8#64, 0x19a4c116b8d2d0c8#64, 0x1e376c085141ab53#64,
   0x2748774cdf8eeb99#64, 0x34b0bcb5e19b48a8#64, 0x391c0cb3c5c95a63#64, 0x4ed8aa4ae3418acb#64, 0x5b9cca4f7763e373#64,
   0x682e6ff3d6b2b8a3#64, 0x748f82ee5defb2fc#64, 0x78a5636f43172f60#64, 0x84c87814a1f0ab72#64, 0x8cc702081a6439ec#64]

def sha512K3 : List (BitVec 64) :=
  [0x90befffa23631e28#64, 0xa4506cebde82bde9#64, 0xbef9a3f7b2c67915#64, 0xc67178f2e372532b#64, 0xca273eceea26619c#64,
   0xd186b8c721c0c207#64, 0xeada7dd6cde0eb1e#64, 0xf57d4f7fee6ed178#64, 0x06f067aa72176fba#64, 0x0a637dc5a2c898a6#64,
   0x113f9804bef90dae#64, 0x1b710b35131c471b#64, 0x28db77f523047d84#64, 0x32caab7b40c72493#64, 0x3c9ebe0a15c9bebc#64,
   0x431d67c49c100d4c#64, 0x4cc5d4becb3e42b6#64, 0x597f299cfc657e2a#64, 0x5fcb6fab3ad6faec#64, 0x6c44198c4a475817#64]

def sha512Init : List (BitVec 64) :=
  [0x6a09e667f3bcc908#64, 0xbb67ae8584caa73b#64, 0x3c6ef372fe94f82b#64, 0xa54ff53a5f1d36f1#64,
   0x510e527fade682d1#64, 0x9b05688c2b3e6c1f#64, 0x1f83d9abfb41bd6b#64, 0x5be0cd19137e2179#64]

def sha512K : List (BitVec 64) := sha512K0 ++ sha512K1 ++ sha512K2 ++ sha512K3

/-- The message with its padding: a 1 bit, zeros, the length in bits in 128 bits. -/
def sha512Pad (b : Bytes) : Bytes :=
  b ++ [0x80#8] ++ zpad ((239 - b.length % 128) % 128) ++ toBE 16 (8 * b.length)

/-- The next word of the schedule from the last 16, newest first. -/
def sha512Next (w : List (BitVec 64)) : BitVec 64 :=
  let a := nth w 14 0#64
  let b := nth w 1 0#64
  (b.rotateRight 19 ^^^ b.rotateRight 61 ^^^ b >>> 6) + nth w 6 0#64 + (a.rotateRight 1 ^^^ a.rotateRight 8 ^^^ a >>> 7) + nth w 15 0#64

/-- The schedule of a block, oldest word first. -/
def sha512Words (blk : Bytes) : List (BitVec 64) :=
  (iter (fun w => sha512Next w :: w) 64 ((List.range 16).map fun i => BitVec.ofNat 64 (beN (slice blk (8 * i) 8))).reverse).reverse

/-- One round on the working variables a to h. -/
def sha512Round (v : List (BitVec 64)) (kw : BitVec 64 × BitVec 64) : List (BitVec 64) :=
  match v with
  | [a, b, c, d, e, f, g, h] =>
    let t1 := h + (e.rotateRight 14 ^^^ e.rotateRight 18 ^^^ e.rotateRight 41) + ((e &&& f) ^^^ (~~~e &&& g)) + kw.1 + kw.2
    let t2 := (a.rotateRight 28 ^^^ a.rotateRight 34 ^^^ a.rotateRight 39) + ((a &&& b) ^^^ (a &&& c) ^^^ (b &&& c))
    [t1 + t2, a, b, c, d + t1, e, f, g]
  | _ => v

def sha512Block (h : List (BitVec 64)) (blk : Bytes) : List (BitVec 64) :=
  List.zipWith (· + ·) h ((sha512K.zip (sha512Words blk)).foldl sha512Round h)

/-- n blocks in order. -/
def sha512Blocks : Nat → List (BitVec 64) → Bytes → List (BitVec 64)
  | 0, h, _ => h
  | n + 1, h, b => sha512Blocks n (sha512Block h (b.take 128)) (b.drop 128)

/-- SHA-512: 64 bytes. -/
@[irreducible] def sha512 (b : Bytes) : Bytes :=
  let m := sha512Pad b
  (sha512Blocks (m.length / 128) sha512Init m).flatMap fun w => toBE 8 w.toNat

-- HMAC and HKDF with SHA-512

def xorBytes (a b : Bytes) : Bytes := List.zipWith (· ^^^ ·) a b

/-- HMAC-SHA-512. -/
@[irreducible] def hmac512 (key msg : Bytes) : Bytes :=
  let k := slice (if key.length ≤ 128 then key else sha512 key) 0 128
  sha512 (k.map (· ^^^ 0x5C#8) ++ sha512 (k.map (· ^^^ 0x36#8) ++ msg))

/-- The first n blocks T(i) of HKDF-Expand, from the block before them and the number of the first. -/
def hkdfBlocks (prk info : Bytes) : Nat → Nat → Bytes → Bytes
  | 0, _, _ => []
  | n + 1, i, t =>
    let t := hmac512 prk (t ++ info ++ toBE 1 i)
    t ++ hkdfBlocks prk info n (i + 1) t

/-- HKDF-SHA-512: the first len bytes. -/
@[irreducible] def hkdf512 (salt ikm info : Bytes) (len : Nat) : Bytes :=
  (hkdfBlocks (hmac512 salt ikm) info (ceilDiv len 64) 1 []).take len

-- AES

/-- Multiplication by x in the field of AES. -/
def xtime (b : Byte) : Byte := if b.msb then b <<< 1 ^^^ 0x1B#8 else b <<< 1

/-- The product of two field elements, over n bits of the second. -/
def gmulN : Nat → Byte → Byte → Byte
  | 0, _, _ => 0#8
  | n + 1, a, b => (if b.getLsbD 0 then a else 0#8) ^^^ gmulN n (xtime a) (b >>> 1)

def gmul (a b : Byte) : Byte := gmulN 8 a b

/-- The inverse in the field, 0 for 0: the 254th power. -/
def ginv (a : Byte) : Byte :=
  let a2 := gmul a a
  let a4 := gmul a2 a2
  let a8 := gmul a4 a4
  let a16 := gmul a8 a8
  let a32 := gmul a16 a16
  let a64 := gmul a32 a32
  let a128 := gmul a64 a64
  gmul a2 (gmul a4 (gmul a8 (gmul a16 (gmul a32 (gmul a64 a128)))))

def sbox (a : Byte) : Byte :=
  let b := ginv a
  b ^^^ b.rotateLeft 1 ^^^ b.rotateLeft 2 ^^^ b.rotateLeft 3 ^^^ b.rotateLeft 4 ^^^ 0x63#8

def invSbox (a : Byte) : Byte := ginv (a.rotateLeft 1 ^^^ a.rotateLeft 3 ^^^ a.rotateLeft 6 ^^^ 0x05#8)

/-- The next word of the key schedule; w: the words so far, newest first; nk: the words of the key. -/
def keyWord (nk : Nat) (w : List Bytes) : Bytes :=
  let i := w.length
  let t := nth w 0 []
  let t := if i % nk = 0 then xorBytes ((t.drop 1 ++ t.take 1).map sbox) [iter xtime (i / nk - 1) 1#8, 0#8, 0#8, 0#8]
    else if 6 < nk && i % nk = 4 then t.map sbox
    else t
  xorBytes (nth w (nk - 1) []) t

/-- The round keys of a 16 B or 32 B key, 16 B each. -/
def aesKeys (key : Bytes) : List Bytes :=
  let nk := key.length / 4
  let n := 4 * (nk + 7)
  let w := (iter (fun w => keyWord nk w :: w) (n - nk) ((List.range nk).map fun i => slice key (4 * i) 4).reverse).reverse
  (List.range (nk + 7)).map fun r => ((w.drop (4 * r)).take 4).flatten

/-- Byte r of column c comes from column c + k r. -/
def shiftRows (k : Nat) (s : Bytes) : Bytes := (List.range 16).map fun i => nth s ((i + 4 * k * (i % 4)) % 16) 0#8

/-- Each column times the circulant matrix of m. -/
def mixColumns (m : List Byte) (s : Bytes) : Bytes :=
  (List.range 16).map fun i =>
    (List.range 4).foldl (fun a j => a ^^^ gmul (nth m ((j + 4 - i % 4) % 4) 0#8) (nth s (i / 4 * 4 + j) 0#8)) 0#8

def aesRounds : List Bytes → Bytes → Bytes
  | [], s => s
  | [k], s => xorBytes (shiftRows 1 (s.map sbox)) k
  | k :: r, s => aesRounds r (xorBytes (mixColumns [2#8, 3#8, 1#8, 1#8] (shiftRows 1 (s.map sbox))) k)

/-- AES of one block under expanded keys. -/
def aesWith (ks : List Bytes) (s : Bytes) : Bytes := aesRounds ks.tail (xorBytes s (nth ks 0 []))

def aesInvRounds : List Bytes → Bytes → Bytes
  | [], s => s
  | [k], s => xorBytes ((shiftRows 3 s).map invSbox) k
  | k :: r, s => aesInvRounds r (mixColumns [14#8, 11#8, 13#8, 9#8] (xorBytes ((shiftRows 3 s).map invSbox) k))

/-- The inverse cipher. -/
def aesInvWith (ks : List Bytes) (s : Bytes) : Bytes :=
  let ks := ks.reverse
  aesInvRounds ks.tail (xorBytes s (nth ks 0 []))

/-- AES of one block, under a key of 16 B or 32 B. -/
@[irreducible] def aesEnc (key s : Bytes) : Bytes := aesWith (aesKeys key) s

@[irreducible] def aesDec (key s : Bytes) : Bytes := aesInvWith (aesKeys key) s

-- CMAC

/-- A block doubled in the field of CMAC, most significant bit first. -/
def cmacDouble (b : Bytes) : Bytes :=
  let n := 2 * beN b
  toBE 16 (if n < 2 ^ 128 then n else n % 2 ^ 128 ^^^ 0x87)

def cbcMac (key : Bytes) : Nat → Bytes → Bytes → Bytes
  | 0, x, _ => x
  | n + 1, x, b => cbcMac key n (aesEnc key (xorBytes x (b.take 16))) (b.drop 16)

/-- AES-CMAC of a message. -/
@[irreducible] def aesCmac (key msg : Bytes) : Bytes :=
  let k1 := cmacDouble (aesEnc key (zpad 16))
  let n := max 1 (ceilDiv msg.length 16)
  let last := msg.drop (16 * (n - 1))
  let last := if last.length = 16 then xorBytes last k1 else xorBytes (slice (last ++ [0x80#8]) 0 16) (cmacDouble k1)
  cbcMac key n (zpad 16) (msg.take (16 * (n - 1)) ++ last)

-- GCM

/-- The product of GCM's field, over the first n bits of y not yet used, most significant first. -/
def ghashMul : Nat → BitVec 128 → BitVec 128 → BitVec 128
  | 0, _, _ => 0#128
  | n + 1, v, y =>
    (if y.msb then v else 0#128) ^^^ ghashMul n (if v.getLsbD 0 then v >>> 1 ^^^ 0xE1000000000000000000000000000000#128 else v >>> 1) (y <<< 1)

def ghash (h : BitVec 128) : Nat → BitVec 128 → Bytes → BitVec 128
  | 0, x, _ => x
  | n + 1, x, b => ghash h n (ghashMul 128 h (x ^^^ BitVec.ofNat 128 (beN (b.take 16)))) (b.drop 16)

/-- Zeros to the next whole block. -/
def pad16 (b : Bytes) : Bytes := slice b 0 (16 * ceilDiv b.length 16)

/-- Counter mode from counter c on. -/
def gcmCtr (key iv : Bytes) : Nat → Nat → Bytes → Bytes
  | 0, _, _ => []
  | n + 1, c, b => xorBytes (b.take 16) (aesEnc key (iv ++ toBE 4 c)) ++ gcmCtr key iv n (c + 1) (b.drop 16)

def gcmText (key iv b : Bytes) : Bytes := gcmCtr key iv (ceilDiv b.length 16) 2 b

def gcmTag (key iv aad text : Bytes) : Bytes :=
  let b := pad16 aad ++ pad16 text ++ toBE 8 (8 * aad.length) ++ toBE 8 (8 * text.length)
  let s := ghash (BitVec.ofNat 128 (beN (aesEnc key (zpad 16)))) (b.length / 16) 0#128 b
  xorBytes (toBE 16 s.toNat) (aesEnc key (iv ++ toBE 4 1))

/-- AES-GCM with a 96-bit IV: ciphertext and 16 B tag of key, IV, additional data and plaintext. -/
@[irreducible] def gcmSeal (key iv aad text : Bytes) : Bytes × Bytes :=
  let c := gcmText key iv text
  (c, gcmTag key iv aad c)

/-- The plaintext, and whether the tag verifies. -/
@[irreducible] def gcmOpen (key iv aad text tag : Bytes) : Bytes × Bool :=
  (gcmText key iv text, decide (gcmTag key iv aad text = tag))

-- XTS

/-- The tweak of the next block: little-endian doubling. -/
def xtsDouble (t : Bytes) : Bytes :=
  let n := 2 * leN t
  toLE 16 (if n < 2 ^ 128 then n else n % 2 ^ 128 ^^^ 0x87)

def xtsBlocks (f : Bytes → Bytes) : Nat → Bytes → Bytes → Bytes
  | 0, _, _ => []
  | n + 1, t, b => xorBytes (f (xorBytes (b.take 16) t)) t ++ xtsBlocks f n (xtsDouble t) (b.drop 16)

/-- XTS-AES-256 of one sector of whole blocks: encrypt or decrypt, both keys, sector number, data. -/
@[irreducible] def xtsSector (enc : Bool) (keys : Bytes) (num : Nat) (b : Bytes) : Bytes :=
  let key := keys.take 32
  xtsBlocks (if enc then aesEnc key else aesDec key) (b.length / 16) (aesEnc (keys.drop 32) (toLE 16 num)) b

-- Key wrap

/-- The steps of an unwrap, t from its top down, on the check block and the n data blocks. -/
def unwrapSteps (key : Bytes) (n : Nat) : Nat → Bytes × List Bytes → Bytes × List Bytes
  | 0, x => x
  | t + 1, (a, r) =>
    let i := t % n
    let b := aesDec key (xorBytes a (toBE 8 (t + 1)) ++ nth r i [])
    unwrapSteps key n t (b.take 8, modAt r i fun _ => b.drop 8)

/-- RFC 3394 unwrap: none when the integrity check fails. -/
@[irreducible] def keyUnwrap (key c : Bytes) : Option Bytes :=
  let n := c.length / 8 - 1
  let (a, r) := unwrapSteps key n (6 * n) (c.take 8, (List.range n).map fun i => slice c (8 * i + 8) 8)
  if a = List.replicate 8 0xA6#8 then some r.flatten else none

-- P-521

def p521 : Nat := 2 ^ 521 - 1
def p521B : Nat := 0x0051953EB9618E1C9A1F929A21A0B68540EEA2DA725B99B315F3B8B489918EF109E156193951EC7E937B1652C0BD3BB1BF073573DF883D2C34F1EF451FD46B503F00
def p521N : Nat := 0x01FFFFFFFFFFFFFFFFFFFFFFFFFFFFFFFFFFFFFFFFFFFFFFFFFFFFFFFFFFFFFFFFFA51868783BF2F966B7FCC0148F709A5D03BB5C9B8899C47AEBB6FB71E91386409
def p521G : Nat × Nat :=
  (0x00C6858E06B70404E9CD9E3ECB662395B4429C648139053FB521F828AF606B4D3DBAA14B5E77EFE75928FE1DC127A2FFA8DE3348B3C1856A429BF97E7E31C2E5BD66,
   0x011839296A789A3BC0045C8A5FB42C7D1BD998F54449579B446817AFBD17273E662C97EE72995EF42640C550B9013FAD0761353C7086A272C24088BE94769FD16650)

/-- b to the power e modulo m, over n bits of e. -/
def powMod (m : Nat) : Nat → Nat → Nat → Nat
  | 0, _, _ => 1 % m
  | n + 1, b, e =>
    let r := powMod m n (b * b % m) (e / 2)
    if e % 2 = 1 then b * r % m else r

/-- The inverse modulo a prime of at most 521 bits. -/
def invMod (m a : Nat) : Nat := powMod m 521 (a % m) (m - 2)

/-- The third point of a line of slope l through a point and one with abscissa x2, mirrored. -/
def ecLine (l : Nat) (a : Nat × Nat) (x2 : Nat) : Option (Nat × Nat) :=
  let p := p521
  let x := (l * l + (p - a.1) + (p - x2)) % p
  some (x, (l * (a.1 + (p - x)) + (p - a.2)) % p)

/-- The sum of two points; none is the point at infinity. -/
def ecAdd : Option (Nat × Nat) → Option (Nat × Nat) → Option (Nat × Nat)
  | none, b => b
  | a, none => a
  | some a, some b =>
    let p := p521
    if a.1 ≠ b.1 then ecLine ((b.2 + (p - a.2)) * invMod p (b.1 + (p - a.1)) % p) a b.1
    else if a.2 = b.2 && a.2 ≠ 0 then ecLine ((3 * a.1 * a.1 + (p - 3)) * invMod p (2 * a.2) % p) a a.1
    else none

/-- k times a point, over n bits of k. -/
def ecMul : Nat → Nat → Option (Nat × Nat) → Option (Nat × Nat)
  | 0, _, _ => none
  | n + 1, k, a =>
    let r := ecMul n (k / 2) (ecAdd a a)
    if k % 2 = 1 then ecAdd a r else r

/-- The point that 133 bytes 0x04, X, Y encode, where it is on the curve. -/
def ecPoint (b : Bytes) : Option (Nat × Nat) :=
  let x := beN (slice b 1 66)
  let y := beN (slice b 67 66)
  if u8 b 0 = 4 && x < p521 && y < p521 && y * y % p521 = (x * x * x + (p521 - 3) * x + p521B) % p521 then some (x, y) else none

def ecBytes (a : Nat × Nat) : Bytes := [0x04#8] ++ toBE 66 a.1 ++ toBE 66 a.2

/-- The public key of a private key, 0x04, X, Y; zeros for a multiple of the order, which no private key is. -/
@[irreducible] def publicKey (priv : Nat) : Bytes :=
  match ecMul 521 priv (some p521G) with
  | some a => ecBytes a
  | none => zpad 133

/-- ECDH: the abscissa of the shared point in 66 bytes; none where the bytes are no point on P-521. -/
@[irreducible] def ecdh (priv : Nat) (pub : Bytes) : Option Bytes :=
  ((ecPoint pub).bind fun a => ecMul 521 priv (some a)).map fun a => toBE 66 a.1

/-- ECDSA on P-521 with SHA-512: the signature r, s of a message under a key. -/
@[irreducible] def ecdsaVerify (pub msg sig : Bytes) : Bool :=
  let r := beN (slice sig 0 66)
  let s := beN (slice sig 66 66)
  match ecPoint pub with
  | none => false
  | some a =>
    if r = 0 || p521N ≤ r || s = 0 || p521N ≤ s then false
    else
      let w := invMod p521N s
      match ecAdd (ecMul 521 (beN (sha512 msg) * w % p521N) (some p521G)) (ecMul 521 (r * w % p521N) (some a)) with
      | none => false
      | some x => x.1 % p521N = r

/-- The signature of a message with the secret number k, 1 to n - 1; r or s of 0 asks another k. -/
@[irreducible] def ecdsaSign (priv k : Nat) (msg : Bytes) : Bytes :=
  match ecMul 521 k (some p521G) with
  | none => zpad 132
  | some a =>
    let r := a.1 % p521N
    toBE 66 r ++ toBE 66 (invMod p521N k * (beN (sha512 msg) + r * priv) % p521N)

end Sys2Proof.Machine
end

