-- ==== Sys2Proof/Machine/TypesTen.lean ====
section
/-! DEFINITION. The state of tenants and of the cipher engine (13_tenants, 14_cipher_trust). Defaults are the reset values. -/

namespace Sys2Proof.Machine

/-- Tenant states other than FREE (R455). -/
inductive TenState where
  | active
  | freezing
  | frozen
  | resetting
  | destroying
  deriving DecidableEq, Repr

def TenState.code : TenState → Nat
  | .active => 1
  | .freezing => 2
  | .frozen => 3
  | .resetting => 4
  | .destroying => 5

/-- The causes of a tenant reset, coded as LAST_RESET (R470). -/
inductive ResetCause where
  | none
  | command
  | port
  | warm
  deriving DecidableEq, Repr

def ResetCause.code : ResetCause → Nat
  | .none => 0
  | .command => 1
  | .port => 2
  | .warm => 3

/-- What R445 creates a tenant with. -/
structure TenParams where
  port : Side
  pasid : Option Nat
  mgmtW : Bool
  mgmtE : Bool
  acceptList : Bool
  accept : List (BitVec 16)
  memUnits : Nat
  winCount : Nat
  ropes : Nat
  winSlabs : Nat
  qpMax : Nat
  cqMax : Nat
  msgLimit : Nat
  fetchWeight : Nat
  opWeight : Nat
  opCtxLimit : Nat
  evqAddr : BitVec 64
  evqLog2 : Nat
  evqVector : BitVec 16
  createFrozen : Bool
  deriving DecidableEq, Repr

/-- An event before its PHASE and LOST bits (R230). -/
structure Event where
  time : BitVec 64
  arg0 : BitVec 64
  arg1 : BitVec 64
  object : BitVec 32
  code : Nat
  deriving DecidableEq, Repr

/-- The tenant event ring (R230 to R232). -/
structure EvRing where
  p : Nat := 0
  c : Nat := 0
  held : List Event := []
  lostNext : Bool := false
  armed : Bool := false
  deriving DecidableEq, Repr

/-- A freeze in progress (R461): its command, and the ropes aborted. -/
structure Freeze where
  cmd : Option CmdSlot
  ropesAborted : Nat := 0
  deriving DecidableEq, Repr

/-- A forwarding stub (R460) and the last answer to each source node. -/
structure Stub where
  node : BitVec 16
  qpn : BitVec 32
  lifeS : Nat
  answered : Tab Nat := []
  deriving DecidableEq, Repr

/-- A tenant that is not FREE. -/
structure Tenant where
  par : TenParams
  st : TenState
  carried : Bool := false
  quotaHit : Bool := false
  eventsLost : Bool := false
  dbReject : Bool := false
  counts : List (BitVec 48) := List.replicate 8 0#48
  ev : EvRing := {}
  egress : Nat := 0
  lastReset : ResetCause := .none
  since : BitVec 64 := 0#64
  freeze : Option Freeze := none
  /-- a reset in progress: its cause, queue pairs destroyed, the commands it answers -/
  resetCause : ResetCause := .none
  resetQps : Nat := 0
  resetCmd : Option CmdSlot := none
  destroyCmd : Option CmdSlot := none
  /-- a TENANT_DESTROY follows the reset: the stubs it will install -/
  destroy : Option (Tab Stub) := none
  deriving DecidableEq, Repr

structure Tens where
  tenants : Tab Tenant := []
  stubs : Tab Stub := []
  /-- the copies of the tenant table in the 8 tiles and, as 8 and 9, in the host-interface dies (R38) -/
  copies : List (Tab TenParams) := List.replicate 10 []
  deriving DecidableEq, Repr

/-- Uses of a key slot (R478). -/
inductive KeyUse where
  | wrap
  | transport
  | gcm
  | xts
  deriving DecidableEq, Repr

/-- A loaded key slot. -/
structure KeySlot where
  use : KeyUse
  bits : Nat
  tenant : Nat
  peer : BitVec 16
  material : Bytes
  deriving DecidableEq, Repr

/-- A cipher job that has begun (R490, R492): ring index, entry, the places of its data as translated at its begin, and its end: STATUS, DETAIL, BYTES, END_TIME. -/
structure Job where
  idx : Nat
  entry : Bytes
  src : List (Nat × Nat) := []
  dst : List (Nat × Nat) := []
  aad : List (Nat × Nat) := []
  tag : List (Nat × Nat) := []
  /-- bytes not yet dealt to a core, and the core a GCM job runs on (R475) -/
  left : Nat := 0
  core : Option Nat := none
  /-- bytes of an XTS job dealt in each tile (R475, R565) -/
  shares : List Nat := List.replicate 8 0
  fin : Option (Nat × Nat × Nat × BitVec 64) := none
  deriving DecidableEq, Repr

/-- A DRBG (R496): cores 0 to 15, and 16 for the centre die. -/
structure Drbg where
  failures : Nat := 0
  stopped : Bool := false
  reseeds : Nat := 0
  /-- when it last reseeded, the requests since, and when these reached 2²⁰ -/
  since : Nat := 0
  requests : Nat := 0
  spentAt : Option Nat := none
  deriving DecidableEq, Repr

/-- The two classes of a core (R474). -/
inductive CoreClass where
  | transport
  | jobs
  deriving DecidableEq, Repr

/-- Work a core has taken or been dealt: of a job, or of a packet by its ticket; bytes, in 16 B blocks. -/
structure CoreWork where
  job : Option Nat
  len : Nat
  ticket : Option Nat := none
  deriving DecidableEq, Repr

/-- An AES core (R473 to R475): cores 2t and 2t + 1 stand in tile t. -/
structure AesCore where
  transport : List CoreWork := []
  jobs : List CoreWork := []
  /-- what it works on now -/
  now : Option CoreWork := none
  /-- the deficit round robin between the classes -/
  turn : CoreClass := .transport
  transportDeficit : Nat := 0
  jobsDeficit : Nat := 0
  deriving DecidableEq, Repr

/-- A received packet that waits in its port's ingress buffer for a core to open it (R474, R487). -/
structure Opening where
  ticket : Nat
  port : Nat
  ptype : BitVec 8
  pkt : Pkt
  /-- the channel and the buffer places that its frame holds on a DIRECT port (R317) -/
  places : Option (Nat × Nat)
  deriving DecidableEq, Repr

/-- The cipher engine and what the protected store holds for it. -/
structure Ciph where
  latch : Hasp := {}
  /-- who enabled the job ring: its done entries go there -/
  owner : Option Agent := none
  base : BitVec 64 := 0#64
  vector : BitVec 11 := 0#11
  sizeLog2 : BitVec 4 := 4#4
  enable : Bool := false
  prod : BitVec 16 := 0#16
  cons : BitVec 16 := 0#16
  prodInvalid : Bool := false
  entropyFail : Bool := false
  transportWeight : BitVec 4 := 3#4
  jobWeight : BitVec 4 := 1#4
  slots : Tab KeySlot := []
  jobs : List Job := []
  /-- next job index to fetch and the re-fetches made for its PHASE (R492) -/
  next : Nat := 0
  refetch : Nat := 0
  drbgs : List Drbg := List.replicate 17 {}
  cores : List AesCore := List.replicate 16 {}
  /-- the core that the next XTS sector goes to (R475) -/
  rotate : Nat := 0
  /-- the derived keys each tile caches, the newest first: the queue pair, and whether it is the key it sends with (R485) -/
  keyCache : List (List (Nat × Bool)) := List.replicate 8 []
  /-- the next packet's ticket at its core, and received packets that wait for theirs (R474) -/
  nextTicket : Nat := 0
  opening : List Opening := []
  deriving DecidableEq, Repr

end Sys2Proof.Machine
end

