-- ==== Sys2Proof/Machine/TypesSvc.lean ====
section
/-! DEFINITION. The state of power, clocks and resets, of service (banks, Traverse, Lamold record, logs, counters) and what leaves the device (15 to 17). Defaults are the reset values. -/

namespace Sys2Proof.Machine

/-- STATE of PWR_STATUS (R537, R542). -/
inductive DevState where
  | active
  | entering
  | bivouac
  | waking
  deriving DecidableEq, Repr

def DevState.code : DevState → Nat
  | .active => 0
  | .entering => 1
  | .bivouac => 2
  | .waking => 3

/-- The rails: off, waiting for the input or for the 100 ms after a deassertion (R580), starting under R541, on, halted for a lost clock (R522) or a failed boot (R497, R501). -/
inductive Rails where
  | off
  | waitInput
  | holdoff
  | starting
  | on
  | clockLost
  | clockHalt
  | bootHalt
  deriving DecidableEq, Repr

/-- LEGACY window of the JM-2216 (R525 to R528). -/
structure Legacy where
  live : Bool := true
  unstable : BitVec 8 := 0#8
  captured : List (BitVec 64) := List.replicate 8 0#64
  agreed : List (BitVec 64) := List.replicate 8 0#64
  /-- high half latched for each port: word, half, time -/
  latched : Pair (Option (Nat × BitVec 32 × Nat)) := ⟨none, none⟩
  deriving DecidableEq, Repr

/-- Power, clocks, resets (R510 to R544, R579 to R582). -/
structure Pwr where
  rails : Rails := .off
  pwrEn : Bool := false
  vin : Nat := 0
  tsc : BitVec 64 := 0#64
  throttle : Nat := 0
  thermal : Bool := false
  vinCause : Bool := false
  peak : Bool := false
  limited : Bool := false
  isoDown : Bool := false
  vinEvent : Bool := false
  thermalEvent : Bool := false
  stageLost : Bool := false
  stages : Nat := 4
  state : DevState := .active
  keptPort : Nat := 0
  bivCmd : Option CmdSlot := none
  /-- a WITHDRAW that woke the device and is answered when it is ACTIVE -/
  wakeCmd : Option CmdSlot := none
  /-- doorbells and packets held in Bivouac (R537) -/
  bellsHeld : List Arrived := []
  pktsHeld : List Arrived := []
  sensors : Sensors := ⟨[], 0, 0, 0, 0, 0, 0, 0⟩
  vinReg : BitVec 16 := 0#16
  iinReg : BitVec 16 := 0#16
  pinReg : BitVec 16 := 0#16
  /-- terms of R514: SET_POWER_LIMIT, the record, the coolant cap; the limit in force changes at the next 1 ms step (R518) -/
  setW : Option Nat := none
  recordW : Option Nat := none
  coolantW : Option Nat := none
  limitW : Nat := 1000
  lockLosses : BitVec 16 := 0#16
  pcieLock : Pair Bool := ⟨false, false⟩
  serdesLock : List Bool := List.replicate 8 false
  refOk : Bool := false
  rootLock : Bool := false
  warmCount : BitVec 16 := 0#16
  lastCause : BitVec 8 := 1#8
  halfResets : BitVec 16 := 0#16
  inReset : Pair Bool := ⟨false, false⟩
  straps : Nat := 0
  legacy : Legacy := {}
  deriving DecidableEq, Repr

/-- An image in a bank (R500, R545): its bytes and whether it is marked verified. -/
structure Image where
  bytes : List Host.Cell
  len : Nat
  verified : Bool
  deriving DecidableEq, Repr

/-- The image of a type that manufacture put into bank A (log 61). -/
def factoryOf (t : Nat) : Image :=
  let b := Config.factoryImage t
  { bytes := ((List.range b.length).zip b).filter fun c => c.2 ≠ 0#8, len := b.length, verified := true }

def factoryBank : Tab Image := [(1, factoryOf 1), (2, factoryOf 2), (3, factoryOf 3), (4, factoryOf 4), (5, factoryOf 5)]

/-- Traverse states (R549). -/
inductive TravState where
  | idle
  | traversing
  | traversed
  | aborting
  deriving DecidableEq, Repr

/-- A Traverse in progress: its command, CENTRE flag, the dies still to restart in order, whether the leader has handed over. -/
structure Traverse where
  cmd : CmdSlot
  centre : Bool
  /-- the die that restarts now -/
  restarting : Option Side
  /-- dies still to restart after it -/
  left : List Side
  centreBusy : Bool := false
  failed : Bool := false
  deriving DecidableEq, Repr

/-- A microcode load in progress (R553). -/
structure Microcode where
  cmd : CmdSlot
  base : Bool
  /-- units still to load, the one being drained first -/
  units : List Nat
  loaded : BitVec 32 := 0#32
  skipped : BitVec 32 := 0#32
  deriving DecidableEq, Repr

/-- An error-log entry (R560). -/
structure LogEntry where
  time : BitVec 64
  seq : BitVec 32
  code : BitVec 16
  severity : Nat
  unitKind : Nat
  unit : Nat
  tenant : Nat
  count : BitVec 32
  args : List (BitVec 64)
  deriving DecidableEq, Repr

/-- One control die's log (R560, R563). -/
structure Log where
  entries : List LogEntry := []
  nextSeq : BitVec 32 := 0#32
  overwritten : BitVec 16 := 0#16
  deriving DecidableEq, Repr

/-- One event counter (R566 to R568). -/
structure Evc where
  count : BitVec 48 := 0#48
  source : BitVec 16 := 0#16
  inst : BitVec 8 := 0xFF#8
  tenant : BitVec 16 := 0xFFFF#16
  saturate : Bool := false
  enable : Bool := false
  ovf : Bool := false
  deriving DecidableEq, Repr

/-- Service state: banks, protected store, Lamold record, logs, counters. -/
structure Svc where
  /-- images by type 1 to 5, of the West-named bank A and of bank B -/
  banks : Pair (Tab Image) := ⟨factoryBank, []⟩
  /-- the selected, running bank -/
  bank : Side := .west
  /-- the bank whose images each die runs, and the centre runtime -/
  dieBank : Pair Side := ⟨.west, .west⟩
  centreBank : Side := .west
  /-- version of the microcode each stack and tile runs -/
  stackUcode : List (BitVec 32) := List.replicate 32 0#32
  tileUcode : List (BitVec 32) := List.replicate 8 0#32
  /-- digests of what runs, for SPDM (R504): FIRST_STAGE, the centre runtime, each die's firmware, the microcode last loaded into a tile, and each stack's -/
  firstDigest : Bytes := []
  centreDigest : Bytes := []
  dieDigest : Pair Bytes := ⟨[], []⟩
  tileDigest : Bytes := []
  stackDigest : List Bytes := List.replicate 32 []
  /-- the seed that the boot reconstructed; none before (R497) -/
  seed : Bytes := []
  /-- the certificate chain's record is present (R502) -/
  chainOk : Bool := true
  /-- the monotonic counter of the boot-store die, and its value at the last write of each record kind (R502) -/
  storeCount : BitVec 64 := 0#64
  storeLast : List (BitVec 64) := List.replicate 8 0#64
  minSvn : List (BitVec 32) := List.replicate 5 0#32
  rootRevoked : BitVec 4 := 0#4
  trav : TravState := .idle
  traverse : Option Traverse := none
  microcode : Option Microcode := none
  /-- the Lamold record in force and the anchor -/
  record : Option Bytes := none
  anchor : Option Bytes := none
  logs : Pair Log := ⟨{}, {}⟩
  /-- entries written since power-on (R526 word 6) -/
  logTotal : BitVec 48 := 0#48
  /-- counters that differ from their reset value -/
  counters : Tab Evc := []
  deriving DecidableEq, Repr

/-- A write into host memory: port, PASID (none: bus address), address, bytes. -/
structure HostWrite where
  port : Side
  pasid : Option Nat
  addr : Nat
  data : Bytes
  /-- TLPs of at most this payload, with relaxed ordering set or not (R381) -/
  maxPayload : Nat
  relaxed : Bool
  deriving DecidableEq, Repr

/-- What leaves the device, oldest first. -/
inductive Output where
  | hostWrite (w : HostWrite)
  | dieWrite (die : Side) (addr : Nat) (data : Bytes)
  /-- a read, in requests of at most maxRead bytes, with tags of tagBits bits (R381) -/
  | hostRead (port : Side) (pasid : Option Nat) (addr : Nat) (len : Nat) (tag : Nat) (maxRead tagBits : Nat)
  /-- the read of a command ring's slot (R418, R421) -/
  | slotRead (port : Side) (addr : Nat) (len : Nat)
  | msix (port : Side) (vector : Nat)
  | regRead (port : Side) (v : BitVec 64)
  | completerAbort (port : Side)
  /-- what a control die's read of a mailbox word returns, and the internal bus error of its rejected write (R402, R403) -/
  | dieRead (die : Side) (v : BitVec 64)
  | dieBusError (die : Side)
  /-- an error message of the port, by the severity that the host programmed (R415) -/
  | errMessage (port : Side) (e : AerError) (fatal : Bool)
  | ats (port : Side) (pasid : Nat) (addr : Nat) (tag : Nat)
  /-- a page-request group: each request's PASID, page and access -/
  | priGroup (port : Side) (index : Nat) (pages : List (Nat × Nat × Nat))
  | invalDone (port : Side)
  /-- a frame from destination MAC to FCS; sub: 1 on sub-link B of SPLIT_DR4 -/
  | frame (port : Nat) (sub : Nat) (bytes : Bytes)
  | block (port : Nat) (b : Block)
  | sideband (msg : Bytes)
  | doe (port : Side) (msg : Bytes)
  | ibi (vector : Nat)
  /-- a tile, or as 8 and 9 a host-interface die, answers a write of an older epoch (R39): its unit, the epoch it knows -/
  | staleEpoch (unit : Nat) (epoch : BitVec 32)
  | legRead (who : Requester) (data : List (Option Bytes))
  deriving DecidableEq, Repr

end Sys2Proof.Machine
end

