-- ==== Sys2Proof/Machine/TypesXlt.lean ====
section
/-! DEFINITION. The state of translation, faults, invalidation and remote windows (05_translation). Defaults are the reset values. -/

namespace Sys2Proof.Machine

/-- A mapped stretch of a tenant's DVA space (R156 to R159): every page of it has one size and one set of rights. dva is the address without bit 63. -/
structure Mapping where
  dva : Nat
  len : Nat
  handle : Nat
  off : Nat
  /-- log2 of the page size: 12, 21 or 30 -/
  page : Nat
  read : Bool
  write : Bool
  deriving DecidableEq, Repr

/-- One copy of a table extent (R157): its 2 MiB unit, whether it is being rebuilt, its codewords found uncorrectable. -/
structure TabCopy where
  unit : Nat
  rebuilding : Bool := false
  bad : List Nat := []
  deriving DecidableEq, Repr

/-- A table extent of a tenant: its two copies and its 512 table places, each holding a table named by level and by the DVA bits above it. -/
structure TabExtent where
  copies : Pair (Option TabCopy)
  places : Tab (Nat × Nat) := []
  deriving DecidableEq, Repr

/-- The page tables of one tenant. -/
structure PageTables where
  maps : List Mapping := []
  extents : Tab TabExtent := []
  /-- DVA ranges whose entries are lost in both copies (R157) -/
  lost : List (Nat × Nat) := []
  deriving DecidableEq, Repr

/-- A run entry of a translation cache (R160, R161); addr is a tenant address, to a DPA or, for host, a bus address. -/
structure RunEntry where
  tenant : Nat
  addr : Nat
  len : Nat
  target : Nat
  host : Bool
  read : Bool
  write : Bool
  deriving DecidableEq, Repr

/-- A translation stream (R162): the fetch of a work ring, the source or the destination of a transfer, the cut of an operation, the buffers of a rope; the fetch of a rope's call ring; the placement of a received message. -/
inductive Stream where
  | work (w : Waiter) (write : Bool)
  | calls (slot : Nat)
  | placing (qpn : Nat) (msn : BitVec 32)
  deriving DecidableEq, Repr

/-- A prefetch walk that has not begun (R162): its stream, its tenant address, and how many run entries it is ahead of the stream. -/
structure Prefetch where
  stream : Stream
  tenant : Nat
  addr : Nat
  ahead : Nat
  deriving DecidableEq, Repr

/-- The translation unit of one tile: run entries and upper-level entries, tracked streams, each most recently used first; prefetch walks to begin (R160 to R162). -/
structure TileXlt where
  runs : List RunEntry := []
  upper : List (Nat × Nat × Nat) := []
  streams : List Stream := []
  prefetch : List Prefetch := []
  deriving DecidableEq, Repr

/-- A stream that waits on a fault: who, on which tile, and whether it writes. -/
structure Waiting where
  who : Waiter
  tile : Nat
  addr : Nat
  write : Bool
  deriving DecidableEq, Repr

/-- Where a fault record stands. -/
inductive RecState where
  | unreported
  | opened
  | held
  | posted
  deriving DecidableEq, Repr

/-- A fault record (R167); the port is that of its tenant, host marks a fault on host memory (R171). -/
structure FaultRec where
  port : Side
  tenant : Nat
  /-- page address without the low 12 bits -/
  page : Nat
  host : Bool
  engines : BitVec 64
  read : Bool
  write : Bool
  again : Bool
  waiters : List Waiting
  first : BitVec 64
  state : RecState
  deriving DecidableEq, Repr

/-- A cairn (R166): its records in order, the time of its first, whether the timer posted it. -/
structure Cairn where
  id : Nat
  recs : List Nat
  time : BitVec 64
  timed : Bool := false
  deriving DecidableEq, Repr

/-- A page-request group of host faults (R171): its records; sent once the host's allocation allows. -/
structure PriGroup where
  index : Nat
  recs : List Nat
  sent : Bool
  /-- requests it was sent with -/
  requests : Nat := 0
  deriving DecidableEq, Repr

/-- An ATS request outstanding (R163). -/
structure AtsReq where
  port : Side
  tenant : Nat
  addr : Nat
  write : Bool
  who : Waiting
  /-- the record it answers, for a retry after a page response -/
  record : Option Nat
  /-- it is a prefetch of a stream, so many run entries ahead (R162) -/
  prefetch : Option (Stream × Nat) := none
  /-- it has left the port (R387), and when -/
  sent : Bool := true
  at_ : Nat := 0
  deriving DecidableEq, Repr

/-- One port's fault reporting: its registers (R187 to R191), its open and held cairns, its host groups. -/
structure XltPort where
  base : BitVec 64 := 0#64
  vector : BitVec 11 := 0#11
  sizeLog2 : BitVec 4 := 4#4
  enable : Bool := false
  prod : BitVec 16 := 0#16
  cons : BitVec 16 := 0#16
  consInvalid : Bool := false
  overflowed : Bool := false
  limitMs : BitVec 16 := 0x32#16
  opened : Option Cairn := none
  held : List Cairn := []
  hostOpen : List Nat := []
  groups : List PriGroup := []
  /-- groups whose response has not come within FAULT_LIMIT: index, and requests still outstanding (R171) -/
  deadGroups : Tab Nat := []
  priStopped : Bool := false
  deriving DecidableEq, Repr

/-- Marked work of a tile (R173 step 4); of a rope, the pitches of the running call that were in progress. -/
structure Mark where
  tile : Nat
  who : Waiter
  call : Nat := 0
  pitches : List (Nat × Nat) := []
  deriving DecidableEq, Repr

/-- An invalidation in progress (R173 to R175). -/
structure Invalidation where
  tenant : Nat
  addr : Nat
  len : Nat
  /-- over host translations, for the host's ATS request on this port (R175) -/
  ats : Option Side
  cmd : Option CmdSlot
  /-- allocations whose pages it clears (MEM_FREE is BUSY meanwhile, R174) -/
  handles : List Nat
  /-- tiles that have not acknowledged -/
  tiles : List Nat
  /-- marked work of each such tile (R173 step 4) -/
  marked : List Mark
  aborted : Bool
  /-- the range held no mapped page (R172) -/
  nothing : Bool
  deriving DecidableEq, Repr

/-- How a tile sees a window (R40, R183). -/
inductive WinView where
  | free
  | open
  | closing
  deriving DecidableEq, Repr

/-- A remote window that is not FREE (R176, R183): what each tile has applied and its drain count (R181). -/
structure Window where
  tenant : Nat
  dva : Nat
  len : Nat
  rights : BitVec 4
  peerMode : Nat
  peerNode : BitVec 16
  key : BitVec 32
  closing : Bool := false
  /-- the leader makes it FREE: it is gone once every live tile has applied that (R40, R182 step 3) -/
  freeing : Bool := false
  views : List WinView
  drain : List Nat := List.replicate 8 0
  /-- the WINDOW_REVOKE that waits for the drain -/
  cmd : Option CmdSlot := none
  deriving DecidableEq, Repr

/-- Translation state of the device. -/
structure Xlt where
  tables : Tab PageTables := []
  tiles : List TileXlt := List.replicate 8 {}
  recs : Tab FaultRec := []
  nextRec : Nat := 0
  nextCairn : Nat := 0
  ports : Pair XltPort := ⟨{}, {}⟩
  ats : Tab AtsReq := []
  nextAts : Nat := 0
  invs : Tab Invalidation := []
  nextInv : Nat := 0
  windows : Tab Window := []
  /-- the last key of each window number (R176) -/
  lastKey : Tab (BitVec 32) := []
  deriving DecidableEq, Repr

end Sys2Proof.Machine
end

