-- ==== Sys2Proof/Machine/State.lean ====
section
/-! DEFINITION. The whole state of the block, the outcomes other than a next state, and the state right after reset. -/

namespace Sys2Proof.Machine

/-- Everything the spec gives the device. -/
structure Dev where
  fab : Fab := {}
  mem : Mem := {}
  xlt : Xlt := {}
  eng : Eng := {}
  q : Qps := {}
  net : Net := {}
  ropes : Ropes := {}
  host : Pair HostPort := ⟨{}, { config := { subsysId := 0x0002#16 } }⟩
  ctl : Ctl := {}
  ten : Tens := {}
  ciph : Ciph := {}
  pwr : Pwr := {}
  svc : Svc := {}
  /-- what has left the device, oldest first -/
  out : List Output := []
  /-- the model's own counter of free values taken (log 5); not the spec's -/
  free : Nat := 0
  deriving DecidableEq, Repr

/-- The machine: the device and the commands that wait, first in first out. -/
structure State where
  pending : List Instr
  dev : Dev
  deriving DecidableEq, Repr

/-- No command of the table ends in a fault: the type is empty. -/
inductive Fault where
  deriving DecidableEq, Repr

/-- Why a command is refused. -/
inductive Refusal where
  /-- raised by exec's arms for a command with no meaning yet; safe -/
  | notModelled (mnemonic : String)
  deriving DecidableEq, Repr

/-- The device at the start of the power-on sequence: input in range to come, rails off, every field at its Reset value (R8, R541 step 1). -/
def State.reset : State := { pending := [], dev := {} }

end Sys2Proof.Machine
end

