-- ==== Sys2Proof/Machine/Ops.lean ====
section
/-! DEFINITION. The named operations over the device that every family uses: parts of the state, output, counters (R564 to R567), the error log (R560, R561), MSI-X (R411, R412), host writes (R387), event rings (R230 to R232), device memory. -/

namespace Sys2Proof.Machine

-- Parts of the state

/-- A command acts on the device alone; the queue of waiting commands is untouched. -/
def onDev (s : State) (f : Dev → Dev) : Host.Outcome State Fault Refusal :=
  .next { s with dev := f s.dev }

/-- The device answers only while its rails are on and its clocks run (R511, R522, R541). -/
def live (f : Dev → Dev) (d : Dev) : Dev := if d.pwr.rails = .on then f d else d

def Dev.onFab (d : Dev) (f : Fab → Fab) : Dev := { d with fab := f d.fab }
def Dev.onMem (d : Dev) (f : Mem → Mem) : Dev := { d with mem := f d.mem }
def Dev.onXlt (d : Dev) (f : Xlt → Xlt) : Dev := { d with xlt := f d.xlt }
def Dev.onEng (d : Dev) (f : Eng → Eng) : Dev := { d with eng := f d.eng }
def Dev.onQ (d : Dev) (f : Qps → Qps) : Dev := { d with q := f d.q }
def Dev.onNet (d : Dev) (f : Net → Net) : Dev := { d with net := f d.net }
def Dev.onRopes (d : Dev) (f : Ropes → Ropes) : Dev := { d with ropes := f d.ropes }
def Dev.onHost (d : Dev) (p : Side) (f : HostPort → HostPort) : Dev := { d with host := d.host.upd p f }
def Dev.onCtl (d : Dev) (f : Ctl → Ctl) : Dev := { d with ctl := f d.ctl }
def Dev.onTens (d : Dev) (f : Tens → Tens) : Dev := { d with ten := f d.ten }
def Dev.onCiph (d : Dev) (f : Ciph → Ciph) : Dev := { d with ciph := f d.ciph }
def Dev.onPwr (d : Dev) (f : Pwr → Pwr) : Dev := { d with pwr := f d.pwr }
def Dev.onSvc (d : Dev) (f : Svc → Svc) : Dev := { d with svc := f d.svc }

def Dev.onQp (d : Dev) (n : Nat) (f : Qp → Qp) : Dev := d.onQ fun q => { q with qps := q.qps.upd n f }
def Dev.onConn (d : Dev) (n : Nat) (f : Conn → Conn) : Dev := d.onQp n fun q => { q with conn := f q.conn }
def Dev.onCq (d : Dev) (n : Nat) (f : Cq → Cq) : Dev := d.onQ fun q => { q with cqs := q.cqs.upd n f }
def Dev.onStk (d : Dev) (k : Nat) (f : Stack → Stack) : Dev := d.onMem fun m => { m with stk := modAt m.stk k f }
def Dev.onStkEng (d : Dev) (k : Nat) (f : StackEng → StackEng) : Dev := d.onEng fun e => { e with stk := modAt e.stk k f }
def Dev.onOp (d : Dev) (n : Nat) (f : Op → Op) : Dev := d.onEng fun e => { e with ops := e.ops.upd n f }
def Dev.onPort (d : Dev) (p : Nat) (f : NetPort → NetPort) : Dev := d.onNet fun n => { n with ports := modAt n.ports p f }
def Dev.onRope (d : Dev) (k : Nat) (f : Rope → Rope) : Dev := d.onRopes fun r => { r with slots := r.slots.upd k f }
def Dev.onTen (d : Dev) (n : Nat) (f : Tenant → Tenant) : Dev := d.onTens fun t => { t with tenants := t.tenants.upd n f }
def Dev.onXPort (d : Dev) (p : Side) (f : XltPort → XltPort) : Dev := d.onXlt fun x => { x with ports := x.ports.upd p f }
def Dev.onTile (d : Dev) (t : Nat) (f : TileXlt → TileXlt) : Dev := d.onXlt fun x => { x with tiles := modAt x.tiles t f }
def Dev.onRing (d : Dev) (p : Side) (k : Nat) (f : CmdRing → CmdRing) : Dev :=
  d.onCtl fun c => { c with rings := c.rings.upd p fun l => modAt l k f }
def Dev.onSide (d : Dev) (f : Sideband → Sideband) : Dev := d.onCtl fun c => { c with side := f c.side }
def Dev.onHasp (d : Dev) (n : Nat) (f : Hasp → Hasp) : Dev := d.onCtl fun c => { c with hasps := modAt c.hasps n f }
def Dev.onMbx (d : Dev) (k : Nat) (f : Mailbox → Mailbox) : Dev := d.onCtl fun c => { c with mbx := modAt c.mbx k f }

def Dev.qp? (d : Dev) (n : Nat) : Option Qp := d.q.qps.get? n
def Dev.cq? (d : Dev) (n : Nat) : Option Cq := d.q.cqs.get? n
def Dev.op? (d : Dev) (n : Nat) : Option Op := d.eng.ops.get? n
def Dev.ten? (d : Dev) (n : Nat) : Option Tenant := d.ten.tenants.get? n
def Dev.rope? (d : Dev) (n : Nat) : Option Rope := d.ropes.slots.get? n
def Dev.alloc? (d : Dev) (h : Nat) : Option Alloc := d.mem.allocs.get? h
def Dev.win? (d : Dev) (w : Nat) : Option Window := d.xlt.windows.get? w
def Dev.stack (d : Dev) (k : Nat) : Stack := nth d.mem.stk k {}
def Dev.port (d : Dev) (p : Nat) : NetPort := nth d.net.ports p {}
def Dev.tile (d : Dev) (t : Nat) : TileXlt := nth d.xlt.tiles t {}
def Dev.ring (d : Dev) (p : Side) (k : Nat) : CmdRing := nth (d.ctl.rings.get p) k {}
def Dev.hasp (d : Dev) (n : Nat) : Hasp := nth d.ctl.hasps n {}
def Dev.mbx (d : Dev) (k : Nat) : Mailbox := nth d.ctl.mbx k {}
def Dev.tileLive (d : Dev) (t : Nat) : Bool := nth d.fab.tileLive t false

/-- The half of a tile (R12): FT0 to FT3 West, FT4 to FT7 East. -/
def tileHalf (t : Nat) : Side := if t < 4 then .west else .east
/-- The half of a stack: S0 to S15 West. -/
def stackHalf (k : Nat) : Side := if k < 16 then .west else .east
/-- The half of a network port: NP0 to NP7 West. -/
def portHalf (p : Nat) : Side := if p < 8 then .west else .east
/-- The tile of a stack: four stacks a tile (R12). -/
def stackTile (k : Nat) : Nat := k / 4
/-- The tile of a network port: two ports a tile (R12). -/
def portTile (p : Nat) : Nat := p / 2
/-- Queue pair n is owned by tile n / 8,192 (R197). -/
def qpTile (n : Nat) : Nat := n / 8192
/-- Completion queue n is owned by tile n / 2,048 (R197). -/
def cqTile (n : Nat) : Nat := n / 2048

/-- Time in ticks of 2 ns (R521). -/
def now (d : Dev) : Nat := d.pwr.tsc.toNat
def usTicks (n : Nat) : Nat := 500 * n
def msTicks (n : Nat) : Nat := 500000 * n
def secTicks (n : Nat) : Nat := 500000000 * n

/-- Something leaves the device. -/
def emit (o : Output) (d : Dev) : Dev := { d with out := d.out ++ [o] }

/-- Record kinds of the protected store, as the model numbers them (R502; log 72): the PUF's data, the certificate chain, revocations with MIN_SVN, banks A and B, the selector, the Lamold record with its anchor, retirement data. -/
def rkPuf : Nat := 0
def rkChain : Nat := 1
def rkSvn : Nat := 2
def rkBank (s : Side) : Nat := 3 + s.idx
def rkSelector : Nat := 5
def rkRecord : Nat := 6
def rkRetired : Nat := 7

/-- One write of records of the protected store: the monotonic counter rises (R502). -/
def storeWrite (ks : List Nat) (d : Dev) : Dev :=
  d.onSvc fun v =>
    let n := v.storeCount + 1#64
    { v with storeCount := n, storeLast := v.storeLast.mapIdx fun k x => if ks.contains k then n else x }

/-- The next free value (log 5). -/
def takeFree (d : Dev) : BitVec 64 × Dev := (Config.freeValue d.free, { d with free := d.free + 1 })

/-- A unit waits to be drained for new microcode: a stack, or a tile (R553). -/
def ucodeBusy (d : Dev) (base : Bool) (u : Nat) : Bool :=
  match d.svc.microcode with
  | some m => m.base = base && m.units.head? = some u
  | none => false

-- Leadership

/-- The control die that leads (R390, R398). -/
def leader (d : Dev) : Option Side :=
  if d.ctl.dies.w = .leader then some .west else if d.ctl.dies.e = .leader then some .east else none

/-- The leadership epoch is the EPOCH of Hasp 0 (R390 to R396). -/
def leadEpoch (d : Dev) : BitVec 32 := (d.hasp 0).epoch

def dieDown (s : DieState) : Bool := s = .fenced || s = .lost

-- Event counters

/-- A counter adds n where its selection matches (R566, R567). -/
def bumpEvc (src inst : Nat) (ten : Option Nat) (n : Nat) (c : Evc) : Evc :=
  if c.enable && c.source = BitVec.ofNat 16 src && (c.inst = 0xFF#8 || c.inst = BitVec.ofNat 8 inst)
      && (c.tenant = 0xFFFF#16 || ten = some c.tenant.toNat) then
    let t := c.count.toNat + n
    if t < 2 ^ 48 then { c with count := BitVec.ofNat 48 t }
    else { c with count := if c.saturate then BitVec.allOnes 48 else BitVec.ofNat 48 t, ovf := true }
  else c

/-- A happening of an event-counter source (R564, R565): its count at the source, and every counter that selects it. -/
def count (src inst : Nat) (ten : Option Nat) (n : Nat) (d : Dev) : Dev :=
  let d := d.onSvc fun v => { v with counters := v.counters.map fun (k, c) => (k, bumpEvc src inst ten n c) }
  if src / 256 = 1 || src / 256 = 2 then
    d.onPort inst fun p => { p with counts := p.counts.set src (p.counts.getD src 0 + n) }
  else if src / 256 = 3 then
    d.onHost (.ofIdx inst) fun p => { p with counts := p.counts.set src (p.counts.getD src 0 + n) }
  else d

-- Host ports

/-- A port issues requests unless its link is down, it is in D3hot or Bus Master Enable is 0 (R387, R587). -/
def canIssue (d : Dev) (p : Side) : Bool :=
  let h := d.host.get p
  h.linkUp && h.busMaster && !h.d3hot

/-- The entry of a vector; every vector is masked at reset (R410). -/
def msixEntry (d : Dev) (p : Side) (v : Nat) : MsixEntry := ((d.host.get p).msix).getD v {}

/-- Trigger a vector: one message, or its pending bit while masked or while the port cannot send (R387, R412). -/
def msix (p : Side) (v : Nat) (d : Dev) : Dev :=
  let e := msixEntry d p v
  if e.masked || (d.host.get p).funcMask || e.addr = 0#64 || !canIssue d p then
    d.onHost p fun h => { h with msix := h.msix.set v { e with pending := true }, waits := if e.pending then h.waits else h.waits ++ [.msix v] }
  else emit (.msix p v) d

/-- Send the message of a vector that is pending and no longer masked (R412). -/
def msixSend (p : Side) (v : Nat) (d : Dev) : Dev :=
  let e := msixEntry d p v
  if e.pending && !e.masked && !(d.host.get p).funcMask && e.addr ≠ 0#64 && canIssue d p then
    emit (.msix p v) (d.onHost p fun h => { h with msix := h.msix.set v { e with pending := false }, waits := h.waits.erase (.msix v) })
  else d

/-- Send the pending messages of a port whose mask is clear (R412). -/
def msixFlush (p : Side) (d : Dev) : Dev := (d.host.get p).msix.foldl (fun d (v, _) => msixSend p v d) d

/-- Causes of ALERT_N in the order of R581: a sensor, an In-Band Interrupt, clock loss, boot halt, fenced dies. -/
def alSensor : Nat := 0
def alIbi : Nat := 1
def alClock : Nat := 2
def alBoot : Nat := 3
def alFenced : Nat := 4
def raiseAlert (n : Nat) (d : Dev) : Dev := d.onCtl fun c => { c with alerts := insNat c.alerts n }
def dropAlert (n : Nat) (d : Dev) : Dev := d.onCtl fun c => { c with alerts := c.alerts.filter (· ≠ n) }

/-- A sideband In-Band Interrupt for vector 0 or 3 (R413), with ALERT_N (R581). -/
def raiseIbi (v : Nat) (d : Dev) : Dev := raiseAlert alIbi (d.onSide fun s => { s with ibi := insNat s.ibi v })

/-- A vector of R411 on both ports and on the sideband. -/
def signalBoth (v : Nat) (d : Dev) : Dev := raiseIbi v (msix .east v (msix .west v d))

/-- Work that a port cannot do now takes its place in the order of what it holds (R387). -/
def heldNote (p : Side) (w : HeldWork) (d : Dev) : Dev :=
  if canIssue d p then d else d.onHost p fun h => { h with waits := h.waits ++ [w] }

/-- A posted write leaves its port, in TLPs of the payload the host allows and with the ordering it enabled (R381). -/
def sendWrite (p : Side) (pasid : Option Nat) (addr : Nat) (data : Bytes) (relax : Bool) (d : Dev) : Dev :=
  let c := (d.host.get p).config
  emit (.hostWrite ⟨p, pasid, addr, data, c.maxPayload, relax && c.relaxedOrdering⟩) d

/-- A posted write into host memory; held in order while the port cannot issue (R387). Data may be relaxed, entries and replies not (R381, R426). -/
def hostPut (relax : Bool) (p : Side) (pasid : Option Nat) (addr : Nat) (data : Bytes) (d : Dev) : Dev :=
  let d := count 0x030E p.idx none data.length d
  if canIssue d p && (d.host.get p).heldWrites = [] then sendWrite p pasid addr data relax d
  else d.onHost p fun h => { h with heldWrites := h.heldWrites ++ [(pasid, addr, data, relax)], waits := h.waits ++ [.write] }

def hostWrite (p : Side) (pasid : Option Nat) (addr : Nat) (data : Bytes) (d : Dev) : Dev := hostPut false p pasid addr data d

/-- One more of an error. -/
def aerAdd (e : AerError) (l : List (AerError × Nat)) : List (AerError × Nat) :=
  match l with
  | [] => [(e, 1)]
  | (x, n) :: r => if x = e then (x, n + 1) :: r else (x, n) :: aerAdd e r

/-- Errors that a received TLP causes carry its header. -/
def aerHeader : AerError → Bool
  | .completerAbort | .poisonedTlp | .unexpectedCompletion | .malformedTlp | .unsupportedRequest | .ecrc | .acsViolation | .advisoryNonFatal => true
  | _ => false

/-- An error is logged through AER; the header that the host's request or completion carried is not in the model, and its bits are free (log 31). -/
def aerLog (p : Side) (e : AerError) (d : Dev) : Dev :=
  let d := d.onHost p fun h => { h with aer := { h.aer with counts := aerAdd e h.aer.counts } }
  if !aerHeader e || (d.host.get p).aer.masked.contains e then d
  else
    let (lo, d) := takeFree d
    let (hi, d) := takeFree d
    d.onHost p fun h => { h with aer := { h.aer with header := hi ++ lo } }

-- Error log

/-- The die that logs: the half's, else the leader, and the other when that die is fenced or lost (chapter Service, Error log). -/
def logDie (d : Dev) (half : Option Side) : Side :=
  let die := match half with
    | some h => h
    | none => (leader d).getD .west
  if dieDown (d.ctl.dies.get die) then die.other else die

/-- The half a unit belongs to: UNIT_KIND and UNIT of R560. -/
def unitHalf (kind unit : Nat) : Option Side :=
  match kind with
  | 1 => some (stackHalf unit)
  | 2 => some (tileHalf unit)
  | 3 => some (portHalf unit)
  | 4 => some (.ofIdx unit)
  | 5 => some (.ofIdx unit)
  | _ => none

/-- Write an error-log entry, or add 1 to the newest when CODE, unit and tenant match within 1 s (R560). -/
def logIt (code kind unit : Nat) (args : List Nat) (ten : Nat := 0xFFFF) (d : Dev) : Dev :=
  let die := logDie d (unitHalf kind unit)
  let g := d.svc.logs.get die
  let fold := match g.entries.getLast? with
    | some e => e.code = BitVec.ofNat 16 code && e.unitKind = kind && e.unit = unit && e.tenant = ten
        && now d ≤ e.time.toNat + secTicks 1
    | none => false
  if fold then
    d.onSvc fun v => { v with logs := v.logs.upd die fun g =>
      { g with entries := modAt g.entries (g.entries.length - 1) fun e => { e with count := e.count + 1#32 } } }
  else
    let e : LogEntry := ⟨d.pwr.tsc, g.nextSeq, BitVec.ofNat 16 code, (Config.logSeverity code).toNat, kind, unit, ten, 1#32,
      ((args ++ [0, 0, 0, 0]).take 4).map (BitVec.ofNat 64)⟩
    let full := 4096 ≤ g.entries.length
    let d := d.onSvc fun v => { v with
      logTotal := satAdd v.logTotal 1
      logs := v.logs.upd die fun g =>
        { entries := (if full then g.entries.drop 1 else g.entries) ++ [e], nextSeq := g.nextSeq + 1#32,
          overwritten := if full then satAdd g.overwritten 1 else g.overwritten } }
    signalBoth 0 (count 0x0B03 0xFF none 1 d)

/-- The first of a kind per 60 s is logged (R272, R415). -/
def logFirst60 (key obj : Nat) (code kind unit : Nat) (args : List Nat) (d : Dev) : Dev :=
  let recent := d.net.loggedAt.any fun (k, o, t) => k = key && o = obj && now d < t + secTicks 60
  if recent then d
  else logIt code kind unit args (d := d.onNet fun n =>
    { n with loggedAt := n.loggedAt.filter (fun (k, o, _) => !(k = key && o = obj)) ++ [(key, obj, now d)] })

-- Tenants: status, counts, events

/-- Add to count k of the tenant page (R451). -/
def tenCount (t k n : Nat) (d : Dev) : Dev :=
  d.onTen t fun x => { x with counts := modAt x.counts k fun c => satAdd c n }

def evSize (t : Tenant) : Nat := 2 ^ t.par.evqLog2

/-- The 32 bytes of an event entry (R230). -/
def eventBytes (e : Event) (lost phase : Bool) : Bytes :=
  toLE 8 e.time.toNat ++ toLE 8 e.arg0.toNat ++ toLE 8 e.arg1.toNat ++ toLE 4 e.object.toNat
    ++ toLE 1 e.code ++ zpad 2 ++ toLE 1 (b2n phase + 2 * b2n lost)

/-- Write one event at the producer index; the next arm's message follows it (R229, R230). -/
def eventWrite (n : Nat) (e : Event) (d : Dev) : Dev :=
  match d.ten? n with
  | none => d
  | some t =>
    let s := evSize t
    let d := hostWrite t.par.port none (t.par.evqAddr.toNat + t.ev.p % s * 32)
      (eventBytes e t.ev.lostNext (phaseOf s t.ev.p)) d
    let d := d.onTen n fun t => { t with ev := { t.ev with p := ringAdd s t.ev.p 1, lostNext := false, armed := false } }
    if t.ev.armed && t.par.evqVector ≠ 0xFFFF#16 then msix t.par.port t.par.evqVector.toNat d else d

def eventRoom (d : Dev) (t : Tenant) : Bool :=
  ringSub (evSize t) t.ev.p t.ev.c < evSize t && canIssue d t.par.port

/-- The tenant is being reset: TENANT_RESET will be the first entry of its ring (R457 step 9). -/
def ringWaits (t : Tenant) : Bool := t.st = .resetting || t.st = .destroying

/-- Post an event: written, held up to 16 while the ring is full, the port cannot issue or TENANT_RESET is to come first, or dropped (R232, R387, R457). -/
def postEvent (n code obj arg0 arg1 : Nat) (d : Dev) : Dev :=
  match d.ten? n with
  | none => d
  | some t =>
    let e : Event := ⟨d.pwr.tsc, BitVec.ofNat 64 arg0, BitVec.ofNat 64 arg1, BitVec.ofNat 32 obj, code⟩
    let first := code = 0x10
    if (first || (t.ev.held = [] && !ringWaits t)) && eventRoom d t then eventWrite n e d
    else if first || t.ev.held.length < 16 then
      heldNote t.par.port (.event n) (d.onTen n fun t => { t with ev := { t.ev with held := if first then e :: t.ev.held else t.ev.held ++ [e] } })
    else
      count 0x0B09 0xFF none 1 (tenCount n 1 1 (d.onTen n fun t =>
        { t with eventsLost := true, ev := { t.ev with lostNext := true } }))

/-- Write the first held event if there is room. -/
def eventDrain1 (n : Nat) (d : Dev) : Dev :=
  match d.ten? n with
  | none => d
  | some t =>
    match t.ev.held with
    | [] => d
    | e :: r => if !ringWaits t && eventRoom d t then eventWrite n e (d.onTen n fun t => { t with ev := { t.ev with held := r } }) else d

/-- Write held events in order while there is room (R232). -/
def eventDrain (n : Nat) (d : Dev) : Dev := iter (eventDrain1 n) 16 d

/-- The tenants in rising order. -/
def tenantNums (d : Dev) : List Nat := d.ten.tenants.map Prod.fst

-- Device memory

/-- What an unlisted byte reads as (log 13). -/
def Memory.unlisted : Byte := 0#8

/-- Addresses strictly rising, below 2^41, and no entry equal to what an unlisted address reads as. -/
def Memory.wf : List Host.Cell → Bool
  | [] => true
  | [(a, b)] => b ≠ Memory.unlisted && a < 2 ^ 41
  | (a, b) :: (a', b') :: r => b ≠ Memory.unlisted && a < a' && Memory.wf ((a', b') :: r)

def Memory.read : List Host.Cell → Nat → Byte
  | [], _ => Memory.unlisted
  | (k, x) :: r, a => if k = a then x else Memory.read r a

/-- Store one byte; storing what an unlisted address reads as removes the entry. -/
def Memory.write : List Host.Cell → Nat → Byte → List Host.Cell
  | [], a, b => if b = Memory.unlisted then [] else [(a, b)]
  | (k, x) :: r, a, b =>
    if a < k then (if b = Memory.unlisted then (k, x) :: r else (a, b) :: (k, x) :: r)
    else if a = k then (if b = Memory.unlisted then r else (a, b) :: r)
    else (k, x) :: Memory.write r a b

def Memory.writes : List Host.Cell → Nat → Bytes → List Host.Cell
  | m, _, [] => m
  | m, a, b :: r => Memory.writes (if a < 2 ^ 41 then Memory.write m a b else m) (a + 1) r

/-- Set the bytes from lo up to hi to what unlisted addresses read as. -/
def Memory.clear (m : List Host.Cell) (lo hi : Nat) : List Host.Cell := m.filter fun (a, _) => a < lo || hi ≤ a

/-- Bytes as stored, without regard to poison. -/
def memBytes (d : Dev) (dpa len : Nat) : Bytes := (List.range len).map fun i => Memory.read d.mem.bytes (dpa + i)

/-- A poisoned codeword lies in the stretch (R57). -/
def poisonIn (d : Dev) (dpa len : Nat) : Bool :=
  d.mem.poison.any fun c => 32 * c < dpa + len && dpa < 32 * c + 32

/-- Stack of a DPA (R43). -/
def dpaStack (dpa : Nat) : Nat := dpa / 2 ^ 36

def stackOffline (d : Dev) (k : Nat) : Bool := (d.stack k).mode = .offline

/-- A write of bytes: a codeword wholly written loses its poison, one partly written keeps it (R47, R57). -/
def memWrite (dpa : Nat) (data : Bytes) (d : Dev) : Dev :=
  d.onMem fun m => { m with
    bytes := Memory.writes m.bytes dpa data
    poison := m.poison.filter fun c => !(dpa ≤ 32 * c && 32 * c + 32 ≤ dpa + data.length) }

/-- A poisoned codeword that the stretch covers only in part (R58). -/
def partPoison (d : Dev) (dpa len : Nat) : Bool :=
  d.mem.poison.any fun c => 32 * c < dpa + len && dpa < 32 * c + 32 && !(dpa ≤ 32 * c && 32 * c + 32 ≤ dpa + len)

/-- Poison every codeword that the stretch touches. -/
def memPoison (dpa len : Nat) (d : Dev) : Dev :=
  if len = 0 then d
  else
    let lo := dpa / 32
    let hi := (dpa + len - 1) / 32 + 1
    d.onMem fun m => { m with
      poison := m.poison.filter (fun c => c < lo) ++ (List.range (hi - lo)).map (lo + ·) ++ m.poison.filter (fun c => hi ≤ c) }

/-- Write zeros over whole codewords, clearing poison (R53). -/
def memZero (dpa len : Nat) (d : Dev) : Dev :=
  d.onMem fun m => { m with
    bytes := Memory.clear m.bytes dpa (dpa + len)
    poison := m.poison.filter fun c => !(dpa ≤ 32 * c && 32 * c + 32 ≤ dpa + len) }

/-- The bytes of a stretch, none where poison or an offline stack stops the read (R58, R66). -/
def memRead? (d : Dev) (dpa len : Nat) : Option Bytes :=
  if poisonIn d dpa len || stackOffline d (dpaStack dpa) then none else some (memBytes d dpa len)

/-- The ECC check of one codeword with n symbols in error (R55, R57; log 6): what it finds, and the cells after it. A codeword poisoned before is found so, and none of the actions of R57 is repeated (log 94). -/
def eccCell (dpa n : Nat) (d : Dev) : Found × Dev :=
  if poisonIn d dpa 32 then (.poison, d)
  else if n = 0 then (.clean (memBytes d dpa 32), d)
  else if n = 1 then (.fixed (memBytes d dpa 32), d)
  else if n < 4 then (.lost, memPoison dpa 32 d)
  else
    let r := Config.miscorrected d.free
    let d := { d with free := d.free + 1 }
    match r with
    | some b => (.fixed (slice b 0 32), memWrite dpa (slice b 0 32) d)
    | none => (.lost, memPoison dpa 32 d)

def symbolsOf (errs : List (Nat × Nat)) (i : Nat) : Nat := ((errs.find? fun e => e.1 = i).map Prod.snd).getD 0

/-- The check of the codewords named by their index from a DPA. -/
def eccCells (errs : List (Nat × Nat)) (dpa : Nat) : List Nat → Dev → List (Nat × Found) × Dev
  | [], d => ([], d)
  | i :: r, d =>
    let (x, d) := eccCell (dpa + 32 * i) (symbolsOf errs i) d
    let (l, d) := eccCells errs dpa r d
    ((i, x) :: l, d)

/-- Codewords, by index from that of the first byte, that a write covers only in part: they are read and merged (R47). -/
def mergedCells (off len : Nat) : List Nat :=
  if len = 0 then []
  else
    let last := (off + len - 1) / 32 - off / 32
    (if off % 32 ≠ 0 || len < 32 then [0] else []) ++ (if (off + len) % 32 ≠ 0 && last ≠ 0 then [last] else [])

/-- Stack offset and length that an access covers. -/
def accRange : Access → Nat × Nat
  | .read off n _ _ => (off / 32 * 32, 32 * n)
  | .write off b _ _ => (off, b.length)
  | .readDone off _ f => (off / 32 * 32, 32 * f.length)
  | .writeDone off n _ _ _ => (off, n)

/-- The cells of an access of stack k: the codewords it reads are checked and its bytes stored; its answer is still to come (R47, R48, R55). -/
def accCells (k : Nat) (a : Access) (d : Dev) : Access × Dev :=
  match a with
  | .read off n who errs =>
    let (f, d) := eccCells errs (k * 2 ^ 36 + off / 32 * 32) (List.range n) d
    (.readDone off who (f.map Prod.snd), d)
  | .write off b who errs =>
    let dpa := k * 2 ^ 36 + off
    let (f, d) := eccCells errs (dpa / 32 * 32) (mergedCells off b.length) d
    (.writeDone off b.length who f (partPoison d dpa b.length), memWrite dpa b d)
  | a => (a, d)

/-- First stack offset that no access may name: the retirement reserve (R44, R45). -/
def offEnd : Nat := 0xBF8000000

/-- The cells of held accesses in arrival order; one that is outside the stack has none. -/
def heldCells (k : Nat) : List Access → Dev → List Access × Dev
  | [], d => ([], d)
  | a :: r, d =>
    let (o, n) := accRange a
    let (a, d) := if offEnd < o + n then (a, d) else accCells k a d
    let (l, d) := heldCells k r d
    (a :: l, d)

/-- The accesses held at a base die are served before one that arrives after them (R48). -/
def serveCells (k : Nat) (d : Dev) : Dev :=
  let s := d.stack k
  let m := ((s.moves.head?).map (·.hold)).getD []
  if m = [] && s.held = [] then d
  else
    let (m, d) := heldCells k m d
    let (h, d) := heldCells k s.held d
    d.onStk k fun s => { s with moves := modAt s.moves 0 fun x => { x with hold := m }, held := h }

/-- An access begins to wake its stack (R65): a parking stack is online again at once. -/
def wakeStack (k : Nat) (d : Dev) : Dev :=
  match (d.stack k).mode with
  | .parking => d.onStk k fun s => { s with mode := .online }
  | .parked => count 0x0608 k none 1 (d.onStk k fun s => { s with mode := .waking })
  | _ => d

/-- An access wakes a parking or parked stack (R65); a row that ends an access ends after the wake, and after the accesses held before it. -/
def touchStack (k : Nat) (d : Dev) : Dev :=
  (serveCells k (wakeStack k d)).onStk k fun s => if s.mode = .waking then { s with mode := .online } else s

/-- The 2 MiB unit. -/
def unitBytes : Nat := 2097152
/-- Units of one stack (R42): 24,512 allocatable of 2^36 / 2 MiB = 32,768 DPA units. -/
def stackUnits : Nat := 24512
def dpaUnit (stack ext : Nat) : Nat := stack * 32768 + ext

/-- The DPA at a byte offset of an allocation: its runs in dealt order (R51). -/
def runDpa : List Run → Nat → Option Nat
  | [], _ => none
  | r :: rest, off => if off < r.len * unitBytes then some (r.unit * unitBytes + off) else runDpa rest (off - r.len * unitBytes)

/-- Bytes from an offset to the end of its run. -/
def runLeft : List Run → Nat → Nat
  | [], _ => 0
  | r :: rest, off => if off < r.len * unitBytes then r.len * unitBytes - off else runLeft rest (off - r.len * unitBytes)

/-- Units of an allocation. -/
def allocUnits (a : Alloc) : Nat := a.runs.foldl (fun n r => n + r.len) 0

/-- The byte offset of a DPA within runs. -/
def runOff : List Run → Nat → Option Nat
  | [], _ => none
  | r :: rest, dpa =>
    if r.unit * unitBytes ≤ dpa && dpa < (r.unit + r.len) * unitBytes then some (dpa - r.unit * unitBytes)
    else (runOff rest dpa).map fun o => o + r.len * unitBytes

/-- The allocation that a DPA lies in: handle, allocation, byte offset. -/
def ownerOf (d : Dev) (dpa : Nat) : Option (Nat × Alloc × Nat) :=
  d.mem.allocs.findSome? fun (h, a) => (runOff a.runs dpa).map fun o => (h, a, o)

end Sys2Proof.Machine
end

