-- ==== Sys2Proof/Machine/FabOps.lean ====
section
/-! DEFINITION. The credit queues inside the package and the paths between tiles, stacks and host ports (01_architecture, R12 to R31). A queue's instance is a stack (row 3: 2 x stack + direction), 16 x tile + input port, 8 x sender + receiver of an intra-half link, 2 x segment + direction (0 from West to East), a tile, or a completion queue (log 60). -/

namespace Sys2Proof.Machine

-- The dies and their links (R12)

/-- The dies of the package that links join. -/
inductive Die where
  | tile (t : Nat)
  | base (k : Nat)
  | optical (n : Nat)
  | host (p : Side)
  | control (p : Side)
  | centre
  | bootStore
  | power
  deriving DecidableEq, Repr

/-- The kinds of link. -/
inductive LinkKind where
  | stack
  | intraHalf
  | bridge
  | optical
  | host
  | control
  | controlDie
  | bootStore
  | management
  | isolation
  deriving DecidableEq, Repr

/-- The link between two dies, named in the order of the table of R12; no other path joins two dies. -/
def linkOf : Die → Die → Option LinkKind
  | .base k, .tile t => if k < 32 && stackTile k = t then some .stack else none
  | .tile a, .tile b =>
    if 8 ≤ a || 8 ≤ b || a = b then none
    else if tileHalf a = tileHalf b then some .intraHalf
    else if a % 4 = b % 4 then some .bridge
    else none
  | .tile t, .optical n => if t < 8 && t = n then some .optical else none
  | .host p, .tile t => if t < 8 && tileHalf t = p then some .host else none
  | .control p, .tile t => if t < 8 && tileHalf t = p then some .control else none
  | .control p, .host q => if p = q then some .control else none
  | .control _, .centre => some .control
  | .control .west, .control .east => some .controlDie
  | .bootStore, .control _ => some .bootStore
  | .centre, .tile t => if t < 8 then some .management else none
  | .centre, .host _ => some .management
  | .centre, .control _ => some .management
  | .power, .centre => some .isolation
  | _, _ => none

/-- A tile that answers: not lost, its half not in reset (R173 step 6). -/
def tileUp (d : Dev) (t : Nat) : Bool := d.tileLive t && !d.pwr.inReset.get (tileHalf t)

def liveTiles (d : Dev) : List Nat := (List.range 8).filter (tileUp d)

/-- A unit that holds copies and answers: tiles, and as 8 and 9 the host-interface dies. -/
def unitUp (d : Dev) (u : Nat) : Bool := if u < 8 then tileUp d u else u < 10 && !d.pwr.inReset.get (.ofIdx (u - 8))

/-- Class codes of a stall record (R561). -/
def classCode : QClass → Nat
  | .req => 0
  | .rsp => 1
  | .col => 2
  | .mgt => 3

/-- Units a queue takes (R22); none: no such queue. Rows 10 to 13 have no class: they are named with REQ (log 60). -/
def queueDepth (q : QueueId) : Option Nat :=
  let three := q.cls ≠ .mgt
  let stack := q.inst < 32
  let link : Bool := linkOf (.tile (q.inst / 8)) (.tile (q.inst % 8)) = some .intraHalf
  match q.row with
  | 1 => if q.cls = .req && stack then some 256 else none
  | 2 => if q.cls = .rsp && stack then some 256 else none
  | 3 => if q.cls = .mgt && q.inst < 64 then some 16 else none
  | 4 => if three && q.inst < 128 then some 128 else none
  | 5 => if !three && q.inst < 128 then some 32 else none
  | 6 => if three && link then some 512 else none
  | 7 => if !three && link then some 32 else none
  | 8 => if three && q.inst < 8 then some 384 else none
  | 9 => if !three && q.inst < 8 then some 32 else none
  | 10 => if q.cls = .req && q.inst < 8 then some 16384 else none
  | 11 => if q.cls = .req && q.inst < 8 then some 1024 else none
  | 12 => if q.cls = .req && stack then some 64 else none
  | 13 => if q.cls = .req && q.inst < 16384 then some 64 else none
  | _ => none

def isBridge (q : QueueId) : Bool := q.row = 8 || q.row = 9
def isLink (q : QueueId) : Bool := q.row = 6 || q.row = 7
def isSwitch (q : QueueId) : Bool := q.row = 4 || q.row = 5

def queueAt (f : Fab) (q : QueueId) : CreditQ := (f.queues.find? fun c => c.id = q).getD { id := q }

/-- Keep a queue that is not at rest. -/
def setQueue (f : Fab) (c : CreditQ) : Fab :=
  let rest := f.queues.filter fun x => x.id ≠ c.id
  { f with queues := if c.units = [] && c.held = 0 && !c.resetting && c.logged.isNone then rest else rest ++ [c] }

/-- A unit can be sent on the queue now: both ends are up and a credit is at hand (R18, R28). -/
def hasCredit (f : Fab) (q : QueueId) : Bool :=
  let c := queueAt f q
  !c.resetting && c.held = 0 && c.units.length < (queueDepth q).getD 0

/-- Units that CREDIT_QUEUE_SEND has put on a queue of rows 10 to 13: they take places of its pool (R22 to R25). -/
def poolUnits (d : Dev) (row inst : Nat) : Nat := (queueAt d.fab ⟨row, .req, inst⟩).units.length

/-- A queue of rows 10 to 13 has sent a unit that the device carries itself: a stall of it is over (R27). -/
def noteSent (row inst : Nat) (d : Dev) : Dev :=
  d.onFab fun f => setQueue f { queueAt f ⟨row, .req, inst⟩ with since := now d, logged := none }

/-- The stall of a queue is over once it sends (R27). -/
def pushUnit (t : Nat) (u : Sent) (c : CreditQ) : CreditQ := { c with units := c.units ++ [u], since := t, logged := none }

-- Paths between tiles (R14 to R17)

/-- The segment for new units from tile src to tile dst of the other half (R14, R15). -/
def segmentFor (f : Fab) (src dst : Nat) : Option Nat :=
  let up (s : Nat) : Bool := nth f.segUp s false
  if up (src % 4) then some (src % 4)
  else if up (dst % 4) then some (dst % 4)
  else (List.range 4).find? up

/-- The tile of a half at which segment s ends (R12). -/
def segEnd (h : Side) (s : Nat) : Nat :=
  match h with
  | .west => s
  | .east => s + 4

def linkUp (f : Fab) (a b : Nat) : Bool := !f.linksDown.contains (min a b, max a b)

/-- The tile that a unit from tile a to tile b of its half goes to first: b, or where their link is down the lowest-numbered other tile of the half that is up and has links to both (R16, log 60). -/
def linkHop (f : Fab) (a b : Nat) : Option Nat :=
  if linkUp f a b then some b
  else (List.range 8).find? fun c =>
    linkOf (.tile a) (.tile c) = some .intraHalf && linkOf (.tile c) (.tile b) = some .intraHalf && nth f.tileLive c false && linkUp f a c && linkUp f c b

/-- The rows of R22 that a class uses on an intra-half link and on a bridge segment. -/
def linkRow (c : QClass) : Nat := if c = .mgt then 7 else 6
def bridgeRow (c : QClass) : Nat := if c = .mgt then 9 else 8

/-- The queue of the link from a towards b of its half. -/
def linkQueue (f : Fab) (cls : QClass) (a b : Nat) : Option QueueId :=
  (linkHop f a b).map fun c => ⟨linkRow cls, cls, 8 * a + c⟩

/-- The segment that a unit takes when it leaves its source; none within a half (R14, R15). -/
def aim (f : Fab) (u : Flit) : Sent := ⟨u, if tileHalf u.src = tileHalf u.dst then none else segmentFor f u.src u.dst⟩

/-- The segment of a unit on its way: the one it took, while that is up (R15). -/
def segOf (f : Fab) (u : Sent) : Option Nat :=
  match u.seg with
  | some s => if nth f.segUp s false then some s else segmentFor f u.flow.src u.flow.dst
  | none => segmentFor f u.flow.src u.flow.dst

/-- The queue by which a unit leaves tile a towards its destination (R14 to R16); none: no path. -/
def nextQueue (f : Fab) (a : Nat) (u : Sent) : Option QueueId :=
  if tileHalf a = tileHalf u.flow.dst then linkQueue f u.flow.cls a u.flow.dst
  else match segOf f u with
    | none => none
    | some s =>
      let e := segEnd (tileHalf a) s
      if a = e then some ⟨bridgeRow u.flow.cls, u.flow.cls, 2 * s + b2n (4 ≤ a)⟩ else linkQueue f u.flow.cls a e

/-- The tile at the receiving end of a queue between tiles, or of a switch input. -/
def queueEnd (q : QueueId) : Option Nat :=
  if isLink q then some (q.inst % 8)
  else if isBridge q then some (segEnd (if q.inst % 2 = 0 then .east else .west) (q.inst / 2))
  else if isSwitch q then some (q.inst / 16)
  else none

-- Input ports of a tile's switch: 0 to 3 its stack links, 4 to 7 the links from tiles of its half, then these (log 60)
def inBridge : Nat := 8
def inHost : Nat := 9
/-- the management network -/
def inMgt : Nat := 10
/-- the tile's own blocks -/
def inOwn : Nat := 11

/-- The switch input of a tile for a class at an input port. -/
def switchIn (c : QClass) (t port : Nat) : QueueId := ⟨if c = .mgt then 5 else 4, c, 16 * t + port⟩

/-- The input port at which a link ends. -/
def inPort (q : QueueId) : Nat := if isBridge q then inBridge else 4 + q.inst / 8 % 4

/-- Where a unit goes from the receiver's queue: into the switch of the tile at the link's end, from a switch input on to the next link, or to its destination (none within some). None: no path is up. -/
def nextHop (f : Fab) (q : QueueId) (u : Sent) : Option (Option QueueId) :=
  match queueEnd q with
  | none => some none
  | some e =>
    if !isSwitch q then some (some (switchIn q.cls e (inPort q)))
    else if e = u.flow.dst || u.flow.src = u.flow.dst then some none
    else (nextQueue f e u).map some

/-- The queues a unit at tile a passes on its way, each link with the switch input behind it (R14 to R16): none where no path is up. -/
def routeFrom (f : Fab) : Nat → Nat → Sent → Option (List QueueId)
  | 0, _, _ => none
  | n + 1, a, u =>
    if a = u.flow.dst then some []
    else match nextQueue f a u with
      | none => none
      | some q =>
        match queueEnd q with
        | none => none
        | some e => (routeFrom f n e u).map fun l => q :: switchIn q.cls e (inPort q) :: l

/-- The present path of a flow: at most a relayed hop to the segment, the segment, and a relayed hop beyond it. -/
def route (f : Fab) (u : Flit) : Option (List QueueId) := routeFrom f 6 u.src (aim f u)

/-- A unit of the flow is still out on a queue off its present path (R17). -/
def strayUnit (f : Fab) (u : Flit) (path : List QueueId) : Bool :=
  u.src ≠ u.dst && f.queues.any fun c => !path.contains c.id && c.units.any fun x => x.flow = u

-- RSP space (R21)

/-- The RSP receive queue in which the sender of a REQ unit reserves a place for the response: a stack's, a switch input's, or that of the flow of the response. -/
def rspQueue (q : QueueId) : Option QueueId :=
  if q.cls ≠ .req then none
  else match q.row with
    | 1 => some ⟨2, .rsp, q.inst⟩
    | 4 => some ⟨4, .rsp, q.inst⟩
    | 6 => some ⟨6, .rsp, 8 * (q.inst % 8) + q.inst / 8⟩
    | 8 => some ⟨8, .rsp, 8 * (q.inst % 8) + q.inst / 8⟩
    | _ => none

/-- The RSP receive queue of a flow's requester. -/
def flowRsp (u : Flit) : QueueId := ⟨if tileHalf u.src = tileHalf u.dst then 6 else 8, .rsp, 8 * u.dst + u.src⟩

/-- Units of an RSP receive queue (R22). -/
def rspDepth (q : QueueId) : Nat :=
  match q.row with
  | 2 => 256
  | 4 => 128
  | 6 => 512
  | _ => 384

def rspCount (f : Fab) (q : QueueId) : Nat := (f.rsp.filter fun x => x = q).length

/-- Give back one reserved place. -/
def rspFree (f : Fab) (q : QueueId) : Fab := { f with rsp := f.rsp.erase q }

/-- The host tile of a transfer of owning tile o with the host port p (R31): o itself, or the far end of the segment that reaches it; none: no segment is up. -/
def hostTile (d : Dev) (p : Side) (o : Nat) : Option Nat :=
  if linkOf (.host p) (.tile o) = some .host then some o
  else (segmentFor d.fab o ((o + 4) % 8)).map (segEnd p)

/-- The tile that reads host memory: the leg's, or the queue pair's (R31). -/
def hostOwner (d : Dev) (u : HostUse) : Nat :=
  match u with
  | .leg x l => (((d.q.xfers.get? x).bind fun t => t.legs[l]?).map (·.tile)).getD 0
  | .message n _ => qpTile n

/-- The RSP receive queue of tile o for what comes from port p: its switch input for the host link, or that of the flow from its host tile (R21, R31). -/
def hostRsp (d : Dev) (p : Side) (o : Nat) : QueueId :=
  match hostTile d p o with
  | none => switchIn .rsp o inHost
  | some h => if h = o then switchIn .rsp o inHost else flowRsp ⟨.req, o, h⟩

/-- Legs of a stack that hold contexts, whose results have their places (R24). -/
def legsOut (d : Dev) (p : Nat → Nat → Bool) : Nat :=
  d.eng.ops.foldl (fun n (_, o) => n + (o.legs.filter fun l => p o.tile l.stack && (l.stage = .loading || l.stage = .running)).length) 0

/-- Places reserved in a queue by what the model carries as state of its own: legs that hold contexts (R24), accesses held at the base die, and requests that are out at a host port. -/
def rspBusy (d : Dev) (q : QueueId) : Nat :=
  if q.row = 2 then
    let s := d.stack q.inst
    legsOut d (fun _ k => k = q.inst) + s.held.length + (s.moves.foldl (fun n m => n + m.hold.length) 0)
  else
    (if q.row = 4 then 0 else legsOut d fun t k => t ≠ stackTile k && flowRsp ⟨.req, t, stackTile k⟩ = q)
      + (d.q.hostReqs.filter fun (_, r) => r.sent && hostRsp d r.port (hostOwner d r.use) = q).length
      + (d.xlt.ats.filter fun (_, r) => r.sent && hostRsp d r.port r.who.tile = q).length

/-- A requester finds room for one more response (R21). -/
def rspRoom (d : Dev) (q : QueueId) : Bool := rspCount d.fab q + rspBusy d q < rspDepth q

-- Sending between tiles

/-- A unit that waits at its source leaves: no earlier one of its flow waits, its path is up, no unit of its flow is out off that path, its first queue has a credit, and a request finds room for its response (R17, R18, R21). -/
def flowSend1 (t : Nat) (f : Fab) (w : WaitingFlit) : Fab :=
  let stay : Fab := { f with waiting := f.waiting ++ [w] }
  if f.waiting.any fun x => x.flit = w.flit then stay
  else match route f w.flit with
    | none => stay
    | some [] => f
    | some (q :: path) =>
      let r := flowRsp w.flit
      if strayUnit f w.flit (q :: path) || !hasCredit f q || (w.flit.cls = .req && rspDepth r ≤ rspCount f r) then stay
      else
        let f := setQueue f (pushUnit t (aim f w.flit) (queueAt f q))
        if w.flit.cls = .req then { f with rsp := f.rsp ++ [r] } else f

/-- Every waiting unit that can leave does; the device gives no order between source blocks (R17). -/
def flowsSend (t : Nat) (f : Fab) : Fab := f.waiting.foldl (flowSend1 t) { f with waiting := [] }

/-- A bridge segment goes down (R15). -/
def segmentDown (n : Nat) (d : Dev) : Dev :=
  if n < 4 && nth d.fab.segUp n false then
    logIt 0x0203 8 n [] (d := d.onFab fun f => flowsSend (now d) { f with segUp := f.segUp.set n false })
  else d

-- Half reset (R28, R29)

/-- The unit a stall record is about: UNIT_KIND and UNIT of R560. -/
def queueUnit (q : QueueId) : Nat × Nat :=
  match q.row with
  | 1 => (1, q.inst)
  | 2 => (1, q.inst)
  | 3 => (1, q.inst / 2)
  | 4 => (2, q.inst / 16)
  | 5 => (2, q.inst / 16)
  | 6 => (2, q.inst / 8)
  | 7 => (2, q.inst / 8)
  | 8 => (8, q.inst / 2)
  | 9 => (8, q.inst / 2)
  | 12 => (1, q.inst)
  | 13 => (2, cqTile q.inst)
  | _ => (2, q.inst)

/-- Both ends of the queue lie in the half; a bridge segment has one in each. -/
def queueIn (h : Side) (q : QueueId) : Bool :=
  !isBridge q && (match queueUnit q with
    | (1, k) => stackHalf k = h
    | (_, t) => tileHalf t = h)

/-- Every queue of the bridge, with its classes: 2 directions of 4 segments. -/
def bridgeQueues : List QueueId :=
  (List.range 8).flatMap fun i => [⟨8, .req, i⟩, ⟨8, .rsp, i⟩, ⟨8, .col, i⟩, ⟨9, .mgt, i⟩]

/-- A flow has an end in the half. -/
def flowIn (h : Side) (u : Flit) : Bool := tileHalf u.src = h || tileHalf u.dst = h

/-- A reserved RSP place belongs to a queue or a flow with an end in the half. -/
def rspIn (h : Side) (q : QueueId) : Bool :=
  if q.row = 2 then stackHalf q.inst = h
  else if q.row = 4 then tileHalf (q.inst / 16) = h
  else flowIn h ⟨.rsp, q.inst / 8, q.inst % 8⟩

/-- A half is reset. Its own queues, with both ends in it, are at rest again. The other end of each bridge queue discards the units it holds for the reset end, and sends nothing until that end is ready (R28); credits on their way are ignored (R29). -/
def flushQueues (h : Side) (f : Fab) : Fab :=
  { f with
    queues := (f.queues.filter fun c => !queueIn h c.id && !isBridge c.id) ++ bridgeQueues.map fun q => { id := q, resetting := true }
    waiting := f.waiting.filter fun w => !flowIn h w.flit
    crossings := f.crossings.filter fun c => !flowIn h c.flow
    rsp := f.rsp.filter fun q => !rspIn h q }

/-- A tile is lost: what waits to leave or reach it is gone with it. -/
def flushTile (t : Nat) (f : Fab) : Fab :=
  let mine (u : Flit) : Bool := u.src = t || u.dst = t
  { f with
    queues := f.queues.map fun c => { c with units := c.units.filter fun u => !(u.flow.src ≠ u.flow.dst && mine u.flow) }
    waiting := f.waiting.filter fun w => !mine w.flit
    crossings := f.crossings.filter fun c => !mine c.flow }

-- Rows that move units of their own

/-- The queues that a unit of a flow passes from the input port of its source tile's switch at which it enters (R12, R14 to R16, R22). -/
def pathOf (f : Fab) (u : Flit) (entry : Nat) : Option (List QueueId) := (route f u).map fun l => switchIn u.cls u.src entry :: l

/-- A row's unit of a flow can cross the package now: its path is up with a credit on every queue, nothing of its flow waits before it or is out off its path (R12, R17, R18). A row takes its credits and gives them back within itself (log 52). -/
def flowOpen (f : Fab) (u : Flit) (entry : Nat := inOwn) : Bool :=
  match pathOf f u entry with
  | none => false
  | some path => path.all (hasCredit f) && !(f.waiting.any fun w => w.flit = u)
      && !(f.crossings.any fun c => c.flow = u && c.entry = entry && c.base.isNone) && !strayUnit f u path

/-- A unit of a class of a tile's own blocks can go from tile a to tile b. -/
def tileOpen (d : Dev) (cls : QClass) (a b : Nat) : Bool := flowOpen d.fab ⟨cls, a, b⟩

/-- A unit of a class can go from stack k to tile t: by the switch input of its stack link. -/
def fromStack (d : Dev) (cls : QClass) (k t : Nat) : Bool := flowOpen d.fab ⟨cls, stackTile k, t⟩ (k % 4)

/-- A requester of tile t has a place in its own RSP receive queue for what stack k answers (R21): that of the stack link for a stack of its own, and that of the link from the stack's tile for another. -/
def ownRoom (d : Dev) (t k : Nat) : Bool :=
  rspRoom d ⟨2, .rsp, k⟩ && (t = stackTile k || rspRoom d (flowRsp ⟨.req, t, stackTile k⟩))

/-- A response of stack k can go to tile t. -/
def stackAnswers (d : Dev) (k t : Nat) : Bool := hasCredit d.fab ⟨2, .rsp, k⟩ && fromStack d .rsp k t

/-- A request of tile t can reach stack k and its response has a place and a way back (R12, R18, R21). -/
def stackOpen (d : Dev) (t k : Nat) : Bool :=
  tileOpen d .req t (stackTile k) && hasCredit d.fab ⟨1, .req, k⟩ && ownRoom d t k && stackAnswers d k t

/-- A rope's access to stack k from its tile t: between tiles it goes and returns in the COL class alone; the stack link has no COL class, and there it takes the classes that the link has (R22, R37). -/
def stackOpenCol (d : Dev) (t k : Nat) : Bool :=
  tileOpen d .col t (stackTile k) && hasCredit d.fab ⟨1, .req, k⟩ && rspRoom d ⟨2, .rsp, k⟩ && hasCredit d.fab ⟨2, .rsp, k⟩
    && fromStack d .col k t

/-- The queues that join the management network to the base die of stack k, both ways: its tile's switch, then the MGT class of its stack link (R13, R20). -/
def mgtQueues (k : Nat) : List QueueId :=
  [switchIn .mgt (stackTile k) inMgt, ⟨3, .mgt, 2 * k⟩, ⟨3, .mgt, 2 * k + 1⟩, switchIn .mgt (stackTile k) (k % 4)]

def mgtOpen (d : Dev) (k : Nat) : Bool := (mgtQueues k).all (hasCredit d.fab)

/-- Something for the base die of stack k goes by the MGT class, in the order of arrival, or waits for it (R5, R13, R20, R41). -/
def toBase (k : Nat) (what : Arrived) (f : Dev → Dev) (d : Dev) : Dev :=
  if mgtOpen d k && !(d.fab.crossings.any fun c => c.base = some k) then f d
  else d.onFab fun x => { x with crossings := x.crossings ++ [⟨⟨.mgt, stackTile k, stackTile k⟩, inMgt, some k, what⟩] }

/-- The first queue without a credit on the way of what waits to cross (R27). -/
def blockedOn (f : Fab) (c : Crossing) : Option QueueId :=
  match c.base with
  | some k => (mgtQueues k).find? fun q => !hasCredit f q
  | none => (pathOf f c.flow c.entry).bind fun l => l.find? fun q => !hasCredit f q

/-- Data of a class between the owning tile and its host tile can cross: towards the host, or from it. -/
def hostOpen (d : Dev) (p : Side) (o : Nat) (cls : QClass) (out : Bool) : Bool :=
  match hostTile d p o with
  | none => false
  | some h => if out then tileOpen d cls o h else flowOpen d.fab ⟨cls, h, o⟩ inHost

/-- A request of tile o can go out through port p, and its data or its acknowledgement have a place and a way back (R21, R31, R387). -/
def hostReady (d : Dev) (p : Side) (o : Nat) : Bool :=
  canIssue d p && hostOpen d p o .req true && rspRoom d (hostRsp d p o) && hostOpen d p o .rsp false

/-- A read leaves its port, in requests of the size the host allows (R381). -/
def sendRead (p : Side) (pasid : Option Nat) (addr len tag : Nat) (d : Dev) : Dev :=
  let c := (d.host.get p).config
  emit (.hostRead p pasid addr len tag c.maxReadRequest c.tagBits) (count 0x030D p.idx none len d)

/-- A request for host memory, split phase (R386): its tag, for HOST_COMPLETION. While it is out it holds a place for its response; it waits while its port cannot issue, its host tile cannot be reached or no place is free (R21, R387). -/
def hostRead (p : Side) (pasid : Option Nat) (addr len : Nat) (use : HostUse) (d : Dev) : Nat × Dev :=
  let tag := d.q.nextTag
  let go := hostReady d p (hostOwner d use)
  let d := d.onQ fun q => { q with nextTag := tag + 1, hostReqs := q.hostReqs.set tag ⟨p, addr, len, use, pasid, go, now d⟩ }
  (tag, if go then sendRead p pasid addr len tag d else heldNote p (.read tag) d)

/-- The tile by whose host link port p forwards a doorbell for owning tile o (R30 step 1): o itself, or the tile of the port's half whose segment reaches it. -/
def bellStart (p : Side) (o : Nat) : Nat := if linkOf (.host p) (.tile o) = some .host then o else segEnd p (o % 4)

/-- The flow of a doorbell that port p forwards to owning tile o. -/
def bellFlow (p : Side) (o : Nat) : Flit := ⟨.mgt, bellStart p o, o⟩

/-- What arrives at an input port of a tile's switch crosses the package on its flow, or waits for it in order (R17, R18, R30, R34). -/
def crossOr (u : Flit) (what : Arrived) (f : Dev → Dev) (d : Dev) (entry : Nat := inOwn) : Dev :=
  if flowOpen d.fab u entry then f d
  else d.onFab fun x => { x with crossings := x.crossings ++ [⟨u, entry, none, what⟩] }

-- The leadership epoch (R13, R20, R39)

/-- The epoch of Hasp 0 is broadcast: every unit that answers learns it, and each base die by the MGT class of its stack link. -/
def epochCast (d : Dev) : Dev :=
  let e := leadEpoch d
  let d := d.onFab fun f => { f with tileEpoch := (List.range 10).map fun u => if unitUp d u then e else nth f.tileEpoch u 0#32 }
  (List.range 32).foldl (fun d k =>
    if tileUp d (stackTile k) then toBase k (.epoch k e) (fun d => d.onFab fun f => { f with baseEpoch := f.baseEpoch.set k e }) d else d) d

end Sys2Proof.Machine
end

