-- ==== Sys2Proof/Machine/Flags.lean ====
section
/-! DEFINITION. The arithmetic of the engine and every numerical flag it sets (R71, R73 to R81, R89, R100, R101): formats, exact values, roundings, FP32 arithmetic. -/

namespace Sys2Proof.Machine

/-- Flags of either of two computations. -/
def NumFlags.or (a b : NumFlags) : NumFlags :=
  ⟨a.saturated || b.saturated, a.nanSeen || b.nanSeen, a.infProduced || b.infProduced,
    a.outSaturated || b.outSaturated, a.kShort || b.kShort, a.empty || b.empty⟩

/-- NUM_FLAGS of the result header (R89). -/
def NumFlags.byte (f : NumFlags) : Nat :=
  b2n f.saturated + 2 * b2n f.nanSeen + 4 * b2n f.infProduced + 8 * b2n f.outSaturated + 16 * b2n f.kShort + 32 * b2n f.empty

def sawNan : NumFlags := { nanSeen := true }

-- Formats (R73 to R76)

/-- Number formats by their code. -/
inductive Fmt where
  | int4
  | int8
  | e4m3
  | e5m2
  | bf16
  | fp16
  | fp32
  | mxfp4
  | mxint8
  | int32
  deriving DecidableEq, Repr

def Fmt.ofCode (n : Nat) : Option Fmt :=
  match n with
  | 0 => some .int4
  | 1 => some .int8
  | 2 => some .e4m3
  | 3 => some .e5m2
  | 4 => some .bf16
  | 5 => some .fp16
  | 6 => some .fp32
  | 7 => some .mxfp4
  | 8 => some .mxint8
  | 9 => some .int32
  | _ => none

/-- Bits of one element. -/
def Fmt.bits : Fmt → Nat
  | .int4 => 4
  | .int8 => 8
  | .e4m3 => 8
  | .e5m2 => 8
  | .bf16 => 16
  | .fp16 => 16
  | .fp32 => 32
  | .mxfp4 => 4
  | .mxint8 => 8
  | .int32 => 32

def Fmt.isInt : Fmt → Bool
  | .int4 => true
  | .int8 => true
  | .int32 => true
  | _ => false

def Fmt.isMx : Fmt → Bool
  | .mxfp4 => true
  | .mxint8 => true
  | _ => false

/-- Bytes of a row of n elements (R75, R85). -/
def footprint (n : Nat) (f : Fmt) : Nat :=
  let e := ceilDiv (n * f.bits) 8
  if f.isMx then ceilDiv (e + n / 32) 32 * 32 else ceilDiv e 32 * 32

-- Exact values

/-- A value: NaN, an infinity, or sign, magnitude m and exponent e for m times 2 to the e. -/
inductive Val where
  | nan
  | inf (neg : Bool)
  | fin (neg : Bool) (m : Nat) (e : Int)
  deriving DecidableEq, Repr

/-- Stored mantissa bits, exponent bits and bias of a float format; whether its top exponent holds infinities. -/
structure FloatFmt where
  mb : Nat
  eb : Nat
  bias : Nat
  inf : Bool
  deriving DecidableEq, Repr

def ff4m3 : FloatFmt := ⟨3, 4, 7, false⟩
def ff5m2 : FloatFmt := ⟨2, 5, 15, true⟩
def ffBf16 : FloatFmt := ⟨7, 8, 127, true⟩
def ffFp16 : FloatFmt := ⟨10, 5, 15, true⟩
def ffFp32 : FloatFmt := ⟨23, 8, 127, true⟩
def ff2m1 : FloatFmt := ⟨1, 2, 1, false⟩

/-- Decode an encoding of a float format; E2M1 has no NaN, E4M3 one for each sign. -/
def FloatFmt.decode (f : FloatFmt) (x : Nat) : Val :=
  let man := x % 2 ^ f.mb
  let ex := x / 2 ^ f.mb % 2 ^ f.eb
  let neg := x / 2 ^ (f.mb + f.eb) % 2 = 1
  let top := ex = 2 ^ f.eb - 1
  if f.inf && top then (if man = 0 then .inf neg else .nan)
  else if f.mb = 3 && top && man = 7 then .nan
  else if ex = 0 then .fin neg man (1 - (f.bias : Int) - f.mb)
  else .fin neg (man + 2 ^ f.mb) ((ex : Int) - f.bias - f.mb)

/-- The largest finite value: significand and exponent of its last place. -/
def FloatFmt.maxFin (f : FloatFmt) : Nat × Int :=
  if f.inf then (2 ^ (f.mb + 1) - 1, (f.bias : Int) - f.mb)
  else if f.mb = 3 then (14, 5)
  else (3, 1)

/-- The encoding of a significand n at exponent q of the last place. -/
def FloatFmt.pack (f : FloatFmt) (neg : Bool) (n : Nat) (q : Int) : Nat :=
  let s := b2n neg * 2 ^ (f.mb + f.eb)
  if n < 2 ^ f.mb then s + n else s + (q + f.mb + f.bias).toNat * 2 ^ f.mb + (n - 2 ^ f.mb)

def FloatFmt.packInf (f : FloatFmt) (neg : Bool) : Nat := b2n neg * 2 ^ (f.mb + f.eb) + (2 ^ f.eb - 1) * 2 ^ f.mb
def FloatFmt.packMax (f : FloatFmt) (neg : Bool) : Nat := f.pack neg f.maxFin.1 f.maxFin.2

/-- Rounding: to nearest with ties to even, or towards zero (R86). -/
inductive Rnd where
  | near
  | zero
  deriving DecidableEq, Repr

/-- m times 2 to the s as a natural number, rounded. -/
def roundSh (r : Rnd) (m : Nat) (s : Int) : Nat :=
  if 0 ≤ s then m * 2 ^ s.toNat
  else
    let k := (-s).toNat
    let q := m / 2 ^ k
    match r with
    | .zero => q
    | .near =>
      let rem := m % 2 ^ k
      if 2 * rem > 2 ^ k || (2 * rem = 2 ^ k && q % 2 = 1) then q + 1 else q

/-- m times 2 to the e is greater than n times 2 to the q. -/
def magGt (m : Nat) (e : Int) (n : Nat) (q : Int) : Bool :=
  if q ≤ e then n < m * 2 ^ (e - q).toNat else n * 2 ^ (q - e).toNat < m

/-- A magnitude rounded to a float format: significand and exponent of its last place. -/
def FloatFmt.round (f : FloatFmt) (r : Rnd) (m : Nat) (e : Int) : Nat × Int :=
  let q := max ((Nat.log2 m : Int) + e) (1 - (f.bias : Int)) - f.mb
  let n := roundSh r m (e - q)
  if n = 2 ^ (f.mb + 1) then (n / 2, q + 1) else (n, q)

-- FP32 (R78, R79)

def f32Nan : BitVec 32 := 0x7FC00000#32
def f32Val (x : BitVec 32) : Val := ffFp32.decode x.toNat
def f32Zero (neg : Bool) : BitVec 32 := if neg then 0x80000000#32 else 0#32
def f32NegInf : BitVec 32 := 0xFF800000#32

/-- A value rounded to FP32, nearest, ties to even: overflow gives the infinity and INF_PRODUCED, or under SAT the largest finite and SATURATED (R79). -/
def toF32 (sat : Bool) (v : Val) : BitVec 32 × NumFlags :=
  match v with
  | .nan => (f32Nan, sawNan)
  | .inf s => (BitVec.ofNat 32 (ffFp32.packInf s), {})
  | .fin s m e =>
    if m = 0 then (f32Zero s, {})
    else
      let (n, q) := ffFp32.round .near m e
      if magGt n q ffFp32.maxFin.1 ffFp32.maxFin.2 then
        if sat then (BitVec.ofNat 32 (ffFp32.packMax s), { saturated := true })
        else (BitVec.ofNat 32 (ffFp32.packInf s), { infProduced := true })
      else (BitVec.ofNat 32 (ffFp32.pack s n q), {})

/-- A signed integer times 2 to the e; zero is +0. -/
def valOf (i : Int) (e : Int) : Val := .fin (decide (i < 0)) i.natAbs e

def signed (neg : Bool) (m : Nat) : Int := if neg then -(m : Int) else m

/-- The exact sum of two finite values; zero sums take the sign that IEEE 754 gives them. -/
def addFin (s : Bool) (m : Nat) (e : Int) (t : Bool) (n : Nat) (f : Int) : Val :=
  let b := min e f
  let i := signed s (m * 2 ^ (e - b).toNat) + signed t (n * 2 ^ (f - b).toNat)
  if i = 0 then .fin (s && t && m = 0 && n = 0) 0 b else valOf i b

def addVal : Val → Val → Val
  | .nan, _ => .nan
  | _, .nan => .nan
  | .inf s, .inf t => if s = t then .inf s else .nan
  | .inf s, _ => .inf s
  | _, .inf t => .inf t
  | .fin s m e, .fin t n f => addFin s m e t n f

def negVal : Val → Val
  | .nan => .nan
  | .inf s => .inf !s
  | .fin s m e => .fin (!s) m e

def mulVal : Val → Val → Val
  | .nan, _ => .nan
  | _, .nan => .nan
  | .inf s, .inf t => .inf (s ≠ t)
  | .inf s, .fin t n _ => if n = 0 then .nan else .inf (s ≠ t)
  | .fin s m _, .inf t => if m = 0 then .nan else .inf (s ≠ t)
  | .fin s m e, .fin t n f => .fin (s ≠ t) (m * n) (e + f)

/-- A quotient with enough bits, and a last bit that says whether anything is left, for one exact rounding. -/
def divVal : Val → Val → Val
  | .nan, _ => .nan
  | _, .nan => .nan
  | .inf _, .inf _ => .nan
  | .inf s, .fin t _ _ => .inf (s ≠ t)
  | .fin s _ _, .inf t => .fin (s ≠ t) 0 0
  | .fin s m e, .fin t n f =>
    if n = 0 then (if m = 0 then .nan else .inf (s ≠ t))
    else
      let k := Nat.log2 n + 64
      let q := m * 2 ^ k / n
      .fin (s ≠ t) (2 * q + b2n (m * 2 ^ k % n ≠ 0)) (e - f - k - 1)

def fadd (sat : Bool) (a b : BitVec 32) : BitVec 32 × NumFlags := toF32 sat (addVal (f32Val a) (f32Val b))
def fmul (sat : Bool) (a b : BitVec 32) : BitVec 32 × NumFlags := toF32 sat (mulVal (f32Val a) (f32Val b))
def fdiv (sat : Bool) (a b : BitVec 32) : BitVec 32 × NumFlags := toF32 sat (divVal (f32Val a) (f32Val b))
def fsub (sat : Bool) (a b : BitVec 32) : BitVec 32 × NumFlags := toF32 sat (addVal (f32Val a) (negVal (f32Val b)))

/-- Sum in order, each addition rounded. -/
def fsum (sat : Bool) : List (BitVec 32) → BitVec 32 → NumFlags → BitVec 32 × NumFlags
  | [], a, f => (a, f)
  | x :: r, a, f => let (s, g) := fadd sat a x; fsum sat r s (f.or g)

def isNan (x : BitVec 32) : Bool := f32Val x = .nan

/-- The rank of a number that is not NaN: both zeros rank equal. -/
def f32Key (x : BitVec 32) : Int := if x.msb then -((x.toNat % 2 ^ 31 : Nat) : Int) else (x.toNat : Int)

/-- Fraction bits of the fixed-point values that exp and ln are placed by. -/
def expBits : Nat := 128

/-- ln 2 with `expBits` fraction bits. -/
def ln2Fix : Int := 235865763225513294137944142764154484399

/-- m times 2 to the e with `expBits` fraction bits, towards minus infinity. -/
def toFix (i : Int) (e : Int) : Int :=
  let s := e + expBits
  if 0 ≤ s then i * 2 ^ s.toNat else i / 2 ^ (-s).toNat

def mulFix (a b : Int) : Int := a * b / 2 ^ expBits

/-- The series of exp from term k on, n terms. -/
def expSeries (r : Int) : Nat → Nat → Int → Int
  | 0, _, _ => 0
  | n + 1, k, t => t + expSeries r n (k + 1) (mulFix t r / (k + 1))

/-- The series of the inverse hyperbolic tangent: odd powers t of z over 2k + 1, n terms. -/
def atanhSeries (zz : Int) : Nat → Nat → Int → Int
  | 0, _, _ => 0
  | n + 1, k, t => t / (2 * k + 1) + atanhSeries zz n (k + 1) (mulFix t zz)

/-- exp of a finite operand, to more places than FP32 has. -/
def expFix (i : Int) (e : Int) : Val :=
  let x := toFix i e
  let k := x / ln2Fix
  valOf (expSeries (x - k * ln2Fix) 48 0 (2 ^ expBits)) (k - expBits)

/-- ln of a positive operand, to more places than FP32 has. -/
def lnFix (m : Nat) (e : Int) : Val :=
  let p := Nat.log2 m
  let f := toFix m (-(p : Int))
  let z := (f - 2 ^ expBits) * 2 ^ expBits / (f + 2 ^ expBits)
  valOf ((p + e) * ln2Fix + 2 * atanhSeries (mulFix z z) 48 0 z) (-(expBits : Int))

/-- The number of an FP32 value in rising order, of the largest one at most v. -/
def floorKey (v : Val) : Int :=
  match v with
  | .fin s m e =>
    let (n, q) := ffFp32.round .zero m e
    let k : Int := ffFp32.pack false n q
    if s then -(k + 1) else k
  | _ => 0

/-- The FP32 value with number k; the largest finite one bounds it on either side. -/
def ofKey (k : Int) : BitVec 32 :=
  if k < 0 then BitVec.ofNat 32 (0x80000000 + min k.natAbs 0x7F7FFFFF) else BitVec.ofNat 32 (min k.natAbs 0x7F7FFFFF)

/-- An FP32 value within 2 units in the last place of v: which, n says (R79; log 7). -/
def withinUlps (v : Val) (n : Nat) : BitVec 32 := ofKey (floorKey v - 1 + n % 4)

/-- The same around a value that FP32 holds exactly. -/
def aroundKey (k : Int) (n : Nat) : BitVec 32 := ofKey (k - 2 + n % 5)

/-- exp of R79: a value within the bound it states; exp of minus infinity is 0 (R101). -/
def fexp (x : BitVec 32) : BitVec 32 × NumFlags :=
  match f32Val x with
  | .nan => (f32Nan, sawNan)
  | .inf true => (0#32, {})
  | .inf false => (x, {})
  | .fin s m e =>
    let n := Config.ulpOffset 0 x
    if m = 0 then (aroundKey 0x3F800000 n, {})
    else if magGt m e 128 0 then (if s then withinUlps (.fin false 0 0) n else Config.expF32 x, {})
    else
      let v := expFix (signed s m) e
      match v with
      | .fin _ p q => if magGt p q ffFp32.maxFin.1 ffFp32.maxFin.2 then (Config.expF32 x, {}) else (withinUlps v n, {})
      | _ => (Config.expF32 x, {})

/-- ln of R79: a value within the bound it states where the operand has a logarithm. -/
def fln (x : BitVec 32) : BitVec 32 × NumFlags :=
  match f32Val x with
  | .nan => (f32Nan, sawNan)
  | .inf _ => (Config.lnF32 x, {})
  | .fin s m e =>
    if s || m = 0 then (Config.lnF32 x, {})
    else if x = 0x3F800000#32 then (aroundKey 0 (Config.ulpOffset 1 x), {})
    else (withinUlps (lnFix m e) (Config.ulpOffset 1 x), {})

-- Integers (R77)

/-- Saturation to INT32. -/
def satI32 (i : Int) : Int × NumFlags :=
  if i < -2147483648 then (-2147483648, { saturated := true })
  else if 2147483647 < i then (2147483647, { saturated := true })
  else (i, {})

def i32Bits (i : Int) : Nat := (i % 4294967296).toNat

-- Elements of a row

/-- Two's complement of w bits. -/
def sext (w x : Nat) : Int := if x < 2 ^ (w - 1) then x else (x : Int) - 2 ^ w

/-- Element i of a row as its bits (R74, R75). -/
def elemBits (f : Fmt) (row : Bytes) (i : Nat) : Nat :=
  if f.bits = 4 then u8 row (i / 2) / (if i % 2 = 0 then 1 else 16) % 16
  else leN (slice row (i * (f.bits / 8)) (f.bits / 8))

/-- The scale byte of the block of element i (R75). -/
def scaleByte (f : Fmt) (n : Nat) (row : Bytes) (i : Nat) : Nat := u8 row (n * f.bits / 8 + i / 32)

/-- The value of an element without its block scale (R74). -/
def elemVal (f : Fmt) (x : Nat) : Val :=
  match f with
  | .int4 => valOf (sext 4 x) 0
  | .int8 => valOf (sext 8 x) 0
  | .int32 => valOf (sext 32 x) 0
  | .e4m3 => ff4m3.decode x
  | .e5m2 => ff5m2.decode x
  | .bf16 => ffBf16.decode x
  | .fp16 => ffFp16.decode x
  | .fp32 => ffFp32.decode x
  | .mxfp4 => ff2m1.decode x
  | .mxint8 => valOf (sext 8 x) (-6)

/-- A value times 2 to the k. -/
def scaleVal (v : Val) (k : Int) : Val :=
  match v with
  | .fin s m e => .fin s m (e + k)
  | v => v

/-- The scale of element i as an exponent: none when it is NaN. -/
def scaleExp (f : Fmt) (n : Nat) (row : Bytes) (i : Nat) : Option Int :=
  if f.isMx then (let x := scaleByte f n row i; if x = 0xFF then none else some ((x : Int) - 127)) else some 0

/-- Element i of a row of n, exactly, its block scale included. -/
def rowVal (f : Fmt) (n : Nat) (row : Bytes) (i : Nat) : Val :=
  match scaleExp f n row i with
  | some k => scaleVal (elemVal f (elemBits f row i)) k
  | none => .nan

/-- Element i of an integer row. -/
def rowInt (f : Fmt) (row : Bytes) (i : Nat) : Int := sext f.bits (elemBits f row i)

/-- Element i of a row rounded to FP32 (R126, R148, R151). -/
def rowF32 (sat : Bool) (f : Fmt) (n : Nat) (row : Bytes) (i : Nat) : BitVec 32 × NumFlags := toF32 sat (rowVal f n row i)

-- Sums of products (R78)

/-- What a list of exact products comes to before its sum. -/
inductive Sum where
  | nan
  | inf (neg : Bool)
  | fin (l : List (Int × Int))

def pushProd (v : Val) : Sum → Sum
  | .nan => .nan
  | .inf s => match v with
    | .nan => .nan
    | .inf t => if s = t then .inf s else .nan
    | .fin _ _ _ => .inf s
  | .fin l => match v with
    | .nan => .nan
    | .inf t => .inf t
    | .fin s m e => if m = 0 then .fin l else .fin ((signed s m, e) :: l)

/-- Step 2 of R78: products aligned to the largest exponent, truncated 60 bits below it towards minus infinity, summed, rounded once (log 38). -/
def pieceSum (sat : Bool) (prods : List Val) : BitVec 32 × NumFlags :=
  match prods.foldl (fun a v => pushProd v a) (.fin []) with
  | .nan => (f32Nan, sawNan)
  | .inf s => (BitVec.ofNat 32 (ffFp32.packInf s), {})
  | .fin [] => (0#32, {})
  | .fin (x :: r) =>
    let top (p : Int × Int) : Int := (Nat.log2 p.1.natAbs : Int) + p.2
    let hi := r.foldl (fun a p => max a (top p)) (top x)
    let b := hi - 60
    let place (p : Int × Int) : Int := if b ≤ p.2 then p.1 * 2 ^ (p.2 - b).toNat else p.1 / 2 ^ (b - p.2).toNat
    toF32 sat (valOf (((x :: r).map place).sum) b)

/-- The exact sum of the products of one block, as one product. -/
def blockProd (vs : List Val) (k : Int) : Val :=
  match vs with
  | [] => .fin false 0 0
  | v :: r => scaleVal (r.foldl addVal v) k

/-- One product of element i: of a row and an operand row, or the square of their difference. -/
def elemProd (l2 : Bool) (f g : Fmt) (n : Nat) (x q : Bytes) (i : Nat) : Val :=
  if l2 then
    let t := addVal (rowVal f n x i) (negVal (rowVal g n q i))
    mulVal t t
  else mulVal (elemVal f (elemBits f x i)) (elemVal g (elemBits g q i))

/-- Products of the elements from lo up to hi: one for each element, or one for each block of 32 when either row has scales (step 1 of R78, log 39). -/
def prodsOf (l2 : Bool) (f g : Fmt) (n : Nat) (x q : Bytes) (lo hi : Nat) : List Val :=
  if f.isMx || g.isMx then
    (List.range (ceilDiv hi 32 - lo / 32)).map fun j =>
      let b := lo / 32 + j
      let a := max lo (32 * b)
      match scaleExp f n x (32 * b), scaleExp g n q (32 * b) with
      | some k, some m => blockProd ((List.range (min hi (32 * b + 32) - a)).map fun i => elemProd l2 f g n x q (a + i)) (k + m)
      | _, _ => .nan
  else (List.range (hi - lo)).map fun i => elemProd l2 f g n x q (lo + i)

/-- The first element of each row piece: at places where a granule of 256 B begins, for a row that starts o bytes into one (R78; log 39). -/
def pieceBounds (f : Fmt) (n o : Nat) : List Nat :=
  let last := ceilDiv (o + ceilDiv (n * f.bits) 8) 256
  (List.range (last + 1)).map fun j => min n ((256 * j - o) * 8 / f.bits)

/-- The float row result (R78): pieces in order, each addition rounded. -/
def rowScoreF (sat l2 : Bool) (f g : Fmt) (n o : Nat) (x q : Bytes) : BitVec 32 × NumFlags :=
  let bs := pieceBounds f n o
  let parts := ((bs.zip bs.tail).filter fun (a, b) => a < b).map fun (a, b) => pieceSum sat (prodsOf l2 f g n x q a b)
  let fl := parts.foldl (fun a p => a.or p.2) {}
  if parts.any fun p => isNan p.1 then (f32Nan, fl.or sawNan)
  else match parts.map Prod.fst with
    | [] => (0#32, fl)
    | p :: r => fsum sat r p fl

/-- The integer row result (R77), exact. -/
def rowScoreI (l2 : Bool) (f g : Fmt) (n : Nat) (x q : Bytes) : Int :=
  ((List.range n).map fun i =>
    let a := rowInt f x i
    let b := rowInt g q i
    if l2 then (a - b) * (a - b) else a * b).sum

/-- A score of either family; an integer score is saturated when it is formed (R119). -/
def rowScore (sat l2 : Bool) (f g : Fmt) (n o : Nat) (x q : Bytes) : Num × NumFlags :=
  if f.isInt then let (i, fl) := satI32 (rowScoreI l2 f g n x q); (.i i, fl)
  else let (v, fl) := rowScoreF sat l2 f g n o x q; (.f v, fl)

-- Order of selection (R100)

/-- A score ranks strictly before another: smaller first with dist; NaN last. -/
def scoreBefore (dist : Bool) : Num → Num → Bool
  | .i a, .i b => if dist then a < b else b < a
  | .f a, .f b =>
    if isNan a then false else if isNan b then true
    else if dist then f32Key a < f32Key b else f32Key b < f32Key a
  | _, _ => false

/-- Rank of entries: by score, then identifier. -/
def entryBefore (dist : Bool) (a b : Entry) : Bool :=
  scoreBefore dist a.score b.score || (!scoreBefore dist b.score a.score && a.id < b.id)

def insEntry (dist : Bool) : List Entry → Entry → List Entry
  | [], x => [x]
  | y :: r, x => if entryBefore dist x y then x :: y :: r else y :: insEntry dist r x

/-- The k best of a list of entries. -/
def topK (dist : Bool) (k : Nat) (l : List Entry) : List Entry := (l.foldl (insEntry dist) []).take k

def numBits : Num → Nat
  | .f x => x.toNat
  | .i n => i32Bits n

def numIsNan : Num → Bool
  | .f x => isNan x
  | .i _ => false

-- Conversion to OUT_FMT (R80, R81)

def outSat : NumFlags := { outSaturated := true }

/-- To a float format. -/
def toFloat (f : FloatFmt) (r : Rnd) (sat : Bool) (v : Val) : Nat × NumFlags :=
  match v with
  | .nan => (if f.inf then (2 ^ (f.eb + 1) - 1) * 2 ^ (f.mb - 1) else 0x7F, sawNan)
  | .inf s => if f.inf then (f.packInf s, {}) else (f.packMax s, outSat)
  | .fin s m e =>
    if m = 0 then (f.pack s 0 0, {})
    else
      let (n, q) := f.round r m e
      let (mn, mq) := f.maxFin
      if !f.inf then (if magGt m e mn mq then (f.packMax s, outSat) else (f.pack s n q, {}))
      else match r with
        | .zero => if magGt m e mn mq then (f.packMax s, outSat) else (f.pack s n q, {})
        | .near =>
          if magGt n q mn mq then (if sat then (f.packMax s, outSat) else (f.packInf s, {})) else (f.pack s n q, {})

/-- To a two's complement integer of w bits whose unit is 2 to the u: a magnitude beyond the range is clipped (log 37). -/
def toInt (w : Nat) (u : Int) (r : Rnd) (v : Val) : Nat × NumFlags :=
  let hi : Nat := 2 ^ (w - 1) - 1
  let enc (i : Int) : Nat := (i % 2 ^ w).toNat
  match v with
  | .nan => (0, sawNan)
  | .inf s => (enc (if s then -(hi : Int) - 1 else hi), outSat)
  | .fin s m e =>
    let top := if s then hi + 1 else hi
    if magGt m e top u then (enc (signed s top), outSat) else (enc (signed s (roundSh r m (e - u))), {})

/-- One element in a plain format. -/
def toFmt (f : Fmt) (r : Rnd) (sat : Bool) (v : Val) : Nat × NumFlags :=
  match f with
  | .int4 => toInt 4 0 r v
  | .int8 => toInt 8 0 r v
  | .int32 => toInt 32 0 r v
  | .e4m3 => toFloat ff4m3 r sat v
  | .e5m2 => toFloat ff5m2 r sat v
  | .bf16 => toFloat ffBf16 r sat v
  | .fp16 => toFloat ffFp16 r sat v
  | .fp32 => toFloat ffFp32 r sat v
  | .mxfp4 => toFloat ff2m1 r sat v
  | .mxint8 => toInt 8 (-6) r v

/-- The magnitude of a is greater than that of b. -/
def valMagGt (a b : Val) : Bool :=
  match a, b with
  | .fin _ m e, .fin _ n f => magGt m e n f
  | _, _ => false

/-- One block of 32 values in a microscaling format: scale byte, element bits, flags (R81). -/
def toBlock (f : Fmt) (r : Rnd) (vs : List Val) : Nat × List Nat × NumFlags :=
  let special := vs.any fun v => match v with
    | .fin _ _ _ => false
    | _ => true
  if special then (0xFF, vs.map fun _ => 0, sawNan)
  else match vs.foldl (fun a v => if valMagGt v a then v else a) (.fin false 0 0) with
    | .fin _ m e =>
      if m = 0 then (0, vs.map fun _ => 0, {})
      else
        let x : Int := (Nat.log2 m : Int) + e - (if f = .mxfp4 then 2 else 0)
        let x := max (-127) (min 127 x)
        let es := vs.map fun v => toFmt f r false (scaleVal v (-x))
        ((x + 127).toNat, es.map Prod.fst, es.foldl (fun a p => a.or p.2) {})
    | _ => (0, vs.map fun _ => 0, {})

/-- Element bits packed into bytes (R74). -/
def packElems (bits : Nat) (es : List Nat) : Bytes :=
  if bits = 4 then (List.range (ceilDiv es.length 2)).map fun i => BitVec.ofNat 8 (nth es (2 * i) 0 % 16 + 16 * (nth es (2 * i + 1) 0 % 16))
  else es.flatMap fun x => toLE (bits / 8) x

/-- A row of values in a format, padded to its footprint (R75, R127, R142, R151). -/
def encodeRow (f : Fmt) (r : Rnd) (sat : Bool) (vs : List Val) : Bytes × NumFlags :=
  let n := vs.length
  let pad (b : Bytes) : Bytes := b ++ zpad (footprint n f - b.length)
  if f.isMx then
    let bl := (List.range (ceilDiv n 32)).map fun i => toBlock f r ((vs.drop (32 * i)).take 32)
    (pad (packElems f.bits (bl.flatMap fun b => b.2.1) ++ bl.map fun b => BitVec.ofNat 8 b.1), bl.foldl (fun a b => a.or b.2.2) {})
  else
    let es := vs.map (toFmt f r sat)
    (pad (packElems f.bits (es.map Prod.fst)), es.foldl (fun a p => a.or p.2) {})

def numVal : Num → Val
  | .f x => f32Val x
  | .i n => valOf n 0

-- Merges (R101)

/-- Element-wise a times x plus b times y, each product and the sum rounded. -/
def mixVec (sat : Bool) (a b : BitVec 32) : List (BitVec 32) → List (BitVec 32) → List (BitVec 32) × NumFlags
  | x :: r, y :: s =>
    let (p, f) := fmul sat x a
    let (q, g) := fmul sat y b
    let (z, h) := fadd sat p q
    let (rest, k) := mixVec sat a b r s
    (z :: rest, ((f.or g).or h).or k)
  | _, _ => ([], {})

/-- The larger of two FP32 values; NaN wins. -/
def fmax (a b : BitVec 32) : BitVec 32 :=
  if isNan a || isNan b then f32Nan else if f32Key a < f32Key b then b else a

/-- Merge of two partial results of log-sum-exp form. -/
def mergeLse (sat : Bool) (acc p : Lse) : Lse × NumFlags :=
  let m := fmax acc.m p.m
  let (a, f1) := if m = f32NegInf then (0#32, {}) else let (x, f) := fsub sat acc.m m; let (e, g) := fexp x; (e, f.or g)
  let (b, f2) := if m = f32NegInf then (0#32, {}) else let (x, f) := fsub sat p.m m; let (e, g) := fexp x; (e, f.or g)
  let (x, f3) := fmul sat acc.l a
  let (y, f4) := fmul sat p.l b
  let (l, f5) := fadd sat x y
  let (o, f6) := mixVec sat a b acc.o p.o
  (⟨m, l, o⟩, ((f1.or f2).or (f3.or f4)).or (f5.or f6))

/-- Partials merged in order: the first is the accumulator. -/
def mergeLses (sat : Bool) : List Lse → Option Lse → NumFlags → Option Lse × NumFlags
  | [], acc, f => (acc, f)
  | p :: r, none, f => mergeLses sat r (some p) f
  | p :: r, some a, f => let (m, g) := mergeLse sat a p; mergeLses sat r (some m) (f.or g)

end Sys2Proof.Machine
end

