-- ==== Sys2Proof/Machine/OpDesc.lean ====
section
/-! DEFINITION. The operator descriptor (R85 to R88, R111 to R113) and the bodies of the eight operators (R118, R124, R128, R134, R139, R144, R147, R150): fields, checks, sizes, ranges. -/

namespace Sys2Proof.Machine

-- Opcodes (R85)
def opScore : Nat := 1
def opGather : Nat := 2
def opGraph : Nat := 3
def opSet : Nat := 4
def opAttend : Nat := 5
def opScan : Nat := 6
def opScatter : Nat := 7
def opCopy : Nat := 8

-- Header fields (R85, R86)
def dOp (b : Bytes) : Nat := u8 b 0
def dLen (b : Bytes) : Nat := u16 b 2
def dFlags (b : Bytes) : Nat := u32 b 4
def dSrc (b : Bytes) : Nat := u64 b 8
def dSrcLen (b : Bytes) : Nat := u64 b 0x10
def dDim (b : Bytes) : Nat := u32 b 0x18
def dStride (b : Bytes) : Nat := u32 b 0x1C
def dOpnd (b : Bytes) : Nat := u64 b 0x20
def dOpndLen (b : Bytes) : Nat := u32 b 0x28
def dK (b : Bytes) : Nat := u16 b 0x2C
def dMode (b : Bytes) : Nat := u8 b 0x2E
def dResult (b : Bytes) : Nat := u64 b 0x30
def dCap (b : Bytes) : Nat := u32 b 0x38
def dSat (b : Bytes) : Bool := tb (dFlags b) 0
def dDist (b : Bytes) : Bool := tb (dFlags b) 1
def dIn (b : Bytes) : Fmt := (Fmt.ofCode (fld (dFlags b) 8 4)).getD .int8
def dOpndFmt (b : Bytes) : Fmt := (Fmt.ofCode (fld (dFlags b) 12 4)).getD .int8
def dOut (b : Bytes) : Fmt := (Fmt.ofCode (fld (dFlags b) 16 4)).getD .int8
def dRound (b : Bytes) : Rnd := if fld (dFlags b) 20 2 = 1 then .zero else .near

/-- Bytes of a source row and of an operand row. -/
def inFp (b : Bytes) : Nat := footprint (dDim b) (dIn b)
def opndFp (b : Bytes) : Nat := footprint (dDim b) (dOpndFmt b)
def outFp (b : Bytes) : Nat := footprint (dDim b) (dOut b)

/-- Rows of the source (R113). -/
def dRows (b : Bytes) : Nat := dSrcLen b / max 1 (dStride b)

/-- Fields of the bodies. -/
def scQueries (b : Bytes) : Nat := u16 b 0x40
def grBags (b : Bytes) : Nat := u32 b 0x40
def grIndices (b : Bytes) : Nat := u32 b 0x44
def gwEf (b : Bytes) : Nat := u16 b 0x40
def gwWidth (b : Bytes) : Nat := u8 b 0x42
def gwEntries (b : Bytes) : Nat := u8 b 0x43
def gwDegree (b : Bytes) : Nat := u16 b 0x44
def gwRounds (b : Bytes) : Nat := u16 b 0x46
def gwLimit (b : Bytes) : Nat := u32 b 0x48
def soWidth (b : Bytes) : Nat := u8 b 0x41
def soLists (b : Bytes) : Nat := u16 b 0x42
def soMax (b : Bytes) : Nat := u32 b 0x48
def atHeads (b : Bytes) : Nat := u8 b 0x40
def atTokens (b : Bytes) : Nat := u16 b 0x42
def atSeq (b : Bytes) : Nat := u32 b 0x44
def atPages (b : Bytes) : Nat := u32 b 0x4C
def snMax (b : Bytes) : Nat := u32 b 0x44
def saUpdates (b : Bytes) : Nat := u32 b 0x40
def cpDst (b : Bytes) : Nat := u64 b 0x40
def cpStride (b : Bytes) : Nat := u32 b 0x48

/-- Bytes of one page of ATTEND (R140). -/
def pageBytes (b : Bytes) : Nat := 2 * atTokens b * dStride b

/-- ID_BASE where the operator has one (R113). -/
def idBase (b : Bytes) : Nat := if dOp b = opScore || dOp b = opScan then u64 b 0x48 else if dOp b = opGraph then u64 b 0x50 else 0

/-- Reserved fields and bits of the body (check 4, R111). -/
def bodyRsv (b : Bytes) : Bool :=
  let op := dOp b
  if op = opScore then u8 b 0x43 ≤ 1 && zeros b 0x50 48
  else if op = opGather then u8 b 0x49 ≤ 1 && zeros b 0x4A 54
  else if op = opGraph then zeros b 0x4D 3 && zeros b 0x58 40
  else if op = opSet then zeros b 0x4C 52
  else if op = opAttend then u8 b 0x41 ≤ 1 && zeros b 0x50 48
  else if op = opScan then u8 b 0x41 ≤ 1
  else if op = opScatter then zeros b 0x44 60
  else u8 b 0x4C ≤ 1 && zeros b 0x4D 3 && zeros b 0x54 44

/-- Working blocks of a leg (R112). -/
def workBlocks (b : Bytes) : Nat := if dOp b = opGather then ceilDiv (grBags b * dDim b * 4) 524288 else 0

/-- Operand-store blocks each leg needs (R82). -/
def legBlocks (b : Bytes) : Nat := ceilDiv (dOpndLen b) 4096 + workBlocks b

/-- The largest result body (R121, R127, R131, R138, R142, R146, R148, R151). -/
def bodyMax (b : Bytes) : Nat :=
  let op := dOp b
  if op = opScore then (if dK b = 0 then scQueries b * dRows b * ((dOut b).bits / 8) else scQueries b * dK b * 16)
  else if op = opGather then grBags b * outFp b
  else if op = opGraph then 32 + dK b * 16
  else if op = opSet then 16 + soMax b * soWidth b
  else if op = opAttend then atHeads b * outFp b + (if tb (u8 b 0x41) 0 then 4 * atHeads b else 0)
  else if op = opScan then 32 + 8 * snMax b
  else 16

/-- Merge store an operation reserves, in 4 KiB units (R97, R132). -/
def mergeNeed (b : Bytes) : Nat :=
  ceilDiv (if dOp b = opGraph then bodyMax b + gwEf b * (16 + 4 * gwDegree b) + gwLimit b * 8 else bodyMax b) 4096

def f32Finite (x : Nat) : Bool :=
  match ffFp32.decode x with
  | .fin _ _ _ => true
  | _ => false

/-- OUT_FMT is FP32 or INT32 by family. -/
def outByFamily (b : Bytes) : Bool := dOut b = (if (dIn b).isInt then Fmt.int32 else Fmt.fp32)

/-- Rows as R113 sets. -/
def rowsOk (b : Bytes) : Bool :=
  dStride b ≠ 0 && dSrcLen b % dStride b = 0 && (!((dIn b).isMx || (dOpndFmt b).isMx || (dOut b).isMx) || dDim b % 32 = 0)

def plainFloat (f : Fmt) : Bool := !f.isInt && !f.isMx

/-- One term of SCAN: column, bounds. -/
def snTerm (b : Bytes) (k : Nat) : Nat × Nat × Nat := (u32 b (0x50 + 12 * k), u32 b (0x54 + 12 * k), u32 b (0x58 + 12 * k))

/-- The operator body and the header constraints of the operator (check 10). -/
def bodyOk (b : Bytes) : Bool :=
  let op := dOp b
  let n := dDim b
  let bc := dMode b = 1
  let none_ := dMode b = 0
  let same := dOpndFmt b = dIn b
  let l2ok (m : Nat) : Bool := m = 0 || (m = 1 && !(dIn b).isMx && !(dOpndFmt b).isMx)
  if op = opScore then
    bc && 1 ≤ n && rowsOk b && 1 ≤ scQueries b && scQueries b ≤ 16 && l2ok (u8 b 0x42)
      && (if dK b = 0 then !tb (u8 b 0x43) 0 && (dOut b = .int32 || plainFloat (dOut b)) else outByFamily b)
      && dOpndLen b = scQueries b * opndFp b
  else if op = opGather then
    bc && 1 ≤ n && rowsOk b && same && (dOut b ≠ .int32 || (dIn b).isInt) && 1 ≤ grBags b && grBags b ≤ 65536 && grIndices b ≤ 65536
      && u8 b 0x48 ≤ 2 && (u8 b 0x49 = 0 || (u8 b 0x48 ≤ 1 && !(dIn b).isInt))
      && dOpndLen b = 4 * (grBags b + 1) + 4 * grIndices b * (1 + u8 b 0x49)
  else if op = opGraph then
    bc && 1 ≤ n && rowsOk b && outByFamily b && 1 ≤ gwEf b && gwEf b ≤ 1024 && 1 ≤ gwWidth b && gwWidth b ≤ 64
      && 1 ≤ gwEntries b && gwEntries b ≤ 16 && 1 ≤ gwDegree b && gwDegree b ≤ 256 && 1 ≤ gwRounds b && gwRounds b ≤ 4096
      && 1 ≤ gwLimit b && gwLimit b ≤ 262144 && l2ok (u8 b 0x4C) && inFp b + 4 + 4 * gwDegree b ≤ dStride b
      && dOpndLen b = opndFp b + 4 * gwEntries b && dRows b ≤ 2 ^ 32
  else if op = opSet then
    bc && n = 0 && dIn b = .int4 && dOpndFmt b = .int4 && dOut b = .int4 && u8 b 0x40 ≤ 3 && (soWidth b = 4 || soWidth b = 8)
      && 1 ≤ soLists b && soLists b ≤ 64 && (if u8 b 0x40 = 3 then 1 ≤ u32 b 0x44 && u32 b 0x44 ≤ soLists b else u32 b 0x44 = 0)
      && soMax b ≤ (if soWidth b = 4 then 262140 else 131070) && dOpndLen b = 16 * soLists b
  else if op = opAttend then
    bc && 1 ≤ n && rowsOk b && !(dIn b).isInt && 1 ≤ atHeads b && atHeads b ≤ 16 && 1 ≤ atTokens b && atTokens b ≤ 1024
      && dSrcLen b % max 1 (pageBytes b) = 0 && atPages b = ceilDiv (atSeq b) (max 1 (atTokens b)) && f32Finite (u32 b 0x48)
      && dOpndLen b = atHeads b * opndFp b + 4 * atPages b
  else if op = opScan then
    none_ && 1 ≤ n && rowsOk b && same && outByFamily b && u8 b 0x40 ≤ 4 && (u16 b 0x42 < n || u16 b 0x42 = 0xFFFF)
      && snMax b ≤ 131068 && (tb (u8 b 0x41) 0 || snMax b = 0)
      && (List.range 4).all fun k => if k < u8 b 0x40 then (snTerm b k).1 < n else zeros b (0x50 + 12 * k) 12
  else if op = opScatter then
    bc && 1 ≤ n && rowsOk b && (dIn b = .fp32 || dIn b = .bf16 || dIn b = .fp16) && plainFloat (dOpndFmt b) && dOut b = dIn b
      && saUpdates b ≤ 65536 && dOpndLen b = saUpdates b * (4 + opndFp b)
  else
    none_ && 1 ≤ n && rowsOk b && same && cpDst b % 32 = 0 && cpStride b % 32 = 0 && outFp b ≤ cpStride b && cpStride b ≤ 1048576
      && (!tb (u8 b 0x4C) 0 || f32Finite (u32 b 0x50))
      && (cpDst b + dRows b * cpStride b ≤ dSrc b || dSrc b + dSrcLen b ≤ cpDst b)

/-- K in range for the operator (check 6, R112). -/
def kOk (b : Bytes) : Bool :=
  if dOp b = opScore then dK b ≤ 256
  else if dOp b = opGraph then 1 ≤ dK b && dK b ≤ 256 && (dLen b = 64 || dK b ≤ gwEf b)
  else dK b = 0

/-- The checks of R88 in order: the detail of the first failure. -/
def descCheck (loc : Bool) (supplied : Nat) (b : Bytes) : Option Nat :=
  let fl := dFlags b
  let fmt (lo : Nat) : Option Fmt := Fmt.ofCode (fld fl lo 4)
  if !(1 ≤ dOp b && dOp b ≤ 8) then some 0x01
  else if u8 b 1 ≠ 1 then some 0x02
  else if dLen b % 64 ≠ 0 || dLen b < 64 || 512 < dLen b || supplied < dLen b then some 0x03
  else if fld fl 22 10 ≠ 0 || fld fl 2 6 ≠ 0 || u8 b 0x2F ≠ 0 || (128 ≤ dLen b && !bodyRsv b) || !zeros b 128 (dLen b - 128) then some 0x04
  else if (fmt 8).isNone || (fmt 12).isNone || (fmt 16).isNone || 2 ≤ fld fl 20 2 || dIn b = .int32 || dOpndFmt b = .int32
      || (dIn b).isInt ≠ (dOpndFmt b).isInt then some 0x05
  else if !kOk b then some 0x06
  else if 65536 < dDim b || (if dDim b = 0 then dStride b ≠ 0 else dStride b % 32 ≠ 0 || dStride b < inFp b || 1048576 < dStride b)
      || dSrcLen b % 32 ≠ 0 || dSrcLen b < 32 || 2 ^ 40 < dSrcLen b || 262144 < dOpndLen b then some 0x03
  else if dSrc b % 32 ≠ 0 || dOpnd b % 32 ≠ 0 || (loc && dResult b % 64 ≠ 0) then some 0x08
  else if 64 < (if dLen b = 64 then ceilDiv (dOpndLen b) 4096 else legBlocks b) then some 0x07
  else if dLen b < 128 || 1 < dMode b || (dMode b = 0 && (dOpnd b ≠ 0 || dOpndLen b ≠ 0)) || !bodyOk b then some 0x09
  else if 1048576 < bodyMax b then some 0x0A
  else if dCap b < 32 + bodyMax b then some 0x0B
  else none

/-- Ranges that legs read or write, as the descriptor addresses them: start, length, written (R87, R117). -/
def descRanges (b : Bytes) : List (Nat × Nat × Bool) :=
  (dSrc b, dSrcLen b, false) :: (if dOp b = opScatter then [(dSrc b, dSrcLen b, true)] else [])
    ++ (if dOpndLen b = 0 then [] else [(dOpnd b, dOpndLen b, false)])
    ++ (if dOp b = opCopy then [(cpDst b, dRows b * cpStride b, true)] else [])

end Sys2Proof.Machine
end

