-- ==== Sys2Proof/Machine/CoreOps.lean ====
section
/-! DEFINITION. The AES cores and their scheduler (R473 to R475): the classes of a core, the dealing of jobs, and the work of one tick. -/

namespace Sys2Proof.Machine

-- A core (R474)

def coreBytes (l : List CoreWork) : Nat := (l.map (·.len)).sum

/-- Queued work of a core, what it works on now included. -/
def AesCore.load (c : AesCore) : Nat := coreBytes c.transport + coreBytes c.jobs + coreBytes c.now.toList

/-- What a class has waiting. -/
def AesCore.queue (c : AesCore) : CoreClass → List CoreWork
  | .transport => c.transport
  | .jobs => c.jobs

def AesCore.deficit (c : AesCore) : CoreClass → Nat
  | .transport => c.transportDeficit
  | .jobs => c.jobsDeficit

def AesCore.setDeficit (c : AesCore) (k : CoreClass) (n : Nat) : AesCore :=
  match k with
  | .transport => { c with transportDeficit := n }
  | .jobs => { c with jobsDeficit := n }

def AesCore.dropHead (c : AesCore) : CoreClass → AesCore
  | .transport => { c with transport := c.transport.tail }
  | .jobs => { c with jobs := c.jobs.tail }

def CoreClass.other : CoreClass → CoreClass
  | .transport => .jobs
  | .jobs => .transport

/-- The quantum of a class: 1,024 B times its weight; a weight of 0 is taken as 1 (R508). -/
def coreQuantum (c : Ciph) (k : CoreClass) : Nat :=
  1024 * max 1 (match k with
    | .transport => c.transportWeight.toNat
    | .jobs => c.jobWeight.toNat)

/-- The turn passes to the other class, which gains its quantum; a class with nothing waiting keeps no deficit. -/
def AesCore.passTurn (x : Ciph) (c : AesCore) : AesCore :=
  let c := if c.queue c.turn = [] then c.setDeficit c.turn 0 else c
  let k := c.turn.other
  { c.setDeficit k (c.deficit k + coreQuantum x k) with turn := k }

/-- The core takes its next work by deficit round robin, at most n passes of the turn; a class with nothing waiting lends its turn. -/
def coreTake (x : Ciph) : Nat → AesCore → AesCore
  | 0, c => c
  | n + 1, c =>
    if c.transport = [] && c.jobs = [] then c
    else match c.queue c.turn with
      | [] => coreTake x n (c.passTurn x)
      | w :: _ =>
        let k := c.turn
        if w.len ≤ c.deficit k then { (c.dropHead k).setDeficit k (c.deficit k - w.len) with now := some w }
        else coreTake x n (c.passTurn x)

/-- One 16 B block (R473). -/
def coreBlock (x : Ciph) (c : AesCore) : AesCore :=
  let c := if c.now.isNone then coreTake x 256 c else c
  match c.now with
  | none => c
  | some w => { c with now := if w.len ≤ 16 then none else some { w with len := w.len - 16 } }

/-- A core works: its tile is up and out of reset, and its DRBG runs (R496). -/
def coreRuns (d : Dev) (k : Nat) : Bool :=
  nth d.fab.tileLive (k / 2) false && !d.pwr.inReset.get (tileHalf (k / 2)) && !(nth d.ciph.drbgs k {}).stopped

/-- Room in a core's job queue of 64 KiB (R475). -/
def coreRoom (c : AesCore) (n : Nat) : Bool := coreBytes c.jobs + n ≤ 65536

/-- The core with the least queued work of those in a list; ties go to the lowest (R475). -/
def leastCore (cs : List AesCore) (l : List Nat) : Option Nat :=
  l.foldl (fun a k => match a with
    | none => some k
    | some b => if (nth cs k {}).load < (nth cs b {}).load then some k else some b) none

/-- Whole blocks of n bytes. -/
def blocks16 (n : Nat) : Nat := 16 * ceilDiv n 16

/-- A tile uses a derived key: the key is in its cache, of 1,024, or a miss is counted and the key is derived again (R485); the key used longest ago leaves (log 97). -/
def touchKey (tile : Nat) (k : Nat × Bool) (d : Dev) : Bool × Dev :=
  let l := nth d.ciph.keyCache tile []
  let hit := l.contains k
  let d := d.onCiph fun c => { c with keyCache := c.keyCache.set tile ((k :: l.filter (· ≠ k)).take 1024) }
  (hit, if hit then d else count 0x0A04 tile none 1 d)

/-- The derived keys of queue pairs leave the caches (R482, R494, R533). -/
def dropKeys (p : Nat → Bool) (d : Dev) : Dev :=
  d.onCiph fun c => { c with keyCache := c.keyCache.map fun l => l.filter fun k => !p k.1 }

/-- A miss costs 40 ns of one core (R485): what it works through in that time (R473). -/
def missBytes : Nat := 1280

/-- The cores of a tile that take its packets: those that run, or both while neither does, and the work waits (R496). -/
def tileCores (d : Dev) (tile : Nat) : List Nat :=
  let l := [2 * tile, 2 * tile + 1]
  if l.any (coreRuns d) then l.filter (coreRuns d) else l

/-- A packet of n bytes is sealed or opened under key k by one of its tile's cores and waits for it: its ticket. Which of the two is open, the model takes the one with less work (log 97). -/
def chargePacket (tile : Nat) (k : Nat × Bool) (n : Nat) (d : Dev) : Nat × Dev :=
  let (hit, d) := touchKey tile k d
  let i := d.ciph.nextTicket
  let derive : List CoreWork := if hit then [] else [⟨none, missBytes, some i⟩]
  let d := (count 0x0A00 tile none n d).onCiph fun c => { c with nextTicket := i + 1 }
  (i, match leastCore d.ciph.cores (tileCores d tile) with
    | none => d
    | some k => d.onCiph fun c => { c with cores := modAt c.cores k fun x => { x with transport := x.transport ++ derive ++ [⟨none, blocks16 n, some i⟩] } })

/-- The packet of a ticket has passed its core. -/
def ticketDone (c : Ciph) (i : Nat) : Bool := c.cores.all fun x => (x.transport ++ x.now.toList).all fun w => w.ticket ≠ some i

-- Dealing jobs (R475)

def jobIsXts (j : Job) : Bool := 3 ≤ u8 j.entry 0

/-- The piece of a job dealt at a time: a sector, or at most 4 KiB of a GCM job (log 97). -/
def jobPiece (j : Job) : Nat := if jobIsXts j then 2 ^ u8 j.entry 3 else min j.left 4096

/-- The core that the next piece goes to: of a GCM job its own, chosen as its first piece is dealt; of an XTS job the next in rotation with room. -/
def pieceCore (d : Dev) (j : Job) : Option Nat :=
  if jobIsXts j then
    ((List.range 16).map fun i => (d.ciph.rotate + i) % 16).find? fun k => coreRuns d k && coreRoom (nth d.ciph.cores k {}) (jobPiece j)
  else
    let k := match j.core with
      | some k => if coreRuns d k then some k else leastCore d.ciph.cores ((List.range 16).filter (coreRuns d))
      | none => leastCore d.ciph.cores ((List.range 16).filter (coreRuns d))
    k.bind fun k => if coreRoom (nth d.ciph.cores k {}) (jobPiece j) then some k else none

def onJob (i : Nat) (f : Job → Job) (c : Ciph) : Ciph :=
  { c with jobs := c.jobs.map fun j => if j.idx = i && j.fin.isNone then f j else j }

/-- Pieces of a job are dealt while a core has room, at most n. -/
def dealJob (i : Nat) : Nat → Dev → Dev
  | 0, d => d
  | n + 1, d =>
    match d.ciph.jobs.find? fun j => j.idx = i && j.fin.isNone with
    | none => d
    | some j =>
      if j.left = 0 then d
      else match pieceCore d j with
        | none => d
        | some k =>
          let m := jobPiece j
          dealJob i n (d.onCiph fun c => onJob i (fun j => { j with left := j.left - m, core := some k, shares := modAt j.shares (k / 2) (· + m) })
            { c with
              cores := modAt c.cores k fun x => { x with jobs := x.jobs ++ [⟨some i, m, none⟩] }
              rotate := if jobIsXts j then (k + 1) % 16 else c.rotate })

/-- Every unfinished job is dealt as far as the queues hold, in ring order. -/
def dealJobs (d : Dev) : Dev :=
  (d.ciph.jobs.filter fun j => j.fin.isNone && j.left ≠ 0).foldl (fun d j => dealJob j.idx 2048 d) d

/-- What the cores hold of a job. -/
def dealtOf (c : Ciph) (i : Nat) : Nat :=
  (c.cores.map fun x => coreBytes ((x.jobs ++ x.now.toList).filter fun w => w.job = some i)).sum

/-- Every block of the job has passed a core. -/
def jobServed (c : Ciph) (i : Nat) : Bool :=
  (c.jobs.filter fun j => j.idx = i && j.fin.isNone).all (fun j => j.left = 0) && dealtOf c i = 0

/-- The cores drop what they hold of a job. -/
def AesCore.dropJobs (p : Nat → Bool) (x : AesCore) : AesCore :=
  let gone (w : CoreWork) : Bool := match w.job with
    | some i => p i
    | none => false
  { x with jobs := x.jobs.filter fun w => !gone w, now := if x.now.any gone then none else x.now }

def dropWork (p : Nat → Bool) (c : Ciph) : Ciph := { c with cores := c.cores.map (AesCore.dropJobs p) }

/-- A core that does not run gives back what it was dealt of jobs, to be dealt again; packets go to the tile's other core where that runs, and wait where neither does; those of a tile that is down are gone (R496, log 97). -/
def idleCore (k : Nat) (d : Dev) : Dev :=
  let x := nth d.ciph.cores k {}
  let o := if k % 2 = 0 then k + 1 else k - 1
  let pkts := (x.now.toList.filter fun w => w.job.isNone) ++ x.transport
  let up := nth d.fab.tileLive (k / 2) false && !d.pwr.inReset.get (tileHalf (k / 2))
  if x.load = 0 then d
  else d.onCiph fun c =>
    let c := { c with cores := modAt c.cores k fun _ => { transport := if up && !coreRuns d o then pkts else [] } }
    let c := if up && coreRuns d o then { c with cores := modAt c.cores o fun y => { y with transport := y.transport ++ pkts } } else c
    (x.jobs ++ x.now.toList).foldl (fun c w => match w.job with
      | some i => onJob i (fun j => { j with left := j.left + w.len, shares := modAt j.shares (k / 2) (· - w.len) }) c
      | none => c) c

-- Randomness (R496)

/-- Requests that a DRBG takes between two reseeds. -/
def drbgRequests : Nat := 2 ^ 20

/-- m requests of DRBG k. -/
def drbgDraw (k m : Nat) (d : Dev) : Dev :=
  d.onCiph fun c => { c with drbgs := modAt c.drbgs k fun x =>
    { x with requests := x.requests + m, spentAt := if x.spentAt.isNone && drbgRequests ≤ x.requests + m then some (now d) else x.spentAt } }

/-- When a DRBG's reseed is due: 1 ms after the last, or at its 2²⁰th request since. -/
def reseedDue (x : Drbg) : Nat := min (x.since + msTicks 1) (x.spentAt.getD (x.since + msTicks 1))

/-- A tick's blocks of core k, each with its masks (R495; log 97). -/
def coreTicks (k : Nat) (d : Dev) : Dev :=
  if !coreRuns d k then d
  else
    let x := nth d.ciph.cores k {}
    let y := iter (coreBlock d.ciph) 4 x
    let d := d.onCiph fun c => { c with cores := c.cores.set k y }
    if y.load = x.load then d else drbgDraw k (ceilDiv (x.load - y.load) 16) d

/-- One tick of the cipher engine: four cycles of CK_A in every core (R473), the freed room dealt again. -/
def coresTick (d : Dev) : Dev :=
  if d.ciph.cores.all (fun x => x.load = 0) && d.ciph.jobs.all (fun j => j.left = 0) then d
  else
    let d := ((List.range 16).filter fun k => !coreRuns d k).foldl (fun d k => idleCore k d) d
    dealJobs ((List.range 16).foldl (fun d k => coreTicks k d) d)

end Sys2Proof.Machine
end

