-- ==== Sys2Proof/Machine/Operands.lean ====
section
/-! DEFINITION. Command packets as operands (12_command_packets): status codes, the parameter lengths, the Hasp and the holds of each opcode, the command in a slot, and its reply. -/

namespace Sys2Proof.Machine

-- Status codes (R437)
def stDone : Nat := 0x0000
def stNote : Nat := 0x0001
def stBadOpcode : Nat := 0x0010
def stBadParam : Nat := 0x0011
def stBadLength : Nat := 0x0012
def stNoResource : Nat := 0x0020
def stQuota : Nat := 0x0021
def stNotOwner : Nat := 0x0030
def stStaleEpoch : Nat := 0x0031
def stBusy : Nat := 0x0032
def stNotPermitted : Nat := 0x0040
def stTimeout : Nat := 0x0050
def stAborted : Nat := 0x0051
def stKeyBusy : Nat := 0x0060
def stRopeActive : Nat := 0x0070
def stVerifyFailed : Nat := 0x0080
def stInternal : Nat := 0x00F0

/-- The parameter length of an opcode (R438 and its chapters) and, for one whose parameters end in COUNT entries, the COUNT field: offset, bytes, least, most, bytes before the entries, bytes of an entry (R423). None: an opcode outside the index. -/
inductive ParamLen where
  | fixed (n : Nat)
  | counted (off bytes lo hi base entry : Nat)
  | undefined
  deriving DecidableEq, Repr

def paramLen (op : Nat) (p : Bytes) : ParamLen :=
  match op with
  | 0x0101 => .fixed 16 | 0x0102 => .fixed 24 | 0x0103 => .fixed 8 | 0x0104 => .fixed 8 | 0x0105 => .fixed 8
  | 0x0201 => .fixed 80 | 0x0202 => .fixed 24 | 0x0203 => .fixed 8 | 0x0204 => .fixed 8 | 0x0205 => .fixed 24
  | 0x0206 => .fixed 48 | 0x0207 => .fixed 8 | 0x0208 => .fixed 16
  | 0x0301 => .fixed 32 | 0x0302 => .fixed 8 | 0x0303 => .fixed 64 | 0x0304 => .fixed 24
  | 0x0305 => .counted 0 4 1 256 8 8 | 0x0306 => .fixed 20
  | 0x0401 => .fixed 40 | 0x0402 => .fixed 8 | 0x0403 => .fixed 20
  | 0x0501 => .fixed 40 | 0x0502 => .fixed 32 | 0x0503 => .fixed 8 | 0x0504 => .fixed 32 | 0x0505 => .fixed 8
  | 0x0506 => .counted 8 1 1 64 16 8 | 0x0507 => .fixed 64
  | 0x0601 => .fixed 64 | 0x0602 => .fixed 8 | 0x0603 => .fixed 16
  | 0x0701 => .fixed 32 | 0x0702 => .fixed 32
  | 0x0703 => if tb (u8 p 1) 0 then .counted 2 2 1 256 32 8 else .counted 2 2 0 0 32 8
  | 0x0704 => .counted 2 2 1 125 8 32 | 0x0705 => .fixed 8 | 0x0706 => .fixed 8
  | 0x0801 => .fixed 224 | 0x0802 => .fixed 8
  | 0x0901 => .fixed 24 | 0x0902 => .fixed 16 | 0x0903 => .fixed 8 | 0x0904 => .fixed 8 | 0x0905 => .fixed 8
  | 0x0906 => .fixed 16
  | 0x0A01 => .counted 2 2 1 256 8 8 | 0x0A02 => .fixed 16 | 0x0A03 => .fixed 20 | 0x0A04 => .fixed 8
  | 0x0B01 => .fixed 16 | 0x0B02 => .fixed 16
  | _ => .undefined

/-- Groups the sideband carries (R414). -/
def sidebandGroup (op : Nat) : Bool := op / 256 = 0x01 || op / 256 = 0x0A || op / 256 = 0x0B

/-- The Hasp an opcode needs, 0 for none; a parameter out of range needs none (R433). -/
def haspNeeded (op : Nat) (p : Bytes) : Nat :=
  match op with
  | 0x0103 | 0x0104 | 0x0105 => 1
  | 0x0201 | 0x0202 => 2
  | 0x0703 | 0x0704 | 0x0705 | 0x0706 => 3
  | 0x0701 | 0x0702 | 0x0507 => if u8 p 0 = 0 then 3 else 0
  | 0x0801 | 0x0802 => 4
  | 0x0901 | 0x0902 | 0x0903 | 0x0904 | 0x0905 | 0x0906 => 5
  | 0x0B02 => 6
  | 0x0A01 => 7
  | 0x0A04 => 8
  | _ => 0

/-- The tenants a command names (R430, R452). -/
def tenantsNamed (op : Nat) (p : Bytes) : List Nat :=
  let at0 := [u32 p 0]
  let l := match op with
    | 0x0201 | 0x0202 | 0x0203 | 0x0204 | 0x0207 | 0x0208 => at0
    | 0x0205 | 0x0206 => [u32 p 0, u32 p 4]
    | 0x0301 | 0x0302 | 0x0303 | 0x0304 | 0x0401 | 0x0402 | 0x0403 => at0
    | 0x0501 | 0x0502 | 0x0503 | 0x0504 | 0x0505 | 0x0506 => at0
    | 0x0601 | 0x0602 | 0x0603 => at0
    | 0x0507 => if u8 p 0 = 1 then [u32 p 4] else []
    | 0x0701 | 0x0702 => if u8 p 0 = 1 then [u32 p 4] else []
    | 0x0801 => if u8 p 1 = 1 then [] else [u16 p 4]
    | 0x0A01 => ((List.range (u16 p 2)).map fun i => u16 p (12 + 8 * i)).dedup
    | _ => []
  l.filter (· < 256)

/-- Paths that name an egress port. -/
def egressNamed (l : List Nat) : List Hold := (l.filter (· < 16)).map fun e => ⟨.port e, true⟩

/-- The holds a command takes before it begins (R430). -/
def holdsOf (op : Nat) (p : Bytes) : List Hold :=
  let tens := (tenantsNamed op p).map fun t => (⟨.tenant t, op / 256 = 2⟩ : Hold)
  let ex (o : HoldObj) : Hold := ⟨o, true⟩
  let objs : List Hold := match op with
    | 0x0302 | 0x0303 => [ex (.alloc (u32 p 4))]
    | 0x0402 => [ex (.window (u32 p 4))]
    | 0x0501 => ex (.cq (u16 p 0x1A)) :: (if u16 p 0x1C = 0xFFFF then [] else [ex (.cq (u16 p 0x1C))])
    | 0x0502 | 0x0503 => [ex (.qp (u32 p 4))]
    | 0x0505 => [ex (.cq (u32 p 4))]
    | 0x0506 => ex (.qp (u32 p 4)) :: egressNamed ((List.range (u8 p 8)).map fun k => u8 p (16 + 8 * k))
    | 0x0507 => if u8 p 0 = 1 && u32 p 8 ≠ 0xFFFFFFFF then [ex (.qp (u32 p 8))] else []
    | 0x0601 => [ex (.rope (u8 p 8)), ex (.cq (u16 p 0x2A)), ex (.cq (u16 p 0x2C))] ++ egressNamed [u8 p 0x13, u8 p 0x17]
    | 0x0602 | 0x0603 => [ex (.rope (u8 p 4))]
    | 0x0701 | 0x0702 => if u8 p 0 = 0 then [ex (.port (u8 p 1))] else []
    | 0x0703 | 0x0705 | 0x0706 => [ex (.port (u8 p 0))]
    | 0x0104 => if u8 p 0 = 1 then [] else [ex (.port (u8 p 2))]
    | 0x0801 => ex (.key (u8 p 0)) :: (if u8 p 8 = 0 && u8 p 9 ≠ u8 p 0 then [ex (.key (u8 p 9))] else [])
    | 0x0802 => [ex (.key (u8 p 0))]
    | _ => []
  let h := haspNeeded op p
  (tens ++ objs ++ if h = 0 then [] else [ex (.hasp h)]).dedup

/-- Two holds that cannot stand together. -/
def Hold.clash (a b : Hold) : Bool := a.obj = b.obj && (a.excl || b.excl)

-- The command of a slot

def cmdAt (d : Dev) : CmdSlot → Option Cmd
  | .ring p k => (d.ring p k).cmd
  | .sideband => d.ctl.side.cmd

def setCmd (c : CmdSlot) (m : Option Cmd) (d : Dev) : Dev :=
  match c with
  | .ring p k => d.onRing p k fun r => { r with cmd := m }
  | .sideband => d.onSide fun s => { s with cmd := m }

def onCmd (c : CmdSlot) (f : Cmd → Cmd) (d : Dev) : Dev :=
  match cmdAt d c with
  | some m => setCmd c (some (f m)) d
  | none => d

/-- Every slot, in the order of R429. -/
def allSlots : List CmdSlot :=
  (List.range 4).map (.ring .west ·) ++ (List.range 4).map (.ring .east ·) ++ [.sideband]

/-- Commands that hold their objects: begun, or answered with the reply still to be written (R430). -/
def cmdActive (m : Cmd) : Bool := m.stage ≠ .fetched

/-- The command is left running; another row ends it. -/
def leave (c : CmdSlot) (work : List Nat) (d : Dev) : Dev := onCmd c (fun m => { m with stage := .running, work := work }) d

/-- Ring size of CTRL (R442). -/
def ringSlots (r : CmdRing) : Nat := 2 ^ (max 4 (min 8 r.sizeLog2.toNat))

def isDone (st : Nat) : Bool := st = stDone || st = stNote

/-- The 32 bytes of a reply (R424). -/
def replyBytes (d : Dev) (m : Cmd) (st detail value : Nat) (idx : Nat) (phase : Bool) : Bytes :=
  let began := m.ran
  let us := if began then max 1 (min 0xFFFF (ceilDiv (now d - m.began) 500)) else 0
  let changed := m.hdr.hasp ≠ 0 && (d.hasp m.hdr.hasp).epoch ≠ m.hdr.epoch
  toLE 8 m.hdr.cmdId.toNat ++ toLE 2 m.hdr.opcode.toNat ++ toLE 2 st ++ toLE 2 idx ++ toLE 2 detail ++ toLE 8 value
    ++ toLE 4 (leadEpoch d).toNat ++ toLE 2 us ++ zpad 1
    ++ toLE 1 (b2n phase + 2 * b2n changed + 4 * b2n m.late + 8 * b2n m.resultLost)

/-- CONS moves to index i: what was recorded of indices before it ends (R424, R431). -/
def consTo (i : Nat) (r : CmdRing) : CmdRing :=
  let s := ringSlots r
  { r with cons := BitVec.ofNat 16 i
           visible := r.visible.filter fun (b, _) => 0 < ringSub s b i && ringSub s b i ≤ s
           lateTo := r.lateTo.filter (· ≠ i) }

/-- The slot of a ring is answered: CONS advances, the vector is signalled unless NO_IRQ, a stopping ring stops (R419, R426, R436). -/
def retire (p : Side) (k : Nat) (m : Cmd) (d : Dev) : Dev :=
  let r := d.ring p k
  let d := d.onRing p k fun r =>
    let r := { r with cmd := none, refetch := 0, stopping := false }
    if (d.ring p k).enable && (d.ring p k).stopping then r else consTo (ringAdd (ringSlots r) m.idx 1) r
  if tb m.hdr.hflags.toNat 1 then d else msix p r.vector.toNat d

/-- Answer the command of a slot: result record, then reply, then CONS and the message; the holds end (R424 to R426, R430, R436). A command whose port was reset is logged instead. While no control die leads none is answered: the next leader answers it (R397, R399, R432). -/
def answer (c : CmdSlot) (st detail : Nat) (res : Option (Nat × Bytes)) (val : Option Nat) (d : Dev) : Dev :=
  match cmdAt d c, leader d with
  | none, _ => d
  | _, none => d
  | some m, some _ =>
    let value := match val with
      | some v => v
      | none => match res with
        | some (_, b) => if isDone st then u64 b 0 else 0
        | none => 0
    let d := count (if isDone st then 0x0B01 else 0x0B02) 0xFF none 1 d
    match c with
    | .sideband =>
      let d' := setCmd c none d
      -- the Hasp the leader took for it (R435), unless it has been released since (R394)
      let d' := if !m.ran || m.hdr.hasp = 0 || (d'.hasp m.hdr.hasp).epoch ≠ m.hdr.epoch then d' else d'.onHasp m.hdr.hasp fun _ => { epoch := (d'.hasp m.hdr.hasp).epoch + 1#32 }
      emit (.sideband ([0x7E#8, 0x1D#8, 0x5A#8, 0x02#8, 0x00#8] ++ replyBytes d m st detail value 0 true
        ++ (res.map Prod.snd).getD [])) d'
    | .ring p k =>
      if m.orphan then
        logIt 0x0505 4 p.idx [m.hdr.opcode.toNat, m.hdr.cmdId.toNat, st] (d := (setCmd c none d).onRing p k fun r => { r with stopping := false })
      else
        let r := d.ring p k
        let s := ringSlots r
        let d := match res with
          | some (a, b) => if m.resultLost then d else hostWrite p none a b d
          | none => d
        let ready := canIssue d p && (d.host.get p).heldWrites = []
        let d := hostWrite p none (r.replyBase.toNat + m.idx % s * 32)
          (replyBytes d m st detail value m.idx (phaseOf s m.idx)) d
        if ready then retire p k m d
        else heldNote p (.reply k) (setCmd c (some { m with stage := .replied, status := st, holds := if m.ran then m.holds else [] }) d)

/-- Answer the running command of a slot if it is of this opcode. -/
def answerIf (c : CmdSlot) (op st : Nat) (res : Option (Nat × Bytes)) (d : Dev) : Dev :=
  match cmdAt d c with
  | some m => if m.hdr.opcode = BitVec.ofNat 16 op && m.stage = .running then answer c st 0 res none d else d
  | none => d

/-- Reply with a status, DETAIL 0 and no result. -/
def finish (c : CmdSlot) (st : Nat) (d : Dev) : Dev := answer c st 0 none none d
def finishAt (c : CmdSlot) (st detail : Nat) (d : Dev) : Dev := answer c st detail none none d
def finishRes (c : CmdSlot) (st addr : Nat) (res : Bytes) (d : Dev) : Dev := answer c st 0 (some (addr, res)) none d

/-- A reply that waited for the port is written (R387). -/
def retireHeld (p : Side) (k : Nat) (d : Dev) : Dev :=
  match (d.ring p k).cmd with
  | some m => if m.stage = .replied then retire p k m d else d
  | none => d

def retireReplied (p : Side) (d : Dev) : Dev := (List.range 4).foldl (fun d k => retireHeld p k d) d

-- Checks

/-- The offset of the first failing check. -/
def firstBad : List (Nat × Bool) → Option Nat
  | [] => none
  | (o, ok) :: r => if ok then firstBad r else some o

/-- RESULT_ADDR: aligned on a ring, 0 on the sideband (R435). -/
def addrOk (c : CmdSlot) (a align : Nat) : Bool :=
  match c with
  | .ring _ _ => a % align = 0
  | .sideband => a = 0

def slotPort : CmdSlot → Option Side
  | .ring p _ => some p
  | .sideband => none

def isSideband (c : CmdSlot) : Bool := c = .sideband

/-- The bound command of a row: its slot holds a begun command of this opcode, and a control die leads (R397); nothing else runs (log 1). -/
def runCmd (c : CmdSlot) (op : Nat) (f : Bytes → Dev → Dev) (d : Dev) : Dev :=
  match cmdAt d c, leader d with
  | some m, some _ => if m.stage = .begun && m.hdr.opcode = BitVec.ofNat 16 op then f m.params d else d
  | _, _ => d

/-- As runCmd, BAD_PARAM at the first failing check of the fields. -/
def runChk (c : CmdSlot) (op : Nat) (chk : Bytes → Dev → List (Nat × Bool)) (f : Bytes → Dev → Dev) (d : Dev) : Dev :=
  runCmd c op (fun p d => match firstBad (chk p d) with
    | some o => finishAt c stBadParam o d
    | none => f p d) d

/-- The port may manage the tenant (R452). -/
def mgmtOk (c : CmdSlot) (t : Tenant) : Bool :=
  match c with
  | .ring .west _ => t.par.mgmtW
  | .ring .east _ => t.par.mgmtE
  | .sideband => false

/-- The tenant a command names at an offset of its parameters, which DETAIL gives (R425): BAD_PARAM when it is FREE, NOT_PERMITTED from a port that does not manage it (R452), and under the freeze rule BUSY while it is FREEZING or FROZEN (R462). -/
def withTenantAt (off : Nat) (c : CmdSlot) (n : Nat) (busyRule : Bool) (f : Tenant → Dev → Dev) (d : Dev) : Dev :=
  match d.ten? n with
  | none => finishAt c stBadParam off d
  | some t =>
    if !mgmtOk c t then finishAt c stNotPermitted off d
    else if busyRule && (t.st = .freezing || t.st = .frozen) then finish c stBusy d
    else f t d

/-- A TENANT field at offset 0. -/
def withTenant (c : CmdSlot) (n : Nat) (busyRule : Bool) (f : Tenant → Dev → Dev) (d : Dev) : Dev := withTenantAt 0 c n busyRule f d

/-- QUOTA_EXCEEDED: QUOTA_HIT, and the event when it goes from 0 to 1 (R471). -/
def quotaHit (c : CmdSlot) (n which : Nat) (d : Dev) : Dev :=
  let was := ((d.ten? n).map (·.quotaHit)).getD true
  let d := d.onTen n fun t => { t with quotaHit := true }
  finish c stQuota (if was then d else postEvent n 0x14 n which 0 d)

end Sys2Proof.Machine
end

