-- ==== Sys2Proof/Machine/XltOps.lean ====
section
/-! DEFINITION. Operations of translation (05_translation): free memory and table extents, lookups, the translation caches, faults, cairns and page-request groups. -/

namespace Sys2Proof.Machine

-- Free 2 MiB extents

/-- Sorted insertion of an interval (start, length). -/
def insIv : List (Nat × Nat) → Nat × Nat → List (Nat × Nat)
  | [], x => [x]
  | y :: r, x => if x.1 ≤ y.1 then x :: y :: r else y :: insIv r x

/-- Table extents of every tenant. -/
def tableUnits (d : Dev) : List Nat :=
  d.xlt.tables.flatMap fun (_, t) => t.extents.flatMap fun (_, e) =>
    (e.copies.w.map (·.unit)).toList ++ (e.copies.e.map (·.unit)).toList

/-- Extents of a stack that are not free, as intervals in rising order (R51, R54, R62, R157). -/
def usedIv (d : Dev) (k : Nat) : List (Nat × Nat) :=
  let mine (u len : Nat) : List (Nat × Nat) := if u / 32768 = k then [(u % 32768, len)] else []
  let a := d.mem.allocs.flatMap fun (_, a) => a.runs.flatMap fun r => mine r.unit r.len
  let t := (tableUnits d).flatMap fun u => mine u 1
  let w := ((d.stack k).withheld ++ (d.stack k).freedOffline).map fun e => (e, 1)
  (a ++ t ++ w).foldl insIv []

/-- The gaps between rising intervals from pos up to top. -/
def gaps : List (Nat × Nat) → Nat → Nat → List (Nat × Nat)
  | [], pos, top => if pos < top then [(pos, top - pos)] else []
  | (s, n) :: r, pos, top =>
    (if pos < s then [(pos, s - pos)] else []) ++ gaps r (max pos (s + n)) top

def freeIv (d : Dev) (k : Nat) : List (Nat × Nat) := gaps (usedIv d k) 0 stackUnits

def ivSum (l : List (Nat × Nat)) : Nat := l.foldl (fun n x => n + x.2) 0

/-- Take n extents from the lowest free ones: the runs taken and what is left. -/
def takeIv : List (Nat × Nat) → Nat → List (Nat × Nat) × List (Nat × Nat)
  | [], _ => ([], [])
  | (s, m) :: r, n =>
    if n = 0 then ([], (s, m) :: r)
    else if n < m then ([(s, n)], (s + n, m - n) :: r)
    else let (t, l) := takeIv r (n - m); ((s, m) :: t, l)

/-- A stack that can hold new allocations: not offline, and trained (R50). -/
def stackUsable (d : Dev) (k : Nat) : Bool := (d.stack k).mode ≠ .offline && (d.stack k).mode ≠ .init

-- Tenants' memory

def tabOf (d : Dev) (t : Nat) : PageTables := d.xlt.tables.getD t {}

def onTab (t : Nat) (f : PageTables → PageTables) (d : Dev) : Dev :=
  d.onXlt fun x => { x with tables := x.tables.set t (f (x.tables.getD t {})) }

/-- MEM_USED: units of the tenant's allocations and 2 for each table extent (R157, R470). -/
def memUsed (d : Dev) (t : Nat) : Nat :=
  d.mem.allocs.foldl (fun n (_, a) => if a.tenant = t then n + allocUnits a else n) 0 + 2 * (tabOf d t).extents.length

/-- The tables that a mapping needs, by level and DVA bits above (R156). -/
def tablesOf (m : Mapping) : List (Nat × Nat) :=
  let lo := (m.page - 12) / 9
  (List.range (4 - lo)).flatMap fun i =>
    let l := lo + i
    let a := m.dva / 2 ^ (21 + 9 * l)
    let b := (m.dva + m.len - 1) / 2 ^ (21 + 9 * l)
    (List.range (b - a + 1)).map fun j => (l, a + j)

def tablesHeld (t : PageTables) : List (Nat × Nat) := t.extents.flatMap fun (_, e) => e.places.map Prod.snd

/-- The lowest free place of the extents in rising DPA order (R157). -/
def placeIn (name : Nat × Nat) : Tab TabExtent → Option (Tab TabExtent)
  | [] => none
  | (k, e) :: r =>
    match (List.range 512).find? fun i => (e.places.get? i).isNone with
    | some i => some ((k, { e with places := e.places.set i name }) :: r)
    | none => (placeIn name r).map ((k, e) :: ·)

/-- The first free extent of the lowest-numbered usable stack of a half that has one, as a unit. -/
def tableUnit (d : Dev) (h : Side) : Option Nat :=
  (List.range 16).findSome? fun i =>
    let k := 16 * h.idx + i
    if stackUsable d k then (freeIv d k).head?.map fun (s, _) => dpaUnit k s else none

/-- Place the new tables one by one, taking a new extent in both halves when no place is free: none when a copy cannot be taken (R157, R159). -/
def placeTables (t : Nat) : List (Nat × Nat) → Dev → Option Dev
  | [], d => some d
  | n :: r, d =>
    match placeIn n (tabOf d t).extents with
    | some ex => placeTables t r (onTab t (fun x => { x with extents := ex }) d)
    | none =>
      match tableUnit d .west, tableUnit d .east with
      | some w, some e =>
        let e : TabExtent := ⟨⟨some ⟨w, false, []⟩, some ⟨e, false, []⟩⟩, [(0, n)]⟩
        placeTables t r (onTab t (fun x => { x with extents := x.extents.set w e }) d)
      | _, _ => none

/-- Give up the places of tables that no mapping needs, and the extents that hold none (R157). -/
def dropTables (t : Nat) (d : Dev) : Dev :=
  onTab t (fun x =>
    let need := x.maps.flatMap tablesOf
    let ex := x.extents.map fun (k, e) => (k, { e with places := e.places.filter fun (_, n) => need.contains n })
    { x with extents := ex.filter fun (_, e) => e.places ≠ [] }) d

-- Lookups

/-- Why a translation does not give a place: refused under R155, a page not present, or host translation to be asked for. -/
inductive XErr where
  | access
  | fault (addr : Nat)
  | ats (addr : Nat)
  deriving DecidableEq, Repr

/-- The two forms of a tenant address (R154). -/
def isDva (a : Nat) : Bool := tb a 63

def formOk (d : Dev) (t addr : Nat) : Bool :=
  fld addr 57 6 = 0 &&
  if isDva addr then fld addr 48 9 = 0
  else match d.ten? t with
    | some x => x.par.pasid.isSome
    | none => false

def mapAt (maps : List Mapping) (dva : Nat) : Option Mapping := maps.find? fun m => m.dva ≤ dva && dva < m.dva + m.len

/-- The page of a DVA: mapping, DPA. -/
def pageAt (d : Dev) (t dva : Nat) : Option (Mapping × Nat) :=
  match mapAt (tabOf d t).maps dva with
  | none => none
  | some m => match d.alloc? m.handle with
    | none => none
    | some a => (runDpa a.runs (m.off + (dva - m.dva))).map fun p => (m, p)

def lostAt (d : Dev) (t dva : Nat) : Bool := (tabOf d t).lost.any fun (s, n) => s ≤ dva && dva < s + n

/-- Bytes from an address to the next lost entry above it, at most n (R157). -/
def toLost (d : Dev) (t dva n : Nat) : Nat := (tabOf d t).lost.foldl (fun n (s, _) => if dva < s then min n (s - dva) else n) n

/-- A cached host translation that covers the address. -/
def hostRun (d : Dev) (tile t addr : Nat) : Option RunEntry :=
  (d.tile tile).runs.find? fun e => e.host && e.tenant = t && e.addr ≤ addr && addr < e.addr + e.len

/-- A range translated piece by piece, or the first failure (R155 to R157, R163): each page is checked on its own, also those that run past the top of the address space. -/
def xrangeN (d : Dev) (tile t : Nat) (write : Bool) : Nat → Nat → Nat → Except XErr (List (Place × Nat))
  | 0, _, _ => .ok []
  | fuel + 1, addr, len =>
    if len = 0 then .ok []
    else if !formOk d t addr then .error .access
    else if isDva addr then
      let dva := addr - 2 ^ 63
      if lostAt d t dva then .error .access
      else match pageAt d t dva with
        | none => .error (.fault addr)
        | some (m, dpa) =>
          if (write && !m.write) || (!write && !m.read) then .error .access
          else
            let left := match d.alloc? m.handle with
              | some a => min (m.dva + m.len - dva) (runLeft a.runs (m.off + (dva - m.dva)))
              | none => 0
            let n := toLost d t dva (min len left)
            match xrangeN d tile t write fuel (addr + n) (len - n) with
            | .ok r => .ok ((.dev dpa, n) :: r)
            | .error e => .error e
    else match d.ten? t with
      | none => .error .access
      | some x =>
        let p := x.par.port
        if (d.host.get p).atsEnabled then
          match hostRun d tile t addr with
          | none => .error (.ats addr)
          | some e =>
            if (write && !e.write) || (!write && !e.read) then .error (.fault addr)
            else
              let n := min len (e.addr + e.len - addr)
              match xrangeN d tile t write fuel (addr + n) (len - n) with
              | .ok r => .ok ((.host p none (e.target + (addr - e.addr)), n) :: r)
              | .error e => .error e
        else if 2 ^ 57 < addr + len then .error .access
        else .ok [(.host p x.par.pasid addr, len)]

/-- The pieces of a range; an empty range has none. -/
def xrange (d : Dev) (tile t addr len : Nat) (write : Bool) : Except XErr (List (Place × Nat)) :=
  xrangeN d tile t write (len / 4096 + 2 + (tabOf d t).maps.length + (tabOf d t).lost.length + d.mem.allocs.length) addr len

/-- A place k bytes on. -/
def Place.add : Place → Nat → Place
  | .dev p, k => .dev (p + k)
  | .host s pasid a, k => .host s pasid (a + k)

/-- The first n bytes of places. -/
def takePlaces : Nat → List (Place × Nat) → List (Place × Nat)
  | _, [] => []
  | n, (p, m) :: r => if n = 0 then [] else (p, min n m) :: takePlaces (n - min n m) r

/-- Places after their first n bytes. -/
def dropPlaces : Nat → List (Place × Nat) → List (Place × Nat)
  | _, [] => []
  | n, (p, m) :: r => if n = 0 then (p, m) :: r else if m ≤ n then dropPlaces (n - m) r else (p.add n, m - n) :: r

/-- Device places among places. -/
def devPlaces (l : List (Place × Nat)) : List (Nat × Nat) := l.filterMap fun (p, n) => match p with
  | .dev a => some (a, n)
  | .host _ _ _ => none

/-- A range of device memory as (DPA, length) pieces; a host piece refuses. -/
def devPieces : List (Place × Nat) → Option (List (Nat × Nat))
  | [] => some []
  | (.dev p, n) :: r => (devPieces r).map ((p, n) :: ·)
  | (.host _ _ _, _) :: _ => none

/-- The bytes of device pieces, none where one is poisoned or offline (R58). -/
def readPieces (d : Dev) : List (Nat × Nat) → Option Bytes
  | [] => some []
  | (p, n) :: r => match memRead? d p n, readPieces d r with
    | some a, some b => some (a ++ b)
    | _, _ => none

/-- An access to places wakes their stacks, and comes after the accesses that their base dies hold (R48, R65). -/
def touchPlaces (l : List (Place × Nat)) (d : Dev) : Dev :=
  l.foldl (fun d (p, _) => match p with
    | .dev a => touchStack (dpaStack a) d
    | .host _ _ _ => d) d

def touchRange (tile t addr len : Nat) (write : Bool) (d : Dev) : Dev := touchPlaces ((xrange d tile t addr len write).toOption.getD []) d

/-- Write bytes over device pieces, waking their stacks; stacks offline take nothing. -/
def writePieces : List (Nat × Nat) → Bytes → Dev → Dev
  | [], _, d => d
  | (p, n) :: r, b, d =>
    let d := touchStack (dpaStack p) d
    let d := if stackOffline d (dpaStack p) then d else memWrite p (b.take n) d
    writePieces r (b.drop n) d

/-- A write of device pieces that meets poison in part, or an offline stack. -/
def writeBad (d : Dev) (l : List (Nat × Nat)) : Bool := l.any fun (p, n) => partPoison d p n || stackOffline d (dpaStack p)

/-- Write bytes at tenant-address pieces, host pieces as posted writes, relaxed or not (R381). -/
def putPieces (relax : Bool) : List (Place × Nat) → Bytes → Dev → Dev
  | [], _, d => d
  | (.dev p, n) :: r, b, d => putPieces relax r (b.drop n) (writePieces [(p, n)] (b.take n) d)
  | (.host s pasid a, n) :: r, b, d => putPieces relax r (b.drop n) (hostPut relax s pasid a (b.take n) d)

/-- A request of tile o can reach a place, and its answer has a way back (R12, R18, R21, R31, R387); a stack that is offline answers at once (R66). -/
def placeOpen (d : Dev) (o : Nat) : Place → Bool
  | .dev a => stackOffline d (dpaStack a) || stackOpen d o (dpaStack a)
  | .host p _ _ => hostReady d p o

def placesOpen (d : Dev) (o : Nat) (l : List (Place × Nat)) : Bool := l.all fun (p, _) => placeOpen d o p

-- The translation caches

/-- Engine number of R167. -/
def engineOf : Waiter → Nat
  | .sqFetch _ => 0
  | .rqFetch _ => 0
  | .entry _ _ => 1
  | .op _ => 2
  | .rope _ => 3
  | .cqWrite _ => 4

/-- The run of pages from one that continue it in DPA with its size and rights, within one table (R156, R161). -/
def runPages (d : Dev) (t : Nat) (m : Mapping) (dpa : Nat) : Nat → Nat → Nat → Nat
  | 0, _, n => n
  | fuel + 1, dva, n =>
    let sz := 2 ^ m.page
    let next := dva + n * sz
    if next / (512 * sz) ≠ dva / (512 * sz) then n
    else match pageAt d t next with
      | some (m', p) => if p = dpa + n * sz && m'.page = m.page && m'.read = m.read && m'.write = m.write
          then runPages d t m dpa fuel dva (n + 1) else n
      | none => n

/-- The run entry that a walk of a page makes (R161). -/
def walkRun (d : Dev) (t dva : Nat) : Option RunEntry :=
  match pageAt d t dva with
  | none => none
  | some (m, dpa) =>
    let sz := 2 ^ m.page
    let base := dva / sz * sz
    let dp := dpa - (dva - base)
    some ⟨t, base + 2 ^ 63, runPages d t m dp 511 base 1 * sz, dp, false, m.read, m.write⟩

/-- The set, of 512 of 8 ways, that a run entry falls in (R160: 4,096 entries; log 9). -/
def runSet (e : RunEntry) : Nat := Config.runCacheSet e.tenant e.addr % 512

/-- Drop the least recently used of the entry's set when it holds more than 8 (R160, log 9). -/
def trimSet (l : List RunEntry) : List RunEntry :=
  match l with
  | [] => []
  | e :: r =>
    if l.length ≤ 8 then l
    else
      let same (x : RunEntry) : Bool := runSet x = runSet e
      if (r.filter same).length ≤ 7 then l
      else match (r.filter same).getLast? with
        | some x => e :: r.erase x
        | none => l

/-- At most 1,024 host entries (R160). -/
def trimHost (l : List RunEntry) : List RunEntry :=
  match (l.filter (·.host)).drop 1024 with
  | [] => l
  | x :: _ => l.erase x

def addRun (tile : Nat) (e : RunEntry) (d : Dev) : Dev :=
  d.onTile tile fun t => { t with runs := trimHost (trimSet (e :: t.runs.erase e)) }

/-- Upper-level entries read by a walk: levels 3 and 2 of the address, 512 in all (R160). -/
def addUpper (tile t dva : Nat) (d : Dev) : Dev :=
  d.onTile tile fun x =>
    let n := [(t, 3, dva / 2 ^ 39), (t, 2, dva / 2 ^ 30)]
    { x with upper := (n ++ x.upper.filter fun u => !n.contains u).take 512 }

/-- A stream becomes tracked when it translates: 256 of them; the least recent is dropped, and its prefetch walks that have not begun with it (R162). -/
def trackStream (tile : Nat) (s : Stream) (d : Dev) : Dev :=
  d.onTile tile fun x =>
    let l := s :: x.streams.erase s
    { x with streams := l.take 256, prefetch := x.prefetch.filter fun p => !(l.drop 256).contains p.stream }

/-- The run entry that covers an address. -/
def runAt (d : Dev) (tile t addr : Nat) : Option RunEntry :=
  (d.tile tile).runs.find? fun e => e.tenant = t && e.addr ≤ addr && addr < e.addr + e.len

/-- Whose stream it is. -/
def streamWho : Stream → Waiter
  | .work w _ => w
  | .calls k => .rope k
  | .placing n _ => .rqFetch n

/-- Ask the host for a translation (R163), for a stream's access or its prefetch. -/
def sendAts (tile t addr : Nat) (who : Waiting) (rec : Option Nat) (ahead : Option (Stream × Nat)) (d : Dev) : Dev :=
  match d.ten? t with
  | none => d
  | some x =>
    let p := x.par.port
    let tag := d.xlt.nextAts
    let go := hostReady d p tile
    let d := d.onXlt fun q => { q with nextAts := tag + 1, ats := q.ats.set tag ⟨p, t, addr, who.write, { who with tile := tile }, rec, ahead, go, now d⟩ }
    if go then emit (.ats p (x.par.pasid.getD 0) addr tag) d else heldNote p (.ats tag) d

def askAts (tile t addr : Nat) (write : Bool) (w : Waiter) (rec : Option Nat) (d : Dev) : Dev :=
  sendAts tile t addr ⟨w, tile, addr, write⟩ rec none d

/-- The host translates for the tenant's port (R163). -/
def atsOn (d : Dev) (t : Nat) : Bool :=
  match d.ten? t with
  | some x => (d.host.get x.par.port).atsEnabled
  | none => false

/-- The prefetch walk for the address just past a run entry starts (R162): of device tables it waits to begin, of the host it is a request at once. Past an entry the cache holds, the next one is fetched, up to two ahead of the stream. -/
def prefetchFrom (tile t : Nat) (s : Stream) : Nat → Nat → Dev → Dev
  | 0, _, d => d
  | left + 1, addr, d =>
    match runAt d tile t addr with
    | some e => prefetchFrom tile t s left (e.addr + e.len) d
    | none =>
      if !formOk d t addr then d
      else if isDva addr then
        let p : Prefetch := ⟨s, t, addr, 2 - left⟩
        d.onTile tile fun x => { x with prefetch := x.prefetch.filter (fun q => !(q.stream = s && q.tenant = t && q.addr = addr)) ++ [p] }
      else if atsOn d t && !(d.xlt.ats.any fun (_, a) => a.tenant = t && a.addr = addr && a.prefetch.isSome) then
        sendAts tile t addr ⟨streamWho s, tile, addr, false⟩ none (some (s, 2 - left)) d
      else d

/-- The stacks that a walk of a DVA reads: for each table on its way, that of the copy in the tile's half, or of the other where that one is lost or being rebuilt (R157). -/
def walkStacks (d : Dev) (tile t dva : Nat) : List Nat :=
  ((tabOf d t).extents.filterMap fun (_, e) =>
    if e.places.any fun (_, l, a) => a = dva / 2 ^ (21 + 9 * l) then
      match e.copies.get (tileHalf tile), e.copies.get (tileHalf tile).other with
      | some c, o => match c.rebuilding, o with
        | true, some x => some (x.unit / 32768)
        | _, _ => some (c.unit / 32768)
      | none, o => o.map fun c => c.unit / 32768
    else none).dedup

/-- A lookup of an address: a hit, or a walk and a new run entry (R160, R161). The address past the entry; none where no entry covers it. -/
def lookupRun (tile t addr : Nat) (d : Dev) : Option Nat × Dev :=
  let d := count 0x0800 tile (some t) 1 d
  match runAt d tile t addr with
  | some e => (some (e.addr + e.len), count 0x0801 tile (some t) 1 (addRun tile e d))
  | none =>
    if isDva addr then
      let dva := addr - 2 ^ 63
      let d := (walkStacks d tile t dva).foldl (fun d k => touchStack k d) (count 0x0802 tile (some t) 1 (addUpper tile t dva d))
      match walkRun d t dva with
      | some e => (some (e.addr + e.len), addRun tile e d)
      | none => (none, d)
    else (none, d)

/-- A stream enters the run entry of an address: it is tracked, and its prefetches start (R162). -/
def enterRun (tile t addr : Nat) (s : Stream) (d : Dev) : Option Nat × Dev :=
  match lookupRun tile t addr (trackStream tile s d) with
  | (some next, d) => (some next, prefetchFrom tile t s 2 next d)
  | (none, d) => (none, d)

/-- The stream is tracked for prefetch (R162). -/
def tracked (d : Dev) (tile : Nat) (s : Stream) : Bool := (d.tile tile).streams.contains s

/-- The stream of a waiter's access, none for the write of a completion (R162). -/
def streamFor (w : Waiter) (write : Bool) : Option Stream :=
  match w with
  | .cqWrite _ => none
  | w => some (.work w write)

/-- A stream passes over a range: it enters each run entry in turn (R160 to R162). -/
def streamOver (tile t : Nat) (s : Stream) : Nat → Nat → Nat → Dev → Dev
  | 0, _, _, d => d
  | fuel + 1, addr, len, d =>
    match enterRun tile t addr s d with
    | (some next, d) => if next < addr + len then streamOver tile t s fuel next (addr + len - next) d else d
    | (none, d) => d

def lookupRange (tile t addr len : Nat) (s : Stream) (d : Dev) : Dev := streamOver tile t s (len / 4096 + 2) addr len d

/-- A lookup of one address for an access that waits as w. -/
def lookup (tile t addr : Nat) (w : Waiter) (write : Bool) (d : Dev) : Dev :=
  match streamFor w write with
  | some s => (enterRun tile t addr s d).2
  | none => (lookupRun tile t addr d).2

-- Faults and cairns

def cairnSlots (x : XltPort) : Nat := 2 ^ (max 4 x.sizeLog2.toNat)

def recBytes (r : FaultRec) (id : Nat) : Bytes :=
  toLE 8 (r.page * 4096) ++ toLE 8 r.engines.toNat ++ toLE 2 r.tenant ++ toLE 1 (b2n r.read + 2 * b2n r.write)
    ++ toLE 1 (if r.again then 2 else 1) ++ toLE 4 r.waiters.length ++ toLE 4 id ++ zpad 4

/-- A cairn can be posted: its ring has a slot, its port can issue, and a control die leads (R165, R168, R387). -/
def cairnRoom (d : Dev) (p : Side) : Bool :=
  let x := d.xlt.ports.get p
  x.enable && ringSub (cairnSlots x) x.prod.toNat x.cons.toNat < cairnSlots x && canIssue d p && (leader d).isSome

/-- Write a cairn into its ring: records, then header; then the message (R166). -/
def cairnWrite (p : Side) (c : Cairn) (d : Dev) : Dev :=
  let x := d.xlt.ports.get p
  let s := cairnSlots x
  let slot := x.base.toNat + x.prod.toNat % s * 2048
  let recs := c.recs.filterMap fun i => (d.xlt.recs.get? i).map fun r => recBytes r i
  if recs = [] then d
  else
    let head := toLE 4 c.id ++ toLE 1 recs.length ++ toLE 1 (b2n (phaseOf s x.prod.toNat) + 2 * b2n c.timed)
      ++ zpad 2 ++ toLE 8 c.time.toNat ++ zpad 48
    let d := hostWrite p none (slot + 0x40) recs.flatten d
    let d := hostWrite p none slot head d
    let d := d.onXlt fun q => { q with recs := q.recs.map fun (i, r) => (i, if c.recs.contains i then { r with state := .posted } else r) }
    let d := d.onXPort p fun q => { q with prod := BitVec.ofNat 16 (ringAdd s q.prod.toNat 1) }
    msix p x.vector.toNat d

/-- Post the open cairn of a port: into the ring, or held in arrival order (R165, R168). -/
def postCairn (p : Side) (timed : Bool) (d : Dev) : Dev :=
  match (d.xlt.ports.get p).opened with
  | none => d
  | some c =>
    let c := { c with timed := timed }
    let tile := (c.recs.head?.bind fun i => (d.xlt.recs.get? i).bind fun r => r.waiters.head?.map (·.tile)).getD 0
    let d := count 0x0805 tile none 1 (d.onXPort p fun x => { x with opened := none })
    if (d.xlt.ports.get p).held = [] && cairnRoom d p then cairnWrite p c d
    else
      let d := d.onXlt fun q => { q with recs := q.recs.map fun (i, r) => (i, if c.recs.contains i then { r with state := .held } else r) }
      heldNote p .cairn (d.onXPort p fun x => { x with held := x.held ++ [c] })

def cairnDrain1 (p : Side) (d : Dev) : Dev :=
  match (d.xlt.ports.get p).held with
  | [] => d
  | c :: r => if cairnRoom d p then cairnWrite p c (d.onXPort p fun x => { x with held := r }) else d

/-- Held cairns enter the ring as slots are free (R168). -/
def cairnDrain (p : Side) (d : Dev) : Dev := iter (cairnDrain1 p) 256 d

/-- Page requests that the host has not answered (R171). -/
def priOut (x : XltPort) : Nat :=
  (x.groups.filter (·.sent)).foldl (fun n g => n + g.requests) 0 + x.deadGroups.foldl (fun n (_, k) => n + k) 0

/-- Send a gathered group that the allocation allows: each request with its tenant's PASID, page and access (R171). -/
def priSend (p : Side) (d : Dev) : Dev :=
  (d.xlt.ports.get p).groups.foldl (fun d g =>
    if !g.sent && priOut (d.xlt.ports.get p) + g.recs.length ≤ (d.host.get p).priAlloc && canIssue d p then
      let pages := g.recs.filterMap fun i => (d.xlt.recs.get? i).map fun r =>
        (((d.ten? r.tenant).bind (·.par.pasid)).getD 0, r.page * 4096, b2n r.read + 2 * b2n r.write)
      emit (.priGroup p g.index pages) (d.onXPort p fun x =>
        { x with groups := x.groups.map fun h => if h.index = g.index then { h with sent := true, requests := g.recs.length } else h })
    else d) d

/-- A gathered cairn of host faults leaves as one page-request group (R171). -/
def postPri (p : Side) (d : Dev) : Dev :=
  let x := d.xlt.ports.get p
  if x.hostOpen = [] then d
  else
    let used := x.groups.map (·.index) ++ x.deadGroups.map Prod.fst
    let idx := ((List.range 512).find? fun i => !used.contains i).getD 0
    let tile := (x.hostOpen.head?.bind fun i => (d.xlt.recs.get? i).bind fun r => r.waiters.head?.map (·.tile)).getD 0
    let d := count 0x0806 tile none 1 d
    let d := d.onXlt fun q => { q with recs := q.recs.map fun (i, r) => (i, if x.hostOpen.contains i then { r with state := .posted } else r) }
    priSend p (heldNote p .pages (d.onXPort p fun x => { x with groups := x.groups ++ [{ index := idx, recs := x.hostOpen, sent := false }], hostOpen := [] }))

/-- Put an unreported record into its port's open cairn or host group; post at 32 records (R165, R171). False: a 257th held cairn would be needed (R168). -/
def gather (id : Nat) (d : Dev) : Bool × Dev :=
  match d.xlt.recs.get? id with
  | none => (true, d)
  | some r =>
    let p := r.port
    let setOpen (d : Dev) : Dev := d.onXlt fun q => { q with recs := q.recs.upd id fun r => { r with state := .opened } }
    if r.host then
      let d := setOpen (d.onXPort p fun x => { x with hostOpen := x.hostOpen ++ [id] })
      (true, if 32 ≤ (d.xlt.ports.get p).hostOpen.length then postPri p d else d)
    else match (d.xlt.ports.get p).opened with
      | some _ =>
        let d := setOpen (d.onXPort p fun x => { x with opened := x.opened.map fun c => { c with recs := c.recs ++ [id] } })
        let n : Nat := ((d.xlt.ports.get p).opened.map fun c => c.recs.length).getD 0
        (true, if 32 ≤ n then postCairn p false d else d)
      | none =>
        if 256 ≤ (d.xlt.ports.get p).held.length then
          (false, d.onXPort p fun x => { x with overflowed := true })
        else
          let c : Cairn := { id := d.xlt.nextCairn, recs := [id], time := d.pwr.tsc }
          let d := d.onXlt fun q => { q with nextCairn := q.nextCairn + 1 }
          (true, setOpen (d.onXPort p fun x => { x with opened := some c }))

def engineBit (tile : Nat) (w : Waiter) : BitVec 64 := BitVec.ofNat 64 (2 ^ (5 * tile + engineOf w))

/-- A stream meets a fault (R164, R165, R171): it joins the record of its page or opens one. A record of a held cairn is joined too, and takes the engine, the access and the waiter until its cairn is written (log 106). False: the fault completes FAULT_UNRESOLVED at once (R168, R171). -/
def raiseFault (tile t addr : Nat) (write again : Bool) (w : Waiter) (d : Dev) : Bool × Dev :=
  match d.ten? t with
  | none => (false, d)
  | some x =>
    let host := !isDva addr
    let page := addr / 4096
    let d := tenCount t 7 1 (count 0x0804 tile (some t) 1 d)
    let me : Waiting := ⟨w, tile, addr, write⟩
    if host && (d.xlt.ports.get x.par.port).priStopped then (false, d)
    else
      let hit := d.xlt.recs.find? fun (_, r) => r.tenant = t && r.page = page && r.host = host
      match hit with
      | some (id, _) =>
        (true, d.onXlt fun q => { q with recs := q.recs.upd id fun r =>
          { r with
            waiters := r.waiters ++ [me]
            engines := r.engines ||| engineBit tile w
            read := r.read || !write
            write := r.write || write } })
      | none =>
        let id := d.xlt.nextRec
        let r : FaultRec :=
          { port := x.par.port, tenant := t, page := page, host := host, engines := engineBit tile w,
            read := !write, write := write, again := again, waiters := [me], first := d.pwr.tsc, state := .unreported }
        let d := d.onXlt fun q => { q with nextRec := id + 1, recs := q.recs.set id r }
        if (leader d).isNone then (true, d)
        else match gather id d with
          | (true, d) => (true, d)
          | (false, d) => (false, d.onXlt fun q => { q with recs := q.recs.erase id })

/-- What a stream does with a failed translation: refused, or it waits, or it ends FAULT_UNRESOLVED. -/
inductive Stall where
  | refused
  | waits
  | unresolved
  deriving DecidableEq, Repr

/-- A failed translation of a stream: the lookup that failed is one (R160, R162), and the stream waits, or its access ends. -/
def stallOn (tile t : Nat) (write : Bool) (w : Waiter) (e : XErr) (d : Dev) : Stall × Dev :=
  match e with
  | .access => (.refused, d)
  | .fault a => match raiseFault tile t a write false w (lookup tile t a w write d) with
    | (true, d) => (.waits, d)
    | (false, d) => (.unresolved, d)
  | .ats a => (.waits, askAts tile t a write w none (lookup tile t a w write d))

end Sys2Proof.Machine
end

