-- ==== Sys2Proof/Machine/NetOps.lean ====
section
/-! DEFINITION. Sending: packet bytes and CRC-32C (R236 to R248), node table and routing (R322 to R328), egress queues (R276 to R278). -/

namespace Sys2Proof.Machine

-- Packet types (R241)
def ptWrite : BitVec 8 := 0x01#8
def ptReadReq : BitVec 8 := 0x02#8
def ptReadResp : BitVec 8 := 0x03#8
def ptSend : BitVec 8 := 0x04#8
def ptAtomicReq : BitVec 8 := 0x05#8
def ptAtomicResp : BitVec 8 := 0x06#8
def ptOperateReq : BitVec 8 := 0x07#8
def ptOperateResp : BitVec 8 := 0x08#8
def ptAck : BitVec 8 := 0x10#8
def ptNak : BitVec 8 := 0x11#8
def ptProbe : BitVec 8 := 0x12#8
def ptDisconnect : BitVec 8 := 0x13#8

/-- The class of a packet type (R241, R319): 0 REQ, 1 RSP, 2 COL. -/
def ptClass (t : BitVec 8) : Nat :=
  if t = ptWrite || t = ptReadReq || t = ptSend || t = ptAtomicReq || t = ptOperateReq then 0
  else if t.toNat / 16 = 2 then 2 else 1

/-- The class of a packet type inside the package (R20). -/
def pktClass (t : BitVec 8) : QClass := if ptClass t = 0 then .req else if ptClass t = 1 then .rsp else .col

def isCtl (t : BitVec 8) : Bool := t = ptAck || t = ptNak || t = ptProbe || t = ptDisconnect

/-- CRC-32C of R248: one bit step of the reflected polynomial. -/
def crcBit (c : BitVec 32) : BitVec 32 := if c &&& 1#32 = 1#32 then (c >>> 1) ^^^ 0x82F63B78#32 else c >>> 1

def crcByte (c : BitVec 32) (b : Byte) : BitVec 32 := iter crcBit 8 (c ^^^ b.setWidth 32)

def crc32c (b : Bytes) : BitVec 32 := ~~~(b.foldl crcByte 0xFFFFFFFF#32)

/-- The 32 bytes of the base header (R239). -/
def headerBytes (t : BitVec 8) (p : Pkt) : Bytes :=
  [p.ver, t, p.pflags, p.path] ++ toBE 2 p.dstNode.toNat ++ toBE 2 p.srcNode.toNat ++ toBE 4 p.dstQpn.toNat
    ++ toBE 4 p.srcQpn.toNat ++ toBE 4 p.psn.toNat ++ toBE 4 p.msn.toNat ++ toBE 4 p.msgOffset.toNat ++ toBE 4 p.txTime.toNat

/-- The bytes a trailer covers without AUTH (R248). -/
def coveredBytes (t : BitVec 8) (p : Pkt) : Bytes := headerBytes t p ++ p.ext ++ p.payload

def withCrc (t : BitVec 8) (p : Pkt) : Pkt := { p with trailer := toLE 4 (crc32c (coveredBytes t p)).toNat }

/-- Frame length from destination MAC to FCS (R236). -/
def frameLen (p : Pkt) : Nat :=
  14 + (if p.tagged then 4 else 0) + (if p.ipv6 then 40 else 20) + 8 + 32 + p.ext.length + p.payload.length + p.trailer.length + 4

-- PFLAGS bits (R240)
def pfFirst : Nat := 7
def pfLast : Nat := 6
def pfImm : Nat := 5
def pfAckReq : Nat := 4
def pfRetx : Nat := 3
def pfAuth : Nat := 2
def pflag (p : Pkt) (i : Nat) : Bool := tb p.pflags.toNat i
def mkFlags (first last imm ack retx auth : Bool) : BitVec 8 :=
  BitVec.ofNat 8 (128 * b2n first + 64 * b2n last + 32 * b2n imm + 16 * b2n ack + 8 * b2n retx + 4 * b2n auth)

-- Nodes and routes

def isTorus (n : BitVec 16) : Bool := tb n.toNat 15
def flatIndex (n : BitVec 16) : Nat := n.toNat % 4096
/-- A valid identifier (R322, R323). -/
def nodeOk (d : Dev) (n : BitVec 16) : Bool :=
  if isTorus n then
    let (x, y, z) := d.net.torus
    fld n.toNat 10 5 < x && fld n.toNat 5 5 < y && fld n.toNat 0 5 < z
  else n ≠ 0#16 && fld n.toNat 12 3 = 0

/-- The form of an identifier alone (R322). -/
def nodeForm (n : Nat) : Bool := n ≠ 0 && (tb n 15 || fld n 12 3 = 0)

/-- The tile's copy of a node-table entry, when VALID (R324). -/
def nodeEntry (d : Dev) (tile : Nat) (n : BitVec 16) : Option Bytes :=
  match (nth d.net.tileNodes tile []).get? (flatIndex n) with
  | some e => if tb (u8 e 0) 0 then some e else none
  | none => none

/-- A port in an Ethernet mode (R311). -/
def isEth (p : NetPort) : Bool := p.ent.mode = .dr8 || p.ent.mode = .splitDr4

/-- A port that carries frames. -/
def portUp (d : Dev) (p : Nat) : Bool := (d.port p).st = .up || (d.port p).st = .stepping || (d.port p).st = .sleep

/-- Coordinate of a torus identifier in dimension 0 X, 1 Y, 2 Z. -/
def coord (n : BitVec 16) (dim : Nat) : Nat := fld n.toNat (10 - 5 * dim) 5
def dimSize (d : Dev) (dim : Nat) : Nat :=
  let (x, y, z) := d.net.torus
  if dim = 0 then x else if dim = 1 then y else z

/-- Direction 2 k for + and 2 k + 1 for - in dimension k; none at the target (R327). -/
def nextDir (d : Dev) (me n : BitVec 16) (entropy : Nat) : Option Nat :=
  (List.range 3).findSome? fun k =>
    let sz := dimSize d k
    let dd := (coord n k + sz - coord me k) % sz
    if sz ≤ 1 || dd = 0 then none
    else if dd < sz - dd then some (2 * k)
    else if dd > sz - dd then some (2 * k + 1)
    else some (if tb entropy k then 2 * k + 1 else 2 * k)

/-- The hop crosses the dateline of its dimension (R327). -/
def crosses (d : Dev) (me : BitVec 16) (dir : Nat) : Bool :=
  let c := coord me (dir / 2)
  if dir % 2 = 0 then c + 1 = dimSize d (dir / 2) else c = 0

/-- UP ports that the record assigns to a direction. -/
def dirPorts (d : Dev) (dir : Nat) : List Nat :=
  (List.range 16).filter fun p => (d.port p).ent.dir = some dir && (d.port p).ent.mode = .direct && portUp d p

/-- The channel of a frame on its first hop: class and dateline class (R319, R327). -/
def channelOf (cls : Nat) (dateline : Bool) : Nat := 2 * cls + b2n dateline

def mostCredits (d : Dev) (ch : Nat) (l : List Nat) : Option Nat :=
  l.foldl (fun b p => match b with
    | none => some p
    | some q => if nth (d.port q).link.credits ch 0 < nth (d.port p).link.credits ch 0 then some p else some q) none

/-- The port a packet leaves on, none while it has no route (R326 to R328). -/
def routePort (d : Dev) (tile : Nat) (node : BitVec 16) (entropy egress cls : Nat) : Option Nat :=
  if isTorus node then
    match nextDir d d.net.nodeId node entropy with
    | none => none
    | some dir =>
      let l := dirPorts d dir
      if egress < 16 && (d.port egress).ent.dir = some dir && (d.port egress).ent.mode = .direct then
        if portUp d egress then some egress else none
      else if cls = 2 then (if l = [] then none else some (nth l (entropy % l.length) 0))
      else mostCredits d (channelOf cls (crosses d d.net.nodeId dir)) l
  else
    match nodeEntry d tile node with
    | none => none
    | some e =>
      if egress < 16 then (if portUp d egress then some egress else none)
      else
        let l := (bitsOf 16 (u16 e 2)).filter (portUp d)
        if l = [] then none else some (nth l (entropy % l.length) 0)

/-- EGRESS that R328 ignores: neither 0xFF nor a port of the first hop's direction. -/
def egressIgnored (d : Dev) (node : BitVec 16) (entropy egress : Nat) : Bool :=
  isTorus node && egress < 16 &&
    match nextDir d d.net.nodeId node entropy with
    | some dir => !((d.port egress).ent.dir = some dir && (d.port egress).ent.mode = .direct)
    | none => true

-- The Lamold record (R554, R555)

/-- Body offset and length of a section, walking at most n sections from an offset. -/
def findSection (b : Bytes) (t : Nat) : Nat → Nat → Option (Nat × Nat)
  | 0, _ => none
  | n + 1, off => if u16 b off = t then some (off + 8, u32 b (off + 4)) else findSection b t n (off + 8 + u32 b (off + 4))

/-- The body of a section of a record. -/
def recSection (b : Bytes) (t : Nat) : Option Bytes := (findSection b t (u16 b 6) 0x140).map fun (o, n) => slice b o n

/-- The DEVICE body of the record in force; zeros without one. -/
def devBody (d : Dev) : Bytes := (d.svc.record.bind fun r => recSection r 1).getD (zpad 64)

/-- A torus node is reached over IPv4 when the record gives a /17 prefix, and over IPv6 otherwise (R323; log 49). -/
def torusV6 (d : Dev) : Bool := zeros (devBody d) 0x0C 4

/-- Outer header facts of a packet to a node: IPv6, tag (R237, R324). -/
def withOuter (d : Dev) (tile : Nat) (p : Pkt) : Pkt :=
  if isTorus p.dstNode then { p with ipv6 := torusV6 d, tagged := false }
  else match nodeEntry d tile p.dstNode with
    | some e => { p with ipv6 := tb (u8 e 0) 1, tagged := tb (u8 e 0) 2 }
    | none => p

-- Frames as bytes (R236, R237)

/-- n bytes from an offset, most significant first (R3). -/
def bx (b : Bytes) (off n : Nat) : Nat := beN (slice b off n)

/-- One bit step of the reflected CRC-32 of IEEE 802.3. -/
def fcsBit (c : BitVec 32) : BitVec 32 := if c &&& 1#32 = 1#32 then (c >>> 1) ^^^ 0xEDB88320#32 else c >>> 1

def fcsByte (c : BitVec 32) (b : Byte) : BitVec 32 := iter fcsBit 8 (c ^^^ b.setWidth 32)

def fcs32 (b : Bytes) : BitVec 32 := ~~~(b.foldl fcsByte 0xFFFFFFFF#32)

/-- A frame closed by its FCS. -/
def withFcs (b : Bytes) : Bytes := b ++ toLE 4 (fcs32 b).toNat

/-- Sum of 16-bit big-endian words. -/
def sumWords : Bytes → Nat
  | a :: b :: r => 256 * a.toNat + b.toNat + sumWords r
  | [a] => 256 * a.toNat
  | [] => 0

def foldSum (n : Nat) : Nat := n % 65536 + n / 65536

/-- The ones' complement checksum of IP and UDP headers. -/
def checksum (b : Bytes) : Nat := 65535 - foldSum (foldSum (foldSum (sumWords b)))

/-- The IPv4 address of a torus node: the /17 prefix and the low 15 bits (R323). -/
def torusIp4 (d : Dev) (n : BitVec 16) : Bytes :=
  toBE 4 (bx (devBody d) 0x0C 4 / 2 ^ 15 * 2 ^ 15 + n.toNat % 2 ^ 15)

/-- The IPv6 address of a torus node: the prefix with the identifier in its low 16 bits (R323). -/
def torusIp6 (d : Dev) (n : BitVec 16) : Bytes := slice (devBody d) 0x10 14 ++ toBE 2 n.toNat

/-- DSCP of a packet type (R237, R555). -/
def dscpOf (d : Dev) (t : BitVec 8) : Nat :=
  let x := u8 (devBody d) (0x20 + ptClass t)
  if tb x 7 then x % 64 else 0

/-- The sub-link of SPLIT_DR4 by bit 13 of ENTROPY, or the other when that one is down (R313): 1 for B. -/
def subLinkOf (p : NetPort) (bit : Bool) : Nat :=
  if p.ent.mode ≠ .splitDr4 then 0
  else if bit then (if p.sublinkB then 1 else 0)
  else if p.sublinkA then 0 else 1

/-- The node-table entry of a flat receiver, as the sending tile holds it (R324); zeros for a torus node. -/
def nodeOf (d : Dev) (tile : Nat) (p : Pkt) : Bytes :=
  if isTorus p.dstNode then zpad 32 else (nodeEntry d tile p.dstNode).getD (zpad 32)

/-- The Ethernet, IP and UDP headers of a packet that leaves by a port (R236, R237, R323, R324). The port's own addresses are those of the sub-link it leaves on (R312). -/
def outerBytes (d : Dev) (tile port : Nat) (t : BitVec 8) (p : Pkt) : Bytes :=
  let pkt := coveredBytes t p ++ p.trailer
  let np := d.port port
  let sub := subLinkOf np (tb p.entropy.toNat 13)
  let e := nodeOf d tile p
  let torus := isTorus p.dstNode
  let me := isTorus d.net.nodeId && np.ent.mode = .direct
  let udpLen := 8 + pkt.length
  let udp (sum : Nat) : Bytes := toBE 2 (0xC000 + p.entropy.toNat) ++ toBE 2 d.net.udpPort.toNat ++ toBE 2 udpLen ++ toBE 2 sum
  let dmac := if np.ent.mode = .direct then [0x02#8, 0#8, 0#8, 0#8] ++ toBE 2 p.dstNode.toNat else slice e 6 6
  let tag := if p.tagged then toBE 2 0x8100 ++ toBE 2 (u16 e 4) else []
  let ip :=
    if p.ipv6 then
      let src := if me then torusIp6 d d.net.nodeId else slice np.ent.ipv6 (16 * sub) 16
      let dst := if torus then torusIp6 d p.dstNode else slice e 0x10 16
      let sum := checksum (src ++ dst ++ toBE 4 udpLen ++ [0#8, 0#8, 0#8, 17#8] ++ udp 0 ++ pkt)
      toBE 2 0x86DD ++ toBE 4 (6 * 2 ^ 28 + dscpOf d t * 2 ^ 22 + p.entropy.toNat) ++ toBE 2 udpLen ++ [17#8, 64#8] ++ src ++ dst
        ++ udp (if sum = 0 then 65535 else sum)
    else
      let src := if me then torusIp4 d d.net.nodeId else slice np.ent.ipv4 (4 * sub) 4
      let dst := if torus then torusIp4 d p.dstNode else slice e 0x1C 4
      let h (sum : Nat) : Bytes := [0x45#8, BitVec.ofNat 8 (dscpOf d t * 4)] ++ toBE 2 (20 + udpLen) ++ toBE 2 0 ++ toBE 2 0x4000
        ++ [64#8, 17#8] ++ toBE 2 sum ++ src ++ dst
      toBE 2 0x0800 ++ h (checksum (h 0)) ++ udp 0
  dmac ++ slice np.ent.mac (6 * sub) 6 ++ tag ++ ip

/-- A frame from destination MAC to FCS; a link-management message has no headers (R236, R337). -/
def frameBytes (f : Frame) : Bytes :=
  match f.kind with
  | .pkt t p _ _ => withFcs (f.outer ++ coveredBytes t p ++ p.trailer)
  | .arp b => b
  | .neighbour b => b
  | .transit b => b
  | .mgt m => m

-- Egress queues

def egressCap : Nat := 262144

def eqDepth (q : EgressQ) : Nat := q.frames.foldl (fun n f => n + f.len) 0

def eqOf (d : Dev) (p k : Nat) : EgressQ := nth (d.port p).queues k {}

/-- What waits for room in EQ6 or EQ7 of a port (R18, R277). -/
def heldOf (p : NetPort) (k : Nat) : List Frame := if k = 7 then p.held7 else if k = 6 then p.held6 else []
def setHeld (p : NetPort) (k : Nat) (l : List Frame) : NetPort := if k = 7 then { p with held7 := l } else { p with held6 := l }

/-- Room for a frame, and none waits before it (R277). -/
def eqRoom (d : Dev) (p k len : Nat) : Bool := heldOf (d.port p) k = [] && eqDepth (eqOf d p k) + len ≤ egressCap

/-- The egress queue of a packet type for a tenant (R276). -/
def eqIndex (t : BitVec 8) (ten : Option Tenant) : Nat :=
  if isCtl t then 7 else if ptClass t = 2 then 6 else ((ten.map (·.egress)).getD 0)

/-- A pending ACK of the same queue pair, or a pending ROPE_ACK of the same hop, which a newer one replaces (R277, R365). -/
def sameAck (a b : FrameKind) : Bool :=
  match a, b with
  | .pkt t p q _, .pkt t' p' q' _ =>
    (t = ptAck && t' = ptAck && q = q' && q.isSome)
      || (t = 0x22#8 && t' = 0x22#8 && p.srcQpn = p'.srcQpn && p.dstQpn = p'.dstQpn && p.dstNode = p'.dstNode)
  | _, _ => false

/-- A NAK of the queue pair whose ACK b is (R259). -/
def nakOf (a b : FrameKind) : Bool :=
  match a, b with
  | .pkt t _ q _, .pkt t' _ q' _ => t = ptNak && t' = ptAck && q = q' && q.isSome
  | _, _ => false

/-- A frame enters the egress queue (R278, R304). -/
def putFrame (f : Frame) (q : EgressQ) : EgressQ :=
  let q := { q with frames := q.frames ++ [f] }
  { q with maxDepth := max q.maxDepth (eqDepth q) }

/-- A frame enters an egress queue of a port (R276 to R278, R304). -/
def enqueue (p k : Nat) (f : Frame) (d : Dev) : Dev := d.onPort p fun np => { np with queues := modAt np.queues k (putFrame f) }

/-- The newer ACK in the place of the pending one; none where there is none, or where a NAK of its queue pair stands behind it, which must not be overtaken (R259, R277). -/
def replaceAck (f : Frame) : List Frame → Option (List Frame)
  | [] => none
  | g :: r =>
    if sameAck g.kind f.kind then (if r.any fun x => nakOf x.kind f.kind then none else some (f :: r))
    else (replaceAck f r).map (g :: ·)

/-- The path of a NAK UNCORRECTABLE of queue pair n that has not left its port's queue: the ACK that follows it takes the same (R259). -/
def nakPath (d : Dev) (n : Nat) : Option Nat :=
  let mine (t : BitVec 8) (p : Pkt) (q : Option Nat) (k : Nat) : Option Nat := if t = ptNak && q = some n && bx p.ext 8 1 = 0x0A then some k else none
  let at_ (f : Frame) : Option Nat := match f.kind with
    | .pkt t p q k => mine t p q k
    | _ => none
  let cross (c : Crossing) : Option Nat := match c.what with
    | .outward _ t p q k _ => mine t p q k
    | _ => none
  (d.net.ports.findSome? fun p => ((nth p.queues 7 {}).frames ++ p.held7).findSome? at_).orElse fun _ => d.fab.crossings.findSome? cross

/-- Pending ACKs that f replaces leave every port (R277). -/
def dropAck (k : Nat) (f : Frame) (d : Dev) : Dev :=
  let keep (l : List Frame) : List Frame := l.filter fun g => !sameAck g.kind f.kind
  let port (p : NetPort) : NetPort :=
    setHeld { p with queues := modAt p.queues k fun q => { q with frames := keep q.frames } } k (keep (heldOf p k))
  d.onNet fun n => { n with ports := n.ports.map port }

/-- The first frame that waits enters its queue at time t when there is room; its sojourn counts from then (R304). -/
def heldMove (k t : Nat) (p : NetPort) : NetPort :=
  match heldOf p k with
  | [] => p
  | f :: r => if eqDepth (nth p.queues k {}) + f.len ≤ egressCap then
      setHeld { p with queues := modAt p.queues k (putFrame { f with entered := t }) } k r else p

/-- Waiting frames enter EQ6 or EQ7 in order as there is room (R18). -/
def heldDrain (k port : Nat) (d : Dev) : Dev := d.onPort port fun p => iter (heldMove k (now d)) (heldOf p k).length p

/-- A frame of the device's own enters EQ6 or EQ7, or waits for room; an ACK takes the place of the pending one (R18, R277). -/
def ownIn (port k : Nat) (f : Frame) (d : Dev) : Dev :=
  let np := d.port port
  let q := nth np.queues k {}
  let held := heldOf np k
  match if held.any fun x => nakOf x.kind f.kind then none else (replaceAck f q.frames).filter fun l => eqDepth { q with frames := l } ≤ egressCap with
  | some l => d.onPort port fun p => { p with queues := modAt p.queues k fun q =>
      let q := { q with frames := l }
      { q with maxDepth := max q.maxDepth (eqDepth q) } }
  | none => match replaceAck f held with
    | some l => d.onPort port fun p => setHeld p k l
    | none => heldDrain k port ((dropAck k f d).onPort port fun p => setHeld p k (heldOf p k ++ [f]))

/-- A packet as a frame that a tile sends by a port, with its headers (R325). -/
def pktFrame (d : Dev) (tile port : Nat) (t : BitVec 8) (p : Pkt) (qpn : Option Nat) (path : Nat) (excess : Bool) : Frame :=
  { len := frameLen p, excess := excess, entered := now d, kind := .pkt t p qpn path, outer := outerBytes d tile port t p }

/-- The bytes of a sealed packet that a core works through (R486). -/
def sealedLen (t : BitVec 8) (p : Pkt) : Nat := (headerBytes t p ++ p.ext ++ p.payload).length

/-- A frame enters its queue by f; a sealed packet waits there for a core of the port's tile (R474). -/
def sealedIn (port : Nat) (t : BitVec 8) (p : Pkt) (f : Frame) (g : Frame → Dev → Dev) (d : Dev) : Dev :=
  if tb p.pflags.toNat 2 then
    let (i, d) := chargePacket (portTile port) (p.srcQpn.toNat, true) (sealedLen t p) d
    g { f with ticket := some i } d
  else g f d

def fullShaper (s : Shaper) : Shaper := { s with committed := (s.cbs : Int) * 1024, peak := (s.pbs : Int) * 1024 }
def fullMeter (m : Meter) : Meter := { m with committed := (m.cbs : Int) * 1024, peak := (m.pbs : Int) * 1024 }

/-- A packet for EQ6 or EQ7 reaches its port (R276). -/
def outwardLand (port : Nat) (t : BitVec 8) (p : Pkt) (qpn : Option Nat) (path : Nat) (outer : Bytes) (d : Dev) : Dev :=
  sealedIn port t p { len := frameLen p, excess := false, entered := now d, kind := .pkt t p qpn path, outer := outer }
    (ownIn port (if isCtl t then 7 else 6)) d

/-- A packet for EQ6 or EQ7 crosses from its tile to its port's, or waits for the path in order (R17, R18). -/
def outward (tile port : Nat) (t : BitVec 8) (p : Pkt) (qpn : Option Nat) (path : Nat) (d : Dev) : Dev :=
  let outer := outerBytes d tile port t p
  crossOr ⟨pktClass t, tile, portTile port⟩ (.outward port t p qpn path outer) (outwardLand port t p qpn path outer) d

/-- Put a packet of a tile into an egress queue of a port, where a sealed one waits for its core (R474); events of R565 groups 4. -/
def release (tile port : Nat) (t : BitVec 8) (p : Pkt) (qpn : Option Nat) (path : Nat) (excess : Bool) (ten : Option Nat) (d : Dev) : Dev :=
  let k := eqIndex t (ten.bind fun n => d.ten? n)
  let d := count 0x0400 port ten 1 (count 0x0401 port ten (frameLen p) d)
  let d := if t = ptAck then count 0x040A port ten 1 d else if t = ptNak then count 0x0406 port ten 1 d else d
  if k < 6 then sealedIn port t p (pktFrame d tile port t p qpn path excess) (enqueue port k) d else outward tile port t p qpn path d

/-- NAK extension (R244). -/
def nakExt (psn msn : BitVec 32) (code detail : Nat) (cum : BitVec 32) (arg : Nat) : Bytes :=
  toBE 4 psn.toNat ++ toBE 4 msn.toNat ++ toBE 1 code ++ toBE 1 detail ++ zpad 2 ++ toBE 4 cum.toNat ++ toBE 8 arg

/-- DISCONNECT extension (R246). -/
def discExt (reason : Nat) : Bytes := toBE 1 reason ++ zpad 7

/-- The path index a reply takes: the packet's PATH, or PATH modulo the path count (R253). -/
def replyPath (q : Qp) (path : Nat) : Nat := if path < q.paths.length then path else path % max 1 q.paths.length

/-- The sealed packet of an authenticating queue pair (R486): the IV is SALT, then PSN or, in a control packet, CSN, then TX_TIME; the header and extensions are the additional data; a control packet carries CSN in MSG_OFFSET. -/
def sealPkt (a : Auth) (t : BitVec 8) (p : Pkt) : Pkt :=
  let p := if isCtl t then { p with msgOffset := a.csn.setWidth 32 } else p
  let n := if isCtl t then a.csn.toNat else p.psn.toNat
  let r := gcmSeal a.sendKey (a.sendSalt ++ toBE 4 n ++ toBE 4 p.txTime.toNat) (headerBytes t p ++ p.ext) p.payload
  { p with payload := r.1, trailer := r.2 }

/-- The packet of a queue pair with its addresses, times and trailer. -/
def buildPkt (d : Dev) (n : Nat) (q : Qp) (t : BitVec 8) (path : Nat) (p : Pkt) : Pkt :=
  let pa := nth q.paths path ⟨0xFF, 0#14, 0, 0, none, none, none, none, 0, 0, true, 0, 0, [], false⟩
  let p := { p with
    ver := if q.par.kind = .v1 then 0x10#8 else 0x20#8
    path := if q.par.kind = .v1 then 0#8 else BitVec.ofNat 8 path
    dstNode := q.conn.peerNode
    srcNode := d.net.nodeId
    dstQpn := q.conn.peerQpn
    srcQpn := BitVec.ofNat 32 n
    txTime := d.pwr.tsc.setWidth 32
    entropy := pa.entropy }
  let p := withOuter d (qpTile n) p
  match q.conn.auth with
  | some a => if a.dead then withCrc t p else sealPkt a t { p with pflags := p.pflags ||| 0x04#8 }
  | none => withCrc t p

/-- A sealed control packet uses one CSN (R486). -/
def useCsn (n : Nat) (d : Dev) : Dev :=
  d.onConn n fun c => { c with auth := c.auth.map fun a => if a.dead then a else { a with csn := a.csn + 1#64 } }

/-- A queue pair that authenticates and whose CSNs are spent sends no control packet (R488). -/
def csnSpent (q : Qp) : Bool :=
  match q.conn.auth with
  | some a => !a.dead && 2 ^ 31 ≤ a.csn.toNat
  | none => false

def pathEgressIgnored : Nat := 0x0111

/-- EGRESS of a path is ignored: counted once for the path (R328). -/
def noteEgress (n k port : Nat) (q : Qp) (pa : Path) (d : Dev) : Dev :=
  if !pa.ignored && egressIgnored d q.conn.peerNode pa.entropy.toNat pa.egress then
    count pathEgressIgnored port (some q.par.tenant) 1 (d.onQp n fun q => { q with paths := modAt q.paths k fun p => { p with ignored := true } })
  else d

/-- A control packet that would take CSN 2³¹ ends the sequence (R488). -/
def noteSpent (n : Nat) (d : Dev) : Dev :=
  d.onConn n fun c => { c with auth := c.auth.map fun a => if !a.dead && 2 ^ 31 ≤ a.csn.toNat then { a with spent := true } else a }

/-- Send a control packet of a queue pair, as given, on one of its paths through EQ7 (R253, R276). -/
def sendCtlQ (n : Nat) (q : Qp) (t : BitVec 8) (ext : Bytes) (path : Nat) (d : Dev) : Dev :=
  let k := replyPath q path
  match q.paths[k]? with
  | none => d
  | some pa =>
    let d := noteSpent n d
    match if csnSpent q then none else routePort d (qpTile n) q.conn.peerNode pa.entropy.toNat pa.egress 1 with
    | none => d
    | some port =>
      let p := buildPkt d n q t k { ext := ext }
      release (qpTile n) port t p (some n) k false (some q.par.tenant) (noteEgress n k port q pa (useCsn n d))

/-- Send a control packet of a queue pair that exists. -/
def sendCtl (n : Nat) (t : BitVec 8) (ext : Bytes) (path : Nat) (d : Dev) : Dev :=
  match d.qp? n with
  | none => d
  | some q => sendCtlQ n q t ext path d

/-- A node a packet can be built for: a torus node, or one with a VALID entry (R325). -/
def nodeKnown (d : Dev) (tile : Nat) (n : BitVec 16) : Bool := isTorus n || (nodeEntry d tile n).isSome

/-- An answer to a packet that no queue pair takes: back out of the port it came in on, with that packet's entropy (R237; log 16). -/
def answerStray (port : Nat) (t : BitVec 8) (ext : Bytes) (p : Pkt) (d : Dev) : Dev :=
  let tile := portTile port
  if !nodeKnown d tile p.srcNode then d
  else
    let r : Pkt := withOuter d tile { p with pflags := 0#8, dstNode := p.srcNode, srcNode := d.net.nodeId, dstQpn := p.srcQpn, srcQpn := p.dstQpn }
    let r := withCrc t { r with psn := 0#32, msn := 0#32, msgOffset := 0#32, txTime := d.pwr.tsc.setWidth 32, ext := ext, payload := [] }
    release tile port t r none 0 false none d

end Sys2Proof.Machine
end

