-- ==== Sys2Proof/Machine/QpOps.lean ====
section
/-! DEFINITION. Completion queues, the life of queue pairs and rope aborts: what the rows of chapters 06, 07 and 10 share (R214 to R235, R268, R269, R371 to R373). A failure or a flush marks work as ended; settle then releases completions in order. -/

namespace Sys2Proof.Machine

-- Completion codes (R219) and details (R104, R213)
def ccOk : Nat := 0x00
def ccMalformed : Nat := 0x01
def ccLocalAccess : Nat := 0x02
def ccRemoteAccess : Nat := 0x03
def ccRemoteOperator : Nat := 0x04
def ccRetryExceeded : Nat := 0x05
def ccFlushed : Nat := 0x06
def ccFaultUnresolved : Nat := 0x07
def ccAuthFailed : Nat := 0x08
def ccRopeAbort : Nat := 0x09
def ccUncorrectable : Nat := 0x0A
def ccCqOverflow : Nat := 0x0B
def ccMoved : Nat := 0x0C
def ccHostLost : Nat := 0x0D
def ccWindowClosing : Nat := 0x0E

/-- Codes that put a transport queue pair into error (R219); 0x0A does so only for the source of a WRITE or SEND, which its row says. -/
def codeErr (c : Nat) : Bool :=
  c = ccLocalAccess || c = ccRemoteAccess || c = ccRetryExceeded || c = ccFaultUnresolved || c = ccAuthFailed
    || c = ccCqOverflow || c = ccMoved || c = ccHostLost || c = ccWindowClosing

-- NAK codes (R245)
def nkNoWindow : Nat := 0x01
def nkNotReady : Nat := 0x07
def nkReceiver : Nat := 0x08
def nkOperator : Nat := 0x09
def nkUncorrectable : Nat := 0x0A
def nkMoved : Nat := 0x0B
def nkHostLost : Nat := 0x0C
def nkAuth : Nat := 0x0D
def nkBadQp : Nat := 0x0E
def nkProtocol : Nat := 0x0F

-- Work rings

def sqSize (q : Qp) : Nat := 2 ^ q.par.sqLog2
def rqSize (q : Qp) : Nat := 2 ^ q.par.rqLog2

/-- The producer index in force: a started standing queue is always S ahead of its consumer (R225). -/
def effP (standing : Bool) (s : Nat) (r : WorkRing) : Nat := if standing && r.started then ringAdd s r.c s else r.p

def sqP (q : Qp) : Nat := effP q.par.sqStanding (sqSize q) q.sq
def rqP (q : Qp) : Nat := effP q.par.rqStanding (rqSize q) q.rq

/-- Entries posted and not yet fetched. -/
def sqLeft (q : Qp) : Nat := ringSub (sqSize q) (sqP q) q.sq.f
def rqLeft (q : Qp) : Nat := if q.par.noRq then 0 else ringSub (rqSize q) (rqP q) q.rq.f

/-- Entries that a standing queue has fetched beyond the end of its consumer's lap (R225). -/
def lapOver (s : Nat) (standing : Bool) (r : WorkRing) : Nat :=
  if standing && r.started then ringSub s r.f r.c - (s - r.c % s) else 0

/-- A flush of a standing queue ends at the end of the current lap (R225). -/
def lapEnd (s : Nat) (standing : Bool) (r : WorkRing) : WorkRing :=
  if standing && r.started then { r with p := (r.c / s + 1) * s % (2 * s), started := false } else r

-- Completion queues

def cqSize (c : Cq) : Nat := 2 ^ c.log2

def cqeBytes (e : Cqe) (phase : Bool) : Bytes :=
  toLE 8 e.wrId.toNat ++ toLE 4 e.count ++ toLE 4 e.imm.toNat ++ toLE 8 e.aux.toNat ++ toLE 2 e.qpn ++ toLE 2 e.idx
    ++ toLE 1 e.verb ++ toLE 1 e.code ++ toLE 1 e.detail ++ toLE 1 (b2n phase + 2 * b2n e.immValid + 4 * b2n e.fromRq)

def tenPort (d : Dev) (t : Nat) : Side := ((d.ten? t).map (·.par.port)).getD .west

/-- The ring takes an entry now (R193, R227, R387). -/
def cqCanWrite (d : Dev) (n : Nat) (c : Cq) : Bool :=
  ringSub (cqSize c) c.p c.c < cqSize c && !c.stalledWrite && (isDva c.addr.toNat || hostReady d (tenPort d c.tenant) (cqTile n))

/-- Waiters that satisfy p leave every fault record and every ATS request; a record left with none ends (R457 step 6). -/
def dropWaiters (p : Waiter → Bool) (d : Dev) : Dev :=
  let recs := d.xlt.recs.map fun (i, r) => (i, { r with waiters := r.waiters.filter fun w => !p w.who })
  let gone := (recs.filter fun (_, r) => r.waiters = []).map Prod.fst
  let keep (l : List Nat) : List Nat := l.filter fun i => !gone.contains i
  let port (x : XltPort) : XltPort := { x with
    opened := (x.opened.map fun c => { c with recs := keep c.recs }).bind fun c => if c.recs = [] then none else some c
    held := (x.held.map fun c => { c with recs := keep c.recs }).filter fun c => c.recs ≠ []
    hostOpen := keep x.hostOpen }
  d.onXlt fun x => { x with
    recs := recs.filter fun (_, r) => r.waiters ≠ []
    ats := x.ats.filter fun (_, a) => !p a.who.who
    ports := ⟨port x.ports.w, port x.ports.e⟩ }

/-- The drain count of a window on a tile falls by one (R181). -/
def drainDown (w tile : Nat) (d : Dev) : Dev :=
  d.onXlt fun x => { x with windows := x.windows.upd w fun v => { v with drain := modAt v.drain tile (· - 1) } }

def legHolds (l : Leg) : Bool := l.stage = .loading || l.stage = .running

/-- The legs of an operation that hold contexts are counted as ended (R108). -/
def countLegs (o : Op) (d : Dev) : Dev :=
  o.legs.foldl (fun d l => if legHolds l then
      count 0x0700 l.stack (some o.tenant) 1 (d.onStkEng l.stack fun s => { s with legsEnded := satAdd s.legsEnded 1 })
    else d) d

/-- Operations that satisfy p stop and are gone: their legs have ended and leave the stacks' lists, and the accesses of a peer's end at its window (R106, R108, R181). One that stops this way as its queue pair flushes or is reset, or its tenant is, adds nothing to OPS, of which R110 does not say (log 96). -/
def dropOps (p : Op → Bool) (d : Dev) : Dev :=
  let gone := (d.eng.ops.filter fun (_, o) => p o).map Prod.fst
  let d := d.eng.ops.foldl (fun d (_, o) =>
    if !p o then d
    else
      let d := countLegs o d
      match o.src with
      | .message _ _ w _ => drainDown w o.tile d
      | .entry _ _ => d) d
  if gone = [] then d
  else dropWaiters (fun w => match w with | .op i => gone.contains i | _ => false) (d.onEng fun e => { e with
    ops := e.ops.filter fun (i, _) => !gone.contains i
    stk := e.stk.map fun s => { s with
      queue := s.queue.filter fun (i, _) => !gone.contains i
      starving := s.starving.bind fun x => if gone.contains x.1 then none else some x } })

/-- The queue pair sends DISCONNECT, the first of its sendings, on its path 0 (R266, R268; log 104). -/
def sendDisconnect (n reason : Nat) (d : Dev) : Dev :=
  match d.qp? n with
  | none => d
  | some q =>
    if q.par.kind = .loc then d
    else sendCtl n ptDisconnect (discExt reason) 0 (d.onConn n fun c => { c with discLeft := 2, discReason := reason })

/-- AUX of the completion of a RECV: the verb of the message that took it (R217). -/
def arrivedVerb (t : BitVec 8) : BitVec 64 := if t = ptWrite then 1#64 else 3#64

def recvAux (q : Qp) (r : Recv) : BitVec 64 :=
  match r.msn.bind fun m => q.conn.rx.find? fun x => x.msn = m with
  | some m => arrivedVerb m.verb
  | none => 0#64

/-- AUX of the completion of an entry that fails: COUNT of a WAIT that was satisfied (R217). -/
def waitAux (q : Qp) (idx : Nat) : BitVec 64 :=
  match q.wait with
  | some w => if w.satisfied && w.idx = idx then w.count.setWidth 64 else 0#64
  | none => 0#64

/-- A begun entry that has opened no message and whose patches have not begun ends FLUSHED (R224). -/
def flushBegun (q : Qp) (b : Begun) : Begun :=
  match b.fin with
  | some _ => b
  | none =>
    let patching := match q.wait with
      | some w => w.satisfied && w.idx = b.idx
      | none => false
    if patching then b else { b with fin := some ⟨ccFlushed, 0, 0, 0#64⟩ }

/-- Requests of peers that were accepted and wait to be admitted are abandoned: their accesses end at their windows (R181). -/
def dropHeld (n : Nat) (d : Dev) : Dev :=
  match d.qp? n with
  | none => d
  | some q => q.conn.rx.foldl (fun d m => match m.request with
    | some p => if m.admitted || m.done then d else drainDown (bx p.ext 0 4) (portTile m.port) d
    | none => d) d

/-- The flush of a queue pair (R224, R225, R268): it stops beginning entries, its messages are abandoned, fetched and begun work ends FLUSHED; entries not fetched end FLUSHED as they are fetched (log 19), and a standing queue's of the next lap not at all. The peer is told with disc; an event is posted for a cause that no completion carries. -/
def flushQp (n : Nat) (disc : Option Nat) (event : Option Nat) (d : Dev) : Dev :=
  match d.qp? n with
  | none => d
  | some q =>
      let d := match disc with
        | some r => if q.st = .init then d else sendDisconnect n r d
        | none => d
      let d := dropOps (fun o => match o.src with | .entry m _ => m = n | _ => false) d
      let d := dropWaiters (fun w => match w with | .entry m _ => m = n | _ => false) d
      let d := dropHeld n (d.onQ fun x => { x with xfers := x.xfers.filter fun (_, t) => t.qpn ≠ n })
      let d := d.onQp n fun q =>
        let sOver := lapOver (sqSize q) q.par.sqStanding q.sq
        let rOver := lapOver (rqSize q) q.par.rqStanding q.rq
        let sf := q.sq.f - sOver
        let rf := (q.rq.f + 2 * rqSize q - rOver) % (2 * rqSize q)
        let flushed (i : Nat) (b : Bytes) : Begun := { idx := i, bytes := b, msn := none, fin := some ⟨ccFlushed, 0, 0, 0#64⟩ }
        { q with
          st := .flushing
          begun := q.begun.map (flushBegun q) ++ (q.fetched.take (q.fetched.length - sOver)).map fun f => flushed f.idx f.bytes
          fetched := []
          sq := { lapEnd (sqSize q) q.par.sqStanding q.sq with c := sf, f := sf, refetch := 0, stalled := false, held := [] }
          rq := { lapEnd (rqSize q) q.par.rqStanding q.rq with c := rf, f := rf, refetch := 0, stalled := false, held := [] }
          recvs := (q.recvs.take (q.recvs.length - rOver)).map fun r => match r.fin with
            | some _ => r
            | none => { r with fin := some (⟨ccFlushed, 0, 0, recvAux q r⟩, none) }
          wait := q.wait.bind fun w => if w.satisfied then some w else none
          entryStalled := false
          conn := { q.conn with msgs := [], unacked := [], rx := [] } }
      let d := dropWaiters (fun w => match w with | .sqFetch m => m = n | .rqFetch m => m = n | _ => false) d
      match event with
      | some c => postEvent q.par.tenant 0x04 n c 0 d
      | none => d

/-- A queue pair that is not yet dead enters FLUSHING (R223). -/
def toFlush (n : Nat) (disc : Option Nat) (event : Option Nat) (d : Dev) : Dev :=
  match d.qp? n with
  | none => d
  | some q => if q.st = .reset || q.st = .flushing || q.st = .error then d else flushQp n disc event d

/-- A begun entry ends (R214, R219): its completion is released in ring order; a code that marks Error flushes a transport queue pair, CQ_OVERFLOW any. -/
def endEntry (n idx : Nat) (e : WorkEnd) (err : Bool) (d : Dev) : Dev :=
  match d.qp? n with
  | none => d
  | some q =>
    let d := d.onQp n fun q =>
      { q with begun := q.begun.map fun b => if b.idx = idx && b.fin.isNone then { b with fin := some e } else b }
    if err && (q.par.kind ≠ .loc || e.code = ccCqOverflow) then
      toFlush n (some e.code) none (count 0x040F 0 (some q.par.tenant) 1 d)
    else d

def endOk (n idx count : Nat) (aux : BitVec 64) (d : Dev) : Dev := endEntry n idx ⟨ccOk, 0, count, aux⟩ false d
/-- An entry fails: BYTE_COUNT is 0 (R217; log 103). -/
def endBad (n idx code detail : Nat) (d : Dev) : Dev :=
  endEntry n idx ⟨code, detail, 0, ((d.qp? n).map fun q => waitAux q idx).getD 0#64⟩ (codeErr code) d

-- Rope aborts

def ropeSpeaks (r : Rope) : Bool := r.par.members ≠ 1

/-- The ROPE extension (R364): the call's fields from its entry. -/
def ropeExt (r : Rope) (call : Nat) (entry : Bytes) (piece lap xflags hpn : Nat) : Bytes :=
  let cf := u8 entry 1
  toBE 4 r.par.ropeId.toNat ++ toBE 4 call ++ toBE 4 piece ++ toBE 1 lap ++ toBE 1 (u8 entry 0) ++ toBE 1 (u8 entry 2)
    ++ toBE 1 (u8 entry 3) ++ toBE 2 (u16 entry 4) ++ toBE 1 (b2n (tb cf 3) + 2 * b2n (tb cf 2) + 4 * xflags)
    ++ toBE 1 r.par.pieceLog2 ++ toBE 1 r.par.ledges ++ zpad 3 ++ toBE 4 (u32 entry 0x20) ++ toBE 4 hpn
    ++ toBE 2 r.par.members ++ toBE 2 r.par.index ++ zpad 4

/-- Where a rope packet leaves, if it can (R326 to R328). -/
def ropePort (d : Dev) (r : Rope) (down : Bool) : Option Nat :=
  routePort d r.par.tile (if down then r.par.downNode else r.par.upNode) r.par.entropy.toNat
    (if down then r.par.downEgress else r.par.upEgress) 2

def ropePkt (d : Dev) (slot : Nat) (r : Rope) (down : Bool) (t : BitVec 8) (p : Pkt) : Pkt :=
  withCrc t (withOuter d r.par.tile { p with
    dstNode := if down then r.par.downNode else r.par.upNode
    srcNode := d.net.nodeId
    dstQpn := BitVec.ofNat 32 (if down then r.par.downSlot else r.par.upSlot)
    srcQpn := BitVec.ofNat 32 slot
    txTime := d.pwr.tsc.setWidth 32
    entropy := r.par.entropy })

/-- Send a rope packet through EQ6 of its port (R276, R363). A ROPE_ACK takes the place of a pending one, and it or a ROPE_ABORT waits for the way to its port and for room there (R18, R37, R277, R365). False: it has no port, or a packet of a pitch has no way or no room. -/
def sendRope (slot : Nat) (down : Bool) (t : BitVec 8) (p : Pkt) (d : Dev) : Bool × Dev :=
  match d.rope? slot with
  | none => (false, d)
  | some r =>
    match ropePort d r down with
    | none => (false, d)
    | some port =>
      let p := ropePkt d slot r down t p
      let len := frameLen p
      let waits := !eqRoom d port 6 len || !tileOpen d .col r.par.tile (portTile port)
      if !(t = 0x22#8 || t = 0x23#8) && waits then (false, d)
      else
        let d := count 0x0400 port (some r.par.tenant) 1 (count 0x0401 port (some r.par.tenant) len d)
        (true, outward r.par.tile port t p none 0 d)

def abortExt (origin reason dir : Nat) : Bytes := toBE 2 origin ++ toBE 1 reason ++ toBE 1 dir ++ zpad 4

/-- One sending of ROPE_ABORT in a direction. -/
def sendAbort (slot : Nat) (down : Bool) (d : Dev) : Dev :=
  match d.rope? slot with
  | none => d
  | some r => (sendRope slot down 0x23#8
      { ext := ropeExt r r.abortCall r.abortEntry 0 0 0 0
          ++ abortExt r.abortOrigin r.abortReason (if down then 0 else 1) } d).2

/-- The completion of a call (R356). -/
def ropeCqe (slot : Nat) (r : Rope) (num : Nat) (entry : Bytes) (code detail origin flags : Nat) : Cqe :=
  { wrId := BitVec.ofNat 64 (u64 entry 8), count := u32 entry 0x20, imm := 0#32,
    aux := BitVec.ofNat 64 (num % 2 ^ 32 + origin * 2 ^ 32 + flags * 2 ^ 48),
    qpn := slot, idx := num % (2 * 2 ^ r.par.callLog2), verb := 0x20, code := code, detail := detail, immValid := false, fromRq := false }

/-- A rope aborts (R371, R373): the call stops and completes ROPE_ABORT, ROPE_ABORT leaves in the directions given, the event is posted. -/
def ropeAbort (slot origin reason : Nat) (down up : Bool) (d : Dev) : Dev :=
  match d.rope? slot with
  | none => d
  | some r =>
    if r.st = .aborted then d
    else
      let num := match r.call with
        | some c => c.num
        | none => r.nextCall
      let d := count 0x0902 r.par.tile (some r.par.tenant) 1 d
      let d := dropWaiters (fun w => w = .rope slot) d
      let d := d.onRope slot fun r => { r with abortCall := num, abortOrigin := origin, abortReason := reason, abortEntry := (r.call.map (·.entry)).getD [] }
      let d := if ropeSpeaks r && down then sendAbort slot true d else d
      let d := if ropeSpeaks r && up then sendAbort slot false d else d
      let d := d.onRope slot fun r => { r with
        st := .aborted
        call := none
        stalled := false
        refetch := 0
        since := []
        nextCall := match r.call with
          | some c => c.num + 1
          | none => r.nextCall
        callsDone := if r.call.isSome then r.callsDone + 1#32 else r.callsDone
        waiting := r.waiting ++ (match r.call with
          | some c => [(ropeCqe slot r c.num c.entry ccRopeAbort reason origin 0, true)]
          | none => [])
        abortDown := if ropeSpeaks r && down then 2 else 0
        abortUp := if ropeSpeaks r && up then 2 else 0 }
      postEvent r.par.tenant 0x30 slot num (origin + reason * 2 ^ 16) d

/-- An abort that this member raises (R371). -/
def ropeAbortLocal (slot reason : Nat) (d : Dev) : Dev :=
  match d.rope? slot with
  | none => d
  | some r => ropeAbort slot r.par.index reason true true d

/-- The rope's next call is due (R351). -/
def ropeDue (d : Dev) (r : Rope) : Bool :=
  match d.cq? r.par.triggerCq with
  | some c => 0 ≤ seqDiff c.count (r.mark + BitVec.ofNat 32 (r.nextCall + 1))
  | none => false

-- Overflow and release

/-- A completion queue enters OVERFLOW (R227): entries it holds are discarded, COUNT stops, bound queue pairs flush, waits on it end CQ_OVERFLOW, ropes that name it abort (R358). -/
def cqOverflow (n extra : Nat) (d : Dev) : Dev :=
  match d.cq? n with
  | none => d
  | some c =>
    if c.st = .overflow then d
    else
      let lost := c.discarded + c.held.length + extra
      let d := d.onCq n fun c => { c with st := .overflow, held := [], discarded := lost, stalledWrite := false, timer := false }
      let d := dropWaiters (fun w => w = .cqWrite n) d
      let d := count 0x0B08 0xFF none 1 (postEvent c.tenant 0x03 n lost 0 d)
      let d := d.q.qps.foldl (fun d (k, q) =>
        if q.st = .reset || q.st = .flushing || !(q.par.sendCq = n || (!q.par.noRq && q.par.recvCq = n)) then d
        else
          let recv := decide (q.par.sendCq = n)
          let other := q.par.sendCq ≠ q.par.recvCq && !q.par.noRq && (d.cq? (if recv then q.par.recvCq else q.par.sendCq)).any (·.st ≠ .overflow)
          let work := if recv then q.recvs ≠ [] || rqLeft q ≠ 0 else q.begun ≠ [] || q.fetched ≠ [] || sqLeft q ≠ 0
          let d := flushQp k (some ccCqOverflow) (if other && work then none else some ccCqOverflow) d
          if other then d.onQp k fun q => { q with overflowNote := some recv } else d) d
      let d := d.q.qps.foldl (fun d (k, q) => match q.wait with
        | some w => if w.cq = n && !w.satisfied then
            endEntry k w.idx ⟨ccCqOverflow, 0, 0, 0#64⟩ true (d.onQp k fun q => { q with wait := none }) else d
        | none => d) d
      d.ropes.slots.foldl (fun d (k, r) =>
        if r.par.doneCq = n then ropeAbortLocal k 0x6D d else if r.par.triggerCq = n then ropeAbortLocal k 0x6F d else d) d

/-- Write one entry at the ring's producer index, the message of an arm after it (R217, R229). The write can wait on a fault, or be refused, which is an overflow (R164, R227; log 20). -/
def cqWrite (n : Nat) (e : Cqe) (d : Dev) : Dev :=
  match d.cq? n with
  | none => d
  | some c =>
    let s := cqSize c
    let addr := c.addr.toNat + c.p % s * 32
    match xrange d (cqTile n) c.tenant addr 32 true with
    | .ok l =>
      let d := lookup (cqTile n) c.tenant addr (.cqWrite n) true d
      let d := putPieces false l (cqeBytes e (phaseOf s c.p)) d
      let d := d.onCq n fun c => { c with p := ringAdd s c.p 1, armed := false }
      if c.armed && c.vector ≠ 0xFFFF#16 then msix (tenPort d c.tenant) c.vector.toNat d else d
    | .error x =>
      match stallOn (cqTile n) c.tenant true (.cqWrite n) x d with
      | (.waits, d) => d.onCq n fun c => { c with stalledWrite := true, held := e :: c.held, st := if c.st = .stalled then .stalled else .holding }
      | (_, d) => cqOverflow n 1 d

/-- A completion reaches its queue (R218, R227). -/
def cqPush (n : Nat) (e : Cqe) (written wait : Bool) (d : Dev) : Dev :=
  match d.cq? n with
  | none => d
  | some c =>
    let cqFull : Bool := decide (64 ≤ c.held.length + 1 + poolUnits d 13 n)
    if c.st = .overflow then d.onCq n fun c => { c with discarded := c.discarded + 1 }
    else
      let d := if wait then d else d.onCq n fun c => { c with count := c.count + 1#32 }
      if !written && e.code = ccOk then d
      else if c.held = [] && cqCanWrite d n c then cqWrite n e d
      else heldNote (tenPort d c.tenant) (.completion n) (d.onCq n fun c => { c with
        held := c.held ++ [e], st := if cqFull then .stalled else .holding, timer := c.timer || cqFull })

def cqDrain1 (n : Nat) (d : Dev) : Dev :=
  match d.cq? n with
  | none => d
  | some c => match c.held with
    | [] => d
    | e :: r => if cqCanWrite d n c then cqWrite n e (noteSent 13 n (d.onCq n fun c => { c with held := r })) else d

/-- Held entries are written in order while there is room; the queue is OPEN once the hold is empty (R227). -/
def cqDrain (n : Nat) (d : Dev) : Dev :=
  let d := iter (cqDrain1 n) 64 d
  d.onCq n fun c => if c.st = .overflow || c.st = .open then c
    else if c.held = [] then { c with st := .open, timer := false }
    else c

/-- A completion queue takes what is released to it unless it is STALLED. Of a queue pair's two queues each is asked for itself (R227; log 103). -/
def cqTakes (d : Dev) (n : Nat) : Bool :=
  match d.cq? n with
  | some c => c.st ≠ .stalled
  | none => true

/-- The completion of a send-queue entry (R217). -/
def sendCqe (n s : Nat) (b : Begun) (e : WorkEnd) : Cqe :=
  { wrId := BitVec.ofNat 64 (u64 b.bytes 8), count := e.count, imm := 0#32, aux := e.aux, qpn := n, idx := b.idx % (2 * s),
    verb := u8 b.bytes 0, code := e.code, detail := e.detail, immValid := false, fromRq := false }

/-- The completion of a RECV (R217). -/
def recvCqe (n : Nat) (r : Recv) (e : WorkEnd) (imm : Option (BitVec 32)) : Cqe :=
  { wrId := BitVec.ofNat 64 (u64 r.bytes 8), count := e.count, imm := imm.getD 0#32, aux := e.aux, qpn := n, idx := r.idx,
    verb := u8 r.bytes 0, code := e.code, detail := e.detail, immValid := imm.isSome, fromRq := true }

/-- The send queue has nothing left to release (R224 step 3). -/
def sqEmpty (q : Qp) : Bool := q.begun = [] && q.fetched = [] && sqLeft q = 0

/-- CQ_OVERFLOW in place of the code, once, after the other queue's overflow (R227). -/
def noteCode (note : Option Bool) (recv : Bool) (e : Cqe) : Cqe :=
  if note = some recv then { e with code := ccCqOverflow, detail := 0 } else e

/-- What one queue pair can release next, if anything; or the end of its flush. With one of its completion queues STALLED it goes on releasing to the other (R227; log 103). -/
def qpRelease (n : Nat) (q : Qp) (d : Dev) : Option Dev :=
  let sendHead := match q.begun with
    | b :: _ => b.fin.map fun e => (b, e)
    | [] => none
  let clear (recv : Bool) (d : Dev) : Dev := if q.overflowNote = some recv then d.onQp n fun q => { q with overflowNote := none } else d
  match sendHead, cqTakes d q.par.sendCq with
  | some (b, e), true =>
    let c := noteCode q.overflowNote false (sendCqe n (sqSize q) b e)
    let d := clear false (d.onQp n fun q => { q with begun := q.begun.drop 1 })
    some (cqPush q.par.sendCq c (tb (u8 b.bytes 1) 1) (u8 b.bytes 0 = 7) d)
  | _, _ =>
    let recvHead := match q.recvs with
      | r :: _ => r.fin.map fun e => (r, e)
      | [] => none
    match recvHead, cqTakes d q.par.recvCq && (q.st ≠ .flushing || sqEmpty q) with
    | some (r, e, imm), true =>
      let c := noteCode q.overflowNote true (recvCqe n r e imm)
      let d := clear true (d.onQp n fun q => { q with recvs := q.recvs.drop 1 })
      some (cqPush q.par.recvCq c (tb (u8 r.bytes 1) 1) false d)
    | _, _ =>
      if q.st = .flushing && sqEmpty q && q.recvs = [] && rqLeft q = 0 then
        some (d.onQp n fun q => { q with st := .error })
      else none

/-- What one rope can release next. -/
def ropeRelease (k : Nat) (r : Rope) (d : Dev) : Option Dev :=
  match r.waiting with
  | (e, sig) :: rest =>
    if cqTakes d r.par.doneCq then some (cqPush r.par.doneCq e sig false (d.onRope k fun r => { r with waiting := rest })) else none
  | [] => none

/-- Tracker credits a queue pair holds: its open messages, and the responses reserved for requests it granted; that of a WRITE or SEND is back once it is known for one (R23, R251, R448). -/
def trackerOf (q : Qp) : Nat :=
  q.conn.msgs.length
    + ((q.conn.granted - q.conn.rxMsn).toNat - (q.conn.rx.filter fun m => m.done || m.verb = ptWrite || m.verb = ptSend).length)
    + ((q.conn.unacked.filter fun p => p.ptype = ptReadResp || p.ptype = ptAtomicResp || p.ptype = ptOperateResp).map (·.msn)).dedup.length

def trackerUsed (d : Dev) (tile : Nat) : Nat :=
  poolUnits d 10 tile + d.q.qps.foldl (fun n (k, q) => if qpTile k = tile then n + trackerOf q else n) 0

def tenantTracker (d : Dev) (t tile : Nat) : Nat :=
  d.q.qps.foldl (fun n (k, q) => if qpTile k = tile && q.par.tenant = t then n + trackerOf q else n) 0

/-- The grant a queue pair extends now (R251, R448): up to 64 beyond its oldest request, while half the tile's tracker is free and the tenant's message limit allows. -/
def extendGrant (n : Nat) (d : Dev) : Dev :=
  match d.qp? n with
  | none => d
  | some q =>
    if !(q.st = .rtr || q.st = .rts) || q.par.kind = .loc then d
    else
      let want := q.conn.rxMsn + 64#32
      let more : Int := seqDiff want q.conn.granted
      let free : Int := 16384 - (trackerUsed d (qpTile n) : Int) - 8192
      let quota : Int := (((d.ten? q.par.tenant).map (·.par.msgLimit)).getD 0 : Int) - (tenantTracker d q.par.tenant (qpTile n) : Int)
      let k := (min more (min free quota)).toNat
      d.onConn n fun c => { c with granted := c.granted + BitVec.ofNat 32 k }

/-- The ACK extension (R243, R273). -/
def ackExt (q : Qp) (echoPsn echoTime : BitVec 32) (delay : Nat) (echoPath : BitVec 8) : Bytes :=
  if q.par.kind = .v1 then toBE 4 q.conn.cumRx.toNat ++ toBE 4 q.conn.granted.toNat ++ toBE 4 echoTime.toNat ++ toBE 4 delay
  else
    let bit (i : Nat) : Bool := i ≠ 0 && nth q.conn.rxMap i false
    toBE 4 q.conn.cumRx.toNat ++ toBE 4 q.conn.granted.toNat ++ toBE 4 echoPsn.toNat ++ toBE 4 echoTime.toNat ++ toBE 4 delay
      ++ toBE 1 echoPath.toNat ++ zpad 3 ++ (List.range 32).map fun k => BitVec.ofNat 8 (maskOf 8 fun b => bit (8 * k + b))

/-- Send an ACK that echoes a packet (R260); commits waiting for one are covered, and the NAKs of spoiled WRITEs go before it (R259). -/
def sendAck (n : Nat) (echoPsn echoTime : BitVec 32) (arrival : Nat) (path : BitVec 8) (d : Dev) : Dev :=
  match d.qp? n with
  | none => d
  | some q =>
    let path := ((nakPath d n).map (BitVec.ofNat 8)).getD path
    let d := q.conn.pendNak.foldl (fun d (msn, psn) => sendCtl n ptNak (nakExt psn msn nkUncorrectable 0x14 q.conn.cumRx 0) path.toNat d) d
    let d := d.onConn n fun c => { c with commits := 0, lastLimit := c.granted, pendNak := [] }
    sendCtl n ptAck (ackExt q echoPsn echoTime ((now d - arrival) % 2 ^ 32) path) path.toNat d

/-- An ACK that echoes the latest packet; before the first there is none to echo. -/
def ackLatest (n : Nat) (d : Dev) : Dev :=
  match d.qp? n with
  | none => d
  | some q =>
    let (psn, tx, path, arr) := q.conn.echo
    let late := if q.conn.gotValid then (d.pwr.tsc.setWidth 32 - arr).toNat else 0
    sendAck n psn tx (now d - late) path d

/-- The oldest message of a peer that is complete is released (R33, R215, R258). -/
def rxRelease1 (n : Nat) (d : Dev) : Dev :=
  match d.qp? n with
  | none => d
  | some q => match q.conn.rx.find? fun m => m.msn = q.conn.rxMsn && m.done with
    | none => d
    | some m =>
      let e : WorkEnd := ⟨if m.poisoned then ccUncorrectable else ccOk, if m.poisoned then 0x14 else 0, m.len.getD 0,
        arrivedVerb m.verb⟩
      (tenCount q.par.tenant 3 1 d).onQp n fun q => { q with
        conn := { q.conn with rx := q.conn.rx.filter (fun x => x.msn ≠ m.msn), rxMsn := q.conn.rxMsn + 1#32 }
        recvs := q.recvs.map fun r => if r.msn = some m.msn && m.ssn.isSome && r.fin.isNone then { r with fin := some (e, m.imm) } else r }

/-- Complete messages are released in MSN order, and the grant follows; an extension of 16 is announced at once (R251, R258, R260). -/
def rxAdvance (n : Nat) (d : Dev) : Dev :=
  let k : Nat := ((d.qp? n).map (·.conn.rx.length)).getD 0
  let d := extendGrant n (iter (rxRelease1 n) k d)
  match d.qp? n with
  | none => d
  | some q => if (q.st = .rtr || q.st = .rts) && 16 ≤ seqDiff q.conn.granted q.conn.lastLimit then ackLatest n d else d

/-- The sequence of an authenticating queue pair is spent: it sends nothing more, its next entry ends AUTH_FAILED, and it enters FLUSHING (R488). -/
def seqEnd (n : Nat) (d : Dev) : Dev :=
  match d.qp? n with
  | none => d
  | some q => match q.begun.find? fun b => b.fin.isNone with
    | some b => endBad n b.idx ccAuthFailed 0 d
    | none => toFlush n (some ccAuthFailed) (some ccAuthFailed) (count 0x040F 0 (some q.par.tenant) 1 d)

/-- A queue pair whose last control packet found the sequence spent (R488). -/
def spentNow (q : Qp) : Bool :=
  (q.st = .init || q.st = .rtr || q.st = .rts) && match q.conn.auth with
    | some a => a.spent
    | none => false

def settle1 (d : Dev) : Option Dev :=
  match d.q.qps.findSome? fun (n, q) => qpRelease n q d with
  | some d => some d
  | none => d.ropes.slots.findSome? fun (k, r) => ropeRelease k r d

def settleN : Nat → Dev → Dev
  | 0, d => d
  | f + 1, d => match settle1 d with
    | some d => settleN f d
    | none => d

/-- A bound on the completions that can be released. -/
def settleFuel (d : Dev) : Nat :=
  d.q.qps.foldl (fun n (_, q) => n + q.begun.length + q.fetched.length + q.recvs.length + 2) 0
    + d.ropes.slots.foldl (fun n (_, r) => n + r.waiting.length + 2) 0

/-- Messages that have become whole are released and grants follow freed credits, by rising queue pair (R251, R258; log 95); a queue pair whose control packets have spent its sequence flushes (R488); then every completion that is due is released, in the order of each queue (R216, R224, R227). -/
def settle (d : Dev) : Dev :=
  let d := d.q.qps.foldl (fun d (n, _) => rxAdvance n d) d
  let d := d.q.qps.foldl (fun d (n, q) => if spentNow q then seqEnd n d else d) d
  settleN (settleFuel d) d

/-- A row that acts on the work of a running device and then releases what is due. -/
def liveQ (f : Dev → Dev) (d : Dev) : Dev := live (fun d => settle (f d)) d

-- Ending the object itself

/-- A queue pair ceases to be; its place keeps a tombstone (R269), and its DISCONNECTs are still repeated (R266). -/
def destroyQp (n : Nat) (cause : TombCause) (d : Dev) : Dev :=
  let d := match d.qp? n with
    | some q => if q.conn.discLeft = 0 then d else d.onQ fun x => { x with gone := x.gone.set n q }
    | none => d
  let d := dropOps (fun o => match o.src with | .entry m _ => m = n | .message m _ _ _ => m = n) d
  let d := dropWaiters (fun w => match w with | .entry m _ => m = n | .sqFetch m => m = n | .rqFetch m => m = n | _ => false) d
  let tomb : Tomb := match d.qp? n with
    | some q => { cause := cause, peerNode := q.conn.peerNode, peerQpn := q.conn.peerQpn, auth := q.conn.auth.bind fun a => if a.dead then none else some a }
    | none => { cause := cause }
  let d := dropKeys (· = n) (dropHeld n d)
  d.onQ fun x => { x with qps := x.qps.erase n, xfers := x.xfers.filter (fun (_, t) => t.qpn ≠ n), tombs := x.tombs.set n tomb }

def destroyCq (n : Nat) (d : Dev) : Dev :=
  dropWaiters (fun w => w = .cqWrite n) (d.onQ fun x => { x with cqs := x.cqs.erase n })

/-- The connection of a queue pair as it enters INIT or returns to RESET. -/
def freshConn : Conn := {}

/-- The profile of a queue pair, as its tile holds it (R288, R289). -/
def qpProfile (d : Dev) (n : Nat) (q : Qp) : Profile := nth (nth d.net.tileProfiles (qpTile n) []) q.profile {}

/-- A path at its creation values (R279). -/
def newPath (f : Profile) (egress : Nat) (entropy : BitVec 14) : Path := { egress := egress, entropy := entropy, w := 256 * f.wInit }

def restartPath (f : Profile) (p : Path) : Path := newPath f p.egress p.entropy

/-- Return to RESET with creation parameters kept (R223, R234, R235). -/
def resetQp (n : Nat) (d : Dev) : Dev :=
  let d := dropOps (fun o => match o.src with | .entry m _ => m = n | .message m _ _ _ => m = n) d
  let d := dropWaiters (fun w => match w with | .entry m _ => m = n | .sqFetch m => m = n | .rqFetch m => m = n | _ => false) d
  let d := dropKeys (· = n) (dropHeld n (d.onQ fun x => { x with xfers := x.xfers.filter fun (_, t) => t.qpn ≠ n }))
  d.onQp n fun q => { par := q.par, profile := q.profile, paths := q.paths.map (restartPath (qpProfile d n q)) }

end Sys2Proof.Machine
end

