-- ==== Sys2Proof/Machine/EngOps.lean ====
section
/-! DEFINITION. What the rows share of the near-memory engine: contexts, blocks and places in use, the end of an operation, the cut into legs (R82, R91 to R99, R104 to R110). -/

namespace Sys2Proof.Machine

/-- GRAPH_WALK alone has legs that stay resident (R97). -/
def opResident (o : Op) : Bool := u8 o.desc 0 = 3

def legPlaced (l : Leg) : Bool := l.stage = .placed || legHolds l

/-- Operator contexts held on a stack; none while it is OFFLINE (R107). -/
def ctxBusy (d : Dev) (k : Nat) : Nat :=
  if stackOffline d k then 0
  else poolUnits d 12 k + d.eng.ops.foldl (fun n (_, o) => n + (o.legs.filter fun l => l.stack = k && legHolds l).length) 0

/-- Operand-store blocks in use in each chimney of a stack (R82, R107). -/
def blocksUsed (d : Dev) (k : Nat) : Nat :=
  d.eng.ops.foldl (fun n (_, o) => n + o.blocks * (o.legs.filter fun l => l.stack = k && legHolds l).length) 0

def tenantCtx (d : Dev) (k t : Nat) : Nat :=
  d.eng.ops.foldl (fun n (_, o) => if o.tenant = t then n + (o.legs.filter fun l => l.stack = k && legHolds l).length else n) 0

/-- Merge store in use on a tile, in 4 KiB units: operations, and results kept until their responses are acknowledged (R97, R258). -/
def mergeUsed (d : Dev) (tile : Nat) : Nat :=
  d.eng.ops.foldl (fun n (_, o) => if o.tile = tile && o.merge then n + o.need else n) 0
    + d.q.qps.foldl (fun n (_, q) =>
        n + (((q.conn.unacked.filter fun p => p.ptype = ptOperateResp && p.tile = tile).map fun p => (p.msn, p.keep)).dedup.map Prod.snd).sum) 0

/-- Pending-leg places taken on a tile (R24, R109). -/
def pendingUsed (d : Dev) (tile : Nat) : Nat :=
  poolUnits d 11 tile + d.eng.ops.foldl (fun n (_, o) => if o.tile = tile then n + (o.legs.filter legPlaced).length else n) 0

/-- Legs take pending-leg places in leg order as places free; a resident operation takes all of its own at once, and later operations wait for it (R97, R98). -/
def placeOps (tile : Nat) : List (Nat × Op) → Nat → List (Nat × Nat × Nat)
  | [], _ => []
  | (i, o) :: r, free =>
    let wait := ((List.range o.legs.length).zip o.legs).filter fun (_, l) => l.stage = .unplaced
    if o.tile ≠ tile || wait = [] then placeOps tile r free
    else if opResident o then
      if wait.length ≤ free then wait.map (fun (j, l) => (i, j, l.stack)) ++ placeOps tile r (free - wait.length) else []
    else
      let go := wait.take free
      go.map (fun (j, l) => (i, j, l.stack)) ++ placeOps tile r (free - go.length)

/-- Place what can be placed, at the tail of the stacks' lists (R92); a leg that finds no context or no blocks free is counted as waiting (log 15). -/
def placeLegs (tile : Nat) (d : Dev) : Dev :=
  (placeOps tile d.eng.ops (1024 - pendingUsed d tile)).foldl (fun d (i, j, k) =>
    let ten := (d.op? i).map (·.tenant)
    let b := ((d.op? i).map (·.blocks)).getD 0
    let d := if 64 ≤ ctxBusy d k then count 0x0702 k ten 1 d else d
    let d := if 64 < blocksUsed d k + b then count 0x0703 k ten 1 d else d
    let n := (nth d.eng.stk k {}).arrivals
    (noteSent 11 tile d).onStkEng k (fun s => { s with queue := s.queue ++ [(i, j)], arrivals := n + 1 })
      |>.onOp i fun o => { o with legs := modAt o.legs j fun l => { l with stage := .placed, ticket := n } }) d

def drainUp (w tile : Nat) (d : Dev) : Dev :=
  d.onXlt fun x => { x with windows := x.windows.upd w fun v => { v with drain := modAt v.drain tile (· + 1) } }

/-- An operation leaves its tile: its places, contexts, blocks and merge store are free again (R105, R108, R110). -/
def opGone (i : Nat) (d : Dev) : Dev :=
  match d.op? i with
  | none => d
  | some o =>
    let d := count 0x0705 o.tile (some o.tenant) 1 (tenCount o.tenant 6 1 d)
    let d := d.onEng fun e => { e with opsDone := modAt e.opsDone o.tile fun n => satAdd n 1 }
    placeLegs o.tile (dropOps (fun p => p.src = o.src) d)

/-- Answer a message of a peer with a NAK, once (R245, R267). -/
def nakMessage (n : Nat) (msn : BitVec 32) (code detail : Nat) (d : Dev) : Dev :=
  match d.qp? n with
  | none => d
  | some q =>
    let m := (q.conn.rx.find? fun m => m.msn = msn).getD { msn := msn, verb := 0#8, len := none }
    sendCtl n ptNak (nakExt m.psn msn code detail q.conn.cumRx 0) m.path.toNat d

/-- An operation fails (R104, R105): it writes nothing; a local entry completes with the code, a peer is answered REMOTE_OPERATOR with the detail. -/
def opFail (i code detail : Nat) (d : Dev) : Dev :=
  match d.op? i with
  | none => d
  | some o =>
    let d := count 0x0709 o.tile (some o.tenant) 1 (opGone i d)
    match o.src with
    | .entry n idx => endBad n idx code detail d
    | .message n msn _ _ =>
      let d := nakMessage n msn 0x09 detail d
      d.onConn n fun c => { c with rx := c.rx.map fun m => if m.msn = msn then { m with done := true, failed := true } else m }

/-- Adjacent pieces that are contiguous in DPA within a stack join (R95). -/
def joinRuns : List (Nat × Nat) → Nat → List SrcRun
  | [], _ => []
  | (p, n) :: r, off =>
    match joinRuns r (off + n) with
    | x :: rest => if p + n = x.dpa && dpaStack p = dpaStack x.dpa then ⟨off, p, n + x.len⟩ :: rest else ⟨off, p, n⟩ :: x :: rest
    | [] => [⟨off, p, n⟩]

/-- Groups of at most 256. -/
def chunks256 : Nat → List SrcRun → List (List SrcRun)
  | 0, _ => []
  | f + 1, l => if l = [] then [] else l.take 256 :: chunks256 f (l.drop 256)

def insLeg : List Leg → Leg → List Leg
  | [], x => [x]
  | y :: r, x =>
    if ((x.runs.head?.map (·.off)).getD 0) < ((y.runs.head?.map (·.off)).getD 0) then x :: y :: r else y :: insLeg r x

/-- The legs of a source cut into runs: by stack, 256 runs each, numbered by first source offset (R95, R99). -/
def legsOf (runs : List SrcRun) (blocks : Nat) : List Leg :=
  ((List.range 32).flatMap fun k =>
    (chunks256 (runs.length + 1) (runs.filter fun r => dpaStack r.dpa = k)).map fun rs =>
      ({ stack := k, runs := rs, blocks := blocks } : Leg)).foldl insLeg []

/-- An address of the descriptor as a tenant address: at a target, an offset within the window (R87). -/
def opAddr (o : Op) (a : Nat) : Nat :=
  match o.src with
  | .entry _ _ => a
  | .message _ _ _ base => base + a

/-- The ranges that legs read or write (R87), with whether they are written. -/
def opRanges (o : Op) : List (Nat × Nat × Bool) := (descRanges o.desc).map fun (a, n, w) => (opAddr o a, n, w)

/-- Where a local result goes (R87, R89). -/
def opResult (o : Op) : List (Nat × Nat × Bool) :=
  match o.src with
  | .entry _ _ => [(dResult o.desc, 32 + o.body, true)]
  | .message _ _ _ _ => []

/-- The first range that does not translate; one that legs use must be device memory. -/
def cutFault (d : Dev) (o : Op) (host : Bool) : List (Nat × Nat × Bool) → Option (Bool × XErr)
  | [] => none
  | (a, n, w) :: r =>
    if !host && !isDva a then some (w, .access)
    else match xrange d o.tile o.tenant a n w with
      | .error e => some (w, e)
      | .ok _ => cutFault d o host r

/-- A translated range as runs (R95). -/
def runsOf (d : Dev) (o : Op) (a n : Nat) (w : Bool) : List SrcRun :=
  match xrange d o.tile o.tenant a n w with
  | .ok l => joinRuns ((devPieces l).getD []) 0
  | .error _ => []

/-- The places of n bytes from an offset of a range (R95). -/
def runPlaces (runs : List SrcRun) (off n : Nat) : List (Nat × Nat) :=
  runs.filterMap fun r =>
    let lo := max off r.off
    let hi := min (off + n) (r.off + r.len)
    if lo < hi then some (r.dpa + (lo - r.off), hi - lo) else none

/-- Bytes of a range; the detail of R104 where a stack is offline or a codeword is poisoned (R58, R66). -/
def readRuns (d : Dev) (runs : List SrcRun) (off n : Nat) : Except Nat Bytes :=
  let l := runPlaces runs off n
  if l.any fun (p, _) => stackOffline d (dpaStack p) then .error 0x15
  else match readPieces d l with
    | some b => .ok b
    | none => .error 0x14

/-- Entry i of the list table of SET_OP: byte offset and count (R135). -/
def soEntry (opnd : Bytes) (i : Nat) : Nat × Nat := (u64 opnd (16 * i), u64 opnd (16 * i + 8))

/-- A list of SET_OP lies in the source (R135). -/
def soInside (b opnd : Bytes) (i : Nat) : Bool := (soEntry opnd i).1 + (soEntry opnd i).2 * soWidth b ≤ dSrcLen b

/-- The runs of list 0 of SET_OP (R137); none where it is empty or does not lie in the source. -/
def setParts (b t : Bytes) (src : List SrcRun) : List SrcRun :=
  let w := soWidth b
  let (off, cnt) := soEntry t 0
  if soInside b t 0 && off % w = 0 then
    src.filterMap fun r =>
      let lo := max off r.off
      let hi := min (off + cnt * w) (r.off + r.len)
      if lo < hi then some (⟨lo, r.dpa + (lo - r.off), hi - lo⟩ : SrcRun) else none
  else []

/-- What the cut of SET_OP reads: the list table, and the first key of each run of list 0 (R137). -/
def setReads (d : Dev) (o : Op) (src opnd : List SrcRun) : List (Nat × Nat) :=
  runPlaces opnd 0 (dOpndLen o.desc) ++ match readRuns d opnd 0 (dOpndLen o.desc) with
    | .error _ => []
    | .ok t => (setParts o.desc t src).flatMap fun r => runPlaces src r.off (soWidth o.desc)

/-- The legs of SET_OP, one for each run of list 0, with the first key of each (R137); one leg where list 0 is empty or does not lie in the source. -/
def setLegs (d : Dev) (o : Op) (src opnd : List SrcRun) : Except Nat (List Leg) :=
  match readRuns d opnd 0 (dOpndLen o.desc) with
  | .error e => .error e
  | .ok t =>
    let w := soWidth o.desc
    let parts := setParts o.desc t src
    if parts = [] then
      let at0 : SrcRun := match src with
        | r :: _ => { r with len := 0 }
        | [] => ⟨0, 0, 0⟩
      .ok [{ stack := dpaStack at0.dpa, runs := [at0], blocks := o.blocks }]
    else
      let keys := parts.map fun r => (readRuns d src r.off w).map leN
      match keys.findSome? fun k => match k with
        | .error e => some e
        | .ok _ => none with
      | some e => .error e
      | none =>
        let ks := keys.map fun k => k.toOption.getD 0
        let hi := (ks.drop 1).map some ++ [none]
        .ok ((parts.zip (ks.zip hi)).mapIdx fun i (r, k, h) =>
          { stack := dpaStack r.dpa, runs := [r], blocks := o.blocks, lo := if i = 0 then 0 else k, hi := h })

/-- The runs of the source and of the operand. -/
def srcOf (d : Dev) (o : Op) : List SrcRun := runsOf d o (opAddr o (dSrc o.desc)) (dSrcLen o.desc) false
def opndOf (d : Dev) (o : Op) : List SrcRun := if dOpndLen o.desc = 0 then [] else runsOf d o (opAddr o (dOpnd o.desc)) (dOpndLen o.desc) false

/-- What the cut of a SET_OP reads can be reached from its tile (R12, R18, R21). -/
def cutOpen (d : Dev) (o : Op) : Bool :=
  dOp o.desc ≠ opSet || placesOpen d o.tile ((setReads d o (srcOf d o) (opndOf d o)).map fun (p, n) => (.dev p, n))

/-- The cut of a SET_OP reads after the accesses held before it, and wakes the stacks it reads (R48, R65). -/
def cutTouch (o : Op) (d : Dev) : Dev :=
  if dOp o.desc ≠ opSet then d
  else
    let at_ (l : List (Nat × Nat)) : List (Place × Nat) := l.map fun (p, n) => (.dev p, n)
    let d := touchPlaces (at_ (runPlaces (opndOf d o) 0 (dOpndLen o.desc))) d
    touchPlaces (at_ (setReads d o (srcOf d o) (opndOf d o))) d

/-- Cut an operation that holds its merge store (R95, R96, R137): it stalls on a fault, fails where an address is refused, legs are too many or a leg's stack is offline (R66), and otherwise its legs take places. -/
def cutOp (i : Nat) (d : Dev) : Dev :=
  match d.op? i with
  | none => d
  | some o =>
    if !o.merge || o.stage = .cut then d
    else
      let d := d.onOp i fun o => if o.stage = .waiting then { o with start := d.pwr.tsc } else o
      match (cutFault d o false (opRanges o)).orElse fun _ => cutFault d o true (opResult o) with
      | some (w, e) =>
        match stallOn o.tile o.tenant w (.op i) e d with
        | (.waits, d) => d.onOp i fun o => { o with stage := .stalled }
        | (.refused, d) => opFail i ccLocalAccess 0x10 d
        | (.unresolved, d) => opFail i ccFaultUnresolved 0x13 d
      | none =>
        let b := o.desc
        let d := cutTouch o d
        let src := srcOf d o
        let opnd := opndOf d o
        let dst := if dOp b = opCopy then runsOf d o (opAddr o (cpDst b)) (dRows b * cpStride b) true else []
        let res := (opResult o).flatMap fun (a, n, w) => (xrange d o.tile o.tenant a n w).toOption.getD []
        let d := (opRanges o ++ opResult o).foldl (fun d (a, n, w) => lookupRange o.tile o.tenant a n (.work (.op i) w) d) d
        match if dOp b = opSet then setLegs d o src opnd else .ok (legsOf src o.blocks) with
        | .error e => opFail i ccUncorrectable e d
        | .ok legs =>
          if 512 < legs.length then opFail i ccMalformed 0x0C d
          else if legs.any fun l => stackOffline d l.stack then opFail i ccUncorrectable 0x15 d
          else placeLegs o.tile (d.onOp i fun o => { o with stage := .cut, legs := legs, srcRuns := src, opndRuns := opnd, dstRuns := dst, resRuns := res })

/-- The operation that has waited longest on a tile for merge store (R97). -/
def mergeHead (d : Dev) (tile : Nat) : Option (Nat × Op) := d.eng.ops.find? fun (_, o) => o.tile = tile && !o.merge

/-- Every operation with a leg on the stack that matches fails (R66, R106). -/
def opsOnStack (d : Dev) (k : Nat) : List Nat :=
  (d.eng.ops.filter fun (_, o) => o.legs.any fun l => l.stack = k && l.stage ≠ .ended).map Prod.fst

end Sys2Proof.Machine
end

