-- ==== Sys2Proof/Machine/TxOps.lean ====
section
/-! DEFINITION. Messages and responses enter a connection's send sequence (R242, R249 to R251, R258). -/

namespace Sys2Proof.Machine

/-- Offsets and lengths of the packets of L bytes; one packet when L is 0 (R250). -/
def cutSizes (mtu total : Nat) : List (Nat × Nat) :=
  if total = 0 then [(0, 0)] else (List.range (ceilDiv total mtu)).map fun j => (j * mtu, min mtu (total - j * mtu))

/-- Number the packets of a message or response in the one sequence of the queue pair and make them due (R249, R250). -/
def pushPkts (n : Nat) (t : BitVec 8) (ext : Bytes) (msn : BitVec 32) (total : Nat) (data : Option Bytes) (addr : Option Nat) (imm : Bool) (d : Dev) : Dev :=
  d.onConn n fun c =>
    let ps := (cutSizes c.mtu total).mapIdx fun j (off, len) =>
      ({ psn := c.nextPsn + BitVec.ofNat 32 j, ptype := t, msn := msn, off := off, len := len, first := off = 0, last := off + len = total,
         ext := ext, data := data.map fun b => slice b off len, addr := addr, imm := imm, total := total, sentAt := now d } : TxPkt)
    { c with unacked := c.unacked ++ ps, nextPsn := c.nextPsn + BitVec.ofNat 32 ps.length }

/-- A message of a peer has been answered in full: READ, ATOMIC and OPERATE end at the receiver. -/
def rxDone (n : Nat) (msn : BitVec 32) (d : Dev) : Dev :=
  d.onConn n fun c => { c with rx := c.rx.map fun m => if m.msn = msn then { m with done := true } else m }

/-- The entry of a message. -/
def msgEntry (q : Qp) (m : TxMsg) : Bytes := ((q.begun.find? fun b => b.idx = m.idx && b.msn = some m.msn).map (·.bytes)).getD (zpad 64)

/-- A message's source in host memory is read piece by piece, at the places its entry was translated to (R31, R164, R386). -/
def messageRead (n : Nat) (msn : BitVec 32) (d : Dev) : Dev :=
  match d.qp? n with
  | none => d
  | some q => match q.conn.msgs.find? fun m => m.msn = msn with
    | none => d
    | some m =>
      let got := (m.data.getD []).length
      match dropPlaces got m.runs with
      | (.host p pasid a, k) :: _ =>
        let (tag, d) := hostRead p pasid a k (.message n msn) d
        d.onConn n fun c => { c with msgs := c.msgs.map fun m => if m.msn = msn then { m with hostTag := some tag } else m }
      | _ => d

/-- The extensions that every packet of a request carries (R241, R242). -/
def reqExt (m : TxMsg) (b : Bytes) : Bytes :=
  let remote := toBE 4 (u32 b 0x1C) ++ toBE 4 (u32 b 0x28) ++ toBE 8 (if m.verb = 6 then 0 else u64 b 0x20)
  let recv := match m.ssn with
    | some s => toBE 4 s.toNat ++ toBE 4 m.len ++ toBE 4 (if tb (u8 b 1) 3 then u32 b 4 else 0) ++ zpad 4
    | none => []
  if m.verb = 3 then recv
  else if m.verb = 1 then remote ++ recv
  else if m.verb = 2 then remote ++ toBE 4 m.len ++ zpad 4
  else if m.verb = 5 then remote ++ slice b 0x18 2 ++ zpad 6 ++ toBE 8 (u64 b 0x30) ++ toBE 8 (u64 b 0x38)
  else remote

def reqType (verb : Nat) : BitVec 8 :=
  if verb = 1 then ptWrite else if verb = 2 then ptReadReq else if verb = 3 then ptSend else if verb = 5 then ptAtomicReq else ptOperateReq

/-- The first waiting message opens while its MSN comes before MSN_LIMIT (R251). -/
def openOne (n : Nat) (d : Dev) : Dev :=
  match d.qp? n with
  | none => d
  | some q => match q.conn.msgs.find? fun m => !m.opened with
    | none => d
    | some m =>
      if 0 ≤ seqDiff m.msn q.conn.msnLimit then d
      else
        let b := msgEntry q m
        let data := m.verb = 1 || m.verb = 3
        let total := if data || m.verb = 6 then m.len else 0
        let d := d.onConn n fun c => { c with msgs := c.msgs.map fun x => if x.msn = m.msn then { x with opened := true } else x }
        let d := tenCount q.par.tenant 2 1 d
        pushPkts n (reqType m.verb) (reqExt m b) m.msn total m.data (if data && !tb (u8 b 1) 4 then some (u64 b 0x10) else none) (data && tb (u8 b 1) 3) d

/-- Every waiting message that may open does, in order. -/
def openMsgs (n : Nat) (d : Dev) : Dev := iter (openOne n) (((d.qp? n).map (·.conn.msgs.length)).getD 0) d

end Sys2Proof.Machine
end

