-- ==== Sys2Proof/Machine/OpLegs.lean ====
section
/-! DEFINITION. What a leg of each operator computes and what its tile merges and delivers (R99 to R101, R113 to R151). Memory is read as it stands (R153). -/

namespace Sys2Proof.Machine

/-- What a leg hands back (R112): its partial, numerical flags, straddled rows, bytes read (R89; log 40). -/
structure LegOut where
  part : Partial
  flags : NumFlags := {}
  straddled : Nat := 0
  streamed : Nat := 0
  deriving DecidableEq, Repr

/-- The results of f along a list; the first error stops. -/
def collect {α β : Type} (f : α → Except Nat β) : List α → Except Nat (List β)
  | [] => .ok []
  | x :: r => match f x with
    | .error e => .error e
    | .ok y => match collect f r with
      | .error e => .error e
      | .ok l => .ok (y :: l)

def orFlags (l : List NumFlags) : NumFlags := l.foldl NumFlags.or {}

/-- Rows whose first byte lies in a run (R95, R99). -/
def rowsOfRun (stride : Nat) (r : SrcRun) : List Nat :=
  let a := ceilDiv r.off stride
  (List.range (ceilDiv (r.off + r.len) stride - a)).map (a + ·)

def legRows (b : Bytes) (l : Leg) : List Nat := l.runs.flatMap (rowsOfRun (dStride b))

def inRuns (runs : List SrcRun) (off : Nat) : Bool := runs.any fun r => r.off ≤ off && off < r.off + r.len

/-- A row as a leg reads it: bytes, offset of its first byte in its granule, whether it straddles runs (R95). -/
structure RowIn where
  bytes : Bytes
  gran : Nat
  straddles : Bool

def rowAt (d : Dev) (o : Op) (off n : Nat) : Except Nat RowIn :=
  let l := runPlaces o.srcRuns off n
  match readRuns d o.srcRuns off n with
  | .error e => .error e
  | .ok b => .ok ⟨b, ((l.head?.map Prod.fst).getD 0) % 256, 1 < l.length⟩

def countStr (l : List RowIn) : Nat := (l.filter (·.straddles)).length

/-- What rows, or pages, that begin in a leg's runs read past them (R95). -/
def overhang (o : Op) (l : Leg) : List SrcRun :=
  let b := o.desc
  let (s, n) := if dOp b = opAttend then (pageBytes b, pageBytes b) else (dStride b, inFp b)
  l.runs.flatMap fun r =>
    let stop := r.off + r.len
    let c := ceilDiv stop s
    let fin := (c - 1) * s + n
    if ceilDiv r.off s < c && stop < fin then (runPlaces o.srcRuns stop (fin - stop)).map fun (p, m) => (⟨stop, p, m⟩ : SrcRun) else []

-- SCORE (R118 to R121)

/-- Query j of an operand of rows. -/
def queryRow (b opnd : Bytes) (j : Nat) : Bytes := slice opnd (j * opndFp b) (opndFp b)

def threshold (b : Bytes) : Num := if (dIn b).isInt then .i (sext 32 (u32 b 0x44)) else .f (BitVec.ofNat 32 (u32 b 0x44))

/-- A row is a candidate under THRESHOLD (R120). -/
def scCandidate (b : Bytes) (s : Num) : Bool :=
  !tb (u8 b 0x43) 0 || (!numIsNan s && !scoreBefore (dDist b) (threshold b) s)

def scoreLeg (d : Dev) (o : Op) (l : Leg) : Except Nat LegOut :=
  let b := o.desc
  let rows := legRows b l
  match collect (fun r => rowAt d o (r * dStride b) (inFp b)) rows with
  | .error e => .error e
  | .ok xs =>
    let scores := xs.map fun x => (List.range (scQueries b)).map fun j =>
      rowScore (dSat b) (u8 b 0x42 = 1) (dIn b) (dOpndFmt b) (dDim b) x.gran x.bytes (queryRow b l.operand j)
    let part : Partial :=
      if dK b = 0 then .dense (scores.map fun s => s.map Prod.fst)
      else .selected ((List.range (scQueries b)).map fun j =>
        topK (dDist b) (dK b) ((rows.zip scores).filterMap fun (r, s) =>
          let v := (nth s j (.i 0, {})).1
          if scCandidate b v then some ⟨(idBase b + r) % 2 ^ 64, v, j⟩ else none))
    .ok ⟨part, orFlags (scores.flatMap fun s => s.map Prod.snd), countStr xs, rows.length * inFp b⟩

-- GATHER_REDUCE (R124 to R127)

def grOffset (opnd : Bytes) (i : Nat) : Nat := u32 opnd (4 * i)
def grIndex (b opnd : Bytes) (k : Nat) : Nat := u32 opnd (4 * (grBags b + 1) + 4 * k)
def grWeight (b opnd : Bytes) (k : Nat) : BitVec 32 := BitVec.ofNat 32 (u32 opnd (4 * (grBags b + 1) + 4 * grIndices b + 4 * k))
def grMax (b : Bytes) : Bool := u8 b 0x48 = 2

def numAdd (sat : Bool) : Num → Num → Num × NumFlags
  | .f x, .f y => let (z, g) := fadd sat x y; (.f z, g)
  | .i x, .i y => (.i (x + y), {})
  | x, _ => (x, {})

/-- The larger; of equal values the earlier; NaN wins. -/
def numMax : Num → Num → Num × NumFlags
  | .f x, .f y => if isNan x || isNan y then (.f f32Nan, sawNan) else (.f (fmax x y), {})
  | .i x, .i y => (.i (max x y), {})
  | x, _ => (x, {})

/-- The smaller, in the same way. -/
def numMin : Num → Num → Num × NumFlags
  | .f x, .f y => if isNan x || isNan y then (.f f32Nan, sawNan) else (.f (if f32Key y < f32Key x then y else x), {})
  | .i x, .i y => (.i (min x y), {})
  | x, _ => (x, {})

/-- Element by element. -/
def zipNum (f : Num → Num → Num × NumFlags) : List Num → List Num → List Num × NumFlags
  | x :: r, y :: s => let (z, g) := f x y; let (t, h) := zipNum f r s; (z :: t, g.or h)
  | _, _ => ([], {})

/-- A contribution joins a bag's partial; a marked partial takes no part (R127). -/
def bagJoin (f : Num → Num → Num × NumFlags) (a : BagPart × NumFlags) (p : BagPart × NumFlags) : BagPart × NumFlags :=
  if p.1.count = 0 then (a.1, a.2.or p.2)
  else if a.1.count = 0 then (p.1, a.2.or p.2)
  else let (e, g) := zipNum f a.1.elems p.1.elems; (⟨a.1.count + p.1.count, e⟩, (a.2.or p.2).or g)

/-- Element values of one contribution, weighted where the body says so (R126). -/
def grContribution (b : Bytes) (row : Bytes) (w : BitVec 32) : BagPart × NumFlags :=
  let es := (List.range (dDim b)).map fun i =>
    if (dIn b).isInt then (Num.i (rowInt (dIn b) row i), ({} : NumFlags))
    else
      let (v, g) := rowF32 (dSat b) (dIn b) (dDim b) row i
      if tb (u8 b 0x49) 0 then let (z, h) := fmul (dSat b) v w; (.f z, g.or h) else (.f v, g)
  (⟨1, es.map Prod.fst⟩, orFlags (es.map Prod.snd))

/-- Insertion by row index; equal indices keep their order. -/
def insIndex (x : Nat × Nat) : List (Nat × Nat) → List (Nat × Nat)
  | [] => [x]
  | y :: r => if x.1 < y.1 then x :: y :: r else y :: insIndex x r

def grReduce (b : Bytes) : Num → Num → Num × NumFlags := if grMax b then numMax else numAdd (dSat b)

/-- One bag of a leg. -/
def grBag (d : Dev) (o : Op) (l : Leg) (i : Nat) : Except Nat (BagPart × NumFlags × Nat × Nat) :=
  let b := o.desc
  let lo := grOffset l.operand i
  let mine := ((List.range (grOffset l.operand (i + 1) - lo)).map fun j => (grIndex b l.operand (lo + j), lo + j)).filter fun (r, _) =>
    inRuns l.runs (r * dStride b)
  let order := mine.foldl (fun a x => insIndex x a) []
  match collect (fun (x : Nat × Nat) => rowAt d o (x.1 * dStride b) (inFp b)) order with
  | .error e => .error e
  | .ok rows =>
    let (p, fl) := ((order.zip rows).map fun (x, r) => grContribution b r.bytes (grWeight b l.operand x.2)).foldl (bagJoin (grReduce b)) (⟨0, []⟩, {})
    .ok (p, fl, countStr rows, rows.length * inFp b)

def gatherLeg (d : Dev) (o : Op) (l : Leg) : Except Nat LegOut :=
  match collect (grBag d o l) (List.range (grBags o.desc)) with
  | .error e => .error e
  | .ok bs => .ok ⟨.bags (bs.map (·.1)), orFlags (bs.map (·.2.1)), (bs.map (·.2.2.1)).sum, (bs.map (·.2.2.2)).sum⟩

-- SET_OP (R134 to R138)

/-- Bytes as stored, poison aside. -/
def rawRuns (d : Dev) (runs : List SrcRun) (off n : Nat) : Bytes := (runPlaces runs off n).flatMap fun (p, m) => memBytes d p m

/-- The keys of list i. -/
def setKeys (d : Dev) (o : Op) (t : Bytes) (i : Nat) : List Nat :=
  let w := soWidth o.desc
  let (off, n) := soEntry t i
  (List.range n).map fun k => leN (rawRuns d o.srcRuns (off + k * w) w)

def ascending : List Nat → Bool
  | x :: y :: r => x < y && ascending (y :: r)
  | _ => true

/-- Whether a key is in the result (R136). -/
def inSet (b : Bytes) (lists : List (List Nat)) (k : Nat) : Bool :=
  let n := (lists.filter fun l => l.contains k).length
  let op := u8 b 0x40
  if op = 0 then n = lists.length
  else if op = 1 then 1 ≤ n
  else if op = 2 then (lists.headD []).contains k && n = 1
  else u32 b 0x44 ≤ n

/-- The part of list i that a leg reads, as indices: its own runs of list 0; of another list its key range, found by binary search (R137): the whole list where the range has no bounds; where the search lands in a list out of order is open (log 8). -/
def setPart (w : Nat) (l : Leg) (i off : Nat) (keys : List Nat) : List Nat :=
  let all := List.range keys.length
  let inR (k : Nat) : Bool := l.lo ≤ k && (match l.hi with
    | some h => k < h
    | none => true)
  if i = 0 then all.filter fun k => inRuns l.runs (off + k * w)
  else if ascending keys || (l.lo = 0 && l.hi.isNone) then all.filter fun k => inR (nth keys k 0)
  else let (a, n) := Config.setOpSearch keys (l.lo :: l.hi.toList); all.filter fun k => a ≤ k && k < a + n

/-- The keys of a leg's range, from its own part of list 0 and from the other lists (R137): exact where every list ascends, MALFORMED where the leg reads a disorder, else the unspecified function of R136. -/
def setLeg (d : Dev) (o : Op) (l : Leg) : Except Nat LegOut :=
  let b := o.desc
  let w := soWidth b
  let lists := (List.range (soLists b)).map (setKeys d o l.operand)
  let inR (k : Nat) : Bool := l.lo ≤ k && (match l.hi with
    | some h => k < h
    | none => true)
  let parts := (List.range (soLists b)).map fun i => (i, setPart w l i (soEntry l.operand i).1 (nth lists i []))
  let places := parts.flatMap fun (i, ks) => ks.map fun k => (soEntry l.operand i).1 + k * w
  match collect (fun a => readRuns d o.srcRuns a w) places with
  | .error e => .error e
  | .ok _ =>
    let read := parts.map fun (i, ks) => ks.map fun k => nth (nth lists i []) k 0
    if !read.all ascending then .error 0x09
    else
      let n := places.length * w
      if (lists.drop 1).all ascending then
        let all := (read.flatten.filter inR).foldl insNat []
        .ok ⟨.keys (all.filter (inSet b read)), {}, 0, n⟩
      else .ok ⟨.keys (Config.setOpUnordered (read.headD [] :: lists.drop 1) (l.lo :: l.runs.flatMap fun r => [r.off, r.dpa, r.len])), {}, 0, n⟩

-- ATTEND (R139 to R142)

def atPage (b opnd : Bytes) (i : Nat) : Nat := u32 opnd (atHeads b * opndFp b + 4 * i)

/-- One page of a leg: a partial for each head (R141 step 1). -/
def attendPage (d : Dev) (o : Op) (l : Leg) (pos : Nat) : Except Nat (List Lse × NumFlags × Bool × Nat) :=
  let b := o.desc
  let n := dDim b
  let base := atPage b l.operand pos * pageBytes b
  let toks := min (atTokens b) (atSeq b - pos * atTokens b)
  let row (t : Nat) : Except Nat RowIn := rowAt d o (base + t * dStride b) (inFp b)
  match collect row (List.range toks), collect (fun t => row (atTokens b + t)) (List.range toks) with
  | .error e, _ => .error e
  | _, .error e => .error e
  | .ok ks, .ok vs =>
    let heads := (List.range (atHeads b)).map fun h =>
      let q := queryRow b l.operand h
      let ss := ks.map fun x =>
        let (s, f) := rowScoreF (dSat b) false (dIn b) (dOpndFmt b) n x.gran x.bytes q
        let (z, g) := fmul (dSat b) (BitVec.ofNat 32 (u32 b 0x48)) s
        (z, f.or g)
      let m := (ss.map Prod.fst).foldl fmax f32NegInf
      let es := ss.map fun (s, _) => let (x, f) := fsub (dSat b) s m; let (e, g) := fexp x; (e, f.or g)
      let (lsum, lf) := match es.map Prod.fst with
        | [] => (0#32, ({} : NumFlags))
        | e :: r => fsum (dSat b) r e {}
      let os := (List.range n).map fun i =>
        pieceSum (dSat b) ((es.zip vs).map fun (e, v) => mulVal (f32Val e.1) (rowVal (dIn b) n v.bytes i))
      ((⟨m, lsum, os.map Prod.fst⟩ : Lse), ((orFlags (ss.map Prod.snd)).or (orFlags (es.map Prod.snd))).or (lf.or (orFlags (os.map Prod.snd))))
    .ok (heads.map Prod.fst, orFlags (heads.map Prod.snd), 1 < (runPlaces o.srcRuns base (pageBytes b)).length, 2 * toks * inFp b)

def emptyLse (n : Nat) : Lse := ⟨f32NegInf, 0#32, List.replicate n 0#32⟩

/-- Partials of each head merged in order (R101). -/
def mergeHeads (sat : Bool) (n heads : Nat) (ps : List (List Lse)) : List Lse × NumFlags :=
  let r := (List.range heads).map fun h => mergeLses sat (ps.map fun p => nth p h (emptyLse n)) none {}
  (r.map fun x => x.1.getD (emptyLse n), orFlags (r.map Prod.snd))

def attendLeg (d : Dev) (o : Op) (l : Leg) : Except Nat LegOut :=
  let b := o.desc
  let mine := (List.range (atPages b)).filter fun i => inRuns l.runs (atPage b l.operand i * pageBytes b)
  match collect (attendPage d o l) mine with
  | .error e => .error e
  | .ok ps =>
    let (hs, fl) := mergeHeads (dSat b) (dDim b) (atHeads b) (ps.map (·.1))
    .ok ⟨.attend hs, fl.or (orFlags (ps.map (·.2.1))), (ps.filter (·.2.2.1)).length, (ps.map (·.2.2.2)).sum⟩

-- SCAN (R144 to R146)

/-- a is at most b; false where either is NaN. -/
def valLe (a b : Val) : Bool :=
  match a, b with
  | .nan, _ => false
  | _, .nan => false
  | .inf s, .inf t => s || !t
  | .inf s, _ => s
  | _, .inf t => !t
  | a, b => match addVal a (negVal b) with
    | .fin s m _ => m = 0 || s
    | _ => false

/-- A bound of SCAN. -/
def snBound (b : Bytes) (x : Nat) : Val := if (dIn b).isInt then valOf (sext 32 x) 0 else f32Val (BitVec.ofNat 32 x)

/-- A row passes every term of a SCAN (R145). A NaN fails each term and sets no NAN_SEEN of itself (log 96). -/
def snPasses (b row : Bytes) : Bool :=
  (List.range (u8 b 0x40)).all fun k =>
    let (c, lo, hi) := snTerm b k
    let v := rowVal (dIn b) (dDim b) row c
    valLe (snBound b lo) v && valLe v (snBound b hi)

/-- The running sum and extremes of a column. -/
def aggAdd (sat : Bool) (a : Option (Num × Num × Num)) (x : Num) : Option (Num × Num × Num) × NumFlags :=
  match a with
  | none => (some (x, x, x), {})
  | some (s, lo, hi) =>
    let (s, f) := numAdd sat s x
    let (lo, g) := numMin lo x
    let (hi, h) := numMax hi x
    (some (s, lo, hi), f.or (g.or h))

def scanLeg (d : Dev) (o : Op) (l : Leg) : Except Nat LegOut :=
  let b := o.desc
  let rows := legRows b l
  match collect (fun r => rowAt d o (r * dStride b) (inFp b)) rows with
  | .error e => .error e
  | .ok xs =>
    let hit := (rows.zip xs).filter fun (_, x) => snPasses b x.bytes
    let col := u16 b 0x42
    let (agg, fl) := if col = 0xFFFF then (none, ({} : NumFlags)) else hit.foldl (fun (a, f) (_, x) =>
        let (v, g) := if (dIn b).isInt then (Num.i (rowInt (dIn b) x.bytes col), ({} : NumFlags))
          else let (y, g) := rowF32 (dSat b) (dIn b) (dDim b) x.bytes col; (.f y, g)
        let (a, h) := aggAdd (dSat b) a v
        (a, f.or (g.or h))) (none, {})
    let zero : Num := if (dIn b).isInt then .i 0 else .f 0#32
    .ok ⟨.scan hit.length ((agg.map fun a => a.1).getD zero) (agg.map fun a => a.2) (hit.map Prod.fst), fl, countStr xs, rows.length * inFp b⟩

-- SCATTER_ADD and COPY_CONVERT (R147 to R151): these write

/-- Bytes of the elements of a row. -/
def elemBytes (n : Nat) (f : Fmt) : Nat := ceilDiv (n * f.bits) 8

def saIndex (opnd : Bytes) (k : Nat) : Nat := u32 opnd (4 * k)
def saRow (b opnd : Bytes) (k : Nat) : Bytes := slice opnd (4 * saUpdates b + k * opndFp b) (opndFp b)

/-- The new elements of a row: its updates added in list order (R148). -/
def saApply (b row : Bytes) (ups : List Bytes) : Bytes × NumFlags :=
  let n := dDim b
  let es := (List.range n).map fun i =>
    let (v, f) := ups.foldl (fun (v, f) u =>
      let (x, g) := rowF32 (dSat b) (dOpndFmt b) n u i
      let (z, h) := fadd (dSat b) v x
      (z, f.or (g.or h))) (rowF32 (dSat b) (dIn b) n row i)
    let (e, g) := toFmt (dIn b) (dRound b) (dSat b) (f32Val v)
    (e, f.or g)
  (packElems (dIn b).bits (es.map Prod.fst), orFlags (es.map Prod.snd))

/-- Rows of a writing leg in order: a row that cannot be read or written stops the leg, and rows written stay (R149). -/
def writeRows (f : Nat → Dev → Except Nat (List (Nat × Nat) × Bytes × NumFlags × RowIn)) (len : Nat) :
    List Nat → LegOut → Dev → Except Nat LegOut × Dev
  | [], out, d => (.ok out, d)
  | r :: rest, out, d =>
    match f r d with
    | .error e => (.error e, d)
    | .ok (at_, bytes, fl, x) =>
      if at_.any fun (p, _) => stackOffline d (dpaStack p) then (.error 0x15, d)
      else writeRows f len rest { out with
        flags := out.flags.or fl
        straddled := out.straddled + b2n x.straddles
        streamed := out.streamed + len } (writePieces at_ bytes d)

def scatterLeg (d : Dev) (o : Op) (l : Leg) : Except Nat LegOut × Dev :=
  let b := o.desc
  let ups := (List.range (saUpdates b)).filter fun k => inRuns l.runs (saIndex l.operand k * dStride b)
  let rows := (ups.map (saIndex l.operand)).foldl insNat []
  let n := elemBytes (dDim b) (dIn b)
  writeRows (fun r d => match rowAt d o (r * dStride b) n with
    | .error e => .error e
    | .ok x =>
      let (nb, fl) := saApply b x.bytes ((ups.filter fun k => saIndex l.operand k = r).map (saRow b l.operand))
      .ok (runPlaces o.srcRuns (r * dStride b) n, nb, fl, x)) (inFp b) rows ⟨.applied ups.length, {}, 0, 0⟩ d

/-- A converted row (R151). -/
def cpRow (b row : Bytes) : Bytes × NumFlags :=
  let n := dDim b
  let scaled := tb (u8 b 0x4C) 0
  let vs := (List.range n).map fun i =>
    if (dIn b).isInt && (dOut b).isInt && !scaled then (valOf (rowInt (dIn b) row i) 0, ({} : NumFlags))
    else
      let (v, f) := rowF32 (dSat b) (dIn b) n row i
      if scaled then let (z, g) := fmul (dSat b) v (BitVec.ofNat 32 (u32 b 0x50)); (f32Val z, f.or g) else (f32Val v, f)
  let (out, g) := encodeRow (dOut b) (dRound b) (dSat b) (vs.map Prod.fst)
  (out, (orFlags (vs.map Prod.snd)).or g)

def copyLeg (d : Dev) (o : Op) (l : Leg) : Except Nat LegOut × Dev :=
  let b := o.desc
  let rows := legRows b l
  writeRows (fun r d => match rowAt d o (r * dStride b) (inFp b) with
    | .error e => .error e
    | .ok x =>
      let (nb, fl) := cpRow b x.bytes
      .ok (runPlaces o.dstRuns (r * cpStride b) (outFp b), nb, fl, x)) (inFp b) rows ⟨.applied rows.length, {}, 0, 0⟩ d

/-- A leg of an operator whose legs do not stay resident. -/
def legCompute (d : Dev) (o : Op) (l : Leg) : Except Nat LegOut × Dev :=
  let op := dOp o.desc
  if op = opScore then (scoreLeg d o l, d)
  else if op = opGather then (gatherLeg d o l, d)
  else if op = opSet then (setLeg d o l, d)
  else if op = opAttend then (attendLeg d o l, d)
  else if op = opScan then (scanLeg d o l, d)
  else if op = opScatter then scatterLeg d o l
  else copyLeg d o l

-- Merges (R99 to R101) and result bodies

/-- The 16 bytes of a selected entry (R114). -/
def entryBytes (e : Entry) : Bytes := toLE 8 e.id ++ toLE 4 (numBits e.score) ++ toLE 2 e.info ++ zpad 2

def noEntry : Bytes := List.replicate 8 0xFF#8 ++ zpad 4 ++ [0xFF#8, 0xFF#8] ++ zpad 2

/-- A list of K entries in rank order. -/
def listBytes (k : Nat) (l : List Entry) : Bytes := (List.range k).flatMap fun i => match l[i]? with
  | some e => entryBytes e
  | none => noEntry

def legLists (l : Leg) (j : Nat) : List Entry := match l.part with
  | .selected ls => nth ls j []
  | _ => []

/-- Insertion by key. -/
def insKey {α : Type} (x : Nat × α) : List (Nat × α) → List (Nat × α)
  | [] => [x]
  | y :: r => if x.1 < y.1 then x :: y :: r else y :: insKey x r

/-- Numbers of rows across legs in row order. -/
def byRow {α : Type} (l : List (Nat × α)) : List α := (l.foldl (fun a x => insKey x a) []).map Prod.snd

def mergeScore (o : Op) : Bytes × NumFlags :=
  let b := o.desc
  if dK b = 0 then
    let rows := byRow (o.legs.flatMap fun l => match l.part with
      | .dense s => (legRows b l).zip s
      | _ => [])
    let es := (List.range (scQueries b)).flatMap fun j => rows.map fun s => toFmt (dOut b) (dRound b) (dSat b) (numVal (nth s j (.i 0)))
    (es.flatMap fun e => toLE ((dOut b).bits / 8) e.1, orFlags (es.map Prod.snd))
  else
    let ls := (List.range (scQueries b)).map fun j => topK (dDist b) (dK b) (o.legs.flatMap fun l => legLists l j)
    (ls.flatMap (listBytes (dK b)), { kShort := ls.any fun l => l.length < dK b, empty := ls.all fun l => l.isEmpty })

/-- A bag's row as values to convert (R126). -/
def bagVals (b : Bytes) (p : BagPart) : List (Val × NumFlags) :=
  if p.count = 0 then List.replicate (dDim b) (.fin false 0 0, {})
  else p.elems.map fun e => match e with
    | .f x =>
      if u8 b 0x48 = 1 then let (z, g) := fdiv (dSat b) x (toF32 false (valOf p.count 0)).1; (f32Val z, g) else (f32Val x, {})
    | .i n =>
      if u8 b 0x48 = 1 then (divVal (valOf n 0) (valOf p.count 0), {}) else let (i, g) := satI32 n; (valOf i 0, g)

def mergeGather (o : Op) : Bytes × NumFlags :=
  let b := o.desc
  let bags := (List.range (grBags b)).map fun i =>
    (o.legs.map fun l => match l.part with
      | .bags bs => (nth bs i ⟨0, []⟩, ({} : NumFlags))
      | _ => (⟨0, []⟩, {})).foldl (bagJoin (grReduce b)) (⟨0, []⟩, {})
  let rows := bags.map fun (p, f) =>
    let vs := bagVals b p
    let (out, g) := encodeRow (dOut b) (dRound b) (dSat b) (vs.map Prod.fst)
    (out, (f.or g).or (orFlags (vs.map Prod.snd)))
  (rows.flatMap Prod.fst, (orFlags (rows.map Prod.snd)).or { empty := bags.all fun p => p.1.count = 0 })

def mergeSet (o : Op) : Bytes × NumFlags :=
  let b := o.desc
  let ks := o.legs.flatMap fun l => match l.part with
    | .keys k => k
    | _ => []
  let n := min ks.length (soMax b)
  (toLE 8 ks.length ++ toLE 4 n ++ zpad 4 ++ (ks.take n).flatMap (toLE (soWidth b)), { empty := ks.isEmpty })

def lseZero (p : Lse) : Bool := p.l = 0#32 || p.l = 0x80000000#32

def mergeAttend (o : Op) : Bytes × NumFlags :=
  let b := o.desc
  let (hs, fl) := mergeHeads (dSat b) (dDim b) (atHeads b) (o.legs.map fun l => match l.part with
    | .attend h => h
    | _ => [])
  let rows := hs.map fun p =>
    let vs := if lseZero p then p.o.map fun _ => (Val.fin false 0 0, ({} : NumFlags))
      else p.o.map fun x => let (z, g) := fdiv (dSat b) x p.l; (f32Val z, g)
    let (out, g) := encodeRow (dOut b) (dRound b) (dSat b) (vs.map Prod.fst)
    (out, g.or (orFlags (vs.map Prod.snd)))
  let lse := hs.map fun p => if lseZero p then (f32NegInf, ({} : NumFlags)) else
    let (x, f) := fln p.l; let (z, g) := fadd (dSat b) p.m x; (z, f.or g)
  let on := tb (u8 b 0x41) 0
  (rows.flatMap Prod.fst ++ (if on then lse.flatMap fun x => toLE 4 x.1.toNat else []),
    ((fl.or (orFlags (rows.map Prod.snd))).or (if on then orFlags (lse.map Prod.snd) else {})).or { empty := hs.all lseZero })

def mergeScan (o : Op) : Bytes × NumFlags :=
  let b := o.desc
  let ps := o.legs.filterMap fun l => match l.part with
    | .scan m s mm ids => some (m, s, mm, ids)
    | _ => none
  let total := (ps.map (·.1)).sum
  let ids := byRow (ps.flatMap fun p => p.2.2.2.map fun r => (r, r))
  let n := min total (snMax b)
  let (agg, fl) := ps.foldl (fun (a, f) p => match p.2.2.1 with
    | none => (a, f)
    | some (lo, hi) => match a with
      | none => (some (p.2.1, lo, hi), f)
      | some (s, l, h) =>
        let (s, f1) := numAdd (dSat b) s p.2.1
        let (l, f2) := numMin l lo
        let (h, f3) := numMax h hi
        (some (s, l, h), f.or (f1.or (f2.or f3)))) ((none : Option (Num × Num × Num)), ({} : NumFlags))
  let (s, lo, hi) := agg.getD (.i 0, .i 0, .i 0)
  let sum := match s with
    | .f x => toLE 4 x.toNat ++ zpad 4
    | .i x => toLE 8 (x % 2 ^ 64).toNat
  (toLE 8 total ++ sum ++ toLE 4 (numBits lo) ++ toLE 4 (numBits hi) ++ toLE 4 n ++ zpad 4
    ++ (ids.take n).flatMap (fun r => toLE 8 ((idBase b + r) % 2 ^ 64)), fl.or { empty := total = 0 })

def mergeApplied (o : Op) : Bytes × NumFlags :=
  (toLE 8 ((o.legs.map fun l => match l.part with
    | .applied n => n
    | _ => 0).sum) ++ zpad 8, {})

/-- The walk header and the K best of the beam (R131). -/
def mergeWalk (o : Op) : Bytes × NumFlags :=
  let b := o.desc
  let w := o.walk
  let best := (w.beam.map (·.entry)).take (dK b)
  (toLE 1 w.stop ++ zpad 3 ++ toLE 4 w.rounds ++ toLE 4 w.scored ++ toLE 4 w.badEdges ++ zpad 16 ++ listBytes (dK b) best,
    { kShort := best.length < dK b, empty := w.stop = 4 })

/-- The result body of an operation whose legs have all ended. -/
def mergeOp (o : Op) : Bytes × NumFlags :=
  let op := dOp o.desc
  let (body, fl) :=
    if op = opScore then mergeScore o
    else if op = opGather then mergeGather o
    else if op = opGraph then mergeWalk o
    else if op = opSet then mergeSet o
    else if op = opAttend then mergeAttend o
    else if op = opScan then mergeScan o
    else mergeApplied o
  (body, fl.or (orFlags (o.legs.map (·.flags))))

/-- The result header (R89). -/
def resultHeader (d : Dev) (o : Op) (body : Nat) (fl : NumFlags) : Bytes :=
  toLE 4 (u32 o.desc 0x3C) ++ toLE 1 (dOp o.desc) ++ toLE 1 fl.byte ++ toLE 2 o.legs.length
    ++ toLE 4 ((o.legs.map (·.straddled)).sum) ++ toLE 4 body ++ toLE 8 ((o.legs.map (·.streamed)).sum)
    ++ toLE 8 (d.pwr.tsc - o.start).toNat

-- Operand lists (R115)

/-- The list's own rules are kept. -/
def listOk (b t : Bytes) : Bool :=
  let op := dOp b
  if op = opGather then
    grOffset t 0 = 0 && grOffset t (grBags b) = grIndices b && (List.range (grBags b)).all fun i => grOffset t i ≤ grOffset t (i + 1)
  else if op = opSet then (List.range (soLists b)).all fun i => (soEntry t i).1 % soWidth b = 0
  else true

/-- What the list names lies in the source: a COUNT above the table's range also lies outside the source and gives ACCESS (R115, R135; log 96). -/
def listInside (b t : Bytes) : Bool :=
  let op := dOp b
  if op = opGather then (List.range (grIndices b)).all fun k => grIndex b t k < dRows b
  else if op = opSet then (List.range (soLists b)).all fun i => soInside b t i
  else if op = opAttend then (List.range (atPages b)).all fun i => atPage b t i < dSrcLen b / max 1 (pageBytes b)
  else if op = opScatter then (List.range (saUpdates b)).all fun k => saIndex t k < dRows b
  else true

/-- The completion code of a detail (R104). -/
def codeOfDetail (x : Nat) : Nat :=
  if x ≤ 0x0C then ccMalformed
  else if x ≤ 0x12 then ccLocalAccess
  else if x = 0x13 then ccFaultUnresolved
  else if x = 0x17 then ccFlushed
  else ccUncorrectable

-- GRAPH_WALK (R129 to R132)

def insBeam (dist : Bool) : List BeamEntry → BeamEntry → List BeamEntry
  | [], x => [x]
  | y :: r, x => if entryBefore dist x.entry y.entry then x :: y :: r else y :: insBeam dist r x

/-- A row scored: its beam entry, flags, whether its COUNT was clipped, whether it straddles, bytes read. -/
structure Scored where
  entry : BeamEntry
  flags : NumFlags
  clipped : Bool
  straddles : Bool
  bytes : Nat

def scoreNode (d : Dev) (o : Op) (opnd : Bytes) (round r : Nat) : Except Nat Scored :=
  let b := o.desc
  let off := r * dStride b
  match rowAt d o off (inFp b), readRuns d o.srcRuns (off + inFp b) 4 with
  | .error e, _ => .error e
  | _, .error e => .error e
  | .ok x, .ok c =>
    let n := min (leN c) (gwDegree b)
    match readRuns d o.srcRuns (off + inFp b + 4) (4 * n) with
    | .error e => .error e
    | .ok nb =>
      let (s, fl) := rowScore (dSat b) (u8 b 0x4C = 1) (dIn b) (dOpndFmt b) (dDim b) x.gran x.bytes (queryRow b opnd 0)
      let len := inFp b + 4 + 4 * n
      .ok ⟨⟨⟨(idBase b + r) % 2 ^ 64, s, round⟩, r, false, (List.range n).map fun i => u32 nb (4 * i)⟩, fl,
        gwDegree b < leN c, 1 < (runPlaces o.srcRuns off len).length, len⟩

/-- Candidates of a list of references: repeats, visited rows and references out of range left out; how many of those last (log 41). -/
def pickCand (n : Nat) (seen : List Nat) : List Nat → List Nat → Nat → List Nat × Nat
  | [], acc, bad => (acc, bad)
  | r :: rest, acc, bad =>
    if n ≤ r then pickCand n seen rest acc (bad + 1)
    else if seen.contains r || acc.contains r then pickCand n seen rest acc bad
    else pickCand n seen rest (acc ++ [r]) bad

/-- Mark the first k unexpanded entries of the beam; their neighbours in pick rank. -/
def expand : Nat → List BeamEntry → List BeamEntry × List Nat
  | _, [] => ([], [])
  | 0, l => (l, [])
  | k + 1, e :: r =>
    if e.expanded then let (l, n) := expand (k + 1) r; (e :: l, n)
    else let (l, n) := expand k r; ({ e with expanded := true } :: l, e.nbrs ++ n)

/-- One round of the walk: its new state and the rows it scored, by row (R130). ROUNDS stays 0 on NO_ENTRY, which stops the walk before round 0 is counted (log 96). -/
def walkRound (d : Dev) (o : Op) (opnd : Bytes) : Except Nat (Walk × List Scored) :=
  let b := o.desc
  let w := o.walk
  let n := dRows b
  let first := w.rounds = 0
  let (beam, refs) := if first then (w.beam, (List.range (gwEntries b)).map fun i => u32 opnd (opndFp b + 4 * i)) else expand (gwWidth b) w.beam
  let (cand, bad) := pickCand n w.visited refs [] 0
  let cand := if first then cand else cand.take (gwLimit b - w.scored)
  if first && cand = [] then .ok ({ w with badEdges := bad, stop := 4 }, [])
  else match collect (scoreNode d o opnd w.rounds) cand with
    | .error e => .error e
    | .ok ss =>
      let beam := ((ss.map (·.entry)).foldl (insBeam (dDist b)) beam).take (gwEf b)
      let scored := w.scored + ss.length
      let rounds := w.rounds + 1
      let stop := if beam.all (·.expanded) then 1 else if scored = gwLimit b then 3 else if rounds = gwRounds b then 2 else 0
      .ok ({ beam := beam, visited := w.visited ++ cand, rounds := rounds, scored := scored,
             badEdges := w.badEdges + bad + (ss.filter (·.clipped)).length, stop := stop }, ss)

end Sys2Proof.Machine
end

