-- ==== Sys2Proof/Machine/ReplOps.lean ====
section
/-! DEFINITION. Replicated tables (R38 to R40): windows, nodes, profiles, tenants; their copies, the leader's writes and the acknowledgements that complete a change. Units 0 to 7 are the tiles, 8 and 9 the host-interface dies. -/

namespace Sys2Proof.Machine

/-- The units that hold a copy of the entry's table (R38). -/
def unitsOf : TableWrite → Nat
  | .tenantEntry _ => 10
  | _ => 8

/-- The table holds the VALID entries. -/
def putNode (i : Nat) (e : Bytes) (t : Tab Bytes) : Tab Bytes := if tb (u8 e 0) 0 then t.set i e else t.erase i

/-- One entry of a unit's copy changes, as a whole (R40). -/
def applyWrite (u : Nat) (w : TableWrite) (d : Dev) : Dev :=
  let view (n : Nat) (ok : Window → Bool) (x : WinView) : Dev :=
    d.onXlt fun q => { q with windows := q.windows.upd n fun v => if ok v then { v with views := modAt v.views u fun _ => x } else v }
  match w with
  | .windowClosing n => view n (fun v => v.closing && !v.freeing) .closing
  | .windowFree n => view n (·.freeing) .free
  | .windowOpen n => view n (fun v => !v.closing) .open
  | .nodeEntry i b => d.onNet fun x => { x with tileNodes := modAt x.tileNodes u (putNode (i % 4096) (slice b 0 32)) }
  | .profileEntry k => d.onNet fun x => { x with tileProfiles := modAt x.tileProfiles u fun l => modAt l k fun _ => nth x.profiles k {} }
  | .tenantEntry t => d.onTens fun x => { x with copies := modAt x.copies u fun c => match x.tenants.get? t with
      | some y => c.set t y.par
      | none => c.erase t }

/-- Writes to units that are lost or in reset are not waited for (R40); a change that is complete is answered. -/
def replSettle (d : Dev) : Dev :=
  let l := d.ctl.repl.map fun r => { r with writes := r.writes.filter fun w => unitUp d w.1 }
  let d := d.onCtl fun c => { c with repl := l.filter fun r => r.writes ≠ [] }
  (l.filter fun r => r.writes = []).foldl (fun d r => match r.reply with
    | some y => answerIf y.slot y.opcode y.status y.res d
    | none => d) d

/-- The leader sends writes to every live unit (R40). -/
def replSend (ws : List TableWrite) (reply : Option ReplyDue) (d : Dev) : Dev :=
  let l := ws.flatMap fun w => ((List.range (unitsOf w)).filter (unitUp d)).map fun u => (u, w)
  replSettle (d.onCtl fun c => { c with repl := c.repl ++ [⟨l, reply⟩] })

/-- A command whose change of a replicated table is to be acknowledged before it is answered. -/
def replFinish (c : CmdSlot) (op st : Nat) (res : Option (Nat × Bytes)) (ws : List TableWrite) (d : Dev) : Dev :=
  replSend ws (some ⟨c, op, st, res⟩) (onCmd c (fun m => { m with stage := .running }) d)

/-- Windows are made FREE in every live tile (R40, R182 step 3); those whose state is not OPEN or CLOSING any more take no access. -/
def freeWindows (p : Nat → Window → Bool) (reply : Option ReplyDue) (d : Dev) : Dev :=
  let ws := (d.xlt.windows.filter fun (w, v) => p w v).map Prod.fst
  replSend (ws.map .windowFree) reply (d.onXlt fun x => { x with windows := x.windows.map fun (w, v) =>
    (w, if p w v then { v with closing := true, freeing := true } else v) })

/-- Every live tile holds the window FREE. -/
def windowFreed (d : Dev) (v : Window) : Bool := v.freeing && (List.range 8).all fun k => !tileUp d k || nth v.views k .free = .free

/-- A unit has applied a write: the change it belongs to goes on. -/
def replAck (u : Nat) (w : TableWrite) (d : Dev) : Dev :=
  replSettle (d.onCtl fun c => { c with repl := c.repl.map fun r => { r with writes := r.writes.filter (· ≠ (u, w)) } })

/-- Writes to a unit that restarts are not waited for: it takes its copies from the leader (R40, R531). -/
def replForget (u : Nat) (d : Dev) : Dev :=
  replSettle (d.onCtl fun c => { c with repl := c.repl.map fun r => { r with writes := r.writes.filter fun w => w.1 ≠ u } })

/-- A replicated-table write reaches a unit that holds a copy (R39, R40): a write of a lower epoch is rejected, counted and answered STALE_EPOCH; a higher epoch is adopted only if Hasp 0 holds it. An applied write is acknowledged to the leader. -/
def tableWrite (u : Nat) (epoch : BitVec 32) (w : TableWrite) (d : Dev) : Dev :=
  if !unitUp d u || unitsOf w ≤ u then d
  else
    let e := nth d.fab.tileEpoch u 0#32
    let df := seqDiff epoch e
    if df < 0 then emit (.staleEpoch u e) (d.onFab fun f => { f with staleCount := modAt f.staleCount u (· + 1) })
    else if df ≠ 0 && epoch ≠ leadEpoch d then d
    else replAck u w (applyWrite u w (d.onFab fun f => { f with tileEpoch := modAt f.tileEpoch u fun _ => epoch }))

/-- A new leader carries every replicated write that was begun to its units, with its own epoch (R39, R432); the commands are answered by themselves. -/
def replCarry (d : Dev) : Dev :=
  let l := d.ctl.repl.flatMap (·.writes)
  l.foldl (fun d w => tableWrite w.1 (leadEpoch d) w.2 d) (d.onCtl fun c => { c with repl := [] })

/-- A unit that restarts takes its copies and the epoch from the leader. -/
def copyTables (u : Nat) (d : Dev) : Dev :=
  let d := d.onNet fun n => { n with tileNodes := n.tileNodes.set u n.nodes, tileProfiles := n.tileProfiles.set u n.profiles }
  let d := d.onTens fun x => { x with copies := x.copies.set u (x.tenants.map fun (n, t) => (n, t.par)) }
  d.onFab fun f => { f with tileEpoch := f.tileEpoch.set u (leadEpoch d) }

/-- A unit's copy of a tenant's entry. -/
def tenCopy (d : Dev) (u n : Nat) : Option TenParams := (nth d.ten.copies u []).get? n

end Sys2Proof.Machine
end

