-- ==== Sys2Proof/Machine/RopeGeo.lean ====
section
/-! DEFINITION. The fields of a call entry (R352) and the geometry of a call (R359). -/

namespace Sys2Proof.Machine

-- The fields of a call entry (R352)
def callKind (e : Bytes) : Nat := u8 e 0
def callSignal (e : Bytes) : Bool := tb (u8 e 1) 1
def callFree (e : Bytes) : Bool := tb (u8 e 1) 2
def callWide (e : Bytes) : Bool := tb (u8 e 1) 3
def callFmt (e : Bytes) : Fmt := (Fmt.ofCode (u8 e 2)).getD .int32
def callOp (e : Bytes) : Nat := u8 e 3
def callSrc (e : Bytes) : Nat := u64 e 0x10
def callDst (e : Bytes) : Nat := u64 e 0x18
def callLen (e : Bytes) : Nat := u32 e 0x20

/-- Bytes of a DTYPE element. -/
def elemSize (e : Bytes) : Nat := (callFmt e).bits / 8

/-- Bytes of a carry element (R359). -/
def carrySize (e : Bytes) : Nat := if callWide e then (if callFmt e = .int32 then 8 else 4) else elemSize e

-- Geometry (R359)

def ropeMtu (r : Rope) : Nat := 1024 * 2 ^ r.par.mtu
/-- E: elements of a full piece. -/
def pieceElems (r : Rope) (e : Bytes) : Nat := 2 ^ r.par.pieceLog2 / carrySize e
def callElems (e : Bytes) : Nat := callLen e / elemSize e
/-- P: pieces of the call; one empty piece when LENGTH is 0. -/
def callPieces (r : Rope) (e : Bytes) : Nat := if callLen e = 0 then 1 else ceilDiv (callElems e) (pieceElems r e)
/-- Elements of piece j. -/
def elemsOf (r : Rope) (e : Bytes) (j : Nat) : Nat := min (pieceElems r e) (callElems e - j * pieceElems r e)
/-- Bytes of an element on a lap. -/
def lapSize (e : Bytes) (lap : Nat) : Nat := if lap = 1 then carrySize e else elemSize e
def lapBytes (r : Rope) (e : Bytes) (j lap : Nat) : Nat := elemsOf r e j * lapSize e lap
def lapPkts (r : Rope) (e : Bytes) (j lap : Nat) : Nat := max 1 (ceilDiv (lapBytes r e j lap) (ropeMtu r))

/-- The tenant addresses of a piece in SRC and in DST, with its bytes. -/
def pieceSpan (r : Rope) (e : Bytes) (j : Nat) : List (Nat × Nat) :=
  let o := j * pieceElems r e * elemSize e
  let n := elemsOf r e j * elemSize e
  [(callSrc e + o, n), (callDst e + o, n)]

/-- The piece-laps of a running call that are in progress here: in a ledge, or being sent. -/
def pitchesNow (c : Call) : List (Nat × Nat) := ((c.input.map fun i => (i.piece, i.lap)) ++ c.output.map fun o => (o.piece, o.lap)).dedup

end Sys2Proof.Machine
end

