-- ==== Sys2Proof/Machine/Cipher.lean ====
section
/-! DEFINITION. The cipher engine, keys and device trust: the Latch, key slots, transport keys, cipher jobs, DRBGs, identity (14_cipher_trust). -/

namespace Sys2Proof.Machine

/-- A service of the centre die, which answers whenever it is powered and clocked (R413, R501, R503). -/
def powered (f : Dev → Dev) (d : Dev) : Dev := if d.pwr.rails = .on || d.pwr.rails = .bootHalt then f d else d

-- What the boot derives from its seed (R497, R498)

/-- A private key on P-521, 1 to n - 1, from the seed, by HKDF-SHA-512 with its info (log 11). -/
def keyPriv (v : Svc) (info : String) : Nat := 1 + Config.keyScalar (hkdf512 [] v.seed (ascii info) 128) % (p521N - 1)

/-- The identity and agreement public keys, 0x04, X, Y. -/
def identityKey (v : Svc) : Bytes := publicKey (keyPriv v "identity")
def agreementKey (v : Svc) : Bytes := publicKey (keyPriv v "agreement")

/-- The key of the protected store (log 11). -/
def storeKey (v : Svc) : Bytes := hkdf512 [] v.seed (ascii "store") 64

/-- The device digest (R498). -/
def deviceDigest (v : Svc) : Bytes := slice (sha512 (identityKey v)) 0 16

/-- A refused operation on a Hasp or on the Latch, or a write that needs one (R415). -/
def haspMisuse (a : Agent) (d : Dev) : Dev :=
  match a with
  | .port p => count 0x0305 p.idx none 1 d
  | .die _ => d

-- Jobs (R490 to R493)

def jobSlots (c : Ciph) : Nat := 2 ^ (max 4 (min 12 c.sizeLog2.toNat))

def jobOp (j : Job) : Nat := u8 j.entry 0
def jobSlot (j : Job) : Nat := u8 j.entry 2
def jobTenant (j : Job) : Nat := u16 j.entry 4
def jobLen (j : Job) : Nat := u32 j.entry 0x18

/-- Write zeros over pieces. -/
def zeroPieces (l : List (Nat × Nat)) (d : Dev) : Dev := writePieces l (zpad ((l.map Prod.snd).sum)) d

/-- A job ends other than OK: DST is zeroed and, for an encryption, its tag (R493). -/
def failJob (i st detail : Nat) (d : Dev) : Dev :=
  match d.ciph.jobs.find? fun j => j.idx = i && j.fin.isNone with
  | none => d
  | some j =>
    let d := zeroPieces j.dst d
    let d := if jobOp j = 1 then zeroPieces j.tag d else d
    d.onCiph fun c => dropWork (· = i) (onJob i (fun x => { x with left := 0, fin := some (st, detail, 0, d.pwr.tsc) }) c)

/-- The 32 bytes of a done entry (R491). -/
def doneBytes (s : Nat) (j : Job) (st detail n : Nat) (time : BitVec 64) : Bytes :=
  toLE 8 n ++ toLE 2 j.idx ++ toLE 1 st ++ toLE 1 detail ++ toLE 1 (jobOp j) ++ zpad 3 ++ toLE 8 time.toNat ++ zpad 7
    ++ toLE 1 (b2n (phaseOf s j.idx))

/-- The done entry of the oldest job is written once it has ended and its port can issue (R387, R492). -/
def jobRelease1 (d : Dev) : Dev :=
  match d.ciph.jobs with
  | [] => d
  | j :: rest => match j.fin with
    | none => d
    | some (st, detail, n, time) =>
      let s := jobSlots d.ciph
      let addr := d.ciph.base.toNat + s * 64 + j.idx % s * 32
      let b := doneBytes s j st detail n time
      let next (d : Dev) : Dev := d.onCiph fun c => { c with jobs := rest, cons := BitVec.ofNat 16 (ringAdd s j.idx 1) }
      match d.ciph.owner with
      | some (.port p) =>
        if canIssue d p then msix p d.ciph.vector.toNat (next (hostWrite p none addr b d))
        else if (d.host.get p).waits.contains .job then d else heldNote p .job d
      | some (.die k) => next (emit (.dieWrite k addr b) d)
      | none => next d

/-- Done entries are released in ring order (R492). -/
def jobRelease (d : Dev) : Dev := iter jobRelease1 d.ciph.jobs.length d

/-- Unfinished jobs that satisfy p end with a status. -/
def failJobs (p : Job → Bool) (st detail : Nat) (d : Dev) : Dev :=
  jobRelease ((d.ciph.jobs.filter fun j => j.fin.isNone && p j).foldl (fun d j => failJob j.idx st detail d) d)

/-- Unfinished jobs of a tenant that hold a translation within a stretch of tenant addresses (R173, R174). -/
def jobMeets (t a n : Nat) (j : Job) : Bool :=
  j.fin.isNone && jobTenant j = t && [(u64 j.entry 8, jobLen j), (u64 j.entry 0x10, jobLen j), (u64 j.entry 0x20, u32 j.entry 0x1C),
    (u64 j.entry 0x38, 16)].any fun (x, m) => x < a + n && a < x + m

-- The Latch (R476, R477)

def latchSet (a : Option Agent) (token : BitVec 16) (d : Dev) : Dev :=
  d.onCiph fun c => { c with latch := { epoch := c.latch.epoch + 1#32, token := token, holder := a } }

/-- The Latch is taken from its holder (R477): begun jobs stop with their outputs zeroed, nothing is answered, the ring's registers reset. -/
def latchDrop (d : Dev) : Dev :=
  let d := (d.ciph.jobs.filter fun j => j.fin.isNone).foldl (fun d j => failJob j.idx 0 0 d) d
  latchSet none 0#16 (d.onCiph fun c => { c with
    base := 0#64, vector := 0#11, sizeLog2 := 4#4, enable := false, prod := 0#16, cons := 0#16, next := 0, refetch := 0, jobs := [], owner := none })

/-- As latchDrop when the agent holds it. -/
def latchDropOf (a : Agent) (d : Dev) : Dev := if d.ciph.latch.holder = some a then latchDrop d else d

/-- A die that is fenced, lost or being restarted does nothing of its own accord (R397). -/
def agentUp (d : Dev) (a : Agent) : Bool :=
  match a with
  | .port _ => true
  | .die k => d.ctl.dies.get k = .leader || d.ctl.dies.get k = .follower

def devLatchAcquire (a : Agent) (token : BitVec 16) (d : Dev) : Dev :=
  if token = 0#16 then haspMisuse a d
  else if !agentUp d a then d
  else if d.ciph.latch.holder.isNone then latchSet (some a) token d
  else d

def execLatchAcquire (a : Agent) (token : BitVec 16) (s : State) : Host.Outcome State Fault Refusal := onDev s (live (devLatchAcquire a token))

def devLatchRelease (a : Agent) (token : BitVec 16) (d : Dev) : Dev :=
  if token = 0#16 || d.ciph.latch.holder ≠ some a || d.ciph.latch.token ≠ token || d.ciph.enable then haspMisuse a d
  else latchSet none 0#16 d

def execLatchRelease (a : Agent) (token : BitVec 16) (s : State) : Host.Outcome State Fault Refusal := onDev s (live (devLatchRelease a token))

/-- A write of a job-ring register from anyone but the holder (R476): as a write to a field that needs a Hasp. -/
def latchDenied (a : Agent) (d : Dev) : Dev :=
  let d := haspMisuse a d
  match a with
  | .port p => logFirst60 0x0305 p.idx 0x0501 4 p.idx [0x0305] d
  | .die _ => d

def devCiphJobEnable (a : Agent) (v : BitVec 32) (d : Dev) : Dev :=
  if d.ciph.latch.holder ≠ some a then latchDenied a d
  else d.onCiph fun c =>
    let c := { c with vector := v.extractLsb' 16 11 }
    if c.enable then c
    else { c with sizeLog2 := v.extractLsb' 4 4, enable := true, prod := 0#16, cons := 0#16, next := 0, refetch := 0, owner := some a }

def execCiphJobEnable (a : Agent) (v : BitVec 32) (s : State) : Host.Outcome State Fault Refusal := onDev s (live (devCiphJobEnable a v))

def devCiphJobDisable (a : Agent) (v : BitVec 32) (d : Dev) : Dev :=
  if d.ciph.latch.holder ≠ some a then latchDenied a d
  else d.onCiph fun c => { c with
    vector := v.extractLsb' 16 11, sizeLog2 := if c.enable then c.sizeLog2 else v.extractLsb' 4 4, enable := false, refetch := 0 }

def execCiphJobDisable (a : Agent) (v : BitVec 32) (s : State) : Host.Outcome State Fault Refusal := onDev s (live (devCiphJobDisable a v))

def devCiphJobProdWrite (a : Agent) (v : BitVec 32) (d : Dev) : Dev :=
  if d.ciph.latch.holder ≠ some a then latchDenied a d
  else d.onCiph fun c =>
    let s := jobSlots c
    let i := v.toNat % 65536
    if c.enable && i < 2 * s && ringSub s i c.cons.toNat ≤ s && ringSub s c.prod.toNat c.cons.toNat ≤ ringSub s i c.cons.toNat then
      { c with prod := BitVec.ofNat 16 i }
    else { c with prodInvalid := true }

def execCiphJobProdWrite (a : Agent) (v : BitVec 32) (s : State) : Host.Outcome State Fault Refusal := onDev s (live (devCiphJobProdWrite a v))

-- Begin of a job (R492)

/-- The stretches a job touches: address, length, written. -/
def jobRanges (b : Bytes) : List (Nat × Nat × Bool) :=
  let op := u8 b 0
  [(u64 b 8, u32 b 0x18, false), (u64 b 0x10, u32 b 0x18, true)]
    ++ (if op ≤ 2 then [(u64 b 0x20, u32 b 0x1C, false), (u64 b 0x38, 16, decide (op = 1))] else [])

def apart (a n b m : Nat) : Bool := a + n ≤ b || b + m ≤ a || n = 0 || m = 0

/-- Every page of the stretch is mapped. -/
def jobMapped (d : Dev) (t : Nat) : Nat → Nat → Nat → Bool
  | 0, _, n => n = 0
  | f + 1, a, n =>
    if n = 0 then true
    else if !isDva a || (d.ten? t).isNone then false
    else match mapAt (tabOf d t).maps (a - 2 ^ 63) with
      | none => false
      | some m =>
        let k := m.dva + m.len - (a - 2 ^ 63)
        n ≤ k || jobMapped d t f (a + k) (n - k)

/-- Checks 2 to 11 of R492 in order: STATUS and DETAIL of the first failure. -/
def jobCheck (d : Dev) (b : Bytes) : Option (Nat × Nat) :=
  let op := u8 b 0
  let gcm := op ≤ 2
  let t := u16 b 4
  let len := u32 b 0x18
  let sec := 2 ^ u8 b 3
  let al := if gcm then 16 else sec
  let src := u64 b 8
  let dst := u64 b 0x10
  let aad := u64 b 0x20
  let aadLen := u32 b 0x1C
  let tag := u64 b 0x38
  if op = 0 || 4 < op then some (ccMalformed, 2)
  else if 2 ≤ u8 b 1 || u16 b 6 ≠ 0 || u32 b 0x34 ≠ 0 || (gcm && aadLen = 0 && aad ≠ 0)
      || (!gcm && (aad ≠ 0 || tag ≠ 0 || u32 b 0x30 ≠ 0)) then some (ccMalformed, 3)
  else if (if gcm then u8 b 3 ≠ 0 || 1073741824 < len || 65536 < aadLen
      else (u8 b 3 ≠ 9 && u8 b 3 ≠ 12) || aadLen ≠ 0 || len = 0 || 2147483648 < len || len % sec ≠ 0) then some (ccMalformed, 4)
  else if src % al ≠ 0 || dst % al ≠ 0 || (gcm && (aad % 16 ≠ 0 || tag % 16 ≠ 0)) then some (ccMalformed, 5)
  else if !(dst = src || apart src len dst len) || (gcm && !(apart aad aadLen src len && apart aad aadLen dst len
      && apart tag 16 src len && apart tag 16 dst len)) then some (ccMalformed, 6)
  else match d.ciph.slots.get? (u8 b 2) with
    | none => some (ccMalformed, 7)
    | some k =>
      if k.use ≠ (if gcm then .gcm else .xts) then some (ccMalformed, 8)
      else if k.tenant ≠ 0xFFFF && k.tenant ≠ t then some (ccMalformed, 9)
      else if !(jobRanges b).all (fun (a, n, _) => jobMapped d t ((tabOf d t).maps.length + 1) a n) then some (ccLocalAccess, 0x0A)
      else if (jobRanges b).any (fun (a, n, w) => (xrange d 0 t a n w).isOk = false) then some (ccLocalAccess, 0x0B)
      else none

/-- The device places of a stretch. -/
def jobPieces (d : Dev) (t a n : Nat) (w : Bool) : List (Nat × Nat) :=
  match xrange d 0 t a n w with
  | .ok l => (devPieces l).getD []
  | .error _ => []

/-- The job at the ring's next index has been read after n re-reads (R195, R492). -/
def jobTake (n : Nat) (b : Bytes) (d : Dev) : Dev :=
  let c := d.ciph
  let s := jobSlots c
  let i := c.next
  let push (j : Job) (d : Dev) : Dev := d.onCiph fun c => { c with jobs := c.jobs ++ [j], next := ringAdd s i 1, refetch := 0 }
  if tb (u8 b 1) 0 ≠ phaseOf s i then
    if n < 3 then d.onCiph fun c => { c with refetch := n + 1 }
    else jobRelease (push { idx := i, entry := b, fin := some (ccMalformed, 1, 0, d.pwr.tsc) } d)
  else match jobCheck d b with
    | some (st, detail) => jobRelease (push { idx := i, entry := b, fin := some (st, detail, 0, d.pwr.tsc) } d)
    | none =>
      let t := u16 b 4
      let gcm := u8 b 0 ≤ 2
      dealJobs (push {
             idx := i
             entry := b
             src := jobPieces d t (u64 b 8) (u32 b 0x18) false
             dst := jobPieces d t (u64 b 0x10) (u32 b 0x18) true
             aad := if gcm then jobPieces d t (u64 b 0x20) (u32 b 0x1C) false else []
             tag := if gcm then jobPieces d t (u64 b 0x38) 16 (decide (u8 b 0 = 1)) else []
             left := blocks16 (u32 b 0x1C) + blocks16 (u32 b 0x18) } d)

/-- Jobs are fetched while the ring is enabled, at most 16 run, and some core runs (R492, R496); a port that cannot issue fetches none, nor does a device that enters or is in Bivouac (R537). -/
def jobReady (d : Dev) : Bool :=
  let c := d.ciph
  c.enable && d.pwr.state = .active && c.next ≠ c.prod.toNat && (c.jobs.filter (·.fin.isNone)).length < 16 && (List.range 16).any (coreRuns d)
    && match c.owner with
      | some (.port p) => canIssue d p
      | some (.die _) => true
      | none => false

def devCipherJobBegin (entry : Bytes) (d : Dev) : Dev :=
  if jobReady d && d.ciph.refetch = 0 then jobTake 0 entry d else d

def execCipherJobBegin (entry : Bytes) (s : State) : Host.Outcome State Fault Refusal := onDev s (live (devCipherJobBegin entry))

-- End of a job (R493)

/-- Sectors of an XTS job in order (R473). -/
def xtsAll (enc : Bool) (key : Bytes) (sec : Nat) : Nat → Nat → Bytes → Bytes
  | 0, _, _ => []
  | n + 1, num, b => xtsSector enc key num (b.take sec) ++ xtsAll enc key sec n (num + 1) (b.drop sec)

/-- What a job's data path gives: bytes for DST, the tag an encryption makes, and whether a decryption's tag verifies. -/
def jobData (k : KeySlot) (j : Job) (src aad tag : Bytes) : Bytes × Bytes × Bool :=
  let op := jobOp j
  let iv := slice j.entry 0x28 12
  let key := k.material.take (k.bits / 8)
  if op = 1 then let r := gcmSeal key iv aad src; (r.1, r.2, true)
  else if op = 2 then let r := gcmOpen key iv aad src tag; (r.1, [], r.2)
  else
    let sec := 2 ^ u8 j.entry 3
    (xtsAll (op = 3) k.material sec (jobLen j / sec) (u64 j.entry 0x28) src, [], true)

/-- The tile of a job's core; of an XTS job, of the core its last sector was dealt to. -/
def jobTile (j : Job) : Nat := (j.core.map (· / 2)).getD 0

/-- Where the bytes of a job are counted: each tile and its bytes (R475, R565). -/
def jobShares (j : Job) : List (Nat × Nat) :=
  if jobIsXts j then ((List.range 8).zip j.shares).filter fun x => x.2 ≠ 0 else [(jobTile j, jobLen j)]

/-- Every place that a job reads or writes. -/
def jobPlaces (j : Job) : List (Place × Nat) := (j.src ++ j.aad ++ j.tag ++ j.dst).map fun (a, n) => (.dev a, n)

/-- The tiles of a job's cores reach its stacks and the data comes back, in the REQ and RSP classes of the stack links and tile links (R475). -/
def jobOpen (d : Dev) (j : Job) : Bool := (jobShares j).all fun (t, _) => placesOpen d t (jobPlaces j)

def finishJob (j : Job) (d : Dev) : Dev :=
  let d := touchPlaces (jobPlaces j) d
  match d.ciph.slots.get? (jobSlot j), readPieces d j.src, readPieces d j.aad with
  | some k, some src, some aad =>
    let tag := if jobOp j = 2 then readPieces d j.tag else some []
    match tag with
    | none => failJob j.idx ccUncorrectable 0 d
    | some tag =>
      if writeBad d j.dst || (jobOp j = 1 && writeBad d j.tag) then failJob j.idx ccUncorrectable 0 d
      else
        let (out, newTag, ok) := jobData k j src aad tag
        if !ok then failJob j.idx ccAuthFailed 0x0D (count 0x0A03 (jobTile j) none 1 d)
        else
          let d := writePieces j.dst out d
          let d := if jobOp j = 1 then writePieces j.tag newTag d else d
          let d := (jobShares j).foldl (fun d (t, n) => count 0x0A01 t none n d) (count 0x0A02 (jobTile j) none 1 d)
          d.onCiph (onJob j.idx fun x => { x with fin := some (ccOk, 0, jobLen j, d.pwr.tsc) })
  | _, _, _ => failJob j.idx ccUncorrectable 0 d

/-- A job ends well once every block of it has passed a core and its data has a way to move (R475); the row is nothing before that (log 97). -/
def devCipherJobDone (i : Nat) (how : JobEnd) (d : Dev) : Dev :=
  match d.ciph.jobs.find? fun j => j.idx = i && j.fin.isNone with
  | none => d
  | some j =>
    jobRelease (match how with
      | .finished => if jobServed d.ciph i && jobOpen d j then finishJob j d else d
      | .uncorrectable => failJob i ccUncorrectable 0 d
      | .unmapAbort => failJob i ccLocalAccess 0 d
      | .tenantReset => failJob i ccFlushed 0 d)

def execCipherJobDone (index : Nat) (how : JobEnd) (s : State) : Host.Outcome State Fault Refusal := onDev s (live (devCipherJobDone index how))

-- Transport keys (R484, R485)

/-- The slot a queue pair authenticates with: one that names the peer before one for every peer. -/
def transportSlot (d : Dev) (t : Nat) (peer : BitVec 16) : Option (Nat × KeySlot) :=
  let find (n : BitVec 16) := d.ciph.slots.find? fun (_, k) => k.use = .transport && k.tenant = t && k.peer = n
  match find peer with
  | some x => some x
  | none => find 0#16

/-- Bytes 0x01 to 0x17 of the derivation input. -/
def kdfInput (snd : BitVec 16) (sqpn : Nat) (rcv : BitVec 16) (rqpn : Nat) (psn : Nat) : Bytes :=
  ascii "EW2K" ++ [0#8] ++ toBE 2 snd.toNat ++ toBE 4 (sqpn % 2 ^ 24) ++ toBE 2 rcv.toNat ++ toBE 4 (rqpn % 2 ^ 24) ++ toBE 4 psn ++ toBE 2 0x0100

/-- A packet key: AES-256-CMAC of the input under the master key, with the counter 1 for its first half and 2 for its second (R485). -/
def packetKey (master input : Bytes) : Bytes := aesCmac master ([0x01#8] ++ input) ++ aesCmac master ([0x02#8] ++ input)

/-- The packet keys of a connection, when it authenticates. -/
def deriveAuth (d : Dev) (t : Nat) (peer : BitVec 16) (qpn peerQpn sendPsn recvPsn : Nat) : Option Auth :=
  (transportSlot d t peer).map fun (n, k) =>
    let me := d.net.nodeId
    let master := k.material.take 32
    let salt := slice k.material 0x20 4
    { slot := n, sendKey := packetKey master (kdfInput me qpn peer peerQpn sendPsn),
      recvKey := packetKey master (kdfInput peer peerQpn me qpn recvPsn), sendSalt := salt, recvSalt := salt }

-- Key slots (R478 to R482)

/-- Queue pairs that hold a key of a slot. -/
def slotQps (d : Dev) (k : Nat) : List Nat :=
  (d.q.qps.filter fun (_, q) => (q.st = .rtr || q.st = .rts || q.st = .flushing) && match q.conn.auth with
    | some a => a.slot = k && !a.dead
    | none => false).map Prod.fst

/-- A KEY_LOAD runs that names the slot as its KEK_SLOT. -/
def loadNames (d : Dev) (k : Nat) : Bool :=
  allSlots.any fun c => (cmdAt d c).any fun m =>
    (m.stage = .begun || m.stage = .running) && m.hdr.opcode = 0x0801 && u8 m.params 8 = 0 && u8 m.params 9 = k

/-- The slot is in use (R481): by a job, by a KEY_LOAD, by a queue pair. -/
def slotBusy (d : Dev) (k : Nat) : Bool :=
  d.ciph.jobs.any (fun j => j.fin.isNone && jobSlot j = k) || loadNames d k || slotQps d k ≠ []

/-- The key-encryption key of an AGREED load (R478): none where EPHEMERAL is no point on P-521. -/
def agreedKek (v : Svc) (eph : Bytes) (k use : Nat) : Option Bytes :=
  (ecdh (keyPriv v "agreement") eph).map fun z => hkdf512 (deviceDigest v) z (ascii "JM4832 KEY_LOAD" ++ toBE 1 k ++ toBE 1 use) 32

def keyUse (n : Nat) : KeyUse := if n = 1 then .wrap else if n = 2 then .transport else if n = 3 then .gcm else .xts

def keyLoadChk (p : Bytes) (_ : Dev) : List (Nat × Bool) :=
  let use := u8 p 1
  let agreed := u8 p 8 = 1
  [(0, u8 p 0 < 64), (1, 1 ≤ use && use ≤ 4), (2, u16 p 2 = 256 || (u16 p 2 = 128 && use = 3)),
   (4, if use = 1 then u16 p 4 = 0xFFFF else if use = 2 then u16 p 4 < 256 else u16 p 4 < 256 || u16 p 4 = 0xFFFF),
   (6, u16 p 6 = 0 || (use = 2 && nodeForm (u16 p 6))), (8, u8 p 8 ≤ 1), (9, if agreed then u8 p 9 = 0 else u8 p 9 < 64),
   (0x0A, zeros p 0x0A 6), (0x58, agreed || zeros p 0x58 133), (0xDD, zeros p 0xDD 3)]

/-- The zero bytes of R479, and two XTS keys that differ (check 5 of R480). -/
def materialOk (use bits : Nat) (m : Bytes) : Bool :=
  if use = 1 then zeros m 0x20 32
  else if use = 2 then zeros m 0x24 28
  else if use = 3 then zeros m 0x20 32 && (bits = 256 || zeros m 0x10 16)
  else slice m 0 32 ≠ slice m 0x20 32

/-- Tombstones that hold a key of a slot lose it as the slot changes (R489). -/
def dropTombKey (k : Nat) (d : Dev) : Dev :=
  d.onQ fun x => { x with tombs := x.tombs.map fun (n, t) =>
    (n, { t with auth := t.auth.bind fun a => if a.slot = k then none else some a }) }

/-- The tenant a key is for, where it exists, is managed from the submitting port (R452). -/
def keyTenantOk (c : CmdSlot) (p : Bytes) (d : Dev) : Bool :=
  match d.ten? (u16 p 4) with
  | some t => mgmtOk c t
  | none => true

/-- KEY_LOAD (R452, R478 to R480). -/
def devKeyLoad (c : CmdSlot) : Dev → Dev :=
  runChk c 0x0801 keyLoadChk fun p d =>
    let k := u8 p 0
    let use := u8 p 1
    let peer := BitVec.ofNat 16 (u16 p 6)
    let kek := (d.ciph.slots.get? (u8 p 9)).bind fun s => if s.use = .wrap then some (s.material.take 32) else none
    let twin := use = 2 && d.ciph.slots.any fun (n, s) => n ≠ k && s.use = .transport && s.tenant = u16 p 4 && s.peer = peer
    if (u8 p 8 = 0 && kek.isNone) || twin || !keyTenantOk c p d then finish c stNotPermitted d
    else if slotBusy d k then finish c stKeyBusy d
    else
      let key := if u8 p 8 = 0 then kek else agreedKek d.svc (slice p 0x58 133) k use
      match key.bind fun x => keyUnwrap x (slice p 0x10 72) with
      | none => finish c stVerifyFailed d
      | some m =>
        if !materialOk use (u16 p 2) m then finishAt c stBadParam 0x10 d
        else
          let had := (d.ciph.slots.get? k).isSome
          let s : KeySlot := ⟨keyUse use, u16 p 2, u16 p 4, peer, slice m 0 64⟩
          finish c (if had then stNote else stDone) (dropTombKey k (d.onCiph fun x => { x with slots := x.slots.set k s }))

def execKeyLoad (c : CmdSlot) (s : State) : Host.Outcome State Fault Refusal := onDev s (live (devKeyLoad c))

/-- Packet keys that are no more. -/
def deadAuth (a : Auth) : Auth := { a with dead := true, sendKey := [], recvKey := [] }

/-- A queue pair loses its key (R482 step 3): DISCONNECT under it, the oldest entry AUTH_FAILED, then the flush; the key is gone. -/
def keyLost (n : Nat) (d : Dev) : Dev :=
  match d.qp? n with
  | none => d
  | some q =>
    let d := match q.begun.find? fun b => b.fin.isNone with
      | some b => endBad n b.idx ccAuthFailed 0 d
      | none => toFlush n (some ccAuthFailed) none d
    dropKeys (· = n) (d.onConn n fun c => { c with auth := c.auth.map deadAuth })

/-- Every tile drops the keys derived from a slot, those of queue pairs in any state and of those gone included (R482 step 4). -/
def dropSlotKeys (k : Nat) (d : Dev) : Dev :=
  let drop (q : Qp) : Qp := { q with conn := { q.conn with auth := q.conn.auth.map fun a => if a.slot = k then deadAuth a else a } }
  let mine (n : Nat) : Bool := ((d.qp? n).bind (·.conn.auth)).any fun a => a.slot = k
  (dropKeys mine d).onQ fun x => { x with qps := x.qps.map fun (n, q) => (n, drop q), gone := x.gone.map fun (n, q) => (n, drop q) }

/-- KEY_ERASE (R482). -/
def devKeyErase (c : CmdSlot) : Dev → Dev :=
  runChk c 0x0802 (fun p _ => [(0, u8 p 0 < 64), (1, zeros p 1 7)]) fun p d =>
    let k := u8 p 0
    if (d.ciph.slots.get? k).isNone then finish c stNote d
    else
      let d := failJobs (fun j => jobSlot j = k) ccFlushed 0x0C d
      let d := (slotQps d k).foldl (fun d n => keyLost n d) d
      finish c stDone (dropTombKey k ((dropSlotKeys k d).onCiph fun x => { x with slots := x.slots.erase k }))

def execKeyErase (c : CmdSlot) (s : State) : Host.Outcome State Fault Refusal := onDev s (liveQ (devKeyErase c))

-- Randomness (R496)

def devDrbgReseed (n : Nat) (ok : Bool) (d : Dev) : Dev :=
  if 17 ≤ n then d
  else if ok then d.onCiph fun c => { c with
    entropyFail := false, drbgs := modAt c.drbgs n fun x => { failures := 0, stopped := false, reseeds := x.reseeds + 1, since := now d } }
  else
    let f := (nth d.ciph.drbgs n {}).failures + 1
    let d := d.onCiph fun c => { c with drbgs := modAt c.drbgs n fun x => { x with failures := f } }
    if f < 16 || d.ciph.entropyFail then d
    else logIt 0x0801 0 0 [] (d := d.onCiph fun c => { c with entropyFail := true })

def execDrbgReseed (drbg : Nat) (ok : Bool) (s : State) : Host.Outcome State Fault Refusal := onDev s (live (devDrbgReseed drbg ok))

/-- A reseed overdue by 1 s while ENTROPY_FAIL stands stops the DRBG. -/
def devDrbgStop (n : Nat) (d : Dev) : Dev :=
  if d.ciph.entropyFail && reseedDue (nth d.ciph.drbgs n {}) + secTicks 1 ≤ now d then d.onCiph fun c => { c with drbgs := modAt c.drbgs n fun x => { x with stopped := true } } else d

def execDrbgStop (drbg : Nat) (s : State) : Host.Outcome State Fault Refusal := onDev s (live (devDrbgStop drbg))

/-- The centre die's DRBG runs: commands that draw keys go on (R496). -/
def keysFlow (d : Dev) : Bool := !(nth d.ciph.drbgs 16 {}).stopped

-- Identity and attestation

/-- IDENTITY_GET (R499). -/
def devIdentityGet (c : CmdSlot) : Dev → Dev :=
  runChk c 0x0B01 (fun p _ => [(0, addrOk c (u64 p 0) 64), (8, u64 p 8 = 0)]) fun p d =>
    let chain := if d.svc.chainOk then Config.certChain.length else 0
    let r := deviceDigest d.svc ++ slice (identityKey d.svc) 0 133 ++ slice (agreementKey d.svc) 0 133 ++ zpad 2 ++ toLE 4 chain
      ++ d.svc.minSvn.flatMap (fun v => toLE 4 v.toNat) ++ toLE 4 d.svc.rootRevoked.toNat ++ zpad 8
    finishRes c stDone (u64 p 0) r d

def execIdentityGet (c : CmdSlot) (s : State) : Host.Outcome State Fault Refusal := onDev s (live (devIdentityGet c))

end Sys2Proof.Machine
end

