-- ==== Sys2Proof/Machine/HostOps.lean ====
section
/-! DEFINITION. Violations by hosts (R415), Hasps (R391, R394), change of leader (R396 to R399, R432). -/

namespace Sys2Proof.Machine

/-- Count a host violation; 64 of the named ones within 10 ms degrade the port (R415). -/
def violate (p : Side) (src : Nat) (esc : Bool) (d : Dev) : Dev :=
  let d := count src p.idx none 1 d
  if !esc then d
  else
    let l := (d.host.get p).escal.filter (fun t => now d < t + msTicks 10) ++ [now d]
    if l.length < 64 then d.onHost p fun h => { h with escal := l }
    else
      let d := d.onHost p fun h => { h with escal := [], degraded := true }
      signalBoth 0 (logIt 0x0502 4 p.idx [] (d := d))

def hostWrongPort (p : Side) (d : Dev) : Dev := violate p 0x0303 true d

/-- A register access that is misaligned or of another size than 4 or 8 B (R4). -/
def accessBad (off size : Nat) : Bool := !(size = 4 || size = 8) || off % size ≠ 0

/-- It is counted, and a Completer Abort is logged (R415). -/
def badAccess (p : Side) (d : Dev) : Dev := violate p 0x0300 true (aerLog p .completerAbort d)

-- Bivouac (R537, R538)

/-- A wake event begins the exit (R538, R539). -/
def wakeDev (d : Dev) : Dev := if d.pwr.state = .bivouac then d.onPwr fun p => { p with state := .waking } else d

/-- Entry ends without Bivouac: fetching resumes, POWER_STATE returns BUSY (R537). -/
def bivAbort (d : Dev) : Dev :=
  if d.pwr.state ≠ .entering then d
  else
    let c := d.pwr.bivCmd
    let d := d.onPwr fun p => { p with state := .active, bivCmd := none }
    match c with
    | some c => answerIf c 0x0104 stBusy none d
    | none => d

/-- Commands that run in Bivouac without waking the device (R538). -/
def asleepOk (op : Nat) : Bool := op = 0x0101 || op = 0x0105 || op = 0x0A02 || op = 0x0A03 || op = 0x0B01

-- Traverse (R549)

/-- A command ends INTERNAL, with the entry that R437 asks for; the firmware's code is its own (log 5). -/
def internalEnd (c : CmdSlot) (op : Nat) (d : Dev) : Dev :=
  let (fw, d) := takeFree d
  answerIf c op stInternal none (logIt 0x00F0 5 ((leader d).getD .west).idx [op, fw.toNat] (d := d))

/-- A control die is fenced or lost during a Traverse: the surviving die leads on the image it runs. The command ends INTERNAL where a die leads to write it; a new leader answers it under R432. -/
def travLost (s : Side) (d : Dev) : Dev :=
  if !(d.svc.trav = .traversing || d.svc.trav = .traversed) then d
  else
    let cand := d.svc.dieBank.get s.other ≠ d.svc.bank
    let c := d.svc.traverse
    let d := d.onSvc fun v => { v with trav := if cand then .traversed else .idle, traverse := none }
    match c, leader d with
    | some t, some _ => internalEnd t.cmd 0x0903 d
    | _, _ => d

-- Hasps

/-- A Hasp changes holder (R392). -/
def setHolder (n : Nat) (a : Option Agent) (token : BitVec 16) (d : Dev) : Dev :=
  let d := d.onHasp n fun h => { epoch := h.epoch + 1#32, token := token, holder := a }
  if n = 0 then epochCast d else d

/-- Hasps 1 to 63 of an agent, and Hasp 0 of a port, are released by its reset or fencing (R394), and so is the Latch (R477); vector 3 of the other port when a port held one (R411). -/
def releaseAll (a : Agent) (d : Dev) : Dev :=
  let mine := (List.range 64).filter fun n => (d.hasp n).holder = some a && n ≠ 0
  let d := mine.foldl (fun d n => setHolder n none 0#16 d) d
  let d := latchDropOf a d
  match a with
  | .port p => if mine = [] then d else raiseIbi 3 (msix p.other 3 d)
  | .die _ => d

-- Leadership

/-- LEADER_CHANGE: log, count, vector 3 on both ports (R411, R561). -/
def leaderChanged (who : Nat) (d : Dev) : Dev :=
  signalBoth 3 (count 0x0B05 0xFF none 1 (logIt 0x0601 0 0 [who, (leadEpoch d).toNat] (d := d)))

/-- Creations that a lost leader left without a reply are undone (R432): a MEM_ALLOC still zeroing, a WINDOW_OPEN or a TENANT_CREATE of any number whose writes were not all acknowledged. -/
def undoCreation (m : Cmd) (d : Dev) : Dev :=
  if m.stage ≠ .running then d
  else if m.hdr.opcode = 0x0301#16 then m.work.foldl (fun d h => d.onMem fun x => { x with allocs := x.allocs.erase h }) d
  else if m.hdr.opcode = 0x0401#16 then freeWindows (fun w _ => m.work.contains w) none d
  else if m.hdr.opcode = 0x0201#16 && u32 m.params 0 = 0xFFFFFFFF then
    m.work.foldl (fun d n => replSend [.tenantEntry n] none (d.onTens fun x => { x with tenants := x.tenants.erase n })) d
  else d

/-- What still goes on for a command answered ABORTED no longer names its slot; no command of these groups comes by the sideband, which stands for none. -/
def disownCmds (d : Dev) : Dev :=
  let cause (c : StepCause) : StepCause := match c with
    | .recalDown l _ => .recalDown l .sideband
    | .recalUp l _ => .recalUp l .sideband
    | .cap _ => .cap .sideband
    | c => c
  let d := d.onXlt fun x => { x with
    windows := x.windows.map fun (w, v) => (w, { v with cmd := none })
    invs := x.invs.map fun (i, v) => (i, { v with cmd := none }) }
  let d := d.onTens fun x => { x with
    tenants := x.tenants.map fun (n, t) =>
      (n, { t with resetCmd := none, destroyCmd := none, freeze := t.freeze.map fun f => { f with cmd := none } }) }
  let d := d.onNet fun n => { n with ports := n.ports.map fun p => { p with
    step := p.step.map fun s => { s with cause := cause s.cause }
    stepAfter := p.stepAfter.map cause
    recal := p.recal.map fun (l, _) => (l, .sideband)
    recalUp := none
    adminDrain := p.adminDrain.map fun _ => .sideband
    gatePending := p.gatePending.map fun g => { g with cmd := .sideband } } }
  let d := d.onRopes fun x => { x with slots := x.slots.map fun (k, r) => (k, { r with destroying := r.destroying.map fun _ => none }) }
  let d := d.onSvc fun v => { v with microcode := none }
  d.onPwr fun p => { p with bivCmd := none, wakeCmd := none }

/-- Hand leadership over to the other die with begun commands answered except the causing one (R432): the other must be able to lead. -/
def canHandover (d : Dev) : Bool :=
  match leader d with
  | some s => d.ctl.dies.get s.other = .follower
  | none => false

def handOver (d : Dev) : Dev :=
  match leader d with
  | none => d
  | some s =>
    let d := setHolder 0 none 0#16 d
    let d := d.onCtl fun c => { c with dies := c.dies.set s .follower }
    let d := setHolder 0 (some (.die s.other)) 1#16 d
    leaderChanged (s.other.idx + 1) (d.onCtl fun c => { c with dies := c.dies.set s.other .leader, lease := 1000 })

end Sys2Proof.Machine
end

