-- ==== Sys2Proof/Machine/Memory.lean ====
section
/-! DEFINITION. Device memory stacks: allocation, ECC, retirement, STACK PARK, loss of a stack (02_memory_stacks). -/

namespace Sys2Proof.Machine

-- Allocation (R49 to R54)

/-- Free 1 GiB extents of a stack as intervals in 1 GiB units, offsets below 0xB_C000_0000 (R50 HUGE). -/
def hugeIv (l : List (Nat × Nat)) : List (Nat × Nat) :=
  l.filterMap fun (s, n) =>
    let a := ceilDiv s 512
    let b := min 47 ((s + n) / 512)
    if a < b then some (a, b - a) else none

/-- One turn over the stacks: at most stripe extents each (R50). -/
def dealTurn (stripe : Nat) : List (Nat × List (Nat × Nat)) → Nat → List (Nat × Nat × Nat) × List (Nat × List (Nat × Nat)) × Nat
  | [], left => ([], [], left)
  | (k, iv) :: r, left =>
    let n := min (min stripe left) (ivSum iv)
    let (got, rest) := takeIv iv n
    let (c, l, left) := dealTurn stripe r (left - n)
    (got.map (fun (s, m) => (k, s, m)) ++ c, (k, rest) :: l, left)

/-- Turns until everything is placed (R50). -/
def deal (stripe : Nat) : Nat → List (Nat × List (Nat × Nat)) → Nat → List (Nat × Nat × Nat)
  | 0, _, _ => []
  | f + 1, l, left =>
    if left = 0 then []
    else
      let (c, l, left) := dealTurn stripe l left
      c ++ deal stripe f l left

/-- Extents dealt one after another that are contiguous join (R51). -/
def joinDealt : List Run → List Run
  | [] => []
  | r :: rest => match joinDealt rest with
    | x :: t => if r.unit + r.len = x.unit && r.unit / 32768 = x.unit / 32768 then ⟨r.unit, r.len + x.len⟩ :: t else r :: x :: t
    | [] => [r]

/-- The runs a policy deals, none when the stacks cannot hold the units (R50, R51). -/
def place (d : Dev) (units mask policy stripe : Nat) : Option (List Run) :=
  let ks := (bitsOf 32 mask).filter (stackUsable d)
  let free := ks.map fun k => (k, if policy = 2 then hugeIv (freeIv d k) else freeIv d k)
  let scale := if policy = 2 then 512 else 1
  let want := units / scale
  if (free.map fun x => ivSum x.2).sum < want then none
  else
    let step := if policy = 1 then want else stripe
    some (joinDealt ((deal step want free want).map fun (k, s, n) => ⟨dpaUnit k (s * scale), n * scale⟩))

/-- Extents of an allocation return to the pool; those of an offline stack are withheld until power-on (R54). -/
def releaseAlloc (h : Nat) (d : Dev) : Dev :=
  match d.alloc? h with
  | none => d
  | some a =>
    let d := a.runs.foldl (fun d r =>
      let k := r.unit / 32768
      if stackOffline d k then
        d.onStk k fun s => { s with freedOffline := s.freedOffline ++ (List.range r.len).map fun i => r.unit % 32768 + i }
      else d) d
    d.onMem fun m => { m with allocs := m.allocs.erase h }

def memAllocChk (c : CmdSlot) (p : Bytes) (_ : Dev) : List (Nat × Bool) :=
  [(0, u32 p 0 < 256),
   (4, 1 ≤ u32 p 4 && u32 p 4 ≤ 524288 && (u8 p 0xC ≠ 2 || u32 p 4 % 512 = 0)),
   (8, u32 p 8 ≠ 0),
   (0xC, u8 p 0xC ≤ 2),
   (0xD, u8 p 0xD = 0),
   (0xE, u8 p 0xC = 1 || u16 p 0xE ≠ 0),
   (0x10, addrOk c (u64 p 0x10) 64),
   (0x18, 1 ≤ u32 p 0x18 && u32 p 0x18 ≤ 65536),
   (0x1C, u32 p 0x1C = 0)]

/-- The next handle of 32 bits that is not live (R51; log 71). -/
def newHandle (d : Dev) : Nat := (findFrom (fun h => (d.alloc? (h % 2 ^ 32)).isNone) (d.mem.allocs.length + 1) d.mem.nextHandle).getD 0 % 2 ^ 32

/-- MEM_ALLOC (R49 to R53): the extents are taken, and the reply follows the zeroing. -/
def devMemAlloc (c : CmdSlot) : Dev → Dev :=
  runChk c 0x0301 (memAllocChk c) fun p d =>
    let n := u32 p 0
    withTenant c n true (fun t d =>
      let units := u32 p 4
      if t.par.memUnits < memUsed d n + units then quotaHit c n 1 d
      else match place d units (u32 p 8) (u8 p 0xC) (u16 p 0xE) with
        | none => finish c stNoResource d
        | some runs =>
          if u32 p 0x18 < runs.length then finishAt c stBadLength 0x18 d
          else
            let h := newHandle d
            let d := d.onMem fun m => { m with nextHandle := (h + 1) % 2 ^ 32, allocs := m.allocs.set h ⟨n, runs, u8 p 0xC = 2, true⟩ }
            leave c [h] (runs.foldl (fun d r => wakeStack (r.unit / 32768) d) d)) d

def execMemAlloc (c : CmdSlot) (s : State) : Host.Outcome State Fault Refusal := onDev s (live (devMemAlloc c))

def allocResult (h : Nat) (a : Alloc) : Bytes :=
  toLE 4 h ++ toLE 4 a.runs.length ++ toLE 4 (allocUnits a) ++ zpad 4
    ++ a.runs.flatMap fun r => toLE 8 (r.unit * unitBytes) ++ toLE 4 r.len ++ zpad 4

/-- The slot whose running MEM_ALLOC made the allocation. -/
def allocSlot (d : Dev) (h : Nat) : Option CmdSlot :=
  allSlots.find? fun c => match cmdAt d c with
    | some m => m.stage = .running && m.hdr.opcode = 0x0301#16 && m.work = [h]
    | none => false

/-- Every extent has been zeroed, poison cleared (R53): MEM_ALLOC returns DONE. -/
def devZeroingDone (h : Nat) (d : Dev) : Dev :=
  match d.alloc? h with
  | none => d
  | some a =>
    if !a.zeroing then d
    else
      let d := a.runs.foldl (fun d r =>
        count 0x0609 (r.unit / 32768) none (r.len * unitBytes) (memZero (r.unit * unitBytes) (r.len * unitBytes) (touchStack (r.unit / 32768) d))) d
      let d := d.onMem fun m => { m with allocs := m.allocs.upd h fun a => { a with zeroing := false } }
      match allocSlot d h with
      | none => d
      | some c => match cmdAt d c with
        | some m => answerIf c 0x0301 stDone (some (u64 m.params 0x10, allocResult h a)) d
        | none => d

def execZeroingDone (handle : Nat) (s : State) : Host.Outcome State Fault Refusal := onDev s (live (devZeroingDone handle))

/-- A mapping, a window or an unfinished UNMAP_RANGE covers part of the allocation (R54, R174). -/
def allocCovered (d : Dev) (h : Nat) : Bool :=
  d.xlt.tables.any (fun (_, t) => t.maps.any fun m => m.handle = h)
    || d.xlt.invs.any (fun (_, i) => i.handles.contains h)

/-- MEM_FREE (R54). -/
def devMemFree (c : CmdSlot) : Dev → Dev :=
  runChk c 0x0302 (fun p _ => [(0, u32 p 0 < 256)]) fun p d =>
    withTenant c (u32 p 0) true (fun _ d =>
      let h := u32 p 4
      match d.alloc? h with
      | none => finishAt c stBadParam 4 d
      | some a =>
        if a.zeroing then finishAt c stBadParam 4 d
        else if a.tenant ≠ u32 p 0 then finishAt c stNotOwner 4 d
        else if allocCovered d h then finish c stBusy d
        else finish c stDone (releaseAlloc h d)) d

def execMemFree (c : CmdSlot) (s : State) : Host.Outcome State Fault Refusal := onDev s (live (devMemFree c))

-- Row groups (R42, R60 to R64)

def groupBytes : Nat := 262144
/-- First row group of the reserve: offset 0xB_F800_0000 (R45). -/
def reserveGroup : Nat := 0xBF8000000 / 262144

/-- Poisoned codewords of a stretch. -/
def poisonCount (d : Dev) (dpa len : Nat) : Nat :=
  (d.mem.poison.filter fun c => dpa ≤ 32 * c && 32 * c < dpa + len).length

-- Table extents (R157)

/-- A codeword of a copy does not hold its entries. -/
def copyBad (c : Option TabCopy) (cw : Nat) : Bool :=
  match c with
  | none => true
  | some c => c.rebuilding || c.bad.contains cw

/-- DVA stretch that entries i to i + n - 1 of a table at a level cover. -/
def entrySpan (name : Nat × Nat) (i n : Nat) : Nat × Nat :=
  let sz := 2 ^ (12 + 9 * name.1)
  (name.2 * (512 * sz) + i * sz, n * sz)

/-- Stretches in rising order, those that overlap or touch made one. -/
def joinIv (l : List (Nat × Nat)) : List (Nat × Nat) :=
  (l.foldl insIv []).foldr (fun x r => match r with
    | y :: t => if y.1 ≤ x.1 + x.2 then (x.1, max x.2 (y.1 + y.2 - x.1)) :: t else x :: r
    | [] => [x]) []

/-- The mapped parts of DVA stretches: an entry that maps nothing has no translation to lose. -/
def mappedParts (t : PageTables) (spans : List (Nat × Nat)) : List (Nat × Nat) :=
  joinIv (spans.flatMap fun (s, n) => t.maps.filterMap fun m =>
    let a := max s m.dva
    let b := min (s + n) (m.dva + m.len)
    if a < b then some (a, b - a) else none)

/-- Entries of a tenant are lost in both copies: accesses through them fail, and one event tells the first DVA whose translation is lost and the bytes that are (R157). -/
def tableLost (t : Nat) (spans : List (Nat × Nat)) (d : Dev) : Dev :=
  let l := mappedParts (tabOf d t) spans
  match l with
  | [] => d
  | s :: _ => postEvent t 0x01 0xFFFFFFFF (s.1 + 2 ^ 63) (ivSum l) (onTab t (fun x => { x with lost := x.lost ++ l }) d)

def hasUnit (unit : Nat) (c : Option TabCopy) : Bool :=
  match c with
  | some c => c.unit = unit
  | none => false

/-- The tenant whose table extent lies in a 2 MiB unit. -/
def tableOwner (d : Dev) (unit : Nat) : Option Nat :=
  (d.xlt.tables.find? fun (_, pt) => pt.extents.any fun (_, e) => hasUnit unit e.copies.w || hasUnit unit e.copies.e).map Prod.fst

/-- The stretches that codewords of a table extent cover. -/
def cwSpans (e : TabExtent) (cws : List Nat) : List (Nat × Nat) :=
  cws.filterMap fun cw => (e.places.get? (cw / 128)).map fun name => entrySpan name (cw % 128 * 4) 4

/-- Codewords of a table extent were found uncorrectable (R157): those of the poisoned copy are rewritten from the sound one, and entries bad in both copies are lost. -/
def tableUe (unit : Nat) (cws : List Nat) (d : Dev) : Dev :=
  d.xlt.tables.foldl (fun d (t, pt) => pt.extents.foldl (fun d (key, e) =>
    if !hasUnit unit e.copies.w && !hasUnit unit e.copies.e then d
    else
      let side : Side := if hasUnit unit e.copies.w then .west else .east
      let gone := cws.filter fun cw => copyBad (e.copies.get side.other) cw
      let bad := cws.filter fun cw => !gone.contains cw
      let put (x : Side) (l : List Nat) (e : TabExtent) : TabExtent :=
        { e with copies := e.copies.upd x fun c => c.map fun c => { c with bad := l.foldl insNat (c.bad.filter fun w => !gone.contains w) } }
      tableLost t (cwSpans e gone) (onTab t (fun x => { x with extents := x.extents.upd key fun e => put side.other [] (put side bad e) }) d)) d) d

/-- A lost stack's copies of one tenant's extents: each is rebuilt on another stack of its half or kept single; with them, the stretches whose entries are lost (R157). -/
def copiesLost (k t : Nat) (side : Side) (d : Dev) : Dev × List (Nat × Nat) :=
  (tabOf d t).extents.foldl (fun (d, lost) (key, e) =>
    let mine : Bool := match e.copies.get side with
      | some c => c.unit / 32768 = k
      | none => false
    if !mine then (d, lost)
    else
      let set (c : Option TabCopy) (d : Dev) : Dev :=
        onTab t (fun x => { x with extents := x.extents.upd key fun e => { e with copies := e.copies.set side c } }) d
      let other := e.copies.get side.other
      let d := set none d
      if (other.map (·.rebuilding)).getD true then (d, lost ++ e.places.map fun (_, n) => entrySpan n 0 512)
      else
        let d := onTab t (fun x => { x with extents := x.extents.upd key fun e =>
          { e with copies := e.copies.upd side.other fun c => c.map fun c => { c with bad := [] } } }) d
        let d := match tableUnit d side with
          | some u => set (some ⟨u, true, []⟩) d
          | none => logIt 0x0204 1 k [((other.map (·.unit)).getD 0) * unitBytes] (d := d)
        (d, lost ++ cwSpans e ((other.map (·.bad)).getD []))) (d, [])

/-- The copies that a lost stack held; each tenant that lost entries gets one event (R157). -/
def tableStackLost (k : Nat) (d : Dev) : Dev :=
  d.xlt.tables.foldl (fun d (t, _) => let (d, lost) := copiesLost k t (stackHalf k) d; tableLost t lost d) d

/-- The tenant that owns a row group: of the allocation, or of the table extent, that it lies in. -/
def groupOwner (d : Dev) (dpa : Nat) : Option Nat :=
  match ownerOf d dpa with
  | some (_, a, _) => some a.tenant
  | none => tableOwner d (dpa / unitBytes)

/-- The reserve row groups not yet used, by number within the reserve; the moves that wait have chosen the first of them (R61). -/
def reserveFree (s : Stack) : List Nat :=
  ((List.range 512).filter fun i => !s.aside.contains i).drop (s.reserveUsed - s.aside.length)

/-- All reserve row groups of a stack are in use (R62). -/
def reserveFull (k : Nat) (d : Dev) : Dev :=
  if 512 ≤ (d.stack k).reserveUsed && !(d.stack k).reserveExhausted then
    logIt 0x0104 1 k [] (d := d.onStk k fun s => { s with reserveExhausted := true })
  else d

/-- A row group starts retirement (R61, R62): a move, or without one once the reserve is in use. A move takes the lowest reserve group not yet used, moves of one stack run one after another, and without a move POISONED counts the codewords poisoned before (log 94). -/
def retireGroup (k g : Nat) (cause : RetireCause) (d : Dev) : Dev :=
  let s := d.stack k
  let dpa := k * 2 ^ 36 + g * groupBytes
  if s.mode = .offline || s.moves.any (fun m => m.group = g) || (s.retired.get? g).any (fun r => r.spare = none) then d
  else
    match (reserveFree s)[s.moves.length]? with
    | some i => d.onStk k fun s => { s with moves := s.moves ++ [{ group := g, spare := reserveGroup + i, cause := cause }] }
    | none =>
      let rec_ : Retired := ⟨none, d.pwr.tsc, .withoutMove, groupOwner d dpa, poisonCount d dpa groupBytes⟩
      let own := ownerOf d dpa
      let d := memPoison dpa groupBytes d
      let d := d.onStk k fun s => { s with
        lostGroups := satAdd s.lostGroups 1
        retired := s.retired.set g rec_
        withheld := insNat s.withheld (g / 8) }
      let d := storeWrite [rkRetired] d
      let d := count 0x0603 k none 1 (logIt 0x0103 1 k [dpa, 0, 3] (d := d))
      match own with
      | some (h, a, o) => postEvent a.tenant 0x01 h o groupBytes d
      | none => tableUe (dpa / unitBytes) ((List.range 8192).map (g % 8 * 8192 + ·)) d

/-- The rebuild of a copy, or of its poisoned codewords, ends (R157). -/
def devTableCopyRebuilt (tenant extent : Nat) (d : Dev) : Dev :=
  match (tabOf d tenant).extents.get? extent with
  | none => d
  | some e =>
    let wipe (c : Option TabCopy) (d : Dev) : Dev := match c with
      | some c => c.bad.foldl (fun d cw => memZero (c.unit * unitBytes + 32 * cw) 32 d) d
      | none => d
    let fresh (c : Option TabCopy) : Option TabCopy := c.map fun c => { c with rebuilding := false, bad := [] }
    onTab tenant (fun x => { x with extents := x.extents.upd extent fun e => { e with copies := ⟨fresh e.copies.w, fresh e.copies.e⟩ } })
      (wipe e.copies.w (wipe e.copies.e d))

def execTableCopyRebuilt (tenant extent : Nat) (s : State) : Host.Outcome State Fault Refusal :=
  onDev s (live (devTableCopyRebuilt tenant extent))

-- Losing a stack (R66)

/-- What a requester sees of an access that fails (R44, R58, R66). -/
def accFail (who : Requester) (code detail : Nat) (d : Dev) : Dev :=
  match who with
  | .leg x _ => d.onQ fun q => { q with xfers := q.xfers.upd x fun t => { t with fail := if t.fail.isNone then some (code, detail) else t.fail } }
  | .opLeg o _ => opFail o code detail d
  | .rope k => ropeAbortLocal k (if code = ccUncorrectable then 0x62 else 0x64) d
  | .other => d

def accWho : Access → Requester
  | .read _ _ w _ => w
  | .write _ _ w _ => w
  | .readDone _ w _ => w
  | .writeDone _ _ w _ _ => w

/-- The cells of the access have been served (R48). -/
def accServed : Access → Bool
  | .readDone _ _ _ => true
  | .writeDone _ _ _ _ _ => true
  | _ => false

/-- Maximal stretches of an allocation's byte offsets on a stack, in run order (R66). -/
def stretches (k : Nat) : List Run → Nat → Option (Nat × Nat) → List (Nat × Nat)
  | [], _, cur => cur.toList
  | r :: rest, off, cur =>
    let n := r.len * unitBytes
    if r.unit / 32768 = k then
      stretches k rest (off + n) (some (match cur with
        | some (s, l) => (s, l + n)
        | none => (off, n)))
    else cur.toList ++ stretches k rest (off + n) none

/-- Allocations being zeroed on a lost stack are released and their MEM_ALLOC returns NO_RESOURCE (R52). -/
def zeroingLost (k : Nat) (d : Dev) : Dev :=
  d.mem.allocs.foldl (fun d (h, a) =>
    if a.zeroing && a.runs.any (fun r => r.unit / 32768 = k) then
      let slot := allocSlot d h
      let d := releaseAlloc h d
      match slot with
      | some c => answerIf c 0x0301 stNoResource none d
      | none => d
    else d) d

/-- A stack goes OFFLINE (R66): cause 2 a chimney, 3 a lost tile. -/
def stackLost (k cause : Nat) (d : Dev) : Dev :=
  let s := d.stack k
  if s.mode = .offline then d
  else
    let ops := opsOnStack d k
    let d := d.onStk k fun s => { s with mode := .offline, parkReq := false, held := [], moves := [], track := [], ues := [] }
    let d := d.onStkEng k fun e => { e with queue := [], starving := none, deficit := [] }
    let d := logIt 0x0105 1 k [cause] (d := d)
    let d := (s.held ++ s.moves.flatMap (·.hold)).foldl (fun d a => accFail (accWho a) ccUncorrectable 0x15 d) d
    let d := ops.foldl (fun d i => opFail i ccUncorrectable 0x15 d) d
    let d := zeroingLost k d
    let d := d.mem.allocs.foldl (fun d (h, a) =>
      (stretches k a.runs 0 none).foldl (fun d (o, n) => postEvent a.tenant 0x01 h o n d) d) d
    tableStackLost k d

def devChimneyFail (stack : Nat) (d : Dev) : Dev :=
  if stack < 32 then
    (if (d.stack stack).mode = .init then d.onStk stack (fun s => { s with mode := .offline }) |> fun d => logIt 0x0105 1 stack [2] (d := d)
     else stackLost stack 2 d)
  else d

def execChimneyFail (stack _chimney : Nat) (s : State) : Host.Outcome State Fault Refusal := onDev s (liveQ (devChimneyFail stack))

-- ECC (R55 to R58, R60)

/-- The DPA that a codeword of the reserve serves, or its own (R61). -/
def servedDpa (s : Stack) (k dpa : Nat) : Nat :=
  let g := dpa % 2 ^ 36 / groupBytes
  if g < reserveGroup then dpa
  else match s.retired.find? fun (_, r) => r.spare = some g with
    | some (o, _) => k * 2 ^ 36 + o * groupBytes + dpa % groupBytes
    | none => dpa

/-- A reserve row group that serves none retires (R60): it holds nothing to move, and no move takes it; a move that had chosen it takes another (log 94). -/
def setAside (k g : Nat) (cause : RetireCause) (d : Dev) : Dev :=
  let i := g - reserveGroup
  if (d.stack k).mode = .offline || !(reserveFree (d.stack k)).contains i then d
  else
    let dpa := k * 2 ^ 36 + g * groupBytes
    let r : Retired := ⟨none, d.pwr.tsc, cause, none, poisonCount d dpa groupBytes⟩
    let d := d.onStk k fun s => { s with aside := insNat s.aside i, reserveUsed := s.reserveUsed + 1, retired := s.retired.set g r }
    let d := storeWrite [rkRetired] d
    let d := reserveFull k (count 0x0602 k none 1 (logIt 0x0103 1 k [dpa, 0, cause.code] (d := d)))
    let s := d.stack k
    match s.moves.find? (·.spare = g) with
    | none => d
    | some m => match (reserveFree s)[s.moves.length - 1]? with
      | some j => d.onStk k fun s => { s with moves := s.moves.map fun x => if x.group = m.group then { x with spare := reserveGroup + j } else x }
      | none => retireGroup k m.group m.cause
          (d.onStk k fun s => { s with moves := s.moves.filter (·.group ≠ m.group), held := m.hold ++ s.held })

/-- A row group retires; one of the reserve is set aside (R60). -/
def retireAt (k dpa : Nat) (cause : RetireCause) (d : Dev) : Dev :=
  let g := dpa % 2 ^ 36 / groupBytes
  if g < reserveGroup then retireGroup k g cause d else setAside k g cause d

/-- A codeword is corrected (R56, R60); a chimney row that reaches 4 errors leaves the tracking table as its row group retires (log 94). -/
def ceFound (k dpa : Nat) (d : Dev) : Dev :=
  let d := count 0x0600 k none 1 (d.onStk k fun s =>
    { s with ceCount := satAdd s.ceCount 1, ceSeen := true, ceUnlogged := s.ceUnlogged + 1 })
  let ch := dpa / 256 % 128
  let g := dpa % 2 ^ 36 / groupBytes
  let me (t : CeTrack) : Bool := t.chimney = ch && t.group = g
  let s := d.stack k
  let n := ((s.track.find? me).map (·.count)).getD 0 + 1
  let rest := s.track.filter fun t => !me t
  if 4 ≤ n then retireAt k dpa .correctable (d.onStk k fun s => { s with track := rest })
  else
    let rest := if 1024 ≤ rest.length then rest.drop 1 else rest
    d.onStk k fun s => { s with track := rest ++ [⟨ch, g, n⟩] }

/-- A codeword was found uncorrectable and poisoned (R57, R157): counted, logged, told to its owner; its row group retires, or its chimney fails with the eighth such row group within 60 s. -/
def ueFound (k dpa : Nat) (d : Dev) : Dev :=
  let d := count 0x0601 k none 1 (d.onStk k fun s => { s with ueCount := satAdd s.ueCount 1, ueSeen := true })
  let d := logIt 0x0102 1 k [dpa / 32 * 32] (d := d)
  let d := match ownerOf d (dpa / 256 * 256) with
    | some (h, a, o) => postEvent a.tenant 0x01 h o 256 d
    | none => tableUe (dpa / unitBytes) [dpa % unitBytes / 32] d
  let ch := dpa / 256 % 128
  let g := dpa % 2 ^ 36 / groupBytes
  let recent := ((d.stack k).ues.filter fun (_, _, t) => now d < t + secTicks 60) ++ [(ch, g, now d)]
  let d := d.onStk k fun s => { s with ues := recent }
  if 8 ≤ ((recent.filter fun x => x.1 = ch).map fun x => x.2.1).dedup.length then stackLost k 2 d
  else retireAt k dpa .uncorrectable d

/-- The actions that follow what a codeword's check found (R56, R57). -/
def noteFound (k dpa : Nat) (f : Found) (d : Dev) : Dev :=
  match f with
  | .fixed _ => ceFound k dpa d
  | .lost => ueFound k dpa d
  | _ => d

/-- The bytes that a read of a codeword delivers, none when it is uncorrectable (R55, R58). -/
def Found.bytes : Found → Option Bytes
  | .clean b => some b
  | .fixed b => some b
  | _ => none

/-- One codeword is read with n symbols in error (R55 to R58). -/
def eccRead (k dpa n : Nat) (d : Dev) : Option Bytes × Dev :=
  let (f, d) := eccCell dpa n d
  (f.bytes, noteFound k dpa f d)

def noteAll (k dpa : Nat) (l : List (Nat × Found)) (d : Dev) : Dev := l.foldl (fun d (i, f) => noteFound k (dpa + 32 * i) f d) d

-- Accesses on a stack link (R44 to R48, R61, R65)

/-- The answer to an access whose cells have been served: counts, the actions of R56 and R57, and what its requester sees (R58). -/
def accAnswer (k : Nat) (a : Access) (d : Dev) : Dev :=
  match a with
  | .readDone off who found =>
    let d := noteAll k (k * 2 ^ 36 + off / 32 * 32) ((List.range found.length).zip found) (count 0x0604 k none (32 * found.length) d)
    let data := found.map Found.bytes
    let d := emit (.legRead who data) d
    if data.all (·.isSome) then d
    else match who with
      | .opLeg _ _ => accFail who ccUncorrectable 0x14 d
      | .rope _ => accFail who ccUncorrectable 0x14 d
      | .leg x _ => d.onQ fun q => { q with xfers := q.xfers.upd x fun t => { t with poisoned := true } }
      | .other => d
  | .writeDone off n who found bad =>
    let dpa := k * 2 ^ 36 + off
    let d := noteAll k (dpa / 32 * 32) found (count 0x0605 k none n d)
    let d := if dpa % 32 ≠ 0 || (dpa + n) % 32 ≠ 0 then count 0x0606 k none 1 d else d
    if bad then match who with
      | .leg x _ => d.onQ fun q => { q with xfers := q.xfers.upd x fun t => { t with poisoned := true } }
      | w => accFail w ccUncorrectable 0x14 d
    else d
  | _ => d

/-- An access that the base die applies now. -/
def applyAccess (k : Nat) (a : Access) (d : Dev) : Dev :=
  let (a, d) := accCells k a d
  accAnswer k a d

/-- The move that an access must wait for. -/
def moveOver (s : Stack) (a : Access) : Option Move :=
  let (o, n) := accRange a
  s.moves.head?.bind fun m => if m.group * groupBytes < o + n && o < (m.group + 1) * groupBytes then some m else none

/-- The way of an access to its base die and of its answer back is open (R12, R18, R21): from the tile of a transfer's leg, in the COL class from the tile of a rope, and from the stack's own tile for what else comes by the stack link. A leg of an operation runs in the base die itself. -/
def accOpen (d : Dev) (k : Nat) (who : Requester) : Bool :=
  match who with
  | .leg x l => stackOpen d (((d.q.xfers.get? x).bind fun t => t.legs[l]?).map (·.tile) |>.getD (stackTile k)) k
  | .opLeg _ _ => true
  | .rope s => stackOpenCol d (((d.rope? s).map (·.par.tile)).getD (stackTile k)) k
  | .other => stackOpen d (stackTile k) k

/-- An access reaches a base die: it waits for its credits and for a place for its answer, while the stack wakes, behind accesses that wait so, and in the hold queue of a move (R18, R21, R61, R65); a hold queue that is full stops the link. -/
def serveAccess (k : Nat) (a : Access) (d : Dev) : Dev :=
  let s := d.stack k
  let (o, n) := accRange a
  let wait (d : Dev) : Dev := d.onStk k fun s => { s with held := s.held ++ [a] }
  match s.mode with
  | .init => d
  | .offline => accFail (accWho a) ccUncorrectable 0x15 d
  | .parked => wait (wakeStack k d)
  | .waking => wait d
  | _ =>
    let d := d.onStk k fun s => { s with mode := .online }
    if s.held ≠ [] || (!accServed a && !accOpen d k (accWho a)) then wait d
    else if accServed a then accAnswer k a d
    else if offEnd < o + n then accFail (accWho a) ccLocalAccess 0x10 (logIt 0x0106 1 k [o] (d := d))
    else match moveOver s a with
      | some m =>
        if m.hold.length < 64 then d.onStk k fun s => { s with moves := modAt s.moves 0 fun m => { m with hold := m.hold ++ [a] } }
        else wait d
      | none => applyAccess k a d

/-- Accesses that waited for REQ credits arrive in order. -/
def serveWaiting (k : Nat) (d : Dev) : Dev :=
  (d.stack k).held.foldl (fun d a => serveAccess k a d) (d.onStk k fun s => { s with held := [] })

/-- An address whose top bits name no stack offset is logged like any other (R44). -/
def devStackRead (stack off n : Nat) (who : Requester) (errs : List (Nat × Nat)) (d : Dev) : Dev :=
  if stack < 32 then serveAccess stack (.read off n who errs) d else d

def execStackRead (stack off codewords : Nat) (who : Requester) (errs : List (Nat × Nat)) (s : State) : Host.Outcome State Fault Refusal :=
  onDev s (liveQ (devStackRead stack off codewords who errs))

def devStackWrite (stack off : Nat) (data : Bytes) (who : Requester) (errs : List (Nat × Nat)) (d : Dev) : Dev :=
  if stack < 32 then serveAccess stack (.write off data who errs) d else d

def execStackWrite (stack off : Nat) (data : WriteData) (who : Requester) (s : State) : Host.Outcome State Fault Refusal :=
  onDev s (liveQ (devStackWrite stack off data.bytes who data.errs))

/-- The copy of a row group reads each of its codewords (R55, R61): errs are its symbol errors by index. -/
def moveCopy (k : Nat) (dpa : Nat) (errs : List (Nat × Nat)) (d : Dev) : Dev :=
  let (f, d) := eccCells errs dpa ((errs.map Prod.fst).filter (· < 8192)) d
  noteAll k dpa f d

/-- The move in progress ends (R61): copy, redirect, RESERVE_USED, the held accesses in order, log, event. -/
def devRetirementMoveDone (k : Nat) (errs : List (Nat × Nat)) (d : Dev) : Dev :=
  match (d.stack k).moves.head? with
  | none => d
  | some m =>
    let dpa := k * 2 ^ 36 + m.group * groupBytes
    let d := moveCopy k dpa errs d
    match (d.stack k).moves with
    | [] => d
    | m :: rest =>
      let own := ownerOf d dpa
      let r : Retired := ⟨some m.spare, d.pwr.tsc, m.cause, groupOwner d dpa, poisonCount d dpa groupBytes⟩
      let d := d.onStk k fun s => { s with moves := rest, reserveUsed := s.reserveUsed + 1, retired := s.retired.set m.group r }
      let d := reserveFull k (storeWrite [rkRetired] d)
      let d := d.onStk k fun s => { s with held := m.hold ++ s.held }
      let d := if (d.stack k).mode = .waking then d else serveWaiting k d
      let d := count 0x0602 k none 1 (logIt 0x0103 1 k [dpa, k * 2 ^ 36 + m.spare * groupBytes, m.cause.code] (d := d))
      match own with
      | some (h, a, o) => postEvent a.tenant 0x02 h o groupBytes d
      | none => d

def execRetirementMoveDone (move : MoveEnd) (s : State) : Host.Outcome State Fault Refusal :=
  onDev s (liveQ (devRetirementMoveDone move.stack move.errs))

/-- Codewords of one stack (R42). -/
def stackCodewords : Nat := 1610612736

/-- The scrubber reads its next codeword (R59); a parked stack is not scrubbed. -/
def devPatrolScrub (k symbols : Nat) (d : Dev) : Dev :=
  let s := d.stack k
  if k < 32 && (s.mode = .online || s.mode = .parking) then
    let d := serveCells k d
    let s := d.stack k
    let dpa := servedDpa s k (k * 2 ^ 36 + 32 * s.scrubPos)
    let last := s.scrubPos + 1 = stackCodewords
    let d := d.onStk k fun s => { s with scrubPos := if last then 0 else s.scrubPos + 1 }
    let d := if last then count 0x060A k none 1 d else d
    (eccRead k dpa symbols d).2
  else d

def execPatrolScrub (stack symbols : Nat) (s : State) : Host.Outcome State Fault Refusal := onDev s (liveQ (devPatrolScrub stack symbols))

/-- A tracked chimney row has had no error for 24 hours (R60). -/
def devCeTrackExpiry (k chimney group : Nat) (d : Dev) : Dev :=
  d.onStk k fun s => { s with track := s.track.filter fun t => !(t.chimney = chimney && t.group = group) }

def execCeTrackExpiry (stack chimney group : Nat) (s : State) : Host.Outcome State Fault Refusal :=
  onDev s (live (devCeTrackExpiry stack chimney group))

/-- The correctable errors since the last entry are logged, at most once a second (R56). -/
def devMemCe (k : Nat) (d : Dev) : Dev :=
  let early : Bool := match (d.stack k).ceLogged with
    | some t => now d ≤ t + secTicks 1
    | none => false
  if (d.stack k).ceUnlogged = 0 || early then d
  else logIt 0x0101 1 k [(d.stack k).ceUnlogged] (d := d.onStk k fun s => { s with ceUnlogged := 0, ceLogged := some (now d) })

def execMemCe (stack : Nat) (s : State) : Host.Outcome State Fault Refusal := onDev s (live (devMemCe stack))

-- Stack states (R65)

/-- A stack is trained and its retirement data loaded, or fails (R65); extents freed while it was offline are free again (R54). -/
def devStackInit (k : Nat) (ok : Bool) (d : Dev) : Dev :=
  if (d.stack k).mode ≠ .init || 32 ≤ k then d
  else if ok then d.onStk k fun s => { s with mode := .online, freedOffline := [] }
  else logIt 0x0105 1 k [1] (d := d.onStk k fun s => { s with mode := .offline })

def execStackInit (stack : Nat) (ok : Bool) (s : State) : Host.Outcome State Fault Refusal := onDev s (live (devStackInit stack ok))

def devParkIdle (k : Nat) (d : Dev) : Dev :=
  d.onStk k fun s => if s.mode = .online && s.parkReq then { s with mode := .parking } else s

def execParkIdle (stack : Nat) (s : State) : Host.Outcome State Fault Refusal := onDev s (live (devParkIdle stack))

/-- Running legs, moves and zeroing of a stack (R65). -/
def stackBusy (d : Dev) (k : Nat) : Bool :=
  ctxBusy d k ≠ 0 || (d.stack k).moves ≠ [] || d.mem.allocs.any fun (_, a) => a.zeroing && a.runs.any fun r => r.unit / 32768 = k

def devParkDrained (k : Nat) (d : Dev) : Dev :=
  if (d.stack k).mode = .parking && !stackBusy d k then count 0x0607 k none 1 (d.onStk k fun s => { s with mode := .parked }) else d

def execParkDrained (stack : Nat) (s : State) : Host.Outcome State Fault Refusal := onDev s (live (devParkDrained stack))

/-- The stack has left self-refresh and serves what it held (R65); with it what a row that woke it itself has left to answer. -/
def devStackWakeDone (k : Nat) (d : Dev) : Dev :=
  let s := d.stack k
  if s.mode = .waking || (s.held ≠ [] && (s.mode = .online || s.mode = .parking)) then
    serveWaiting k (d.onStk k fun s => { s with mode := if s.mode = .waking then .online else s.mode })
  else d

def execStackWakeDone (stack : Nat) (s : State) : Host.Outcome State Fault Refusal := onDev s (liveQ (devStackWakeDone stack))

-- RETIRE_QUERY (R64)

def retiredEntry (k : Nat) (x : Nat × Retired) : Bytes :=
  let (g, r) := x
  toLE 8 (k * 2 ^ 36 + g * groupBytes) ++ toLE 8 r.time.toNat
    ++ toLE 8 (match r.spare with | some s => k * 2 ^ 36 + s * groupBytes | none => 0)
    ++ toLE 1 r.cause.code ++ zpad 1 ++ toLE 2 (r.owner.getD 0xFFFF) ++ toLE 4 r.poisoned

def devRetireQuery (c : CmdSlot) : Dev → Dev :=
  runChk c 0x0306 (fun p _ => [(0, u8 p 0 < 32 || u8 p 0 = 0xFF), (1, zeros p 1 3), (8, addrOk c (u64 p 8) 64),
      (0x10, 1 ≤ u32 p 0x10 && u32 p 0x10 ≤ 16384)]) fun p d =>
    let ks := if u8 p 0 = 0xFF then List.range 32 else [u8 p 0]
    let all := ks.flatMap fun k => (d.stack k).retired.map (retiredEntry k)
    let sel := (all.drop (u32 p 4)).take (u32 p 0x10)
    finishRes c stDone (u64 p 8) (toLE 4 all.length ++ toLE 4 sel.length ++ zpad 8 ++ sel.flatten) d

def execRetireQuery (c : CmdSlot) (s : State) : Host.Outcome State Fault Refusal := onDev s (live (devRetireQuery c))

end Sys2Proof.Machine
end

