-- ==== Sys2Proof/Machine/WorkOps.lean ====
section
/-! DEFINITION. Work entries: their checks in the order of R212 and the tenant addresses they name (R202 to R213). -/

namespace Sys2Proof.Machine

-- Verbs (R202)
def vbWrite : Nat := 1
def vbRead : Nat := 2
def vbSend : Nat := 3
def vbRecv : Nat := 4
def vbAtomic : Nat := 5
def vbOperate : Nat := 6
def vbWait : Nat := 7

def weVerb (b : Bytes) : Nat := u8 b 0
def weSignal (b : Bytes) : Bool := tb (u8 b 1) 1
def weFence (b : Bytes) : Bool := tb (u8 b 1) 2
def weImm (b : Bytes) : Bool := tb (u8 b 1) 3
def weInline (b : Bytes) : Bool := tb (u8 b 1) 4
def weLen (b : Bytes) : Nat := u32 b 0x18
def weLocal (b : Bytes) : Nat := u64 b 0x10
def weRemote (b : Bytes) : Nat := u64 b 0x20
def weItems (b : Bytes) : Nat := u8 b 0x13

/-- Item k of a WAIT: source, destination and length (R210). -/
def weItem (b : Bytes) (k : Nat) : Nat × Nat × Nat :=
  let o := 0x28 + 6 * k
  (u64 b 0x18 + u16 b o, u64 b 0x20 + u16 b (o + 2), u8 b (o + 4))

/-- The tenant addresses an entry uses, with lengths and whether they are written (R204 to R211); on a local queue pair the second address too. -/
def weRanges (loc : Bool) (b : Bytes) : List (Nat × Nat × Bool) :=
  let v := weVerb b
  if v = vbWrite then
    (if weInline b then [] else [(weLocal b, weLen b, false)]) ++ (if loc then [(weRemote b, weLen b, true)] else [])
  else if v = vbRead then (if loc then [(weRemote b, weLen b, false)] else []) ++ [(weLocal b, weLen b, true)]
  else if v = vbSend then (if weInline b then [] else [(weLocal b, weLen b, false)])
  else if v = vbRecv then [(weLocal b, weLen b, true)]
  else if v = vbAtomic then
    (if loc then [(weRemote b, u8 b 0x19, false), (weRemote b, u8 b 0x19, true)] else []) ++ [(weLocal b, 8, true)]
  else if v = vbOperate then [(weLocal b, u16 b 0x18, false)] ++ (if loc then [] else [(weRemote b, u32 b 0x2C, true)])
  else if v = vbWait then
    (List.range (weItems b)).flatMap fun k => let (s, t, n) := weItem b k; [(s, n, false), (t, n, true)]
  else []

/-- Reserved fields and bits of an entry are 0 (check 4 of R212). -/
def weReserved (loc : Bool) (b : Bytes) : Bool :=
  let v := weVerb b
  u8 b 1 < 32 && u16 b 2 = 0 && (weImm b || u32 b 4 = 0) &&
  if v = vbWrite || v = vbRead then
    u32 b 0x2C = 0 && (!weInline b || weLocal b = 0) && (weInline b || zeros b 0x30 16)
      && (!loc || (u32 b 0x1C = 0 && u32 b 0x28 = 0))
  else if v = vbSend then zeros b 0x1C 20 && (!weInline b || weLocal b = 0) && (weInline b || zeros b 0x30 16)
  else if v = vbRecv then zeros b 0x1C 36
  else if v = vbAtomic then
    u16 b 0x1A = 0 && u32 b 0x2C = 0 && (u8 b 0x18 ≠ 0 || u64 b 0x38 = 0)
      && (u8 b 0x19 ≠ 4 || (u32 b 0x34 = 0 && u32 b 0x3C = 0)) && (!loc || (u32 b 0x1C = 0 && u32 b 0x28 = 0))
  else if v = vbOperate then
    u16 b 0x1A = 0 && zeros b 0x30 16 && (!loc || (u32 b 0x1C = 0 && zeros b 0x20 16))
  else
    (weItems b ≠ 0 || (u64 b 0x18 = 0 && u64 b 0x20 = 0))
      && (List.range 4).all fun k => if k < weItems b then u8 b (0x2D + 6 * k) = 0 else zeros b (0x28 + 6 * k) 6

/-- Lengths and codes in range (check 5). -/
def weRange (b : Bytes) : Bool :=
  let v := weVerb b
  if v = vbWrite || v = vbSend then weLen b ≤ 2 ^ 31 && (!weInline b || (1 ≤ weLen b && weLen b ≤ 16))
  else if v = vbRead then 1 ≤ weLen b && weLen b ≤ 2 ^ 31
  else if v = vbRecv then weLen b ≤ 2 ^ 31
  else if v = vbAtomic then u8 b 0x18 ≤ 1 && (u8 b 0x19 = 4 || u8 b 0x19 = 8)
  else if v = vbOperate then u16 b 0x18 % 64 = 0 && 64 ≤ u16 b 0x18 && u16 b 0x18 ≤ 512
  else u8 b 0x12 ≤ 1 && weItems b ≤ 4 && (u8 b 0x12 = 0 || u32 b 0x14 ≤ 65535)

/-- Alignment (check 6). -/
def weAlign (loc : Bool) (b : Bytes) : Bool :=
  let v := weVerb b
  if v = vbAtomic then weLocal b % 8 = 0 && weRemote b % max 1 (u8 b 0x19) = 0
  else if v = vbOperate then weLocal b % 64 = 0 && (loc || weRemote b % 64 = 0)
  else true

/-- Checks 2 to 9 of R212 in order: code and detail of the first failure. -/
def weCheck (d : Dev) (n : Nat) (q : Qp) (rq : Bool) (b : Bytes) : Option (Nat × Nat) :=
  let v := weVerb b
  let loc := q.par.kind = .loc
  let t := q.par.tenant
  if !(1 ≤ v && v ≤ 7) || (rq ≠ decide (v = vbRecv)) then some (ccMalformed, 0x21)
  else if (loc && v = vbSend) || (q.par.kind = .v1 && v = vbOperate)
      || (weImm b && !(v = vbSend || (v = vbWrite && !loc))) || (weInline b && !(v = vbWrite || v = vbSend)) then some (ccMalformed, 0x22)
  else if !weReserved loc b then some (ccMalformed, 0x04)
  else if !weRange b then some (ccMalformed, 0x03)
  else if !weAlign loc b then some (ccMalformed, 0x08)
  else if v = vbWait && !(match d.cq? (u16 b 0x10) with
      | some c => c.tenant = t && cqTile (u16 b 0x10) = qpTile n
      | none => false) then some (ccMalformed, 0x23)
  else if v = vbWait && !((weItems b = 0 || (isDva (u64 b 0x18) && isDva (u64 b 0x20)))
      && (List.range (weItems b)).all fun k => let (_, _, m) := weItem b k; 1 ≤ m && m ≤ 64) then some (ccMalformed, 0x24)
  else if (weRanges loc b).any (fun (a, _, _) => !formOk d t a) then some (ccLocalAccess, 0x10)
  else none

/-- Two stretches meet. -/
def meets (a n b m : Nat) : Bool := a < b + m && b < a + n

/-- A fetched RECV fails: it completes, a message that it took is answered RECEIVER_ERROR, and a code that marks Error flushes the queue pair (R164, R205, R245). Its AUX is the verb of the message that took it, or of the one that it refuses, and its BYTE_COUNT is 0 (R217; log 103). -/
def recvFail (n ord code detail : Nat) (d : Dev) (verb : BitVec 64 := 0#64) : Dev :=
  match d.qp? n with
  | none => d
  | some q =>
    match q.recvs.find? fun r => r.ord = ord && r.fin.isNone with
    | none => d
    | some r =>
      let d := match r.msn with
        | some m => nakMessage n m nkReceiver 0x46 d
        | none => d
      let d := d.onQp n fun q => { q with
        recvs := q.recvs.map fun x => if x.ord = ord && x.fin.isNone then { x with fin := some (⟨code, detail, 0, if r.msn.isSome then recvAux q r else verb⟩, none) } else x }
      if codeErr code then toFlush n (some code) none (count 0x040F 0 (some q.par.tenant) 1 d) else d

end Sys2Proof.Machine
end

