-- ==== Sys2Proof/Machine/Xlt.lean ====
section
/-! DEFINITION. Translation: MAP_RANGE and UNMAP_RANGE, walks, faults, cairns, host translations, invalidation, windows (05_translation, R39, R40). -/

namespace Sys2Proof.Machine

-- Streams that wait

/-- The stream goes on (R169, R171): its fetch, its entry or its queue can be tried again; an operation's cut and held completions at once. -/
def resume (w : Waiter) (d : Dev) : Dev :=
  match w with
  | .sqFetch n => d.onQp n fun q => { q with sq := { q.sq with stalled := false } }
  | .rqFetch n => d.onQp n fun q => { q with rq := { q.rq with stalled := false } }
  | .entry n _ => d.onQp n fun q => { q with entryStalled := false }
  | .op i => match d.op? i with
    | some o => if cutOpen d o then cutOp i d else d.onOp i fun o => { o with stage := .reading }
    | none => d
  | .rope k => d.onRope k fun r => { r with stalled := false }
  | .cqWrite n => cqDrain n (d.onCq n fun c => { c with stalledWrite := false })

/-- The fetch of a work ring cannot be made: the entry there completes with the code (R164, R170); the model reads the WR_ID it cannot know as a free value (log 19). -/
def fetchFail (n : Nat) (rq : Bool) (code detail : Nat) (d : Dev) : Dev :=
  match d.qp? n with
  | none => d
  | some q =>
    let ring := if rq then q.rq else q.sq
    let s := if rq then rqSize q else sqSize q
    let (v, d) := if ring.held = [] then takeFree d else (0#64, d)
    let b := if ring.held = [] then zpad 8 ++ toLE 8 v.toNat ++ zpad 48 else ring.held
    let e : WorkEnd := ⟨code, detail, 0, 0#64⟩
    let dead := q.st = .flushing || q.st = .error
    let end_ := if dead then (⟨ccFlushed, 0, 0, 0#64⟩ : WorkEnd) else e
    let next (r : WorkRing) : WorkRing :=
      { r with f := if rq then ringAdd s r.f 1 else r.f + 1, refetch := 0, stalled := false, held := [] }
    let d := d.onQp n fun q =>
      if rq then { q with
        rq := next q.rq
        recvs := q.recvs ++ [{ ord := q.recvOrd, idx := q.rq.f, bytes := b, fin := some (end_, none) }] }
      else if dead then { q with sq := next q.sq, begun := q.begun ++ [{ idx := q.sq.f, bytes := b, msn := none, fin := some end_ }] }
      else { q with sq := next q.sq, fetched := q.fetched ++ [⟨q.sq.f, b, some (code, detail)⟩] }
    if rq && !dead && codeErr code then toFlush n (some code) none (count 0x040F 0 (some q.par.tenant) 1 d) else d

/-- The stream's access ends with a code in place of going on (R164, R169 to R171). -/
def failWaiter (w : Waiter) (code detail : Nat) (d : Dev) : Dev :=
  match w with
  | .sqFetch n => fetchFail n false code detail d
  | .rqFetch n => fetchFail n true code detail d
  | .entry n i => (endBad n i code detail d).onQp n fun q =>
      { q with entryStalled := false, wait := q.wait.bind fun x => if x.idx = i then none else some x }
  | .op i => opFail i code detail d
  | .rope k => ropeAbortLocal k (if code = ccFaultUnresolved then 0x63 else 0x64) d
  | .cqWrite n => cqOverflow n 0 d

def unresolved (w : Waiter) (d : Dev) : Dev := failWaiter w ccFaultUnresolved 0x13 d

/-- A record is no longer live. -/
def dropRec (id : Nat) (d : Dev) : Dev :=
  let keep (l : List Nat) : List Nat := l.filter (· ≠ id)
  let port (x : XltPort) : XltPort := { x with
    opened := x.opened.bind fun c => if keep c.recs = [] then none else some { c with recs := keep c.recs }
    held := (x.held.map fun c => { c with recs := keep c.recs }).filter fun c => c.recs ≠ []
    hostOpen := keep x.hostOpen }
  d.onXlt fun x => { x with recs := x.recs.erase id, ports := ⟨port x.ports.w, port x.ports.e⟩, ats := x.ats.filter fun (_, a) => a.record ≠ some id }

/-- Mark a stream as waiting. -/
def stallStream (w : Waiter) (d : Dev) : Dev :=
  match w with
  | .sqFetch n => d.onQp n fun q => { q with sq := { q.sq with stalled := true } }
  | .rqFetch n => d.onQp n fun q => { q with rq := { q.rq with stalled := true } }
  | .entry n _ => d.onQp n fun q => { q with entryStalled := true }
  | .op i => d.onOp i fun o => { o with stage := if o.stage = .cut then .cut else .stalled }
  | .rope k => d.onRope k fun r => { r with stalled := true }
  | .cqWrite n => d.onCq n fun c => { c with stalledWrite := true, st := if c.st = .open && c.held ≠ [] then .holding else c.st }

/-- The tenant and the tile of a stream that exists. -/
def streamOf (d : Dev) (w : Waiter) : Option (Nat × Nat) :=
  match w with
  | .sqFetch n => (d.qp? n).map fun q => (q.par.tenant, qpTile n)
  | .rqFetch n => (d.qp? n).bind fun q => if q.par.noRq then none else some (q.par.tenant, qpTile n)
  | .entry n i => (d.qp? n).bind fun q => if q.begun.any (fun b => b.idx = i && b.fin.isNone) then some (q.par.tenant, qpTile n) else none
  | .op i => (d.op? i).map fun o => (o.tenant, o.tile)
  | .rope k => (d.rope? k).bind fun r => if r.call.isSome then some (r.par.tenant, r.par.tile) else none
  | .cqWrite n => (d.cq? n).map fun c => (c.tenant, cqTile n)

-- MAP_RANGE (R158, R159)

def insMap : List Mapping → Mapping → List Mapping
  | [], m => [m]
  | x :: r, m => if m.dva < x.dva then m :: x :: r else x :: insMap r m

def pageOf (code : Nat) : Nat := if code = 0 then 12 else if code = 1 then 21 else 30

def mapChk (p : Bytes) (_ : Dev) : List (Nat × Bool) :=
  let sz := 2 ^ pageOf (u8 p 0x20)
  [(0, u32 p 0 < 256),
   (8, isDva (u64 p 8) && fld (u64 p 8) 48 15 = 0 && u64 p 8 % sz = 0),
   (0x10, u64 p 0x10 % sz = 0),
   (0x18, u64 p 0x18 % sz = 0 && u64 p 0x18 ≠ 0 && u64 p 8 % 2 ^ 48 + u64 p 0x18 ≤ 2 ^ 48),
   (0x20, u8 p 0x20 ≤ 2),
   (0x21, 1 ≤ u8 p 0x21 && u8 p 0x21 ≤ 3),
   (0x22, zeros p 0x22 30)]

/-- An UNMAP_RANGE of the tenant that overlaps the stretch has not completed. -/
def unmapOver (d : Dev) (t a n : Nat) : Bool :=
  d.xlt.invs.any fun (_, i) => i.tenant = t && i.ats.isNone && meets i.addr i.len a n

/-- Table extents that new tables need beyond the free places (R157). -/
def newExtents (t : PageTables) (new : Nat) : Nat :=
  let free := t.extents.foldl (fun n (_, e) => n + (512 - e.places.length)) 0
  ceilDiv (new - free) 512

def devMapRange (c : CmdSlot) : Dev → Dev :=
  runChk c 0x0303 mapChk fun p d =>
    let t := u32 p 0
    withTenant c t true (fun ten d =>
      let h := u32 p 4
      let m : Mapping := { dva := u64 p 8 % 2 ^ 48, len := u64 p 0x18, handle := h, off := u64 p 0x10, page := pageOf (u8 p 0x20),
                           read := tb (u8 p 0x21) 0, write := tb (u8 p 0x21) 1 }
      match d.alloc? h with
      | none => finishAt c stBadParam 4 d
      | some a =>
        if a.zeroing then finishAt c stBadParam 4 d
        else if allocUnits a * unitBytes < m.off + m.len then finishAt c stBadParam 0x18 d
        else if m.page = 30 && !a.huge then finishAt c stBadParam 0x20 d
        else if (tabOf d t).maps.any (fun x => meets x.dva x.len m.dva m.len) then finishAt c stBadParam 8 d
        else if a.tenant ≠ t then finishAt c stNotOwner 4 d
        else if unmapOver d t (m.dva + 2 ^ 63) m.len then finish c stBusy d
        else
          let held := tablesHeld (tabOf d t)
          let need := (tablesOf m).filter fun n => !held.contains n
          if ten.par.memUnits < memUsed d t + 2 * newExtents (tabOf d t) need.length then quotaHit c t 1 d
          else match placeTables t need d with
            | none => finish c stNoResource d
            | some d => finish c stDone (onTab t (fun x => { x with maps := insMap x.maps m }) d)) d

def execMapRange (c : CmdSlot) (s : State) : Host.Outcome State Fault Refusal := onDev s (live (devMapRange c))

-- Invalidation (R172 to R175)

/-- Some range of an entry meets the stretch. -/
def entryMeets (q : Qp) (b : Bytes) (a n : Nat) : Bool :=
  (weRanges (q.par.kind = .loc) b).any fun (x, m, _) => meets x m a n

/-- Work of a tenant that holds a translation in the stretch, with its tile (R173 step 4). RECV buffers are marked by their queue's fetch stream. -/
def markedWork (d : Dev) (t a n : Nat) : List Mark :=
  let q := d.q.qps.flatMap fun (k, q) =>
    if q.par.tenant ≠ t then []
    else
      -- a transport OPERATE holds the translation of its result alone; a local one is an operation below
      let holds (b : Bytes) : Bool := if weVerb b ≠ vbOperate then entryMeets q b a n
        else q.par.kind ≠ .loc && (weRanges false b).getLast?.any fun (x, m, _) => meets x m a n
      let es := (q.begun.filter fun b => b.fin.isNone && !b.held && holds b.bytes
          && (weVerb b.bytes ≠ vbWait || q.wait.any fun w => w.satisfied && w.idx = b.idx)).map fun b => (⟨qpTile k, .entry k b.idx, 0, []⟩ : Mark)
      let rs := if q.recvs.any (fun r => r.fin.isNone && entryMeets q r.bytes a n) then [(⟨qpTile k, .rqFetch k, 0, []⟩ : Mark)] else []
      es ++ rs
  let o := d.eng.ops.filterMap fun (i, o) =>
    if o.tenant = t && o.stage = .cut && (opRanges o ++ opResult o).any (fun (x, m, _) => meets x m a n) then some (⟨o.tile, .op i, 0, []⟩ : Mark) else none
  let r := d.ropes.slots.filterMap fun (k, r) => r.call.bind fun c =>
    let hit := (pitchesNow c).filter fun (j, _) => (pieceSpan r c.entry j).any fun (x, m) => meets x m a n
    if r.par.tenant = t && hit ≠ [] then some (⟨r.par.tile, .rope k, c.num, hit⟩ : Mark) else none
  q ++ o ++ r

/-- Every live tile drops the run entries that overlap the stretch and marks its work (R173 steps 2 to 4). The stretch is given as tenant addresses. -/
def startInval (t a n : Nat) (ats : Option Side) (cmd : Option CmdSlot) (handles : List Nat) (nothing : Bool) (d : Dev) : Dev :=
  let tiles := liveTiles d
  let id := d.xlt.nextInv
  let inv : Invalidation := ⟨t, a, n, ats, cmd, handles, tiles, (markedWork d t a n).filter (fun x => tiles.contains x.tile), false, nothing⟩
  let d := tiles.foldl (fun d k =>
    count 0x0807 k (some t) 1 (d.onTile k fun x => { x with runs := x.runs.filter fun e => !(e.tenant = t && meets e.addr e.len a n) })) d
  d.onXlt fun x => { x with nextInv := id + 1, invs := x.invs.set id inv }

/-- Part of a mapping outside the stretch from a to b. -/
def cutMapping (m : Mapping) (a b : Nat) : List Mapping :=
  if m.dva + m.len ≤ a || b ≤ m.dva then [m]
  else
    (if m.dva < a then [{ m with len := a - m.dva }] else [])
      ++ (if b < m.dva + m.len then [{ m with dva := b, len := m.dva + m.len - b, off := m.off + (b - m.dva) }] else [])

/-- Remove a stretch from lost ranges. -/
def cutLost (l : List (Nat × Nat)) (a b : Nat) : List (Nat × Nat) :=
  l.flatMap fun (s, n) =>
    if s + n ≤ a || b ≤ s then [(s, n)]
    else (if s < a then [(s, a - s)] else []) ++ (if b < s + n then [(b, s + n - b)] else [])

def splitsPage (d : Dev) (t a : Nat) : Bool := (tabOf d t).maps.any fun m => m.dva < a && a < m.dva + m.len && (a - m.dva) % 2 ^ m.page ≠ 0

/-- UNMAP_RANGE (R172, R173). A LENGTH of 0 is a multiple of 4 KiB: it is accepted and removes nothing (log 106). -/
def devUnmapRange (c : CmdSlot) : Dev → Dev :=
  runChk c 0x0304 (fun p _ => [(0, u32 p 0 < 256), (4, u32 p 4 = 0),
      (8, isDva (u64 p 8) && fld (u64 p 8) 48 15 = 0 && u64 p 8 % 4096 = 0),
      (0x10, u64 p 0x10 % 4096 = 0 && u64 p 8 % 2 ^ 48 + u64 p 0x10 ≤ 2 ^ 48)]) fun p d =>
    let t := u32 p 0
    withTenant c t true (fun _ d =>
      let a := u64 p 8 % 2 ^ 48
      let n := u64 p 0x10
      if splitsPage d t a then finishAt c stBadParam 8 d
      else if splitsPage d t (a + n) then finishAt c stBadParam 0x10 d
      else if d.xlt.windows.any (fun (_, w) => w.tenant = t && meets w.dva w.len a n) then finish c stBusy d
      else if unmapOver d t (a + 2 ^ 63) n then finish c stBusy d
      else
        let hit := (tabOf d t).maps.filter fun m => meets m.dva m.len a n
        let d := onTab t (fun x => { x with maps := x.maps.flatMap (cutMapping · a (a + n)), lost := cutLost x.lost a (a + n) }) d
        leave c [] (startInval t (a + 2 ^ 63) n none (some c) (hit.map (·.handle)).dedup hit.isEmpty (dropTables t d))) d

def execUnmapRange (c : CmdSlot) (s : State) : Host.Outcome State Fault Refusal := onDev s (live (devUnmapRange c))

/-- Marked work has finished: of a rope, the marked pitches of the call that ran then. -/
def markDone (d : Dev) (v : Invalidation) (m : Mark) : Bool :=
  match m.who with
  | .entry n i => match d.qp? n with
    | some q => !q.begun.any fun b => b.idx = i && b.fin.isNone
    | none => true
  | .rqFetch n => match d.qp? n with
    | some q => !q.recvs.any fun r => r.fin.isNone && !r.removed && entryMeets q r.bytes v.addr v.len
    | none => true
  | .op i => (d.op? i).isNone
  | .rope k => match (d.rope? k).bind (·.call) with
    | some c => c.num ≠ m.call || !(m.pitches.any fun x => (pitchesNow c).contains x)
    | none => true
  | _ => true

/-- An invalidation whose last tile has acknowledged: the command is answered, or the host (R172, R173, R175); a held ATS invalidation takes the place. -/
def invalDone (id : Nat) (d : Dev) : Dev :=
  match d.xlt.invs.get? id with
  | none => d
  | some v =>
    if v.tiles ≠ [] then d
    else
      let d := d.onXlt fun x => { x with invs := x.invs.erase id }
      match v.ats with
      | some p =>
        let d := emit (.invalDone p) d
        match (d.host.get p).invHeld with
        | (pasid, a, n) :: rest =>
          let d := d.onHost p fun h => { h with invHeld := rest }
          match d.ten.tenants.find? fun (_, t) => t.par.port = p && t.par.pasid = some pasid with
          | some (t, _) => startInval t a n (some p) none [] false d
          | none => emit (.invalDone p) d
        | [] => d
      | none => match v.cmd with
        | some c => answerIf c 0x0304 (if v.aborted || v.nothing then stNote else stDone) none d
        | none => d

def ackTile (tile id : Nat) (d : Dev) : Dev :=
  invalDone id (d.onXlt fun x => { x with invs := x.invs.upd id fun v =>
    { v with tiles := v.tiles.filter (· ≠ tile), marked := v.marked.filter fun m => m.tile ≠ tile } })

/-- INVALIDATION_ACK (R173 step 5). -/
def devInvalidationAck (tile id : Nat) (d : Dev) : Dev :=
  match d.xlt.invs.get? id with
  | none => d
  | some v =>
    if v.tiles.contains tile && !d.ciph.jobs.any (jobMeets v.tenant v.addr v.len)
        && (v.marked.filter fun m => m.tile = tile).all (markDone d v) then ackTile tile id d else d

def execInvalidationAck (tile inv : Nat) (s : State) : Host.Outcome State Fault Refusal := onDev s (liveQ (devInvalidationAck tile inv))

/-- Marked work still running is aborted (R174): a transfer or verb LOCAL_ACCESS, an operation and a rope UNMAP_ABORT, a RECV as R164 sets: one that no message has taken yet loses its translation and ends with the message that comes for it (R257; log 99). -/
def abortMarked (v : Invalidation) (w : Waiter) (d : Dev) : Dev :=
  match w with
  | .entry n i =>
    let d := d.onQ fun q => { q with xfers := q.xfers.filter fun (_, t) => !(t.qpn = n && t.idx = i) }
    failWaiter (.entry n i) ccLocalAccess 0x12 d
  | .rqFetch n => match d.qp? n with
    | none => d
    | some q =>
      let hit (r : Recv) : Bool := r.fin.isNone && entryMeets q r.bytes v.addr v.len
      let d := d.onQp n fun q => { q with recvs := q.recvs.map fun r => if hit r && r.msn.isNone then { r with removed := true, runs := [] } else r }
      (q.recvs.filter fun r => hit r && r.msn.isSome).foldl (fun d r => recvFail n r.ord ccLocalAccess 0x12 d) d
  | .op i => opFail i ccLocalAccess 0x12 d
  | .rope k => ropeAbortLocal k 0x65 d
  | _ => d

def devUnmapAbort (tile id : Nat) (d : Dev) : Dev :=
  match d.xlt.invs.get? id with
  | none => d
  | some v =>
    if !v.tiles.contains tile then d
    else
      let run := v.marked.filter fun m => m.tile = tile && !markDone d v m
      let jobs := d.ciph.jobs.any (jobMeets v.tenant v.addr v.len)
      let d := failJobs (jobMeets v.tenant v.addr v.len) ccLocalAccess 0 (run.foldl (fun d m => abortMarked v m.who d) d)
      let d := if run = [] && !jobs then d else d.onXlt fun x => { x with invs := x.invs.upd id fun v => { v with aborted := true } }
      ackTile tile id d

def execUnmapAbort (tile inv : Nat) (s : State) : Host.Outcome State Fault Refusal := onDev s (liveQ (devUnmapAbort tile inv))

/-- An ATS invalidation request (R175, R381, R415): 32 outstanding, more are held. -/
def devAtsInvalidation (p : Side) (pasid addr len : Nat) (d : Dev) : Dev :=
  match d.ten.tenants.find? fun (_, t) => t.par.port = p && t.par.pasid = some pasid with
  | none => emit (.invalDone p) d
  | some (t, _) =>
    let out := (d.xlt.invs.filter fun (_, v) => v.ats = some p).length
    if 32 ≤ out then
      count 0x030B p.idx none 1 (d.onHost p fun h => { h with invHeld := h.invHeld ++ [(pasid, addr, len)] })
    else startInval t addr len (some p) none [] false d

def execAtsInvalidation (p : Side) (pasid addr len : Nat) (s : State) : Host.Outcome State Fault Refusal :=
  onDev s (live (devAtsInvalidation p pasid addr len))

-- Walks and faults

/-- A walk ends (R161, R162, R164): a prefetch that finds no page is dropped; a stream that finds none stalls and raises a fault; otherwise a run entry is made, and a prefetch goes on to the next one ahead. It ends no sooner than its reads of the tables can be answered (log 52). -/
def devTranslationWalkDone (tile tenant : Nat) (addr : Nat) (write : Bool) (who : Waiter) (d : Dev) : Dev :=
  let dva := addr - 2 ^ 63
  let present := isDva addr && !lostAt d tenant dva && (pageAt d tenant dva).isSome
  let reads := walkStacks d tile tenant dva
  if !reads.all (stackOpen d tile) then d
  else match (d.tile tile).prefetch.find? fun p => p.tenant = tenant && p.addr = addr with
  | some p =>
    let d := d.onTile tile fun x => { x with prefetch := x.prefetch.erase p }
    let d := reads.foldl (fun d k => touchStack k d) (count 0x0803 tile (some tenant) 1 d)
    match walkRun d tenant dva with
    | some e =>
      if !present then d
      else
        let d := addRun tile e (addUpper tile tenant dva d)
        if tracked d tile p.stream then prefetchFrom tile tenant p.stream (2 - p.ahead) (e.addr + e.len) d else d
    | none => d
  | none =>
  if streamOf d who ≠ some (tenant, tile) || !formOk d tenant addr || !isDva addr then d
  else if present then lookup tile tenant addr who write d
  else if lostAt d tenant dva then d
  else match raiseFault tile tenant addr write false who d with
    | (true, d) => stallStream who d
    | (false, d) => unresolved who d

def execTranslationWalkDone (tile tenant : Nat) (addr : BitVec 64) (write : Bool) (who : Waiter) (s : State) : Host.Outcome State Fault Refusal :=
  onDev s (liveQ (devTranslationWalkDone tile tenant addr.toNat write who))

/-- 20 µs after its first record the older of a port's open cairn and open host group is posted (R165, R171). -/
def devCairnTimer (p : Side) (d : Dev) : Dev :=
  if (leader d).isNone then d
  else
    let x := d.xlt.ports.get p
    let hostT := x.hostOpen.head?.bind fun i => (d.xlt.recs.get? i).map (·.first.toNat)
    match x.opened, hostT with
    | some c, some t => if c.time.toNat ≤ t then postCairn p true d else postPri p d
    | some _, none => postCairn p true d
    | none, _ => postPri p d

def execCairnTimer (p : Side) (s : State) : Host.Outcome State Fault Refusal := onDev s (live (devCairnTimer p))

/-- A retried page that is still not present (R169): its waiters join a new record with CAUSE REPEAT. -/
def repeatFault (r : FaultRec) (d : Dev) : Dev :=
  let id := d.xlt.nextRec
  let r := { r with again := true, first := d.pwr.tsc, state := .unreported }
  let d := d.onXlt fun q => { q with nextRec := id + 1, recs := q.recs.set id r }
  if (leader d).isNone then d
  else match gather id d with
    | (true, d) => d
    | (false, d) => r.waiters.foldl (fun d w => unresolved w.who d) (dropRec id d)

/-- One disposition of CAIRN_RESOLVE (R169). -/
def resolveRec (id : Nat) (fail : Bool) (d : Dev) : Dev :=
  match d.xlt.recs.get? id with
  | none => d
  | some r =>
    let d := dropRec id d
    if fail then r.waiters.foldl (fun d w => unresolved w.who d) d
    else
      let dva := r.page * 4096 - 2 ^ 63
      if lostAt d r.tenant dva || (pageAt d r.tenant dva).isSome then r.waiters.foldl (fun d w => resume w.who d) d
      else repeatFault r d

def resolveAll : List (Nat × Bool) → Bool → Dev → Bool × Dev
  | [], skipped, d => (skipped, d)
  | (id, f) :: r, skipped, d =>
    match d.xlt.recs.get? id with
    | some x => if x.host then resolveAll r true d else resolveAll r skipped (resolveRec id f d)
    | none => resolveAll r true d

def devCairnResolve (c : CmdSlot) : Dev → Dev :=
  runChk c 0x0305 (fun p _ => (4, u32 p 4 = 0) :: (List.range (u32 p 0)).flatMap fun k =>
      [(12 + 8 * k, u8 p (12 + 8 * k) ≤ 1), (13 + 8 * k, zeros p (13 + 8 * k) 3)]) fun p d =>
    let l := (List.range (u32 p 0)).map fun k => (u32 p (8 + 8 * k), decide (u8 p (12 + 8 * k) = 1))
    let foreign := l.any fun (i, _) => match d.xlt.recs.get? i with
      | some r => !r.host && some r.port ≠ slotPort c
      | none => false
    if foreign then finish c stNotPermitted d
    else
      let (skipped, d) := resolveAll l false d
      finish c (if skipped then stNote else stDone) d

def execCairnResolve (c : CmdSlot) (s : State) : Host.Outcome State Fault Refusal := onDev s (liveQ (devCairnResolve c))

/-- Groups whose records have all ended give up their index, or keep it, and their requests against the allocation, until the late response when they were sent (R171). -/
def groupsTidy (p : Side) (d : Dev) : Dev :=
  let x := d.xlt.ports.get p
  let live (g : PriGroup) : Bool := g.recs.any fun i => (d.xlt.recs.get? i).isSome
  let dead := x.groups.filter fun g => !live g && g.sent
  priSend p (d.onXPort p fun x => { x with
    groups := x.groups.filter live
    deadGroups := dead.foldl (fun t g => t.set g.index g.requests) x.deadGroups })

/-- FAULT_LIMIT ends for a record (R165, R170, R171). -/
def devFaultLimitExpiry (id : Nat) (d : Dev) : Dev :=
  match d.xlt.recs.get? id with
  | none => d
  | some r =>
    let d := r.waiters.foldl (fun d w => unresolved w.who d) (dropRec id d)
    if r.host then groupsTidy r.port d else d

def execFaultLimitExpiry (record : Nat) (s : State) : Host.Outcome State Fault Refusal := onDev s (liveQ (devFaultLimitExpiry record))

-- Host translations (R163, R171)

def isPow2 (n : Nat) : Bool := n ≠ 0 && n &&& (n - 1) = 0

/-- A waiter of a host page meets the new translation: it goes on, or faults again. -/
def hostRetry (t : Nat) (cpl : Option AtsCpl) (again : Bool) (w : Waiting) (d : Dev) : Dev :=
  match cpl with
  | some c =>
    if if w.write then c.write else c.read then resume w.who d
    else match raiseFault w.tile t w.addr w.write again w.who d with
      | (true, d) => stallStream w.who d
      | (false, d) => unresolved w.who d
  | none => match raiseFault w.tile t w.addr w.write again w.who d with
    | (true, d) => stallStream w.who d
    | (false, d) => unresolved w.who d

def devAtsCompletion (p : Side) (tag : Nat) (cpl : AtsCpl) (d : Dev) : Dev :=
  match d.xlt.ats.get? tag with
  | none => d
  | some r =>
    if r.port ≠ p || !r.sent then d
    else
      let d := d.onXlt fun x => { x with ats := x.ats.erase tag }
      let ok := isPow2 cpl.size && 4096 ≤ cpl.size
      let d := if ok then d else logIt 0x0501 4 p.idx [0x030A, r.addr] (d := count 0x030A p.idx none 1 d)
      let good := ok && cpl.present
      let base := r.addr / cpl.size * cpl.size
      let d := if good then
          let d := d.onTile r.who.tile fun x => { x with runs := x.runs.filter fun e => !(e.host && e.tenant = r.tenant && meets e.addr e.len base cpl.size) }
          addRun r.who.tile ⟨r.tenant, base, cpl.size, cpl.addr / cpl.size * cpl.size, true, cpl.read, cpl.write⟩ d
        else d
      let ans := if good then some cpl else none
      match r.prefetch, r.record with
      | some (s, ahead), _ => if good && tracked d r.who.tile s then prefetchFrom r.who.tile r.tenant s (2 - ahead) (base + cpl.size) d else d
      | none, none => hostRetry r.tenant ans false r.who d
      | none, some id => match d.xlt.recs.get? id with
        | none => d
        | some rec => rec.waiters.foldl (fun d w => hostRetry r.tenant ans true w d) (dropRec id d)

def execAtsCompletion (p : Side) (tag : Nat) (cpl : AtsCpl) (s : State) : Host.Outcome State Fault Refusal :=
  onDev s (liveQ (devAtsCompletion p tag cpl))

/-- A page request group response (R171, R415). -/
def devPriResponse (p : Side) (idx : Nat) (code : PriCode) (d : Dev) : Dev :=
  let x := d.xlt.ports.get p
  match x.groups.find? fun g => g.index = idx && g.sent with
  | none =>
    if (x.deadGroups.get? idx).isSome then priSend p (d.onXPort p fun x => { x with deadGroups := x.deadGroups.erase idx })
    else count 0x030C p.idx none 1 d
  | some g =>
    let d := d.onXPort p fun x => { x with groups := x.groups.filter fun h => h.index ≠ idx }
    let recs := g.recs.filterMap fun i => (d.xlt.recs.get? i).map fun r => (i, r)
    let fail (d : Dev) : Dev := recs.foldl (fun d (i, r) => r.waiters.foldl (fun d w => unresolved w.who d) (dropRec i d)) d
    priSend p (match code with
      | .success => recs.foldl (fun d (i, r) => match r.waiters with
          | w :: _ => askAts w.tile r.tenant (r.page * 4096) r.write w.who (some i) d
          | [] => d) d
      | .invalid => fail d
      | .failure => logIt 0x0504 4 p.idx [] (d := fail (d.onXPort p fun x => { x with priStopped := true })))

def execPriResponse (p : Side) (group : Nat) (code : PriCode) (s : State) : Host.Outcome State Fault Refusal :=
  onDev s (liveQ (devPriResponse p group code))

/-- The host resets PRI: the capability leaves Stopped (R171). -/
def devPriReset (p : Side) (d : Dev) : Dev := d.onXPort p fun x => { x with priStopped := false }

def execPriReset (p : Side) (s : State) : Host.Outcome State Fault Refusal := onDev s (live (devPriReset p))

-- Cairn-ring registers with rows of their own (R186, R188, R189)

def devXltCairnEnable (p g : Side) (v : BitVec 32) (d : Dev) : Dev :=
  if p ≠ g then hostWrongPort p d
  else cairnDrain g (d.onXPort g fun x =>
    let x := { x with vector := v.extractLsb' 16 11 }
    if x.enable then x else { x with sizeLog2 := v.extractLsb' 4 4, enable := true, prod := 0#16, cons := 0#16 })

def execXltCairnEnable (p g : Side) (v : BitVec 32) (s : State) : Host.Outcome State Fault Refusal := onDev s (live (devXltCairnEnable p g v))

def devXltCairnDisable (p g : Side) (v : BitVec 32) (d : Dev) : Dev :=
  if p ≠ g then hostWrongPort p d
  else d.onXPort g fun x => { x with
    vector := v.extractLsb' 16 11
    sizeLog2 := if x.enable then x.sizeLog2 else v.extractLsb' 4 4
    enable := false }

def execXltCairnDisable (p g : Side) (v : BitVec 32) (s : State) : Host.Outcome State Fault Refusal := onDev s (live (devXltCairnDisable p g v))

def devXltCairnConsWrite (p g : Side) (v : BitVec 32) (d : Dev) : Dev :=
  if p ≠ g then hostWrongPort p d
  else
    let x := d.xlt.ports.get g
    let s := cairnSlots x
    let i := v.toNat % 65536
    if i < 2 * s && ringSub s x.prod.toNat i ≤ ringSub s x.prod.toNat x.cons.toNat then
      cairnDrain g (d.onXPort g fun x => { x with cons := BitVec.ofNat 16 i })
    else d.onXPort g fun x => { x with consInvalid := true }

def execXltCairnConsWrite (p g : Side) (v : BitVec 32) (s : State) : Host.Outcome State Fault Refusal := onDev s (live (devXltCairnConsWrite p g v))

-- Windows (R176 to R185)

def winSlabs (w : Window) : Nat := ceilDiv w.len (2 ^ 30)

def tenWindows (d : Dev) (t : Nat) : List (Nat × Window) := d.xlt.windows.filter fun (_, w) => w.tenant = t

def slabsUsed (d : Dev) (t : Nat) : Nat := ((tenWindows d t).map fun (_, w) => winSlabs w).sum

/-- A key that is not 0 and not the last key of its number, from a free value (R176; log 5). -/
def freshKey (last : BitVec 32) (v : BitVec 64) : BitVec 32 :=
  let k := v.setWidth 32
  let bad (x : BitVec 32) : Bool := x = 0#32 || x = last
  if !bad k then k else if !bad (k + 1#32) then k + 1#32 else k + 2#32

/-- The lowest free window number (log 18). -/
def freeWindow (d : Dev) : Option Nat := findFrom (fun w => (d.win? w).isNone) 16384 0

/-- A window opens with a fresh key (R176, R178); each tile sees it open as it applies the leader's write (R40). -/
def openWindow (w : Nat) (t dva len rights mode peer : Nat) (d : Dev) : Dev :=
  let (v, d) := takeFree (drbgDraw 16 1 d)
  let key := freshKey (d.xlt.lastKey.getD w 0#32) v
  let win : Window := { tenant := t, dva := dva, len := len, rights := BitVec.ofNat 4 rights, peerMode := mode, peerNode := BitVec.ofNat 16 peer,
                        key := key, views := List.replicate 8 .free }
  d.onXlt fun x => { x with windows := x.windows.set w win, lastKey := x.lastKey.set w key }

/-- Every page of the stretch is mapped; and has READ, and WRITE, where asked. -/
def coverN (d : Dev) (t : Nat) (ok : Mapping → Bool) : Nat → Nat → Nat → Bool
  | 0, _, n => n = 0
  | f + 1, a, n =>
    if n = 0 then true
    else match mapAt (tabOf d t).maps a with
      | none => false
      | some m => ok m && coverN d t ok f (m.dva + m.len) (n - (m.dva + m.len - a))

def covered (d : Dev) (t a n : Nat) (ok : Mapping → Bool) : Bool := coverN d t ok ((tabOf d t).maps.length + 1) a n

def windowOpenChk (c : CmdSlot) (p : Bytes) (_ : Dev) : List (Nat × Bool) :=
  [(0, u32 p 0 < 256), (4, u32 p 4 = 0),
   (8, isDva (u64 p 8) && fld (u64 p 8) 48 15 = 0 && u64 p 8 % 4096 = 0),
   (0x10, u64 p 0x10 % 4096 = 0 && u64 p 0x10 ≠ 0 && u64 p 0x10 ≤ 1536 * 2 ^ 30 && u64 p 8 % 2 ^ 48 + u64 p 0x10 ≤ 2 ^ 48),
   (0x18, 1 ≤ u8 p 0x18 && u8 p 0x18 ≤ 15),
   (0x19, u8 p 0x19 ≤ 1),
   (0x1A, if u8 p 0x19 = 0 then u16 p 0x1A = 0 else nodeForm (u16 p 0x1A)),
   (0x1C, u32 p 0x1C = 0),
   (0x20, addrOk c (u64 p 0x20) 16)]

/-- WINDOW_OPEN (R176 to R178): it holds its number until its reply is written (R184), which waits for every live tile (R40); it waits while the DRBG that draws keys is stopped (R496). -/
def devWindowOpen (c : CmdSlot) (d : Dev) : Dev :=
  if keysFlow d then runChk c 0x0401 (windowOpenChk c) (fun p d =>
    let t := u32 p 0
    withTenant c t true (fun ten d =>
      let a := u64 p 8 % 2 ^ 48
      let n := u64 p 0x10
      let r := u8 p 0x18
      let rd := tb r 0 || tb r 3 || tb r 2
      let wr := tb r 1 || tb r 2
      if unmapOver d t (a + 2 ^ 63) n then finish c stBusy d
      else if !covered d t a n (fun _ => true) then finishAt c stBadParam 8 d
      else if !covered d t a n (fun m => (!rd || m.read) && (!wr || m.write)) then finish c stNotPermitted d
      else if ten.par.winCount < (tenWindows d t).length + 1 then quotaHit c t 2 d
      else if ten.par.winSlabs < slabsUsed d t + ceilDiv n (2 ^ 30) then quotaHit c t 3 d
      else match freeWindow d with
        | none => finish c stNoResource d
        | some w =>
          let d := openWindow w t a n r (u8 p 0x19) (u16 p 0x1A) d
          let key := ((d.win? w).map (·.key)).getD 0#32
          let d := leave c [w] (onCmd c (fun m => { m with holds := m.holds ++ [⟨.window w, true⟩] }) d)
          replFinish c 0x0401 stDone (some (u64 p 0x20, toLE 4 w ++ toLE 4 key.toNat ++ toLE 4 (ceilDiv n (2 ^ 30)) ++ zpad 4)) [.windowOpen w] d) d) d
  else d

def execWindowOpen (c : CmdSlot) (s : State) : Host.Outcome State Fault Refusal := onDev s (live (devWindowOpen c))

/-- WINDOW_REVOKE (R182 step 1, R184): the window is CLOSING; each tile applies it as its replicated write arrives. -/
def devWindowRevoke (c : CmdSlot) : Dev → Dev :=
  runChk c 0x0402 (fun p _ => [(0, u32 p 0 < 256), (4, u32 p 4 < 16384)]) fun p d =>
    withTenant c (u32 p 0) false (fun _ d =>
      let w := u32 p 4
      match d.win? w with
      | none => finishAt c stBadParam 4 d
      | some v =>
        if v.tenant ≠ u32 p 0 then finishAt c stNotOwner 4 d
        else if v.closing then finish c stBusy d
        else leave c [w] (d.onXlt fun x => { x with windows := x.windows.upd w fun v => { v with closing := true, cmd := some c } })) d

def execWindowRevoke (c : CmdSlot) (s : State) : Host.Outcome State Fault Refusal := onDev s (live (devWindowRevoke c))

def windowEntry (x : Nat × Window) : Bytes :=
  let (n, w) := x
  toLE 4 n ++ toLE 2 w.tenant ++ toLE 1 (if w.closing then 2 else 1) ++ toLE 1 w.rights.toNat ++ toLE 8 (w.dva + 2 ^ 63) ++ toLE 8 w.len
    ++ toLE 4 w.drain.sum ++ toLE 1 w.peerMode ++ zpad 1 ++ toLE 2 w.peerNode.toNat

def devWindowQuery (c : CmdSlot) : Dev → Dev :=
  runChk c 0x0403 (fun p _ => [(0, u32 p 0 < 256 || u32 p 0 = 0xFFFFFFFF), (8, addrOk c (u64 p 8) 64),
      (0x10, 1 ≤ u32 p 0x10 && u32 p 0x10 ≤ 16384)]) fun p d =>
    let go (d : Dev) : Dev :=
      let all := if u32 p 0 = 0xFFFFFFFF then d.xlt.windows else tenWindows d (u32 p 0)
      let sel := (all.filter fun (w, _) => u32 p 4 ≤ w).take (u32 p 0x10)
      finishRes c stDone (u64 p 8) (toLE 4 all.length ++ toLE 4 sel.length ++ zpad 8 ++ sel.flatMap windowEntry) d
    if u32 p 0 < 256 then withTenant c (u32 p 0) false (fun _ => go) d else go d

def execWindowQuery (c : CmdSlot) (s : State) : Host.Outcome State Fault Refusal := onDev s (live (devWindowQuery c))

/-- Every live tile has applied CLOSING and drained (R182 step 3). -/
def windowIdle (d : Dev) (v : Window) : Bool :=
  (List.range 8).all fun k => !tileUp d k || (nth v.views k .free ≠ .open && nth v.drain k 0 = 0)

end Sys2Proof.Machine
end

