-- ==== Sys2Proof/Machine/Tenant.lean ====
section
/-! DEFINITION. Tenants: creation, reset, destruction, freeze and thaw, query, the end of a window (13_tenants, R182). -/

namespace Sys2Proof.Machine

-- TENANT_CREATE (R445 to R447)

def acceptList (p : Bytes) : List (BitVec 16) := (List.range 8).map fun i => BitVec.ofNat 16 (u16 p (0x10 + 2 * i))

/-- The parameters of R445. -/
def parseTenant (p : Bytes) : TenParams :=
  let cf := u8 p 5
  { port := .ofIdx (u8 p 4), pasid := if tb cf 0 then some (u32 p 8) else none, mgmtW := tb cf 2, mgmtE := tb cf 3,
    acceptList := u8 p 6 = 1, accept := acceptList p, memUnits := u32 p 0x20, winCount := u16 p 0x24, ropes := u8 p 0x26,
    winSlabs := u32 p 0x28, qpMax := u32 p 0x2C, cqMax := u16 p 0x30, msgLimit := u16 p 0x32, fetchWeight := u8 p 0x34,
    opWeight := u8 p 0x35, opCtxLimit := u8 p 0x36, evqAddr := BitVec.ofNat 64 (u64 p 0x38), evqLog2 := u8 p 0x40,
    evqVector := BitVec.ofNat 16 (u16 p 0x42), createFrozen := tb cf 1 }

/-- The pair of PORT and PASID belongs to another tenant. -/
def pasidBound (d : Dev) (x : TenParams) : Bool :=
  x.pasid.isSome && d.ten.tenants.any fun (_, t) => t.par.port = x.port && t.par.pasid = x.pasid

def tenantCreateChk (c : CmdSlot) (p : Bytes) (d : Dev) : List (Nat × Bool) :=
  let x := parseTenant p
  [(0, u32 p 0 = 0xFFFFFFFF || (u32 p 0 < 256 && (d.ten? (u32 p 0)).isNone)),
   (4, u8 p 4 ≤ 1),
   (5, u8 p 5 < 16 && (x.mgmtW || x.mgmtE)),
   (6, u8 p 6 ≤ 1 && (!x.acceptList || x.accept.any (· ≠ 0#16))),
   (7, u8 p 7 = 0),
   (8, (if tb (u8 p 5) 0 then u32 p 8 < 2 ^ 20 else u32 p 8 = 0) && !pasidBound d x),
   (0x0C, u32 p 0x0C = 0),
   (0x20, x.memUnits ≤ 784384), (0x24, x.winCount ≤ 16384), (0x26, x.ropes ≤ 64), (0x27, u8 p 0x27 = 0),
   (0x28, x.winSlabs ≤ 65535), (0x2C, x.qpMax ≤ 65536), (0x30, x.cqMax ≤ 16384), (0x32, x.msgLimit ≤ 16384),
   (0x34, 1 ≤ x.fetchWeight), (0x35, 1 ≤ x.opWeight), (0x36, x.opCtxLimit ≤ 64), (0x37, u8 p 0x37 = 0),
   (0x38, x.evqAddr.toNat % 4096 = 0), (0x40, 4 ≤ x.evqLog2 && x.evqLog2 ≤ 15), (0x41, u8 p 0x41 = 0),
   (0x42, x.evqVector.toNat ≤ 2047 || x.evqVector = 0xFFFF#16), (0x44, u32 p 0x44 = 0), (0x48, addrOk c (u64 p 0x48) 16)]

/-- Allocatable units of online stacks, less the extents withheld (R447). -/
def onlineUnits (d : Dev) : Nat :=
  (((List.range 32).filter (stackUsable d)).map fun k => stackUnits - (d.stack k).withheld.length).sum

/-- A sum over all tenants that are not FREE. -/
def tenSum (d : Dev) (f : TenParams → Nat) : Nat := (d.ten.tenants.map fun (_, t) => f t.par).sum

/-- The reservations of R447 can be met. -/
def reservable (d : Dev) (x : TenParams) : Bool :=
  tenSum d (·.memUnits) + x.memUnits ≤ onlineUnits d && tenSum d (·.winCount) + x.winCount ≤ 16384
    && tenSum d (·.qpMax) + x.qpMax ≤ 65536 && tenSum d (·.cqMax) + x.cqMax ≤ 16384 && tenSum d (·.ropes) + x.ropes ≤ 64

/-- TENANT_CREATE (R445 to R447); answered when every copy of the tenant table has the entry (R38, R40). -/
def devTenantCreate (c : CmdSlot) : Dev → Dev :=
  runChk c 0x0201 (tenantCreateChk c) fun p d =>
    let x := parseTenant p
    let num := if u32 p 0 = 0xFFFFFFFF then (List.range 256).find? fun n => (d.ten? n).isNone else some (u32 p 0)
    match num with
    | none => finish c stNoResource d
    | some n =>
      if !reservable d x then finish c stNoResource d
      else
        let t : Tenant := { par := x, st := if x.createFrozen then .frozen else .active, since := d.pwr.tsc }
        replFinish c 0x0201 stDone (some (u64 p 0x48, toLE 4 n ++ zpad 12)) [.tenantEntry n]
          (leave c [n] (d.onTens fun y => { y with tenants := y.tenants.set n t }))

def execTenantCreate (c : CmdSlot) (s : State) : Host.Outcome State Fault Refusal := onDev s (live (devTenantCreate c))

-- Reset (R456 to R458)

/-- The tenant enters a state (R455, R470). -/
def tenState (n : Nat) (st : TenState) (d : Dev) : Dev := d.onTen n fun t => { t with st := st, since := d.pwr.tsc }

def tenRopes (d : Dev) (n : Nat) : List (Nat × Rope) := d.ropes.slots.filter fun (_, r) => r.par.tenant = n
def tenQps (d : Dev) (n : Nat) : List (Nat × Qp) := d.q.qps.filter fun (_, q) => q.par.tenant = n
def tenCqs (d : Dev) (n : Nat) : List (Nat × Cq) := d.q.cqs.filter fun (_, q) => q.tenant = n

/-- Cached translations of a tenant leave every tile. -/
def dropRuns (n : Nat) (d : Dev) : Dev :=
  d.onXlt fun x => { x with tiles := x.tiles.map fun t => { t with
    runs := t.runs.filter (·.tenant ≠ n), upper := t.upper.filter (·.1 ≠ n), prefetch := t.prefetch.filter (·.tenant ≠ n) } }

/-- Steps 1 to 4 of R459 that follow the reset: mappings, extents and allocations are freed, the stubs stand, the tenant is FREE in every copy of its table (R40). -/
def finishDestroy (n : Nat) (stubs : Tab Stub) (cmd : Option CmdSlot) (d : Dev) : Dev :=
  let d := dropRuns n (d.onXlt fun x => { x with tables := x.tables.erase n })
  let hs := (d.mem.allocs.filter fun (_, a) => a.tenant = n).map Prod.fst
  let d := hs.foldl (fun d h => releaseAlloc h d) d
  let d := stubs.foldl (fun d (k, s) => d.onTens fun y => { y with stubs := y.stubs.set k s }) d
  let d := d.onNet fun x => { x with tenantProfile := x.tenantProfile.erase n, pace := x.pace.erase n }
  let d := d.onTens fun y => { y with tenants := y.tenants.erase n }
  replSend [.tenantEntry n] (cmd.map fun c => ⟨c, 0x0202, stDone, none⟩) d

/-- The reset is complete once its windows are FREE and its ropes' slots freed (R457 steps 2, 3 and 9): TENANT_RESET is the first event of the ring; a TENANT_DESTROY then goes on. -/
def tenResetTry (n : Nat) (d : Dev) : Dev :=
  match d.ten? n with
  | none => d
  | some t =>
    if !(t.st = .resetting || t.st = .destroying) || tenWindows d n ≠ [] || tenRopes d n ≠ [] then d
    else
      let d := postEvent n 0x10 n t.resetCause.code t.resetQps d
      match t.destroy with
      | some stubs => finishDestroy n stubs t.destroyCmd d
      | none =>
        let d := eventDrain n (tenState n .active (d.onTen n fun t => { t with resetCmd := none }))
        match t.resetCmd with
        | some c => answerIf c 0x0203 stDone none d
        | none => d

/-- A rope of a tenant that is reset aborts with RESET and is destroyed (R376). -/
def ropeReset (slot : Nat) (d : Dev) : Dev :=
  (ropeAbortLocal slot 0x6B d).onRope slot fun r =>
    { r with waiting := [], destroying := match r.destroying with
      | some c => some c
      | none => some none }

/-- The tenant's translation caches and bucket levels restart (R533). -/
def restartTenant (n : Nat) (d : Dev) : Dev :=
  (dropRuns n d).onNet fun x => { x with pace := x.pace.upd n fun y => { y with shapers := y.shapers.map fullShaper, meters := y.meters.map fullMeter } }

/-- Steps 1 to 8 of R457. The tenant is in st (RESETTING or DESTROYING) until tenResetTry ends the reset. -/
def tenResetSteps (n : Nat) (st : TenState) (cause : ResetCause) (d : Dev) : Dev :=
  match d.ten? n with
  | none => d
  | some t =>
    let d := match t.freeze.bind (·.cmd) with
      | some c => answerIf c 0x0204 stBusy none d
      | none => d
    let d := tenState n st (d.onTen n fun t => { t with freeze := none })
    let d := (tenRopes d n).foldl (fun d (k, _) => ropeReset k d) d
    let d := d.onXlt fun x => { x with windows := x.windows.map fun (w, v) => (w, if v.tenant = n then { v with closing := true } else v) }
    let reason := if cause = .port then ccHostLost else ccFlushed
    let d := (tenQps d n).foldl (fun d (k, q) =>
      if q.st = .rtr || q.st = .rts || q.st = .flushing then sendDisconnect k reason d else d) d
    let d := failJobs (fun j => jobTenant j = n) ccFlushed 0 (dropOps (fun o => o.tenant = n) d)
    let qs := (tenQps d n).map Prod.fst
    let d := qs.foldl (fun d k => destroyQp k (if cause = .port then .hostLost else .other) d) d
    let d := (tenCqs d n).foldl (fun d (k, _) => destroyCq k d) d
    let d := restartTenant n (groupsTidy t.par.port d)
    d.onTen n fun t => { t with
      carried := false, quotaHit := false, eventsLost := false, dbReject := false, counts := List.replicate 8 0#48, ev := {},
      lastReset := cause, resetCause := cause, resetQps := qs.length }

/-- A tenant reset by an event of R456; one already under way goes on. -/
def tenantReset (n : Nat) (cause : ResetCause) (d : Dev) : Dev :=
  match d.ten? n with
  | none => d
  | some t =>
    if t.st = .resetting || t.st = .destroying then d else tenResetTry n (tenResetSteps n .resetting cause d)

def devTenantReset (c : CmdSlot) : Dev → Dev :=
  runChk c 0x0203 (fun p _ => [(0, u32 p 0 < 256), (4, u32 p 4 = 0)]) fun p d =>
    let n := u32 p 0
    withTenant c n false (fun t d =>
      if t.st = .resetting || t.st = .destroying then finish c stBusy d
      else
        let d := leave c [n] d
        tenantReset n .command (d.onTen n fun t => { t with resetCmd := some c })) d

def execTenantReset (c : CmdSlot) (s : State) : Host.Outcome State Fault Refusal := onDev s (liveQ (devTenantReset c))

/-- A window that every live tile holds FREE ends (R182 step 3, R183): its number, key and slabs return; WINDOW_REVOKE is answered and a waiting reset goes on. -/
def windowEnd (w : Nat) (v : Window) (d : Dev) : Dev :=
  let d := d.onXlt fun x => { x with windows := x.windows.erase w }
  let d := match v.cmd with
    | some c => answerIf c 0x0402 stDone none d
    | none => d
  tenResetTry v.tenant d

/-- The windows whose last tile has applied FREE end. -/
def windowsEnd (d : Dev) : Dev := d.xlt.windows.foldl (fun d (w, v) => if windowFreed d v then windowEnd w v d else d) d

/-- Every live tile has drained a CLOSING window: the leader makes it FREE in each of them (R40, R182 step 3). -/
def devWindowDrained (w : Nat) (d : Dev) : Dev :=
  match d.win? w with
  | none => d
  | some v => if !v.closing || v.freeing || !windowIdle d v || (leader d).isNone then d
    else windowsEnd (freeWindows (fun n _ => n = w) none d)

def execWindowDrained (w : Nat) (s : State) : Host.Outcome State Fault Refusal := onDev s (liveQ (devWindowDrained w))

def devReplicatedTableWrite (u : Nat) (epoch : BitVec 32) (w : TableWrite) (d : Dev) : Dev := windowsEnd (tableWrite u epoch w d)

def execReplicatedTableWrite (tile : Nat) (epoch : BitVec 32) (w : TableWrite) (s : State) : Host.Outcome State Fault Refusal :=
  onDev s (live (devReplicatedTableWrite tile epoch w))

-- Destruction (R459, R460)

/-- The stub list: OLD_QPN, NEW_NODE, NEW_QPN (R459). -/
def parseStubs (life n : Nat) (b : Bytes) : List (Nat × Stub) :=
  (List.range n).map fun i =>
    (u16 b (8 * i), { node := BitVec.ofNat 16 (u16 b (8 * i + 2)), qpn := BitVec.ofNat 32 (u32 b (8 * i + 4)), lifeS := life })

def stubsOk (d : Dev) (t : Nat) (l : List (Nat × Stub)) : Bool :=
  l.all (fun (k, s) => nodeForm s.node.toNat && s.qpn.toNat < 2 ^ 24 && match d.qp? k with
    | some q => q.par.tenant = t
    | none => false) && decide (l.map Prod.fst).Nodup

def tenantDestroyChk (c : CmdSlot) (p : Bytes) (_ : Dev) : List (Nat × Bool) :=
  let stubs := u8 p 4 = 1
  [(0, u32 p 0 < 256), (4, u8 p 4 ≤ 1), (5, u8 p 5 = 0),
   (6, if stubs then 1 ≤ u16 p 6 && u16 p 6 ≤ 3600 else u16 p 6 = 0),
   (8, if stubs then addrOk c (u64 p 8) 8 else u64 p 8 = 0),
   (0x10, if stubs then 1 ≤ u32 p 0x10 && u32 p 0x10 ≤ 65536 else u32 p 0x10 = 0), (0x14, u32 p 0x14 = 0)]

/-- TENANT_DESTROY (R459); accepted from either port (R452). stubs: the list read from host memory, none when it cannot be read. -/
def devTenantDestroy (c : CmdSlot) (stubs : Option Bytes) : Dev → Dev :=
  runChk c 0x0202 (tenantDestroyChk c) fun p d =>
    let n := u32 p 0
    let read := if u8 p 4 = 1 then stubs.map (parseStubs (u16 p 6) (u32 p 0x10)) else some []
    match read, d.ten? n with
    | none, _ => finishAt c stBadParam 8 d
    | _, none => finishAt c stBadParam 0 d
    | some l, some t =>
      if !stubsOk d n l then finish c stBadParam d
      else
        let tab := l.foldl (fun (a : Tab Stub) (k, s) => a.set k s) []
        let d := leave c [n] (d.onTen n fun t => { t with destroyCmd := some c, destroy := some tab })
        if t.st = .resetting || t.st = .destroying then d else tenResetTry n (tenResetSteps n .destroying .command d)

def execTenantDestroy (c : CmdSlot) (stubs : Option Bytes) (s : State) : Host.Outcome State Fault Refusal :=
  onDev s (liveQ (devTenantDestroy c stubs))

/-- A stub has stood for STUB_LIFE_S: its place is free (R460). -/
def devStubExpiry (qpn : Nat) (d : Dev) : Dev :=
  (d.onTens fun t => { t with stubs := t.stubs.erase qpn }).onQ fun x => { x with tombs := x.tombs.erase qpn }

def execStubExpiry (qpn : Nat) (s : State) : Host.Outcome State Fault Refusal := onDev s (live (devStubExpiry qpn))

-- Freeze and thaw (R461 to R463)

/-- Entries fetched and not begun, and a WAIT not yet satisfied, return unfetched; the consumer index names the first (R461 step 3). -/
def unfetch (q : Qp) : Qp :=
  let waits := match q.wait with
    | some w => if w.satisfied then none else some w.idx
    | none => none
  let begun := match waits with
    | some i => q.begun.filter fun b => b.idx ≠ i
    | none => q.begun
  let first := match waits with
    | some i => i
    | none => (q.fetched.head?.map (·.idx)).getD q.sq.f
  let keep := q.recvs.filter fun r => r.msn.isSome || r.fin.isSome
  let free := q.recvs.filter fun r => !(r.msn.isSome || r.fin.isSome)
  let firstR := (free.head?.map (·.idx)).getD q.rq.f
  { q with
    begun := begun, fetched := [], wait := if waits.isSome then none else q.wait
    waitMark := if waits.isSome then (q.wait.map (·.prev)).getD q.waitMark else q.waitMark
    sq := { q.sq with c := first, f := first, refetch := 0, stalled := false, held := [] }
    rq := { q.rq with c := firstR, f := firstR, refetch := 0, stalled := false, held := [] }
    recvs := keep, recvOrd := q.recvOrd - free.length }

def tenantFreezeChk (p : Bytes) (_ : Dev) : List (Nat × Bool) :=
  [(0, u32 p 0 < 256), (4, u8 p 4 ≤ 1), (5, u8 p 5 = 0), (6, u16 p 6 ≤ 10000)]

/-- TENANT_FREEZE (R461). -/
def devTenantFreeze (c : CmdSlot) : Dev → Dev :=
  runChk c 0x0204 tenantFreezeChk fun p d =>
    let n := u32 p 0
    withTenant c n false (fun t d =>
      if t.st = .frozen then finish c stNote d
      else if t.st ≠ .active then finish c stBusy d
      else
        let busy := (tenRopes d n).filter fun (_, r) => r.st = .running || (r.st = .idle && ropeDue d r)
        if busy ≠ [] && u8 p 4 = 0 then finish c stRopeActive d
        else
          let d := leave c [n] (tenState n .freezing (d.onTen n fun t => { t with freeze := some { cmd := some c, ropesAborted := busy.length } }))
          let d := busy.foldl (fun d (k, _) => ropeAbortLocal k 0x6C d) d
          let qs := (tenQps d n).filter fun (_, q) => !(q.st = .flushing || q.st = .error)
          let d := qs.foldl (fun d (k, _) => d.onQp k unfetch) d
          dropWaiters (fun w => match w with
            | .sqFetch k => qs.any (·.1 = k)
            | .rqFetch k => qs.any (·.1 = k)
            | _ => false) d) d

def execTenantFreeze (c : CmdSlot) (s : State) : Host.Outcome State Fault Refusal := onDev s (liveQ (devTenantFreeze c))

/-- No begun entry, outstanding message, running leg, held completion or drain count is left (R461 step 4). -/
def tenDrained (d : Dev) (n : Nat) : Bool :=
  (tenQps d n).all (fun (_, q) => q.begun = [] && q.conn.msgs = []) && d.eng.ops.all (fun (_, o) => o.tenant ≠ n)
    && (tenCqs d n).all (fun (_, c) => c.held = []) && (tenRopes d n).all (fun (_, r) => r.waiting = [])
    && (tenWindows d n).all fun (_, w) => w.drain.all (· = 0)

/-- The tenant is FROZEN: its event, and the reply of TENANT_FREEZE. -/
def frozenNow (n flushed st : Nat) (d : Dev) : Dev :=
  match d.ten? n with
  | none => d
  | some t => match t.freeze with
    | none => d
    | some f =>
      let d := postEvent n 0x11 n flushed f.ropesAborted (tenState n .frozen (d.onTen n fun t => { t with freeze := none }))
      match f.cmd with
      | some c => answerIf c 0x0204 st none d
      | none => d

def devFreezeDrained (n : Nat) (d : Dev) : Dev :=
  match d.ten? n with
  | none => d
  | some t => if t.st = .freezing && tenDrained d n then frozenNow n 0 stDone d else d

def execFreezeDrained (tenant : Nat) (s : State) : Host.Outcome State Fault Refusal := onDev s (liveQ (devFreezeDrained tenant))

/-- Every waiter of the tenant completes FAULT_UNRESOLVED. -/
def unresolveTenant (n : Nat) (d : Dev) : Dev :=
  let l := d.xlt.recs.filter fun (_, r) => r.tenant = n
  l.foldl (fun d (i, r) => r.waiters.foldl (fun d w => unresolved w.who d) (dropRec i d)) d

/-- LIMIT_MS ends before the drain (R461): what remains is ended. -/
def devFreezeLimit (n : Nat) (d : Dev) : Dev :=
  match d.ten? n with
  | none => d
  | some t =>
    if t.st ≠ .freezing then d
    else
      let qs := (tenQps d n).filter fun (_, q) => (q.begun.any fun b => b.fin.isNone) && !(q.st = .flushing || q.st = .error)
      let d := qs.foldl (fun d (k, _) => toFlush k (some ccFlushed) none d) d
      let d := (tenCqs d n).foldl (fun d (k, c) => if c.held = [] then d else cqOverflow k 0 d) d
      frozenNow n qs.length stNote (unresolveTenant n d)

def execFreezeLimit (tenant : Nat) (s : State) : Host.Outcome State Fault Refusal := onDev s (liveQ (devFreezeLimit tenant))

/-- TENANT_THAW (R463). -/
def devTenantThaw (c : CmdSlot) : Dev → Dev :=
  runChk c 0x0207 (fun p _ => [(0, u32 p 0 < 256), (4, u32 p 4 = 0)]) fun p d =>
    let n := u32 p 0
    withTenant c n false (fun t d =>
      if t.st ≠ .frozen then finishAt c stBadParam 0 d
      else if t.carried then finish c stNotPermitted d
      else finish c stDone (postEvent n 0x12 n 0 0 (tenState n .active d))) d

def execTenantThaw (c : CmdSlot) (s : State) : Host.Outcome State Fault Refusal := onDev s (liveQ (devTenantThaw c))

-- Query (R470)

/-- Windows a snapshot describes: those that are open (R466). -/
def snapWindows (d : Dev) (n : Nat) : List (Nat × Window) := (tenWindows d n).filter fun (_, w) => !w.closing
def tenAllocs (d : Dev) (n : Nat) : List (Nat × Alloc) := d.mem.allocs.filter fun (_, a) => a.tenant = n

/-- Snapshot length (R465). -/
def snapLen (d : Dev) (n : Nat) : Nat :=
  192 + 16 * (tenAllocs d n).length + 32 * ((tabOf d n).maps.length + (snapWindows d n).length + (tenCqs d n).length)
    + 64 * (tenQps d n).length

def tenFlags (t : Tenant) : Nat :=
  b2n t.par.pasid.isSome + 2 * b2n t.par.createFrozen + 4 * b2n t.par.mgmtW + 8 * b2n t.par.mgmtE + 16 * b2n t.carried

def tenRecord (d : Dev) (n : Nat) (t : Tenant) : Bytes :=
  toLE 1 t.st.code ++ toLE 1 t.par.port.idx ++ toLE 1 (tenFlags t) ++ toLE 1 t.lastReset.code ++ toLE 4 (t.par.pasid.getD 0)
    ++ toLE 4 (memUsed d n) ++ toLE 2 (tenWindows d n).length ++ toLE 1 (tenRopes d n).length ++ zpad 1 ++ toLE 4 (slabsUsed d n)
    ++ toLE 4 (tenQps d n).length ++ toLE 2 (tenCqs d n).length ++ zpad 2
    ++ toLE 4 ((tenQps d n).map fun (_, q) => trackerOf q).sum ++ toLE 4 (snapLen d n) ++ zpad 4 ++ toLE 8 t.since.toNat ++ zpad 16

def devTenantQuery (c : CmdSlot) : Dev → Dev :=
  runChk c 0x0208 (fun p _ => [(0, u32 p 0 < 256), (4, u32 p 4 = 0), (8, addrOk c (u64 p 8) 64)]) fun p d =>
    match d.ten? (u32 p 0) with
    | none => finishAt c stBadParam 0 d
    | some t => finishRes c stDone (u64 p 8) (tenRecord d (u32 p 0) t) d

def execTenantQuery (c : CmdSlot) (s : State) : Host.Outcome State Fault Refusal := onDev s (live (devTenantQuery c))

end Sys2Proof.Machine
end

