-- ==== Sys2Proof/Machine/Host.lean ====
section
/-! DEFINITION. Host ports, Hasps, leadership, mailboxes, MSI-X, the sideband and the host-side answer table (11_host_ports_control). -/

namespace Sys2Proof.Machine

-- Change of leader (R398, R432)

/-- A TENANT_RESTORE left unanswered is undone as the other creations are, since its result alone names the objects; the donor has its allocations again (R432; log 62). -/
def undoRestore (m : Cmd) (d : Dev) : Dev :=
  if m.stage ≠ .running || m.hdr.opcode ≠ 0x0206#16 then d
  else
    let n := u32 m.params 0
    let d := dropRuns n (d.onXlt fun x => { x with tables := x.tables.erase n })
    let d := freeWindows (fun _ w => w.tenant = n) none d
    let d := d.onQ fun q => { q with qps := q.qps.filter (fun (_, x) => x.par.tenant ≠ n), cqs := q.cqs.filter fun (_, x) => x.tenant ≠ n }
    d.onMem fun x => { x with allocs := x.allocs.map fun (h, a) => (h, if a.tenant = n then { a with tenant := u32 m.params 4 } else a) }

/-- A new leader takes over the slots (R432): commands not begun are fetched again, begun ones are answered ABORTED with LATE set. -/
def takeover (d : Dev) : Dev :=
  let d := windowsEnd (replCarry d)
  let d := allSlots.foldl (fun d c =>
    match cmdAt d c with
    | none => d
    | some m =>
      if m.stage = .fetched then
        match c with
        | .ring p k => (setCmd c none d).onRing p k fun r => { r with stopping := false }
        | .sideband => onCmd c (fun m => { m with late := true }) d
      else if m.stage = .replied then d
      else answer c stAborted 0 none none (undoRestore m (undoCreation m (onCmd c (fun m => { m with late := true }) d)))) d
  let d := disownCmds d
  let mark (r : CmdRing) : CmdRing := if r.enable && r.prod ≠ r.cons then { r with lateTo := some r.prod.toNat } else r
  let d := d.onCtl fun c => { c with rings := ⟨c.rings.w.map mark, c.rings.e.map mark⟩, handover := none, side := { c.side with late := c.side.request.isSome } }
  -- faults that no posted cairn holds are gathered again (R165); one that would need a 257th held cairn ends at once (R168)
  d.xlt.recs.foldl (fun d (i, r) => if r.state = .unreported then (match gather i d with
    | (true, d) => d
    | (false, d) => settle (r.waiters.foldl (fun d w => unresolved w.who d) (dropRec i d))) else d) (cairnDrain .east (cairnDrain .west d))

/-- A follower acquires the free Hasp 0 with a token and leads (R391, R398). -/
def acquireWith (token : BitVec 16) (s : Side) (d : Dev) : Dev :=
  let d := setHolder 0 (some (.die s)) token d
  let d := d.onCtl fun c => { c with dies := c.dies.set s .leader, lease := 1000 }
  takeover (leaderChanged (s.idx + 1) d)

/-- Firmware acquires Hasp 0 of itself, with token 1 (log 102). -/
def acquireLead (s : Side) (d : Dev) : Dev := acquireWith 1#16 s d

/-- A die that can lead takes Hasp 0 when it is free (R396, R398). -/
def followerAcquire (d : Dev) : Dev :=
  if (d.hasp 0).holder.isSome then d
  else if d.ctl.dies.w = .follower then acquireLead .west d
  else if d.ctl.dies.e = .follower then acquireLead .east d
  else d

-- Hasps (R391 to R394)

/-- An agent acquires Hasp n (R391); Hasp 0 is the control dies' (R390, R415). -/
def devHaspAcquire (a : Agent) (n : Nat) (token : BitVec 16) (d : Dev) : Dev :=
  if 64 ≤ n then d
  else match a with
    | .port _ =>
      if n = 0 || token = 0#16 then haspMisuse a d
      else if (d.hasp n).holder.isNone then count 0x0B06 0xFF none 1 (setHolder n (some a) token d)
      else d
    | .die s =>
      if !agentUp d a || token = 0#16 || (d.hasp n).holder.isSome then d
      else if n = 0 then (if d.ctl.dies.get s = .follower then acquireWith token s d else d)
      else count 0x0B06 0xFF none 1 (setHolder n (some a) token d)

def execHaspAcquire (a : Agent) (n : Nat) (token : BitVec 16) (s : State) : Host.Outcome State Fault Refusal :=
  onDev s (live (devHaspAcquire a n token))

/-- A follower that is told Hasp 0 is free acquires it, the other die before the one that let it go. -/
def leadFreed (s : Side) (d : Dev) : Dev :=
  if d.ctl.dies.get s.other = .follower then acquireLead s.other d else followerAcquire d

/-- RELEASE (R391); a leader that releases Hasp 0 becomes a follower (R398). -/
def devHaspRelease (a : Agent) (n : Nat) (token : BitVec 16) (d : Dev) : Dev :=
  if 64 ≤ n then d
  else
    let mine := (d.hasp n).holder = some a && (d.hasp n).token = token
    match a with
    | .port _ => if n = 0 || token = 0#16 || !mine then haspMisuse a d else setHolder n none 0#16 d
    | .die s =>
      if !mine || !agentUp d a then d
      else if n ≠ 0 then setHolder n none 0#16 d
      else leadFreed s ((setHolder 0 none 0#16 d).onCtl fun c => { c with dies := c.dies.set s .follower, lease := 0 })

def execHaspRelease (a : Agent) (n : Nat) (token : BitVec 16) (s : State) : Host.Outcome State Fault Refusal :=
  onDev s (live (devHaspRelease a n token))

-- Mailboxes (R401 to R409)

/-- The sender of a mailbox; none stands for the leading control die (R401). -/
def mbxSender (k : Nat) : Option Side :=
  if k = 0 || k = 4 then some .west else if k = 2 || k = 5 then some .east else none

def mbxReceiver (k : Nat) : Option Side :=
  if k = 1 || k = 5 then some .west else if k = 3 || k = 4 then some .east else none

/-- The agent is that side of a mailbox. -/
def isParty (d : Dev) (a : Agent) (x : Option Side) : Bool :=
  match x, a with
  | some p, .port q => p = q
  | none, .die s => leader d = some s
  | _, _ => false

def signalParty (x : Option Side) (v : Nat) (d : Dev) : Dev :=
  match x with
  | some p => msix p v d
  | none => d

def wrongParty (a : Agent) (d : Dev) : Dev :=
  match a with
  | .port p => hostWrongPort p d
  | .die _ => d

/-- MBX_DATA written (R402, R403, R415). -/
def devMbxDataWrite (a : Agent) (k : Nat) (word : BitVec 64) (d : Dev) : Dev :=
  if 6 ≤ k then d
  else if !isParty d a (mbxSender k) then wrongParty a d
  else if (d.mbx k).full then
    match a with
    | .port p => aerLog p .completerAbort (count 0x0304 p.idx none 1 (d.onMbx k fun m => { m with reject := true }))
    | .die s => emit (.dieBusError s) d
  else signalParty (mbxReceiver k) 1 (d.onMbx k fun m => { m with word := word, full := true })

def execMbxDataWrite (a : Agent) (k : Nat) (word : BitVec 64) (s : State) : Host.Outcome State Fault Refusal :=
  onDev s (live (devMbxDataWrite a k word))

def answerRead (a : Agent) (v : BitVec 64) (d : Dev) : Dev :=
  match a with
  | .port p => emit (.regRead p v) d
  | .die s => emit (.dieRead s v) d

/-- MBX_DATA read (R402): only the receiver's read of a waiting word has effect. The word that the read finds. -/
def mbxTake (a : Agent) (k : Nat) (d : Dev) : BitVec 64 × Dev :=
  if k < 6 && isParty d a (mbxReceiver k) && (d.mbx k).full then
    ((d.mbx k).word, signalParty (mbxSender k) 2 (d.onMbx k fun m => { m with word := 0#64, full := false, taken := true }))
  else (0#64, d)

/-- WITHDRAW (R404, R409). -/
def devWithdraw (a : Agent) (k : Nat) (d : Dev) : Dev :=
  if 6 ≤ k then d
  else if !isParty d a (mbxSender k) then wrongParty a d
  else d.onMbx k fun m => if m.full then { m with word := 0#64, full := false } else m

def execWithdraw (a : Agent) (k : Nat) (s : State) : Host.Outcome State Fault Refusal := onDev s (live (devWithdraw a k))

/-- A word has stayed unread for 10 ms (R404). -/
def devMbxTimeout (k : Nat) (d : Dev) : Dev :=
  if (d.mbx k).full then count 0x0B07 0xFF none 1 (signalParty (mbxSender k) 2 (d.onMbx k fun m => { m with timeout := true })) else d

def execMbxTimeout (k : Nat) (s : State) : Host.Outcome State Fault Refusal := onDev s (live (devMbxTimeout k))

/-- The receiver of a mailbox resets (R406). -/
def mbxReceiverReset (k : Nat) (d : Dev) : Dev :=
  if (d.mbx k).full then
    signalParty (mbxSender k) 2 (d.onMbx k fun m => { m with word := 0#64, full := false, receiverReset := true })
  else d

/-- The sender of a mailbox resets (R406). -/
def mbxSenderReset (k : Nat) (d : Dev) : Dev :=
  d.onMbx k fun m => { m with
    senderReset := m.senderReset || m.full, taken := false, reject := false, timeout := false, receiverReset := false }

-- Leadership (R396 to R399)

/-- A control die fences itself (R397): case 1 or 2 of the rule. -/
def fenceDie (s : Side) (case : Nat) (d : Dev) : Dev :=
  let d := travLost s (d.onCtl fun c => { c with dies := c.dies.set s .fenced })
  let d := logIt 0x0602 5 s.idx [case] (d := releaseAll (.die s) d)
  if dieDown (d.ctl.dies.get s.other) then
    let d := mbxReceiverReset 2 (mbxReceiverReset 0 d)
    if case = 2 then raiseAlert alFenced d else d
  else d

def devLeaseRenewal (d : Dev) : Dev :=
  match leader d with
  | some _ => d.onCtl fun c => { c with lease := 1000 }
  | none => followerAcquire d

def execLeaseRenewal (s : State) : Host.Outcome State Fault Refusal := onDev s (live devLeaseRenewal)

/-- The lease runs out (R396): its holder, unrenewed for 1 ms, has fenced under R397; Hasp 0 is free and a follower acquires it. -/
def devLeaseExpiry (d : Dev) : Dev :=
  match (d.hasp 0).holder with
  | some (.die s) =>
    let d := if d.ctl.dies.get s = .leader then fenceDie s 1 d else d
    followerAcquire ((setHolder 0 none 0#16 d).onCtl fun c => { c with lease := 0 })
  | _ => d

def execLeaseExpiry (s : State) : Host.Outcome State Fault Refusal := onDev s (live devLeaseExpiry)

/-- A die takes Hasp 0 when it is free, else follows (R398). -/
def leadOrFollow (s : Side) (d : Dev) : Dev :=
  if (d.hasp 0).holder.isNone then acquireLead s d else d.onCtl fun c => { c with dies := c.dies.set s .follower }

/-- Firmware runs on a control die (R398): CDW tries Hasp 0 at once, CDE only after its delay. -/
def devControlDieStart (s : Side) (d : Dev) : Dev :=
  if d.ctl.dies.get s ≠ .starting then d
  else match s with
    | .west => leadOrFollow .west d
    | .east => if (d.hasp 0).holder.isNone then d else leadOrFollow .east d

def execControlDieStart (d : Side) (s : State) : Host.Outcome State Fault Refusal := onDev s (live (devControlDieStart d))

def devCdeAcquireDelay (d : Dev) : Dev := if d.ctl.dies.e = .starting then leadOrFollow .east d else d

def execCdeAcquireDelay (s : State) : Host.Outcome State Fault Refusal := onDev s (live devCdeAcquireDelay)

def devFenceNoRenewal (s : Side) (d : Dev) : Dev := if d.ctl.dies.get s = .leader then fenceDie s 1 d else d

def execFenceNoRenewal (d : Side) (s : State) : Host.Outcome State Fault Refusal := onDev s (live (devFenceNoRenewal d))

def devFenceUnreachable (s : Side) (d : Dev) : Dev :=
  if d.ctl.dies.get s = .leader || d.ctl.dies.get s = .follower then fenceDie s 2 d else d

def execFenceUnreachable (d : Side) (s : State) : Host.Outcome State Fault Refusal := onDev s (live (devFenceUnreachable d))

def devFencedRecovery (s : Side) (d : Dev) : Dev :=
  if d.ctl.dies.get s = .fenced then followerAcquire (d.onCtl fun c => { c with dies := c.dies.set s .follower }) else d

def execFencedRecovery (d : Side) (s : State) : Host.Outcome State Fault Refusal := onDev s (live (devFencedRecovery d))

/-- A control die is lost (R394, R399); a lost leader's Hasp 0 is free only when its lease ends. -/
def devControlDieLost (s : Side) (d : Dev) : Dev :=
  if d.ctl.dies.get s = .lost then d
  else
    let d := releaseAll (.die s) (travLost s (d.onCtl fun c => { c with dies := c.dies.set s .lost }))
    if dieDown (d.ctl.dies.get s.other) then mbxReceiverReset 2 (mbxReceiverReset 0 d) else d

def execControlDieLost (d : Side) (s : State) : Host.Outcome State Fault Refusal := onDev s (live (devControlDieLost d))

-- MSI-X (R412)

/-- A vector's mask, or the function mask, clears: one message for each pending vector. -/
def devMsiXUnmask (p : Side) (v : Option Nat) (d : Dev) : Dev :=
  msixFlush p (match v with
    | some v => if v < 2048 then d.onHost p fun h => { h with msix := h.msix.set v { h.msix.getD v {} with masked := false } } else d
    | none => d.onHost p fun h => { h with funcMask := false })

def execMsiXUnmask (p : Side) (vector : Option Nat) (s : State) : Host.Outcome State Fault Refusal := onDev s (powered (devMsiXUnmask p vector))

-- PORT events (R410, R436, R587)

/-- Commands of a reset port (R436): begun ones run on unanswered, the others are discarded; the CMD groups return to reset. -/
def ringsReset (p : Side) (d : Dev) : Dev :=
  let clear (r : CmdRing) : CmdRing :=
    { cmd := match r.cmd with
        | some m => if m.stage = .begun || m.stage = .running then some { m with orphan := true } else none
        | none => none }
  -- a command that has run and whose reply was held leaves its log entry (R436)
  let d := (d.ctl.rings.get p).foldl (fun d r => match r.cmd with
    | some m => if m.stage = .replied && m.ran then logIt 0x0505 4 p.idx [m.hdr.opcode.toNat, m.hdr.cmdId.toNat, m.status] (d := d) else d
    | none => d) d
  d.onCtl fun c => { c with rings := c.rings.upd p fun l => l.map clear }

/-- Configuration space after a conventional or function-level reset: its identifiers, which are fixed, and the defaults of what the host programs (R382, R386; log 31). -/
def configReset (c : ConfigSpace) : ConfigSpace := { subsysId := c.subsysId }

/-- What a PORT event clears in the port itself: MSI-X, configuration space, bus mastering, D3hot, ATS and PRI (log 31), what waited for its link; the link goes down unless the event keeps it. -/
def portFields (p : Side) (keepLink : Bool) (d : Dev) : Dev :=
  d.onHost p fun h =>
    let h := { h with config := configReset h.config, d3hot := false, busMaster := false, funcMask := false, msix := [], atsEnabled := false, priAlloc := 0, heldWrites := [], waits := [], invHeld := [] }
    if keepLink then h else { h with linkUp := false, width := 0, gen := 0, flit := false, belowRecord := false }

/-- A PORT event on port p (R410). -/
def portEvent (p : Side) (keepLink : Bool) (d : Dev) : Dev :=
  let d := wakeDev d
  let d := portFields p keepLink d
  let d := d.onQ fun q => { q with hostReqs := q.hostReqs.filter fun (_, r) => r.port ≠ p }
  let d := d.onXlt fun x => { x with ats := x.ats.filter (fun (_, a) => a.port ≠ p), invs := x.invs.filter fun (_, v) => v.ats ≠ some p }
  let d := releaseAll (.port p) d
  let d := ringsReset p d
  let bound := (d.ten.tenants.filter fun (_, t) => t.par.port = p).map Prod.fst
  let d := bound.foldl (fun d n => tenantReset n .port d) d
  let d := (List.range 6).foldl (fun d k =>
    let d := if mbxReceiver k = some p then mbxReceiverReset k d else d
    if mbxSender k = some p then mbxSenderReset k d else d) d
  d.onXPort p fun _ => {}

def execPerstN (p : Side) (s : State) : Host.Outcome State Fault Refusal := onDev s (liveQ (portEvent p false))
def execHotReset (p : Side) (s : State) : Host.Outcome State Fault Refusal := onDev s (liveQ (portEvent p false))

/-- A link-down event is a PORT event while the link is up. -/
def devLinkDown (p : Side) (d : Dev) : Dev := if (d.host.get p).linkUp then portEvent p false d else d

def execLinkDown (p : Side) (s : State) : Host.Outcome State Fault Refusal := onDev s (liveQ (devLinkDown p))
def execFunctionLevelReset (p : Side) (s : State) : Host.Outcome State Fault Refusal := onDev s (liveQ (portEvent p true))

/-- A read of host memory that waited leaves the port, once its host tile can be reached (R31, R387). -/
def sendHeldRead (p : Side) (tag : Nat) (d : Dev) : Dev :=
  match d.q.hostReqs.get? tag with
  | none => d
  | some r =>
    if r.port = p && !r.sent && hostReady d p (hostOwner d r.use) then
      sendRead p r.pasid r.addr r.len tag (d.onQ fun q => { q with hostReqs := q.hostReqs.upd tag fun r => { r with sent := true, at_ := now d } })
    else d

def sendHeldAts (p : Side) (tag : Nat) (d : Dev) : Dev :=
  match d.xlt.ats.get? tag with
  | none => d
  | some r =>
    if r.port = p && !r.sent && hostReady d p r.who.tile then
      emit (.ats p (((d.ten? r.tenant).bind (·.par.pasid)).getD 0) r.addr tag) (d.onXlt fun x =>
        { x with ats := x.ats.upd tag fun r => { r with sent := true, at_ := now d } })
    else d

def sendHeldReads (p : Side) (d : Dev) : Dev :=
  let d := d.q.hostReqs.foldl (fun d (tag, _) => sendHeldRead p tag d) d
  d.xlt.ats.foldl (fun d (tag, _) => sendHeldAts p tag d) d

/-- Held writes, oldest first, and the device. -/
abbrev Resume := List (Option Nat × Nat × Bytes × Bool) × Dev

/-- One item that a port held goes on (R387). -/
def resumeOne (p : Side) (x : Resume) : HeldWork → Resume
  | .write => match x.1 with
    | (pasid, a, b, rl) :: ws => (ws, sendWrite p pasid a b rl x.2)
    | [] => x
  | .reply k => (x.1, retireHeld p k x.2)
  | .read tag => (x.1, sendHeldRead p tag x.2)
  | .ats tag => (x.1, sendHeldAts p tag x.2)
  | .cairn => (x.1, cairnDrain1 p x.2)
  | .pages => (x.1, priSend p x.2)
  | .event n => (x.1, eventDrain1 n x.2)
  | .completion n => (x.1, cqDrain1 n x.2)
  | .msix v => (x.1, msixSend p v x.2)
  | .job => (x.1, jobRelease1 x.2)

/-- The port can issue requests again: what was held goes on in the order in which it was held, then what waited for another cause besides (R387). -/
def portResume (p : Side) (d : Dev) : Dev :=
  if !canIssue d p then d
  else
    let h := d.host.get p
    let d := d.onHost p fun h => { h with heldWrites := [], waits := [] }
    let (ws, d) := h.waits.foldl (resumeOne p) (h.heldWrites, d)
    let d := ws.foldl (fun d (pasid, a, b, rl) => sendWrite p pasid a b rl d) d
    let d := retireReplied p d
    let d := sendHeldReads p d
    let d := priSend p (cairnDrain p d)
    let d := (tenantNums d).foldl (fun d n => if tenPort d n = p then eventDrain n d else d) d
    let d := d.q.cqs.foldl (fun d (n, c) => if tenPort d c.tenant = p then cqDrain n d else d) d
    jobRelease (msixFlush p d)

/-- A host link finishes training (R384, R417, R587). -/
def devHostLinkUp (p : Side) (width gen : Nat) (flit : Bool) (d : Dev) : Dev :=
  let rec_ := (d.host.get p).recordWidth
  let below := rec_ ≠ 0 && width < rec_
  let d := d.onHost p fun h => { h with linkUp := true, width := width, gen := gen, flit := flit, belowRecord := below }
  let d := if below then logIt 0x0503 4 p.idx [width, rec_] (d := d) else d
  portResume p (d.onPwr fun x => { x with pcieLock := x.pcieLock.set p true })

def execHostLinkUp (p : Side) (width gen : Nat) (flit : Bool) (s : State) : Host.Outcome State Fault Refusal :=
  onDev s (powered (fun d => settle (devHostLinkUp p width gen flit d)))

def devBusMasterEnableSet (p : Side) (d : Dev) : Dev := portResume p (d.onHost p fun h => { h with busMaster := true })

def execBusMasterEnableSet (p : Side) (s : State) : Host.Outcome State Fault Refusal := onDev s (powered (fun d => settle (devBusMasterEnableSet p d)))

def devBusMasterEnableClear (p : Side) (d : Dev) : Dev := d.onHost p fun h => { h with busMaster := false }

def execBusMasterEnableClear (p : Side) (s : State) : Host.Outcome State Fault Refusal := onDev s (powered (devBusMasterEnableClear p))

def devD3hotEntry (p : Side) (d : Dev) : Dev := d.onHost p fun h => { h with d3hot := true }

def execD3hotEntry (p : Side) (s : State) : Host.Outcome State Fault Refusal := onDev s (powered (devD3hotEntry p))

def devD0Return (p : Side) (d : Dev) : Dev := portResume p (d.onHost p fun h => { h with d3hot := false })

def execD0Return (p : Side) (s : State) : Host.Outcome State Fault Refusal := onDev s (powered (fun d => settle (devD0Return p d)))

-- Completions of device reads (R31, R386, R415)

/-- The work that a host read was made for ends with a code (R415). -/
def hostWorkFail (u : HostUse) (code detail : Nat) (d : Dev) : Dev :=
  match u with
  | .leg x _ => match d.q.xfers.get? x with
    | none => d
    | some t => endBad t.qpn t.idx code detail (d.onQ fun q => { q with xfers := q.xfers.erase x })
  | .message n msn => match (d.qp? n).bind fun q => q.conn.msgs.find? fun m => m.msn = msn with
    | none => d
    | some m => endBad n m.idx code detail d

def takeReq (tag : Nat) (d : Dev) : Dev := d.onQ fun q => { q with hostReqs := q.hostReqs.erase tag }

/-- A request's place in the RSP queue is free again: requests that waited for one go out (R21). -/
def placeFreed (d : Dev) : Dev := sendHeldReads .east (sendHeldReads .west d)

/-- Data that a completion brought reaches the leg or the message that waits for it. -/
def hostData (u : HostUse) (b : Bytes) (d : Dev) : Dev :=
  match u with
  | .leg x l => d.onQ fun q => { q with xfers := q.xfers.upd x fun t =>
      { t with legs := modAt t.legs l fun g => { g with data := some b, hostTag := none } } }
  | .message n msn => messageRead n msn (d.onConn n fun c => { c with msgs := c.msgs.map fun m =>
      if m.msn = msn then { m with data := some (m.data.getD [] ++ b), hostTag := none } else m })

/-- Data of a host read at the tile that asked for it (R415): a transfer carries poisoned granules to device memory and then ends LOCAL_ACCESS, a message ends so at once. -/
def hostArrived (tag : Nat) (data : Bytes) (bad : Option (List Nat)) (r : HostReq) (d : Dev) : Dev :=
  let d := takeReq tag d
  placeFreed (match bad, r.use with
  | none, _ => hostData r.use (slice data 0 r.len) d
  | some g, .leg x l =>
    let d := hostData r.use (slice data 0 r.len) d
    d.onQ fun q => { q with xfers := q.xfers.upd x fun t =>
      { t with legs := modAt t.legs l fun x => { x with bad := g }, fail := t.fail.orElse fun _ => some (ccLocalAccess, 0x10) } }
  | some _, .message _ _ => hostWorkFail r.use ccLocalAccess 0x10 d)

/-- The data crosses from the host tile to the tile that asked for it (R17, R31). -/
def hostDelivers (tag : Nat) (data : Bytes) (bad : Option (List Nat)) (d : Dev) : Dev :=
  match d.q.hostReqs.get? tag with
  | none => d
  | some r =>
    let o := hostOwner d r.use
    crossOr ⟨.rsp, (hostTile d r.port o).getD o, o⟩ (.completion tag data bad) (hostArrived tag data bad r) d inHost

def devHostCompletion (tag : Nat) (data : Bytes) (d : Dev) : Dev :=
  match d.q.hostReqs.get? tag with
  | none => d
  | some r => if r.sent then hostDelivers tag data none d else d

def execHostCompletion (tag : Nat) (data : Bytes) (s : State) : Host.Outcome State Fault Refusal := onDev s (liveQ (devHostCompletion tag data))

/-- An ATS request ends refused: every stream that waits on it ends LOCAL_ACCESS (R415); a prefetch ends without more (R162). -/
def atsFail (tag : Nat) (r : AtsReq) (d : Dev) : Dev :=
  let d := d.onXlt fun x => { x with ats := x.ats.erase tag }
  if r.prefetch.isSome then d
  else match r.record with
  | none => failWaiter r.who.who ccLocalAccess 0x10 d
  | some id => match d.xlt.recs.get? id with
    | none => d
    | some rec => rec.waiters.foldl (fun d w => failWaiter w.who ccLocalAccess 0x10 d) (dropRec id d)

/-- A device request ends by refusal or timeout (R227, R415, R426): src is its count. -/
def hostFailed (t : HostTarget) (src : Nat) (aer : Side → Dev → Dev) (d : Dev) : Dev :=
  let note (p : Side) (d : Dev) : Dev := aer p (violate p src true d)
  match t with
  | .req tag => match d.q.hostReqs.get? tag with
    | none => d
    | some r => if r.sent then placeFreed (hostWorkFail r.use ccLocalAccess 0x10 (note r.port (takeReq tag d))) else d
  | .result c => match cmdAt d c, slotPort c with
    | some m, some p => if cmdActive m then note p (onCmd c (fun m => { m with resultLost := true }) d) else d
    | _, _ => d
  | .cqWrite n => match d.cq? n with
    | none => d
    | some c => cqOverflow n 1 (note (tenPort d c.tenant) d)
  | .ats tag => match d.xlt.ats.get? tag with
    | none => d
    | some r => if r.sent then atsFail tag r (note r.port d) else d

def devHostReqFailed (t : HostTarget) (d : Dev) : Dev := hostFailed t 0x0307 (fun _ d => d) d

def execHostReqFailed (t : HostTarget) (s : State) : Host.Outcome State Fault Refusal := onDev s (liveQ (devHostReqFailed t))

/-- The time that the host programmed for completions has passed since a request left (R386); a posted write has no completion, and its row is its end. -/
def timedOut (d : Dev) : HostTarget → Bool
  | .req tag => match d.q.hostReqs.get? tag with
    | some r => r.at_ + usTicks (d.host.get r.port).config.completionTimeout ≤ now d
    | none => false
  | .ats tag => match d.xlt.ats.get? tag with
    | some r => r.at_ + usTicks (d.host.get r.port).config.completionTimeout ≤ now d
    | none => false
  | _ => true

def devCompletionTimeout (t : HostTarget) (d : Dev) : Dev :=
  if timedOut d t then hostFailed t 0x0308 (fun p d => aerLog p .completionTimeout d) d else d

def execCompletionTimeout (t : HostTarget) (s : State) : Host.Outcome State Fault Refusal := onDev s (liveQ (devCompletionTimeout t))

/-- Poisoned completion data (R415). -/
def devPoisonedCompletion (tag : Nat) (data : Bytes) (granules : List Nat) (d : Dev) : Dev :=
  match d.q.hostReqs.get? tag with
  | none => d
  | some r =>
    if !r.sent then d
    else
      hostDelivers tag data (some granules) (aerLog r.port .poisonedTlp (violate r.port 0x0306 true d))

def execPoisonedCompletion (tag : Nat) (data : Bytes) (granules : List Nat) (s : State) : Host.Outcome State Fault Refusal :=
  onDev s (liveQ (devPoisonedCompletion tag data granules))

def devUnexpectedCompletion (p : Side) (d : Dev) : Dev :=
  aerLog p .unexpectedCompletion (count 0x0309 p.idx none 1 d)

def execUnexpectedCompletion (p : Side) (s : State) : Host.Outcome State Fault Refusal := onDev s (live (devUnexpectedCompletion p))

def devPoisonedWrite (p : Side) (d : Dev) : Dev := aerLog p .poisonedTlp (count 0x0306 p.idx none 1 d)

def execPoisonedWrite (p : Side) (s : State) : Host.Outcome State Fault Refusal := onDev s (live (devPoisonedWrite p))

-- Sideband (R413, R414, R581, R582)

/-- The static I3C address that the straps select (R413, R582). -/
def i3cStatic (d : Dev) : BitVec 7 := BitVec.ofNat 7 (0x30 + d.pwr.straps % 4)

/-- A dynamic address by ENTDAA, or by SETDASA sent to the device's static address; it replaces the static one (R413, R582). -/
def devEntdaa (a : I3cAssign) (d : Dev) : Dev :=
  match a with
  | .entdaa addr => d.onSide fun s => { s with dynAddr := some addr }
  | .setdasa st addr => if st = i3cStatic d then d.onSide fun s => { s with dynAddr := some addr } else d

def execEntdaa (addr : I3cAssign) (s : State) : Host.Outcome State Fault Refusal := onDev s (powered (devEntdaa addr))

/-- The endpoint identifier that a Set Endpoint ID request gives, by setting or forcing it (R414; DSP0236, log 12). -/
def eidSet (msg : Bytes) : Option (BitVec 8) :=
  if u8 msg 1 = 1 && u8 msg 2 < 2 && u8 msg 3 ≠ 0 && u8 msg 3 ≠ 0xFF then some (BitVec.ofNat 8 (u8 msg 3)) else none

/-- MCTP control: endpoint discovery and identifiers (R414). The answer is of the request and the identifier. -/
def devMctpControl (msg : Bytes) (d : Dev) : Dev :=
  let d := match eidSet msg with
    | some e => d.onSide fun s => { s with eid := e }
    | none => d
  emit (.sideband (0x00#8 :: Config.dmtfAnswer 0 (toLE 1 d.ctl.side.eid.toNat ++ msg))) d

def execMctpControl (msg : Bytes) (s : State) : Host.Outcome State Fault Refusal := onDev s (powered (devMctpControl msg))

/-- A 16-bit two's-complement value. -/
def i16 (x : Int) : Nat := (x % 65536).toNat

/-- The hottest of the dies and power stages. -/
def hottestOf (s : Sensors) : Int :=
  match s.dies with
  | [] => 0
  | x :: r => r.foldl max x

/-- What PLDM Type 2 monitoring reports (R414): the sensors, the leader and the states of the ports. -/
def pldmReadings (d : Dev) : Bytes :=
  let s := d.pwr.sensors
  s.dies.flatMap (fun t => toLE 2 (i16 t)) ++ toLE 2 (i16 s.inlet) ++ toLE 2 (i16 s.outlet) ++ toLE 2 s.vin ++ toLE 2 s.iin ++ toLE 2 s.pin ++ toLE 2 s.halfW
    ++ toLE 2 s.halfE ++ toLE 1 (match leader d with
      | some k => k.idx + 1
      | none => 0) ++ d.net.ports.flatMap (fun p => toLE 1 p.st.code) ++ toLE 1 (b2n d.host.w.linkUp) ++ toLE 1 (b2n d.host.e.linkUp)

def devPldm (msg : Bytes) (d : Dev) : Dev := emit (.sideband (0x01#8 :: Config.dmtfAnswer 1 (pldmReadings d ++ msg))) d

def execPldm (msg : Bytes) (s : State) : Host.Outcome State Fault Refusal := onDev s (powered (devPldm msg))

/-- The controller accepts an In-Band Interrupt (R413, R581). -/
def devIbiAccept (d : Dev) : Dev :=
  match d.ctl.side.ibi with
  | [] => d
  | v :: rest =>
    let d := emit (.ibi v) (d.onSide fun s => { s with ibi := rest })
    if rest = [] then dropAlert alIbi d else d

def execIbiAccept (s : State) : Host.Outcome State Fault Refusal := onDev s (powered devIbiAccept)

def devIbiDisabledTimeout (d : Dev) : Dev := if d.ctl.side.ibi = [] then d else dropAlert alIbi d

def execIbiDisabledTimeout (s : State) : Host.Outcome State Fault Refusal := onDev s (powered devIbiDisabledTimeout)

end Sys2Proof.Machine
end

