-- ==== Sys2Proof/Machine/Snapshot.lean ====
section
/-! DEFINITION. Snapshots: TENANT_SAVE and TENANT_RESTORE (13_tenants, R464 to R469). -/

namespace Sys2Proof.Machine

def pageCode (m : Mapping) : Nat := if m.page = 12 then 0 else if m.page = 21 then 1 else 2

def kindCode : QpKind → Nat
  | .loc => 0
  | .v2 => 1
  | .v1 => 2

/-- Codes of TO_STATE (R221); a queue pair still FLUSHING is written as ERROR (log 30). -/
def qpStateCode : QpState → Nat
  | .reset => 0
  | .init => 1
  | .rtr => 2
  | .rts => 3
  | .flushing => 4
  | .error => 4

def mtuCode (n : Nat) : Nat := if n ≤ 1024 then 0 else if n ≤ 2048 then 1 else if n ≤ 4096 then 2 else 3

/-- Position of a number in a list. -/
def indexIn (l : List Nat) (n : Nat) : Nat := (l.findIdx? (· = n)).getD 0xFFFF

-- The parts of a snapshot (R465 to R467)

def snapSettings (d : Dev) (n : Nat) (t : Tenant) : Bytes :=
  let x := t.par
  toLE 4 x.memUnits ++ toLE 2 x.winCount ++ toLE 1 x.ropes ++ zpad 1 ++ toLE 4 x.winSlabs ++ toLE 4 x.qpMax ++ toLE 2 x.cqMax
    ++ toLE 2 x.msgLimit ++ toLE 1 x.fetchWeight ++ toLE 1 x.opWeight ++ toLE 1 x.opCtxLimit ++ zpad 1 ++ toLE 1 t.egress
    ++ toLE 1 ((d.net.tenantProfile.get? n).getD 0xFF) ++ zpad 38

def snapAlloc (x : Nat × Alloc) : Bytes := toLE 4 x.1 ++ toLE 4 (allocUnits x.2) ++ zpad 8

def snapMap (handles : List Nat) (m : Mapping) : Bytes :=
  toLE 8 (m.dva + 2 ^ 63) ++ toLE 4 (indexIn handles m.handle) ++ toLE 1 (pageCode m) ++ toLE 1 (b2n m.read + 2 * b2n m.write)
    ++ zpad 2 ++ toLE 8 m.off ++ toLE 8 m.len

def snapWin (x : Nat × Window) : Bytes :=
  let w := x.2
  toLE 8 (w.dva + 2 ^ 63) ++ toLE 8 w.len ++ toLE 4 x.1 ++ toLE 1 w.rights.toNat ++ toLE 1 w.peerMode ++ toLE 2 w.peerNode.toNat ++ zpad 8

def snapCq (x : Nat × Cq) : Bytes :=
  let c := x.2
  toLE 2 x.1 ++ toLE 1 (cqTile x.1) ++ toLE 1 c.log2 ++ toLE 2 c.vector.toNat ++ toLE 2 c.stallMs ++ toLE 8 c.addr.toNat ++ toLE 2 c.p
    ++ toLE 2 c.c ++ toLE 4 c.count.toNat ++ toLE 1 (if c.st = .overflow then 1 else 0) ++ zpad 7

def snapQp (cqns : List Nat) (x : Nat × Qp) : Bytes :=
  let q := x.2
  let a := q.par
  toLE 4 x.1 ++ toLE 1 (qpTile x.1) ++ toLE 1 (kindCode a.kind) ++ toLE 1 a.weight
    ++ toLE 1 (b2n a.sqStanding + 2 * b2n a.rqStanding + 4 * b2n a.noRq) ++ toLE 8 a.sqAddr.toNat ++ toLE 8 a.rqAddr.toNat
    ++ toLE 1 a.sqLog2 ++ toLE 1 a.rqLog2 ++ toLE 1 (qpStateCode q.st) ++ toLE 1 q.profile ++ toLE 2 (indexIn cqns a.sendCq)
    ++ toLE 2 (if a.noRq then 0xFFFF else indexIn cqns a.recvCq) ++ toLE 2 (sqP q) ++ toLE 2 (q.sq.c % (2 * sqSize q)) ++ toLE 2 (rqP q) ++ toLE 2 q.rq.c
    ++ toLE 4 q.waitMark.toNat
    ++ (if a.kind = .loc then zpad 8 else toLE 2 q.conn.peerNode.toNat ++ toLE 1 (mtuCode q.conn.mtu) ++ zpad 1 ++ toLE 4 q.conn.peerQpn.toNat)
    ++ zpad 12

/-- The whole snapshot of a tenant, its digest in place (R465). -/
def snapshot (d : Dev) (n : Nat) (t : Tenant) (carrier : Nat) : Bytes :=
  let al := tenAllocs d n
  let maps := (tabOf d n).maps
  let ws := snapWindows d n
  let cs := tenCqs d n
  let qs := tenQps d n
  let body := snapSettings d n t ++ al.flatMap snapAlloc ++ maps.flatMap (snapMap (al.map Prod.fst)) ++ ws.flatMap snapWin
    ++ cs.flatMap snapCq ++ qs.flatMap (snapQp (cs.map Prod.fst))
  let head := ascii "JSNP" ++ toLE 2 1 ++ toLE 2 (b2n (decide (carrier < 256))) ++ toLE 4 (snapLen d n) ++ toLE 2 n
    ++ toLE 2 (if carrier < 256 then carrier else 0xFFFF) ++ toLE 4 al.length ++ toLE 4 maps.length ++ toLE 4 ws.length
    ++ toLE 4 cs.length ++ toLE 4 qs.length ++ zpad 4 ++ toLE 8 d.pwr.tsc.toNat ++ deviceDigest d.svc
  head ++ slice (sha512 (head ++ zpad 64 ++ body)) 0 64 ++ body

/-- The tenant's memory passes to a carrier (R464 steps 1 to 4); its windows become FREE in every live tile, and with them the command is complete (R40). -/
def passAllocs (n carrier : Nat) (reply : ReplyDue) (d : Dev) : Dev :=
  let d := freeWindows (fun _ w => w.tenant = n) (some reply) (d.onXlt fun x => { x with tables := x.tables.erase n })
  let d := dropRuns n d
  let d := d.onMem fun m => { m with allocs := m.allocs.map fun (h, a) => (h, if a.tenant = n then { a with tenant := carrier } else a) }
  d.onTen n fun t => { t with carried := true }

/-- TENANT_SAVE (R464). -/
def devTenantSave (c : CmdSlot) : Dev → Dev :=
  runChk c 0x0205 (fun p _ => [(0, u32 p 0 < 256), (4, (u32 p 4 < 256 || u32 p 4 = 0xFFFFFFFF) && u32 p 4 ≠ u32 p 0),
      (8, addrOk c (u64 p 8) 64), (0x14, u32 p 0x14 = 0)]) fun p d =>
    let n := u32 p 0
    let car := u32 p 4
    withTenant c n false (fun t d =>
      let write (d : Dev) : Dev :=
        let b := snapshot d n t car
        if car < 256 then passAllocs n car ⟨c, 0x0205, stDone, some (u64 p 8, b)⟩ (leave c [] d)
        else finishRes c stDone (u64 p 8) b d
      if t.st ≠ .frozen || t.carried then finishAt c stBadParam 0 d
      else if 256 ≤ car then (if u32 p 0x10 < snapLen d n then finish c stBadLength d else write d)
      else match d.ten? car with
        | none => finishAt c stBadParam 4 d
        | some x =>
          if !mgmtOk c x then finishAt c stNotPermitted 4 d
          else if !(x.st = .active || x.st = .frozen) then finishAt c stBadParam 4 d
          else if u32 p 0x10 < snapLen d n then finish c stBadLength d
          else if x.par.memUnits < memUsed d car + ((tenAllocs d n).map fun (_, a) => allocUnits a).sum then quotaHit c car 1 d
          else write d) d

def execTenantSave (c : CmdSlot) (s : State) : Host.Outcome State Fault Refusal := onDev s (live (devTenantSave c))

-- TENANT_RESTORE (R468, R469)

/-- A snapshot as read: counts, and the entries of each section. -/
structure Snap where
  settings : Bytes
  allocs : List Bytes
  maps : List Bytes
  wins : List Bytes
  cqs : List Bytes
  qps : List Bytes
  deriving DecidableEq, Repr

/-- n entries of k bytes from an offset. -/
def entriesAt (b : Bytes) (off k n : Nat) : List Bytes := (List.range n).map fun i => slice b (off + k * i) k

def parseSnap (b : Bytes) : Snap :=
  let na := u32 b 0x10
  let nm := u32 b 0x14
  let nw := u32 b 0x18
  let nc := u32 b 0x1C
  let nq := u32 b 0x20
  let o := 192
  { settings := slice b 128 64
    allocs := entriesAt b o 16 na
    maps := entriesAt b (o + 16 * na) 32 nm
    wins := entriesAt b (o + 16 * na + 32 * nm) 32 nw
    cqs := entriesAt b (o + 16 * na + 32 * (nm + nw)) 32 nc
    qps := entriesAt b (o + 16 * na + 32 * (nm + nw + nc)) 64 nq }

/-- Header of a snapshot whose length is len, its fields in range, and its digest (check 2 of R468). The lengths are tested before the sections are read. -/
def snapHeadOk (b : Bytes) (len : Nat) : Bool :=
  slice b 0 4 = ascii "JSNP" && u16 b 4 = 1 && u16 b 6 < 2 && u32 b 8 = len && b.length = len
    && 192 + 16 * u32 b 0x10 + 32 * (u32 b 0x14 + u32 b 0x18 + u32 b 0x1C) + 64 * u32 b 0x20 = len
    && u16 b 0xC < 256 && (u16 b 0xE < 256 || u16 b 0xE = 0xFFFF) && zeros b 0x24 4
    && slice b 0x40 64 = slice (sha512 (patch b 0x40 (zpad 64))) 0 64

def mapOf (m : Bytes) (handles : List Nat) : Mapping :=
  { dva := u64 m 0 % 2 ^ 48, len := u64 m 0x18, handle := nth handles (u32 m 8) 0, off := u64 m 0x10, page := pageOf (u8 m 0xC),
    read := tb (u8 m 0xD) 0, write := tb (u8 m 0xD) 1 }

def dvaOk (a align : Nat) : Bool := isDva a && fld a 48 15 = 0 && a % align = 0

/-- Bytes 0x20 to 0x37 of TENANT_CREATE, in the ranges of R445 (R465). -/
def settingsOk (s : Bytes) : Bool :=
  u32 s 0 ≤ 784384 && u16 s 4 ≤ 16384 && u8 s 6 ≤ 64 && u8 s 7 = 0 && u32 s 8 ≤ 65535 && u32 s 0xC ≤ 65536 && u16 s 0x10 ≤ 16384
    && u16 s 0x12 ≤ 16384 && 1 ≤ u8 s 0x14 && 1 ≤ u8 s 0x15 && u8 s 0x16 ≤ 64 && u8 s 0x17 = 0

/-- Fields and indices of the settings and the sections in range, reserved ones 0 (check 2 of R468). -/
def snapFieldsOk (x : Snap) : Bool :=
  let na := x.allocs.length
  let nc := x.cqs.length
  let mapOk (m : Bytes) : Bool :=
    let sz := 2 ^ pageOf (u8 m 0xC)
    u32 m 8 < na && u8 m 0xC ≤ 2 && 1 ≤ u8 m 0xD && u8 m 0xD ≤ 3 && dvaOk (u64 m 0) sz && u64 m 0x10 % sz = 0 && u64 m 0x18 % sz = 0
      && u64 m 0x18 ≠ 0 && u64 m 0 % 2 ^ 48 + u64 m 0x18 ≤ 2 ^ 48
      && u64 m 0x10 + u64 m 0x18 ≤ u32 (nth x.allocs (u32 m 8) []) 4 * unitBytes
  let maps := x.maps.map fun m => mapOf m []
  let apart := (List.range maps.length).all fun i => (maps.drop (i + 1)).all fun m =>
    let y := nth maps i ⟨0, 0, 0, 0, 0, false, false⟩
    !meets y.dva y.len m.dva m.len
  let winOk (w : Bytes) : Bool :=
    dvaOk (u64 w 0) 4096 && u64 w 8 % 4096 = 0 && u64 w 8 ≠ 0 && u64 w 8 ≤ 1536 * 2 ^ 30 && u64 w 0 % 2 ^ 48 + u64 w 8 ≤ 2 ^ 48
      && u32 w 0x10 < 16384 && 1 ≤ u8 w 0x14 && u8 w 0x14 ≤ 15 && u8 w 0x15 ≤ 1
      && (if u8 w 0x15 = 0 then u16 w 0x16 = 0 else nodeForm (u16 w 0x16))
  let cqOk (c : Bytes) : Bool :=
    u16 c 0 < 16384 && u8 c 2 = u16 c 0 / 2048 && 4 ≤ u8 c 3 && u8 c 3 ≤ 15 && (u16 c 4 ≤ 2047 || u16 c 4 = 0xFFFF) && u16 c 6 ≤ 1000
      && u64 c 8 % 4096 = 0 && u16 c 0x10 < 2 * 2 ^ u8 c 3 && u16 c 0x12 < 2 * 2 ^ u8 c 3 && u8 c 0x18 ≤ 1
  let qpOk (q : Bytes) : Bool :=
    let loc := u8 q 5 = 0
    let noRq := tb (u8 q 7) 2 || loc
    u32 q 0 < 65536 && u8 q 4 = u32 q 0 / 8192 && u8 q 5 ≤ 2 && 1 ≤ u8 q 6 && u8 q 6 ≤ 16 && u8 q 7 < 8 && !(tb (u8 q 7) 1 && noRq)
      && u64 q 8 % 4096 = 0 && u64 q 0x10 % 4096 = 0 && 4 ≤ u8 q 0x18 && u8 q 0x18 ≤ 15 && (noRq || (4 ≤ u8 q 0x19 && u8 q 0x19 ≤ 15))
      && u8 q 0x1A ≤ 4 && (!loc || u8 q 0x1A ≠ 2) && u8 q 0x1B ≤ 15 && u16 q 0x1C < nc && (if noRq then u16 q 0x1E = 0xFFFF else u16 q 0x1E < nc)
      && u16 q 0x20 < 2 * 2 ^ u8 q 0x18 && u16 q 0x22 < 2 * 2 ^ u8 q 0x18 && (noRq || (u16 q 0x24 < 2 * 2 ^ u8 q 0x19 && u16 q 0x26 < 2 * 2 ^ u8 q 0x19))
  let wire (q : Bytes) : Bool :=
    if u8 q 5 = 0 then zeros q 0x2C 8 else (u16 q 0x2C = 0 || nodeForm (u16 q 0x2C)) && u8 q 0x2E ≤ 3 && u8 q 0x2F = 0 && u32 q 0x30 < 2 ^ 24
  let unused := x.allocs.all (fun a => zeros a 8 8) && x.maps.all (fun m => zeros m 0xE 2) && x.wins.all (fun w => zeros w 0x18 8)
    && x.cqs.all (fun c => zeros c 0x19 7) && x.qps.all (fun q => zeros q 0x34 12) && zeros x.settings 0x1A 38
  settingsOk x.settings && x.qps.all wire && unused && u8 x.settings 0x18 ≤ 5 && (u8 x.settings 0x19 ≤ 15 || u8 x.settings 0x19 = 0xFF)
    && x.maps.all mapOk && apart && x.wins.all winOk && x.cqs.all cqOk && x.qps.all qpOk

/-- A ring of the snapshot is a host address (check 5 of R468). -/
def hostRing (x : Snap) : Bool :=
  x.cqs.any (fun c => !isDva (u64 c 8)) || x.qps.any fun q => !isDva (u64 q 8) || (u64 q 0x10 ≠ 0 && !isDva (u64 q 0x10))

/-- A place of a queue pair or completion queue is free: not in use, and no stub stands there (R460). -/
def qpFree (d : Dev) (n : Nat) : Bool := (d.qp? n).isNone && (d.ten.stubs.get? n).isNone
def cqFree (d : Dev) (n : Nat) : Bool := (d.cq? n).isNone

/-- The number an object takes: its old one when free, else the lowest free of its tile (R469). -/
def newNumber (free : Nat → Bool) (used : List Nat) (old lo n : Nat) : Option Nat :=
  let ok (k : Nat) : Bool := free k && !used.contains k
  if ok old then some old else findFrom ok n lo

/-- Numbers for a section in order; none when a tile lacks a place. -/
def newNumbers (pick : List Nat → Nat → Option Nat) : List Nat → List Nat → Option (List Nat)
  | [], _ => some []
  | o :: r, used => match pick used o with
    | none => none
    | some n => (newNumbers pick r (n :: used)).map (n :: ·)

def restoreCqNumbers (d : Dev) (x : Snap) : Option (List Nat) :=
  newNumbers (fun used o => if tileUp d (cqTile o) then newNumber (cqFree d) used o (cqTile o * 2048) 2048 else none) (x.cqs.map (u16 · 0)) []

def restoreQpNumbers (d : Dev) (x : Snap) : Option (List Nat) :=
  newNumbers (fun used o => if tileUp d (qpTile o) then newNumber (qpFree d) used o (qpTile o * 8192) 8192 else none) (x.qps.map (u32 · 0)) []

def restoreWinNumbers (d : Dev) (x : Snap) : Option (List Nat) :=
  newNumbers (fun used o => newNumber (fun w => (d.win? w).isNone) used o 0 16384) (x.wins.map (u32 · 0x10)) []

def makeCq (t : Nat) (c : Bytes) : Cq :=
  { tenant := t, log2 := u8 c 3, vector := BitVec.ofNat 16 (u16 c 4), addr := BitVec.ofNat 64 (u64 c 8), stallMs := if u16 c 6 = 0 then 10 else u16 c 6,
    st := if u8 c 0x18 = 1 then .overflow else .open, p := u16 c 0x10, c := u16 c 0x12, count := BitVec.ofNat 32 (u32 c 0x14) }

/-- A restored queue pair (R469 step 4). -/
def makeQp (d : Dev) (t : Nat) (cqs : List Nat) (q : Bytes) : Qp :=
  let kind : QpKind := if u8 q 5 = 0 then .loc else if u8 q 5 = 1 then .v2 else .v1
  let noRq := tb (u8 q 7) 2 || kind = .loc
  let par : QpParams :=
    { tenant := t, kind := kind, weight := u8 q 6, sqStanding := tb (u8 q 7) 0, rqStanding := tb (u8 q 7) 1, noRq := noRq,
      sqAddr := BitVec.ofNat 64 (u64 q 8), rqAddr := BitVec.ofNat 64 (u64 q 0x10), sqLog2 := u8 q 0x18, rqLog2 := u8 q 0x19,
      sendCq := nth cqs (u16 q 0x1C) 0, recvCq := if noRq then 0xFFFF else nth cqs (u16 q 0x1E) 0 }
  let code := u8 q 0x1A
  let st : QpState := if code = 0 then .reset else if code = 4 then .error
    else if kind = .loc then (if code = 3 then .rts else .init) else .init
  let ring (standing : Bool) (s p c : Nat) : WorkRing := { p := p, c := c, f := c, started := standing && ringSub s p c = s }
  { par := par, st := st, sq := ring par.sqStanding (2 ^ par.sqLog2) (u16 q 0x20) (u16 q 0x22),
    rq := ring par.rqStanding (2 ^ par.rqLog2) (u16 q 0x24) (u16 q 0x26), waitMark := BitVec.ofNat 32 (u32 q 0x28),
    profile := if d.net.defined.contains (u8 q 0x1B) then u8 q 0x1B else 0 }

/-- The restore itself (R469) with the numbers taken. -/
def restoreAll (t : Nat) (x : Snap) (handles cqs qps wins : List Nat) (d : Dev) : Dev :=
  let d := d.onMem fun m => { m with allocs := m.allocs.map fun (h, a) => (h, if handles.contains h then { a with tenant := t } else a) }
  let maps := x.maps.map fun m => mapOf m handles
  let d := onTab t (fun y => { y with maps := maps.foldl insMap y.maps }) d
  let d := (cqs.zip x.cqs).foldl (fun d (n, c) => d.onQ fun q => { q with cqs := q.cqs.set n (makeCq t c) }) d
  let d := (qps.zip x.qps).foldl (fun d (n, b) =>
    d.onQ fun q => { q with qps := q.qps.set n (makeQp d t cqs b), tombs := q.tombs.erase n, gone := q.gone.erase n }) d
  let d := d.onTen t fun y => { y with egress := u8 x.settings 0x18 }
  let d := d.onNet fun y => { y with tenantProfile := if u8 x.settings 0x19 = 0xFF then y.tenantProfile else y.tenantProfile.set t (u8 x.settings 0x19) }
  (wins.zip x.wins).foldl (fun d (w, b) =>
    openWindow w t (u64 b 0 % 2 ^ 48) (u64 b 8) (u8 b 0x14) (u8 b 0x15) (u16 b 0x16) d) d

def restoreResult (d : Dev) (x : Snap) (cqs qps wins : List Nat) : Bytes :=
  let pair (o n : Nat) : Bytes := toLE 4 o ++ toLE 4 n
  toLE 4 qps.length ++ toLE 4 cqs.length ++ toLE 4 wins.length ++ zpad 4
    ++ (x.qps.zip qps).flatMap (fun (b, n) => pair (u32 b 0) n) ++ (x.cqs.zip cqs).flatMap (fun (b, n) => pair (u16 b 0) n)
    ++ (x.wins.zip wins).flatMap fun (b, n) => pair (u32 b 0x10) n ++ toLE 4 (((d.win? n).map (·.key.toNat)).getD 0) ++ zpad 4

/-- Checks 3 to 8 of R468 and the restore; it is answered when every live tile has the windows open (R40). -/
def restoreChecked (c : CmdSlot) (p : Bytes) (t : Tenant) (x : Snap) (handles : List Nat) (d : Dev) : Dev :=
  let n := u32 p 0
  let donor := u32 p 4
  let owned := handles.all fun h => match d.alloc? h with
    | some a => a.tenant = donor && !a.zeroing
    | none => false
  let units := ((handles.filterMap d.alloc?).map allocUnits).sum
  let sameUnits := (x.allocs.zip handles).all fun (b, h) => ((d.alloc? h).map allocUnits) = some (u32 b 4)
  let hugeOk := x.maps.all fun m => u8 m 0xC ≠ 2 || ((d.alloc? (nth handles (u32 m 8) 0)).map (·.huge)) = some true
  let maps := x.maps.map fun m => mapOf m handles
  let tables := (maps.flatMap tablesOf).dedup
  let slabs := (x.wins.map fun w => ceilDiv (u64 w 8) (2 ^ 30)).sum
  if !owned || !decide handles.Nodup then finish c stNotOwner d
  else if handles.any (allocCovered d) then finish c stBusy d
  else if !sameUnits || !hugeOk || (hostRing x && t.par.pasid.isNone) then finish c stBadParam d
  else if t.par.memUnits < units + 2 * ceilDiv tables.length 512 then quotaHit c n 1 d
  else if t.par.winCount < x.wins.length then quotaHit c n 2 d
  else if t.par.winSlabs < slabs then quotaHit c n 3 d
  else if t.par.qpMax < x.qps.length then quotaHit c n 4 d
  else if t.par.cqMax < x.cqs.length then quotaHit c n 5 d
  else match restoreCqNumbers d x, restoreQpNumbers d x, restoreWinNumbers d x, placeTables n tables d with
    | some cqs, some qps, some wins, some d' =>
      let same := cqs = x.cqs.map (u16 · 0) && qps = x.qps.map (u32 · 0) && wins = x.wins.map (u32 · 0x10)
      if tb (u8 p 8) 0 && !same then finish c stNoResource d
      else if u32 p 0x28 < 16 + 8 * (qps.length + cqs.length) + 16 * wins.length then finish c stBadLength d
      else
        let d := restoreAll n x handles cqs qps wins d'
        let res := restoreResult d x cqs qps wins
        replFinish c 0x0206 stDone (some (u64 p 0x20, res)) (wins.map .windowOpen) (postEvent n 0x13 n qps.length wins.length d)
    | _, _, _, _ => finish c stNoResource d

def tenantRestoreChk (c : CmdSlot) (p : Bytes) (_ : Dev) : List (Nat × Bool) :=
  [(0, u32 p 0 < 256), (4, u32 p 4 < 256), (8, u8 p 8 ≤ 1), (9, zeros p 9 3), (0x10, addrOk c (u64 p 0x10) 64),
   (0x18, addrOk c (u64 p 0x18) 4), (0x20, addrOk c (u64 p 0x20) 64), (0x2C, u32 p 0x2C = 0)]

/-- TENANT_RESTORE (R468, R469): snap and handles are what the device reads at SNAP_ADDR and HANDLES_ADDR. -/
def devTenantRestore (c : CmdSlot) (snap handles : Bytes) (d : Dev) : Dev :=
  if keysFlow d then runChk c 0x0206 (tenantRestoreChk c) (fun p d =>
    let n := u32 p 0
    withTenant c n false (fun t d =>
      match d.ten? (u32 p 4) with
      | none => finishAt c stBadParam 4 d
      | some don =>
        if !mgmtOk c don then finishAt c stNotPermitted 4 d
        else if t.st ≠ .frozen || tenAllocs d n ≠ [] || tenWindows d n ≠ [] || tenQps d n ≠ [] || tenCqs d n ≠ [] || tenRopes d n ≠ [] then
          finishAt c stBadParam 0 d
        else if !snapHeadOk snap (u32 p 0xC) || !snapFieldsOk (parseSnap snap) then finish c stVerifyFailed d
        else
          let x := parseSnap snap
          restoreChecked c p t x ((List.range x.allocs.length).map fun i => u32 handles (4 * i)) d) d) d else d

def execTenantRestore (c : CmdSlot) (snap handles : Bytes) (s : State) : Host.Outcome State Fault Refusal :=
  onDev s (live (devTenantRestore c snap handles))

end Sys2Proof.Machine
end

