-- ==== Sys2Proof/Machine/Qp.lean ====
section
/-! DEFINITION. Doorbells, fetching, queue pairs and completion queues, local transfers, WAIT (06_rings_qps_verbs, R23, R30, R31, R58, R449). -/

namespace Sys2Proof.Machine

-- Doorbells (R196 to R199, R225, R227, R229, R232, R449)

/-- The tenant whose page a requester may write from a port, as that port's host-interface die sees it (R38, R449). -/
def pageTenant (d : Dev) (p : Side) (requester : BitVec 16) (page : Nat) : Option Tenant :=
  match d.ten? page, tenCopy d (8 + p.idx) page with
  | some t, some c => if c.port = p && (!c.acceptList || (requester ≠ 0#16 && c.accept.contains requester)) then some t else none
  | _, _ => none

/-- A producer index that R198 accepts. -/
def prodOk (s p c i : Nat) : Bool := i < 2 * s && ringSub s p c ≤ ringSub s i c && ringSub s i c ≤ s

/-- A consumer index that R198 accepts. -/
def consOk (s p c i : Nat) : Bool := i < 2 * s && ringSub s p i ≤ ringSub s p c

/-- A work ring takes a doorbell (R198, R225): a standing ring starts by INDEX S, once. -/
def bellRing (standing dead : Bool) (s i : Nat) (r : WorkRing) : Option WorkRing :=
  let fresh := r.p = 0 && r.c = 0 && r.f = 0
  if standing && (r.started || (fresh && i ≠ s)) then none
  else if prodOk s r.p r.c i then some { r with p := i, started := r.started || (standing && !dead) }
  else none

/-- An arm is used at once when the ring holds an entry (R229). -/
def armCq (n : Nat) (d : Dev) : Dev :=
  match d.cq? n with
  | none => d
  | some c =>
    if c.vector = 0xFFFF#16 then d
    else if c.p ≠ c.c then msix (tenPort d c.tenant) c.vector.toNat (d.onCq n fun c => { c with armed := false })
    else d.onCq n fun c => { c with armed := true }

def armEv (n : Nat) (d : Dev) : Dev :=
  match d.ten? n with
  | none => d
  | some t =>
    if t.par.evqVector = 0xFFFF#16 then d
    else if t.ev.p ≠ t.ev.c then msix t.par.port t.par.evqVector.toNat (d.onTen n fun t => { t with ev := { t.ev with armed := false } })
    else d.onTen n fun t => { t with ev := { t.ev with armed := true } }

/-- A doorbell of tenant t takes effect, none where R198 discards it. KIND 0 send queue, 1 receive queue, 2 completion queue, 3 event ring. -/
def bellApply (t kind number i : Nat) (arm : Bool) (d : Dev) : Option Dev :=
  if kind = 0 || kind = 1 then
    match d.qp? number with
    | none => none
    | some q =>
      let dead := q.st = .flushing || q.st = .error
      if q.par.tenant ≠ t || arm || q.st = .reset then none
      else if kind = 0 then
        (bellRing q.par.sqStanding dead (sqSize q) i q.sq).map fun r => d.onQp number fun q => { q with sq := r }
      else if q.par.noRq then none
      else (bellRing q.par.rqStanding dead (rqSize q) i q.rq).map fun r => d.onQp number fun q => { q with rq := r }
  else if kind = 2 then
    match d.cq? number with
    | none => none
    | some c =>
      if c.tenant ≠ t || !consOk (cqSize c) c.p c.c i then none
      else
        let d := d.onCq number fun c => { c with c := i, timer := c.timer && c.c = i }
        let d := cqDrain number d
        some (if arm then armCq number d else d)
  else if kind = 3 then
    match d.ten? t with
    | none => none
    | some x =>
      if number ≠ 0 || !consOk (evSize x) x.ev.p x.ev.c i then none
      else
        let d := eventDrain t (d.onTen t fun x => { x with ev := { x.ev with c := i } })
        some (if arm then armEv t d else d)
  else none

/-- A doorbell that R198 discards. -/
def bellReject (t : Nat) (d : Dev) : Dev := tenCount t 0 1 (d.onTen t fun x => { x with dbReject := true })

/-- A doorbell takes effect at the tile that owns the ring, or is discarded there. -/
def bellLand (p : Side) (page kind number index : Nat) (arm : Bool) (d : Dev) : Dev :=
  match bellApply page kind number index arm d with
  | some d => count 0x030F p.idx (some page) 1 d
  | none => bellReject page d

/-- The tile that owns the ring a doorbell names; a tenant's event ring is the host interface's own. -/
def bellTile (kind number : Nat) : Option Nat :=
  if kind = 0 || kind = 1 then some (qpTile number % 8) else if kind = 2 then some (cqTile number % 8) else none

/-- A doorbell reaches a page (R449, R457): it crosses to its tile in order (R30 step 1, R17); it is held in Bivouac and wakes the device, and ends an entry to Bivouac (R537, R538). -/
def devBell (p : Side) (requester : BitVec 16) (page kind : Nat) (number index : BitVec 16) (arm : Bool) (d : Dev) : Dev :=
  match pageTenant d p requester page with
  | none => hostWrongPort p d
  | some t =>
    if t.st = .resetting || t.st = .destroying then d
    else if d.pwr.state = .bivouac || d.pwr.state = .waking then
      wakeDev (d.onPwr fun w => { w with bellsHeld := w.bellsHeld ++ [.bell p requester page kind number index arm] })
    else
      let d := bivAbort d
      let land := bellLand p page kind number.toNat index.toNat arm
      match bellTile kind number.toNat with
      | some o => crossOr (bellFlow p o) (.bell p requester page kind number index arm) land d inHost
      | none => land d

def execSqDoorbell (p : Side) (requester : BitVec 16) (page : Nat) (number index : BitVec 16) (arm : Bool) (s : State) :
    Host.Outcome State Fault Refusal := onDev s (liveQ (devBell p requester page 0 number index arm))

def execRqDoorbell (p : Side) (requester : BitVec 16) (page : Nat) (number index : BitVec 16) (arm : Bool) (s : State) :
    Host.Outcome State Fault Refusal := onDev s (liveQ (devBell p requester page 1 number index arm))

def execCqDoorbell (p : Side) (requester : BitVec 16) (page : Nat) (number index : BitVec 16) (s : State) :
    Host.Outcome State Fault Refusal := onDev s (liveQ (devBell p requester page 2 number index false))

def execEventRingDoorbell (p : Side) (requester : BitVec 16) (page : Nat) (number index : BitVec 16) (s : State) :
    Host.Outcome State Fault Refusal := onDev s (liveQ (devBell p requester page 3 number index false))

def execArm (p : Side) (requester : BitVec 16) (page : Nat) (event : Bool) (number index : BitVec 16) (s : State) :
    Host.Outcome State Fault Refusal := onDev s (liveQ (devBell p requester page (if event then 3 else 2) number index true))

-- Fetching (R195, R200, R201, R23, R24)

/-- A RECV that no message has taken and that has not ended. -/
def recvWaits (r : Recv) : Bool := r.msn.isNone && r.fin.isNone

/-- The consumer index of each queue names its first entry not begun (log 25). -/
def tidyIdx (q : Qp) : Qp :=
  { q with
    sq := { q.sq with c := (q.fetched.head?.map (·.idx)).getD q.sq.f }
    rq := { q.rq with c := ((q.recvs.find? recvWaits).map (·.idx)).getD q.rq.f } }

def qpDead (q : Qp) : Bool := q.st = .flushing || q.st = .error

/-- Where the next entry of a queue lies. -/
def nextAddr (q : Qp) (rq : Bool) : Nat :=
  if rq then q.par.rqAddr.toNat + q.rq.f % rqSize q * 64 else q.par.sqAddr.toNat + q.sq.f % sqSize q * 64

/-- The tile can read the next entry of the ring now (R12, R21, R387); an address that does not translate is a fault of the fetch. -/
def ringReach (d : Dev) (n : Nat) (q : Qp) (rq : Bool) : Bool :=
  match xrange d (qpTile n) q.par.tenant (nextAddr q rq) 64 false with
  | .ok l => placesOpen d (qpTile n) l
  | .error _ => true

def tenActive (d : Dev) (t : Nat) : Bool :=
  match d.ten? t with
  | some x => x.st = .active
  | none => false

/-- Entries a turn of the send queue may read (R200, R201, R223). -/
def sqAvail (d : Dev) (n : Nat) (q : Qp) : Nat :=
  if q.sq.stalled || q.sq.refetch ≠ 0 || sqLeft q = 0 || !ringReach d n q false then 0
  else if qpDead q then sqLeft q
  else if q.st ≠ .rts || !tenActive d q.par.tenant || (q.par.sqStanding && !q.sq.started)
      || q.fetched.any (fun f => weVerb f.bytes = vbWait || weFence f.bytes)
      || q.begun.any (fun b => weVerb b.bytes = vbWait && b.fin.isNone) then 0
  else min (sqLeft q) (16 - q.fetched.length)

/-- RECVs in a row whose slots are free: a standing slot is ready again once its last completion is counted (R225). -/
def slotsFree (q : Qp) : Nat → Nat → Nat
  | 0, _ => 0
  | n + 1, i => if q.par.rqStanding && q.recvs.any (fun r => r.idx % rqSize q = i % rqSize q) then 0 else slotsFree q n (i + 1) + 1

/-- Entries a turn of the receive queue may read. -/
def rqAvail (d : Dev) (n : Nat) (q : Qp) : Nat :=
  if q.par.noRq || q.rq.stalled || q.rq.refetch ≠ 0 || rqLeft q = 0 || !ringReach d n q true then 0
  else if qpDead q then rqLeft q
  else if q.st = .reset || !tenActive d q.par.tenant || (q.par.rqStanding && !q.rq.started) then 0
  else slotsFree q (min 8 (min (rqLeft q) (64 - (q.recvs.filter recvWaits).length))) q.rq.f

/-- A queue pair of the tile with something to read. -/
structure Cand where
  tenant : Nat
  qpn : Nat
  sq : Nat
  rq : Nat
  deriving DecidableEq, Repr

def fetchCands (d : Dev) (tile : Nat) : List Cand :=
  (d.q.qps.filter fun (n, _) => qpTile n = tile).filterMap fun (n, q) =>
    let c : Cand := ⟨q.par.tenant, n, sqAvail d n q, rqAvail d n q⟩
    if c.sq = 0 && c.rq = 0 then none else some c

/-- The first number of a rising list after cur, else the first. -/
def nextAfter (l : List Nat) (cur : Nat) : Nat := (l.find? fun n => cur < n).getD (l.headD 0)

/-- The tenant in turn and its deficit (R200 step 1). -/
def drrTenant (last : Nat) (defs : Tab Nat) (quantum : Nat → Nat) (ts : List Nat) : Nat × Nat :=
  if ts.contains last && defs.getD last 0 ≠ 0 then (last, defs.getD last 0)
  else let t := nextAfter ts last; (t, defs.getD t 0 + quantum t)

/-- The tracker has no credit for a message of the tenant: only WAIT and RECV entries are fetched (R23, R448). -/
def trackerFull (d : Dev) (tile t : Nat) : Bool :=
  16384 ≤ trackerUsed d tile || ((d.ten? t).map (·.par.msgLimit)).getD 0 ≤ tenantTracker d t tile

/-- A send-queue entry has been read after k re-reads. False: the rest of the burst is left (R195, R201, R23, R24). -/
def fetchSq (n k : Nat) (b : Bytes) (d : Dev) : Bool × Dev :=
  match d.qp? n with
  | none => (false, d)
  | some q =>
    let tile := qpTile n
    let full := (weVerb b ≠ vbWait && trackerFull d tile q.par.tenant) || (weVerb b = vbOperate && 1024 ≤ pendingUsed d tile)
    if qpDead q && full then (false, d)
    else if qpDead q then
      (true, d.onQp n fun q => tidyIdx { q with
        sq := { q.sq with f := q.sq.f + 1, refetch := 0 }
        begun := q.begun ++ [{ idx := q.sq.f, bytes := b, msn := none, fin := some ⟨ccFlushed, 0, 0, 0#64⟩ }] })
    else
      let late := !(q.par.sqStanding && q.sq.started) && tb (u8 b 1) 0 ≠ phaseOf (sqSize q) q.sq.f
      let fail := if late then some (ccMalformed, 0x20) else weCheck d n q false b
      if late && k < 3 then (false, d.onQp n fun q => { q with sq := { q.sq with refetch := k + 1 } })
      else if full then
        (false, d.onQp n fun q => { q with sq := { q.sq with refetch := 0 } })
      else
        (!(weVerb b = vbWait || weFence b), d.onQp n fun q => tidyIdx { q with
          sq := { q.sq with f := q.sq.f + 1, refetch := 0 }
          fetched := q.fetched ++ [⟨q.sq.f, b, fail⟩] })

/-- A receive-queue entry has been read after k re-reads (R195, R201, R205): its buffer is translated now (R164). One that fails its checks takes no RECV number (R257; log 103). -/
def fetchRq (n k : Nat) (b : Bytes) (d : Dev) : Bool × Dev :=
  match d.qp? n with
  | none => (false, d)
  | some q =>
    let push (fin : Option (WorkEnd × Option (BitVec 32))) (runs : List (Place × Nat)) (q : Qp) : Qp := tidyIdx { q with
      rq := { q.rq with f := ringAdd (rqSize q) q.rq.f 1, refetch := 0, held := [] }
      recvOrd := if fin.isNone then q.recvOrd + 1 else q.recvOrd
      recvs := q.recvs ++ [{ ord := q.recvOrd, idx := q.rq.f, bytes := b, fin := fin, runs := runs }] }
    let ends (code detail : Nat) : Option (WorkEnd × Option (BitVec 32)) := some (⟨code, detail, 0, 0#64⟩, none)
    if qpDead q then (true, d.onQp n (push (ends ccFlushed 0) []))
    else
      let late := !(q.par.rqStanding && q.rq.started) && tb (u8 b 1) 0 ≠ phaseOf (rqSize q) q.rq.f
      if late && k < 3 then (false, d.onQp n fun q => { q with rq := { q.rq with refetch := k + 1 } })
      else if late then (true, d.onQp n (push (ends ccMalformed 0x20) []))
      else match weCheck d n q true b with
        | some (code, detail) =>
          let d := d.onQp n (push (ends code detail) [])
          if codeErr code then (false, toFlush n (some code) none (count 0x040F 0 (some q.par.tenant) 1 d)) else (true, d)
        | none =>
          match xrange d (qpTile n) q.par.tenant (weLocal b) (weLen b) true with
          | .ok l => (true, (lookupRange (qpTile n) q.par.tenant (weLocal b) (weLen b) (.work (.rqFetch n) true) d).onQp n (push none l))
          | .error e =>
            let d := d.onQp n fun q => { q with rq := { q.rq with held := b, refetch := 0 } }
            match stallOn (qpTile n) q.par.tenant true (.rqFetch n) e d with
            | (.waits, d) => (false, stallStream (.rqFetch n) d)
            | (.refused, d) => (false, fetchFail n true ccLocalAccess 0x10 d)
            | (.unresolved, d) => (false, fetchFail n true ccFaultUnresolved 0x13 d)

/-- The read of one ring entry: its bytes, from the operand where the ring lies in host memory; a poisoned or lost place; an address that does not translate. -/
inductive RingRead where
  | bytes (b : Bytes)
  | bad (detail : Nat)
  | err (e : XErr)

def ringRead (d : Dev) (tile t addr : Nat) (host : Bytes) : RingRead :=
  match xrange d tile t addr 64 false with
  | .error e => .err e
  | .ok ((.dev p, _) :: _) =>
    if stackOffline d (dpaStack p) then .bad 0x15
    else match memRead? d p 64 with
      | some b => .bytes b
      | none => .bad 0x14
  | .ok _ => .bytes (slice host 0 64)

def ringWho (n : Nat) (rq : Bool) : Waiter := if rq then .rqFetch n else .sqFetch n

/-- One entry of a queue pair's ring is read after k re-reads. -/
def fetchOne (n k : Nat) (rq : Bool) (b : Bytes) (d : Dev) : Bool × Dev := if rq then fetchRq n k b d else fetchSq n k b d

/-- Read m entries in a row; an address that fails stops the burst, and stalls the queue when it is its first (R164). -/
def fetchBurst (n : Nat) (rq : Bool) : Nat → Bool → Bytes → Dev → Dev
  | 0, _, _, d => d
  | m + 1, first, host, d =>
    match d.qp? n with
    | none => d
    | some q =>
      let tile := qpTile n
      let d := touchRange tile q.par.tenant (nextAddr q rq) 64 false d
      if rq && q.rq.held ≠ [] then (fetchRq n 3 q.rq.held d).2
      else match ringRead d tile q.par.tenant (nextAddr q rq) host with
        | .bytes b =>
          let (go, d) := fetchOne n 0 rq b d
          if go then fetchBurst n rq m false (host.drop 64) d else d
        | .bad detail => fetchFail n rq ccUncorrectable detail d
        | .err e =>
          if !first then d
          else match stallOn tile q.par.tenant false (ringWho n rq) e d with
            | (.waits, d) => stallStream (ringWho n rq) d
            | (.refused, d) => fetchFail n rq ccLocalAccess 0x10 d
            | (.unresolved, d) => fetchFail n rq ccFaultUnresolved 0x13 d

/-- A fetch unit's turn: the tenant by deficit round robin, its queue pair by weighted round robin, its two queues in alternation, one burst (R200). -/
def devWorkFetch (tile : Nat) (host : Bytes) (d : Dev) : Dev :=
  let cs := fetchCands d tile
  if !tileUp d tile || d.pwr.state ≠ .active || cs = [] then d
  else
    let ts := (cs.map (·.tenant)).foldl insNat []
    let defs := nth d.q.deficits tile []
    let quantum (t : Nat) : Nat := 8 * ((tenCopy d tile t).map (·.fetchWeight)).getD 1
    let (t, credit) := drrTenant (nth d.q.lastTenant tile 0) defs quantum ts
    let mine : List Cand := cs.filter (·.tenant = t)
    let fresh (n : Nat) : Nat × Nat := (n, ((d.qp? n).map (·.par.weight)).getD 1 - 1)
    let (n, left) := match (nth d.q.lastQueue tile []).get? t with
      | some (q, turns) => if turns ≠ 0 && mine.any (fun c => c.qpn = q) then (q, turns - 1) else fresh (nextAfter (mine.map Cand.qpn) q)
      | none => fresh ((mine.map Cand.qpn).headD 0)
    match mine.find? (·.qpn = n), d.qp? n with
    | some c, some q =>
      let rq := c.rq ≠ 0 && (c.sq = 0 || !q.lastRq)
      let s := if rq then rqSize q else sqSize q
      let f := if rq then q.rq.f else q.sq.f
      let m := min (min 8 (if rq then c.rq else c.sq)) (min credit (s - f % s))
      let d := d.onQ fun x => { x with
        lastTenant := modAt x.lastTenant tile fun _ => t
        deficits := modAt x.deficits tile fun _ => (defs.filter fun (k, _) => ts.contains k).set t (credit - m)
        lastQueue := modAt x.lastQueue tile fun l => l.set t (n, left) }
      let d := lookupRange tile q.par.tenant (nextAddr q rq) (m * 64) (.work (ringWho n rq) false) (d.onQp n fun q => { q with lastRq := rq })
      fetchBurst n rq m true host d
    | _, _ => d

def execWorkFetch (tile : Nat) (host : Bytes) (s : State) : Host.Outcome State Fault Refusal := onDev s (liveQ (devWorkFetch tile host))

/-- A work entry whose PHASE did not match is read again (R195); a fetch unit that has stopped reads nothing. -/
def refetchRing (n : Nat) (rq : Bool) (data : Bytes) (d : Dev) : Dev :=
  match d.qp? n with
  | none => d
  | some q =>
    let k := if rq then q.rq.refetch else q.sq.refetch
    let e := touchRange (qpTile n) q.par.tenant (nextAddr q rq) 64 false d
    if k = 0 || d.pwr.state ≠ .active then d
    else match ringRead e (qpTile n) q.par.tenant (nextAddr q rq) data with
      | .bytes b => (fetchOne n k rq b e).2
      | .bad detail => fetchFail n rq ccUncorrectable detail e
      | .err x =>
        let d := e.onQp n fun q => if rq then { q with rq := { q.rq with refetch := 0 } } else { q with sq := { q.sq with refetch := 0 } }
        match stallOn (qpTile n) q.par.tenant false (ringWho n rq) x d with
        | (.waits, d) => stallStream (ringWho n rq) d
        | (.refused, d) => fetchFail n rq ccLocalAccess 0x10 d
        | (.unresolved, d) => fetchFail n rq ccFaultUnresolved 0x13 d

-- Local transfers (R30, R31, R58)

/-- Adjacent pieces that continue each other join. -/
def joinPieces : List (Place × Nat) → List (Place × Nat)
  | [] => []
  | (p, n) :: r => match joinPieces r with
    | (q, m) :: s =>
      let same := match p, q with
        | .dev a, .dev b => a + n = b && dpaStack a = dpaStack b
        | .host _ _ _, .host _ _ _ => p.add n = q
        | _, _ => false
      if same then (p, n + m) :: s else (p, n) :: (q, m) :: s
    | [] => [(p, n)]

/-- The tile a leg is given to: that of its source stack, or the owning tile o (R30 step 5, R31). -/
def legTile (o : Nat) : Place → Nat
  | .dev a => stackTile (dpaStack a)
  | .host _ _ _ => o

/-- Legs of owning tile o from source and destination pieces, each of at most 1 MiB (R30 step 4). -/
def cutLegs (o : Nat) : Nat → List (Place × Nat) → List (Place × Nat) → List XLeg
  | 0, _, _ => []
  | _ + 1, [], _ => []
  | _ + 1, _, [] => []
  | f + 1, (a, n) :: r, (b, m) :: s =>
    let k := min (min n m) 1048576
    let rest (p : Place) (x : Nat) (l : List (Place × Nat)) : List (Place × Nat) := if k = x then l else (p.add k, x - k) :: l
    { tile := legTile o a, src := a, dst := b, len := k } :: cutLegs o f (rest a n r) (rest b m s)

def legsBetween (o : Nat) (src dst : List (Place × Nat)) : List XLeg :=
  let a := joinPieces src
  let b := joinPieces dst
  cutLegs o (a.length + b.length + (a.map Prod.snd).sum / 1048576 + 1) a b

/-- A leg of owning tile o can run: it reaches its tile, its source and its destination, and the report comes back (R12, R18, R21, R30, R31). Data for host memory goes by the owning tile in the RSP class (log 52). -/
def legOpen (d : Dev) (o : Nat) (g : XLeg) : Bool :=
  let source := match g.data with
    | some _ => true
    | none => placeOpen d g.tile g.src
  let dest := match g.dst with
    | .dev _ => placeOpen d g.tile g.dst
    | .host p _ _ => tileOpen d .rsp g.tile o && hostReady d p o
  tileOpen d .req o g.tile && source && dest && tileOpen d .rsp g.tile o

/-- Poisoned stretches of a source, as offsets: codewords of device memory. -/
def badWords (d : Dev) (p n : Nat) : List (Nat × Nat) :=
  (d.mem.poison.filter fun c => 32 * c < p + n && p < 32 * c + 32).map fun c =>
    let lo := max (32 * c) p
    (lo - p, min (32 * c + 32) (p + n) - lo)

/-- The 256 B granules that a poisoned stretch at DPA p spoils, as offsets (R58; log 35). -/
def badGranules (p n : Nat) (l : List (Nat × Nat)) : List (Nat × Nat) :=
  l.map fun (o, _) =>
    let lo := max ((p + o) / 256 * 256) p
    (lo - p, min ((p + o) / 256 * 256 + 256) (p + n) - lo)

/-- Granules of completion data that came poisoned, as offsets (R415). -/
def badData (n : Nat) (g : List Nat) : List (Nat × Nat) :=
  (g.filter fun k => 256 * k < n).map fun k => (256 * k, min 256 (n - 256 * k))

/-- Bytes reach device memory; spoiled stretches become poison. True: poison was met (R58). -/
def placeDev (q : Nat) (b : Bytes) (bad : List (Nat × Nat)) (d : Dev) : Bool × Dev :=
  let part := partPoison d q b.length
  let d := memWrite q b d
  (part || bad ≠ [], bad.foldl (fun d (o, n) => memPoison (q + o) n d) d)

/-- Bytes leave for host memory but for spoiled stretches (R58). -/
def placeHost (s : Side) (pasid : Option Nat) (a : Nat) (b : Bytes) (bad : List (Nat × Nat)) (d : Dev) : Bool × Dev :=
  (bad ≠ [], (gaps bad 0 b.length).foldl (fun d (o, n) => hostPut true s pasid (a + o) (slice b o n) d) d)

/-- A leg's bytes move: none where a stack of it is offline (R66). -/
def moveLeg (g : XLeg) (d : Dev) : Option (Bool × Dev) :=
  let touch (p : Place) (d : Dev) : Dev := match p with
    | .dev a => touchStack (dpaStack a) d
    | .host _ _ _ => d
  let off (p : Place) : Bool := match p with
    | .dev a => stackOffline d (dpaStack a)
    | .host _ _ _ => false
  let d' := touch g.dst (if g.data.isSome then d else touch g.src d)
  if off g.dst || (g.data.isNone && off g.src) then none
  else
    let (b, bad, gran) := match g.data, g.src with
      | some b, _ => (b, badData g.len g.bad, badData g.len g.bad)
      | none, .dev p => (memBytes d' p g.len, badWords d' p g.len, badGranules p g.len (badWords d' p g.len))
      | none, .host _ _ _ => ([], [], [])
    match g.dst with
    | .dev q => some (placeDev q b bad d')
    | .host s pasid a => some (placeHost s pasid a b gran d')

/-- One read-merge-write of a codeword (R207): the original value; none where the codeword is poisoned. -/
def atomicAt (p size op a b : Nat) (d : Dev) : Option (Nat × Dev) :=
  match memRead? d (p / 32 * 32) 32 with
  | none => none
  | some _ =>
    let old := leN (memBytes d p size)
    let new := if op = 0 then (old + a) % 2 ^ (8 * size) else if old = a % 2 ^ (8 * size) then b else old
    some (old, memWrite p (toLE size new) d)

/-- A transfer whose legs have all ended completes (R30 step 7, R214); its bytes moved, poisoned ones as poison (R58, R217). -/
def xferEnd (x : Nat) (aux : BitVec 64) (d : Dev) : Dev :=
  match d.q.xfers.get? x with
  | none => d
  | some t =>
    if t.legs.any fun g => !g.done then d
    else
      let d := d.onQ fun q => { q with xfers := q.xfers.erase x }
      let n := if weVerb t.entry = vbAtomic then u8 t.entry 0x19 else weLen t.entry
      match t.fail with
      | some (c, detail) => endBad t.qpn t.idx c detail d
      | none =>
        if t.poisoned then endEntry t.qpn t.idx ⟨ccUncorrectable, 0x14, if weVerb t.entry = vbAtomic then 0 else n, 0#64⟩ false d
        else endOk t.qpn t.idx n aux d

/-- The leg of a local ATOMIC: the original value, and poison met at the target or where the value goes. -/
def moveAtomic (t : Xfer) (g : XLeg) (d : Dev) : Option (BitVec 64 × Bool × Dev) :=
  match g.src with
  | .host _ _ _ => none
  | .dev p =>
    let d := touchStack (dpaStack p) d
    if stackOffline d (dpaStack p) then none
    else match atomicAt p (u8 t.entry 0x19) (u8 t.entry 0x18) (u64 t.entry 0x30) (u64 t.entry 0x38) d with
      | none => some (0#64, true, d)
      | some (old, d) =>
        (moveLeg { g with len := 8, data := some (toLE 8 old) } d).map fun (bad, d) => (BitVec.ofNat 64 old, bad, d)

/-- LEG_DONE: the leg's bytes have moved; a leg from host memory has its data first (R31), and each has its paths (R12, R18). -/
def devLegDone (x l : Nat) (d : Dev) : Dev :=
  match d.q.xfers.get? x with
  | none => d
  | some t =>
    match t.legs[l]? with
    | none => d
    | some g =>
      let waits := match g.src with
        | .host _ _ _ => g.data.isNone
        | .dev _ => false
      if g.done || waits || !legOpen d t.tile g then d
      else
        let done (bad : Bool) (fail : Option (Nat × Nat)) (d : Dev) : Dev := d.onQ fun q => { q with xfers := q.xfers.upd x fun t =>
          { t with legs := modAt t.legs l fun g => { g with done := true }, poisoned := t.poisoned || bad, fail := t.fail.orElse fun _ => fail } }
        if weVerb t.entry = vbAtomic then
          match moveAtomic t g d with
          | some (old, bad, d) => xferEnd x old (done bad none d)
          | none => xferEnd x 0#64 (done false (some (ccUncorrectable, 0x15)) d)
        else match moveLeg g d with
          | some (bad, d) => xferEnd x 0#64 (done bad none d)
          | none => xferEnd x 0#64 (done false (some (ccUncorrectable, 0x15)) d)

def execLegDone (xfer leg : Nat) (s : State) : Host.Outcome State Fault Refusal := onDev s (liveQ (devLegDone xfer leg))

-- WAIT (R210, R211)

def waitEntry (q : Qp) (w : WaitSt) : Bytes := ((q.begun.find? fun b => b.idx = w.idx && b.fin.isNone).map (·.bytes)).getD (zpad 64)

/-- The WAIT ends: OK with COUNT, or MEMORY_UNCORRECTABLE where a patch met poison. -/
def waitEnd (n : Nat) (w : WaitSt) (d : Dev) : Dev :=
  (if w.poisoned then endBad n w.idx ccUncorrectable 0x14 d else endOk n w.idx 0 (w.count.setWidth 64) d).onQp n fun q => { q with wait := none }

/-- WAIT_SATISFIED: the watched COUNT has reached the target; with no patch the WAIT completes. -/
def devWaitSatisfied (n : Nat) (d : Dev) : Dev :=
  match d.qp? n with
  | none => d
  | some q => match q.wait with
    | none => d
    | some w => match d.cq? w.cq with
      | none => d
      | some c =>
        if w.satisfied || c.st = .overflow || seqDiff c.count w.target < 0 then d
        else
          let w := { w with satisfied := true, count := c.count }
          let d := d.onQp n fun q => { q with wait := some w }
          if weItems (waitEntry q w) = 0 then waitEnd n w d else d

def execWaitSatisfied (qpn : Nat) (s : State) : Host.Outcome State Fault Refusal := onDev s (liveQ (devWaitSatisfied qpn))

/-- One patch item: none when its WAIT waits or has ended. -/
def patchItem (n : Nat) (w : WaitSt) (b : Bytes) (k : Nat) (d : Dev) : Option WaitSt × Dev :=
  match d.qp? n with
  | none => (none, d)
  | some q =>
    let (src, dst, len) := weItem b k
    let tile := qpTile n
    let t := q.par.tenant
    let stop (write : Bool) (e : XErr) (d : Dev) : Dev :=
      match stallOn tile t write (.entry n w.idx) e d with
      | (.waits, d) => stallStream (.entry n w.idx) (d.onQp n fun q => { q with wait := some w })
      | (.refused, d) => failWaiter (.entry n w.idx) ccLocalAccess 0x10 d
      | (.unresolved, d) => failWaiter (.entry n w.idx) ccFaultUnresolved 0x13 d
    match xrange d tile t src len false with
    | .error e => (none, stop false e d)
    | .ok a => match xrange d tile t dst len true with
      | .error e => (none, stop true e d)
      | .ok b =>
        let legs := legsBetween tile a b
        if !legs.all (legOpen d tile) then (none, d.onQp n fun q => { q with wait := some w })
        else
        let who := .entry n w.idx
        let d := lookupRange tile t dst len (.work who true) (lookupRange tile t src len (.work who false) d)
        let r := legs.foldl (fun r g => match r with
          | none => none
          | some (bad, d) => (moveLeg g d).map fun (x, d) => (bad || x, d)) (some (w.poisoned, d))
        match r with
        | some (bad, d) => (some { w with items := k + 1, poisoned := bad }, d)
        | none => (none, failWaiter (.entry n w.idx) ccUncorrectable 0x15 d)

def patchItems (n : Nat) (b : Bytes) : Nat → WaitSt → Dev → Dev
  | 0, w, d => waitEnd n w d
  | m + 1, w, d =>
    match patchItem n w b w.items d with
    | (some w, d) => patchItems n b m w d
    | (none, d) => d

/-- WAIT_PATCH_DONE: the patches are made in item order, and the WAIT completes with the last. -/
def devWaitPatchDone (n : Nat) (d : Dev) : Dev :=
  match d.qp? n with
  | none => d
  | some q => match q.wait with
    | none => d
    | some w =>
      let b := waitEntry q w
      if !w.satisfied || q.entryStalled then d else patchItems n b (weItems b - w.items) w d

def execWaitPatchDone (qpn : Nat) (s : State) : Host.Outcome State Fault Refusal := onDev s (liveQ (devWaitPatchDone qpn))

-- Completion queues (R226 to R228)

/-- CQ_STALL_LIMIT: the running timer of a STALLED queue ends. -/
def devCqStallLimit (n : Nat) (d : Dev) : Dev :=
  match d.cq? n with
  | none => d
  | some c => if c.st = .stalled && c.timer then cqOverflow n 0 d else d

def execCqStallLimit (cqn : Nat) (s : State) : Host.Outcome State Fault Refusal := onDev s (liveQ (devCqStallLimit cqn))

/-- The 16 bytes that name a new object. -/
def numberResult (n : Nat) : Bytes := toLE 4 n ++ zpad 12

def cqCreateChk (c : CmdSlot) (p : Bytes) (_ : Dev) : List (Nat × Bool) :=
  [(0, u32 p 0 < 256), (4, u8 p 4 < 8), (5, 4 ≤ u8 p 5 && u8 p 5 ≤ 15), (6, u16 p 6 < 2048 || u16 p 6 = 0xFFFF), (8, u64 p 8 % 4096 = 0),
    (0x10, u16 p 0x10 ≤ 1000), (0x12, zeros p 0x12 6), (0x18, addrOk c (u64 p 0x18) 16)]

/-- CQ_CREATE (R226). -/
def devCqCreate (c : CmdSlot) : Dev → Dev :=
  runChk c 0x0504 (cqCreateChk c) fun p d =>
    let n := u32 p 0
    withTenant c n true (fun t d =>
      if !formOk d n (u64 p 8) then finishAt c stBadParam 8 d
      else if t.par.cqMax ≤ (tenCqs d n).length then quotaHit c n 5 d
      else
        let tile := u8 p 4
        match if tileUp d tile then findFrom (cqFree d) 2048 (2048 * tile) else none with
        | none => finish c stNoResource d
        | some k =>
          let q : Cq := { tenant := n, log2 := u8 p 5, vector := BitVec.ofNat 16 (u16 p 6), addr := BitVec.ofNat 64 (u64 p 8),
                          stallMs := if u16 p 0x10 = 0 then 10 else u16 p 0x10 }
          finishRes c stDone (u64 p 0x18) (numberResult k) (d.onQ fun x => { x with cqs := x.cqs.set k q })) d

def execCqCreate (c : CmdSlot) (s : State) : Host.Outcome State Fault Refusal := onDev s (live (devCqCreate c))

/-- A queue pair, a WAIT that has begun or a rope uses the completion queue (R228; a WAIT that is only fetched does not, log 103). -/
def cqInUse (d : Dev) (n : Nat) : Bool :=
  d.q.qps.any (fun (_, q) => q.par.sendCq = n || (!q.par.noRq && q.par.recvCq = n) || q.wait.any (·.cq = n))
    || d.ropes.slots.any fun (_, r) => r.par.triggerCq = n || r.par.doneCq = n

/-- CQ_DESTROY (R228). -/
def devCqDestroy (c : CmdSlot) : Dev → Dev :=
  runChk c 0x0505 (fun p _ => [(0, u32 p 0 < 256), (4, u32 p 4 < 16384)]) fun p d =>
    withTenant c (u32 p 0) true (fun _ d =>
      match d.cq? (u32 p 4) with
      | none => finishAt c stBadParam 4 d
      | some q =>
        if q.tenant ≠ u32 p 0 then finishAt c stNotOwner 4 d
        else if cqInUse d (u32 p 4) then finish c stBusy d
        else finish c stDone (destroyCq (u32 p 4) d)) d

def execCqDestroy (c : CmdSlot) (s : State) : Host.Outcome State Fault Refusal := onDev s (live (devCqDestroy c))

-- Queue pairs (R220, R222)

def qpCreateChk (c : CmdSlot) (p : Bytes) (_ : Dev) : List (Nat × Bool) :=
  let noRq := tb (u8 p 7) 2 || u8 p 5 = 0
  [(0, u32 p 0 < 256), (4, u8 p 4 < 8 || u8 p 4 = 0xFF), (5, u8 p 5 ≤ 2), (6, 1 ≤ u8 p 6 && u8 p 6 ≤ 16),
    (7, u8 p 7 < 8 && !(tb (u8 p 7) 1 && noRq)), (8, u64 p 8 % 4096 = 0), (0x10, if noRq then u64 p 0x10 = 0 else u64 p 0x10 % 4096 = 0),
    (0x18, 4 ≤ u8 p 0x18 && u8 p 0x18 ≤ 15), (0x19, if noRq then u8 p 0x19 = 0 else 4 ≤ u8 p 0x19 && u8 p 0x19 ≤ 15),
    (0x1A, u16 p 0x1A < 16384), (0x1C, if noRq then u16 p 0x1C = 0xFFFF else u16 p 0x1C < 16384), (0x1E, u16 p 0x1E = 0),
    (0x20, addrOk c (u64 p 0x20) 16)]

/-- Free queue-pair places of a tile. -/
def qpPlaces (d : Dev) (tile : Nat) : Nat :=
  8192 - (d.q.qps.filter fun (n, _) => qpTile n = tile).length - (d.ten.stubs.filter fun (n, _) => qpTile n = tile).length

/-- The tile with the most free places of the tenant's half, the lowest on a tie (R220). -/
def roomiestTile (d : Dev) (h : Side) : Nat :=
  let l := (List.range 4).map (4 * h.idx + ·)
  (l.filter (tileUp d)).foldl (fun b t => if qpPlaces d b < qpPlaces d t || !tileUp d b then t else b) (4 * h.idx)

/-- A completion queue a new queue pair may be bound to (R25, R220). -/
def cqBindable (d : Dev) (t tile n : Nat) : Bool :=
  match d.cq? n with
  | some q => q.tenant = t && cqTile n = tile && q.st ≠ .overflow
  | none => false

/-- QP_CREATE (R220). -/
def devQpCreate (c : CmdSlot) : Dev → Dev :=
  runChk c 0x0501 (qpCreateChk c) fun p d =>
    let n := u32 p 0
    withTenant c n true (fun t d =>
      let tile := if u8 p 4 = 0xFF then roomiestTile d t.par.port else u8 p 4
      let kind : QpKind := if u8 p 5 = 0 then .loc else if u8 p 5 = 1 then .v2 else .v1
      let noRq := tb (u8 p 7) 2 || kind = .loc
      let ring (a : Nat) (standing : Bool) : Bool := formOk d n a && (!standing || isDva a)
      let chk := [(8, ring (u64 p 8) (tb (u8 p 7) 0)), (0x10, noRq || ring (u64 p 0x10) (tb (u8 p 7) 1)),
        (0x1A, cqBindable d n tile (u16 p 0x1A)), (0x1C, noRq || cqBindable d n tile (u16 p 0x1C))]
      match firstBad chk with
      | some o => finishAt c stBadParam o d
      | none =>
        if t.par.qpMax ≤ (tenQps d n).length then quotaHit c n 4 d
        else match if tileUp d tile then findFrom (qpFree d) 8192 (8192 * tile) else none with
          | none => finish c stNoResource d
          | some k =>
            let par : QpParams :=
              { tenant := n, kind := kind, weight := u8 p 6, sqStanding := tb (u8 p 7) 0, rqStanding := tb (u8 p 7) 1, noRq := noRq,
                sqAddr := BitVec.ofNat 64 (u64 p 8), rqAddr := BitVec.ofNat 64 (u64 p 0x10), sqLog2 := u8 p 0x18, rqLog2 := u8 p 0x19,
                sendCq := u16 p 0x1A, recvCq := u16 p 0x1C }
            let q : Qp := { par := par, profile := if kind = .loc then 0 else d.net.tenantProfile.getD n 0 }
            finishRes c stDone (u64 p 0x20) (numberResult k)
              (d.onQ fun x => { x with qps := x.qps.set k q, tombs := x.tombs.erase k, gone := x.gone.erase k })) d

def execQpCreate (c : CmdSlot) (s : State) : Host.Outcome State Fault Refusal := onDev s (live (devQpCreate c))

/-- QP_DESTROY (R222). -/
def devQpDestroy (c : CmdSlot) : Dev → Dev :=
  runChk c 0x0503 (fun p _ => [(0, u32 p 0 < 256), (4, u32 p 4 < 65536)]) fun p d =>
    withTenant c (u32 p 0) true (fun _ d =>
      match d.qp? (u32 p 4) with
      | none => finishAt c stBadParam 4 d
      | some q =>
        if q.par.tenant ≠ u32 p 0 then finishAt c stNotOwner 4 d
        else if !(q.st = .reset || q.st = .error) then finish c stBusy d
        else finish c stDone (destroyQp (u32 p 4) .other d)) d

def execQpDestroy (c : CmdSlot) (s : State) : Host.Outcome State Fault Refusal := onDev s (live (devQpDestroy c))

end Sys2Proof.Machine
end

