-- ==== Sys2Proof/Machine/Engine.lean ====
section
/-! DEFINITION. The engine's commands: merge space, leg grants, operand loads, the end of legs, walk rounds (R82 to R110, R115, R130). -/

namespace Sys2Proof.Machine

/-- An operation whose descriptor has passed its checks reaches its tile (R97); with an OP_CTX_LIMIT of 0 it ends NO_ENGINE (R91). It counts in OPS when it ends, as one that fails in its cut does; one whose descriptor fails a check of R88 never reaches here and counts nothing, of which R110 does not say (log 96). -/
def newOp (tile tenant : Nat) (src : OpSource) (desc : Bytes) (d : Dev) : Dev :=
  let i := d.eng.nextOp
  let need := mergeNeed desc
  let waits := (mergeHead d tile).isSome || 2048 < mergeUsed d tile + need
  let o : Op := { tile := tile, tenant := tenant, src := src, desc := desc, blocks := legBlocks desc, body := bodyMax desc, need := need }
  let d := d.onEng fun e => { e with nextOp := i + 1, ops := e.ops.set i o }
  let d := if waits then count 0x0706 tile (some tenant) 1 d else d
  if ((d.ten? tenant).map (·.par.opCtxLimit)).getD 0 = 0 then opFail i ccLocalAccess 0x11 d else d

/-- MERGE_SPACE_GRANT: the operation that has waited longest on a tile reserves its merge store and is cut (R97), once what its cut reads can be reached (R18, R137). -/
def devMergeSpaceGrant (tile : Nat) (d : Dev) : Dev :=
  match d.eng.ops.find? fun (_, o) => o.tile = tile && o.stage = .reading && cutOpen d o with
  | some (i, _) => if tileUp d tile then cutOp i d else d
  | none => match mergeHead d tile with
  | none => placeLegs tile d
  | some (i, o) =>
    if !tileUp d tile || 2048 < mergeUsed d tile + o.need || !cutOpen d o then placeLegs tile d
    else cutOp i (d.onOp i fun o => { o with merge := true })

def execMergeSpaceGrant (tile : Nat) (s : State) : Host.Outcome State Fault Refusal := onDev s (liveQ (devMergeSpaceGrant tile))

-- Grants (R92, R93, R98)

/-- The head leg of each tenant's list on a stack. -/
def legHeads (d : Dev) (k : Nat) : List (Nat × Nat × Nat × Op) :=
  (nth d.eng.stk k {}).queue.foldl (fun a (i, j) => match d.op? i with
    | some o => if a.any fun x => x.1 = o.tenant then a else a ++ [(o.tenant, i, j, o)]
    | none => a) []

/-- A leg that gave its context back waits until its operation holds its legs on every lower-numbered stack (R98). -/
def lowerHeld (o : Op) (k : Nat) : Bool := o.legs.all fun l => k ≤ l.stack || legHolds l

/-- The head leg can be granted now (R92, R93, R98). -/
def canGrant (d : Dev) (k i j : Nat) (o : Op) : Bool :=
  let s := nth d.eng.stk k {}
  let back := ((o.legs[j]?).map (·.back)).getD false
  ctxBusy d k < 64 && blocksUsed d k + o.blocks ≤ 64 && tenantCtx d k o.tenant < ((d.ten? o.tenant).map (·.par.opCtxLimit)).getD 0
    && (o.blocks = 0 || s.starving = none || s.starving = some (i, j)) && (!back || lowerHeld o k)

/-- A placed leg has to wait on its stack: for a context, for blocks, under OP_CTX_LIMIT, or behind a leg of its tenant that does (R98 step 4). -/
def legWaits (d : Dev) (k i j : Nat) (o : Op) : Bool :=
  !canGrant d k i j { o with legs := o.legs.map fun l => { l with back := false } }
    || (legHeads d k).any fun (t, i', j', o') => t = o.tenant && (i', j') ≠ (i, j) && !canGrant d k i' j' o'

/-- The place of a leg in its stack's list. -/
def ticketOf (d : Dev) (x : Nat × Nat) : Nat := (((d.op? x.1).bind fun o => o.legs[x.2]?).map (·.ticket)).getD 0

/-- A leg that gave back stands again where it stood in its stack's list (R98 step 4). -/
def putBack (d : Dev) (x : Nat × Nat) (l : List (Nat × Nat)) : List (Nat × Nat) :=
  l.takeWhile (fun y => ticketOf d y < ticketOf d x) ++ x :: l.dropWhile fun y => ticketOf d y < ticketOf d x

/-- A resident leg waits on stack k: its operation gives back what it holds on higher stacks (R98 step 4). -/
def giveBack (i k : Nat) (d : Dev) : Dev :=
  match d.op? i with
  | none => d
  | some o =>
    ((List.range o.legs.length).zip o.legs).foldl (fun d (j, l) =>
      if k < l.stack && legHolds l then
        (d.onOp i fun o => { o with legs := modAt o.legs j fun l => { l with stage := .placed, back := true, operand := [] } }).onStkEng l.stack
          fun s => { s with queue := putBack d (i, j) s.queue }
      else d) d

/-- The lowest stack on which a resident operation waits. -/
def waitsOn (d : Dev) (i : Nat) (o : Op) : Option Nat :=
  (List.range 32).find? fun k => ((List.range o.legs.length).zip o.legs).any fun (j, l) =>
    l.stack = k && l.stage = .placed && legWaits d k i j o

/-- Every resident operation that waits gives back at once (R98 step 4). -/
def giveBacks (d : Dev) : Dev :=
  d.eng.ops.foldl (fun d (i, o) => if !opResident o then d else match waitsOn d i o with
    | some k => giveBack i k d
    | none => d) d

/-- The stack takes new legs now: ONLINE, not drained for new microcode (R65, R553), its tile up. -/
def stackTakes (d : Dev) (k : Nat) : Bool := k < 32 && tileUp d (stackTile k) && (d.stack k).mode = .online && !ucodeBusy d true k

/-- The deficit round robin over the tenants whose head leg can be granted grants one. The model visits tenants by rising number from the last turn, and drops the deficit of one that has no leg to grant, of which R92 says nothing (log 96). -/
def grantLeg (k : Nat) (d : Dev) : Dev :=
  let go := (legHeads d k).filter fun (_, i, j, o) => canGrant d k i j o && stackOpen d o.tile k
  if go = [] then d
  else
    let s := nth d.eng.stk k {}
    let ts := (go.map Prod.fst).foldl insNat []
    let (t, credit) := drrTenant s.turn s.deficit (fun t => ((d.ten? t).map (·.par.opWeight)).getD 1) ts
    match go.find? fun x => x.1 = t with
    | none => d
    | some (_, i, j, o) =>
      let d := (noteSent 12 k d).onStkEng k fun s => { s with
        queue := s.queue.erase (i, j)
        turn := t
        deficit := (s.deficit.filter fun (n, _) => ts.contains n).set t (credit - 1)
        starving := if s.starving = some (i, j) then none else s.starving }
      d.onOp i fun p => { p with legs := modAt p.legs j fun l =>
        { l with stage := if dOpndLen o.desc = 0 then .running else .loading, back := false } }

/-- LEG_GRANT: the dispatcher of a stack grants one head leg (R92), whose way to the stack and whose result space are at hand (R18, R21, R24). A leg that waits wakes a PARKED stack, and a PARKING one takes no new leg (R65; log 94). -/
def devLegGrant (k : Nat) (d : Dev) : Dev :=
  if stackTakes d k then giveBacks (grantLeg k (giveBacks d))
  else if k < 32 && tileUp d (stackTile k) && (d.stack k).mode = .parked && (nth d.eng.stk k {}).queue ≠ [] then wakeStack k d
  else d

def execLegGrant (stack : Nat) (s : State) : Host.Outcome State Fault Refusal := onDev s (liveQ (devLegGrant stack))

/-- OPSTORE_STARVATION: a head leg has waited 20 µs for blocks; every other leg's grant of blocks on the stack stops (R93). -/
def devOpstoreStarvation (k : Nat) (d : Dev) : Dev :=
  if (nth d.eng.stk k {}).starving.isSome then d
  else match (legHeads d k).find? fun (_, _, _, o) => o.blocks ≠ 0 && 64 < blocksUsed d k + o.blocks with
    | some (_, i, j, _) => giveBacks (d.onStkEng k fun s => { s with starving := some (i, j) })
    | none => d

def execOpstoreStarvation (stack : Nat) (s : State) : Host.Outcome State Fault Refusal := onDev s (live (devOpstoreStarvation stack))

/-- An operation fails with a detail of R104. -/
def legFails (i detail : Nat) (d : Dev) : Dev := opFail i (codeOfDetail detail) detail d

/-- The stacks of a set of places are woken (R65); a leg's own accesses leave its PARKING stack so until it ends (R65, R106). -/
def touchAll (own : Nat → Bool) (l : List SrcRun) (d : Dev) : Dev :=
  l.foldl (fun d r =>
    let k := dpaStack r.dpa
    if own k && (d.stack k).mode = .parking then serveCells k d else touchStack k d) d

/-- OPERAND_LOAD_DONE: the leg's copy of the operand is in its blocks; the operand's lists are checked (R83, R115). -/
def devOperandLoadDone (i j : Nat) (d : Dev) : Dev :=
  match d.op? i with
  | none => d
  | some o => match o.legs[j]? with
    | none => d
    | some l =>
      if l.stage ≠ .loading || o.opndRuns.any (fun r => !placeOpen d o.tile (.dev r.dpa)) then d
      else
        let d := touchAll (· = l.stack) o.opndRuns d
        match readRuns d o.opndRuns 0 (dOpndLen o.desc) with
        | .error e => legFails i e d
        | .ok b =>
          if !listOk o.desc b then legFails i 0x09 d
          else if !listInside o.desc b then legFails i 0x10 d
          else d.onOp i fun o => { o with legs := modAt o.legs j fun l => { l with stage := .running, operand := b } }

def execOperandLoadDone (op leg : Nat) (s : State) : Host.Outcome State Fault Refusal := onDev s (liveQ (devOperandLoadDone op leg))

/-- The last leg has ended: merge and deliver (R89, R90, R99). A local result is written body first; a peer's goes into the response (R258). -/
def opDeliver (i : Nat) (d : Dev) : Dev :=
  match d.op? i with
  | none => d
  | some o =>
    let (body, fl) := mergeOp o
    let out := resultHeader d o body.length fl ++ body
    let done (d : Dev) : Dev :=
      let d := if fl.saturated then count 0x0707 o.tile (some o.tenant) 1 d else d
      opGone i (if fl.nanSeen then count 0x0708 o.tile (some o.tenant) 1 d else d)
    match o.src with
    | .entry n idx =>
      let l := takePlaces out.length o.resRuns
      let dv := devPlaces l
      let d := dv.foldl (fun d (p, _) => touchStack (dpaStack p) d) d
      if dv.any fun (p, _) => stackOffline d (dpaStack p) then legFails i 0x15 d
      else if writeBad d dv then legFails i 0x14 d
      else
        let d := putPieces false (takePlaces 32 l) (out.take 32) (putPieces true (dropPlaces 32 l) body d)
        endOk n idx out.length (BitVec.ofNat 64 (body.length + fl.byte * 2 ^ 32)) (done d)
    | .message n msn _ _ => 
      let d := pushPkts n ptOperateResp [] msn out.length (some out) none false (done d)
      rxDone n msn (d.onConn n fun c => { c with unacked := c.unacked.map fun p =>
        if p.ptype = ptOperateResp && p.msn = msn then { p with tile := o.tile, keep := o.need } else p })

/-- A leg has ended with its partial: it frees its context and place, and is counted (R84, R108). -/
def legEnded (i j : Nat) (out : LegOut) (d : Dev) : Dev :=
  match d.op? i with
  | none => d
  | some o => match o.legs[j]? with
    | none => d
    | some l =>
      let t := some o.tenant
      let loaded := dOpndLen o.desc
      let d := count 0x0701 l.stack t (out.streamed + loaded) (count 0x0700 l.stack t 1 d)
      let d := if out.straddled = 0 then d else count 0x0704 l.stack t out.straddled d
      let d := d.onStkEng l.stack fun s => { s with legsEnded := satAdd s.legsEnded 1 }
      d.onOp i fun o => { o with legs := modAt o.legs j fun l =>
        { l with stage := .ended, part := out.part, flags := l.flags.or out.flags, straddled := l.straddled + out.straddled,
                 streamed := l.streamed + out.streamed + loaded, operand := [] } }

/-- The places of a local operation's result can be reached (R18, R21, R31). -/
def resultOpen (d : Dev) (o : Op) : Bool := placesOpen d o.tile o.resRuns

/-- LEG_FINISH: a running leg ends; the last one merges and delivers (R99). Its partial returns to the operation's tile in the RSP class (R36). The rows it writes are written here, and none before it where an event stops the leg (log 96). The legs of GRAPH_WALK end with its last round. -/
def devLegFinish (i j : Nat) (d : Dev) : Dev :=
  match d.op? i with
  | none => d
  | some o => match o.legs[j]? with
    | none => d
    | some l =>
      if l.stage ≠ .running || opResident o || !stackAnswers d l.stack o.tile || !resultOpen d o then d
      else
        match legCompute (touchAll (· = l.stack) o.dstRuns (touchAll (· = l.stack) (if dOp o.desc = opSet then o.srcRuns else l.runs ++ overhang o l) d)) o l with
        | (.error e, d) => legFails i e d
        | (.ok out, d) =>
          let d := legEnded i j out d
          match d.op? i with
          | none => d
          | some o => if o.legs.all fun l => l.stage = .ended then opDeliver i d else placeLegs o.tile d

def execLegFinish (op leg : Nat) (s : State) : Host.Outcome State Fault Refusal := onDev s (liveQ (devLegFinish op leg))

/-- LEG_FAIL: a leg that holds its context fails with a detail that legs can meet; the operation ends with it (R104, R105). -/
def devLegFail (i j detail : Nat) (d : Dev) : Dev :=
  match d.op? i with
  | none => d
  | some o => match o.legs[j]? with
    | none => d
    | some l =>
      let known := detail = 0x09 || detail = 0x10 || detail = 0x12 || detail = 0x14 || detail = 0x15 || detail = 0x16 || detail = 0x17
      if !legHolds l || !known then d else legFails i detail d

def execLegFail (op leg : Nat) (detail : BitVec 8) (s : State) : Host.Outcome State Fault Refusal :=
  onDev s (liveQ (devLegFail op leg detail.toNat))

/-- Rows scored in a round are charged to the legs that hold them. -/
def chargeLegs (l : List Leg) (ss : List Scored) (stride : Nat) : List Leg :=
  l.map fun l =>
    let mine := ss.filter fun s => inRuns l.runs (s.entry.row * stride)
    { l with
      flags := l.flags.or (orFlags (mine.map (·.flags)))
      straddled := l.straddled + (mine.filter (·.straddles)).length
      streamed := l.streamed + (mine.map (·.bytes)).sum }

/-- Every leg of a walk ends. -/
def endWalk (i : Nat) (d : Dev) : Dev :=
  match d.op? i with
  | none => d
  | some o =>
    let d := (List.range o.legs.length).foldl (fun d j => match o.legs[j]? with
      | some l =>
        let d := count 0x0701 l.stack (some o.tenant) l.streamed d
        let d := if l.straddled = 0 then d else count 0x0704 l.stack (some o.tenant) l.straddled d
        legEnded i j ⟨.nothing, {}, 0, 0⟩ d
      | none => d) d
    opDeliver i d

/-- GRAPH_WALK_ROUND: with every leg resident, a round's rows are scored and the next round is chosen; a walk that stops delivers (R130 to R132). -/
def devGraphWalkRound (i : Nat) (d : Dev) : Dev :=
  match d.op? i with
  | none => d
  | some o =>
    if !opResident o || o.stage ≠ .cut || o.legs = [] || o.legs.any (fun l => l.stage ≠ .running || !stackAnswers d l.stack o.tile) || !resultOpen d o then d
    else
      let d := touchAll (fun k => o.legs.any (·.stack = k)) o.srcRuns d
      match walkRound d o ((o.legs.head?.map (·.operand)).getD []) with
      | .error e => legFails i e d
      | .ok (w, ss) =>
        let d := d.onOp i fun o => { o with walk := w, legs := chargeLegs o.legs ss (dStride o.desc) }
        if w.stop = 0 then d else endWalk i d

def execGraphWalkRound (op : Nat) (s : State) : Host.Outcome State Fault Refusal := onDev s (liveQ (devGraphWalkRound op))

end Sys2Proof.Machine
end

