-- ==== Sys2Proof/Machine/Begin.lean ====
section
/-! DEFINITION. Entries that begin: local transfers, operations, WAITs and messages (R30, R31, R209 to R212, R214, R251). -/

namespace Sys2Proof.Machine

/-- The access of a beginning entry cannot be translated: it waits, or ends (R164). -/
def entryStall (n i : Nat) (write : Bool) (e : XErr) (d : Dev) : Dev :=
  match d.qp? n with
  | none => d
  | some q =>
    match stallOn (qpTile n) q.par.tenant write (.entry n i) e d with
    | (.waits, d) => d.onQp n fun q =>
      { q with entryStalled := true, begun := q.begun.map fun b => if b.idx = i && b.fin.isNone then { b with held := true } else b }
    | (.refused, d) => endBad n i ccLocalAccess 0x10 d
    | (.unresolved, d) => endBad n i ccFaultUnresolved 0x13 d

/-- Every range of an entry translates, or the first that does not. -/
def rangesFail (d : Dev) (tile t : Nat) : List (Nat × Nat × Bool) → Option (Bool × XErr)
  | [] => none
  | (a, len, w) :: r => match xrange d tile t a len w with
    | .error e => some (w, e)
    | .ok _ => rangesFail d tile t r

/-- The legs of a local transfer, with the data of an INLINE source. -/
def inlineLegs (b : Bytes) : Nat → List XLeg → List XLeg
  | _, [] => []
  | off, g :: r => { g with data := some (slice b off g.len) } :: inlineLegs b (off + g.len) r

/-- The host reads of a transfer leave (R31). -/
def readLegs (x : Nat) (d : Dev) : Dev :=
  match d.q.xfers.get? x with
  | none => d
  | some t => ((List.range t.legs.length).zip t.legs).foldl (fun d (j, g) => match g.src, g.data with
    | .host p pasid a, none =>
      let (tag, d) := hostRead p pasid a g.len (.leg x j) d
      d.onQ fun q => { q with xfers := q.xfers.upd x fun t => { t with legs := modAt t.legs j fun g => { g with hostTag := some tag } } }
    | _, _ => d) d

/-- WRITE, READ and ATOMIC on a local queue pair (R30, R204, R207). -/
def beginLocal (n i : Nat) (b : Bytes) (d : Dev) : Dev :=
  match d.qp? n with
  | none => d
  | some q =>
    let tile := qpTile n
    let t := q.par.tenant
    let v := weVerb b
    if v = vbAtomic && !isDva (weRemote b) then endBad n i ccLocalAccess 0x10 d
    else match rangesFail d tile t (weRanges true b) with
      | some (w, e) => entryStall n i w e d
      | none =>
        let at_ (a len : Nat) (w : Bool) : List (Place × Nat) := (xrange d tile t a len w).toOption.getD []
        let legs : List XLeg :=
          if v = vbAtomic then
            match at_ (weRemote b) (u8 b 0x19) true, at_ (weLocal b) 8 true with
            | (s, _) :: _, (p, _) :: _ => [{ tile := legTile tile s, src := s, dst := p, len := 8 }]
            | _, _ => []
          else if v = vbRead then legsBetween tile (at_ (weRemote b) (weLen b) false) (at_ (weLocal b) (weLen b) true)
          else if weInline b then inlineLegs (slice b 0x30 (weLen b)) 0 (legsBetween tile [(.host .west none 0, weLen b)] (at_ (weRemote b) (weLen b) true))
          else legsBetween tile (at_ (weLocal b) (weLen b) false) (at_ (weRemote b) (weLen b) true)
        let d := (weRanges true b).foldl (fun d (a, len, w) => lookupRange tile t a len (.work (.entry n i) w) d) d
        if legs = [] then endOk n i (weLen b) 0#64 d
        else
          let x := d.q.nextXfer
          readLegs x (d.onQ fun q => { q with nextXfer := x + 1, xfers := q.xfers.set x { qpn := n, idx := i, tile := tile, entry := b, legs := legs } })

/-- The descriptor of an OPERATE as it is read when the entry begins (R209). -/
inductive DescRead where
  | ok (desc : Bytes)
  | bad (detail : Nat)
  | err (e : XErr)

def descRead (d : Dev) (tile t : Nat) (b host : Bytes) : DescRead :=
  match xrange d tile t (weLocal b) (u16 b 0x18) false with
  | .error e => .err e
  | .ok l => match devPieces l with
    | some p =>
      if p.any fun (a, _) => stackOffline d (dpaStack a) then .bad 0x15
      else match readPieces d p with
        | some x => .ok x
        | none => .bad 0x14
    | none => .ok (slice host 0 (u16 b 0x18))

/-- OPERATE on a local queue pair (R87, R88, R209). -/
def beginOperate (n i : Nat) (b host : Bytes) (d : Dev) : Dev :=
  match d.qp? n with
  | none => d
  | some q =>
    match descRead d (qpTile n) q.par.tenant b host with
    | .err e => entryStall n i false e d
    | .bad x => endBad n i ccUncorrectable x d
    | .ok desc =>
      let d := lookupRange (qpTile n) q.par.tenant (weLocal b) (u16 b 0x18) (.work (.entry n i) false) d
      match descCheck true (u16 b 0x18) desc with
      | some x => endBad n i ccMalformed x d
      | none => newOp (qpTile n) q.par.tenant (.entry n i) (desc.take (dLen desc)) d

/-- WAIT (R211, R227). One whose completion queue was destroyed after its fetch ends MALFORMED, BAD_WAIT_TARGET (R212, R228; log 103). -/
def beginWait (n i : Nat) (b : Bytes) (d : Dev) : Dev :=
  match d.qp? n with
  | none => d
  | some q => match (d.cq? (u16 b 0x10)).filter fun c => c.tenant = q.par.tenant with
  | none => endBad n i ccMalformed 0x23 d
  | some c =>
    let target := if u8 b 0x12 = 0 then BitVec.ofNat 32 (u32 b 0x14) else q.waitMark + BitVec.ofNat 32 (u32 b 0x14)
    let d := d.onQp n fun q => { q with waitMark := target }
    if c.st = .overflow then endBad n i ccCqOverflow 0 d
    else d.onQp n fun x => { x with wait := some { idx := i, cq := u16 b 0x10, target := target, prev := q.waitMark } }

/-- A request takes the next MSN with the places its entry was translated to; it opens when MSN_LIMIT allows (R249, R251). -/
def newMsg (n i : Nat) (b : Bytes) (len : Nat) (data : Option Bytes) (runs : List (Place × Nat)) (d : Dev) : Dev :=
  match d.qp? n with
  | none => d
  | some q =>
    let v := weVerb b
    let msn := q.conn.nextMsn
    let takes := v = vbSend || (v = vbWrite && weImm b)
    let m : TxMsg := { msn := msn, idx := i, verb := v, len := len, data := data, runs := runs, ssn := if takes then some q.conn.nextSsn else none }
    let d := d.onQp n fun q => { q with
      begun := q.begun.map fun x => if x.idx = i && x.fin.isNone then { x with msn := some msn } else x
      conn := { q.conn with
        msgs := q.conn.msgs ++ [m]
        nextMsn := msn + 1#32
        nextSsn := if takes then q.conn.nextSsn + 1#32 else q.conn.nextSsn } }
    openMsgs n (noteSent 10 (qpTile n) d)

/-- An entry of a transport queue pair (R204 to R209): its local addresses are translated before it opens a message. -/
def beginTransport (n i : Nat) (b host : Bytes) (d : Dev) : Dev :=
  match d.qp? n with
  | none => d
  | some q =>
    let tile := qpTile n
    let t := q.par.tenant
    let v := weVerb b
    match rangesFail d tile t (weRanges false b) with
    | some (w, e) => entryStall n i w e d
    | none =>
      let runs := match (weRanges false b).getLast? with
        | some (a, len, w) => (xrange d tile t a len w).toOption.getD []
        | none => []
      let d := (weRanges false b).foldl (fun d (a, len, w) => lookupRange tile t a len (.work (.entry n i) w) d) d
      if v = vbOperate then
        match descRead d tile t b host with
        | .err e => entryStall n i false e d
        | .bad x => endBad n i ccUncorrectable x d
        | .ok desc => if u32 b 0x2C < dCap desc then endBad n i ccMalformed 0x0B d else newMsg n i b (u16 b 0x18) (some desc) runs d
      else
        let sends := v = vbWrite || v = vbSend
        let msn := q.conn.nextMsn
        let d := newMsg n i b (if v = vbAtomic then 8 else weLen b) (if sends && weInline b then some (slice b 0x30 (weLen b)) else none) runs d
        if sends && !weInline b && !isDva (weLocal b) && weLen b ≠ 0 then messageRead n msn d else d

/-- An entry that may begin runs by its verb. -/
def beginEntry (n i : Nat) (b host : Bytes) (d : Dev) : Dev :=
  match d.qp? n with
  | none => d
  | some q =>
    if weVerb b = vbWait then beginWait n i b d
    else if q.par.kind ≠ .loc then beginTransport n i b host d
    else if weVerb b = vbOperate then beginOperate n i b host d
    else beginLocal n i b d

/-- The queue pair may begin an entry: RTS, an ACTIVE tenant, neither completion queue STALLED (R223, R227, R461). -/
def mayBegin (d : Dev) (n : Nat) (q : Qp) : Bool :=
  tileUp d (qpTile n) && q.st = .rts && tenActive d q.par.tenant && !q.entryStalled && cqTakes d q.par.sendCq && (q.par.noRq || cqTakes d q.par.recvCq)

/-- An entry that has begun goes on once its translation is made: also while its tenant is FREEZING, and with a completion queue STALLED (R227, R461). -/
def mayGoOn (d : Dev) (n : Nat) (q : Qp) : Bool :=
  tileUp d (qpTile n) && q.st = .rts && !q.entryStalled && (match d.ten? q.par.tenant with
    | some x => x.st = .active || x.st = .freezing
    | none => false)

/-- A message has a tracker credit, a local operation a pending-leg place (R23, R24). -/
def entryCredit (d : Dev) (n : Nat) (q : Qp) (b : Bytes) : Bool :=
  if q.par.kind = .loc then weVerb b ≠ vbOperate || pendingUsed d (qpTile n) < 1024
  else weVerb b = vbWait || !trackerFull d (qpTile n) q.par.tenant

/-- The tile's dispatcher takes no descriptor while it drains for new microcode (R553). -/
def ucodeHolds (d : Dev) (n : Nat) (q : Qp) (b : Bytes) : Bool := q.par.kind = .loc && weVerb b = vbOperate && ucodeBusy d false (qpTile n)

/-- An OPERATE entry waits to begin: its dispatcher drains, or its descriptor cannot be read now (R12, R18, R21, R387). -/
def entryHolds (d : Dev) (n : Nat) (q : Qp) (b : Bytes) : Bool :=
  ucodeHolds d n q b || (weVerb b = vbOperate && (match xrange d (qpTile n) q.par.tenant (weLocal b) (u16 b 0x18) false with
    | .ok l => !placesOpen d (qpTile n) l
    | .error _ => false))

/-- ENTRY_BEGIN: an entry held for its translation begins again; otherwise the first fetched entry begins, a fenced one only when every earlier entry has completed (R212, R214). A message needs a tracker credit (R23), an operation a pending-leg place (R24). -/
def devEntryBegin (n : Nat) (host : Bytes) (d : Dev) : Dev :=
  match d.qp? n with
  | none => d
  | some q =>
    match q.begun.find? fun b => b.held && b.fin.isNone with
      | some b => if !mayGoOn d n q || !entryCredit d n q b.bytes || entryHolds d n q b.bytes then d else beginEntry n b.idx b.bytes host (d.onQp n fun q =>
          { q with begun := q.begun.map fun x => if x.idx = b.idx then { x with held := false } else x })
      | none => if !mayBegin d n q then d else match q.fetched with
        | [] => d
        | f :: r =>
          if (weFence f.bytes && f.fail.isNone && q.begun.any fun b => b.fin.isNone) || (f.fail.isNone && !entryCredit d n q f.bytes) || (f.fail.isNone && entryHolds d n q f.bytes) then d
          else
            let d := d.onQp n fun q => tidyIdx { q with fetched := r, begun := q.begun ++ [{ idx := f.idx, bytes := f.bytes, msn := none, fin := none }] }
            match f.fail with
            | some (c, x) => endBad n f.idx c x d
            | none => beginEntry n f.idx f.bytes host d

def execEntryBegin (qpn : Nat) (hostDesc : Bytes) (s : State) : Host.Outcome State Fault Refusal := onDev s (liveQ (devEntryBegin qpn hostDesc))

-- QP_MODIFY (R221, R223)

def qpModifyChk (p : Bytes) (d : Dev) : List (Nat × Bool) :=
  let rtr := u8 p 8 = 2
  [(0, u32 p 0 < 256), (4, u32 p 4 < 65536), (8, u8 p 8 ≤ 4), (9, if rtr then u8 p 9 ≤ 3 else u8 p 9 = 0),
    (0x0A, if rtr then nodeOk d (BitVec.ofNat 16 (u16 p 0x0A)) else u16 p 0x0A = 0), (0x0C, if rtr then u32 p 0x0C < 2 ^ 24 else u32 p 0x0C = 0),
    (0x10, rtr || u32 p 0x10 = 0), (0x14, rtr || u32 p 0x14 = 0), (0x18, u64 p 0x18 = 0)]

/-- Entering INIT: indices, WAIT_MARK and every sequence number restart (R211, R223, R249). -/
def toInit (n : Nat) (d : Dev) : Dev := d.onQp n fun q => { par := q.par, st := .init, profile := q.profile, paths := q.paths }

/-- Entering RTR (R221, R251, R485): the connection, its packet keys and its first grant. -/
def toRtr (n : Nat) (p : Bytes) (d : Dev) : Dev :=
  match d.qp? n with
  | none => d
  | some q =>
    let peer := BitVec.ofNat 16 (u16 p 0x0A)
    let snd := BitVec.ofNat 32 (u32 p 0x10)
    let rcv := BitVec.ofNat 32 (u32 p 0x14)
    let auth := if q.par.kind = .v2 then deriveAuth d q.par.tenant peer n (u32 p 0x0C) snd.toNat rcv.toNat else none
    let d := d.onQp n fun q => { q with
      st := .rtr
      conn := { q.conn with
        mtu := 1024 * 2 ^ u8 p 9
        peerNode := peer
        peerQpn := BitVec.ofNat 32 (u32 p 0x0C)
        nextPsn := snd
        psn0 := snd
        cumTx := snd
        cumRx := rcv
        auth := auth } }
    sendAck n 0#32 0#32 (now d) 0#8 (extendGrant n d)

/-- QP_MODIFY. -/
def devQpModify (c : CmdSlot) : Dev → Dev :=
  runChk c 0x0502 qpModifyChk fun p d =>
    withTenant c (u32 p 0) false (fun _ d =>
      let n := u32 p 4
      match d.qp? n with
      | none => finishAt c stBadParam 4 d
      | some q =>
        let v := u8 p 8
        if q.par.tenant ≠ u32 p 0 then finishAt c stNotOwner 4 d
        else if q.st = .flushing then finish c stBusy d
        else if v = 2 && q.par.kind = .v1 && u8 p 9 = 3 then finishAt c stBadParam 9 d
        else if v = 0 && q.st = .error then finish c stDone (resetQp n d)
        else if v = 1 && q.st = .reset then finish c stDone (toInit n d)
        else if v = 2 && q.st = .init && q.par.kind ≠ .loc then finish c stDone (toRtr n p d)
        else if v = 3 && ((q.st = .init && q.par.kind = .loc) || q.st = .rtr) then finish c stDone (d.onQp n fun q => { q with st := .rts })
        else if v = 4 && (q.st = .init || q.st = .rtr || q.st = .rts) then finish c stDone (toFlush n (some ccFlushed) none d)
        else finishAt c stBadParam 8 d) d

def execQpModify (c : CmdSlot) (s : State) : Host.Outcome State Fault Refusal := onDev s (liveQ (devQpModify c))

end Sys2Proof.Machine
end

