-- ==== Sys2Proof/Machine/Cmd.lean ====
section
/-! DEFINITION. Command rings: indices, fetch, checks 1 to 11, holds, deadline, the sideband route, DEVICE_INFO (12_command_packets). -/

namespace Sys2Proof.Machine

-- Ring registers

/-- CMD_RING_PROD (R440, R443). -/
def devCmdRingProdWrite (p ring : Side) (k : Nat) (v : BitVec 32) (d : Dev) : Dev :=
  if p ≠ ring then hostWrongPort p d
  else
    let r := d.ring ring k
    let s := ringSlots r
    let i := v.toNat % 65536
    let c := r.cons.toNat
    let ok := r.enable && i < 2 * s && ringSub s i c ≤ s && ringSub s r.prod.toNat c ≤ ringSub s i c
    d.onRing ring k fun r =>
      if ok then { r with prod := BitVec.ofNat 16 i, visible := if i = r.prod.toNat then r.visible else r.visible ++ [(i, now d)] }
      else { r with prodInvalid := true }

def execCmdRingProdWrite (p ring : Side) (k : Nat) (v : BitVec 32) (s : State) : Host.Outcome State Fault Refusal :=
  onDev s (live (devCmdRingProdWrite p ring k v))

/-- CMD_RING_CTRL written with ENABLE 1 (R442): the size is taken only while ENABLE was 0, and setting ENABLE clears both indices. -/
def devCmdRingEnable (p ring : Side) (k : Nat) (v : BitVec 32) (d : Dev) : Dev :=
  if p ≠ ring then hostWrongPort p d
  else d.onRing ring k fun r =>
    let r := { r with vector := v.extractLsb' 16 11 }
    if r.enable then r
    else { r with sizeLog2 := v.extractLsb' 4 4, enable := true, prod := 0#16, cons := 0#16, visible := [], refetch := 0, lateTo := none }

def execCmdRingEnable (p ring : Side) (k : Nat) (v : BitVec 32) (s : State) : Host.Outcome State Fault Refusal :=
  onDev s (live (devCmdRingEnable p ring k v))

/-- CMD_RING_CTRL written with ENABLE 0 (R436, R442): fetching stops; STOPPING while a command's reply is awaited. -/
def devCmdRingDisable (p ring : Side) (k : Nat) (v : BitVec 32) (d : Dev) : Dev :=
  if p ≠ ring then hostWrongPort p d
  else d.onRing ring k fun r =>
    { r with
      vector := v.extractLsb' 16 11
      sizeLog2 := if r.enable then r.sizeLog2 else v.extractLsb' 4 4
      enable := false
      refetch := 0
      stopping := r.stopping || (r.enable && r.cmd.isSome) }

def execCmdRingDisable (p ring : Side) (k : Nat) (v : BitVec 32) (s : State) : Host.Outcome State Fault Refusal :=
  onDev s (live (devCmdRingDisable p ring k v))

-- Fetch

def parseHdr (b : Bytes) : CmdHdr :=
  { opcode := BitVec.ofNat 16 (u16 b 0), hflags := BitVec.ofNat 8 (u8 b 2), length := u16 b 4, deadline := u16 b 6,
    cmdId := BitVec.ofNat 64 (u64 b 8), hasp := u8 b 0x10, token := BitVec.ofNat 16 (u16 b 0x12), epoch := BitVec.ofNat 32 (u32 b 0x14) }

/-- Checks 3 to 8 of R428 in order: status and DETAIL of the first failure. -/
def packetCheck (c : CmdSlot) (b : Bytes) : Option (Nat × Nat) :=
  let h := parseHdr b
  let op := h.opcode.toNat
  let p := (b.drop 64).take (h.length - 64)
  let len := match paramLen op p with
    | .fixed n => 64 + n
    | .counted off n _ _ base e => 64 + base + e * leN (slice p off n)
    | .undefined => 0
  let hdr7 : List (Nat × Bool) :=
    [(0x8002, decide (u8 b 2 < 4)), (0x8010, !isSideband c || h.hasp = 0), (0x8011, u8 b 0x11 = 0), (0x8012, h.hasp ≠ 0 || h.token = 0#16),
      (0x8014, h.hasp ≠ 0 || h.epoch = 0#32), (0x8018, zeros b 0x18 40)]
  if u8 b 3 ≠ 1 then some (stBadParam, 0x8003)
  else if h.length < 64 || 4096 < h.length || h.length % 4 ≠ 0 then some (stBadLength, 0x8004)
  else match paramLen op p with
    | .undefined => some (stBadOpcode, 0x8000)
    | pl =>
      if isSideband c && !sidebandGroup op then some (stNotPermitted, 0x8000)
      else match firstBad hdr7 with
        | some o => some (stBadParam, o)
        | none =>
          let cnt := match pl with
            | .counted off n lo hi _ _ => if lo ≤ leN (slice p off n) && leN (slice p off n) ≤ hi then none else some off
            | _ => none
          match cnt with
          | some o => some (stBadParam, o)
          | none => if h.length = len then none else some (stBadLength, 0x8004)

/-- When the producer index that made index i visible was accepted (R431). -/
def visibleAt (d : Dev) (r : CmdRing) (i : Nat) : Nat :=
  let s := ringSlots r
  ((r.visible.find? fun (b, _) => 0 < ringSub s b i && ringSub s b i ≤ s).map Prod.snd).getD (now d)

def deadlineOver (d : Dev) (m : Cmd) : Bool := m.hdr.deadline ≠ 0 && m.visible + msTicks m.hdr.deadline ≤ now d

/-- The reads of a packet leave the port that carries the ring: its header, then the bytes up to LENGTH (R418, R421, R423). -/
def slotReads (p : Side) (k i : Nat) (b : Option Bytes) (d : Dev) : Dev :=
  let r := d.ring p k
  let a := r.base.toNat + i % ringSlots r * 4096
  let d := emit (.slotRead p a 64) d
  let more := (b.map fun b => u16 b 4).getD 0
  if 64 < more && more ≤ 4096 then emit (.slotRead p (a + 64) (more - 64)) d else d

/-- A packet has been read: checks 3 to 8, then the deadline; it then waits to begin (R421, R428, R431). -/
def takePacket (c : CmdSlot) (idx vis : Nat) (late : Bool) (b : Bytes) (d : Dev) : Dev :=
  let h := parseHdr b
  let m : Cmd := { hdr := h, params := (b.drop 64).take (h.length - 64), idx := idx, stage := .fetched, order := d.ctl.nextOrder,
                   visible := vis, late := late }
  let d := d.onCtl fun x => { x with nextOrder := x.nextOrder + 1 }
  let d := setCmd c (some m) d
  match packetCheck c b with
  | some (st, o) => finishAt c st o d
  | none =>
    if deadlineOver d m then finish c stTimeout d
    else setCmd c (some { m with holds := holdsOf h.opcode.toNat m.params }) d

/-- The first read of a ring's slot, or a re-read after n mismatches of PHASE (R428 check 2). -/
def ringPacket (p : Side) (k n : Nat) (data : Option Bytes) (d : Dev) : Dev :=
  let r := d.ring p k
  let s := ringSlots r
  let i := r.cons.toNat
  let c : CmdSlot := .ring p k
  let vis := visibleAt d r i
  let late := match r.lateTo with
    | some b => 0 < ringSub s b i && ringSub s b i ≤ s
    | none => false
  let d := slotReads p k i data (d.onRing p k fun r => { r with refetch := 0 })
  match data with
  | none =>
    let m : Cmd := { hdr := ⟨0#16, 0#8, 0, 0, 0#64, 0, 0#16, 0#32⟩, params := [], idx := i, stage := .fetched,
                     order := d.ctl.nextOrder, visible := vis, late := late }
    finishAt c stBadParam 0xFFFF (setCmd c (some m) d)
  | some b =>
    if tb (u8 b 2) 0 = phaseOf s i then takePacket c i vis late b d
    else if n < 3 then d.onRing p k fun r => { r with refetch := n + 1 }
    else
      let m : Cmd := { hdr := parseHdr b, params := [], idx := i, stage := .fetched, order := d.ctl.nextOrder, visible := vis, late := late }
      finishAt c stBadParam 0x8002 (setCmd c (some m) d)

def slotOf (i : Nat) : CmdSlot := nth allSlots i .sideband

/-- The slot has a command to fetch (R421, R429, R387). -/
def fetchReady (d : Dev) (c : CmdSlot) : Bool :=
  match c with
  | .ring p k =>
    let r := d.ring p k
    r.enable && !r.stopping && r.cmd.isNone && r.refetch = 0 && r.prod ≠ r.cons && canIssue d p
  | .sideband => d.ctl.side.cmd.isNone && d.ctl.side.request.isSome

/-- The leader fetches from the next ring in round robin (R429, R432). -/
def devCommandFetch (data : Option Bytes) (d : Dev) : Dev :=
  if (leader d).isNone || d.ctl.handover.isSome then d
  else
    let order := (List.range 9).map fun i => (d.ctl.turn + 1 + i) % 9
    match order.find? fun i => fetchReady d (slotOf i) with
    | none => d
    | some i =>
      let d := d.onCtl fun c => { c with turn := i }
      match slotOf i with
      | .ring p k => ringPacket p k 0 data d
      | .sideband =>
        let b := d.ctl.side.request.getD []
        let late := d.ctl.side.late
        let d := d.onSide fun s => { s with request := none, late := false }
        let vis := d.ctl.side.reqTime
        if b.length < 64 then
          let m : Cmd := { hdr := ⟨0#16, 0#8, 0, 0, 0#64, 0, 0#16, 0#32⟩, params := [], idx := 0, stage := .fetched, order := d.ctl.nextOrder, visible := vis, late := late }
          finishAt .sideband stBadParam 0xFFFF (setCmd .sideband (some m) d)
        else if tb (u8 b 2) 0 then takePacket .sideband 0 vis late b d
        else
          let m : Cmd := { hdr := parseHdr b, params := [], idx := 0, stage := .fetched, order := d.ctl.nextOrder, visible := vis, late := late }
          finishAt .sideband stBadParam 0x8002 (setCmd .sideband (some m) d)

def execCommandFetch (data : Option Bytes) (s : State) : Host.Outcome State Fault Refusal := onDev s (live (devCommandFetch data))

-- Begin

/-- The tenant is being reset, which holds it exclusively (R457 step 1). -/
def tenantHeld (d : Dev) (m : Cmd) : Bool :=
  m.holds.any fun h => match h.obj with
    | .tenant n => match d.ten? n with
      | some t => t.st = .resetting || t.st = .destroying
      | none => false
    | _ => false

/-- Every hold of the command can be taken: no active command clashes, and no command fetched earlier waits for one of them (R430). -/
def holdsFree (d : Dev) (c : CmdSlot) (m : Cmd) : Bool :=
  allSlots.all fun o => o = c || match cmdAt d o with
    | none => true
    | some n => !((cmdActive n || n.order < m.order) && m.holds.any fun h => n.holds.any h.clash)

/-- Checks 9 to 11 (R428, R433): status and DETAIL of the first failure. -/
def haspCheck (d : Dev) (p : Side) (m : Cmd) : Option (Nat × Nat) :=
  let need := haspNeeded m.hdr.opcode.toNat m.params
  let h := d.hasp m.hdr.hasp
  if m.hdr.hasp ≠ need then some (stNotOwner, 0x8010)
  else if need = 0 then none
  else if h.holder ≠ some (.port p) || h.token ≠ m.hdr.token then some (stNotOwner, 0x8012)
  else if h.epoch ≠ m.hdr.epoch then some (stStaleEpoch, 0x8014)
  else none

/-- POWER_STATE WITHDRAW of BIVOUAC: it begins asleep, wakes the device and ends when the device is ACTIVE (R535, R538). -/
def withdraws (m : Cmd) : Bool := m.hdr.opcode = 0x0104#16 && u8 m.params 0 = 3 && u8 m.params 1 = 1

/-- A command begins once its holds are free (R430): a ring's command passes checks 9 to 11, the sideband's takes the Hasp it needs for the leader (R414, R435). -/
def devCommandBegin (c : CmdSlot) (d : Dev) : Dev :=
  match cmdAt d c, leader d with
  | some m, some lead =>
    if m.stage ≠ .fetched || d.ctl.handover.isSome || tenantHeld d m || !holdsFree d c m then d
    else if (d.pwr.state = .bivouac || d.pwr.state = .waking) && !asleepOk m.hdr.opcode.toNat && !withdraws m then wakeDev d
    else
      let m := { m with stage := .begun, ran := true, began := now d, epoch := leadEpoch d }
      let d := setCmd c (some m) d
      match c with
      | .ring p _ => match haspCheck d p m with
        | some (st, o) => finishAt c st o d
        | none => d
      | .sideband =>
        let need := haspNeeded m.hdr.opcode.toNat m.params
        if need = 0 || (d.hasp need).holder = some (.die lead) then d
        else if (d.hasp need).holder.isSome then finish c stBusy d
        else
          let d := count 0x0B06 0xFF none 1 (setHolder need (some (.die lead)) 1#16 d)
          onCmd c (fun m => { m with hdr := { m.hdr with hasp := need, epoch := (d.hasp need).epoch } }) d
  | _, _ => d

def execCommandBegin (c : CmdSlot) (s : State) : Host.Outcome State Fault Refusal := onDev s (live (devCommandBegin c))

/-- DEADLINE_MS ends before the command began: the leader answers it TIMEOUT (R431, R432). -/
def devCommandDeadline (c : CmdSlot) (d : Dev) : Dev :=
  match cmdAt d c, leader d with
  | some m, some _ => if m.stage = .fetched && m.hdr.deadline ≠ 0 then finish c stTimeout d else d
  | _, _ => d

def execCommandDeadline (c : CmdSlot) (s : State) : Host.Outcome State Fault Refusal := onDev s (live (devCommandDeadline c))

/-- A command packet arrives over the sideband; while one is unanswered the new one is answered BUSY (R435). -/
def devSidebandRequest (msg : Bytes) (d : Dev) : Dev :=
  if slice msg 0 5 ≠ [0x7E#8, 0x1D#8, 0x5A#8, 0x01#8, 0x00#8] then d
  else
    let b := msg.drop 5
    if d.ctl.side.cmd.isSome || d.ctl.side.request.isSome then
      let m : Cmd := { hdr := parseHdr b, params := [], idx := 0, stage := .fetched, order := 0, visible := 0 }
      emit (.sideband ([0x7E#8, 0x1D#8, 0x5A#8, 0x02#8, 0x00#8] ++ replyBytes d m stBusy 0 0 0 true)) d
    else d.onSide fun s => { s with request := some b, reqTime := now d, late := (leader d).isNone }

def execSidebandRequest (msg : Bytes) (s : State) : Host.Outcome State Fault Refusal := onDev s (live (devSidebandRequest msg))

end Sys2Proof.Machine
end

