-- ==== Sys2Proof/Machine/RxOps.lean ====
section
/-! DEFINITION. What arriving packets share: the checks of R255 and R272, meters (R297 to R300), window checks (R179), NAKs, commits and acknowledgements (R256 to R260, R267). -/

namespace Sys2Proof.Machine

-- Network counter sources (R565, group 0x01)
def rxTrailerBad : Nat := 0x0102
def rxVersionBad : Nat := 0x0103
def rxMalformed : Nat := 0x0104
def rxNoQp : Nat := 0x0105
def rxQpIdle : Nat := 0x0106
def rxWrongPeer : Nat := 0x0107
def rxPsnAhead : Nat := 0x0108
def rxDup : Nat := 0x0109
def rxMsnAhead : Nat := 0x010A
def rxSizeBad : Nat := 0x010B
def rxLengthConflict : Nat := 0x010C
def rxStrayResp : Nat := 0x010D
def rxAckBad : Nat := 0x010E
def rxAuthFail : Nat := 0x010F
def rxBufFull : Nat := 0x0110
def rxQpError : Nat := 0x0112

-- Packet kinds

def isReq (t : BitVec 8) : Bool := t = ptWrite || t = ptReadReq || t = ptSend || t = ptAtomicReq || t = ptOperateReq
def isResp (t : BitVec 8) : Bool := t = ptReadResp || t = ptAtomicResp || t = ptOperateResp
/-- The packet type takes a PSN (R241). -/
def hasPsn (t : BitVec 8) : Bool := isReq t || isResp t

/-- Bytes of the extensions of a packet (R241, R273). -/
def extSize (v1 : Bool) (t : BitVec 8) (p : Pkt) : Nat :=
  if t = ptWrite then (if pflag p pfImm then 32 else 16)
  else if t = ptReadReq then 24
  else if t = ptSend then 16
  else if t = ptAtomicReq then 40
  else if t = ptOperateReq then 16
  else if t = ptAck then (if v1 then 16 else 56)
  else if t = ptNak then 24
  else if t = ptProbe then 0
  else 8

def detailOk (x : Nat) : Bool := x ≤ 0x17 || (0x20 ≤ x && x ≤ 0x25) || (0x40 ≤ x && x ≤ 0x48) || (0x60 ≤ x && x ≤ 0x6F)

/-- The extensions hold defined values and reserved zeros (R242 to R246, check 2 of R255). -/
def extForm (v1 : Bool) (t : BitVec 8) (p : Pkt) : Bool :=
  let e := p.ext
  let recv (o : Nat) : Bool := bx e (o + 12) 4 = 0 && (pflag p pfImm || bx e (o + 8) 4 = 0)
  if t = ptWrite then !pflag p pfImm || recv 16
  else if t = ptSend then recv 0
  else if t = ptReadReq then 1 ≤ bx e 16 4 && bx e 16 4 ≤ 2 ^ 31 && bx e 20 4 = 0
  else if t = ptAtomicReq then
    bx e 16 1 ≤ 1 && (bx e 17 1 = 4 || bx e 17 1 = 8) && zeros e 18 6 && (bx e 17 1 = 8 || (bx e 24 4 = 0 && bx e 32 4 = 0))
  else if t = ptOperateReq then bx e 8 8 = 0
  else if isResp t then bx e 4 4 = 0
  else if t = ptAck then v1 || (bx e 20 1 < 64 && zeros e 21 3 && !tb (bx e 24 1) 0)
  else if t = ptNak then
    let code := bx e 8 1
    1 ≤ code && code ≤ (if v1 then 0x10 else 0x0F) && detailOk (bx e 9 1) && zeros e 10 2
      && (if code = 0x0B then fld (bx e 16 8) 24 24 = 0 else bx e 16 8 = 0)
  else if t = ptDisconnect then 1 ≤ bx e 0 1 && bx e 0 1 ≤ 0x0E && zeros e 1 7
  else true

/-- Payload lengths that R241 allows; OPERATE_REQ has an answer of its own (R272). -/
def payloadForm (t : BitVec 8) (p : Pkt) : Bool :=
  if t = ptAtomicResp then p.payload.length = 8
  else if t = ptReadReq || t = ptAtomicReq || isCtl t then p.payload = []
  else true

/-- FIRST and MSG_OFFSET agree; a type of one packet has FIRST and LAST (R240, R250). What disagrees fails check 2 (R255; log 104). -/
def orderForm (t : BitVec 8) (p : Pkt) : Bool :=
  if isCtl t then true
  else if t = ptReadReq || t = ptAtomicReq || t = ptAtomicResp then pflag p pfFirst && pflag p pfLast && p.msgOffset = 0#32
  else if t = ptOperateReq then !pflag p pfFirst || p.msgOffset = 0#32
  else pflag p pfFirst = decide (p.msgOffset = 0#32)

/-- A packet type of R241, or of a rope. -/
def ptKnown (t : BitVec 8) : Bool := (1 ≤ t.toNat && t.toNat ≤ 8) || (0x10 ≤ t.toNat && t.toNat ≤ 0x13) || (0x20 ≤ t.toNat && t.toNat ≤ 0x23)

/-- Check 2 of R255 but for VERSION. -/
def pktForm (v1 : Bool) (t : BitVec 8) (p : Pkt) : Bool :=
  let pf := p.pflags.toNat
  ptKnown t && pf % 4 = 0 && (!tb pf pfImm || t = ptWrite || t = ptSend) && p.ver.toNat % 16 = 0 && (if v1 then p.path = 0#8 else p.path.toNat < 64)
    && p.dstQpn.toNat < 2 ^ 24 && p.srcQpn.toNat < 2 ^ 24 && p.msgOffset.toNat < 2 ^ 31
    && !(v1 && (t = ptOperateReq || t = ptOperateResp || t = ptProbe || tb pf pfAuth))
    && p.ext.length = extSize v1 t p && extForm v1 t p && payloadForm t p && orderForm t p

-- Trailers (R248, R487)

/-- What check 1 finds. -/
inductive Trailer where
  | ok (p : Pkt) (a : Option Auth)
  | crc
  | auth
  | replay

/-- A control sequence number is accepted and marked, or it is a duplicate (R487). -/
def markCsn (a : Auth) (n : Nat) : Option Auth :=
  let top := a.rxTop.toNat
  if top ≤ n then
    let m := if top = 0 then 0 else ((2 * a.rxMap.toNat + 1) * 2 ^ (n - top)) % 2 ^ 64
    some { a with rxTop := BitVec.ofNat 64 (n + 1), rxMap := BitVec.ofNat 64 m }
  else if n + 1 = top then none
  else
    let k := top - 2 - n
    if 64 ≤ k || tb a.rxMap.toNat k then none else some { a with rxMap := BitVec.ofNat 64 (a.rxMap.toNat + 2 ^ k) }

def trailerCheck (a : Option Auth) (t : BitVec 8) (p : Pkt) : Trailer :=
  match a, pflag p pfAuth with
  | some a, true =>
    if a.dead then .auth
    else
      let n := if isCtl t then p.msgOffset.toNat else p.psn.toNat
      let r := gcmOpen a.recvKey (a.recvSalt ++ toBE 4 n ++ toBE 4 p.txTime.toNat) (headerBytes t p ++ p.ext) p.payload p.trailer
      if !r.2 then .auth
      else if isCtl t then
        match markCsn a n with
        | some a => .ok { p with payload := r.1 } (some a)
        | none => .replay
      else .ok { p with payload := r.1 } (some a)
  | none, false => if p.trailer = toLE 4 (crc32c (coveredBytes t p)).toNat then .ok p none else .crc
  | _, _ => .auth

/-- The packet keys by which check 1 judges a packet to a queue-pair number: the queue pair's, or those a tombstone keeps (R487, R489). -/
def authOf (d : Dev) (n : Nat) : Option Auth :=
  match d.qp? n with
  | some q => q.conn.auth
  | none => (d.q.tombs.get? n).bind (·.auth)

def setAuth (n : Nat) (a : Option Auth) (d : Dev) : Dev :=
  match a with
  | none => d
  | some a =>
    if (d.qp? n).isSome then d.onConn n fun c => { c with auth := some a }
    else d.onQ fun x => { x with tombs := x.tombs.upd n fun t => { t with auth := some a } }

-- Violations (R272)

/-- One more of a kind: how many fall within the span that ends now; the count starts anew once it reaches the limit. -/
def addViol (l : List (Nat × Nat)) (kind t span limit : Nat) : Nat × List (Nat × Nat) :=
  let mine := l.filter (fun v => v.1 = kind && t < v.2 + span) ++ [(kind, t)]
  (mine.length, l.filter (fun v => v.1 ≠ kind) ++ (if mine.length < limit then mine else []))

/-- One more of a kind on a queue pair: whether it is the one that reaches the limit. -/
def violation (n kind limit : Nat) (d : Dev) : Bool × Dev :=
  match d.qp? n with
  | none => (false, d)
  | some q =>
    let (k, l) := addViol q.conn.viol kind (now d) (msTicks 1) limit
    (limit ≤ k, d.onConn n fun c => { c with viol := l })

def qpTenant (d : Dev) (n : Nat) : Option Nat := (d.qp? n).map (·.par.tenant)

/-- A violation under per queue pair escalation: the sixteenth within 1 ms puts the queue pair into error (R272). -/
def escalate (port n src : Nat) (d : Dev) : Dev :=
  match violation n src 16 (count src port (qpTenant d n) 1 d) with
  | (false, d) => d
  | (true, d) =>
    let t := ((qpTenant d n).getD 0xFFFF)
    logIt 0x0402 3 port [n, src] t (d := toFlush n (some ccRemoteAccess) (some ccRemoteAccess) (count 0x040F port (qpTenant d n) 1 d))

/-- More than 1,000 trailer mismatches within 1 s are logged for the port (R272). -/
def trailerBad (port : Nat) (d : Dev) : Dev :=
  let d := count rxTrailerBad port none 1 d
  let l := (d.port port).trailerBad.filter (fun t => now d < t + secTicks 1) ++ [now d]
  if 1000 < l.length then logIt 0x0401 3 port [rxTrailerBad, 0, 0] (d := d.onPort port fun p => { p with trailerBad := [] })
  else d.onPort port fun p => { p with trailerBad := l }

def malformed (port : Nat) (p : Pkt) (d : Dev) : Dev :=
  logFirst60 rxMalformed p.srcNode.toNat 0x0401 3 port [rxMalformed, p.srcNode.toNat, p.dstQpn.toNat] (count rxMalformed port none 1 d)

def versionBad (port : Nat) (p : Pkt) (d : Dev) : Dev :=
  logFirst60 rxVersionBad port 0x0401 3 port [rxVersionBad, p.srcNode.toNat, p.dstQpn.toNat] (count rxVersionBad port none 1 d)

-- Frames of a direct link that are handed inward (R316)

/-- The whole frame of a DIRECT port that carries the packet. -/
def inwardWith (d : Dev) (port : Nat) (t : BitVec 8) (p : Pkt) : Option (Nat × Bytes) :=
  let b := coveredBytes t p ++ p.trailer
  (d.port port).link.inward.find? fun x => slice x.2 (x.2.length - 4 - b.length) b.length = b

/-- The channel and the buffer places of a frame on a DIRECT port (R317). -/
def placesOf (x : Nat × Bytes) : Nat × Nat := (x.1, ceilDiv x.2.length 244)

/-- Buffer places of a port are free, and their credits owed (R317, R318). -/
def freePlaces (port : Nat) (l : Option (Nat × Nat)) (d : Dev) : Dev :=
  match l with
  | some (c, n) => d.onPort port fun p => { p with link := { p.link with owed := modAt p.link.owed c (· + n) } }
  | none => d

/-- The frame is no longer among those that wait to be taken in. -/
def dropInward (port : Nat) (x : Nat × Bytes) (d : Dev) : Dev :=
  d.onPort port fun p => { p with link := { p.link with inward := p.link.inward.erase x } }

/-- The frame leaves the buffer and its places free (R317, R318). -/
def takeInward (port : Nat) (x : Nat × Bytes) (d : Dev) : Dev := freePlaces port (some (placesOf x)) (dropInward port x d)

/-- A frame of the Ethernet or of a direct link is taken in: on a DIRECT port its blocks must have come, its last one intact (R316). -/
def frameIn (port : Nat) (x : Option (Nat × Bytes)) (f : Dev → Dev) (d : Dev) : Dev :=
  if (d.port port).ent.mode ≠ .direct then f d
  else match x with
    | some x => f (takeInward port x d)
    | none => d

-- Meters (R297 to R299)

/-- Colours in rising severity: 0 green, 1 yellow, 2 red. -/
def meterColour (m : Meter) : Nat := if m.mode = .off then 0 else if m.peak ≤ 0 then 2 else if m.committed ≤ 0 then 1 else 0

/-- RFC 2698, colour-blind: red charges nothing, yellow the peak bucket, green both. -/
def meterCharge (m : Meter) (len : Nat) : Meter :=
  let c : Int := (len + 20) * 1024
  match m.mode, meterColour m with
  | .off, _ => m
  | _, 0 => { m with committed := m.committed - c, peak := m.peak - c }
  | _, 1 => { m with peak := m.peak - c }
  | _, _ => m

/-- What the ingress buffer of a port holds (R300): requests that wait to be admitted, packets that wait for a core (R474), for the way to cross to their places or for the exit from Bivouac (R538), blocks of open frames and whole frames of a direct link. -/
def ingressFill (d : Dev) (port : Nat) : Nat :=
  let l := (d.port port).link
  let crossing := d.fab.crossings.foldl (fun n c => match c.what with
    | .accepted _ k _ p _ => if k = port then n + frameLen p else n
    | .rope k _ p => if k = port then n + frameLen p else n
    | _ => n) 0
  -- a DIRECT port's held frames stand among its whole ones
  let asleep := if (d.port port).ent.mode = .direct then 0 else d.pwr.pktsHeld.foldl (fun n x => match x with
    | .pkt k _ p => if k = port then n + frameLen p else n
    | _ => n) 0
  let opening := d.ciph.opening.foldl (fun n o => if o.port = port then n + frameLen o.pkt else n) 0
  let frames := (l.openBlocks.map fun b => (b.map List.length).sum).sum + ((l.whole ++ l.inward).map fun x => x.2.length).sum
  d.q.qps.foldl (fun n (_, q) => q.conn.rx.foldl (fun n m => match m.request with
    | some p => if m.port = port && !m.admitted then n + frameLen p else n
    | none => n) n) (crossing + asleep + opening + frames)

/-- An Ethernet port's buffer has no room for a frame: it is discarded before any check and counted (R300). -/
def bufFull (d : Dev) (port size : Nat) : Bool := (d.port port).ent.mode ≠ .direct && 1048576 < ingressFill d port + size

/-- A policing meter drops a packet by the colour that it gives itself (R299; log 47). -/
def meterDrops (d : Dev) (port : Nat) (m : Meter) : Bool :=
  let colour := meterColour m
  m.mode = .police && (colour = 2 || (colour = 1 && m.yellowFill < 100 && m.yellowFill * 1048576 ≤ 100 * ingressFill d port))

def tenantMeter (d : Dev) (t tile : Nat) : Meter := nth (((d.net.pace.get? t).map (·.meters)).getD []) tile {}

/-- Meter a packet that has passed checks 1 to 3: whether it is dropped. -/
def meterPkt (port : Nat) (t : BitVec 8) (p : Pkt) (ten : Nat) (d : Dev) : Bool × Dev :=
  let tile := portTile port
  let pm := (d.port port).meter
  let tm := tenantMeter d ten tile
  let colour := max (meterColour pm) (meterColour tm)
  let drop := !isCtl t && (meterDrops d port pm || meterDrops d port tm)
  let d := d.onPort port fun x => { x with meter := meterCharge x.meter (frameLen p) }
  let d := d.onNet fun x => { x with pace := x.pace.upd ten fun y => { y with meters := modAt y.meters tile fun m => meterCharge m (frameLen p) } }
  let d := count (0x0500 + colour) port (some ten) 1 d
  (drop, if drop then count 0x0503 port (some ten) 1 d else d)

-- NAKs (R244, R245, R267)

/-- NAK a packet of a queue pair. -/
def nakPkt (n code detail : Nat) (p : Pkt) (d : Dev) : Dev :=
  match d.qp? n with
  | none => d
  | some q => sendCtl n ptNak (nakExt p.psn p.msn code detail q.conn.cumRx 0) p.path.toNat d

def nakNotReady (n port : Nat) (p : Pkt) (d : Dev) : Dev := nakPkt n nkNotReady 0 p (count 0x0408 port (qpTenant d n) 1 d)

/-- The one fatal NAK of a queue pair (R267): kept, to be given again. -/
def nakFatal (n code detail : Nat) (p : Pkt) (d : Dev) : Dev :=
  nakPkt n code detail p (d.onConn n fun c => { c with
    fatal := some (BitVec.ofNat 8 code, BitVec.ofNat 8 detail, p.msn, now d)
    rx := c.rx.map fun m => if m.msn = p.msn then { m with failed := true } else m })

/-- The fatal NAK given again to a later packet, at most once per 10 µs (R267). -/
def nakAgain (n : Nat) (q : Qp) (p : Pkt) (d : Dev) : Dev :=
  match q.conn.fatal with
  | none => d
  | some (code, detail, msn, last) =>
    if now d < last + usTicks 10 then d
    else
      let d := d.onConn n fun c => { c with fatal := some (code, detail, msn, now d) }
      sendCtl n ptNak (nakExt p.psn msn code.toNat detail.toNat q.conn.cumRx 0) p.path.toNat d

/-- An answer back to a packet's source: sealed where the queue pair, or the place's tombstone, holds the key (R489), or a plain one. -/
def answerPlace (port n : Nat) (ext : Bytes) (p : Pkt) (d : Dev) : Dev :=
  match (authOf d n).filter fun a => !a.dead with
  | none => answerStray port ptNak ext p d
  | some a =>
    if !nodeKnown d (portTile port) p.srcNode then d
    else
      let r : Pkt := withOuter d (portTile port) { p with
        pflags := 0x04#8, dstNode := p.srcNode, srcNode := d.net.nodeId, dstQpn := p.srcQpn, srcQpn := p.dstQpn,
        psn := 0#32, msn := 0#32, txTime := d.pwr.tsc.setWidth 32, ext := ext, payload := [] }
      release (portTile port) port ptNak (sealPkt a ptNak r) none 0 false none (setAuth n (some { a with csn := a.csn + 1#64 }) d)

/-- BAD_QP and its kin: at most one per source node per 10 µs (R266). -/
def nakLimited (d : Dev) (node : BitVec 16) : Bool :=
  match d.q.badQpNak.get? node.toNat with
  | some t => now d < t + usTicks 10
  | none => false

/-- A packet to a free place (R269, R460, R489). -/
def freePlace (port n : Nat) (t : BitVec 8) (p : Pkt) (d : Dev) : Dev :=
  let d := count rxNoQp port none 1 d
  if !(hasPsn t || t = ptProbe) then d
  else match d.ten.stubs.get? n with
    | some s =>
      let recent : Bool := match s.answered.get? p.srcNode.toNat with
        | some x => now d < x + usTicks 10
        | none => false
      if recent then d
      else
        let d := d.onTens fun y => { y with stubs := y.stubs.upd n fun s => { s with answered := s.answered.set p.srcNode.toNat (now d) } }
        answerPlace port n (nakExt p.psn p.msn nkMoved 0 p.psn (s.node.toNat * 2 ^ 48 + s.qpn.toNat)) p d
    | none =>
      if nakLimited d p.srcNode then d
      else
        let d := d.onQ fun x => { x with badQpNak := x.badQpNak.set p.srcNode.toNat (now d) }
        let code := match d.q.tombs.get? n with
          | some b => if b.cause = .hostLost then nkHostLost else nkBadQp
          | none => nkBadQp
        answerPlace port n (nakExt p.psn p.msn code 0 p.psn 0) p d

/-- A packet to a queue pair in ERROR: its source is answered (R272; log 46). -/
def errorQp (port n : Nat) (t : BitVec 8) (p : Pkt) (d : Dev) : Dev :=
  let d := count rxQpError port (qpTenant d n) 1 d
  if !(hasPsn t || t = ptProbe) || nakLimited d p.srcNode then d
  else
    let cum := ((d.qp? n).map (·.conn.cumRx)).getD p.psn
    answerPlace port n (nakExt p.psn p.msn nkBadQp 0 cum 0) p (d.onQ fun x => { x with badQpNak := x.badQpNak.set p.srcNode.toNat (now d) })

-- Commits and acknowledgements (R256, R260)

/-- CUM_PSN moves over every leading set bit. -/
def advanceCum : Nat → Conn → Conn
  | 0, c => c
  | k + 1, c => match c.rxMap with
    | true :: r => advanceCum k { c with cumRx := c.cumRx + 1#32, rxMap := r ++ [false] }
    | _ => c

def commitPsn (psn : BitVec 32) (c : Conn) : Conn :=
  advanceCum 256 { c with rxMap := modAt c.rxMap (psn - c.cumRx).toNat fun _ => true }

/-- An ACK at once for an arriving packet. -/
def ackNow (n : Nat) (p : Pkt) (d : Dev) : Dev := sendAck n p.psn p.txTime (now d) p.path d

/-- A packet's effect is committed: its bit, the messages it completes, its ACK, which echoes it with the time it arrived (R243, R256, R260), and its payload (R451). -/
def commit (n : Nat) (p : Pkt) (arr : BitVec 32) (d : Dev) : Dev :=
  let d := d.onConn n fun c => { commitPsn p.psn c with commits := c.commits + 1, echo := (p.psn, p.txTime, p.path, arr) }
  let d := match qpTenant d n with
    | some t => tenCount t 5 p.payload.length d
    | none => d
  let d := rxAdvance n d
  let k : Nat := ((d.qp? n).map (·.conn.commits)).getD 0
  if k ≠ 0 && (pflag p pfAckReq || 16 ≤ k) then ackLatest n d else d

-- Windows (R179)

/-- A byte range within a window, and the rights it needs. -/
def winCheck (d : Dev) (tile : Nat) (p : Pkt) (need : Nat) (ranges : List (Nat × Nat)) : Except Nat Window :=
  match if bx p.ext 0 4 < 16384 then d.win? (bx p.ext 0 4) else none with
  | none => .error 0x01
  | some w =>
    let v := nth w.views tile .free
    if v = .free then .error 0x01
    else if bx p.ext 4 4 ≠ w.key.toNat then .error 0x02
    else if w.peerMode = 1 && w.peerNode ≠ p.srcNode then .error 0x03
    else if v = .closing then .error 0x04
    else if ranges.any fun (a, n) => n ≠ 0 && w.len < a + n then .error 0x05
    else if w.rights.toNat &&& need ≠ need then .error 0x06
    else .ok w

/-- The detail of R213 for a code of R179. -/
def winDetail (code : Nat) : Nat := 0x3F + code

/-- Rights: READ 1, WRITE 2, ATOMIC 4, OPERATE 8. -/
def operateNeed (desc : Bytes) : Nat := 8 + 1 + (if (descRanges desc).any fun (_, _, w) => w then 2 else 0)

/-- The ranges of a request within its window (R117, R179). -/
def reqRanges (t : BitVec 8) (p : Pkt) : List (Nat × Nat) :=
  let o := bx p.ext 8 8
  if t = ptWrite then [(o + p.msgOffset.toNat, p.payload.length)]
  else if t = ptReadReq then [(o, bx p.ext 16 4)]
  else if t = ptAtomicReq then [(o, bx p.ext 17 1)]
  else (descRanges p.payload).map fun (a, n, _) => (a, n)

def reqNeed (t : BitVec 8) (p : Pkt) : Nat :=
  if t = ptWrite then 2 else if t = ptReadReq then 1 else if t = ptAtomicReq then 4 else operateNeed p.payload

/-- The window checks of a request, counted; the first failure is a fatal NAK. -/
def windowGate (n port : Nat) (t : BitVec 8) (p : Pkt) (d : Dev) : Option Window × Dev :=
  match winCheck d (portTile port) p (reqNeed t p) (reqRanges t p) with
  | .error c => (none, nakFatal n c (winDetail c) p (count 0x0809 (portTile port) (qpTenant d n) 1 d))
  | .ok w => (some w, count 0x0808 (portTile port) (some w.tenant) 1 d)

/-- A tenant that is being frozen answers requests NOT_READY (R461). -/
def frozenTenant (d : Dev) (t : Nat) : Bool :=
  match d.ten? t with
  | some x => x.st = .freezing || x.st = .frozen
  | none => false

/-- A request that cannot be taken now (R227, R461, R537). -/
def notReadyNow (d : Dev) (q : Qp) (t : BitVec 8) (p : Pkt) : Bool :=
  d.pwr.state = .entering || frozenTenant d q.par.tenant
    || (t ≠ ptSend && match d.win? (bx p.ext 0 4) with
      | some w => frozenTenant d w.tenant
      | none => false)
    || !cqTakes d q.par.sendCq || (!q.par.noRq && !cqTakes d q.par.recvCq)

-- Placement

/-- The tile through which the receiving tile o reaches a place (R31, R34). -/
def landTile (d : Dev) (o : Nat) : Place → Nat
  | .dev a => stackTile (dpaStack a)
  | .host p _ _ => (hostTile d p o).getD o

/-- The place can be reached from tile o in the REQ class, and nothing waits before it on the way (R17, R18, R34). -/
def landOpen (d : Dev) (o : Nat) (pl : Place) : Bool :=
  let e := landTile d o pl
  !(d.fab.crossings.any fun c => c.flow = ⟨.req, o, e⟩) && tileOpen d .req o e && (match pl with
    | .dev a => stackOffline d (dpaStack a) || hasCredit d.fab ⟨1, .req, dpaStack a⟩
    | .host p _ _ => (hostTile d p o).isSome)

/-- The flow on which a packet waits for its places; none: it reaches them all. -/
def landFlow (d : Dev) (o : Nat) (l : List (Place × Nat)) : Option Flit :=
  (l.find? fun (p, _) => !landOpen d o p).map fun (p, _) => ⟨.req, o, landTile d o p⟩

/-- A host port that issues no requests holds a place of the message (R387). -/
def hostShut (d : Dev) (l : List (Place × Nat)) : Bool := l.any fun (p, _) => match p with
  | .host s _ _ => !canIssue d s
  | .dev _ => false

/-- n bytes from an offset on of the places an entry was translated to (R164). -/
def placesAt (l : List (Place × Nat)) (off n : Nat) : List (Place × Nat) := takePlaces n (dropPlaces off l)

/-- Spoiled stretches within the first n bytes, and those after them. -/
def clipBad (n : Nat) (l : List (Nat × Nat)) : List (Nat × Nat) :=
  l.filterMap fun (o, k) => if o < n then some (o, min k (n - o)) else none

def shiftBad (n : Nat) (l : List (Nat × Nat)) : List (Nat × Nat) :=
  l.filterMap fun (o, k) => if n < o + k then some (o - n, o + k - max o n) else none

/-- Payload bytes reach their places; spoiled granules become poison, or stay unwritten in host memory. True: poison or a lost stack was met (R58, R66, R259). -/
def placeBytes : List (Place × Nat) → Bytes → List (Nat × Nat) → Dev → Bool × Dev
  | [], _, _, d => (false, d)
  | (pl, n) :: r, b, bad, d =>
    let x := b.take n
    let here := clipBad n bad
    let (m, d) := match pl with
      | .dev a =>
        let d := touchStack (dpaStack a) d
        if stackOffline d (dpaStack a) then (true, d) else placeDev a x here d
      | .host s pasid a => placeHost s pasid a x here d
    let (m', d) := placeBytes r (b.drop n) (shiftBad n bad) d
    (m || m', d)

/-- The message of a peer with this MSN. -/
def rxMsg? (q : Qp) (msn : BitVec 32) : Option RxMsg := q.conn.rx.find? fun m => m.msn = msn

/-- Change the record of a message, or make one. -/
def upRx (n : Nat) (fresh : RxMsg) (f : RxMsg → RxMsg) (d : Dev) : Dev :=
  d.onConn n fun c =>
    if c.rx.any fun m => m.msn = fresh.msn then { c with rx := c.rx.map fun m => if m.msn = fresh.msn then f m else m }
    else { c with rx := c.rx ++ [f fresh] }

/-- A message consumed with nothing to release but itself: a failed request (R256, R267). -/
def consumeFailed (n port : Nat) (t : BitVec 8) (p : Pkt) (arr : BitVec 32) (d : Dev) : Dev :=
  commit n p arr (upRx n { msn := p.msn, verb := t, len := some 0, port := port } (fun m => { m with done := true, failed := true }) d)

end Sys2Proof.Machine
end

