-- ==== Sys2Proof/Machine/RxReq.lean ====
section
/-! DEFINITION. Requests of peers: WRITE and SEND placed as they arrive, READ, ATOMIC and OPERATE held until they are admitted and run (R33, R36, R179 to R181, R204 to R207, R215, R256 to R259). -/

namespace Sys2Proof.Machine

/-- Conflicting lengths are fatal for the message (R272). -/
def lengthConflict (n port : Nat) (p : Pkt) (d : Dev) : Dev :=
  let t := qpTenant d n
  let d := logIt 0x0401 3 port [rxLengthConflict, p.srcNode.toNat, n] (t.getD 0xFFFF) (d := count rxLengthConflict port t 1 d)
  nakFatal n nkProtocol 0 p d

/-- The packet disagrees with what is known of its message: another kind, another RECV or MSG_LEN, two ends, bytes beyond the end (R257, R272). -/
def conflicts (m : RxMsg) (t : BitVec 8) (p : Pkt) (ssn : Option (BitVec 32)) (msgLen : Option Nat) : Bool :=
  let fin := p.msgOffset.toNat + p.payload.length
  let last := pflag p pfLast
  m.verb ≠ t || m.ssn ≠ ssn || m.done || (match m.len with
    | some l => (last && fin ≠ l) || l < fin || (msgLen.isSome && msgLen ≠ some l)
    | none => last && fin < m.top)

/-- The RECV a message consumes (R257). -/
inductive RecvFor where
  /-- not yet fetched and translated -/
  | notReady
  /-- another message has it, or it is spent -/
  | taken
  /-- its translation was removed (R164) -/
  | removed (r : Recv)
  | some_ (r : Recv)

def recvFor (q : Qp) (msn ssn : BitVec 32) : RecvFor :=
  match q.recvs.find? fun r => BitVec.ofNat 32 r.ord = ssn && (r.fin.isNone || r.msn.isSome) with
  | some r =>
    if r.msn.isSome && (r.msn ≠ some msn || r.fin.isSome) then .taken
    else if r.removed then .removed r
    else .some_ r
  | none => if 0 ≤ seqDiff ssn (BitVec.ofNat 32 q.recvOrd) then .notReady else .taken

/-- A WRITE or SEND packet that may be placed: its bytes go to the places, and the message's account is kept (R256 to R259). -/
def placePkt (n port : Nat) (t : BitVec 8) (p : Pkt) (arr : BitVec 32) (ssn : Option (BitVec 32)) (msgLen : Option Nat)
    (places : Option (List (Place × Nat))) (d : Dev) : Dev :=
  let (bad, d) := match places with
    | some l => placeBytes l p.payload [] d
    | none => (true, d)
  let fin := p.msgOffset.toNat + p.payload.length
  let ext := if t = ptSend then 0 else 16
  let imm := if ssn.isSome && pflag p pfImm then some (BitVec.ofNat 32 (bx p.ext (ext + 8) 4)) else none
  let d := upRx n { msn := p.msn, verb := t, len := msgLen, port := port, ssn := ssn, imm := imm } (fun m =>
    let len := if pflag p pfLast then some fin else m.len
    let placed := m.placed + p.payload.length
    { m with len := len, placed := placed, top := max m.top fin, poisoned := m.poisoned || bad, done := len = some placed,
             psn := p.psn, path := p.path, arrived := arr }) d
  let whole := match (d.qp? n).bind fun q => rxMsg? q p.msn with
    | some m => m.done && m.poisoned && t = ptWrite
    | none => false
  let d := if whole then d.onConn n fun c => { c with pendNak := c.pendNak ++ [(p.msn, p.psn)] } else d
  commit n p arr d

/-- The RECV of a message cannot take it: the message fails, and the RECV without a second NAK (R205, R257). -/
def recvRefuses (n : Nat) (t : BitVec 8) (r : Recv) (p : Pkt) (detail : Nat) (d : Dev) : Dev :=
  let d := nakFatal n nkReceiver 0x46 p d
  let d := d.onQp n fun q => { q with recvs := q.recvs.map fun x => if x.ord = r.ord && x.fin.isNone then { x with msn := none } else x }
  recvFail n r.ord ccLocalAccess detail d (arrivedVerb t)

/-- A SEND, or a WRITE with IMM, finds its RECV (R205, R257). -/
def withRecv (n port : Nat) (t : BitVec 8) (p : Pkt) (ssn : BitVec 32) (len : Nat) (f : Recv → Dev → Dev) (d : Dev) : Dev :=
  match d.qp? n with
  | none => d
  | some q => match recvFor q p.msn ssn with
    | .notReady => nakNotReady n port p d
    | .taken => lengthConflict n port p d
    | .removed r => recvRefuses n t r p 0x10 d
    | .some_ r =>
      let d := d.onQp n fun q => { q with recvs := q.recvs.map fun x => if x.ord = r.ord && x.fin.isNone then { x with msn := some p.msn } else x }
      if weLen r.bytes < len then recvRefuses n t r p 0x25 d
      else f r d

/-- SEND, placed where its RECV was translated to at its fetch (R164, R257); a host port that cannot issue has it wait (R387). -/
def rxSend (n port : Nat) (p : Pkt) (arr : BitVec 32) (d : Dev) : Dev :=
  match d.qp? n with
  | none => d
  | some q =>
    let ssn := BitVec.ofNat 32 (bx p.ext 0 4)
    let len := bx p.ext 4 4
    let m : RxMsg := (rxMsg? q p.msn).getD { msn := p.msn, verb := ptSend, len := some len, ssn := some ssn }
    if conflicts m ptSend p (some ssn) (some len) then lengthConflict n port p d
    else withRecv n port ptSend p ssn len (fun r d =>
      let l := placesAt r.runs p.msgOffset.toNat p.payload.length
      if hostShut d l then nakNotReady n port p d
      else placePkt n port ptSend p arr (some ssn) (some len) (some l) d) d

/-- A window offset as a tenant address (R180). -/
def winAddr (w : Window) (off : Nat) : Nat := 2 ^ 63 + w.dva + off

/-- WRITE: its bytes go to the window; with IMM it also consumes a RECV, whose buffer stays untouched (R180, R204, R256, R257). -/
def rxWrite (n port : Nat) (p : Pkt) (arr : BitVec 32) (d : Dev) : Dev :=
  match windowGate n port ptWrite p d with
  | (none, d) => d
  | (some w, d) => match d.qp? n with
    | none => d
    | some q =>
      let imm := pflag p pfImm
      let ssn := if imm then some (BitVec.ofNat 32 (bx p.ext 16 4)) else none
      let len := if imm then some (bx p.ext 20 4) else none
      let m : RxMsg := (rxMsg? q p.msn).getD { msn := p.msn, verb := ptWrite, len := len, ssn := ssn }
      if conflicts m ptWrite p ssn len then lengthConflict n port p d
      else
        let a := winAddr w (bx p.ext 8 8 + p.msgOffset.toNat)
        let go (d : Dev) : Dev :=
          let d := lookupRange (portTile port) w.tenant a p.payload.length (.placing n p.msn) d
          placePkt n port ptWrite p arr ssn len (xrange d (portTile port) w.tenant a p.payload.length true).toOption d
        match ssn, len with
        | some s, some l => withRecv n port ptWrite p s l (fun _ d => go d) d
        | _, _ => go d

/-- READ_REQ, ATOMIC_REQ or OPERATE_REQ: it passes its window and waits for its turn (R181, R215, R256). A request that already waits is the same one. -/
def rxHold (n port : Nat) (t : BitVec 8) (p : Pkt) (arr : BitVec 32) (d : Dev) : Dev :=
  match d.qp? n with
  | none => d
  | some q => match rxMsg? q p.msn with
    | some m => if m.verb = t && m.request.isSome && !m.admitted then d else lengthConflict n port p d
    | none =>
      if t = ptOperateReq && (p.payload.length % 64 ≠ 0 || 512 < p.payload.length || p.payload = [] || !pflag p pfFirst || !pflag p pfLast) then
        consumeFailed n port t p arr (nakPkt n nkOperator 0x03 p (count rxMalformed port (qpTenant d n) 1 d))
      else match windowGate n port t p d with
        | (none, d) => d
        | (some _, d) =>
          match if t = ptOperateReq then descCheck false p.payload.length p.payload else none with
          | some x => consumeFailed n port t p arr (nakPkt n nkOperator x p d)
          | none =>
            let d := drainUp (bx p.ext 0 4) (portTile port) d
            upRx n { msn := p.msn, verb := t, len := none, port := port, request := some p, psn := p.psn, path := p.path, arrived := arr } id d

/-- A request that has passed every check of R255. -/
def rxRequest (n port : Nat) (t : BitVec 8) (p : Pkt) (arr : BitVec 32) (d : Dev) : Dev :=
  match d.qp? n with
  | none => d
  | some q =>
    if notReadyNow d q t p then nakNotReady n port p d
    else if seqDiff p.msn q.conn.rxMsn < 0 then lengthConflict n port p d
    else if t = ptSend then rxSend n port p arr d
    else if t = ptWrite then rxWrite n port p arr d
    else rxHold n port t p arr d

-- RESPONDER_ADMIT

/-- The next request in message order: every earlier WRITE, SEND and ATOMIC is placed and every earlier request admitted (R215). -/
def nextAdmit (q : Qp) : Nat → BitVec 32 → Option RxMsg
  | 0, _ => none
  | f + 1, msn => match rxMsg? q msn with
    | none => none
    | some m =>
      if m.done || m.admitted then nextAdmit q f (msn + 1#32)
      else if m.request.isSome then some m else none

/-- A granule of a READ's source: its bytes, or zeros where a codeword is poisoned or its stack is lost (R259). -/
def readGranule (d : Dev) (l : List (Nat × Nat)) : Bool × Bytes :=
  match if l.any fun (a, _) => stackOffline d (dpaStack a) then none else readPieces d l with
  | some b => (false, b)
  | none => (true, zpad ((l.map Prod.snd).sum))

/-- A packet's payload read in 256 B granules: POISON_MAP and bytes. -/
def readMarked (d : Dev) (places : List (Nat × Nat)) (off len : Nat) : Nat × Bytes :=
  let g := (List.range (ceilDiv len 256)).map fun k =>
    readGranule d (devPlaces (takePlaces (min 256 (len - 256 * k)) (dropPlaces (off + 256 * k) (places.map fun (a, n) => (Place.dev a, n)))))
  (maskOf g.length fun k => (nth g k (false, [])).1, g.flatMap Prod.snd)

/-- RESP extension (R242). -/
def respExt (map : Nat) : Bytes := toBE 4 map ++ zpad 4

/-- A READ runs: its data is read and its response sent (R181, R258, R259). -/
def admitRead (n : Nat) (w : Window) (m : RxMsg) (p : Pkt) (d : Dev) : Dev :=
  let len := bx p.ext 16 4
  let a := winAddr w (bx p.ext 8 8)
  let tile := portTile m.port
  let d := lookupRange tile w.tenant a len (.placing n m.msn) d
  let places := (devPieces ((xrange d tile w.tenant a len false).toOption.getD [])).getD []
  let d := places.foldl (fun d (x, _) => touchStack (dpaStack x) d) d
  let d := pushPkts n ptReadResp (respExt 0) m.msn len none (some a) false d
  d.onConn n fun c => { c with unacked := c.unacked.map fun u =>
    if u.ptype = ptReadResp && u.msn = m.msn then
      let (map, b) := if places = [] then (maskOf (ceilDiv u.len 256) fun _ => true, zpad u.len) else readMarked d places u.off u.len
      { u with ext := respExt map, data := some b, srcTen := some w.tenant }
    else u }

/-- An ATOMIC runs once (R207, R258): the original value is kept for its response; a poisoned codeword is answered UNCORRECTABLE. -/
def admitAtomic (n : Nat) (w : Window) (m : RxMsg) (p : Pkt) (d : Dev) : Dev :=
  let tile := portTile m.port
  let size := bx p.ext 17 1
  let a := winAddr w (bx p.ext 8 8)
  let d := lookupRange tile w.tenant a size (.placing n m.msn) d
  let run : Option (Nat × Dev) := match xrange d tile w.tenant a size true with
    | .ok ((.dev x, _) :: _) =>
      let d := touchStack (dpaStack x) d
      if stackOffline d (dpaStack x) then none else atomicAt x size (bx p.ext 16 1) (bx p.ext 24 8) (bx p.ext 32 8) d
    | _ => none
  match run with
  | none => rxDone n m.msn (nakPkt n nkUncorrectable 0x14 p d)
  | some (old, d) => rxDone n m.msn (pushPkts n ptAtomicResp (respExt 0) m.msn 8 (some (toBE 8 old)) none false d)

/-- The stacks of an admitted READ's source or an ATOMIC's target can be reached (R12, R18, R21). -/
def admitOpen (d : Dev) (tile : Nat) (w : Window) (t : BitVec 8) (p : Pkt) : Bool :=
  let n := if t = ptReadReq then bx p.ext 16 4 else if t = ptAtomicReq then bx p.ext 17 1 else 0
  placesOpen d tile ((xrange d tile w.tenant (winAddr w (bx p.ext 8 8)) n (t = ptAtomicReq)).toOption.getD [])

/-- RESPONDER_ADMIT: the next READ, ATOMIC or OPERATE in message order is admitted and run; its PSN is then received (R215, R256). An OPERATE needs a pending-leg place (R24, R109). -/
def devResponderAdmit (n : Nat) (d : Dev) : Dev :=
  match d.qp? n with
  | none => d
  | some q =>
    if !(q.st = .rtr || q.st = .rts) then d
    else match nextAdmit q 64 q.conn.rxMsn with
      | none => d
      | some m => match m.request with
        | none => d
        | some p =>
          let win := bx p.ext 0 4
          let tile := portTile m.port
          match d.win? win with
          | none => d
          | some w =>
            if !tileUp d tile || !admitOpen d tile w m.verb p || (m.verb = ptOperateReq && (1024 ≤ pendingUsed d tile || ucodeBusy d false tile)) then d
            else
              let d := d.onConn n fun c => { c with rx := c.rx.map fun x => if x.msn = m.msn then { x with admitted := true } else x }
              let d :=
                if m.verb = ptReadReq then rxDone n m.msn (drainDown win tile (admitRead n w m p d))
                else if m.verb = ptAtomicReq then drainDown win tile (admitAtomic n w m p d)
                else newOp tile w.tenant (.message n m.msn win (winAddr w 0)) (p.payload.take (dLen p.payload)) d
              commit n p m.arrived d

def execResponderAdmit (qpn : Nat) (s : State) : Host.Outcome State Fault Refusal := onDev s (liveQ (devResponderAdmit qpn))

end Sys2Proof.Machine
end

