-- ==== Sys2Proof/Machine/TxPath.lean ====
section
/-! DEFINITION. Congestion state of paths (R279 to R287), round-trip times (R262), packets that are to be sent again (R263, R283, R284). -/

namespace Sys2Proof.Machine

def onPath (n k : Nat) (f : Path → Path) (d : Dev) : Dev := d.onQp n fun q => { q with paths := modAt q.paths k f }

/-- a comes before b (R249). -/
def psnBefore (a b : BitVec 32) : Bool :=
  let k := (b - a).toNat
  1 ≤ k && k < 2 ^ 31

/-- W within the profile's limits (R282), in 1/256 B. -/
def clampW (f : Profile) (w : Nat) : Nat := max (256 * f.wMin) (min w (256 * f.wMax))

/-- A packet last sent on the path is sent again (R283). -/
def lossPath (f : Profile) (t : Nat) (timer : Bool) (p : Path) : Path :=
  let cut := match p.srtt with
    | none => true
    | some s => p.lastDec + s ≤ t
  let p := if cut then { p with w := clampW f (p.w * (256 - f.mdMax) / 256), lastDec := t } else p
  if timer then { p with timeouts := p.timeouts + 1 } else p

/-- The lesser of two minima, where there are any. -/
def minOpt (a b : Option Nat) : Option Nat :=
  match a, b with
  | some x, some y => some (min x y)
  | some x, none => some x
  | none, y => y

/-- One round-trip sample of r ticks on a path with acked newly acknowledged bytes (R281, R282). TARGET_DELAY is in ns, two to a tick. -/
def samplePath (f : Profile) (t r acked : Nat) (p : Path) : Path :=
  let s := match p.srtt with
    | none => r
    | some s => (7 * s + r) / 8
  let cur := minOpt p.baseCur (some r)
  let base := minOpt cur p.basePrev
  let target := 2 * base.getD r + f.targetDelay
  let p := { p with srtt := some s, baseCur := cur, base := base, timeouts := 0 }
  let p :=
    if 2 * r ≤ target then { p with w := p.w + f.ai * acked * 65536 / max 1 p.w }
    else if p.lastDec + s ≤ t then
      { p with w := p.w - p.w * min (f.mdMax * (2 * r)) (f.beta * (2 * r - target)) / (512 * r), lastDec := t }
    else p
  { p with w := clampW f p.w }

/-- The queue pair's round-trip time (R262). -/
def rttSample (r : Nat) (c : Conn) : Conn :=
  let (s, v) := if c.sampled then ((7 * c.srtt + r) / 8, (3 * c.rttvar + (if r < c.srtt then c.srtt - r else r - c.srtt)) / 4) else (r, r / 2)
  { c with srtt := s, rttvar := v, sampled := true, rto := max 10000 (s + 4 * v) }

/-- Change one unacknowledged packet. -/
def onPkt (n : Nat) (psn : BitVec 32) (f : TxPkt → TxPkt) (d : Dev) : Dev :=
  d.onConn n fun c => { c with unacked := c.unacked.map fun u => if u.psn = psn then f u else u }

def pkt? (q : Qp) (psn : BitVec 32) : Option TxPkt := q.conn.unacked.find? fun u => u.psn = psn

/-- The message of a request packet waits out a NOT_READY back-off (R265). -/
def suspended (q : Qp) (u : TxPkt) : Bool := isReq u.ptype && q.conn.msgs.any fun m => m.msn = u.msn && m.suspended

/-- A path goes down (R284). -/
def pathDown (n k : Nat) (d : Dev) : Dev :=
  count 0x040E (((d.qp? n).bind fun q => (q.paths[k]?).map (·.egress)).getD 0xFF) (qpTenant d n) 1
    (onPath n k (fun p => { p with up := false, holdStart := now d, probe := [] }) d)

/-- Paths of 0xFF to a flat node, none of whose ports is UP, go down (R284, R326). -/
def dropDeadPaths (n : Nat) (d : Dev) : Dev :=
  match d.qp? n with
  | none => d
  | some q =>
    let dead := !isTorus q.conn.peerNode && (match nodeEntry d (qpTile n) q.conn.peerNode with
      | some e => !(bitsOf 16 (u16 e 2)).any (portUp d)
      | none => false)
    if !dead then d
    else (List.range q.paths.length).foldl (fun d k => match q.paths[k]? with
      | some p => if p.up && 16 ≤ p.egress then pathDown n k d else d
      | none => d) d

/-- A packet is to be sent again as a retransmission of R263; its bytes leave the path (R283, R284). -/
def markResend (n : Nat) (u : TxPkt) (src : Option Nat) (countTimeout : Bool) (d : Dev) : Dev :=
  match d.qp? n with
  | none => d
  | some q =>
    let f := qpProfile d n q
    let d := match src with
      | some s => count s u.port (some q.par.tenant) 1 d
      | none => d
    let d := if u.sends = 0 then d
      else count 0x040D u.port (some q.par.tenant) 1 (onPath n u.path (fun p => { lossPath f (now d) countTimeout p with inflight := p.inflight - u.charge }) d)
    let d := onPkt n u.psn (fun u => { u with due := true, retx := u.retx + 1, earlyDone := true, charge := 0 }) d
    match (d.qp? n).bind fun q => q.paths[u.path]? with
    | some p => if countTimeout && u.sends ≠ 0 && p.up && 3 ≤ p.timeouts then pathDown n u.path d else d
    | none => d

-- Completion of messages at the initiator

/-- A message ends; packets of it that are not acknowledged stay in the sequence. -/
def msgDone (n port : Nat) (m : TxMsg) (e : WorkEnd) (err : Bool) (d : Dev) : Dev :=
  let d := count 0x040C port (qpTenant d n) 1 (d.onConn n fun c => { c with msgs := c.msgs.filter fun x => x.msn ≠ m.msn })
  endEntry n m.idx e err d

/-- A message fails with a code that its table names (R245, R263, R265). -/
def msgFail (n : Nat) (m : TxMsg) (code detail : Nat) (d : Dev) : Dev :=
  endBad n m.idx code detail (d.onConn n fun c => { c with msgs := c.msgs.filter fun x => x.msn ≠ m.msn })

/-- The retransmission limit is reached: the packet's message ends NO_ACK; a response's has no completion here (R263, R267). -/
def noAck (n : Nat) (u : TxPkt) (d : Dev) : Dev :=
  match d.qp? n with
  | none => d
  | some q => match if isReq u.ptype then q.conn.msgs.find? fun m => m.msn = u.msn else none with
    | some m => msgFail n m ccRetryExceeded 0x47 d
    | none => toFlush n (some ccRetryExceeded) (some ccRetryExceeded) (count 0x040F u.port (some q.par.tenant) 1 d)

/-- WRITEs and SENDs whose packets are all acknowledged complete (R259, R261). -/
def finishAcked (n port : Nat) (d : Dev) : Dev :=
  match d.qp? n with
  | none => d
  | some q =>
    let go := q.conn.msgs.filter fun m => m.opened && (m.verb = 1 || m.verb = 3) && !q.conn.unacked.any fun u => isReq u.ptype && u.msn = m.msn
    go.foldl (fun d m =>
      msgDone n port m (if m.uncorrectable then ⟨ccUncorrectable, 0x14, m.len, 0#64⟩ else ⟨ccOk, 0, m.len, 0#64⟩) false d) d

/-- PSNs of an acknowledgement are freed: the packets newly acknowledged (R261). -/
def ackApply (n : Nat) (cum : BitVec 32) (sack : Nat → Bool) (d : Dev) : List TxPkt × Dev :=
  match d.qp? n with
  | none => ([], d)
  | some q =>
    let hit (u : TxPkt) : Bool := u.sends ≠ 0 && (psnBefore u.psn cum || ((u.psn - cum).toNat < 256 && sack (u.psn - cum).toNat))
    let got := q.conn.unacked.filter hit
    let d := got.foldl (fun d u => onPath n u.path (fun p => { p with inflight := p.inflight - u.charge }) d) d
    (got, d.onConn n fun c => { c with
      unacked := c.unacked.filter fun u => !hit u
      cumTx := if psnBefore c.cumTx cum then cum else c.cumTx })

/-- The next PSN the sender would send. -/
def nextToSend (c : Conn) : BitVec 32 := ((c.unacked.find? fun u => u.sends = 0).map (·.psn)).getD c.nextPsn

/-- An acknowledgement names a PSN not yet sent (R261, R272). -/
def ackAhead (c : Conn) (cum : BitVec 32) (sack : Nat → Bool) : Bool :=
  let nx := nextToSend c
  psnBefore nx cum || (List.range 256).any fun i => sack i && !psnBefore (cum + BitVec.ofNat 32 i) nx

/-- Packets sent earlier on a path than one now acknowledged are sent again, once for each transmission (R263). -/
def earlyLoss (n : Nat) (got : List TxPkt) (d : Dev) : Dev :=
  match d.qp? n with
  | none => d
  | some q =>
    if q.par.kind = .v1 then d
    else
      let lost := q.conn.unacked.filter fun u => u.sends ≠ 0 && !u.earlyDone && !u.due && u.retx < 7 && !suspended q u
        && got.any fun a => a.path = u.path && u.order < a.order
      lost.foldl (fun d u => markResend n u (some 0x0405) false d) d

end Sys2Proof.Machine
end

