-- ==== Sys2Proof/Machine/RxResp.lean ====
section
/-! DEFINITION. Responses, ACK, NAK, PROBE and DISCONNECT as they arrive (R245, R247, R256, R259, R261 to R268), and the one receiving sequence of R255. -/

namespace Sys2Proof.Machine

-- Responses

def respVerb (t : BitVec 8) : Nat := if t = ptReadResp then 2 else if t = ptAtomicResp then 5 else 6

/-- Granules that POISON_MAP marks in a payload, as stretches (R242). -/
def mapBad (map len : Nat) : List (Nat × Nat) := (bitsOf (ceilDiv len 256) map).map fun g => (256 * g, min 256 (len - 256 * g))

/-- READ_RESP: its payload goes to the places that the READ was translated to; the READ completes when every byte is there (R164, R256, R259). -/
def rxReadResp (n port : Nat) (q : Qp) (m : TxMsg) (p : Pkt) (arr : BitVec 32) (d : Dev) : Dev :=
  let b := msgEntry q m
  let off := p.msgOffset.toNat
  let fin := off + p.payload.length
  if weLen b < fin || (pflag p pfLast && fin ≠ weLen b) then lengthConflict n port p d
  else
    let bad := mapBad (bx p.ext 0 4) p.payload.length
    let (met, d) := placeBytes (placesAt m.runs off p.payload.length) p.payload bad d
    let m := { m with placed := m.placed + p.payload.length, poisoned := m.poisoned || met || bad ≠ [] }
    let d := d.onConn n fun c => { c with msgs := c.msgs.map fun x => if x.msn = m.msn then m else x }
    let d := commit n p arr d
    if m.placed ≠ weLen b then d
    else msgDone n port m (if m.poisoned then ⟨ccUncorrectable, 0x14, weLen b, 0#64⟩ else ⟨ccOk, 0, weLen b, 0#64⟩) false d

/-- ATOMIC_RESP: the original value is placed, zero-extended (R207). -/
def rxAtomicResp (n port : Nat) (q : Qp) (m : TxMsg) (p : Pkt) (arr : BitVec 32) (d : Dev) : Dev :=
  let b := msgEntry q m
  let v := beN (slice p.payload 0 8)
  let (met, d) := placeBytes (placesAt m.runs 0 8) (toLE 8 v) [] d
  let d := commit n p arr d
  msgDone n port m (if met then ⟨ccUncorrectable, 0x14, 0, 0#64⟩ else ⟨ccOk, 0, u8 b 0x19, BitVec.ofNat 64 v⟩) false d

/-- OPERATE_RESP: the body is placed as it comes, the header last (R209, R256). -/
def rxOperateResp (n port : Nat) (q : Qp) (m : TxMsg) (p : Pkt) (arr : BitVec 32) (d : Dev) : Dev :=
  let b := msgEntry q m
  let off := p.msgOffset.toNat
  let fin := off + p.payload.length
  let last := pflag p pfLast
  let clash := match m.total with
    | some l => (last && fin ≠ l) || l < fin
    | none => last && fin < m.top
  if u32 b 0x2C < fin || clash then lengthConflict n port p d
  else
    let cut := if off < 32 then min (32 - off) p.payload.length else 0
    let (met, d) := placeBytes (placesAt m.runs (off + cut) (p.payload.length - cut)) (p.payload.drop cut) [] d
    let m := { m with
      placed := m.placed + p.payload.length
      top := max m.top fin
      total := if last then some fin else m.total
      header := if cut = 0 then m.header else p.payload.take cut
      poisoned := m.poisoned || met }
    let d := d.onConn n fun c => { c with msgs := c.msgs.map fun x => if x.msn = m.msn then m else x }
    let d := commit n p arr d
    if m.total ≠ some m.placed then d
    else
      let (met, d) := placeBytes (placesAt m.runs 0 (min 32 m.placed)) m.header [] d
      let body := u32 m.header 12
      let ended (code detail : Nat) : WorkEnd := ⟨code, detail, 32 + body, BitVec.ofNat 64 (body + u8 m.header 5 * 2 ^ 32)⟩
      msgDone n port m (if m.poisoned || met then ended ccUncorrectable 0x14 else ended ccOk 0) false d

/-- A response that has passed checks 1 to 7: check 8, then its placement. -/
def rxResponse (n port : Nat) (t : BitVec 8) (p : Pkt) (arr : BitVec 32) (d : Dev) : Dev :=
  match d.qp? n with
  | none => d
  | some q => match q.conn.msgs.find? fun m => m.msn = p.msn && m.opened && m.verb = respVerb t with
    | none => escalate port n rxStrayResp d
    | some m =>
      if t = ptReadResp then rxReadResp n port q m p arr d
      else if t = ptAtomicResp then rxAtomicResp n port q m p arr d
      else rxOperateResp n port q m p arr d

-- ACK

/-- The bit of SACK. -/
def sackBit (e : Bytes) (i : Nat) : Bool := tb (u8 e (24 + i / 8)) (i % 8)

/-- A sample for the path a packet was sent on, and for the queue pair (R262, R280). -/
def takeSample (n k r acked : Nat) (d : Dev) : Dev :=
  match d.qp? n with
  | none => d
  | some q => (onPath n k (samplePath (qpProfile d n q) (now d) r acked) d).onConn n (rttSample r)

/-- The answer to a PROBE: a sample, with the bytes of the path that the ACK newly acknowledges (R282), and a path that was down is up again (R262, R284). -/
def probeAnswered (n k r acked : Nat) (echo : BitVec 32) (d : Dev) : Dev :=
  match d.qp? n with
  | none => d
  | some q =>
    let f := qpProfile d n q
    takeSample n k r acked (onPath n k (fun p =>
      if p.up then { p with probe := p.probe.filter fun t => BitVec.ofNat 32 t ≠ echo }
      else { p with probe := [], up := true, w := 256 * f.wMin, timeouts := 0 }) d)

/-- MSN_LIMIT moves on, and messages that waited for it open (R251). -/
def raiseLimit (n : Nat) (limit : BitVec 32) (d : Dev) : Dev :=
  openMsgs n (d.onConn n fun c => { c with msnLimit := if 0 < seqDiff limit c.msnLimit then limit else c.msnLimit })

/-- ACK (R261, R262, R280 to R283). -/
def rxAck (n port : Nat) (p : Pkt) (d : Dev) : Dev :=
  match d.qp? n with
  | none => d
  | some q =>
    let e := p.ext
    let v1 := q.par.kind = .v1
    let cum := BitVec.ofNat 32 (bx e 0 4)
    let sack (i : Nat) : Bool := !v1 && sackBit e i
    if ackAhead q.conn cum sack then escalate port n rxAckBad d
    else
      let d := count 0x040B port (some q.par.tenant) 1 d
      let echoTime := BitVec.ofNat 32 (bx e (if v1 then 8 else 12) 4)
      let delay := BitVec.ofNat 32 (bx e (if v1 then 12 else 16) 4)
      let r := (d.pwr.tsc.setWidth 32 - echoTime - delay).toNat
      let d := d.onConn n fun c => { c with msgs := c.msgs.map fun m => { m with probes := 0 } }
      let (got, d) := ackApply n cum sack d
      let d := earlyLoss n got d
      let echoPsn := BitVec.ofNat 32 (bx e 8 4)
      let k := bx e 20 1
      let probed := !v1 && echoPsn = 0#32 && (q.paths[k]?).any fun pa => pa.probe.any fun t => BitVec.ofNat 32 t = echoTime
      let d :=
        let acked (k : Nat) : Nat := ((got.filter fun x => x.path = k).map (·.charge)).sum
        if probed then probeAnswered n k r (acked k) echoTime d
        else match got.find? fun u => u.sends = 1 && (if v1 then BitVec.ofNat 32 u.sentAt = echoTime else u.psn = echoPsn) with
          | some u => takeSample n u.path r (acked u.path) d
          | none => d
      raiseLimit n (BitVec.ofNat 32 (bx e 4 4)) (finishAcked n port d)

-- NAK

/-- Completion code and detail of a NAK code at the initiator (R245). -/
def nakEnd (code detail : Nat) : Nat × Nat :=
  match code with
  | 0x04 => (ccWindowClosing, 0x43)
  | 0x08 => (ccRemoteAccess, 0x46)
  | 0x09 => (ccRemoteOperator, detail)
  | 0x0A => (ccUncorrectable, 0x14)
  | 0x0B => (ccMoved, 0)
  | 0x0C => (ccHostLost, 0)
  | 0x0D => (ccAuthFailed, 0)
  | 0x0E => (ccRemoteAccess, 0)
  | 0x0F => (ccRemoteAccess, 0)
  | c => (ccRemoteAccess, 0x3F + c)

def nakIsFatal (code : Nat) : Bool := !(code = 0x07 || code = 0x09 || code = 0x0A || code = 0x10)

/-- NAK NOT_READY suspends a message, or ends it at the eighth (R265). -/
def nakSuspend (n port : Nat) (m : TxMsg) (d : Dev) : Dev :=
  let d := count 0x0409 port (qpTenant d n) 1 d
  if m.suspended then d
  else if 7 ≤ m.notReady then msgFail n m ccRetryExceeded 0x48 d
  else d.onConn n fun c => { c with
    msgs := c.msgs.map fun x => if x.msn = m.msn then { x with suspended := true, notReady := x.notReady + 1 } else x
    unacked := c.unacked.map fun u => if isReq u.ptype && u.msn = m.msn && u.sends ≠ 0 then { u with due := false } else u }

/-- NAK SEQUENCE of version 1: every unacknowledged packet from NAK_PSN on is sent again (R274, R287). -/
def nakSequence (n : Nat) (psn : BitVec 32) (d : Dev) : Dev :=
  match d.qp? n with
  | none => d
  | some q => (q.conn.unacked.filter fun u => u.sends ≠ 0 && !psnBefore u.psn psn && u.retx < 7).foldl (fun d u => markResend n u none false d) d

/-- A NAK for a message that has completed already is ignored (R271); one with PSN and MSN 0 answers a PROBE while one is unanswered (log 104). -/
def nakLate (q : Qp) (psn msn : BitVec 32) : Bool :=
  psnBefore msn q.conn.nextMsn && !(psn = 0#32 && msn = 0#32 && q.paths.any fun p => p.probe ≠ [])

/-- NAK: it acknowledges under its CUM_PSN and acts on its message; a fatal one that names none puts the queue pair into error all the same, as the answer to a PROBE does (R244, R245, R259, R265, R267, R271). -/
def rxNak (n port : Nat) (p : Pkt) (d : Dev) : Dev :=
  match d.qp? n with
  | none => d
  | some q =>
    let e := p.ext
    let cum := BitVec.ofNat 32 (bx e 12 4)
    if ackAhead q.conn cum (fun _ => false) then escalate port n rxAckBad d
    else
      let psn := BitVec.ofNat 32 (bx e 0 4)
      let msn := BitVec.ofNat 32 (bx e 4 4)
      let code := bx e 8 1
      let (c, x) := nakEnd code (bx e 9 1)
      let d := count 0x0407 port (some q.par.tenant) 1 d
      let resp := match pkt? q psn with
        | some u => isResp u.ptype
        | none => false
      let msg := if resp then none else q.conn.msgs.find? fun m => m.msn = msn && m.opened
      let d := match msg with
        | some m => if code = nkUncorrectable && m.verb = 1 then
            d.onConn n fun c => { c with msgs := c.msgs.map fun y => if y.msn = m.msn then { y with uncorrectable := true } else y }
          else d
        | none => d
      let d := finishAcked n port (ackApply n cum (fun _ => false) d).2
      if code = 0x10 then nakSequence n psn d
      else if resp && nakIsFatal code then
        toFlush n (some c) (some c) (count 0x040F port (some q.par.tenant) 1 d)
      else match msg.bind fun m => (d.qp? n).bind fun q => q.conn.msgs.find? fun y => y.msn = m.msn with
        | none => if nakIsFatal code && !nakLate q psn msn then toFlush n (some c) (some c) (count 0x040F port (some q.par.tenant) 1 d) else d
        | some m =>
          if code = nkNotReady then nakSuspend n port m d
          else if code = nkUncorrectable && m.verb = 1 then d
          else msgFail n m c x d

-- PROBE and DISCONNECT

def rxProbe (n : Nat) (p : Pkt) (d : Dev) : Dev := sendAck n 0#32 p.txTime (now d) p.path d

/-- DISCONNECT from the peer (R268). -/
def rxDisconnect (n port : Nat) (p : Pkt) (d : Dev) : Dev :=
  match d.qp? n with
  | none => d
  | some q => if q.st = .flushing then d
    else toFlush n none (some (bx p.ext 0 1)) (count 0x040F port (some q.par.tenant) 1 d)

-- The receiving sequence (R255)

/-- The places of a packet's payload (R180, R256): of a WRITE in its window, of a SEND in its RECV, of a response where its entry was translated to. -/
def targetPlaces (d : Dev) (port : Nat) (q : Qp) (t : BitVec 8) (p : Pkt) : List (Place × Nat) :=
  let off := p.msgOffset.toNat
  let len := p.payload.length
  if t = ptWrite then
    match winCheck d (portTile port) p (reqNeed t p) (reqRanges t p) with
    | .ok w => (xrange d (portTile port) w.tenant (winAddr w (bx p.ext 8 8 + off)) len true).toOption.getD []
    | .error _ => []
  else if t = ptSend then
    match recvFor q p.msn (BitVec.ofNat 32 (bx p.ext 0 4)) with
    | .some_ r => placesAt r.runs off len
    | _ => []
  else if isResp t then
    match q.conn.msgs.find? fun m => m.msn = p.msn && m.opened && m.verb = respVerb t with
    | some m => placesAt m.runs off len
    | none => []
  else []

/-- A packet that has passed checks 1 to 7 is served, or waits to cross to its places (R34). -/
def rxServe (n port : Nat) (t : BitVec 8) (p : Pkt) (arr : BitVec 32) (d : Dev) : Dev :=
  match d.qp? n with
  | none => d
  | some q => match landFlow d (portTile port) (targetPlaces d port q t p) with
    | some u => d.onFab fun f => { f with crossings := f.crossings ++ [⟨u, inOwn, none, .accepted n port t p arr⟩] }
    | none => if isReq t then rxRequest n port t p arr d else rxResponse n port t p arr d

/-- The PSN has been received (R256). -/
def isDup (c : Conn) (psn : BitVec 32) : Bool :=
  psnBefore psn c.cumRx || ((psn - c.cumRx).toNat < 256 && nth c.rxMap (psn - c.cumRx).toNat false)

/-- A duplicate is discarded and acknowledged (R256, R260). -/
def rxDupAck (n port : Nat) (p : Pkt) (d : Dev) : Dev := ackNow n p (count rxDup port (qpTenant d n) 1 d)

/-- A packet that waited to cross goes on, if its queue pair still takes it. -/
def rxLand (n port : Nat) (t : BitVec 8) (p : Pkt) (arr : BitVec 32) (d : Dev) : Dev :=
  match d.qp? n with
  | none => d
  | some q =>
    if !(q.st = .rtr || q.st = .rts) || q.conn.fatal.isSome then d
    else if isDup q.conn p.psn then rxDupAck n port p d
    else rxServe n port t p arr d

/-- Checks 5 to 7 of a packet that takes a PSN, and what follows. -/
def rxSequenced (n port : Nat) (t : BitVec 8) (p : Pkt) (d : Dev) : Dev :=
  match d.qp? n with
  | none => d
  | some q =>
    let v1 := q.par.kind = .v1
    let ahead := (p.psn - q.conn.cumRx).toNat
    if q.conn.fatal.isSome then nakAgain n q p d
    else if isDup q.conn p.psn then rxDupAck n port p d
    else if (if v1 then 128 else 256) ≤ ahead then escalate port n rxPsnAhead (ackNow n p d)
    else if v1 && ahead ≠ 0 then
      if q.conn.seqNak = some q.conn.cumRx then d
      else sendCtl n ptNak (nakExt q.conn.cumRx p.msn 0x10 0 q.conn.cumRx 0) p.path.toNat
        (d.onConn n fun c => { c with seqNak := some c.cumRx })
    else if isReq t && 0 ≤ seqDiff p.msn q.conn.granted then escalate port n rxMsnAhead d
    else if q.conn.mtu < p.payload.length || (t ≠ ptOperateReq && !pflag p pfLast && p.payload.length ≠ q.conn.mtu)
        || p.msgOffset.toNat % q.conn.mtu ≠ 0 then escalate port n rxSizeBad d
    else rxServe n port t p (d.pwr.tsc.setWidth 32) d

/-- From the meters on (R297): check 4, which a local queue pair's packets cannot pass, then by type; a queue pair in FLUSHING takes ACK, NAK and DISCONNECT alone. -/
def rxAccepted (n port : Nat) (t : BitVec 8) (p : Pkt) (d : Dev) : Dev :=
  match d.qp? n with
  | none => d
  | some q =>
    match meterPkt port t p q.par.tenant d with
    | (true, d) => d
    | (false, d) =>
      if q.par.kind = .loc || p.srcNode ≠ q.conn.peerNode || p.srcQpn ≠ q.conn.peerQpn then
        match violation n rxWrongPeer 16 (count rxWrongPeer port (some q.par.tenant) 1 d) with
        | (true, d) => logIt 0x0401 3 port [rxWrongPeer, p.srcNode.toNat, n] q.par.tenant (d := d)
        | (false, d) => d
      else if q.st = .flushing && !(t = ptAck || t = ptNak || t = ptDisconnect) then d
      else
        let d := d.onConn n fun c => { c with gotValid := true }
        if t = ptAck then rxAck n port p d
        else if t = ptNak then rxNak n port p d
        else if t = ptDisconnect then rxDisconnect n port p d
        else if t = ptProbe then rxProbe n p d
        else rxSequenced n port t p d

/-- Check 1 fails by authentication (R272): eight on one queue pair within 1 ms put it into error. -/
def authFail (n port : Nat) (p : Pkt) (d : Dev) : Dev :=
  let d := count rxAuthFail port (qpTenant d n) 1 d
  match violation n rxAuthFail 8 d with
  | (false, d) => d
  | (true, d) =>
    let live := match d.qp? n with
      | some q => q.st = .rtr || q.st = .rts
      | none => false
    if !live then d
    else
      let d := nakFatal n nkAuth 0 p d
      let d := toFlush n (some ccAuthFailed) (some ccAuthFailed) (count 0x040F port (qpTenant d n) 1 d)
      logIt 0x0402 3 port [n, rxAuthFail] ((qpTenant d n).getD 0xFFFF) (d := d)

/-- VERSION is that of the queue pair that the packet names, or a version there is (R255, R272, R273). -/
def versionOk (d : Dev) (n : Nat) (p : Pkt) : Bool :=
  let ver := p.ver.toNat / 16
  match d.qp? n with
  | some q => if q.par.kind = .v1 then ver = 1 else ver = 2
  | none => ver = 1 || ver = 2

/-- Checks 2 and 3 of R255 (R272). -/
def rxChecked (n port : Nat) (t : BitVec 8) (p : Pkt) (d : Dev) : Dev :=
  if !versionOk d n p then versionBad port p d
  else if !pktForm (p.ver.toNat / 16 = 1) t p then malformed port p d
  else match d.qp? n with
    | none => freePlace port n t p d
    | some q =>
      if q.st = .reset || q.st = .init then count rxQpIdle port (some q.par.tenant) 1 d
      else if q.st = .error then errorQp port n t p d
      else rxAccepted n port t p d

/-- Check 1 and those after it, of a packet whose trailer has its length (R255, R487). -/
def rxTrailer (t : BitVec 8) (port : Nat) (p : Pkt) (d : Dev) : Dev :=
  let n := p.dstQpn.toNat
  match trailerCheck (authOf d n) t p with
  | .crc => trailerBad port d
  | .auth => authFail n port p d
  | .replay => count rxDup port (qpTenant d n) 1 d
  | .ok p a => rxChecked n port t p (setAuth n a d)

/-- The packet is for a core of the port's tile to open: it is sealed, and a key for it is at hand. -/
def needsCore (d : Dev) (p : Pkt) : Bool := pflag p pfAuth && (authOf d p.dstQpn.toNat).any fun a => !a.dead

/-- A sealed packet waits in the ingress buffer until a core of its port's tile has opened it (R474, R487); places: what its frame holds of a DIRECT port's buffer. -/
def openLater (t : BitVec 8) (port : Nat) (p : Pkt) (places : Option (Nat × Nat)) (d : Dev) : Dev :=
  let (i, d) := chargePacket (portTile port) (p.dstQpn.toNat, false) (sealedLen t p) d
  d.onCiph fun c => { c with opening := c.opening ++ [⟨i, port, t, p, places⟩] }

/-- A core has opened the packet: its places are free and it is judged. -/
def openedOne (o : Opening) (d : Dev) : Dev := rxTrailer o.ptype o.port o.pkt (freePlaces o.port o.places d)

/-- Packets that their cores have opened are taken in, in the order of their arrival. -/
def openedAll (d : Dev) : Dev :=
  let (l, r) := d.ciph.opening.partition fun o => ticketDone d.ciph o.ticket
  if l = [] then d
  else settle (l.foldl (fun d o => openedOne o d) (d.onCiph fun c => { c with opening := r }))

/-- A whole packet is in the ingress buffer of its port, where it holds places of a DIRECT port. -/
def rxWhole (t : BitVec 8) (port : Nat) (p : Pkt) (places : Option (Nat × Nat)) (d : Dev) : Dev :=
  let ten := qpTenant d p.dstQpn.toNat
  let d := count 0x0402 port ten 1 (count 0x0403 port ten (frameLen p) d)
  if p.trailer.length ≠ (if pflag p pfAuth then 16 else 4) then malformed port p (freePlaces port places d)
  else if needsCore d p then openLater t port p places d
  else rxTrailer t port p (freePlaces port places d)

/-- A packet arrives at a port (R238, R255, R300). On a DIRECT port its blocks must have come, and a frame for another node is forwarded, not checked here. -/
def recvPkt (t : BitVec 8) (port : Nat) (p : Pkt) (d : Dev) : Dev :=
  let direct : Bool := (d.port port).ent.mode = .direct
  if !portUp d port || !tileUp d (portTile port) || (direct && p.dstNode ≠ d.net.nodeId) then d
  else if bufFull d port (frameLen p) then count rxBufFull port none 1 d
  else if !direct then rxWhole t port p none d
  else match inwardWith d port t p with
    | some x => rxWhole t port p (some (placesOf x)) (dropInward port x d)
    | none => d

end Sys2Proof.Machine
end

