-- ==== Sys2Proof/Machine/Wire.lean ====
section
/-! DEFINITION. The wire's commands: arriving packets, PACKET_SEND, the transport timers, PATH_SET, other frames (07_wire_delivery, R285, R286). -/

namespace Sys2Proof.Machine

/-- A frame that reaches the device in Bivouac on the kept port wakes it and is held, while the buffer of an Ethernet port has room (R300, R537, R538). -/
def arrive (t : BitVec 8) (port : Nat) (p : Pkt) (f : Dev → Dev) (d : Dev) : Dev :=
  if d.pwr.state = .bivouac || d.pwr.state = .waking then
    if port = d.pwr.keptPort && portUp d port && p.dstNode = d.net.nodeId then
      if bufFull d port (frameLen p) then count rxBufFull port none 1 (wakeDev d)
      else wakeDev (d.onPwr fun x => { x with pktsHeld := x.pktsHeld ++ [.pkt port t p] })
    else d
  else f d

def devPkt (t : BitVec 8) (port : Nat) (p : Pkt) (d : Dev) : Dev := arrive t port p (recvPkt t port p) d

def execWrite (port : Nat) (p : Pkt) (s : State) : Host.Outcome State Fault Refusal := onDev s (liveQ (devPkt ptWrite port p))
def execReadReq (port : Nat) (p : Pkt) (s : State) : Host.Outcome State Fault Refusal := onDev s (liveQ (devPkt ptReadReq port p))
def execReadResp (port : Nat) (p : Pkt) (s : State) : Host.Outcome State Fault Refusal := onDev s (liveQ (devPkt ptReadResp port p))
def execSend (port : Nat) (p : Pkt) (s : State) : Host.Outcome State Fault Refusal := onDev s (liveQ (devPkt ptSend port p))
def execAtomicReq (port : Nat) (p : Pkt) (s : State) : Host.Outcome State Fault Refusal := onDev s (liveQ (devPkt ptAtomicReq port p))
def execAtomicResp (port : Nat) (p : Pkt) (s : State) : Host.Outcome State Fault Refusal := onDev s (liveQ (devPkt ptAtomicResp port p))
def execOperateReq (port : Nat) (p : Pkt) (s : State) : Host.Outcome State Fault Refusal := onDev s (liveQ (devPkt ptOperateReq port p))
def execOperateResp (port : Nat) (p : Pkt) (s : State) : Host.Outcome State Fault Refusal := onDev s (liveQ (devPkt ptOperateResp port p))
def execAck (port : Nat) (p : Pkt) (s : State) : Host.Outcome State Fault Refusal := onDev s (liveQ (devPkt ptAck port p))
def execNak (port : Nat) (p : Pkt) (s : State) : Host.Outcome State Fault Refusal := onDev s (liveQ (devPkt ptNak port p))
def execProbe (port : Nat) (p : Pkt) (s : State) : Host.Outcome State Fault Refusal := onDev s (liveQ (devPkt ptProbe port p))
def execDisconnect (port : Nat) (p : Pkt) (s : State) : Host.Outcome State Fault Refusal := onDev s (liveQ (devPkt ptDisconnect port p))

-- PACKET_SEND (R250, R252, R253, R285, R286, R295, R488)

/-- What a packet carries when it is sent. -/
inductive Payload where
  /-- its data has not come, or cannot be read now -/
  | wait
  | bad (code detail : Nat)
  | ok (ext data : Bytes)

/-- A READ's source read again for a retransmission, once its stack can be read (R18, R21); the kept data where it no longer translates (R258; log 44). -/
def rereadResp (d : Dev) (n : Nat) (u : TxPkt) (t a : Nat) (kept : Bytes) : Payload :=
  match xrange d (qpTile n) t (a + u.off) u.len false with
  | .error _ => .ok u.ext kept
  | .ok l => match devPieces l with
    | none => .ok u.ext kept
    | some dv =>
      if !placesOpen d (qpTile n) l then .wait
      else
        let (map, b) := readMarked d dv 0 u.len
        .ok (respExt map) b

/-- The payload of a packet: a message's source at the places its entry was translated to (R58, R164, R173), once its stack can be read. -/
def payloadOf (d : Dev) (n : Nat) (q : Qp) (u : TxPkt) : Payload :=
  match u.data, u.addr with
  | some b, some a => match u.srcTen with
    | some t => if u.sends = 0 then .ok u.ext b else rereadResp d n u t a b
    | none => .ok u.ext b
  | some b, none => .ok u.ext b
  | none, none => .ok u.ext []
  | none, some a =>
    if u.len = 0 then .ok u.ext []
    else match q.conn.msgs.find? fun m => m.msn = u.msn with
      | none => .wait
      | some m =>
        if isDva a then
          let l := placesAt m.runs u.off u.len
          let dv := devPlaces l
          if dv.any fun (x, _) => stackOffline d (dpaStack x) then .bad ccUncorrectable 0x15
          else if !placesOpen d (qpTile n) l then .wait
          else match readPieces d dv with
            | some b => .ok u.ext b
            | none => .bad ccUncorrectable 0x14
        else
          let got := m.data.getD []
          if u.off + u.len ≤ got.length then .ok u.ext (slice got u.off u.len) else .wait

/-- The places that a packet's payload is read from now (R48, R65). -/
def payloadPlaces (d : Dev) (n : Nat) (q : Qp) (u : TxPkt) : List (Place × Nat) :=
  let l := match u.data, u.addr with
    | some _, some a => match u.srcTen with
      | some t => if u.sends = 0 then [] else (xrange d (qpTile n) t (a + u.off) u.len false).toOption.getD []
      | none => []
    | none, some a => match q.conn.msgs.find? fun m => m.msn = u.msn with
      | some m => if isDva a && u.len ≠ 0 then placesAt m.runs u.off u.len else []
      | none => []
    | _, _ => []
  if placesOpen d (qpTile n) l then l else []

/-- Packets in flight at most (R252, R273). -/
def pktWindow (q : Qp) : Nat := if q.par.kind = .v1 then 128 else 256

/-- The first packet in PSN order that waits to be sent (R249, R250). -/
def nextPkt (q : Qp) : Option TxPkt :=
  q.conn.unacked.find? fun u => u.due && (u.psn - q.conn.cumTx).toNat < pktWindow q && !(u.sends ≠ 0 && suspended q u)

/-- The sequence of an authenticating queue pair is spent (R488). -/
def seqSpent (q : Qp) (u : TxPkt) : Bool :=
  match q.conn.auth with
  | some a => !a.dead && (2 ^ 31 ≤ (u.psn - q.conn.psn0).toNat || 2 ^ 31 ≤ a.csn.toNat)
  | none => false

/-- Paths that may be chosen now: index, path, port (R277, R284, R286); a port of another tile is reached across the package (R12, R18, R254). -/
def eligible (d : Dev) (n : Nat) (q : Qp) (t : BitVec 8) (len : Nat) : List (Nat × Path × Nat) :=
  let l := (List.range q.paths.length).zip q.paths
  let ups := l.filter fun (_, p) => p.up
  let l := if ups ≠ [] then ups else
    match l with
    | [] => []
    | x :: r => [r.foldl (fun b y => if y.2.holdStart < b.2.holdStart then y else b) x]
  l.filterMap fun (k, p) =>
    if now d < p.nextSend || !(p.inflight = 0 || 256 * (p.inflight + len) ≤ p.w) then none
    else match routePort d (qpTile n) q.conn.peerNode p.entropy.toNat p.egress (ptClass t) with
      | none => none
      | some port => if tileOpen d (pktClass t) (qpTile n) (portTile port) && eqRoom d port (eqIndex t (d.ten? q.par.tenant)) len then some (k, p, port) else none

/-- The path with the least INFLIGHT / W; a retransmission leaves its last path when it can (R253, R286). -/
def choosePath (u : TxPkt) (l : List (Nat × Path × Nat)) : Option (Nat × Path × Nat) :=
  let l := if u.sends ≠ 0 && l.any (fun x => x.1 ≠ u.path) then l.filter fun x => x.1 ≠ u.path else l
  match l with
  | [] => none
  | x :: r => some (r.foldl (fun b y => if y.2.1.inflight * b.2.1.w < b.2.1.inflight * y.2.1.w then y else b) x)

/-- NEXT_SEND after a frame (R285); W is in 1/256 B. -/
def pacedNext (f : Profile) (t len : Nat) (p : Path) : Nat :=
  match p.srtt with
  | none => p.nextSend
  | some s => t + len * s * 65536 / max 1 (p.w * f.paceGain)

def tenantShaper (d : Dev) (t tile : Nat) : Shaper := nth (((d.net.pace.get? t).map (·.shapers)).getD []) tile {}

/-- A charge takes a level down to the negative of the charge at the least (R291; log 26). -/
def bucketCharge (level c : Int) : Int := min level (max (level - c) (-c))

/-- A frame charged to both buckets (R291); a shaper with ENABLE 0 keeps them full (R294; log 26). -/
def shaperCharge (s : Shaper) (len : Nat) : Shaper :=
  let c : Int := (len + 20) * 1024
  if s.enable then { s with committed := bucketCharge s.committed c, peak := bucketCharge s.peak c } else s

/-- The packet leaves on a path (R237, R253, R261, R283, R285, R295, R328); its payload counts in TEN_COUNT_4 at every sending (R451; log 105). -/
def sendOn (n : Nat) (q : Qp) (u : TxPkt) (ext data : Bytes) (k : Nat) (pa : Path) (port : Nat) (d : Dev) : Dev :=
  let again := u.sends ≠ 0
  let p := buildPkt d n q u.ptype k
    { pflags := mkFlags u.first u.last u.imm (u.last || again) again false, psn := u.psn, msn := u.msn, msgOffset := BitVec.ofNat 32 u.off,
      ext := ext, payload := data }
  let len := frameLen p
  let tile := qpTile n
  let t := q.par.tenant
  let s := tenantShaper d t tile
  let excess := s.enable && s.committed ≤ 0
  let d := d.onNet fun x => { x with pace := x.pace.upd t fun y => { y with shapers := modAt y.shapers tile fun s => shaperCharge s len } }
  let d := tenCount t 4 data.length d
  let d := release tile port u.ptype p (some n) k excess (some t) (noteEgress n k port q pa d)
  let d := onPath n u.path (fun p => { p with inflight := p.inflight - u.charge }) d
  let d := onPath n k (fun p => { p with
    inflight := p.inflight + len, nextSend := pacedNext (qpProfile d n q) (now d) len p }) d
  let d := d.onConn n fun c => { c with order := c.order + 1 }
  onPkt n u.psn (fun u => { u with
    path := k, port := port, sends := u.sends + 1, charge := len, sentAt := now d, order := q.conn.order + 1, due := false, earlyDone := false }) d

/-- Length of the frame a packet will make. -/
def plannedLen (d : Dev) (n : Nat) (q : Qp) (ext data : Bytes) : Nat :=
  frameLen (withOuter d (qpTile n) { dstNode := q.conn.peerNode, ext := ext, payload := data, trailer := zpad (if q.conn.auth.isSome then 16 else 4) })

/-- The message of a packet ends as its source fails (R58, R219). -/
def sourceFails (n : Nat) (q : Qp) (u : TxPkt) (code detail : Nat) (d : Dev) : Dev :=
  match q.conn.msgs.find? fun m => m.msn = u.msn with
  | some m => endEntry n m.idx ⟨code, detail, 0, 0#64⟩ true d
  | none => d

/-- PACKET_SEND. An authenticated packet never leaves twice at one TX_TIME (R486). -/
def devPacketSend (n : Nat) (d : Dev) : Dev :=
  match d.qp? n with
  | none => d
  | some q =>
    if !(q.st = .rtr || q.st = .rts) || !tileUp d (qpTile n) then d
    else match nextPkt q with
      | none => d
      | some u =>
        if seqSpent q u then
          seqEnd n d
        else if u.sends ≠ 0 && q.conn.auth.isSome && u.sentAt % 2 ^ 32 = now d % 2 ^ 32 then d
        else
          let e := touchPlaces (payloadPlaces d n q u) d
          match payloadOf e n q u with
          | .wait => d
          | .bad code detail => sourceFails n q u code detail e
          | .ok ext data =>
            let s := tenantShaper d q.par.tenant (qpTile n)
            let d := dropDeadPaths n d
            if s.enable && s.peak ≤ 0 then d
            else match d.qp? n with
              | none => d
              | some q => match choosePath u (eligible d n q u.ptype (plannedLen d n q ext data)) with
                | none => d
                | some (k, pa, port) => sendOn n q u ext data k pa port (dropDeadPaths n e)

def execPacketSend (qpn : Nat) (s : State) : Host.Outcome State Fault Refusal := onDev s (liveQ (devPacketSend qpn))

-- Timers (R263 to R266)

/-- The queue pair has no path a packet could go on (R264). -/
def noRoute (d : Dev) (n : Nat) (q : Qp) : Bool :=
  q.paths.all fun p => (routePort d (qpTile n) q.conn.peerNode p.entropy.toNat p.egress 0).isNone

/-- RETRANSMIT_TIMER: a packet sent, or one that has no path to go on, is sent again or its message ends NO_ACK (R263, R264). -/
def devRetransmitTimer (n : Nat) (psn : BitVec 32) (d : Dev) : Dev :=
  match d.qp? n with
  | none => d
  | some q => match pkt? q psn with
    | none => d
    | some u =>
      let first := ((q.conn.unacked.find? fun x => x.sends = 0).map (·.psn)) = some psn
      let runs := (u.sends ≠ 0 || (first && noRoute d n q)) && !suspended q u
      if !runs then d else if 7 ≤ u.retx then noAck n u d else markResend n u (some 0x0404) true d

/-- ACK_TIMER: commits wait for an ACK (R260). -/
def devAckTimer (n : Nat) (d : Dev) : Dev :=
  match d.qp? n with
  | none => d
  | some q => if q.conn.commits = 0 || !(q.st = .rtr || q.st = .rts) then d else ackLatest n d

/-- NOT_READY_BACKOFF: every unacknowledged packet of the message is sent again (R265). -/
def devNotReadyBackoff (n : Nat) (msn : BitVec 32) (d : Dev) : Dev :=
  match d.qp? n with
  | none => d
  | some q =>
    if !q.conn.msgs.any fun m => m.msn = msn && m.suspended then d
    else d.onConn n fun c => { c with
      msgs := c.msgs.map fun m => if m.msn = msn then { m with suspended := false } else m
      unacked := c.unacked.map fun u => if isReq u.ptype && u.msn = msn then { u with due := true } else u }

def execNotReadyBackoff (qpn : Nat) (msn : BitVec 32) (s : State) : Host.Outcome State Fault Refusal := onDev s (liveQ (devNotReadyBackoff qpn msn))

/-- A PROBE on a path, remembered by its time, whose low bits are its TX_TIME (R247, R262, R284). -/
def sendProbe (n k : Nat) (d : Dev) : Dev := sendCtl n ptProbe [] k (onPath n k (fun p => { p with probe := p.probe.filter (fun t => now d < t + 2 ^ 32) ++ [now d] }) d)

/-- MSN_PROBE: the first message that waits on MSN_LIMIT (R264), on the lowest path that is UP, else on path 0 (log 104). Version 1 has no PROBE (R273). -/
def devMsnProbe (n : Nat) (d : Dev) : Dev :=
  match d.qp? n with
  | none => d
  | some q => match q.conn.msgs.find? fun m => !m.opened with
    | none => d
    | some m =>
      if q.par.kind = .v1 || !(q.st = .rtr || q.st = .rts) then d
      else if 7 ≤ m.probes then msgFail n m ccRetryExceeded 0x47 d
      else
        let d := d.onConn n fun c => { c with msgs := c.msgs.map fun x => if x.msn = m.msn then { x with probes := x.probes + 1 } else x }
        sendProbe n (((List.range q.paths.length).find? fun k => (q.paths[k]?).any (·.up)).getD 0) d

def execMsnProbe (qpn : Nat) (s : State) : Host.Outcome State Fault Refusal := onDev s (liveQ (devMsnProbe qpn))

/-- GRANT_ANNOUNCE: the first grant again while no valid packet has come (R251). -/
def devGrantAnnounce (n : Nat) (d : Dev) : Dev :=
  match d.qp? n with
  | none => d
  | some q => if q.st = .rtr && !q.conn.gotValid then sendAck n 0#32 0#32 (now d) 0#8 (extendGrant n d) else d

def execGrantAnnounce (qpn : Nat) (s : State) : Host.Outcome State Fault Refusal := onDev s (liveQ (devGrantAnnounce qpn))

/-- DISCONNECT_REPEAT: the second and third sendings, of a queue pair that may be gone (R266, R457). -/
def devDisconnectRepeat (n : Nat) (d : Dev) : Dev :=
  match d.qp? n with
  | some q =>
    if q.conn.discLeft = 0 then d
    else sendCtl n ptDisconnect (discExt q.conn.discReason) 0 (d.onConn n fun c => { c with discLeft := c.discLeft - 1 })
  | none => match d.q.gone.get? n with
    | none => d
    | some q =>
      let d := sendCtlQ n q ptDisconnect (discExt q.conn.discReason) 0 d
      let conn := { q.conn with discLeft := q.conn.discLeft - 1, auth := q.conn.auth.map fun a => { a with csn := a.csn + 1#64 } }
      d.onQ fun x => { x with gone := if q.conn.discLeft ≤ 1 then x.gone.erase n else x.gone.set n { q with conn := conn } }

def execDisconnectRepeat (qpn : Nat) (s : State) : Host.Outcome State Fault Refusal := onDev s (liveQ (devDisconnectRepeat qpn))

/-- TOMBSTONE_EXPIRY (R269); a stub keeps the connection fields it needs (R489). -/
def devTombstoneExpiry (n : Nat) (d : Dev) : Dev :=
  if (d.ten.stubs.get? n).isSome then d else d.onQ fun x => { x with tombs := x.tombs.erase n }

def execTombstoneExpiry (qpn : Nat) (s : State) : Host.Outcome State Fault Refusal := onDev s (live (devTombstoneExpiry qpn))

-- PATH_SET (R254, R310)

def pathAt (p : Bytes) (k : Nat) : Nat × Nat := (u8 p (16 + 8 * k), u16 p (18 + 8 * k))

def pathSetChk (p : Bytes) (_ : Dev) : List (Nat × Bool) :=
  let n := u8 p 8
  let ps := (List.range n).map (pathAt p)
  ([(0, u32 p 0 < 256), (4, u32 p 4 < 65536), (8, 1 ≤ n && n ≤ 64), (9, zeros p 9 7)] : List (Nat × Bool))
    ++ (List.range n).flatMap (fun k =>
      let o := 16 + 8 * k
      [(o, u8 p o < 16 || u8 p o = 0xFF), (o + 1, u8 p (o + 1) = 0),
       (o + 2, u16 p (o + 2) < 2 ^ 14 && !(ps.take k).contains (pathAt p k)), (o + 4, u32 p (o + 4) = 0)])

/-- The paths of the new set: a pair of the old set keeps its state (R254, R279). -/
def newPaths (f : Profile) (old : List Path) (l : List (Nat × Nat)) : List Path :=
  l.map fun (e, n) => (old.find? fun p => p.egress = e && p.entropy = BitVec.ofNat 14 n).getD (newPath f e (BitVec.ofNat 14 n))

/-- The new index of a path of the old set; one that the PATH_SET of number g removes keeps a number of its own, from 256 on, by which R263 knows the packets sent on it. -/
def movedPath (old : List Path) (l : List (Nat × Nat)) (g k : Nat) : Nat :=
  match old[k]? with
  | none => k
  | some p => (l.findIdx? fun (e, n) => p.egress = e && p.entropy = BitVec.ofNat 14 n).getD (256 + 64 * g + k)

def devPathSet (c : CmdSlot) : Dev → Dev :=
  runChk c 0x0506 pathSetChk fun p d =>
    withTenant c (u32 p 0) false (fun _ d =>
      let n := u32 p 4
      match d.qp? n with
      | none => finishAt c stBadParam 4 d
      | some q =>
        if q.par.tenant ≠ u32 p 0 then finishAt c stNotOwner 4 d
        else if q.par.kind = .loc || q.st = .reset then finishAt c stBadParam 4 d
        else if q.par.kind = .v1 && u8 p 8 ≠ 1 then finishAt c stBadParam 8 d
        else
          let l := (List.range (u8 p 8)).map (pathAt p)
          finish c stDone (d.onQp n fun q => { q with
            paths := newPaths (qpProfile d n q) q.paths l
            conn := { q.conn with
              pathSets := q.conn.pathSets + 1
              unacked := q.conn.unacked.map fun u =>
                let k := movedPath q.paths l q.conn.pathSets u.path
                { u with path := k, charge := if 255 ≤ k then 0 else u.charge } } })) d

def execPathSet (c : CmdSlot) (s : State) : Host.Outcome State Fault Refusal := onDev s (live (devPathSet c))

-- Other frames (R238, R312)

/-- The frame is accepted as Ewewa (R238). -/
def ewewaFrame (d : Dev) (h : FrameHdr) : Bool :=
  h.tags ≤ 1 && h.ipMine && (h.ipv6 || h.plainIpv4) && h.udpPort = d.net.udpPort && (!h.ipv6 || h.udpSumOk)

/-- The oldest frame handed inward by a DIRECT port. -/
def otherFrame (d : Dev) (port : Nat) : Option (Nat × Bytes) := (d.port port).link.inward.head?

/-- A frame that R238 accepts and that is of no packet type (R255, R272): too short for a packet, or, after check 1 and its VERSION, of a reserved PTYPE. -/
def oddFrame (port : Nat) (h : FrameHdr) (d : Dev) : Dev :=
  let p := h.p
  if h.udpLen < 32 + (if pflag p pfAuth then 16 else 4) then malformed port p d
  else if ptKnown h.ptype then d
  else if needsCore d p then openLater h.ptype port p none d
  else rxTrailer h.ptype port p d

/-- NON_EWEWA_FRAME: discarded and counted, as one that finds the buffer full is (R300). -/
def devNonEwewaFrame (port : Nat) (h : FrameHdr) (d : Dev) : Dev :=
  if !portUp d port then d
  else if bufFull d port 64 then count rxBufFull port none 1 d
  else frameIn port (otherFrame d port) (fun d =>
  if !h.fcsOk then count 0x0100 port none 1 d
  else if !ewewaFrame d h then count 0x0101 port none 1 d
  else oddFrame port h d) d

def execNonEwewaFrame (port : Nat) (h : FrameHdr) (s : State) : Host.Outcome State Fault Refusal := onDev s (liveQ (devNonEwewaFrame port h))

/-- An address of the port or of its sub-link B (R312). -/
def ownIp (l ip : Bytes) (n : Nat) : Bool := l ≠ [] && (l.take n = ip || l.drop n = ip)

/-- The MAC address with which a port answers for an address: that of the sub-link whose address it is (R312). -/
def ownMac (p : NetPort) (l ip : Bytes) (n : Nat) : Bytes := slice p.ent.mac (if l.take n ≠ ip && l.drop n = ip then 6 else 0) 6

/-- An ARP reply to mac and src for the address ip, padded to 64 B (RFC 826; log 100). -/
def arpReply (me mac src ip : Bytes) : Bytes :=
  withFcs (slice (mac ++ me ++ toBE 2 0x0806 ++ toBE 2 1 ++ toBE 2 0x0800 ++ [6#8, 4#8] ++ toBE 2 2 ++ me ++ ip ++ mac ++ src) 0 60)

/-- A neighbour advertisement to mac and src for the address ip, solicited and overriding, with the MAC address as its option (RFC 4861; log 100). -/
def neighbourReply (me mac src ip : Bytes) : Bytes :=
  let body (sum : Nat) : Bytes := [136#8, 0#8] ++ toBE 2 sum ++ toBE 4 (6 * 2 ^ 28) ++ ip ++ [2#8, 1#8] ++ me
  let sum := checksum (ip ++ src ++ toBE 4 32 ++ [0#8, 0#8, 0#8, 58#8] ++ body 0)
  withFcs (mac ++ me ++ toBE 2 0x86DD ++ toBE 4 (6 * 2 ^ 28) ++ toBE 2 32 ++ [58#8, 255#8] ++ ip ++ src ++ body sum)

/-- A request for an address of n bytes arrives at a port (R238, R300): one for an address of the device's own is answered through EQ7 (R276). -/
def ownQuery (port n : Nat) (addr : PortEntry → Bytes) (ip : Bytes) (f : Bytes → FrameKind × Nat) (d : Dev) : Dev :=
  if !portUp d port then d
  else if bufFull d port 64 then count rxBufFull port none 1 d
  else frameIn port (otherFrame d port) (fun d =>
    if ip.length = n && d.net.ports.any (fun p => ownIp (addr p.ent) ip n) then
      let p := d.port port
      let (k, len) := f (ownMac p (addr p.ent) ip n)
      ownIn port 7 { len := len, excess := false, entered := now d, kind := k } d
    else d) d

def devArpRequest (port : Nat) (mac src ip : Bytes) (d : Dev) : Dev :=
  ownQuery port 4 (·.ipv4) ip (fun me => (.arp (arpReply me mac src ip), 64)) d

def execArpRequest (port : Nat) (ask : AddressAsk) (s : State) : Host.Outcome State Fault Refusal :=
  onDev s (live (devArpRequest port ask.mac ask.src ask.ip))

def devNeighbourSolicitation (port : Nat) (mac src ip : Bytes) (d : Dev) : Dev :=
  ownQuery port 16 (·.ipv6) ip (fun me => (.neighbour (neighbourReply me mac src ip), 90)) d

def execNeighbourSolicitation (port : Nat) (ask : AddressAsk) (s : State) : Host.Outcome State Fault Refusal :=
  onDev s (live (devNeighbourSolicitation port ask.mac ask.src ask.ip))

/-- An Ethernet port whose link carries frames inward: UP, in its check or held (R340). -/
def ethRuns (p : NetPort) : Bool := isEth p && (p.st = .up || p.st = .checking || p.st = .held)

/-- PAUSE and priority flow control frames of an Ethernet port are discarded and counted (R312, R343). -/
def devPauseFrame (port : Nat) (d : Dev) : Dev :=
  if !ethRuns (d.port port) then d
  else if bufFull d port 64 then count rxBufFull port none 1 d
  else count 0x020B port none 1 d

def execPauseFrame (port : Nat) (s : State) : Host.Outcome State Fault Refusal := onDev s (live (devPauseFrame port))

end Sys2Proof.Machine
end

