-- ==== Sys2Proof/Machine/LinkOps.lean ====
section
/-! DEFINITION. What the rows of the DIRECT link layer and of the port states share: blocks (R315), replay and credits (R317 to R320), ports that go down or come up (R284, R310, R339, R340), width steps (R333). -/

namespace Sys2Proof.Machine

-- Frames as bytes

/-- What forwarding and the class check read of a frame (R319, R327, R329). -/
structure FrameView where
  ptype : BitVec 8
  dst : BitVec 16
  src : BitVec 16
  entropy : Nat
  deriving DecidableEq, Repr

/-- The fields of an Ewewa frame: none when the frame is no UDP frame of the configured port. -/
def viewFrame (d : Dev) (b : Bytes) : Option FrameView :=
  let o := if bx b 12 2 = 0x8100 then 16 else 12
  let ip := if bx b o 2 = 0x86DD then 40 else if bx b o 2 = 0x0800 && u8 b (o + 2) = 0x45 then 20 else 0
  let u := o + 2 + ip
  let h := u + 8
  if ip = 0 || b.length < h + 32 || bx b (u + 2) 2 ≠ d.net.udpPort.toNat then none
  else some ⟨BitVec.ofNat 8 (u8 b (h + 1)), BitVec.ofNat 16 (bx b (h + 4) 2), BitVec.ofNat 16 (bx b (h + 6) 2), bx b u 2 % 2 ^ 14⟩

-- Blocks

/-- Block types of R315. -/
def btData : Nat := 1
def btIdle : Nat := 2
def btReplay : Nat := 3

/-- A block with its header packed and its CRC (R315). -/
def mkBlock (bt vc : Nat) (sof eof : Bool) (len seq ack cvc ccnt : Nat) (pl : Bytes) : Block :=
  let h := bt * 2 ^ 60 + vc * 2 ^ 57 + b2n sof * 2 ^ 56 + b2n eof * 2 ^ 55 + len * 2 ^ 47 + seq * 2 ^ 35 + ack * 2 ^ 23 + cvc * 2 ^ 20 + ccnt * 2 ^ 10
  let body := slice pl 0 244
  ⟨BitVec.ofNat 64 h, body, crc32c (toBE 8 h ++ body)⟩

def blkCrcOk (b : Block) : Bool := b.payload.length = 244 && b.crc = crc32c (toBE 8 b.hdr.toNat ++ b.payload)
def blkType (b : Block) : Nat := fld b.hdr.toNat 60 4
def blkVc (b : Block) : Nat := fld b.hdr.toNat 57 3
def blkSof (b : Block) : Bool := tb b.hdr.toNat 56
def blkEof (b : Block) : Bool := tb b.hdr.toNat 55
def blkLen (b : Block) : Nat := fld b.hdr.toNat 47 8
def blkSeq (b : Block) : Nat := fld b.hdr.toNat 35 12
def blkAck (b : Block) : Nat := fld b.hdr.toNat 23 12
def blkCreditVc (b : Block) : Nat := fld b.hdr.toNat 20 3
def blkCredits (b : Block) : Nat := fld b.hdr.toNat 10 10

/-- Full depths of R317. -/
def linkDepth : List Nat := [832, 832, 832, 832, 320, 320, 128]

def onLink (port : Nat) (f : Link → Link) (d : Dev) : Dev := d.onPort port fun p => { p with link := f p.link }

/-- The next channel with credits owed, in rotation, and the credits its return carries (R315, R318). -/
def nextReturn (l : Link) : Option (Nat × Nat) :=
  ((List.range 7).map fun i => (l.nextOwed + i) % 7).findSome? fun c =>
    let n := nth l.owed c 0
    if n = 0 then none else some (c, min n 1023)

/-- Credits returned: the peer may fill those places again. -/
def takeReturn (l : Link) : Nat × Nat × Link :=
  match nextReturn l with
  | none => (0, 0, l)
  | some (c, n) => (c, n, { l with
      owed := modAt l.owed c (· - n), rxCredits := modAt l.rxCredits c (· + n), nextOwed := (c + 1) % 7 })

/-- Send a block that takes no sequence number (R314, R320). -/
def sendPlain (port bt seq : Nat) (d : Dev) : Dev :=
  let (c, n, l) := takeReturn (d.port port).link
  emit (.block port (mkBlock bt 0 false false 0 seq l.rxSeq c n [])) (onLink port (fun _ => l) d)

/-- Send a DATA block and keep it in the replay buffer (R320). -/
def sendData (port vc : Nat) (sof eof : Bool) (pl : Bytes) (d : Dev) : Dev :=
  let (c, n, l) := takeReturn (d.port port).link
  let b := mkBlock btData vc sof eof pl.length l.txSeq l.rxSeq c n pl
  emit (.block port b) (onLink port (fun _ => { l with txSeq := (l.txSeq + 1) % 4096, unacked := l.unacked ++ [(l.txSeq, b)] }) d)

/-- Blocks of a frame of n bytes (R315). -/
def blocksOf (n : Nat) : Nat := ceilDiv n 244

/-- The blocks of a frame, in order (R316). -/
def sendBlocks (port vc : Nat) (first : Bool) : Nat → Bytes → Dev → Dev
  | 0, _, d => d
  | n + 1, b, d => sendBlocks port vc false n (b.drop 244) (sendData port vc first (decide (b.length ≤ 244)) (b.take 244) d)

/-- Credits are taken and the whole frame is sent (R318). -/
def sendWhole (port vc : Nat) (taken : Bool) (b : Bytes) (d : Dev) : Dev :=
  let n := blocksOf b.length
  sendBlocks port vc true n b (if taken then d else onLink port (fun l => { l with credits := modAt l.credits vc (· - n) }) d)

/-- Room in the replay buffer for n blocks (R320). -/
def replayRoom (l : Link) (n : Nat) : Bool := l.unacked.length + n ≤ 2048

/-- A link-management message enters EQ7 (R276, R337). -/
def sendMgt (port : Nat) (msg : Bytes) (d : Dev) : Dev :=
  ownIn port 7 { len := msg.length, excess := false, entered := now d, kind := .mgt msg } d

-- Ports that go down and come up

/-- Lanes of a mask. -/
def laneCount (m : BitVec 8) : Nat := (bitsOf 8 m.toNat).length

/-- Lanes healthy and not under recalibration. -/
def goodLanes (p : NetPort) : BitVec 8 :=
  match p.recal with
  | some (l, _) => BitVec.ofNat 8 (maskOf 8 fun i => i ≠ l && tb p.lanesHealthy.toNat i)
  | none => p.lanesHealthy

/-- The largest of 8, 4, 2 and 1 that a mask and the cap allow; 0 for none (R333, R334). -/
def widthOf (cap : Nat) (m : BitVec 8) : Nat :=
  let n := min cap (laneCount m)
  if 8 ≤ n then 8 else if 4 ≤ n then 4 else if 2 ≤ n then 2 else min n 1

/-- The w lowest-numbered lanes of a mask (R333). -/
def lowLanes (m : BitVec 8) (w : Nat) : BitVec 8 :=
  let l := (bitsOf 8 m.toNat).take w
  BitVec.ofNat 8 (maskOf 8 fun i => l.contains i)

/-- The command of a step that ends without its lanes is answered (R336, R341). -/
def answerStep (x : Option StepCause) (d : Dev) : Dev :=
  match x with
  | some (.recalDown _ c) => answerIf c 0x0706 stNote none d
  | some (.recalUp _ c) => answerIf c 0x0706 stNote none d
  | some (.cap c) => answerIf c 0x0705 stDone none d
  | _ => d

/-- The step in progress, or the one that waits, ends without its lanes, and so does a recalibration (R336, R341). -/
def endStep (port : Nat) (d : Dev) : Dev :=
  let p := d.port port
  let d := d.onPort port fun p => { p with step := none, stepAfter := none, recal := none, recalUp := none, recalDone := none }
  let d := answerStep p.stepAfter (answerStep (p.step.map (·.cause)) d)
  let d := match p.recal with
    | some (_, c) => answerIf c 0x0706 stNote none d
    | none => d
  match p.recalUp with
  | some c => answerIf c 0x0706 stNote none d
  | none => d

/-- Packets of queue pairs last sent on a port are sent again on other paths (R310). -/
def resendPort (port : Nat) (d : Dev) : Dev :=
  d.q.qps.foldl (fun d (n, q) =>
    (q.conn.unacked.filter fun u => u.sends ≠ 0 && !u.due && u.port = port).foldl (fun d u => markResend n u none false d) d) d

/-- Paths that leave by a port go down at once (R284); an EGRESS that is treated as 0xFF names none (R328). -/
def downPaths (port : Nat) (d : Dev) : Dev :=
  d.q.qps.foldl (fun d (n, q) =>
    (List.range q.paths.length).foldl (fun d k => match q.paths[k]? with
      | some p => if p.egress = port && p.up && !egressIgnored d q.conn.peerNode p.entropy.toNat p.egress then pathDown n k d else d
      | none => d) d) d

/-- Paths whose every port is down go down, whatever queue pair they belong to (R284, R326). -/
def dropAllDead (d : Dev) : Dev := d.q.qps.foldl (fun d (n, _) => dropDeadPaths n d) d

/-- The frames that wait in a port's egress queues are discarded (R310). -/
def dropFrames (p : NetPort) : NetPort :=
  { p with held6 := [], held7 := [], queues := p.queues.map fun q => { q with frames := [], headWaited := false } }

/-- A port stops carrying frames (R284, R310, R318, R320, R340): its frames, its link state and its replay buffer are discarded. The result of the last check stands (R345). -/
def portDown (port : Nat) (d : Dev) : Dev :=
  let d := d.onPort port fun p => { dropFrames p with
    st := .down, lanesActive := 0#8, replayRetrain := false, sublinkA := false, sublinkB := false, sleepSent := false, sleepDue := false, stepUpDue := false,
    laneCheck := 0#8, identSeen := false, recheck := false, holding := false, lldpDue := false, link := {}, forward := List.replicate 7 [] }
  let d := d.onCiph fun c => { c with opening := c.opening.map fun o => if o.port = port then { o with places := none } else o }
  let d := dropAllDead (downPaths port (resendPort port (endStep port d)))
  let c := (d.port port).adminDrain
  let d := match c with
    | some c => answerIf c 0x0705 stDone none (d.onPort port fun p => { p with adminDrain := none, st := .adminDown })
    | none => d
  if port = d.pwr.keptPort then wakeDev d else d

/-- The port takes its link out of service for training afresh (R340, R341). -/
def trainAfresh (port : Nat) (d : Dev) : Dev :=
  (portDown port d).onPort port fun p => { p with st := .training, retrains := satAdd p.retrains 1 }

/-- A retrain that keeps replay, sequence and credit state (R320). A recalibration goes on, and a step starts again once the port is UP (R336, R340). -/
def replayRetrain (port : Nat) (d : Dev) : Dev :=
  let p := d.port port
  if p.st = .up || p.st = .stepping then
    let c : Option StepCause := p.step.map (·.cause)
    d.onPort port fun p => { p with
      step := none, sleepSent := false, sleepDue := false
      stepUpDue := p.stepUpDue || decide (c = some StepCause.up)
      stepAfter := match c with
        | some (StepCause.recalUp l c) => some (StepCause.recalUp l c)
        | some (StepCause.cap c) => some (StepCause.cap c)
        | _ => p.stepAfter
      st := .training, replayRetrain := true, retrains := satAdd p.retrains 1, link := { p.link with replayCount := 0, reqOut := false } }
  else d

/-- Happenings of a kind at a port within the last second, this one included. -/
def inSecond (l : List (Nat × Nat)) (kind t : Nat) : Nat × List (Nat × Nat) :=
  let mine := l.filter (fun v => v.1 = kind + 0x10000 && t < v.2 + secTicks 1) ++ [(kind + 0x10000, t)]
  (mine.length, l.filter (fun v => v.1 ≠ kind + 0x10000) ++ mine)

/-- A block is discarded for its CRC or its sequence number: more than 1,000 in 1 s have every active lane checked under R332, whose findings come as LANE_UNHEALTHY (R343). -/
def badBlock (port src : Nat) (d : Dev) : Dev :=
  let d := count src port none 1 d
  let (n, l) := inSecond (d.port port).link.viol src (now d)
  d.onPort port fun p => { p with
    link := { p.link with viol := l }
    laneCheck := if 1000 < n then p.lanesActive else p.laneCheck }

/-- A LINK_VIOLATION entry: counter source, count in 1 s (R561). -/
def logLink (port src : Nat) (d : Dev) : Dev :=
  let (n, l) := inSecond (d.port port).link.viol src (now d)
  logIt 0x0303 3 port [src, n] (d := onLink port (fun k => { k with viol := l }) d)

/-- A violation of R343 under link escalation: the sixteenth of its kind within 1 ms retrains the port and is logged. -/
def linkViolation (port src : Nat) (logged : Bool) (d : Dev) : Dev :=
  let d := count src port none 1 d
  let d := if logged then logLink port src d else d
  let (k, l) := addViol (d.port port).link.viol src (now d) (msTicks 1) 16
  let d := onLink port (fun x => { x with viol := l }) d
  if 16 ≤ k then replayRetrain port (if logged then d else logLink port src d) else d

/-- The port is held (R339, R343): CHECK code, NODE and PORT received. A LANE_RECAL whose port fails the check after it is answered (R336). -/
def holdPort (port check : Nat) (d : Dev) : Dev :=
  let d := endStep port d
  let p := d.port port
  let d := count 0x020A port none 1 (d.onPort port fun p => { p with st := .held, peerMatch := false, lldpDue := false })
  logIt 0x0301 3 port [check, p.peerNode.toNat, p.peerPort] (d := d)

/-- The port carries frames (R340); a LANE_RECAL that took an Ethernet port down is answered (R336). -/
def portUpNow (port : Nat) (d : Dev) : Dev :=
  let c := (d.port port).recalUp
  let d := d.onPort port fun p => { p with st := .up, peerMatch := true, lldpDue := false, recalUp := none }
  match c with
  | some c => answerIf c 0x0706 stDone none d
  | none => d

/-- The IDENT message of a port (R338). -/
def identMsg (d : Dev) (port : Nat) : Bytes :=
  let serial := (d.svc.record.map fun r => u32 r 8).getD 0
  [0x01#8, BitVec.ofNat 8 port] ++ toLE 2 d.net.nodeId.toNat ++ [0x03#8, (d.port port).lanesHealthy] ++ zpad 2 ++ deviceDigest d.svc
    ++ toLE 4 serial ++ zpad 4

/-- The check of an IDENT against the port's entry: 0 or the CHECK code of R558. -/
def identCheck (p : NetPort) (msg : Bytes) : Nat :=
  if u8 msg 4 ≠ 3 then 2
  else if u8 msg 1 ≠ p.ent.peerPort then 3
  else if u16 msg 2 ≠ p.ent.peerNode.toNat then 4
  else if slice msg 8 16 ≠ slice p.ent.peerId 0 16 then 5
  else 0

-- Width steps (R333)

/-- A step starts: LANE_STATE leaves with the lanes seen healthy. -/
def startStep (port : Nat) (cause : StepCause) (d : Dev) : Dev :=
  let m := goodLanes (d.port port)
  sendMgt port [0x02#8, m] (d.onPort port fun p => { p with st := .stepping, step := some { cause := cause, mask := m } })

/-- The width a step proposes. -/
def stepWidth (p : NetPort) (m : BitVec 8) : Nat := widthOf p.widthCap m

/-- Propose the lane mask of a step (R333 step 3, R337). -/
def sendWidthReq (port : Nat) (m : BitVec 8) (d : Dev) : Dev :=
  let w := stepWidth (d.port port) m
  sendMgt port [0x03#8, m, BitVec.ofNat 8 w] (d.onPort port fun p => { p with step := p.step.map fun s => { s with mask := m, reqSent := true } })

/-- One bit of a mask. -/
def setLane (lane : Nat) (b : Bool) (m : BitVec 8) : BitVec 8 := BitVec.ofNat 8 (maskOf 8 fun i => if i = lane then b else tb m.toNat i)

/-- A LANE_RECAL is in progress: its step down, the recalibration, its step up or its retrain (R336, R344). -/
def recalActive (p : NetPort) : Bool :=
  p.recal.isSome || p.recalUp.isSome || match (p.step.map (·.cause)).orElse fun _ => p.stepAfter with
    | some (StepCause.recalDown _ _) => true
    | some (StepCause.recalUp _ _) => true
    | _ => false

/-- Lanes of a sub-link of SPLIT_DR4 carry traffic, or no longer (R335, R344). -/
def setSub (b up : Bool) (p : NetPort) : NetPort :=
  let m : BitVec 8 := if b then 0xF0#8 else 0x0F#8
  let p := { p with lanesActive := if up then p.lanesActive ||| m else p.lanesActive &&& ~~~m }
  if b then { p with sublinkB := up } else { p with sublinkA := up }

/-- A DR8 port falls back to four lanes, when its entry allows it and one group has no unhealthy lane (R335). -/
def fallBack (port : Nat) (d : Dev) : Dev :=
  let p := d.port port
  let h := p.lanesHealthy.toNat
  if p.ent.mode = .dr8 && p.ent.fallback && (h % 16 = 15 || h / 16 = 15) then
    d.onPort port fun p => { p with st := .training, fallbackActive := true, retrains := satAdd p.retrains 1 }
  else d

/-- The recalibration of a lane has ended: the port steps up or retrains with it, or the lane stays out (R336). -/
def recalEnd (port lane : Nat) (c : CmdSlot) (ok : Bool) (d : Dev) : Dev :=
  let d := d.onPort port fun p => { p with recal := none, recalDone := none, lanesHealthy := setLane lane ok p.lanesHealthy }
  let p := d.port port
  if p.ent.mode = .direct then
    if ok && p.st = .up then startStep port (.recalUp lane c) d else answerIf c 0x0706 stNote none d
  else
    let d := if ok then d.onPort port fun p => { p with recalUp := some c } else answerIf c 0x0706 stNote none d
    -- the port, or its sub-link beside one that carries traffic, trains again
    if p.ent.mode = .splitDr4 && p.st = .up then (if ok then d.onPort port fun p => { p with retrains := satAdd p.retrains 1 } else d)
    else if ok then d.onPort port fun p => { p with st := .training, retrains := satAdd p.retrains 1 }
    else fallBack port d

/-- What a step, or a retrain that keeps state, has made wait begins: a lane found unhealthy, a recalibration's end, a step up (R333, R334, R336). -/
def stepAgain (port : Nat) (d : Dev) : Dev :=
  let p := d.port port
  if p.ent.mode ≠ .direct || p.st ≠ .up || p.step.isSome then d
  else if p.lanesActive &&& ~~~goodLanes p ≠ 0#8 then startStep port .lane d
  else match p.stepAfter, p.recal, p.recalDone with
    | some c, _, _ => startStep port c (d.onPort port fun p => { p with stepAfter := none })
    | none, some (lane, c), some ok => recalEnd port lane c ok d
    | none, _, _ =>
      if !p.stepUpDue then d
      else
        let d := d.onPort port fun p => { p with stepUpDue := false }
        if laneCount p.lanesActive < stepWidth p (goodLanes p) then startStep port .up d else d

/-- Both WIDTH_ACKs have passed: the port restarts on the new lanes (R333 step 4). A lane that LANE_RECAL brings back is in service when both ends take it (R336). -/
def finishStep (port : Nat) (d : Dev) : Dev :=
  let p := d.port port
  match p.step with
  | none => d
  | some s =>
    if !(s.ackIn && s.ackOut) then d
    else
      let lanes := lowLanes s.mask (min s.peerWidth (stepWidth p s.mask))
      let old := p.lanesActive
      let d := d.onPort port fun p => { p with st := .up, step := none, lanesActive := lanes, steps := satAdd p.steps 1 }
      let d := logIt 0x0302 3 port [old.toNat, lanes.toNat] (d := count 0x020E port none 1 d)
      stepAgain port (match s.cause with
        | .recalDown l c => d.onPort port fun p => { p with recal := some (l, c) }
        | .recalUp l c => answerIf c 0x0706 (if tb s.mask.toNat l then stDone else stNote) none d
        | .cap c => answerIf c 0x0705 stDone none d
        | .lane => d
        | .up => d)

end Sys2Proof.Machine
end

