-- ==== Sys2Proof/Machine/Cong.lean ====
section
/-! DEFINITION. Congestion profiles, shapers, meters, time gates, the port scheduler (08_congestion_shaping). -/

namespace Sys2Proof.Machine

-- CC_PROFILE_SET (R288 to R290)

def parseProfile (p : Bytes) : Profile :=
  { targetDelay := u32 p 0x10, wInit := u32 p 0x14, wMin := u32 p 0x18, wMax := u32 p 0x1C, ai := u32 p 0x20, beta := u16 p 0x24, mdMax := u16 p 0x26
    baseWin := u32 p 0x28, paceGain := u16 p 0x2C, pathHold := u16 p 0x2E }

def ccProfileChk (p : Bytes) (_ : Dev) : List (Nat × Bool) :=
  let f := parseProfile p
  let bind : Bool := u8 p 0 = 1
  let rng (o : Nat) (ok : Bool) (n : Nat) : Nat × Bool := (o, if bind then zeros p o n else ok)
  [(0, u8 p 0 ≤ 1), (1, (bind || 1 ≤ u8 p 1) && u8 p 1 ≤ 15), (2, u16 p 2 = 0), (4, if bind then u32 p 4 < 256 else u32 p 4 = 0),
    (8, if bind then u32 p 8 < 65536 || u32 p 8 = 0xFFFFFFFF else u32 p 8 = 0), (0x0C, u32 p 0x0C = 0),
    rng 0x10 (500 ≤ f.targetDelay && f.targetDelay ≤ 1000000) 4, rng 0x14 (f.wMin ≤ f.wInit && f.wInit ≤ f.wMax) 4,
    rng 0x18 (64 ≤ f.wMin && f.wMin ≤ 65536) 4, rng 0x1C (f.wMin ≤ f.wMax && f.wMax ≤ 2097152) 4,
    rng 0x20 (64 ≤ f.ai && f.ai ≤ 1048576) 4, rng 0x24 (1 ≤ f.beta && f.beta ≤ 255) 2, rng 0x26 (1 ≤ f.mdMax && f.mdMax ≤ 255) 2,
    rng 0x28 (10 ≤ f.baseWin && f.baseWin ≤ 60000) 4, rng 0x2C (256 ≤ f.paceGain && f.paceGain ≤ 1024) 2,
    rng 0x2E (10 ≤ f.pathHold && f.pathHold ≤ 10000) 2, (0x30, zeros p 0x30 16)]

/-- A DEFINE changes a profile, with the leader and then on every tile, and is answered when all have acknowledged it (R39, R40); a BIND one queue pair, or every transport queue pair of a tenant, present and later. The new limits apply at each path's next update (R289). -/
def devCcProfileSet (c : CmdSlot) : Dev → Dev :=
  runChk c 0x0507 ccProfileChk fun p d =>
    let k := u8 p 1
    if u8 p 0 = 0 then
      replFinish c 0x0507 stDone none [.profileEntry k]
        (d.onNet fun n => { n with profiles := modAt n.profiles k fun _ => parseProfile p, defined := insNat n.defined k })
    else
      let t := u32 p 4
      let n := u32 p 8
      withTenantAt 4 c t false (fun _ d =>
        if n = 0xFFFFFFFF then
          let d := d.onNet fun x => { x with tenantProfile := x.tenantProfile.set t k }
          finish c stDone (d.onQ fun q => { q with
            qps := q.qps.map fun (m, x) => (m, if x.par.tenant = t && x.par.kind ≠ .loc then { x with profile := k } else x) })
        else match d.qp? n with
          | none => finishAt c stBadParam 8 d
          | some q =>
            if q.par.tenant ≠ t then finishAt c stNotOwner 8 d
            else if q.par.kind = .loc then finishAt c stBadParam 8 d
            else finish c stDone (d.onQp n fun q => { q with profile := k })) d

def execCcProfileSet (c : CmdSlot) (s : State) : Host.Outcome State Fault Refusal := onDev s (live (devCcProfileSet c))

-- SHAPER_SET and METER_SET (R293, R298): in force from the next fill

/-- Checks that shapers and meters share, but for their own bytes. -/
def rateChk (p : Bytes) : List (Nat × Bool) :=
  [(0x0C, u32 p 0x0C ≤ u32 p 0x10), (0x10, 100 ≤ u32 p 0x10 && u32 p 0x10 ≤ 2048000), (0x14, 8362 ≤ u32 p 0x14 && u32 p 0x14 ≤ 16777216),
    (0x18, u32 p 0x14 ≤ u32 p 0x18 && u32 p 0x18 ≤ 16777216)]

def shaperChk (p : Bytes) (_ : Dev) : List (Nat × Bool) :=
  let ten : Bool := u8 p 0 = 1
  ([(0, u8 p 0 ≤ 1), (1, if ten then u8 p 1 = 0 else u8 p 1 < 16), (2, if ten then u8 p 2 ≤ 5 else u8 p 2 ≤ 6), (3, u8 p 3 < 4),
    (4, if ten then u32 p 4 < 256 else u32 p 4 = 0), (8, if ten then u8 p 8 < 8 || u8 p 8 = 0xFF else u8 p 8 = 0),
    (9, if ten then u8 p 9 = 0 else 1 ≤ u8 p 9), (0x0A, u16 p 0x0A = 0)] : List (Nat × Bool)) ++ rateChk p ++ ([(0x1C, u32 p 0x1C = 0)] : List (Nat × Bool))

def parseShaper (p : Bytes) : ShaperCfg :=
  { enable := tb (u8 p 3) 0, accum := tb (u8 p 3) 1, weight := max 1 (u8 p 9), cir := u32 p 0x0C, pir := u32 p 0x10, cbs := u32 p 0x14, pbs := u32 p 0x18 }

/-- Elements of a list of eight that TILE names. -/
def onTiles {α : Type} (tile : Nat) (f : α → α) (l : List α) : List α := if tile = 0xFF then l.map f else modAt l tile f

def devShaperSet (c : CmdSlot) : Dev → Dev :=
  runChk c 0x0701 shaperChk fun p d =>
    let s := parseShaper p
    let put (x : Shaper) : Shaper := { x with next := some s }
    if u8 p 0 = 0 then
      finish c stDone (d.onPort (u8 p 1) fun np => { np with queues := modAt np.queues (u8 p 2) fun q => { q with shaper := put q.shaper } })
    else
      let t := u32 p 4
      withTenantAt 4 c t true (fun _ d =>
        finish c stDone (d.onNet fun n =>
          let y := n.pace.getD t {}
          { n with pace := n.pace.set t { y with shapers := onTiles (u8 p 8) put y.shapers, egressNext := some (u8 p 2) } })) d

def execShaperSet (c : CmdSlot) (s : State) : Host.Outcome State Fault Refusal := onDev s (live (devShaperSet c))

def meterChk (p : Bytes) (_ : Dev) : List (Nat × Bool) :=
  let ten : Bool := u8 p 0 = 1
  ([(0, u8 p 0 ≤ 1), (1, if ten then u8 p 1 = 0 else u8 p 1 < 16), (2, u8 p 2 ≤ 2), (3, u8 p 3 = 0),
    (4, if ten then u32 p 4 < 256 else u32 p 4 = 0), (8, if ten then u8 p 8 < 8 || u8 p 8 = 0xFF else u8 p 8 = 0),
    (9, zeros p 9 3)] : List (Nat × Bool)) ++ rateChk p ++ ([(0x1C, u8 p 0x1C ≤ 100), (0x1D, zeros p 0x1D 3)] : List (Nat × Bool))

def meterModeOf (n : Nat) : MeterMode := if n = 0 then .off else if n = 1 then .mark else .police

def parseMeter (p : Bytes) : MeterCfg :=
  { mode := meterModeOf (u8 p 2), cir := u32 p 0x0C, pir := u32 p 0x10, cbs := u32 p 0x14, pbs := u32 p 0x18, yellowFill := u8 p 0x1C }

def devMeterSet (c : CmdSlot) : Dev → Dev :=
  runChk c 0x0702 meterChk fun p d =>
    let s := parseMeter p
    let put (x : Meter) : Meter := { x with next := some s }
    if u8 p 0 = 0 then finish c stDone (d.onPort (u8 p 1) fun np => { np with meter := put np.meter })
    else
      let t := u32 p 4
      withTenantAt 4 c t true (fun _ d =>
        finish c stDone (d.onNet fun n =>
          let y := n.pace.getD t {}
          { n with pace := n.pace.set t { y with meters := onTiles (u8 p 8) put y.meters } })) d

def execMeterSet (c : CmdSlot) (s : State) : Host.Outcome State Fault Refusal := onDev s (live (devMeterSet c))

-- BUCKET_FILL (R291, R292)

/-- What a rate in Mbit/s adds at fill k, in 1/1,024 B: 8.192 for each Mbit/s on average, nothing lost (R291; log 51). -/
def fillOf (rate k : Nat) : Nat := 8192 * rate * (k + 1) / 1000 - 8192 * rate * k / 1000

/-- A level filled up to a top; one above the top stays. -/
def fillTo (level : Int) (add top : Nat) : Int := if (top : Int) ≤ level then level else min (top : Int) (level + add)

/-- The level that a bucket of a size fills to: 8,362 B for one that is idle without ACCUM (R292). -/
def fillTop (size : Nat) (capped : Bool) : Nat := 1024 * (if capped then min size 8362 else size)

/-- The new configuration is in force: levels above a new size are cut to it (R293). -/
def adoptShaper (s : Shaper) : Shaper :=
  match s.next with
  | none => s
  | some n => { s with
      enable := n.enable, accum := n.accum, weight := n.weight, cir := n.cir, pir := n.pir, cbs := n.cbs, pbs := n.pbs, next := none,
      committed := min s.committed (1024 * n.cbs : Int), peak := min s.peak (1024 * n.pbs : Int) }

def fillShaper (k : Nat) (idle : Bool) (s : Shaper) : Shaper :=
  let s := adoptShaper s
  let capped := !s.accum && idle
  { s with
    committed := fillTo s.committed (fillOf s.cir k) (fillTop s.cbs capped)
    peak := fillTo s.peak (fillOf s.pir k) (fillTop s.pbs capped) }

def fillMeter (k : Nat) (m : Meter) : Meter :=
  let m := match m.next with
    | none => m
    | some n => { m with
        mode := n.mode, cir := n.cir, pir := n.pir, cbs := n.cbs, pbs := n.pbs, yellowFill := n.yellowFill, next := none,
        committed := min m.committed (1024 * n.cbs : Int), peak := min m.peak (1024 * n.pbs : Int) }
  { m with
    committed := fillTo m.committed (fillOf m.cir k) (fillTop m.cbs false)
    peak := fillTo m.peak (fillOf m.pir k) (fillTop m.pbs false) }

/-- A tenant has nothing to release on a tile. -/
def tenantIdle (d : Dev) (t tile : Nat) : Bool :=
  d.q.qps.all fun (n, q) => q.par.tenant ≠ t || qpTile n ≠ tile || (nextPkt q).isNone

def fillPort (k : Nat) (p : NetPort) : NetPort :=
  { p with meter := fillMeter k p.meter, queues := p.queues.map fun q => { q with shaper := fillShaper k (decide (q.frames = [])) q.shaper } }

def fillPace (d : Dev) (k t : Nat) (y : TenantPace) : TenantPace :=
  { shapers := ((List.range 8).zip y.shapers).map fun (i, s) => fillShaper k (tenantIdle d t i) s
    meters := y.meters.map (fillMeter k)
    egressNext := none }

/-- The length of a ROPE_DATA frame of n bytes of payload on the rope's hop: its extension is the Rope extension of 40 B (R236, R363). -/
def ropeFrame (d : Dev) (r : Rope) (n : Nat) : Nat :=
  frameLen (withOuter d r.par.tile { dstNode := r.par.downNode, ext := zpad 40, trailer := zpad 4 }) + n

/-- A rope's peak bucket holds two MTU frames of its hop, each with its 20 B charge (R291, R374). -/
def ropeBurst (d : Dev) (r : Rope) : Nat := 2 * (ropeFrame d r (ropeMtu r) + 20)

def fillRope (d : Dev) (k : Nat) (r : Rope) : Rope :=
  if r.par.maxRate = 0 then r else { r with bucket := fillTo r.bucket (fillOf r.par.maxRate k) (1024 * ropeBurst d r) }

/-- Every bucket of the device is filled (R291); configurations that wait come into force. -/
def devBucketFill (d : Dev) : Dev :=
  let k := d.net.fills
  let d := d.net.pace.foldl (fun d (t, y) => match y.egressNext with
    | some e => d.onTen t fun x => { x with egress := e }
    | none => d) d
  let d := d.onRopes fun r => { r with slots := r.slots.map fun (i, x) => (i, fillRope d k x) }
  d.onNet fun n => { n with
    fills := (k + 1) % 125
    ports := n.ports.map (fillPort k)
    pace := n.pace.map fun (t, y) => (t, fillPace d k t y) }

def execBucketFill (s : State) : Host.Outcome State Fault Refusal := onDev s (live devBucketFill)

-- Paths' timers (R281, R284)

/-- PATH_HOLD_EXPIRY: the hold of a down path ends and a PROBE is sent; with no answer to the last one the hold starts again. -/
def devPathHoldExpiry (n k : Nat) (d : Dev) : Dev :=
  match d.qp? n with
  | none => d
  | some q => match q.paths[k]? with
    | none => d
    | some p =>
      if p.up || !(q.st = .rtr || q.st = .rts) then d
      else if p.probe ≠ [] || q.par.kind = .v1 then onPath n k (fun p => { p with probe := [], holdStart := now d }) d
      else sendProbe n k d

def execPathHoldExpiry (qpn path : Nat) (s : State) : Host.Outcome State Fault Refusal := onDev s (liveQ (devPathHoldExpiry qpn path))

/-- BASE_WIN_ROTATE: the current minimum becomes the previous one; a path with no sample in a whole window keeps its BASE (R281). -/
def devBaseWinRotate (n k : Nat) (d : Dev) : Dev :=
  onPath n k (fun p => { p with basePrev := p.baseCur, baseCur := none, base := match p.baseCur with
    | some x => some x
    | none => p.base }) d

def execBaseWinRotate (qpn path : Nat) (s : State) : Host.Outcome State Fault Refusal := onDev s (live (devBaseWinRotate qpn path))

-- Time gates (R301 to R303)

def gateEntries (p : Bytes) : List (Nat × BitVec 8) :=
  (List.range (u16 p 2)).map fun i => (u32 p (0x20 + 8 * i), BitVec.ofNat 8 (u8 p (0x24 + 8 * i)))

def gateChk (p : Bytes) (_ : Dev) : List (Nat × Bool) :=
  let on := tb (u8 p 1) 0
  let n := u16 p 2
  let es := gateEntries p
  ([(0, u8 p 0 < 16), (1, u8 p 1 < 2), (2, if on then 1 ≤ n && n ≤ 256 else n = 0), (4, u32 p 4 = 0), (8, on || u64 p 8 = 0),
    (0x10, if on then 1000 ≤ u32 p 0x10 && u32 p 0x10 ≤ 500000000 && u32 p 0x10 = (es.map Prod.fst).sum else u32 p 0x10 = 0),
    (0x14, zeros p 0x14 12)] : List (Nat × Bool))
    ++ (List.range n).flatMap fun i =>
      let o := 0x20 + 8 * i
      [(o, 16 ≤ u32 p o && u32 p o ≤ u32 p 0x10), (o + 4, u8 p (o + 4) < 128), (o + 5, zeros p (o + 5) 3)]

/-- The first cycle start at or after t (R303). -/
def cycleStart (base cycle t : Nat) : Nat :=
  if cycle = 0 then t
  else if base ≤ t then base + ceilDiv (t - base) cycle * cycle
  else base - (base - t) / cycle * cycle

/-- GATE_LIST_SET: the list, or its removal, waits for a cycle start at least 10 µs away. -/
def devGateListSet (c : CmdSlot) : Dev → Dev :=
  runChk c 0x0703 gateChk fun p d =>
    let k := u8 p 0
    let np := d.port k
    let wait (l : Option GateList) (at_ : Nat) : Dev := (leave c [k] d).onPort k fun np => { np with gatePending := some ⟨l, c, at_⟩ }
    if np.gatePending.isSome then finish c stBusy d
    else if tb (u8 p 1) 0 then
      let l : GateList := ⟨u64 p 8, u32 p 0x10, gateEntries p⟩
      wait (some l) (cycleStart l.base l.cycle (now d + usTicks 10))
    else match np.gate with
      | none => finish c stNote d
      | some g => wait none (cycleStart g.base g.cycle (now d + usTicks 10))

def execGateListSet (c : CmdSlot) (s : State) : Host.Outcome State Fault Refusal := onDev s (live (devGateListSet c))

/-- The mask of an entry for a queue. -/
def gateMask (g : GateList) (i k : Nat) : Bool := match g.entries[i]? with
  | some (_, m) => tb m.toNat k
  | none => true

/-- The gate of a queue is open now: EQ7 always, and every gate while no list runs (R301, R309). -/
def gateOpen (p : NetPort) (k : Nat) : Bool :=
  match p.gate with
  | none => true
  | some g => k = 7 || !p.gateOn || gateMask g p.gateIdx k

/-- An entry comes into force: a frame that waited for its gate to open is admitted (R301). -/
def enterGate (i : Nat) (p : NetPort) (t : Nat) : NetPort :=
  let was (k : Nat) : Bool := gateOpen p k
  let q := { p with gateOn := true, gateIdx := i, gateAt := t }
  { q with queues := ((List.range 8).zip q.queues).map fun (k, e) =>
      { e with headWaited := if gateOpen q k then e.headWaited || (!was k && e.frames ≠ []) else false } }

/-- GATE_ENTRY_ADVANCE: the next entry applies; after a restart the list is followed from its next cycle start (R301, R309). -/
def devGateEntryAdvance (port : Nat) (d : Dev) : Dev :=
  d.onPort port fun p => match p.gate with
    | none => p
    | some g => enterGate (if p.gateOn then (p.gateIdx + 1) % max 1 g.entries.length else 0) p (now d)

def execGateEntryAdvance (port : Nat) (s : State) : Host.Outcome State Fault Refusal := onDev s (live (devGateEntryAdvance port))

/-- GATE_LIST_TAKEOVER: the waiting list takes over with its entry 0, or the removal opens every gate (R303, R310). -/
def devGateListTakeover (port : Nat) (d : Dev) : Dev :=
  match (d.port port).gatePending with
  | none => d
  | some g =>
    let d := d.onPort port fun p => match g.list with
      | some l =>
        let was := p.queues
        let closed (k : Nat) : Bool := !gateOpen p k
        let q := { p with gate := some l, gateOn := true, gateIdx := 0, gateAt := now d, gatePending := none }
        { q with queues := ((List.range 8).zip was).map fun (k, e) =>
            { e with headWaited := if gateOpen q k then e.headWaited || (closed k && e.frames ≠ []) else false } }
      | none => { p with gate := none, gateOn := false, gateIdx := 0, gatePending := none, queues := p.queues.map fun e => { e with headWaited := false } }
    answerIf g.cmd 0x0703 stDone none d

def execGateListTakeover (port : Nat) (s : State) : Host.Outcome State Fault Refusal := onDev s (live (devGateListTakeover port))

/-- Ticks left of the open run of a queue from an entry on, at most one round of the list: none when the queue is open in every entry (R301). -/
def openRun (g : GateList) (k : Nat) : Nat → Nat → Option Nat
  | 0, _ => none
  | n + 1, i => match g.entries[i]? with
    | none => some 0
    | some (t, m) => if tb m.toNat k then (openRun g k n ((i + 1) % max 1 g.entries.length)).map (t + ·) else some 0

/-- Bytes that a port moves in one tick (R311, R314). -/
def portRate (p : NetPort) : Nat :=
  match p.ent.mode with
  | .direct => 64 * max 1 (laneCount p.lanesActive)
  | .splitDr4 => 200
  | _ => 50 * max 1 (laneCount p.lanesActive)

/-- The gate admits the head frame of a queue (R301). -/
def gateAdmits (t : Nat) (p : NetPort) (k : Nat) (q : EgressQ) (f : Frame) : Bool :=
  match p.gate with
  | none => true
  | some g =>
    if !p.gateOn then true
    else if !gateMask g p.gateIdx k then false
    else if q.headWaited then true
    else match openRun g k g.entries.length p.gateIdx with
      | none => true
      | some run => (t - p.gateAt) * portRate p + (f.len + 20) < run * portRate p

-- The port scheduler (R296)

/-- What the scheduler takes: the head of an egress queue, or of a forwarding queue. -/
inductive Pick where
  | egress (k : Nat) (f : Frame) (excess : Bool)
  | forward (ch : Nat) (f : Frame)
  | nothing
  deriving DecidableEq, Repr

/-- The channel that a frame of the device's own takes on a DIRECT port (R319, R327). -/
def ownChannel (d : Dev) (p : NetPort) (f : Frame) : Nat :=
  match f.kind with
  | .mgt _ => 6
  | .pkt t _ _ _ => channelOf (ptClass t) (match p.ent.dir with
    | some dir => crosses d d.net.nodeId dir
    | none => false)
  | _ => 2

/-- Blocks of a frame on a DIRECT link. -/
def frameBlocks (f : Frame) : Nat :=
  match f.kind with
  | .mgt _ => 1
  | _ => blocksOf f.len

/-- The frame is ready to leave its queue: a sealed packet has passed its core (R474). -/
def frameReady (d : Dev) (f : Frame) : Bool :=
  match f.ticket with
  | none => true
  | some i => ticketDone d.ciph i

/-- The link lets the frame start: it is ready, the link carries frames, and a DIRECT port holds the credits and replay places (R318, R320, R340). -/
def linkTakes (d : Dev) (p : NetPort) (f : Frame) (forwarded : Bool) : Bool :=
  let n := frameBlocks f
  let mgt : Bool := match f.kind with
    | .mgt _ => true
    | _ => false
  -- a step stops new frames once its WIDTH_REQ is sent (R333 step 3)
  let open_ : Bool := match p.st with
    | .up => p.adminDrain.isNone && ((!p.holding && !p.sleepDue) || mgt)
    | .checking => mgt
    | .held => mgt
    | .stepping => mgt || (!((p.step.map (·.reqSent)).getD true) && p.adminDrain.isNone && !p.holding)
    | _ => false
  if !frameReady d f then false
  else if p.ent.mode = .direct then open_ && replayRoom p.link n && (forwarded || n ≤ nth p.link.credits (ownChannel d p f) 0)
  else p.st = .up

/-- The forwarding queue whose turn it is (R296 step 2). -/
def pickForward (d : Dev) (p : NetPort) : Option (Nat × Frame) :=
  ((List.range 7).map fun i => (p.forwardTurn + 1 + i) % 7).findSome? fun c => match (nth p.forward c []).head? with
    | some f => if linkTakes d p f true then some (c, f) else none
    | none => none

/-- Queues EQ0 to EQ6 whose head may start: number, queue, head (R296 steps 3 and 4). -/
def candidates (d : Dev) (p : NetPort) : List (Nat × EgressQ × Frame) :=
  (List.range 7).filterMap fun k =>
    let q := nth p.queues k {}
    match q.frames.head? with
    | none => none
    | some f => if gateAdmits (now d) p k q f && linkTakes d p f false && (!q.shaper.enable || 0 < q.shaper.peak) then some (k, q, f) else none

/-- A head of the committed set. -/
def isCommitted (q : EgressQ) (f : Frame) : Bool := (!q.shaper.enable || 0 < q.shaper.committed) && !f.excess

/-- Deficit round robin over the excess set from a queue on (R296 step 4): a queue newly visited gains WEIGHT × 1,024 B; the first whose head its deficit covers sends. Answers queue, head and the deficits. -/
def drrExcess (l : List (Nat × EgressQ × Frame)) : Nat → Nat → Bool → Tab Nat → Option (Nat × Frame × Tab Nat)
  | 0, _, _, _ => none
  | n + 1, k, fresh, defs => match l.find? fun x => x.1 = k with
    | none => drrExcess l n ((k + 1) % 7) true defs
    | some (_, q, f) =>
      let c := defs.getD k 0 + (if fresh then q.shaper.weight * 1024 else 0)
      if f.len + 20 ≤ c then some (k, f, defs.set k (c - (f.len + 20))) else drrExcess l n ((k + 1) % 7) true (defs.set k c)

def isMgt (f : Frame) : Bool := match f.kind with
  | .mgt _ => true
  | _ => false

/-- The link carries only its own messages now (R331, R333, R340 to R342). -/
def mgtOnly (p : NetPort) : Bool :=
  match p.st with
  | .checking => true
  | .held => true
  | .stepping => (p.step.map (·.reqSent)).getD true || p.holding
  | .up => p.holding
  | _ => false

/-- What EQ7 can start: its head (R278, R296); while the link carries nothing but its own messages, the first of these (R331, R340; log 101). -/
def pickCtl (d : Dev) (p : NetPort) : Option Frame :=
  let l := (nth p.queues 7 {}).frames
  (if p.ent.mode = .direct && mgtOnly p then (l ++ p.held7).find? isMgt else l.head?).filter fun f => linkTakes d p f false

/-- The scheduler's choice (R296), with new deficits after step 4. A queue whose head lacks credit is passed over. -/
def pickFrame (d : Dev) (p : NetPort) : Pick × Tab Nat :=
  match pickCtl d p with
  | some f => (.egress 7 f false, [])
  | none => match if p.ent.mode = .direct then pickForward d p else none with
    | some (c, f) => (.forward c f, [])
    | none =>
      let l := candidates d p
      match (l.filter fun (_, q, f) => isCommitted q f).getLast? with
      | some (k, _, f) => (.egress k f false, [])
      | none =>
        let defs := l.foldl (fun (t : Tab Nat) (k, q, _) => t.set k q.deficit) []
        match drrExcess l 100 p.excessTurn false defs with
        | some (k, f, t) => (.egress k f true, t)
        | none => (.nothing, [])

/-- Queues whose head waits for its gate alone. -/
def gateHeld (d : Dev) (p : NetPort) : Bool :=
  (List.range 7).any fun k =>
    let q := nth p.queues k {}
    q.frames.head?.any fun f => !gateAdmits (now d) p k q f

/-- The sub-link a frame takes in SPLIT_DR4: by bit 13 of ENTROPY, an answer of R238 by its source MAC, or the other when that one is down (R313). -/
def frameSub (p : NetPort) (f : Frame) : Nat :=
  subLinkOf p (match f.kind with
    | .pkt _ x _ _ => tb x.entropy.toNat 13
    | .arp b => slice b 6 6 = slice p.ent.mac 6 6
    | .neighbour b => slice b 6 6 = slice p.ent.mac 6 6
    | _ => false)

/-- A frame starts on the wire: on an Ethernet port whole, on a DIRECT port in blocks (R314, R316). -/
def startFrame (port vc : Nat) (taken : Bool) (f : Frame) (d : Dev) : Dev :=
  let p := d.port port
  if p.ent.mode ≠ .direct then emit (.frame port (frameSub p f) (frameBytes f)) d
  else sendWhole port vc taken (frameBytes f) d

/-- PORT_SCHEDULE: the port starts the frame its scheduler picks; a DIRECT port with nothing to send sends an IDLE block; a port asleep is woken by the frame that waits (R296, R304, R308, R314, R536). -/
def devPortSchedule (port : Nat) (d : Dev) : Dev :=
  let p := d.port port
  let d := if gateHeld d p then count 0x0506 port none 1 d else d
  if p.st = .sleep then
    match pickFrame d { p with st := .up } with
    | (.nothing, _) => d
    | _ => d.onPort port fun p => { p with st := .up }
  else match pickFrame d p with
  | (.nothing, _) =>
    let idles : Bool := match p.st with
      | .up => true
      | .checking => true
      | .held => true
      | .stepping => true
      | _ => false
    if p.ent.mode = .direct && idles then sendPlain port btIdle p.link.txSeq d else d
  | (.forward c f, _) =>
    let d := d.onPort port fun p => { p with sleepSent := false, forwardTurn := c, forward := modAt p.forward c (·.drop 1) }
    startFrame port c true f (count 0x0508 port none 1 d)
  | (.egress k f excess, deficits) =>
    let ch := ownChannel d p f
    let here (q : EgressQ) : Bool := q.frames.contains f
    let d := d.onPort port fun p => { p with
      sleepSent := p.sleepSent && isMgt f
      held7 := if k = 7 && !here (nth p.queues 7 {}) then p.held7.erase f else p.held7
      excessTurn := if excess then k else p.excessTurn
      queues := ((List.range 8).zip p.queues).map fun (i, q) =>
        let q := match deficits.get? i with
          | some n => { q with deficit := n }
          | none => if excess && q.frames = [] then { q with deficit := 0 } else q
        if i ≠ k then q
        else { q with
          frames := q.frames.erase f
          shaper := shaperCharge q.shaper f.len
          sent := q.sent + BitVec.ofNat 48 (f.len + 20)
          maxSojourn := max q.maxSojourn (now d - f.entered)
          headWaited := false
          deficit := if q.frames.length ≤ 1 then 0 else q.deficit } }
    let d := count 0x0504 port none 1 (count 0x0505 port none (f.len + 20) d)
    let d := if excess then count 0x0507 port none 1 d else d
    startFrame port ch false f (if k < 6 then d else heldDrain k port d)

def execPortSchedule (port : Nat) (s : State) : Host.Outcome State Fault Refusal := onDev s (live (devPortSchedule port))

/-- EQ_SAMPLE_PERIOD: the largest depth and sojourn of the period are latched, and the next period starts afresh, its depth from what stands in the queue (R304, R305). -/
def devEqSamplePeriod (d : Dev) : Dev :=
  d.onNet fun n => { n with ports := n.ports.map fun p => { p with queues := p.queues.map fun q =>
    { q with peakDepth := q.maxDepth, peakSojourn := min q.maxSojourn 0xFFFFFFFF, maxDepth := eqDepth q, maxSojourn := 0 } } }

def execEqSamplePeriod (s : State) : Host.Outcome State Fault Refusal := onDev s (live devEqSamplePeriod)

end Sys2Proof.Machine
end

