-- ==== Sys2Proof/Machine/Link.lean ====
section
/-! DEFINITION. Ports, links and the fabric (09_fabric_links), PORT SLEEP (R536): blocks that arrive, port states, width steps, forwarding, and their commands. -/

namespace Sys2Proof.Machine

-- Blocks that arrive (R315 to R320, R343)

/-- A discarded block raises one REPLAY_REQ for the expected sequence number (R320 step 4). -/
def askReplay (port : Nat) (d : Dev) : Dev :=
  let l := (d.port port).link
  if l.reqOut then d else sendPlain port btReplay l.rxSeq (onLink port (fun l => { l with reqOut := true }) d)

/-- A port whose failed recheck waits for its replay buffer is held once that is empty (R342). -/
def holdWhenDrained (port : Nat) (d : Dev) : Dev :=
  let p := d.port port
  if p.holding && p.link.unacked = [] then
    dropAllDead ((downPaths port (resendPort port (endStep port d))).onPort port fun p => { p with
      st := .held, holding := false, recheck := false, held6 := [], held7 := p.held7.filter isMgt
      queues := p.queues.map fun q => { q with frames := q.frames.filter isMgt } })
  else d

/-- SLEEP_ACK has passed: the port sleeps once EQ7 and its replay buffer are empty, and the end that asked acknowledges what it has received before it does (R534, R536 step 3). -/
def sleepWhenDrained (port : Nat) (d : Dev) : Dev :=
  let p := d.port port
  if p.st = .up && p.sleepDue && p.link.unacked = [] && (nth p.queues 7 {}).frames = [] && p.held7 = [] then
    (if p.sleepSent then sendPlain port btIdle p.link.txSeq d else d).onPort port fun p => { p with st := .sleep, sleepSent := false, sleepDue := false }
  else d

/-- ACK_SEQ frees the replay buffer up to it (R315, R320). -/
def linkAck (port ack : Nat) (d : Dev) : Dev :=
  let l := (d.port port).link
  let n := l.unacked.findIdx fun (s, _) => s = ack
  let gone := if n < l.unacked.length then n else if ack = l.txSeq then l.unacked.length else 0
  if gone = 0 then d
  else sleepWhenDrained port (holdWhenDrained port (onLink port (fun l => { l with unacked := l.unacked.drop gone, replayCount := 0 }) d))

/-- Credits come back; a count never passes its depth (R318, R343). -/
def linkCredits (port vc n : Nat) (d : Dev) : Dev :=
  if n = 0 || 7 ≤ vc then d
  else
    let have_ := nth (d.port port).link.credits vc 0
    let top := nth linkDepth vc 0
    let d := onLink port (fun l => { l with credits := modAt l.credits vc fun x => min top (x + n) }) d
    if top < have_ + n then linkViolation port 0x0205 true d else d

/-- The place of a block that is discarded frees at once (R318, R343). -/
def oweBack (port vc n : Nat) (d : Dev) : Dev := onLink port (fun l => { l with owed := modAt l.owed vc (· + n) }) d

/-- The frame open on a channel is discarded; what is left of it is dropped up to its EOF when more is to come. -/
def dropOpen (port vc : Nat) (more : Bool) (d : Dev) : Dev :=
  let n := (nth (d.port port).link.openBlocks vc []).length
  onLink port (fun l => { l with
    owed := modAt l.owed vc (· + n), openBlocks := modAt l.openBlocks vc fun _ => [], dropping := modAt l.dropping vc fun _ => more }) d

/-- Header bits that a block must have as R315 sets them. -/
def blkFormOk (b : Block) : Bool :=
  let h := b.hdr.toNat
  let t := blkType b
  fld h 0 10 = 0 && (blkCreditVc b < 7 || blkCredits b = 0) &&
  if t = btData then blkVc b < 7 && 1 ≤ blkLen b && blkLen b ≤ 244 && (blkEof b || blkLen b = 244)
  else (t = btIdle || t = btReplay) && blkVc b = 0 && blkLen b = 0 && !blkSof b && !blkEof b

/-- The neighbour of this node in a torus direction. -/
def neighbourCoord (d : Dev) (dir : Nat) : Nat :=
  let sz := max 1 (dimSize d (dir / 2))
  let c := coord d.net.nodeId (dir / 2)
  if dir % 2 = 0 then (c + 1) % sz else (c + sz - 1) % sz

/-- A frame in class 1 that arrives for the first hop of a dimension without having crossed its dateline (R327, R343). -/
def classOneBad (d : Dev) (p : NetPort) (v : FrameView) : Bool :=
  match p.ent.dir with
  | none => false
  | some dir =>
    let k := dir / 2
    let sz := dimSize d k
    let c := neighbourCoord d dir
    -- a frame that came from direction dir travels the other way
    let crossed := if dir % 2 = 0 then c = 0 else c + 1 = sz
    isTorus v.src && coord v.src k = c && !crossed

/-- Where a whole frame goes: inward, on, or nowhere (R329, R330, R343). -/
inductive FrameFate where
  | inward
  | onward
  | classBad
  | unroutable
  deriving DecidableEq, Repr

def frameFate (d : Dev) (p : NetPort) (vc : Nat) (b : Bytes) : FrameFate :=
  match viewFrame d b with
  | none => .inward
  | some v =>
    if ptClass v.ptype ≠ vc / 2 || (vc % 2 = 1 && classOneBad d p v) then .classBad
    else if v.dst = d.net.nodeId then .inward
    else if isTorus v.dst && nodeOk d v.dst then .onward
    else .unroutable

/-- A whole frame has arrived (R316): one for this device waits for the row that takes its packet, which frees its places (R317, R318); one for another torus node waits to be forwarded. -/
def wholeFrame (port vc n : Nat) (b : Bytes) (d : Dev) : Dev :=
  match frameFate d (d.port port) vc b with
  | .inward => onLink port (fun l => { l with inward := l.inward ++ [(vc, b)] }) d
  | .onward => onLink port (fun l => { l with whole := l.whole ++ [(vc, b)] }) d
  | .classBad => linkViolation port 0x0207 false (oweBack port vc n d)
  | .unroutable => logFirst60 0x0208 port 0x0303 3 port [0x0208, 1] (count 0x0208 port none 1 (oweBack port vc n d))

/-- A link-management message: its place frees; a type that no rule defines is ignored (R337, R343, R536). -/
def mgtBlock (port : Nat) (b : Block) (d : Dev) : Dev :=
  let d := oweBack port 6 1 d
  if !(blkSof b && blkEof b) then linkViolation port 0x0206 false d
  else if 1 ≤ u8 b.payload 0 && u8 b.payload 0 ≤ 6 then d
  else count 0x0209 port none 1 d

/-- A DATA block whose sequence number was expected (R316, R317, R343). -/
def takeData (port : Nat) (b : Block) (d : Dev) : Dev :=
  let vc := blkVc b
  let l := (d.port port).link
  if nth l.rxCredits vc 0 = 0 then
    linkViolation port 0x0204 true (dropOpen port vc (!blkEof b) d)
  else
    let d := onLink port (fun l => { l with rxCredits := modAt l.rxCredits vc (· - 1) }) d
    if vc = 6 then mgtBlock port b d
    else
      let opened := nth l.openBlocks vc []
      let body := slice b.payload 0 (blkLen b)
      if nth l.dropping vc false && !blkSof b then
        oweBack port vc 1 (onLink port (fun l => { l with dropping := modAt l.dropping vc fun _ => !blkEof b }) d)
      else if blkSof b && (opened ≠ [] || nth l.dropping vc false) then
        -- the open frame is discarded; the block that begins another one opens it
        let d := linkViolation port 0x0206 false (dropOpen port vc false d)
        if blkEof b then wholeFrame port vc 1 body d
        else onLink port (fun l => { l with openBlocks := modAt l.openBlocks vc fun _ => [body] }) d
      else if !blkSof b && opened = [] then
        linkViolation port 0x0206 false (oweBack port vc 1 (dropOpen port vc (!blkEof b) d))
      else if 35 ≤ opened.length then
        linkViolation port 0x0206 false (oweBack port vc 1 (dropOpen port vc (!blkEof b) d))
      else if blkEof b then
        let n := opened.length + 1
        wholeFrame port vc n (opened.flatten ++ body) (onLink port (fun l => { l with openBlocks := modAt l.openBlocks vc fun _ => [] }) d)
      else onLink port (fun l => { l with openBlocks := modAt l.openBlocks vc fun x => x ++ [body] }) d

/-- The link carries blocks: a DIRECT port past training (R314, R340). -/
def linkLive (p : NetPort) : Bool :=
  p.ent.mode = .direct && match p.st with
    | .checking => true
    | .up => true
    | .stepping => true
    | .held => true
    | _ => false

/-- A block arrives: CRC, sequence, form, then what it carries (R315, R320, R343). -/
def rxBlock (port : Nat) (b : Block) (f : Dev → Dev) (d : Dev) : Dev :=
  let p := d.port port
  if !linkLive p then d
  else if !blkCrcOk b then askReplay port (badBlock port 0x0200 d)
  else
    let data := blkType b = btData
    if data && blkSeq b ≠ p.link.rxSeq then askReplay port (badBlock port 0x0201 d)
    else
      let d := if data then onLink port (fun l => { l with rxSeq := (l.rxSeq + 1) % 4096, reqOut := false }) d else d
      if !blkFormOk b then
        let vc := blkVc b
        let d := linkViolation port 0x0203 false d
        if data && vc < 7 && nth (d.port port).link.rxCredits vc 0 ≠ 0 then
          let d := onLink port (fun l => { l with rxCredits := modAt l.rxCredits vc (· - 1) }) d
          oweBack port vc 1 (dropOpen port vc (!blkEof b) d)
        else d
      else f (linkCredits port (blkCreditVc b) (blkCredits b) (linkAck port (blkAck b) d))

/-- DATA. -/
def devData (port : Nat) (b : Block) (d : Dev) : Dev := rxBlock port b (fun d => if blkType b = btData then takeData port b d else d) d

def execData (port : Nat) (b : Block) (s : State) : Host.Outcome State Fault Refusal := onDev s (liveQ (devData port b))

/-- IDLE: acknowledgement and credits alone (R314). -/
def devIdle (port : Nat) (b : Block) (d : Dev) : Dev := rxBlock port b (fun d => d) d

def execIdle (port : Nat) (b : Block) (s : State) : Host.Outcome State Fault Refusal := onDev s (liveQ (devIdle port b))

/-- Send again every unacknowledged DATA block from the sequence number named; after 8 replays without progress the port retrains (R320 steps 5 and 6). -/
def replayFrom (port seq : Nat) (d : Dev) : Dev :=
  let l := (d.port port).link
  let i := l.unacked.findIdx fun (s, _) => s = seq
  if i = l.unacked.length then replayRetrain port (logLink port 0x0202 (count 0x0202 port none 1 d))
  else
    let n := if l.replaySeq = seq then l.replayCount else 0
    if 8 ≤ n then replayRetrain port d
    else
      let d := onLink port (fun l => { l with replaySeq := seq, replayCount := n + 1 }) d
      let d := count 0x020D port none 1 (d.onPort port fun p => { p with replays := satAdd p.replays 1 })
      (l.unacked.drop i).foldl (fun d (_, b) => emit (.block port b) d) d

/-- REPLAY_REQ. -/
def devReplayReq (port : Nat) (b : Block) (d : Dev) : Dev :=
  rxBlock port b (fun d => if blkType b = btReplay then replayFrom port (blkSeq b) d else d) d

def execReplayReq (port : Nat) (b : Block) (s : State) : Host.Outcome State Fault Refusal := onDev s (liveQ (devReplayReq port b))

/-- REPLAY_REQ_TIMER: 2 µs without the expected block; the next discard may raise another REPLAY_REQ. -/
def devReplayReqTimer (port : Nat) (d : Dev) : Dev := onLink port (fun l => { l with reqOut := false }) d

def execReplayReqTimer (port : Nat) (s : State) : Host.Outcome State Fault Refusal := onDev s (live (devReplayReqTimer port))

/-- RETRAIN_TIMEOUT: the replay retrain is not back within 1 ms (R320). -/
def devRetrainTimeout (port : Nat) (d : Dev) : Dev :=
  let p := d.port port
  if p.st = .training && p.replayRetrain then portDown port d else d

def execRetrainTimeout (port : Nat) (s : State) : Host.Outcome State Fault Refusal := onDev s (liveQ (devRetrainTimeout port))

-- Training and the check (R338 to R340)

/-- The lanes of an Ethernet link that trained in the declared mode, from those that trained; none where it did not (R339). A port that falls back takes the group without an unhealthy lane (R335). -/
def ethTrained (p : NetPort) (lanes : BitVec 8) : BitVec 8 :=
  let group (m : BitVec 8) (l : BitVec 8) : Bool := l &&& m = m
  let a : BitVec 8 := 0x0F#8
  let b : BitVec 8 := 0xF0#8
  if p.ent.mode = .splitDr4 then (if group a lanes then a else 0#8) ||| (if group b lanes then b else 0#8)
  else if !p.fallbackActive then (if lanes = 0xFF#8 then lanes else 0#8)
  else
    let m := if group a p.lanesHealthy then a else if group b p.lanesHealthy then b else 0#8
    if group m lanes then m else 0#8

/-- Every port but the kept one stays down until the device has left Bivouac (R537, R539); a lost tile's ports for good (R559). -/
def asleepPort (d : Dev) (port : Nat) : Bool :=
  !d.tileLive (portTile port) || ((d.pwr.state = .bivouac || d.pwr.state = .waking) && port ≠ d.pwr.keptPort)

/-- The sub-links of a SPLIT_DR4 port that carries frames train by themselves (R335, R336): those whose lanes trained come up beside the other. -/
def subTrained (port : Nat) (lanes : BitVec 8) (d : Dev) : Dev :=
  let p := d.port port
  let new := ethTrained p lanes &&& ~~~p.lanesActive
  if p.recal.isSome || new = 0#8 then d
  else
    let d := d.onPort port fun p =>
      let p := { p with recalUp := none, lanesHealthy := p.lanesHealthy ||| new }
      let p := if tb new.toNat 0 then setSub false true p else p
      if tb new.toNat 4 then setSub true true p else p
    match p.recalUp with
    | some c => answerIf c 0x0706 stDone none d
    | none => d

/-- TRAINING_DONE. A DOWN port with a mode and no administrative hold is in training (log 50); one whose lane is being recalibrated trains after it. A replay retrain is over when every lane of the current width is back (R320). -/
def devTrainingDone (port : Nat) (lanes : BitVec 8) (d : Dev) : Dev :=
  let p := d.port port
  if p.ent.mode = .splitDr4 && p.st = .up then subTrained port lanes d
  else if !(p.st = .training || p.st = .down) || p.ent.mode = .none || lanes = 0#8 || p.recal.isSome || asleepPort d port then d
  else if p.replayRetrain && p.lanesActive &&& lanes ≠ p.lanesActive then d
  else
    let d := d.onPwr fun x => { x with serdesLock := modAt x.serdesLock (port / 2) fun _ => true }
    if p.replayRetrain then stepAgain port (d.onPort port fun p => { p with st := .up, replayRetrain := false })
    else if p.ent.mode = .direct then
      let d := d.onPort port fun p => { p with
        st := .checking, link := {}, identSeen := false, lanesHealthy := lanes, lanesActive := lowLanes lanes (widthOf p.widthCap lanes) }
      sendMgt port (identMsg d port) d
    else
      let act := ethTrained p lanes
      let split : Bool := p.ent.mode = .splitDr4
      let d := d.onPort port fun p => { p with
        st := .checking, lanesActive := act
        -- the group that a fallback leaves out keeps what is known of it
        lanesHealthy := if p.fallbackActive then p.lanesHealthy &&& (lanes ||| ~~~act) else lanes
        sublinkA := split && tb act.toNat 0, sublinkB := split && tb act.toNat 4 }
      if act = 0#8 then holdPort port 2 d
      else if p.ent.chassis ≠ [] || p.ent.portId ≠ [] then d.onPort port fun p => { p with lldpDue := true }
      else portUpNow port d

def execTrainingDone (port : Nat) (lanes : BitVec 8) (s : State) : Host.Outcome State Fault Refusal := onDev s (live (devTrainingDone port lanes))

/-- TRAINING_TIMEOUT: training restarts (R340). -/
def devTrainingTimeout (port : Nat) (d : Dev) : Dev :=
  let p := d.port port
  if (p.st = .training || p.st = .down) && p.ent.mode ≠ .none && !p.replayRetrain && !asleepPort d port then
    d.onPort port fun p => { p with st := .training, retrains := satAdd p.retrains 1 }
  else d

def execTrainingTimeout (port : Nat) (s : State) : Host.Outcome State Fault Refusal := onDev s (live (devTrainingTimeout port))

/-- IDENT: the sender's PORT, NODE and DEVICE_ID against the entry (R339, R340, R342). -/
def devIdent (port : Nat) (msg : Bytes) (d : Dev) : Dev :=
  let p := d.port port
  if !linkLive p || u8 msg 0 ≠ 1 || msg.length ≠ 32 then d
  else
    let d := d.onPort port fun p => { p with identSeen := true, peerNode := BitVec.ofNat 16 (u16 msg 2), peerPort := u8 msg 1 % 16, peerId := slice msg 8 16 }
    let bad := identCheck p msg
    match p.st with
    | .checking => if bad = 0 then stepAgain port (portUpNow port d) else holdPort port bad d
    | .held => d
    | _ =>
      let d := if p.recheck then d else sendMgt port (identMsg d port) d
      if bad = 0 then d.onPort port fun p => { p with recheck := false, holding := false, peerMatch := true }
      else
        let d := count 0x020A port none 1 (d.onPort port fun p => { p with recheck := false, holding := true, peerMatch := false })
        holdWhenDrained port (logIt 0x0301 3 port [bad, u16 msg 2, u8 msg 1] (d := d))

def execIdent (port : Nat) (msg : Bytes) (s : State) : Host.Outcome State Fault Refusal := onDev s (liveQ (devIdent port msg))

/-- IDENT_TIMEOUT: no IDENT within 10 ms (R340). -/
def devIdentTimeout (port : Nat) (d : Dev) : Dev :=
  let p := d.port port
  if p.st = .checking && p.ent.mode = .direct && !p.identSeen then trainAfresh port d else d

def execIdentTimeout (port : Nat) (s : State) : Host.Outcome State Fault Refusal := onDev s (liveQ (devIdentTimeout port))

/-- LLDPDU: the first one after training must carry the entry's chassis ID and port ID (R339); a full buffer discards any (R300). -/
def devLldpdu (port : Nat) (chassis portId : Bytes) (d : Dev) : Dev :=
  if bufFull d port 64 then count rxBufFull port none 1 d
  else
  let d := d.onPort port fun p => { p with lldpSeen := some (chassis, portId) }
  let p := d.port port
  if p.st ≠ .checking || !p.lldpDue then d
  else if chassis = p.ent.chassis && portId = p.ent.portId then portUpNow port d
  else holdPort port 6 d

def execLldpdu (port : Nat) (chassis portId : Bytes) (s : State) : Host.Outcome State Fault Refusal := onDev s (live (devLldpdu port chassis portId))

/-- LLDP_TIMEOUT: no LLDPDU within 30 s (R339, R343). -/
def devLldpTimeout (port : Nat) (d : Dev) : Dev :=
  let p := d.port port
  if p.st = .checking && p.lldpDue then holdPort port 6 d else d

def execLldpTimeout (port : Nat) (s : State) : Host.Outcome State Fault Refusal := onDev s (live (devLldpTimeout port))

/-- LOSS_OF_SIGNAL on every lane (R340). -/
def devLossOfSignal (port : Nat) (d : Dev) : Dev :=
  if (d.port port).st = .up || (d.port port).st = .stepping then portDown port d else d

def execLossOfSignal (port : Nat) (s : State) : Host.Outcome State Fault Refusal := onDev s (liveQ (devLossOfSignal port))

-- Lanes (R332 to R337)

/-- DR8 and SPLIT_DR4 ports lose a lane (R335): the sub-link, the fallback to four lanes, or the port. -/
def ethLane (port lane : Nat) (d : Dev) : Dev :=
  let p := d.port port
  if p.ent.mode = .splitDr4 then
    let d := d.onPort port (setSub (decide (4 ≤ lane)) false)
    let p := d.port port
    if p.sublinkA || p.sublinkB then d else portDown port d
  else if p.fallbackActive then (if tb p.lanesActive.toNat lane then portDown port d else d)
  else fallBack port (portDown port d)

/-- LANE_UNHEALTHY. -/
def devLaneUnhealthy (port lane : Nat) (d : Dev) : Dev :=
  let d := d.onPort port fun p => { p with lanesHealthy := setLane lane false p.lanesHealthy, laneCheck := setLane lane false p.laneCheck }
  let p := d.port port
  if !portUp d port then d
  else if isEth p then ethLane port lane d
  else if p.ent.mode ≠ .direct then d
  else if goodLanes p = 0#8 then portDown port d
  else match p.step with
    | some s => startStep port s.cause d
    | none => if p.st = .up && tb p.lanesActive.toNat lane then startStep port .lane d else d

def execLaneUnhealthy (port lane : Nat) (s : State) : Host.Outcome State Fault Refusal := onDev s (liveQ (devLaneUnhealthy port lane))

/-- LANE_STEP_UP: a lane that was out has been healthy for 1 s (R334); a step or a retrain in progress comes first. -/
def devLaneStepUp (port lane : Nat) (d : Dev) : Dev :=
  let d := d.onPort port fun p => { p with
    lanesHealthy := setLane lane true p.lanesHealthy, stepUpDue := p.ent.mode = .direct && (p.st = .up || p.st = .stepping || p.st = .sleep || p.replayRetrain) }
  stepAgain port d

def execLaneStepUp (port lane : Nat) (s : State) : Host.Outcome State Fault Refusal := onDev s (live (devLaneStepUp port lane))

/-- LANE_STATE: both masks are known and the common one is proposed (R333); one that comes first starts the step here too. -/
def devLaneState (port : Nat) (mask : BitVec 8) (d : Dev) : Dev :=
  let p := d.port port
  if p.ent.mode ≠ .direct || !(p.st = .up || p.st = .stepping) then d
  else
    -- a second LANE_STATE in one step restarts it (R337)
    let d := match p.step with
      | none => startStep port .lane d
      | some s => if s.stateIn then startStep port s.cause d else d
    let m := goodLanes (d.port port) &&& mask
    if m = 0#8 then portDown port d
    else sendWidthReq port m (d.onPort port fun p => { p with step := p.step.map fun s => { s with stateIn := true } })

def execLaneState (port : Nat) (mask : BitVec 8) (s : State) : Host.Outcome State Fault Refusal := onDev s (liveQ (devLaneState port mask))

/-- Device identities compared as unsigned numbers (R337): this end's is the lower. -/
def lowerId (d : Dev) (p : NetPort) : Bool := decide (beN (deviceDigest d.svc) < beN (slice p.ent.peerId 0 16))

/-- WIDTH_REQ: answered with its bytes, or merged with this end's own of another mask, of which the end of the lower identity sends a new WIDTH_REQ and the other one after it (R337). -/
def devWidthReq (port : Nat) (mask : BitVec 8) (width : Nat) (d : Dev) : Dev :=
  let p := d.port port
  if p.ent.mode ≠ .direct || !(p.st = .up || p.st = .stepping) then d
  else
    let d := if p.step.isSome then d else d.onPort port fun p => { p with st := .stepping, step := some { cause := .lane, mask := goodLanes p } }
    match (d.port port).step with
    | none => d
    | some s =>
      if s.reqSent && s.mask ≠ mask then
        let m := s.mask &&& mask
        if m = 0#8 then portDown port d
        else
          let d := d.onPort port fun p => { p with step := p.step.map fun s => { s with mask := m, reqSent := false, ackIn := false, ackOut := false } }
          if lowerId d p then sendWidthReq port m d else d
      -- a proposal from before this end's restart waits for the LANE_STATE that replaces it
      else if mask &&& ~~~s.mask ≠ 0#8 then d
      else
        let d := sendMgt port [0x04#8, mask, BitVec.ofNat 8 width] d
        let d := d.onPort port fun p => { p with step := p.step.map fun s => { s with mask := mask, ackOut := true, peerWidth := width } }
        finishStep port (if s.reqSent then d else sendWidthReq port mask d)

def execWidthReq (port : Nat) (mask : BitVec 8) (width : Nat) (s : State) : Host.Outcome State Fault Refusal :=
  onDev s (liveQ (devWidthReq port mask width))

/-- WIDTH_ACK of this end's proposal (R333 step 4). -/
def devWidthAck (port : Nat) (mask : BitVec 8) (width : Nat) (d : Dev) : Dev :=
  let p := d.port port
  match p.step with
  | none => d
  | some s =>
    if p.st ≠ .stepping || !s.reqSent || s.mask ≠ mask || stepWidth p s.mask ≠ width then d
    else finishStep port (d.onPort port fun p => { p with step := p.step.map fun s => { s with ackIn := true } })

def execWidthAck (port : Nat) (mask : BitVec 8) (width : Nat) (s : State) : Host.Outcome State Fault Refusal :=
  onDev s (live (devWidthAck port mask width))

/-- LANE_RECAL (R336). -/
def devLaneRecal (c : CmdSlot) : Dev → Dev :=
  runChk c 0x0706 (fun p _ => [(0, u8 p 0 < 16), (1, u8 p 1 < 8), (2, zeros p 2 6)]) fun p d =>
    let port := u8 p 0
    let lane := u8 p 1
    let np := d.port port
    if recalActive np || np.step.isSome then finish c stBusy d
    else if np.st ≠ .up then finishAt c stBadParam 0 d
    else if np.ent.mode = .direct then
      let active := tb np.lanesActive.toNat lane
      if active && laneCount np.lanesActive = 1 then finish c stNotPermitted d
      else
        let d := leave c [port, lane] d
        let d := d.onPort port fun p => { p with recal := some (lane, c) }
        -- the step goes on without the lane; a lane that is out already needs none
        if active then startStep port (.recalDown lane c) d else d
    else
      let d := leave c [port, lane] d
      let d :=
        if np.ent.mode = .splitDr4 then
          let d := d.onPort port (setSub (decide (4 ≤ lane)) false)
          if (d.port port).sublinkA || (d.port port).sublinkB then d else portDown port d
        else portDown port d
      d.onPort port fun p => { p with recal := some (lane, c) }

def execLaneRecal (c : CmdSlot) (s : State) : Host.Outcome State Fault Refusal := onDev s (liveQ (devLaneRecal c))

/-- LANE_RECAL_DONE: the port steps up with the lane, or the lane stays out (R336); a width step or a retrain in progress ends first. -/
def devLaneRecalDone (port : Nat) (ok : Bool) (d : Dev) : Dev :=
  let p := d.port port
  match p.recal with
  | none => d
  | some (lane, c) =>
    if p.step.isSome || p.replayRetrain then d.onPort port fun p => { p with recalDone := some ok }
    else recalEnd port lane c ok d

def execLaneRecalDone (port : Nat) (ok : Bool) (s : State) : Host.Outcome State Fault Refusal := onDev s (live (devLaneRecalDone port ok))

-- LINK_CONTROL (R341)

def linkControlChk (p : Bytes) (d : Dev) : List (Nat × Bool) :=
  let a := u8 p 1
  let w := u8 p 2
  [(0, u8 p 0 < 16), (1, a ≤ 3 && (a ≠ 3 || (d.port (u8 p 0)).ent.mode = .direct)),
    (2, if a = 3 then w = 1 || w = 2 || w = 4 || w = 8 else w = 0), (3, zeros p 3 5)]

/-- A port asleep wakes for the step of a new cap; a port in its check or a retrain that keeps state steps when it is UP. -/
def devLinkControl (c : CmdSlot) : Dev → Dev :=
  runChk c 0x0705 linkControlChk fun p d =>
    let port := u8 p 0
    let a := u8 p 1
    let np := d.port port
    if recalActive np || np.step.isSome || np.stepAfter.isSome then finish c stBusy d
    else if (a = 1 || a = 2) && np.ent.mode = .none then finish c stNotPermitted d
    else if a = 0 then
      if np.ent.mode = .direct && portUp d port && np.link.unacked ≠ [] then
        -- the replay buffer drains first; queued frames go to other paths at once
        let d := (leave c [port] d).onPort port fun p => { dropFrames p with adminDrain := some c }
        downPaths port (resendPort port d)
      else
        finish c stDone ((portDown port d).onPort port fun p => { p with st := .adminDown })
    else if a = 1 then finish c stDone (d.onPort port fun p => if p.st = .adminDown then { p with st := .down } else p)
    else if a = 2 then finish c stDone ((trainAfresh port d).onPort port fun p => { p with fallbackActive := false })
    else
      let d := d.onPort port fun x => { x with widthCap := u8 p 2 }
      let np := d.port port
      if stepWidth np (goodLanes np) = laneCount np.lanesActive then finish c stDone d
      else if np.st = .up || np.st = .sleep then startStep port (.cap c) (leave c [port] d)
      else if np.st = .checking || np.replayRetrain then (leave c [port] d).onPort port fun p => { p with stepAfter := some (.cap c) }
      else finish c stDone d

def execLinkControl (c : CmdSlot) (s : State) : Host.Outcome State Fault Refusal := onDev s (liveQ (devLinkControl c))

/-- ADMIN_DOWN_DRAIN_END: the lasers go off (R341). -/
def devAdminDownDrainEnd (port : Nat) (d : Dev) : Dev := if (d.port port).adminDrain.isSome then portDown port d else d

def execAdminDownDrainEnd (port : Nat) (s : State) : Host.Outcome State Fault Refusal := onDev s (liveQ (devAdminDownDrainEnd port))

/-- ETH_FEC_UNCORRECTABLE_RETRAIN: the port retrains; a second time within 60 s the worst lane is taken as unhealthy (R343, R335). -/
def devEthFecUncorrectableRetrain (port worstLane : Nat) (d : Dev) : Dev :=
  let p := d.port port
  if !isEth p || !portUp d port then d
  else
    let again : Bool := match p.fecLast with
      | some t => now d < t + secTicks 60
      | none => false
    let d := logLink port 0x020C (count 0x020C port none 1 (d.onPort port fun p => { p with fecLast := some (now d) }))
    if again then
      devLaneUnhealthy port worstLane d
    else trainAfresh port d

def execEthFecUncorrectableRetrain (port worstLane : Nat) (s : State) : Host.Outcome State Fault Refusal :=
  onDev s (liveQ (devEthFecUncorrectableRetrain port worstLane))

-- PORT SLEEP (R536)

/-- Nothing is queued for the link and its replay buffer is empty (R534, R536). -/
def linkQuiet (p : NetPort) : Bool := p.queues.all (fun q => q.frames = []) && p.held6 = [] && p.held7 = [] && p.forward.all (fun l => l = []) && p.link.unacked = []

/-- SLEEP_IDLE_TIMER: the port asks its partner, through EQ7 (R276, R536 step 1); a frame that starts before the answer takes the question back. -/
def devSleepIdleTimer (port : Nat) (d : Dev) : Dev :=
  let p := d.port port
  if p.ent.mode = .direct && p.st = .up && p.sleepReq && d.pwr.state = .active && linkQuiet p then
    sendMgt port [0x05#8] (d.onPort port fun p => { p with sleepSent := true })
  else d

def execSleepIdleTimer (port : Nat) (s : State) : Host.Outcome State Fault Refusal := onDev s (live (devSleepIdleTimer port))

/-- SLEEP_REQ: answered when nothing is queued for the link; both ends then sleep (R536, R540). -/
def devSleepReq (port : Nat) (d : Dev) : Dev :=
  let p := d.port port
  if p.ent.mode = .direct && p.st = .up && linkQuiet p then sendMgt port [0x06#8] (d.onPort port fun p => { p with sleepDue := true }) else d

def execSleepReq (port : Nat) (s : State) : Host.Outcome State Fault Refusal := onDev s (live (devSleepReq port))

/-- SLEEP_ACK: both ends hold their lanes in electrical idle (R536). -/
def devSleepAck (port : Nat) (d : Dev) : Dev :=
  let p := d.port port
  if p.st = .up && p.sleepSent then sleepWhenDrained port (d.onPort port fun p => { p with sleepDue := true }) else d

def execSleepAck (port : Nat) (s : State) : Host.Outcome State Fault Refusal := onDev s (live (devSleepAck port))

/-- LINK_WAKE: the port is UP again with its state kept (R536). -/
def devLinkWake (port : Nat) (d : Dev) : Dev :=
  stepAgain port (d.onPort port fun p => if p.st = .sleep then { p with st := .up } else p)

def execLinkWake (port : Nat) (s : State) : Host.Outcome State Fault Refusal := onDev s (live (devLinkWake port))

-- Forwarding (R327, R329)

/-- Where a frame in transit goes next: egress port and channel, none while no UP port of the direction holds the credits. -/
def forwardTo (d : Dev) (p : NetPort) (vc : Nat) (b : Bytes) : Option (Nat × Nat) :=
  match viewFrame d b with
  | none => none
  | some v => match nextDir d d.net.nodeId v.dst v.entropy with
    | none => none
    | some dir =>
      let stays : Bool := match p.ent.dir with
        | some x => x / 2 = dir / 2
        | none => false
      let ch := channelOf (vc / 2) ((stays && vc % 2 = 1) || crosses d d.net.nodeId dir)
      let l := dirPorts d dir
      let port := if vc / 2 = 2 then (if l = [] then none else some (nth l (v.entropy % l.length) 0)) else mostCredits d ch l
      match port with
      | none => none
      | some e => if blocksOf b.length ≤ nth (d.port e).link.credits ch 0 then some (e, ch) else none

/-- The class in which frames of a channel cross the tiles (R329). -/
def vcClass (vc : Nat) : QClass := if vc / 2 = 0 then .req else if vc / 2 = 1 then .rsp else .col

/-- FRAME_FORWARD: the first frame in transit on a channel that obtains its credits, and can cross to the egress port's tile in the internal class of its channel, moves to the egress port; its places at this port free (R12, R18, R329). -/
def devFrameForward (port : Nat) (d : Dev) : Dev :=
  let p := d.port port
  let heads := (List.range 6).filterMap fun vc => (p.link.whole.find? fun x => x.1 = vc)
  let go (vc : Nat) (b : Bytes) : Option (Nat × Bytes × Nat × Nat) :=
    (forwardTo d p vc b).bind fun (e, ch) => if tileOpen d (vcClass vc) (portTile port) (portTile e) then some (vc, b, e, ch) else none
  match heads.findSome? fun (vc, b) => go vc b with
  | none => d
  | some (vc, b, e, ch) =>
    let n := blocksOf b.length
    let d := oweBack port vc n (onLink port (fun l => { l with whole := l.whole.erase (vc, b) }) d)
    let d := onLink e (fun l => { l with credits := modAt l.credits ch (· - n) }) d
    let f : Frame := { len := b.length, excess := false, entered := now d, kind := .transit b }
    count 0x020F port none 1 (d.onPort e fun p => { p with forward := modAt p.forward ch (· ++ [f]) })

def execFrameForward (port : Nat) (s : State) : Host.Outcome State Fault Refusal := onDev s (live (devFrameForward port))

-- NODE_TABLE_WRITE (R324, R325)

/-- An entry at an offset of the parameters, field by field. -/
def nodeEntryChk (d : Dev) (p : Bytes) (o : Nat) : List (Nat × Bool) :=
  let masks := (bitsOf 16 (u16 p (o + 2))).all fun k => isEth (d.port k)
  [(o, u8 p o < 8), (o + 1, u8 p (o + 1) = 0), (o + 2, masks), (o + 4, !tb (u16 p (o + 4)) 12), (o + 0x0C, u32 p (o + 0x0C) = 0),
    (o + 0x10, tb (u8 p o) 1 || zeros p (o + 0x10) 12)]

def nodeTableChk (p : Bytes) (d : Dev) : List (Nat × Bool) :=
  let n := u16 p 2
  ([(0, 1 ≤ u16 p 0 && u16 p 0 ≤ 4095), (2, 1 ≤ n && n ≤ 125 && u16 p 0 + n ≤ 4096), (4, u32 p 4 = 0)] : List (Nat × Bool))
    ++ (List.range n).flatMap fun i => nodeEntryChk d p (8 + 32 * i)

/-- The entries are written with the leader's copy and then on every tile; the command is answered when all have acknowledged them (R39, R40). -/
def devNodeTableWrite (c : CmdSlot) : Dev → Dev :=
  runChk c 0x0704 nodeTableChk fun p d =>
    let es := (List.range (u16 p 2)).map fun i => (u16 p 0 + i, slice p (8 + 32 * i) 32)
    replFinish c 0x0704 stDone none (es.map fun e => .nodeEntry e.1 e.2)
      (d.onNet fun n => { n with nodes := es.foldl (fun t e => putNode e.1 e.2 t) n.nodes })

def execNodeTableWrite (c : CmdSlot) (s : State) : Host.Outcome State Fault Refusal := onDev s (live (devNodeTableWrite c))

end Sys2Proof.Machine
end

