-- ==== Sys2Proof/Machine/ServiceOps.lean ====
section
/-! DEFINITION. The Lamold record (R554 to R557): its layout, its check, its application to ports and tables; images in the firmware banks (R500, R501). -/

namespace Sys2Proof.Machine

-- Images (R500, R501)

/-- Bytes of a stored image. -/
def imageBytes (i : Image) (off len : Nat) : Bytes := (List.range len).map fun k => Memory.read i.bytes (off + k)

/-- The digest of the four in the boot ROM that names a root key. -/
def rootOf (hdr : Bytes) : Nat := u8 hdr 5

/-- The header is one of R500, and the body follows it. -/
def imageForm (t : Nat) (h : Bytes) (len : Nat) : Bool :=
  512 ≤ len && slice h 0 4 = ascii "JIMG" && u8 h 4 = t && u8 h 5 < 4 && zeros h 6 2 && zeros h 0x18 8 && zeros h 0xE5 3
    && zeros h 0x16C 148 && 512 + u64 h 0x10 = len

/-- RESULT of R546 for a stored image of a type. -/
def imageResult (v : Svc) (t : Nat) (i : Option Image) : Nat :=
  match i with
  | none => 1
  | some i =>
    let h := imageBytes i 0 512
    if !imageForm t h i.len then 2
    else if slice (sha512 (slice h 0x60 133)) 0 64 ≠ slice (Config.romRootDigest (rootOf h)) 0 64 then 3
    else if tb v.rootRevoked.toNat (rootOf h) then 4
    else if !ecdsaVerify (slice h 0x60 133) (slice h 0 0xE8) (slice h 0xE8 132) then 5
    else if slice (sha512 (imageBytes i 512 (i.len - 512))) 0 64 ≠ slice h 0x20 64 then 6
    else if u32 h 0xC < (nth v.minSvn (t - 1) 0#32).toNat then 7
    else 0

def imageAt (v : Svc) (bank : Side) (t : Nat) : Option Image := (v.banks.get bank).get? t

/-- VERSION of the image of a type in a bank; 0 where there is none. -/
def imageVersion (v : Svc) (bank : Side) (t : Nat) : BitVec 32 :=
  match imageAt v bank t with
  | some i => BitVec.ofNat 32 (u32 (imageBytes i 0 512) 8)
  | none => 0#32

/-- SHA-512 of the image of a type in a bank, header and body (R501, R504); empty where there is none. -/
def imageDigest (v : Svc) (bank : Side) (t : Nat) : Bytes :=
  match imageAt v bank t with
  | some i => sha512 (imageBytes i 0 i.len)
  | none => []

/-- A control die runs the firmware of a bank, the centre die its runtime (R501 step 4, R548). -/
def runDie (s bank : Side) (v : Svc) : Svc :=
  { v with dieBank := v.dieBank.set s bank, dieDigest := v.dieDigest.set s (imageDigest v bank 3) }

def runCentre (bank : Side) (v : Svc) : Svc := { v with centreBank := bank, centreDigest := imageDigest v bank 2 }

/-- The first image of a bank that fails the checks of R501, in the order in which the boot verifies them: TYPE and RESULT of R546. -/
def bankFault (v : Svc) (s : Side) : Option (Nat × Nat) :=
  [1, 2, 3, 4, 5].findSome? fun t => if imageResult v t (imageAt v s t) = 0 then none else some (t, imageResult v t (imageAt v s t))

/-- The candidate bank: the one that is not selected. -/
def candidate (v : Svc) : Side := v.bank.other

/-- An image of the candidate bank is marked verified. -/
def candidateOk (v : Svc) (t : Nat) : Bool := ((imageAt v (candidate v) t).map (·.verified)).getD false

-- Node identifiers and the record's layout (R322, R554 to R556)

/-- A node identifier of the forms of R322 under torus sizes; with no sizes, any torus coordinate. -/
def nodeIdOk (dims : Nat × Nat × Nat) (n : Nat) : Bool :=
  if tb n 15 then fld n 10 5 < dims.1 && fld n 5 5 < dims.2.1 && fld n 0 5 < dims.2.2
  else n / 4096 = 0 && 1 ≤ n

def deviceChk (b : Bytes) (o : Nat) : List (Nat × Bool) :=
  let torus := tb (u16 b o) 15
  let dim (k : Nat) : Bool := if torus then 1 ≤ u8 b (o + k) && u8 b (o + k) ≤ 32 else u8 b (o + k) = 0
  let width (k : Nat) : Bool := [0, 1, 2, 4, 8, 16].contains (u8 b (o + k))
  [(o, nodeIdOk (u8 b (o + 2), u8 b (o + 3), u8 b (o + 4)) (u16 b o)), (o + 2, dim 2), (o + 3, dim 3), (o + 4, dim 4),
   (o + 5, 1 ≤ u8 b (o + 5) && u8 b (o + 5) ≤ 3), (o + 6, 500 ≤ u16 b (o + 6) && u16 b (o + 6) ≤ 3000),
   (o + 8, u16 b (o + 8) = 0 || 1024 ≤ u16 b (o + 8)), (o + 0xA, width 0xA), (o + 0xB, width 0xB), (o + 0x23, zeros b (o + 0x23) 29)]

def portChk (b : Bytes) (dev o : Nat) : List (Nat × Bool) :=
  let direct := u8 b o = 3
  let torus := tb (u16 b dev) 15
  [(o, u8 b o ≤ 3), (o + 1, u8 b (o + 1) < 8),
   (o + 2, if direct && torus then 1 ≤ u8 b (o + 2) && u8 b (o + 2) ≤ 6 else u8 b (o + 2) = 0),
   (o + 3, !direct || u8 b (o + 3) < 16),
   (o + 4, !direct || nodeIdOk (u8 b (dev + 2), u8 b (dev + 3), u8 b (dev + 4)) (u16 b (o + 4))),
   (o + 6, zeros b (o + 6) 2), (o + 0x24, zeros b (o + 0x24) 4), (o + 0x48, u8 b (o + 0x48) ≤ 31), (o + 0x68, u8 b (o + 0x68) ≤ 23)]

/-- The entry of a node table in a record whose PORTS section begins at ports. -/
def recNodeChk (b : Bytes) (ports o : Nat) : List (Nat × Bool) :=
  let eth (k : Nat) : Bool := u8 b (ports + 128 * k) = 1 || u8 b (ports + 128 * k) = 2
  [(o, u8 b o < 8), (o + 1, u8 b (o + 1) = 0), (o + 2, (bitsOf 16 (u16 b (o + 2))).all eth), (o + 4, !tb (u16 b (o + 4)) 12),
   (o + 0xC, zeros b (o + 0xC) 4), (o + 0x10, tb (u8 b o) 1 || zeros b (o + 0x10) 12)]

/-- The headers of n sections from an offset: type and place of each, and the end of the last. -/
def sectionsAt (b : Bytes) : Nat → Nat → List (Nat × Nat) × Nat
  | 0, o => ([], o)
  | n + 1, o =>
    let (l, e) := sectionsAt b n (o + 8 + u32 b (o + 4))
    ((u16 b o, o) :: l, e)

def sectionChk (b : Bytes) (total : Nat) (before : List Nat) (t o : Nat) : List (Nat × Bool) :=
  let n := u32 b (o + 4)
  [(o, 1 ≤ t && t ≤ 3 && !before.contains t), (o + 2, zeros b (o + 2) 2),
   (o + 4, (match t with
     | 1 => n = 64
     | 2 => n = 2048
     | _ => 32 ≤ n && n % 32 = 0 && n ≤ 32 * 4095) && o + 8 + n + 132 ≤ total)]

def sectionsChk (b : Bytes) (total : Nat) : List (Nat × Nat) → List Nat → List (Nat × Bool)
  | [], _ => []
  | (t, o) :: r, before => sectionChk b total before t o ++ sectionsChk b total r (t :: before)

/-- The layout of a record (R554 to R556): offset of the first field at fault. -/
def recordFault (b : Bytes) (len : Nat) : Option Nat :=
  let total := u32 b 0xC
  let head : List (Nat × Bool) :=
    [(0, slice b 0 4 = ascii "LMLD"), (4, u16 b 4 = 1), (6, u16 b 6 = 2 || u16 b 6 = 3), (8, u32 b 8 ≠ 0),
     (0xC, 512 ≤ total && total ≤ 262144 && total = len), (0x20, u8 b 0x20 = 4), (0xA5, u8 b 0xA5 = 4 || zeros b 0xA5 133),
     (0x12A, zeros b 0x12A 22)]
  match firstBad head with
  | some o => some o
  | none =>
    let (l, e) := sectionsAt b (u16 b 6) 0x140
    let at_ (t : Nat) : Nat := ((l.find? fun x => x.1 = t).map fun x => x.2 + 8).getD 0
    match firstBad (sectionsChk b total l []) with
    | some o => some o
    | none =>
      let nodes := if at_ 3 = 0 then [] else
        (List.range (u32 b (at_ 3 - 4) / 32)).flatMap fun i => recNodeChk b (at_ 2) (at_ 3 + 32 * i)
      firstBad (([(6, at_ 1 ≠ 0 && at_ 2 ≠ 0), (0xC, e + 132 = total)] : List (Nat × Bool)) ++ deviceChk b (at_ 1)
        ++ ((List.range 16).flatMap fun k => portChk b (at_ 1) (at_ 2 + 128 * k)) ++ nodes)

/-- What a record's checks answer (R557): the offset of a layout fault, or VERIFY_FAILED, or none. -/
inductive RecordBad where
  | layout (off : Nat)
  | verify
  deriving DecidableEq, Repr

/-- The key that verifies a record: the anchor in force, or the record's own where none is held. -/
def recordKey (v : Svc) (b : Bytes) : Bytes := v.anchor.getD (slice b 0x20 133)

def recordSerial (v : Svc) : Nat := (v.record.map fun r => u32 r 8).getD 0

def recordBad (v : Svc) (b : Bytes) (len : Nat) : Option RecordBad :=
  match recordFault b len with
  | some o => some (.layout o)
  | none =>
    if ecdsaVerify (recordKey v b) (b.take (len - 132)) (slice b (len - 132) 132)
        && slice b 0x10 16 = deviceDigest v && recordSerial v < u32 b 8 then none
    else some .verify

-- Application (R342, R384, R514, R555, R556)

def modeOf (n : Nat) : PortMode :=
  match n with
  | 1 => .dr8
  | 2 => .splitDr4
  | 3 => .direct
  | _ => .none

/-- The PORTS entry of a port. -/
def portEntryOf (b : Bytes) (k : Nat) : PortEntry :=
  let e := slice ((recSection b 2).getD []) (128 * k) 128
  let mode := modeOf (u8 e 0)
  let split : Bool := mode = .splitDr4
  let v6 := tb (u8 e 1) 2
  let lldp := tb (u8 e 1) 1
  { mode := mode
    fallback := tb (u8 e 1) 0
    peerPort := u8 e 3
    peerNode := BitVec.ofNat 16 (u16 e 4)
    peerId := slice e 8 16
    chassis := if lldp then slice e 0x49 (u8 e 0x48) else []
    portId := if lldp then slice e 0x69 (u8 e 0x68) else []
    dir := if mode = .direct && u8 e 2 ≠ 0 then some (u8 e 2 - 1) else none
    mac := slice e 0x18 12
    ipv4 := if v6 then [] else slice e 0x34 4 ++ (if split then slice e 0x44 4 else [])
    ipv6 := if v6 then slice e 0x28 16 ++ (if split then slice e 0x38 16 else []) else [] }

/-- What a record does to a port (R342, WOULD of R558): 0 unchanged, 1 recheck, 2 retrain. -/
def portChange (p : NetPort) (e : PortEntry) (nodeNew : Bool) : Nat :=
  let peerOnly := p.ent.mode = .direct && e = { p.ent with peerPort := e.peerPort, peerNode := e.peerNode, peerId := e.peerId }
  if e = p.ent then (if p.st = .held || (nodeNew && e.mode = .direct) then 1 else 0)
  else if peerOnly then 1
  else 2

/-- A port takes its new entry (R340, R342). A HELD port goes through training to its check; a port that trains afresh counts a retrain (R311, R346). -/
def applyEntry (port : Nat) (e : PortEntry) (nodeNew : Bool) (d : Dev) : Dev :=
  let p := d.port port
  let c := portChange p e nodeNew
  let old := p.ent
  let afresh (d : Dev) : Dev := d.onPort port fun p =>
    if p.st = .adminDown then p
    else if e.mode = .none || asleepPort d port then { p with st := .down }
    else { p with st := .training, retrains := if old.mode = .none then p.retrains else satAdd p.retrains 1 }
  if c = 2 then
    let d' := portDown port d
    let keep : Bool := p.st = .adminDown || (d'.port port).st = .adminDown
    afresh (d'.onPort port fun p => { p with ent := e, st := if keep then .adminDown else .down, lanesHealthy := 0#8, fallbackActive := false, holding := false, recheck := false })
  else if c = 0 then d
  else
    let d := d.onPort port fun p => { p with ent := e }
    match p.st with
    | .held => afresh (portDown port d)
    | .up => sendMgt port (identMsg d port) (d.onPort port fun p => { p with recheck := true, identSeen := false })
    | .stepping => sendMgt port (identMsg d port) (d.onPort port fun p => { p with recheck := true, identSeen := false })
    | .sleep => sendMgt port (identMsg d port) (d.onPort port fun p => { p with st := .up, recheck := true, identSeen := false })
    | .checking => sendMgt port (identMsg d port) (d.onPort port fun p => { p with identSeen := false })
    | .training => if p.replayRetrain then sendMgt port (identMsg d port) (d.onPort port fun p => { p with recheck := true, identSeen := false }) else d
    | _ => d

/-- The cap of a coolant class (R515). -/
def coolantCap (n : Nat) : Nat :=
  match n with
  | 1 => 3000
  | 2 => 2400
  | _ => 2000

/-- The declared width of a host link (R384). -/
def hostWidth (p : Side) (w : Nat) (d : Dev) : Dev :=
  let h := d.host.get p
  let below := w ≠ 0 && h.linkUp && h.width < w
  let d := d.onHost p fun h => { h with recordWidth := w, belowRecord := below }
  if below then logIt 0x0503 4 p.idx [h.width, w] (d := d) else d

/-- The node table that a record gives (R324). -/
def recordNodes (b : Bytes) : Tab Bytes :=
  let nodes := (recSection b 3).getD []
  (List.range (nodes.length / 32)).foldl (fun (t : Tab Bytes) i => putNode (i + 1) (slice nodes (32 * i) 32) t) []

/-- The writes that make one node table of another: an entry that goes is written without VALID (R40, R557). -/
def nodeWrites (old new : Tab Bytes) : List TableWrite :=
  (new.filter fun (i, e) => old.get? i ≠ some e).map (fun (i, e) => .nodeEntry i e)
    ++ (old.filter fun (i, _) => (new.get? i).isNone).map fun (i, _) => .nodeEntry i (zpad 32)

/-- A record in force is applied: identifiers and limits, host widths, the leader's node table, the ports; the tiles take the table as a replicated one. The limit that SET_POWER_LIMIT set goes (R518). -/
def applyRecord (b : Bytes) (d : Dev) : Dev :=
  let body := (recSection b 1).getD (zpad 64)
  let node := BitVec.ofNat 16 (u16 body 0)
  let nodeNew := node ≠ d.net.nodeId
  let d := d.onNet fun n => { n with
    nodeId := node
    torus := (u8 body 2, u8 body 3, u8 body 4)
    udpPort := if u16 body 8 = 0 then 47312#16 else BitVec.ofNat 16 (u16 body 8)
    nodes := recordNodes b }
  let d := d.onPwr fun p => { p with setW := none, recordW := some (u16 body 6), coolantW := some (coolantCap (u8 body 5)) }
  let d := hostWidth .east (u8 body 0xB) (hostWidth .west (u8 body 0xA) d)
  (List.range 16).foldl (fun d k => applyEntry k (portEntryOf b k) nodeNew d) d

-- Restart of congestion, shaping and gates (R309)


/-- The congestion, shaping and gate state of some tiles and of their ports restarts (R309): paths at their creation values, buckets full, gates open until the next cycle. -/
def restartFlow (tiles : List Nat) (d : Dev) : Dev :=
  let here (t : Nat) : Bool := tiles.contains t
  let d := d.onQ fun q => { q with qps := q.qps.map fun (n, x) =>
    (n, if here (qpTile n) then { x with paths := x.paths.map (restartPath (qpProfile d n x)) } else x) }
  let each {α : Type} (f : α → α) (l : List α) : List α := ((List.range l.length).zip l).map fun (t, x) => if here t then f x else x
  let d := d.onNet fun n => { n with
    ports := ((List.range 16).zip n.ports).map fun (k, p) =>
      if here (portTile k) then { p with
        queues := p.queues.map fun q => { q with shaper := fullShaper q.shaper, deficit := 0 }
        meter := fullMeter p.meter
        gateOn := false
        gateIdx := 0 }
      else p
    pace := n.pace.map fun (t, x) => (t, { x with shapers := each fullShaper x.shapers, meters := each fullMeter x.meters }) }
  d.onRopes fun x => { x with slots := x.slots.map fun (k, r) => (k, if here r.par.tile then { r with bucket := if r.par.maxRate = 0 then 0 else 1024 * (ropeBurst d r : Int) } else r) }

end Sys2Proof.Machine
end

