-- ==== Sys2Proof/Machine/PowerOps.lean ====
section
/-! DEFINITION. Power loss, power-on, warm reset and half reset as operations on the whole device (R8, R9, R512, R531 to R533, R541). -/

namespace Sys2Proof.Machine

/-- A write to a field that needs a Hasp the writer does not hold is discarded, counted, and the first per 60 s logged (R415, R434). -/
def needHasp (p : Side) (n off : Nat) (f : Dev → Dev) (d : Dev) : Dev :=
  if (d.hasp n).holder = some (.port p) then f d
  else logFirst60 0x0305 p.idx 0x0501 4 p.idx [0x0305, off] (haspMisuse (.port p) d)

-- The power limit (R514)

/-- The stage cap. -/
def stageCap (d : Dev) : Nat := if d.pwr.stages = 4 then 3000 else 2390

/-- The least of the record, coolant and stage terms; 1,000 W until a record is accepted (log 59). -/
def limitCap (d : Dev) : Nat :=
  match d.pwr.recordW, d.pwr.coolantW with
  | some r, some c => min (min r c) (stageCap d)
  | _, _ => min 1000 (stageCap d)

/-- The limit that the next 1 ms step takes (R514, R518). -/
def limitNow (d : Dev) : Nat :=
  match d.pwr.setW with
  | some w => min w (limitCap d)
  | none => limitCap d

-- Power loss (R512)

/-- What the boot-store die keeps of a stack (R63); retirements made before power-on show no time (R64). -/
def keptStack (s : Stack) : Stack :=
  { reserveExhausted := s.reserveExhausted, lostGroups := s.lostGroups, reserveUsed := s.reserveUsed, aside := s.aside, withheld := s.withheld
    retired := s.retired.map fun (g, r) => (g, { r with time := 0#64 }) }

/-- Every rail goes off: the device keeps the protected store and nothing else (R502, R512). -/
def powerLoss (d : Dev) : Dev :=
  { mem := { stk := d.mem.stk.map keptStack }
    svc := { banks := d.svc.banks, bank := d.svc.bank, minSvn := d.svc.minSvn, rootRevoked := d.svc.rootRevoked
             record := d.svc.record, anchor := d.svc.anchor, storeCount := d.svc.storeCount, storeLast := d.svc.storeLast }
    pwr := { pwrEn := d.pwr.pwrEn, vin := d.pwr.vin }
    out := d.out
    free := d.free }

def setRails (r : Rails) (d : Dev) : Dev := d.onPwr fun p => { p with rails := r }

/-- The input is within the range in which the device starts (R580). -/
def vinOk (mV : Nat) : Bool := 40000 ≤ mV && mV ≤ 58000

/-- Power loss while the device is powered at all; it starts again on a later event of PWR_EN (R580). -/
def powerOff (d : Dev) : Dev :=
  match d.pwr.rails with
  | .off => d
  | .waitInput => d
  | .holdoff => d
  | _ => powerLoss d

-- Power-on (R541)

/-- What runs from the running bank: the firmware of both dies and of the centre die, and the microcode of every unit. -/
def bootVersions (v : Svc) : Svc :=
  runCentre v.bank (runDie .east v.bank (runDie .west v.bank { v with
    firstDigest := imageDigest v v.bank 1
    tileDigest := imageDigest v v.bank 4
    stackDigest := List.replicate 32 (imageDigest v v.bank 5)
    stackUcode := List.replicate 32 (imageVersion v v.bank 5), tileUcode := List.replicate 8 (imageVersion v v.bank 4) }))

/-- Every unit takes its copies of the replicated tables from the leader. -/
def copyAll (d : Dev) : Dev := (List.range 10).foldl (fun d u => copyTables u d) d

/-- A stack trains and is ONLINE with its retirement data, or goes OFFLINE (R65). -/
def trainStack (k : Nat) (ok : Bool) (d : Dev) : Dev :=
  if ok then d.onStk k fun s => { s with mode := .online }
  else logIt 0x0105 1 k [1] (d := d.onStk k fun s => { s with mode := .offline })

-- The protected store (R502)

/-- The PUF's record: its helper data and the seed's check value. -/
def pufRecord : Bytes := Config.pufHelper ++ Config.seedCheck Config.pufSeed

/-- The seed that one of up to 8 attempts reconstructs (R497). -/
def seedOf (e : PowerOnEnv) : Option Bytes :=
  let r := ((e.store.find? fun r => r.kind = rkPuf).map (·.data)).getD pufRecord
  let n := Config.pufHelper.length
  ((e.puf.take 8).map fun x => Config.fuzzyExtract x (r.take n)).find? fun s => Config.seedCheck s = r.drop n

def retiredBytes (s : Stack) : Bytes :=
  toLE 2 s.reserveUsed ++ toLE 2 s.lostGroups.toNat ++ toLE 1 (b2n s.reserveExhausted) ++ s.aside.flatMap (toLE 2) ++ s.withheld.flatMap (toLE 2)
    ++ s.retired.flatMap fun (g, r) => toLE 2 g ++ toLE 2 (r.spare.getD 0) ++ toLE 1 r.cause.code ++ toLE 2 (r.owner.getD 0xFFFF) ++ toLE 4 r.poisoned

/-- The bytes of a record as the device last wrote it; the spec gives no layout (log 72). -/
def storeBytes (d : Dev) (k : Nat) : Bytes :=
  let v := d.svc
  let bank (s : Side) : Bytes := (v.banks.get s).flatMap fun (t, i) => toLE 1 t ++ toLE 1 (b2n i.verified) ++ toLE 4 i.len ++ imageBytes i 0 i.len
  match k with
  | 0 => pufRecord
  | 1 => Config.certChain
  | 2 => v.minSvn.flatMap (fun x => toLE 4 x.toNat) ++ toLE 1 v.rootRevoked.toNat
  | 3 => bank .west
  | 4 => bank .east
  | 5 => toLE 1 v.bank.idx
  | 6 => v.anchor.getD [] ++ v.record.getD []
  | _ => d.mem.stk.flatMap retiredBytes

/-- The MAC of a record under the store key; it covers the monotonic counter. -/
def storeMac (v : Svc) (k : Nat) (count : BitVec 64) (data : Bytes) : Bytes := hmac512 (storeKey v) (toLE 1 k ++ toLE 8 count.toNat ++ data)

/-- The copy of a record that the device last wrote. -/
def storeCopy (d : Dev) (k : Nat) : StoreRead :=
  let n := nth d.svc.storeLast k 0#64
  ⟨k, storeBytes d k, n, storeMac d.svc k n (storeBytes d k)⟩

/-- A record passes its check: its MAC verifies, at the counter's value of its last write. -/
def recordPasses (e : PowerOnEnv) (d : Dev) (k : Nat) : Bool :=
  let r := (e.store.find? fun r => r.kind = k).getD (storeCopy d k)
  r.count = nth d.svc.storeLast k 0#64 && r.mac = storeMac d.svc k r.count r.data

def badRecords (e : PowerOnEnv) (d : Dev) : List Nat := (List.range 8).filter fun k => !recordPasses e d k

/-- Records that fail are treated as absent. -/
def absentRecords (l : List Nat) (d : Dev) : Dev :=
  let d := d.onSvc fun v => { v with
    chainOk := !l.contains rkChain
    banks := ⟨if l.contains (rkBank .west) then [] else v.banks.w, if l.contains (rkBank .east) then [] else v.banks.e⟩
    record := if l.contains rkRecord then none else v.record
    anchor := if l.contains rkRecord then none else v.anchor }
  if l.contains rkRetired then d.onMem fun m => { m with stk := m.stk.map fun _ => {} } else d

/-- The row of R502's table that names a record, from 0. -/
def recordRow (k : Nat) : Nat := if k ≤ 2 then k else if k ≤ 5 then 3 else k - 2

/-- The record in force verifies at power-on (R541 step 12). -/
def recordHolds (v : Svc) (b : Bytes) : Bool :=
  ecdsaVerify (v.anchor.getD []) (b.take (b.length - 132)) (b.drop (b.length - 132)) && slice b 0x10 16 = deviceDigest v

/-- A control die runs its image: the bytes it loads have the digest that the boot verified (R501 step 4). -/
def dieRuns (e : PowerOnEnv) (v : Svc) (s : Side) : Bool :=
  match e.dieLoads.find? fun x => x.1 = s with
  | some x => sha512 x.2 = imageDigest v v.bank 3
  | none => true

/-- The dies that run: CDW leads, or CDE where CDW does not run; one that does not run stays in reset. -/
def diesStart (e : PowerOnEnv) (d : Dev) : Dev :=
  let w := dieRuns e d.svc .west
  let x := dieRuns e d.svc .east
  let d := if w then acquireLead .west d else if x then acquireLead .east d else d
  if w && x then d.onCtl fun c => { c with dies := c.dies.set .east .follower } else d

/-- What the boot has rejected is logged: records, and an image with its bank (R501, R502). -/
def bootLogs (bad : List Nat) (rej : Option (Side × Nat × Nat)) (d : Dev) : Dev :=
  let d := bad.foldl (fun d k => logIt 0x0802 6 0 [recordRow k] (d := d)) d
  match rej with
  | some (s, t, r) => logIt 0x0803 6 0 [t, s.idx, r] (d := d)
  | none => d

/-- The start once the boot has found its bank: the dies, the stacks, the record, the rings. -/
def powerUp (e : PowerOnEnv) (bank : Side) (bad : List Nat) (rej : Option (Side × Nat × Nat)) (d : Dev) : Dev :=
  let d := d.onPwr fun p => { p with
    rails := .on, tsc := 0#64, refOk := true, rootLock := true, serdesLock := List.replicate 8 true, pcieLock := ⟨true, true⟩
    straps := e.straps % 4, lastCause := 1#8 }
  let d := d.onSvc fun v => bootVersions { v with bank := bank }
  let d := bootLogs bad rej (diesStart e d)
  let d := (List.range 32).foldl (fun d k => trainStack k (tb e.stacksTrained.toNat k) d) d
  let d := match d.svc.record with
    | some r => if recordHolds d.svc r then applyRecord r d else d.onSvc fun v => { v with record := none }
    | none => d
  (copyAll d).onPwr fun p => { p with limitW := limitNow d }

/-- A boot that halts (R497, R501, R502): the clocks run, no control die is released. -/
def bootHalted (e : PowerOnEnv) (alert : Bool) (d : Dev) : Dev :=
  let d := d.onPwr fun p => { p with
    rails := .bootHalt, tsc := 0#64, refOk := true, rootLock := true, serdesLock := List.replicate 8 true, pcieLock := ⟨true, true⟩
    straps := e.straps % 4 }
  if alert then raiseAlert alBoot d else d

/-- The measurements of a boot that failed at the image of type t of a bank: those verified, and the failing one (R501; log 12). -/
def measureTo (s : Side) (t : Nat) (v : Svc) : Svc :=
  let m (k : Nat) : Bytes := if k ≤ t then imageDigest v s k else []
  { v with firstDigest := m 1, centreDigest := m 2, dieDigest := ⟨m 3, m 3⟩, tileDigest := m 4, stackDigest := List.replicate 32 (m 5) }

-- Ports, stacks and tiles that are reset

/-- What a reset leaves of a port (R310, R340, R533): its entry, its shapers, meter and gate list, its history unless the reset is warm. -/
def freshPort (warm : Bool) (p : NetPort) : NetPort :=
  { ent := p.ent
    recal := if warm then none else p.recal
    recalUp := if warm then none else p.recalUp
    replays := if warm then 0#32 else p.replays
    retrains := if warm then 0#16 else p.retrains
    steps := if warm then 0#16 else p.steps
    widthCap := p.widthCap
    fecLast := p.fecLast
    queues := p.queues.map fun q => { shaper := fullShaper q.shaper }
    meter := fullMeter p.meter
    gate := p.gate
    gatePending := if warm then p.gatePending.map fun g => { g with cmd := .sideband } else p.gatePending }

/-- A port is reset: DOWN, then training where the record gives it a mode (R340). -/
def resetPort (warm : Bool) (k : Nat) (d : Dev) : Dev :=
  let d := portDown k d
  let d := d.onPort k (freshPort warm)
  d.onPort k fun p => { p with st := if p.ent.mode = .none || asleepPort d k then .down else .training }

/-- A stack held in self-refresh through a reset (R65, R531, R532). -/
def resetStack (k : Nat) (d : Dev) : Dev :=
  d.onStk k fun s =>
    let s : Stack := { s with parkReq := false, held := [], track := [], ues := [], moves := s.moves.map fun m => { m with hold := [] } }
    match s.mode with
    | .offline => s
    | .init => s
    | _ => { s with mode := .online }

/-- The engine of a base die is empty; the count of ended legs is not a HALF field (R108). -/
def freshStkEng (warm : Bool) (k : Nat) (d : Dev) : Dev :=
  d.onStkEng k fun e => { legsEnded := if warm then 0#48 else e.legsEnded }

/-- A tile that is reset counts as drained and as having acknowledged; it takes the replicated tables from the leader again (R40, R174, R183, R531). -/
def resetTile (t : Nat) (d : Dev) : Dev :=
  let d := dropWaiters (fun w => match w with
    | .cqWrite n => cqTile n = t
    | _ => false) d
  let d := (d.onTile t fun _ => {}).onCiph fun c => { c with keyCache := c.keyCache.set t [], opening := c.opening.filter fun o => portTile o.port ≠ t }
  let d := d.onXlt fun x => { x with windows := x.windows.map fun (w, v) =>
    (w, { v with drain := v.drain.set t 0, views := v.views.set t (if v.freeing then .free else if v.closing then .closing else .open) }) }
  let d := (d.xlt.invs.map Prod.fst).foldl (fun d i => ackTile t i d) d
  let d := windowsEnd (replForget t (copyTables t d))
  (d.onQ fun q => { q with deficits := q.deficits.set t [], lastTenant := q.lastTenant.set t 0, lastQueue := q.lastQueue.set t [] }).onRopes
    fun r => { r with last := r.last.set t 0 }

-- Half reset (R531)

/-- The half that owns the work of an operation. -/
def opHalf (o : Op) : Side :=
  match o.src with
  | .entry n _ => tileHalf (qpTile n)
  | .message n _ _ _ => tileHalf (qpTile n)

/-- A place is reached through the half: a stack of it, or a host port, whose host tile lies in the port's half (R31). -/
def placeIn? (h : Side) : Place → Bool
  | .dev dpa => stackHalf (dpaStack dpa) = h
  | .host p _ _ => p = h

/-- Work of the other half that touches the half's stacks or tiles, or whose host data crosses it, ends FLUSHED, an operation with detail RESET (R28, R106, R531 step 3). -/
def flushOther (h : Side) (d : Dev) : Dev :=
  let ops := (d.eng.ops.filter fun (_, o) => opHalf o ≠ h
    && (tileHalf o.tile = h || o.legs.any fun l => stackHalf l.stack = h && l.stage ≠ .ended)).map Prod.fst
  let d := ops.foldl (fun d i => opFail i ccFlushed 0x17 d) d
  let xs := d.q.xfers.filter fun (_, x) => tileHalf (qpTile x.qpn) ≠ h
    && x.legs.any fun l => !l.done && (tileHalf l.tile = h || placeIn? h l.src || placeIn? h l.dst)
  let d := xs.foldl (fun d (i, x) => endBad x.qpn x.idx ccFlushed 0 (d.onQ fun q => { q with xfers := q.xfers.erase i })) d
  let rs := d.q.hostReqs.filter fun (_, r) => r.sent && r.port = h && match r.use with
    | .message n _ => tileHalf (qpTile n) ≠ h
    | .leg _ _ => false
  rs.foldl (fun d (tag, r) => hostWorkFail r.use ccFlushed 0 (takeReq tag d)) d

/-- An emptied completion queue (R234, R235). -/
def freshCq (c : Cq) : Cq := { tenant := c.tenant, log2 := c.log2, vector := c.vector, addr := c.addr, stallMs := c.stallMs }

/-- The queue pairs and completion queues of a tile return to RESET and empty; the tenants concerned hear of it (R231, R234). -/
def resetObjects (t : Nat) (d : Dev) : Dev :=
  let qs := d.q.qps.filter fun (n, _) => qpTile n = t
  let cs := d.q.cqs.filter fun (n, _) => cqTile n = t
  let d := qs.foldl (fun d (n, _) => resetQp n d) d
  let d := cs.foldl (fun d (n, _) => d.onCq n freshCq) d
  let d := d.onQ fun q => { q with gone := q.gone.filter fun (n, _) => qpTile n ≠ t }
  (tenantNums d).foldl (fun d n =>
    let a := (qs.filter fun (_, q) => q.par.tenant = n).length
    let b := (cs.filter fun (_, c) => c.tenant = n).length
    if a = 0 && b = 0 then d else postEvent n 0x05 t a b d) d

/-- Ropes of a tile abort with RESET; their completion queue is empty, and nothing is sent again (R376). -/
def resetRopes (t : Nat) (d : Dev) : Dev :=
  (d.ropes.slots.filter fun (_, r) => r.par.tile = t).foldl (fun d (k, _) =>
    (ropeAbortLocal k 0x6B d).onRope k fun r => { r with waiting := [], abortDown := 0, abortUp := 0 }) d

def halfTiles (h : Side) : List Nat := (List.range 8).filter fun t => tileHalf t = h
def halfStacks (h : Side) : List Nat := (List.range 32).filter fun k => stackHalf k = h
def halfPorts (h : Side) : List Nat := (List.range 16).filter fun k => portHalf k = h

/-- A counter belongs to the West half below 256, to the East from there (chapter Service, Event counters). -/
def evcHalf (n : Nat) : Side := if n < 256 then .west else .east

/-- The steps of R531 once leadership is out of the half. -/
def halfReset (h : Side) (d : Dev) : Dev :=
  let d := releaseAll (.die h) d
  let d := d.onFab (flushQueues h)
  let d := flushOther h d
  let d := (halfTiles h).foldl (fun d t => resetRopes t d) d
  let d := (halfTiles h).foldl (fun d t => resetObjects t d) d
  let d := (halfStacks h).foldl (fun d k => freshStkEng false k (resetStack k d)) d
  let d := epochCast ((halfTiles h).foldl (fun d t => resetTile t d) d)
  let d := (halfPorts h).foldl (fun d k => resetPort false k d) d
  let d := restartFlow (halfTiles h) d
  let d := d.onCtl fun c => { c with dies := c.dies.upd h fun s => if s = .lost then .lost else .follower }
  let d := d.onSvc fun v => { v with counters := v.counters.filter fun (n, _) => evcHalf n ≠ h }
  let d := d.onPwr fun p => { p with halfResets := satAdd p.halfResets 1 }
  logIt 0x0704 0 0 [2] (d := d)

-- Warm reset (R532)

/-- Commands are dropped without a reply; an allocation whose handle was not told is undone (log 62). -/
def dropCommands (d : Dev) : Dev :=
  let d := allSlots.foldl (fun d c => match cmdAt d c with
    | some m => undoCreation m d
    | none => d) d
  d.onCtl fun c => { c with rings := ⟨List.replicate 4 {}, List.replicate 4 {}⟩, side := { c.side with cmd := none, request := none }, handover := none, turn := 8, repl := [] }

/-- A tenant's part of a warm reset: steps 2 to 7 of R457; a destruction under way leaves no stub (R460). -/
def warmTenant (n : Nat) (d : Dev) : Dev :=
  let d := d.onTen n fun t => { t with resetCmd := none, destroyCmd := none, freeze := none, destroy := t.destroy.map fun _ => [] }
  let st : TenState := match d.ten? n with
    | some t => if t.st = .destroying then .destroying else .resetting
    | none => .resetting
  tenResetSteps n st .warm d

/-- Frames that wait leave before the tiles stop, DISCONNECT among them. -/
def drainPort (k : Nat) (d : Dev) : Dev :=
  let n := ((d.port k).queues.map fun q => q.frames.length).sum
  iter (devPortSchedule k) n d

/-- Every Hasp and the Latch are free, raised by one where they were held (R394, R477). -/
def freeHasps (d : Dev) : Dev :=
  let d := d.onCtl fun c => { c with hasps := c.hasps.map fun h => if h.holder.isSome then { epoch := h.epoch + 1#32 } else { epoch := h.epoch } }
  let l := d.ciph.latch
  d.onCiph fun _ => { latch := { epoch := if l.holder.isSome then l.epoch + 1#32 else l.epoch }, drbgs := List.replicate 17 { since := now d } }

def warmHost (p : Side) (d : Dev) : Dev :=
  aerLog p .correctedInternal (d.onHost p fun h => { h with msix := [], funcMask := false, heldWrites := [], invHeld := [] })

/-- What a warm reset keeps and restores (R532, R533). -/
def warmReset (cause : Nat) (d : Dev) : Dev :=
  let d := dropCommands d
  -- no done entry is written for the jobs of a Latch that is held (R477)
  let d := if d.ciph.latch.holder.isSome then latchDrop d else d
  let ts := tenantNums d
  let d := ts.foldl (fun d n => warmTenant n d) d
  let d := (List.range 16).foldl (fun d k => drainPort k d) d
  let tombs := d.q.tombs.map fun (n, t) => (n, { t with auth := none })
  let d := d.onQ fun _ => { tombs := tombs.filter fun (n, _) => !d.ten.stubs.any fun s => s.1 = n }
  let d := d.onTens fun t => { t with stubs := [] }
  let d := d.onRopes fun _ => {}
  let d := d.onEng fun _ => {}
  let d := d.onXlt fun x => { tables := x.tables, lastKey := x.lastKey }
  let d := d.onFab fun f => { f with queues := [], waiting := [], rsp := [], crossings := [], tileEpoch := List.replicate 10 0#32, baseEpoch := List.replicate 32 0#32, staleCount := List.replicate 10 0 }
  let d := (List.range 32).foldl (fun d k => resetStack k d) d
  let d := d.onPwr fun p => { p with state := .active, bivCmd := none, wakeCmd := none, bellsHeld := [], pktsHeld := [] }
  let d := (List.range 16).foldl (fun d k => resetPort true k d) d
  let d := restartFlow (List.range 8) d
  let d := warmHost .east (warmHost .west d)
  let d := freeHasps d
  let d := d.onCtl fun c => { c with mbx := List.replicate 6 {}, lease := 0, dies := ⟨if c.dies.w = .lost then .lost else .starting, if c.dies.e = .lost then .lost else .starting⟩ }
  let d := d.onSvc fun v => bootVersions { v with trav := .idle, traverse := none, microcode := none, counters := [] }
  let d := d.onPwr fun p => { p with
    legacy := {}, warmCount := satAdd p.warmCount 1, lastCause := BitVec.ofNat 8 cause }
  -- the election (R398): CDW at once, CDE where CDW is lost
  let d := if d.ctl.dies.w = .lost then (if d.ctl.dies.e = .lost then d else acquireLead .east d) else acquireLead .west d
  let d := d.onCtl fun c => { c with dies := c.dies.upd .east fun s => if s = .starting then .follower else s }
  let d := copyAll d
  let d := logIt 0x0704 0 0 [if cause = 3 then 3 else 1] (d := d)
  ts.foldl (fun d n => tenResetTry n d) d

end Sys2Proof.Machine
end

