-- ==== Sys2Proof/Machine/RopeOps.lean ====
section
/-! DEFINITION. What the rows of ropes share (10_ropes): the role of a member in each piece (R359, R360), contributions and their combination (R361, R362, R369), hop delivery and ledges (R365, R366), completion (R356). -/

namespace Sys2Proof.Machine

-- Roles (R360)

def pieceRoot (r : Rope) (e : Bytes) (j : Nat) : Nat := if callKind e = 3 then j % r.par.members else u16 e 4

/-- The distance of this member from the root of piece j. -/
def delta (r : Rope) (e : Bytes) (j : Nat) : Nat := (r.par.index + r.par.members - pieceRoot r e j) % r.par.members

/-- This member receives the piece's data on the lap. -/
def takes (r : Rope) (e : Bytes) (j lap : Nat) : Bool :=
  let x := delta r e j
  if callKind e = 1 then lap = 1 && x ≠ 0
  else if callKind e = 2 then lap = 1 && x ≠ 1
  else (lap = 1 && x ≠ 1) || (lap = 2 && x ≠ 0)

/-- This member sends the piece's data on the lap. -/
def gives (r : Rope) (e : Bytes) (j lap : Nat) : Bool :=
  let x := delta r e j
  if callKind e = 1 then lap = 1 && x + 1 < r.par.members
  else if callKind e = 2 then lap = 1 && x ≠ 0
  else (lap = 1 && x ≠ 0) || (lap = 2 && x + 1 < r.par.members)

/-- The piece enters the ring here: the source of a BROADCAST, or the first contribution of a reduction. -/
def enters (r : Rope) (e : Bytes) (j : Nat) : Bool := delta r e j = (if callKind e = 1 then 0 else 1)

/-- Received data are written here, or checked (R360, R369). -/
def writesHere (e : Bytes) (lap : Nat) : Bool := callKind e = 1 || (callKind e = 3 && lap = 2)

/-- Received data are combined to the result here. -/
def rootHere (r : Rope) (e : Bytes) (j lap : Nat) : Bool := callKind e ≠ 1 && lap = 1 && delta r e j = 0

/-- The lap on which a piece held from a lap goes on from here. -/
def onward (r : Rope) (e : Bytes) (j lap : Nat) : Option Nat :=
  if rootHere r e j lap then (if callKind e = 3 then some 2 else none)
  else if gives r e j lap then some lap
  else none

def takesConfirm (r : Rope) (e : Bytes) : Bool :=
  if callKind e = 1 then delta r e 0 + 1 < r.par.members else callKind e = 2 && delta r e 0 ≠ 0

/-- CONFIRM begins here. -/
def makesConfirm (r : Rope) (e : Bytes) : Bool :=
  if callKind e = 1 then delta r e 0 + 1 = r.par.members else callKind e = 2 && delta r e 0 = 0

def passesConfirm (r : Rope) (e : Bytes) : Bool :=
  if callKind e = 1 then delta r e 0 + 2 < r.par.members
  else callKind e = 2 && delta r e 0 ≠ 0 && delta r e 0 + 1 < r.par.members

/-- Pieces of the call at distance x from this member's place. -/
def piecesAt (r : Rope) (e : Bytes) (x : Nat) : Nat :=
  let p := callPieces r e
  let m := r.par.members
  if callKind e = 3 then (p + m - 1 - (r.par.index + m - x) % m) / m
  else if delta r e 0 = x then p else 0

/-- Piece-laps of data that the role gives this member (R356). -/
def needTakes (r : Rope) (e : Bytes) : Nat :=
  let p := callPieces r e
  if callKind e = 1 then p - piecesAt r e 0
  else if callKind e = 2 then p - piecesAt r e 1
  else (p - piecesAt r e 1) + (p - piecesAt r e 0)

/-- Piece-laps of data that this member sends. -/
def needGives (r : Rope) (e : Bytes) : Nat :=
  let p := callPieces r e
  let last := piecesAt r e (r.par.members - 1)
  if callKind e = 1 then p - last
  else if callKind e = 2 then p - piecesAt r e 0
  else (p - piecesAt r e 0) + (p - last)

-- Elements

/-- Elements of n bytes each. -/
def splitElems (n : Nat) (b : Bytes) : List Nat := (List.range (b.length / n)).map fun i => leN (slice b (i * n) n)
def joinElems (n : Nat) (l : List Nat) : Bytes := l.flatMap (toLE n)

/-- A DTYPE element as a carry element (R359, R362). -/
def toCarry (e : Bytes) (x : Nat) : Nat × NumFlags :=
  if callWide e then
    match callFmt e with
    | .int32 => ((sext 32 x % 2 ^ 64).toNat, {})
    | f => let (v, fl) := toF32 false (elemVal f x); (v.toNat, fl)
  else (x, {})

/-- A value rounded to a float format; a finite value that overflows gives infinity and sets INF_PRODUCED (R79, R362). -/
def roundTo (f : Fmt) (v : Val) : Nat × NumFlags :=
  let (x, fl) := toFmt f .near false v
  let spill : Bool := match v, elemVal f x with
    | .fin _ _ _, .inf _ => true
    | _, _ => false
  (x, if spill then { fl with infProduced := true } else fl)

/-- A carry element as a DTYPE element, at the root (R362). -/
def fromCarry (e : Bytes) (x : Nat) : Nat × NumFlags :=
  if callWide e then
    match callFmt e with
    | .int32 => let (i, fl) := satI32 (sext 64 x); (i32Bits i, fl)
    | f => roundTo f (f32Val (BitVec.ofNat 32 x))
  else (x, {})

/-- The format of carry elements of the float kinds. -/
def carryFmt (e : Bytes) : Fmt := if callWide e && callFmt e ≠ .int32 then .fp32 else callFmt e

/-- The rank of a float that is not NaN; zeros of both signs rank equal. -/
def floatRank (bits x : Nat) : Int := if 2 ^ (bits - 1) ≤ x then -((x - 2 ^ (bits - 1) : Nat) : Int) else (x : Int)

/-- MIN or MAX; of equal operands the earlier is kept (R126, R362). -/
def pickOf (f : Fmt) (mx : Bool) (a b : Nat) : Nat × NumFlags :=
  if f.isInt then
    let later := if mx then sext f.bits a < sext f.bits b else sext f.bits b < sext f.bits a
    (if later then b else a, {})
  else if elemVal f a = .nan || elemVal f b = .nan then toFmt f .near false .nan
  else
    let later := if mx then floatRank f.bits a < floatRank f.bits b else floatRank f.bits b < floatRank f.bits a
    (if later then b else a, {})

/-- One step v ⊕ c on carry elements (R361, R362). -/
def combine (e : Bytes) (v c : Nat) : Nat × NumFlags :=
  match callOp e with
  | 0 =>
    if callFmt e = .int32 then ((v + c) % (if callWide e then 2 ^ 64 else 2 ^ 32), {})
    else roundTo (carryFmt e) (addVal (elemVal (carryFmt e) v) (elemVal (carryFmt e) c))
  | 1 => pickOf (carryFmt e) false v c
  | 2 => pickOf (carryFmt e) true v c
  | 3 => (v &&& c, {})
  | 4 => (v ||| c, {})
  | _ => (v ^^^ c, {})

/-- SATURATED, NAN_SEEN and INF_PRODUCED as the three flags of a rope (R356, R364). -/
def ropeFlags (f : NumFlags) : Nat := b2n f.saturated + 2 * b2n f.nanSeen + 4 * b2n f.infProduced

def flagsOf (l : List (Nat × NumFlags)) : Nat := l.foldl (fun n x => n ||| ropeFlags x.2) 0

/-- The element w that member m contributes to a copy-free call (R369). -/
def patternAt (m n w : Nat) : Nat := ((m + 1) * (n + 1) + w) % 2 ^ 32

/-- What a receiver of a copy-free call expects of element w (R369). -/
def expectAt (r : Rope) (c : Call) (w : Nat) : Nat :=
  if callKind c.entry = 1 then patternAt (u16 c.entry 4) c.num w
  else ((c.num + 1) * (r.par.members * (r.par.members + 1) / 2) + r.par.members * w) % 2 ^ 32

/-- The stacks of a stretch of the rope's memory can be reached in the COL class, for a read of its own contribution or for a write (R37). A stretch that does not translate, or a stack that is offline, answers by itself. -/
def ropeOpen (d : Dev) (r : Rope) (a n : Nat) (w : Bool) : Bool :=
  match xrange d r.par.tile r.par.tenant a n w with
  | .error _ => true
  | .ok l => ((devPieces l).getD []).all fun (x, _) =>
    stackOffline d (dpaStack x) || stackOpenCol d r.par.tile (dpaStack x)

/-- Own elements from element w, k of them, can be read now. -/
def ownOpen (d : Dev) (r : Rope) (c : Call) (w k : Nat) : Bool :=
  callFree c.entry || ropeOpen d r (callSrc c.entry + w * elemSize c.entry) (k * elemSize c.entry) false

/-- Elements from element w, k of them, can be written to DST now. -/
def putOpen (d : Dev) (r : Rope) (c : Call) (w k : Nat) : Bool :=
  callFree c.entry || ropeOpen d r (callDst c.entry + w * elemSize c.entry) (k * elemSize c.entry) true

/-- Own elements read for the call. -/
inductive OwnRead where
  | ok (l : List Nat)
  | bad
  | err (x : XErr)

/-- k DTYPE elements of this member's contribution from element w (R360, R369). -/
def ownElems (d : Dev) (r : Rope) (c : Call) (w k : Nat) : OwnRead :=
  if callFree c.entry then .ok ((List.range k).map fun i => patternAt r.par.index c.num (w + i))
  else
    let n := elemSize c.entry
    match xrange d r.par.tile r.par.tenant (callSrc c.entry + w * n) (k * n) false with
    | .error x => .err x
    | .ok l => match devPieces l with
      | none => .err .access
      | some l => match readPieces d l with
        | some b => .ok (splitElems n b)
        | none => .bad

/-- Own elements are read for the call: the access comes after those held before it, and its stream looks its pages up (R48, R65, R162). -/
def ownTake (slot : Nat) (r : Rope) (c : Call) (w k : Nat) (d : Dev) : OwnRead × Dev :=
  if callFree c.entry then (ownElems d r c w k, d)
  else
    let n := elemSize c.entry
    let d := touchRange r.par.tile r.par.tenant (callSrc c.entry + w * n) (k * n) false d
    match ownElems d r c w k with
    | .err x => (.err x, d)
    | o => (o, lookupRange r.par.tile r.par.tenant (callSrc c.entry + w * n) (k * n) (.work (.rope slot) false) d)

/-- A translation that fails for a rope: it stalls, or aborts (R164, R371, R379). -/
def ropeFault (slot : Nat) (r : Rope) (write : Bool) (x : XErr) (d : Dev) : Dev :=
  match stallOn r.par.tile r.par.tenant write (.rope slot) x d with
  | (.waits, d) => stallStream (.rope slot) d
  | (.refused, d) => ropeAbortLocal slot 0x64 d
  | (.unresolved, d) => ropeAbortLocal slot 0x63 d

/-- DTYPE elements from element w of the call reach DST, or are checked in a copy-free call. True: they are committed. -/
def ropeCommit (slot : Nat) (r : Rope) (c : Call) (check : Bool) (w : Nat) (l : List Nat) (d : Dev) : Bool × Dev :=
  if callFree c.entry then
    if check && ((List.range l.length).zip l).any (fun (i, x) => x ≠ expectAt r c (w + i)) then (false, ropeAbortLocal slot 0x68 d)
    else (true, d)
  else
    let n := elemSize c.entry
    match xrange d r.par.tile r.par.tenant (callDst c.entry + w * n) (l.length * n) true with
    | .error x => (false, ropeFault slot r true x d)
    | .ok ps => match devPieces ps with
      | none => (false, ropeAbortLocal slot 0x64 d)
      | some ps =>
        if ps.any fun (a, _) => stackOffline d (dpaStack a) then (false, ropeAbortLocal slot 0x62 d)
        else (true, writePieces ps (joinElems n l) (lookupRange r.par.tile r.par.tenant (callDst c.entry + w * n) (l.length * n) (.work (.rope slot) true) d))

-- Ledges

/-- Bytes of a piece-lap from offset off, len of them, gathered from its chunks. -/
def gatherFrom (l : List Chunk) : Nat → Nat → Nat → Option Bytes
  | 0, _, len => if len = 0 then some [] else none
  | f + 1, off, len =>
    if len = 0 then some []
    else match l.find? fun c => c.off ≤ off && off < c.off + c.data.length with
      | none => none
      | some c =>
        let n := min len (c.off + c.data.length - off)
        (gatherFrom l f (off + n) (len - n)).map fun r => slice c.data (off - c.off) n ++ r

def gatherAll (l : List Chunk) (off len : Nat) : Option Bytes := gatherFrom l (l.length + 1) off len

def onCall (slot : Nat) (f : Call → Call) (d : Dev) : Dev := d.onRope slot fun r => { r with call := r.call.map f }

def onInput (slot piece lap : Nat) (f : PieceIn → PieceIn) (d : Dev) : Dev :=
  onCall slot (fun c => { c with input := c.input.map fun i => if i.piece = piece && i.lap = lap then f i else i }) d

def onOutput (slot piece lap : Nat) (f : PieceOut → PieceOut) (d : Dev) : Dev :=
  onCall slot (fun c => { c with output := c.output.map fun o => if o.piece = piece && o.lap = lap then f o else o }) d

def useChunk (off : Nat) (l : List Chunk) : List Chunk := l.map fun c => if c.off = off then { c with used := true } else c

/-- A piece-lap in a ledge is whole, and its bytes have been written or combined where this member does that. -/
def inputDone (r : Rope) (c : Call) (i : PieceIn) : Bool :=
  let l := if writesHere c.entry i.lap || rootHere r c.entry i.piece i.lap then i.chunks.filter (·.used) else i.chunks
  l ≠ [] && (gatherAll l 0 (lapBytes r c.entry i.piece i.lap)).isSome

/-- Work of this member on one chunk that it holds: the write of received data, or the root's last step (R360, R361). -/
def chunkWork (slot : Nat) (r : Rope) (c : Call) (i : PieceIn) (k : Chunk) (d : Dev) : Dev :=
  let e := c.entry
  let n := lapSize e i.lap
  let w := i.piece * pieceElems r e + k.off / n
  let xs := splitElems n k.data
  if rootHere r e i.piece i.lap then
    match ownTake slot r c w xs.length d with
    | (.err x, d) => ropeFault slot r false x d
    | (.bad, d) => ropeAbortLocal slot 0x62 d
    | (.ok own, d) =>
      let cs := own.map (toCarry e)
      let vs := (xs.zip (cs.map Prod.fst)).map fun (v, x) => combine e v x
      let out := (vs.map Prod.fst).map (fromCarry e)
      let fl := i.flags ||| flagsOf cs ||| flagsOf vs ||| flagsOf out
      match ropeCommit slot r c (callKind e = 2) w (out.map Prod.fst) d with
      | (false, d) => d
      | (true, d) =>
        let res : Chunk := { off := k.off / n * elemSize e, data := joinElems (elemSize e) (out.map Prod.fst), used := true }
        onCall slot (fun c => { c with flags := c.flags ||| fl }) (onInput slot i.piece i.lap (fun i => { i with
          flags := fl, chunks := useChunk k.off i.chunks, res := if callKind e = 3 then i.res ++ [res] else i.res }) d)
  else
    match ropeCommit slot r c true w xs d with
    | (false, d) => d
    | (true, d) => onInput slot i.piece i.lap (fun i => { i with chunks := useChunk k.off i.chunks }) d

/-- The stacks that the work on a chunk touches can be reached (R37). -/
def workOpen (d : Dev) (r : Rope) (c : Call) (i : PieceIn) (k : Chunk) : Bool :=
  let n := lapSize c.entry i.lap
  let w := i.piece * pieceElems r c.entry + k.off / n
  (!rootHere r c.entry i.piece i.lap || ownOpen d r c w (k.data.length / n)) && putOpen d r c w (k.data.length / n)

/-- A chunk of a piece-lap that waits for this member's work. -/
def workOf (r : Rope) (c : Call) (i : PieceIn) : Option Chunk :=
  if writesHere c.entry i.lap || rootHere r c.entry i.piece i.lap then i.chunks.find? fun k => !k.used else none

-- The hop downstream (R365, R366)

/-- A packet of the call takes the next PSN and waits to be sent. -/
def pushHop (slot : Nat) (t : BitVec 8) (piece lap flags hpn : Nat) (off : Nat) (first last : Bool) (data : Bytes) (d : Dev) : Dev :=
  d.onRope slot fun r => { r with call := r.call.map fun c =>
    let p : Pkt := {
      pflags := mkFlags first last false last false false, psn := c.tx.nextPsn, msgOffset := BitVec.ofNat 32 off,
      ext := ropeExt r c.num c.entry piece lap flags hpn, payload := data }
    { c with tx := { c.tx with
      nextPsn := c.tx.nextPsn + 1#32
      unacked := c.tx.unacked ++ [{ psn := c.tx.nextPsn, ptype := t, piece := piece, lap := lap, p := p }] } } }

/-- Send one packet of the hop, first time or again; false when it cannot leave now (R365, R374); its payload counts in TEN_COUNT_4 (R451; log 105). -/
def sendHop (slot : Nat) (h : HopPkt) (d : Dev) : Bool × Dev :=
  match d.rope? slot with
  | none => (false, d)
  | some r =>
    let data := h.ptype = 0x20#8
    let again := h.sends ≠ 0
    let p := if again then { h.p with pflags := h.p.pflags ||| 0x18#8 } else h.p
    let started : Bool := (r.call.map (·.tx.started)).getD false
    if !started || (data && r.par.maxRate ≠ 0 && r.bucket ≤ 0) then (false, d)
    else
      let len := frameLen (withOuter d r.par.tile { p with dstNode := r.par.downNode, trailer := zpad 4 })
      match sendRope slot true h.ptype p d with
      | (false, d) => (false, d)
      | (true, d) =>
        let d := tenCount r.par.tenant 4 (if data then h.p.payload.length else 0) d
        let d := if again then count 0x0903 r.par.tile (some r.par.tenant) 1 d else d
        (true, d.onRope slot fun r => { r with
          retx := if again then r.retx + 1#64 else r.retx
          bucket := if data && r.par.maxRate ≠ 0 then bucketCharge r.bucket ((len + 20) * 1024) else r.bucket
          call := r.call.map fun c => { c with tx := { c.tx with
            order := c.tx.order + 1
            unacked := c.tx.unacked.map fun x => if x.psn = h.psn then
              { x with sends := x.sends + 1, sentAt := now d, due := false, order := c.tx.order + 1, earlyDone := false } else x } } })

/-- The first packet that waits to be sent; PSNs ahead of the window wait (R252). -/
def dueHop (c : Call) : Option HopPkt := c.tx.unacked.find? fun h => h.due && (h.psn - c.tx.cum).toNat < 256

/-- Confirmations that wait leave at once where they can; data wait for the engine. -/
def flushConfirms : Nat → Nat → Dev → Dev
  | 0, _, d => d
  | f + 1, slot, d =>
    match ((d.rope? slot).bind (·.call)).bind dueHop with
    | none => d
    | some h =>
      if h.ptype ≠ 0x21#8 then d
      else match sendHop slot h d with
        | (true, d) => flushConfirms f slot d
        | (false, d) => d

-- The hop upstream

/-- The ACK extension of a hop: MSN_LIMIT is LEDGE_LIMIT (R363, R365). -/
def hopAckExt (cum : BitVec 32) (limit : Nat) (psn time : BitVec 32) (delay : Nat) (map : List Bool) : Bytes :=
  toBE 4 cum.toNat ++ toBE 4 limit ++ toBE 4 psn.toNat ++ toBE 4 time.toNat ++ toBE 4 delay ++ zpad 4
    ++ toLE 32 (maskOf 256 fun i => nth map i false)

/-- Send ROPE_ACK upstream for the call (R365). -/
def sendRopeAck (slot : Nat) (d : Dev) : Dev :=
  match d.rope? slot with
  | none => d
  | some r => match r.call with
    | none => d
    | some c =>
      let (psn, tm, at_) := c.rx.echo
      let delay := if c.rx.gotFirst then (now d - at_) % 2 ^ 32 else 0
      let ext := ropeExt r c.num c.entry 0 0 0 0 ++ hopAckExt c.rx.cum c.rx.limit psn tm delay c.rx.map
      let d := onCall slot (fun c => { c with rx := { c.rx with commits := 0 } }) d
      (sendRope slot false 0x22#8 { ext := ext } d).2

/-- CUM_PSN moves over every leading set bit (R256). -/
def advanceHop : Nat → HopRx → HopRx
  | 0, x => x
  | k + 1, x => match x.map with
    | true :: r => advanceHop k { x with cum := x.cum + 1#32, map := r ++ [false] }
    | _ => x

/-- A packet of the hop is committed: its bit, its echo, and whether ROPE_ACK is due (R256, R260). -/
def hopCommit (p : Pkt) (t : Nat) (x : HopRx) : HopRx :=
  advanceHop 256 { x with
    map := modAt x.map (p.psn - x.cum).toNat fun _ => true
    gotFirst := true, commits := x.commits + 1, echo := (p.psn, p.txTime, t) }

-- After each change: what is finished moves on

/-- Piece-laps sent whole and acknowledged (R356). -/
def doneOutputs (r : Rope) (c : Call) : List PieceOut :=
  c.output.filter fun o => o.sent = lapPkts r c.entry o.piece o.lap
    && !c.tx.unacked.any fun h => h.ptype = 0x20#8 && h.piece = o.piece && h.lap = o.lap

/-- Pieces from n on that are committed without a gap. -/
def confirmable (c : Call) : Nat → Nat → Nat
  | 0, n => n
  | f + 1, n => if c.got.contains (n, 1) then confirmable c f (n + 1) else n

/-- A CONFIRM for every piece below n (R360). -/
def confirmTo (slot n : Nat) (d : Dev) : Dev :=
  match (d.rope? slot).bind (·.call) with
  | none => d
  | some c =>
    if n ≤ c.confOut then d
    else
      let k := n - c.confOut
      let d := pushHop slot 0x21#8 (n - 1) 2 c.flags 0 0 true true [] d
      let d := onCall slot (fun c => { c with confOut := n }) d
      match d.rope? slot with
      | none => d
      | some r =>
        let d := d.onRope slot fun r => { r with pitches := r.pitches + BitVec.ofNat 64 k }
        flushConfirms 256 slot (count 0x0900 r.par.tile (some r.par.tenant) k d)

/-- The call is complete at this member (R356). -/
def callComplete (r : Rope) (c : Call) : Bool :=
  let e := c.entry
  let p := callPieces r e
  c.got.length = needTakes r e && c.gave.length = needGives r e && c.tx.unacked = []
    && (!takesConfirm r e || c.confIn = p) && (!(makesConfirm r e || passesConfirm r e) || c.confOut = p)

/-- The call completes OK: its completion waits to be released, and the rope is IDLE (R355, R356). -/
def finishCall (slot : Nat) (d : Dev) : Dev :=
  match d.rope? slot with
  | none => d
  | some r => match r.call with
    | none => d
    | some c => count 0x0901 r.par.tile (some r.par.tenant) 1 (d.onRope slot fun r => { r with
        st := .idle, call := none, since := [], nextCall := c.num + 1, callsDone := r.callsDone + 1#32
        past := (c.num, c.rx.cum, c.rx.limit)
        waiting := r.waiting ++ [(ropeCqe slot r c.num c.entry ccOk 0 0xFFFF c.flags, callSignal c.entry)] })

/-- Piece-laps that have moved on leave their places: sent ones when acknowledged, held ones when forwarded and acknowledged or committed at the lap's end; each ledge freed raises LEDGE_LIMIT (R366), which a ROPE_ACK tells at once (log 54). Then CONFIRM and completion. -/
def ropeTidy (slot : Nat) (d : Dev) : Dev :=
  match d.rope? slot with
  | none => d
  | some r => match r.call with
    | none => d
    | some c =>
      if r.st ≠ .running then d
      else
        let outs : List PieceOut := doneOutputs r c
        let c : Call := { c with
          output := c.output.filter fun o => !outs.contains o
          gave := c.gave ++ outs.map fun (o : PieceOut) => (o.piece, o.lap) }
        let ins : List PieceIn := c.input.filter (inputDone r c)
        let c : Call := { c with got := c.got ++ (ins.map fun i => (i.piece, i.lap)).filter fun x => !c.got.contains x }
        let free := ins.filter fun i => match onward r c.entry i.piece i.lap with
          | none => true
          | some l => c.gave.contains (i.piece, l)
        let c : Call := { c with
          input := c.input.filter fun i => !free.contains i
          flags := ins.foldl (fun n i => if i.lap = 2 then n ||| i.flags else n) c.flags
          rx := { c.rx with limit := c.rx.limit + free.length } }
        let d := d.onRope slot fun r => { r with call := some c, pitches := r.pitches + BitVec.ofNat 64 outs.length }
        let d := if outs = [] then d else count 0x0900 r.par.tile (some r.par.tenant) outs.length d
        let d := if free = [] then d else sendRopeAck slot d
        let d := if makesConfirm r c.entry then confirmTo slot (confirmable c (c.got.length + 1) c.confOut) d else d
        match d.rope? slot with
        | none => d
        | some r => match r.call with
          | none => d
          | some c => if callComplete r c then finishCall slot d else d

end Sys2Proof.Machine
end

