-- ==== Sys2Proof/Machine/Rope.lean ====
section
/-! DEFINITION. Ropes (10_ropes): creation and destruction, calls, rope packets, the rope engine, timeouts and aborts; the rows shared with other rings and channels (R195, R260, R263). -/

namespace Sys2Proof.Machine

-- ROPE_CREATE (R347 to R349)

def parseRope (p : Bytes) (mark : BitVec 32) : Rope :=
  { par := {
      tenant := u32 p 0, ropeId := BitVec.ofNat 32 (u32 p 4), tile := u8 p 9, members := u16 p 0x0A, index := u16 p 0x0C,
      priority := u8 p 0x0E, mtu := u8 p 0x0F, downNode := BitVec.ofNat 16 (u16 p 0x10), downSlot := u8 p 0x12, downEgress := u8 p 0x13,
      upNode := BitVec.ofNat 16 (u16 p 0x14), upSlot := u8 p 0x16, upEgress := u8 p 0x17, pieceLog2 := u8 p 0x18, ledges := u8 p 0x19,
      entropy := BitVec.ofNat 14 (u16 p 0x1A), timeoutUs := if u32 p 0x1C = 0 then 2000 else u32 p 0x1C, callAddr := u64 p 0x20,
      callLog2 := u8 p 0x28, triggerCq := u16 p 0x2A, doneCq := u16 p 0x2C, maxRate := u32 p 0x30 }
    mark := mark }

/-- A completion queue that a rope may name (R348). -/
def ropeCqOk (d : Dev) (t tile n : Nat) : Bool :=
  match d.cq? n with
  | some c => c.tenant = t && cqTile n = tile && c.st ≠ .overflow
  | none => false

def ropeCreateChk (p : Bytes) (d : Dev) : List (Nat × Bool) :=
  let m := u16 p 0x0A
  let t := u32 p 0
  let node (o : Nat) : Bool := if m = 1 then u16 p o = 0 else nodeOk d (BitVec.ofNat 16 (u16 p o))
  let slot (o : Nat) : Bool := if m = 1 then u8 p o = 0 else u8 p o < 64
  let port (o : Nat) : Bool := if m = 1 then u8 p o = 0 else u8 p o < 16 || u8 p o = 0xFF
  let a := u64 p 0x20
  [(0, t < 256), (4, u32 p 4 ≠ 0), (8, u8 p 8 < 64 && (d.rope? (u8 p 8)).isNone), (9, u8 p 9 < 8), (0x0A, 1 ≤ m && m ≤ 1024),
   (0x0C, u16 p 0x0C < m), (0x0E, u8 p 0x0E ≤ 3), (0x0F, u8 p 0x0F ≤ 3), (0x10, node 0x10), (0x12, slot 0x12), (0x13, port 0x13),
   (0x14, node 0x14), (0x16, slot 0x16), (0x17, port 0x17), (0x18, 12 ≤ u8 p 0x18 && u8 p 0x18 ≤ 20),
   (0x19, 4 ≤ u8 p 0x19 && u8 p 0x19 ≤ 64), (0x1A, u16 p 0x1A < 2 ^ 14),
   (0x1C, u32 p 0x1C = 0 || (100 ≤ u32 p 0x1C && u32 p 0x1C ≤ 1000000)),
   (0x20, a % 4096 = 0 && isDva a && fld a 57 6 = 0 && fld a 48 9 = 0), (0x28, 4 ≤ u8 p 0x28 && u8 p 0x28 ≤ 15), (0x29, u8 p 0x29 = 0),
   (0x2A, u16 p 0x2A < 16384), (0x2C, u16 p 0x2C < 16384 && u16 p 0x2C ≠ u16 p 0x2A), (0x2E, u16 p 0x2E = 0),
   (0x30, u32 p 0x30 = 0 || (100 ≤ u32 p 0x30 && u32 p 0x30 ≤ 2048000)), (0x34, zeros p 0x34 12)]

/-- A partition in units of 64 KiB (R349). -/
def partUnits (ledges pieceLog2 : Nat) : Nat := ceilDiv (ledges * 2 ^ pieceLog2) 65536

/-- Free reduction SRAM of a tile in units of 64 KiB (R349, R380). -/
def sramFree (d : Dev) (tile : Nat) : Nat :=
  d.ropes.slots.foldl (fun n (_, r) => if r.par.tile = tile then n - partUnits r.par.ledges r.par.pieceLog2 else n) 512

def devRopeCreate (c : CmdSlot) : Dev → Dev :=
  runChk c 0x0601 ropeCreateChk fun p d =>
    let n := u32 p 0
    withTenant c n true (fun t d =>
      if !ropeCqOk d n (u8 p 9) (u16 p 0x2A) then finishAt c stBadParam 0x2A d
      else if !ropeCqOk d n (u8 p 9) (u16 p 0x2C) then finishAt c stBadParam 0x2C d
      else if t.par.ropes ≤ (tenRopes d n).length then quotaHit c n 6 d
      else if sramFree d (u8 p 9) < partUnits (u8 p 0x19) (u8 p 0x18) || !tileUp d (u8 p 9) then finish c stNoResource d
      else
        let mark : BitVec 32 := ((d.cq? (u16 p 0x2A)).map (·.count)).getD 0#32
        let r := parseRope p mark
        finish c stDone (d.onRopes fun x => { x with
          slots := x.slots.set (u8 p 8) { r with bucket := if r.par.maxRate = 0 then 0 else 1024 * (ropeBurst d r : Int) } })) d

def execRopeCreate (c : CmdSlot) (s : State) : Host.Outcome State Fault Refusal := onDev s (live (devRopeCreate c))

-- Calls (R351 to R354)

/-- The contents of a call entry are in range (R352 to R354). -/
def callForm (r : Rope) (e : Bytes) : Bool :=
  let m := r.par.members
  let kind := callKind e
  let op := callOp e
  let bare := callFree e || callLen e = 0
  let root := u16 e 4 = r.par.index
  let needSrc := !bare && (if kind = 1 then root else true)
  let needDst := !bare && (if kind = 1 then !root else if kind = 2 then root else true)
  let bits := u8 e 1 / 16 = 0
  let dtype := u8 e 2 = 4 || u8 e 2 = 5 || u8 e 2 = 6 || u8 e 2 = 9
  let s := callSrc e
  let t := callDst e
  let n := callLen e
  1 ≤ kind && kind ≤ 3 && bits && dtype && op ≤ 5 && (kind ≠ 1 || op = 0)
    && (if kind = 3 then u16 e 4 = 0 else u16 e 4 < m) && u16 e 6 = 0 && s % 256 = 0 && t % 256 = 0
    && n ≤ 2147483648 && n % 32 = 0 && zeros e 0x24 28
    && (needSrc || s = 0) && (needDst || t = 0)
    && !(kind = 3 && !bare && s ≠ t && s < t + n && t < s + n)
    && !(3 ≤ op && callFmt e ≠ .int32)
    && !(callWide e && (kind = 1 || op ≠ 0 || callFmt e = .fp32))
    && !(callFree e && (callFmt e ≠ .int32 || op ≠ 0 || callWide e))

/-- A buffer that the tenant may not use so: the form of its addresses, a page without the right, memory that is lost (R155, R354). -/
def bufferBad (d : Dev) (t a n : Nat) (w : Bool) : Bool :=
  n ≠ 0 && (!isDva a || !formOk d t a || !formOk d t (a + n - 1)
    || (tabOf d t).maps.any (fun m => meets (m.dva + 2 ^ 63) m.len a n && (if w then !m.write else !m.read))
    || (tabOf d t).lost.any fun (s, k) => meets (s + 2 ^ 63) k a n)

def callAccess (d : Dev) (r : Rope) (e : Bytes) : Bool :=
  let t := r.par.tenant
  let src := callSrc e ≠ 0 && bufferBad d t (callSrc e) (callLen e) false
  let dst := callDst e ≠ 0 && bufferBad d t (callDst e) (callLen e) true
  let absent := !(callFree e || callLen e = 0) && (if callKind e = 1 then (if u16 e 4 = r.par.index then callSrc e = 0 else callDst e = 0)
    else callSrc e = 0 || (callDst e = 0 && (callKind e = 3 || u16 e 4 = r.par.index)))
  !src && !dst && !absent

/-- A call of a rope of one member: SRC converted to DST as the root would (R360). -/
def aloneCall (slot : Nat) (r : Rope) (c : Call) (d : Dev) : Dev :=
  let e := c.entry
  if callKind e = 1 || callLen e = 0 then finishCall slot d
  else
    let k := callElems e
    match ownTake slot r c 0 k d with
    | (.err x, d) => ropeFault slot r false x d
    | (.bad, d) => ropeAbortLocal slot 0x62 d
    | (.ok own, d) =>
      let cs := own.map (toCarry e)
      let out := (cs.map Prod.fst).map (fromCarry e)
      match ropeCommit slot r c (callKind e = 2) 0 (out.map Prod.fst) d with
      | (false, d) => d
      | (true, d) => finishCall slot (onCall slot (fun c => { c with flags := flagsOf cs ||| flagsOf out }) d)

/-- The stacks of a call of one member can be reached. -/
def aloneOpen (d : Dev) (r : Rope) (c : Call) : Bool :=
  callKind c.entry = 1 || callLen c.entry = 0 || (ownOpen d r c 0 (callElems c.entry) && putOpen d r c 0 (callElems c.entry))

/-- The entry of the next call has been read after n re-reads: the call begins, or the rope aborts (R354, R365, R376). -/
def callBegin (slot n : Nat) (e : Bytes) (d : Dev) : Dev :=
  match d.rope? slot with
  | none => d
  | some r =>
    let num := r.nextCall
    let c : Call := { num := num, entry := e, rx := { limit := r.par.ledges } }
    let start (d : Dev) : Dev := d.onRope slot fun r => { r with st := .running, call := some c, refetch := 0 }
    if tb (u8 e 1) 0 ≠ phaseOf (2 ^ r.par.callLog2) num then
      if n < 3 then d.onRope slot fun r => { r with refetch := n + 1 } else ropeAbortLocal slot 0x66 (start d)
    else if !callForm r e then ropeAbortLocal slot 0x66 (start d)
    else if !callAccess d r e then ropeAbortLocal slot 0x64 (start d)
    else if r.par.members = 1 then (if aloneOpen d r c then aloneCall slot r c (start d) else start d)
    else sendRopeAck slot (start d)

/-- Where the entry of call n lies (R351). -/
def callEntryAddr (r : Rope) (n : Nat) : Nat := r.par.callAddr + n % 2 ^ r.par.callLog2 * 64

/-- The entry of the next call can be read now (R12, R18, R21). -/
def entryOpen (d : Dev) (r : Rope) : Bool := ropeOpen d r (callEntryAddr r r.nextCall) 64 false

/-- What reading a call entry finds. -/
inductive EntryRead where
  | ok (b : Bytes)
  | bad
  | err (x : XErr)

def readCall (d : Dev) (r : Rope) (n : Nat) : EntryRead :=
  match xrange d r.par.tile r.par.tenant (callEntryAddr r n) 64 false with
  | .error x => .err x
  | .ok l => match (devPieces l).bind (readPieces d) with
    | some b => .ok b
    | none => .bad

/-- The fetch of the next call's entry: it comes after the accesses held before it, and its stream looks the page up (R48, R65, R162). -/
def takeCall (slot : Nat) (r : Rope) (d : Dev) : EntryRead × Dev :=
  let a := callEntryAddr r r.nextCall
  let d := touchRange r.par.tile r.par.tenant a 64 false d
  match readCall d r r.nextCall with
  | .err x => (.err x, d)
  | o => (o, (enterRun r.par.tile r.par.tenant a (.calls slot) d).2)

/-- Read the entry of the next call and begin it, after n re-reads. -/
def callRead (slot n : Nat) (d : Dev) : Dev :=
  match d.rope? slot with
  | none => d
  | some r => match takeCall slot r d with
    | (.ok b, d) => callBegin slot n b d
    | (.bad, d) => ropeAbortLocal slot 0x62 d
    | (.err x, d) => ropeFault slot r false x (d.onRope slot fun r => { r with refetch := 0 })

/-- A call that is due completes ROPE_ABORT without having begun (R376, R377); an entry that cannot be read leaves its WR_ID free (log 19). -/
def dueAborted (slot origin reason : Nat) (d : Dev) : Dev :=
  match d.rope? slot with
  | none => d
  | some r =>
    let (e, d) := match takeCall slot r d with
      | (.ok b, d) => (b, d)
      | (_, d) => let (v, d) := takeFree d; (zpad 8 ++ toLE 8 v.toNat ++ zpad 48, d)
    d.onRope slot fun r => { r with
      nextCall := r.nextCall + 1, callsDone := r.callsDone + 1#32
      waiting := r.waiting ++ [(ropeCqe slot r r.nextCall e ccRopeAbort reason origin 0, true)] }

/-- Calls of this rope can be taken: its tile runs. -/
def ropeRuns (d : Dev) (r : Rope) : Bool := tileUp d r.par.tile && d.pwr.state = .active && r.destroying.isNone

/-- Calls of this rope may begin: its tenant is ACTIVE (R379, R464). -/
def ropeMay (d : Dev) (r : Rope) : Bool :=
  ropeRuns d r && match d.ten? r.par.tenant with
    | some t => t.st = .active
    | none => false

/-- The rope's DONE_CQ is OPEN (R358). -/
def doneOpen (d : Dev) (r : Rope) : Bool :=
  match d.cq? r.par.doneCq with
  | some c => c.st = .open
  | none => false

/-- ROPE_CALL_DUE (R351, R355, R358, R376). A call that falls due on an ABORTED rope completes whatever its tenant's state. -/
def devRopeCallDue (slot : Nat) (d : Dev) : Dev :=
  match d.rope? slot with
  | none => d
  | some r =>
    if !ropeDue d r || !ropeRuns d r || r.waiting ≠ [] || !entryOpen d r then d
    else match r.st with
      | .aborted => dueAborted slot r.abortOrigin r.abortReason d
      | .idle => if ropeMay d r && doneOpen d r && r.refetch = 0 && !r.stalled then callRead slot 0 d else d
      | .running => d

def execRopeCallDue (slot : Nat) (s : State) : Host.Outcome State Fault Refusal := onDev s (liveQ (devRopeCallDue slot))

/-- PHASE_REFETCH: an entry whose PHASE did not match is read again, after 250, 500 and 1,000 ns (R195, R354, R428, R492). -/
def devPhaseRefetch (t : RefetchTarget) (data : Bytes) (d : Dev) : Dev :=
  match t with
  | .sq n => refetchRing n false data d
  | .rq n => refetchRing n true data d
  | .command c => match c with
    | .ring p k =>
      let n := (d.ring p k).refetch
      if n = 0 || (leader d).isNone || d.ctl.handover.isSome || !canIssue d p || (d.ring p k).cmd.isSome || !(d.ring p k).enable then d
      else ringPacket p k n (some data) d
    | .sideband => d
  | .job => if d.ciph.refetch ≠ 0 && jobReady d then jobTake d.ciph.refetch data d else d
  | .ropeCall k => match d.rope? k with
    | some r => if r.refetch ≠ 0 && r.st = .idle && doneOpen d r && ropeMay d r && entryOpen d r then callRead k r.refetch d else d
    | none => d

def execPhaseRefetch (t : RefetchTarget) (data : Bytes) (s : State) : Host.Outcome State Fault Refusal :=
  onDev s (liveQ (devPhaseRefetch t data))

/-- ROPE_ACK_REPEAT: the start ROPE_ACK again, until the first packet of the call (R365). -/
def devRopeAckRepeat (slot : Nat) (d : Dev) : Dev :=
  match (d.rope? slot).bind (·.call) with
  | none => d
  | some c => if c.rx.gotFirst then d else sendRopeAck slot d

def execRopeAckRepeat (slot : Nat) (s : State) : Host.Outcome State Fault Refusal := onDev s (live (devRopeAckRepeat slot))

-- Rope packets arrive (R363 to R367)

def ptRopeData : BitVec 8 := 0x20#8
def ptRopeConfirm : BitVec 8 := 0x21#8
def ptRopeAck : BitVec 8 := 0x22#8
def ptRopeAbort : BitVec 8 := 0x23#8

/-- Bytes of the extensions of a rope packet (R364). -/
def ropeExtSize (t : BitVec 8) : Nat := if t = ptRopeAck then 96 else if t = ptRopeAbort then 48 else 40

/-- Check 2 of R255 on a rope packet (R363, R364); an abort from a member without a call carries none (log 55). -/
def ropeForm (t : BitVec 8) (p : Pkt) : Bool :=
  let e := p.ext
  let pf := p.pflags.toNat
  let abort := t = ptRopeAbort
  let data := t = ptRopeData || t = ptRopeConfirm
  let kind := bx e 0x0D 1
  let dt := bx e 0x0E 1
  pf % 4 = 0 && !tb pf pfAuth && !tb pf pfImm && e.length = ropeExtSize t
    && (t = ptRopeData || p.payload = [])
    && (if data then bx e 0x0C 1 = 1 || bx e 0x0C 1 = 2 else bx e 0x0C 1 = 0)
    && (t = ptRopeData || bx e 0x1C 4 = 0) && (data || bx e 8 4 = 0)
    && ((abort && kind = 0) || (1 ≤ kind && kind ≤ 3 && (dt = 4 || dt = 5 || dt = 6 || dt = 9) && bx e 0x0F 1 ≤ 5))
    && bx e 0x12 1 < 32 && zeros e 0x15 3 && zeros e 0x24 4
    && 12 ≤ bx e 0x13 1 && bx e 0x13 1 ≤ 20 && 4 ≤ bx e 0x14 1 && bx e 0x14 1 ≤ 64 && 1 ≤ bx e 0x20 2 && bx e 0x20 2 ≤ 1024
    && (t ≠ ptRopeAck || (bx e (40 + 20) 4 = 0 && !tb (bx e (40 + 24) 1) 0))
    && (!abort || (bx e 40 2 < 1024 && 0x60 ≤ bx e 42 1 && bx e 42 1 ≤ 0x6F && bx e 43 1 ≤ 1 && zeros e 44 4))

/-- The answer of a device without the rope: ROPE_ABORT with NO_ROPE back to the sender, its index and direction as the packet implies them (R367; log 55). -/
def noRope (port : Nat) (t : BitVec 8) (p : Pkt) (d : Dev) : Dev :=
  let d := count 0x0904 port none 1 d
  let recent : Bool := match d.ropes.noRope.get? p.srcNode.toNat with
    | some x => now d < x + usTicks 10
    | none => false
  if recent then d
  else
    let d := d.onRopes fun x => { x with noRope := x.noRope.set p.srcNode.toNat (now d) }
    let e := p.ext
    let m := bx e 0x20 2
    let fromUp := t = ptRopeData || t = ptRopeConfirm || (t = ptRopeAbort && bx e 43 1 = 0)
    let me := if fromUp then (bx e 0x22 2 + 1) % m else (bx e 0x22 2 + m - 1) % m
    let head := slice e 0 8 ++ zpad 5 ++ slice e 0x0D 5 ++ [BitVec.ofNat 8 (bx e 0x12 1 % 4)] ++ slice e 0x13 9 ++ zpad 4
      ++ slice e 0x20 2 ++ toBE 2 me ++ zpad 4
    let tile := portTile port
    let r : Pkt := withOuter d tile { p with
      ver := 0x20#8, path := 0#8, msn := 0#32, pflags := 0#8, dstNode := p.srcNode, srcNode := d.net.nodeId, dstQpn := p.srcQpn, srcQpn := p.dstQpn, psn := 0#32, msgOffset := 0#32,
      txTime := d.pwr.tsc.setWidth 32, ext := head ++ abortExt me 0x69 (if fromUp then 1 else 0), payload := [] }
    if nodeKnown d tile p.srcNode then release tile port ptRopeAbort (withCrc ptRopeAbort r) none 0 false none d else d

/-- Which neighbour sent the packet: true upstream, false downstream; none for a stranger (R367). -/
def fromUpstream (r : Rope) (t : BitVec 8) (p : Pkt) : Option Bool :=
  let up := p.srcNode = r.par.upNode && p.srcQpn.toNat = r.par.upSlot
  let down := p.srcNode = r.par.downNode && p.srcQpn.toNat = r.par.downSlot
  if t = ptRopeData || t = ptRopeConfirm then (if up then some true else none)
  else if up && down then some (decide (t = ptRopeAbort && bx p.ext 43 1 = 0))
  else if up then some true
  else if down then some false
  else none

/-- Geometry and sender of a packet agree with the rope (R350, R367). -/
def sameRope (r : Rope) (up : Bool) (p : Pkt) : Bool :=
  let e := p.ext
  let m := r.par.members
  bx e 0x13 1 = r.par.pieceLog2 && bx e 0x14 1 = r.par.ledges && bx e 0x20 2 = m
    && bx e 0x22 2 = (if up then (r.par.index + m - 1) % m else (r.par.index + 1) % m)

/-- The call fields of a packet agree with the current call (R367). -/
def sameCall (c : Call) (p : Pkt) : Bool :=
  let e := p.ext
  let x := c.entry
  bx e 0x0D 1 = callKind x && bx e 0x0E 1 = u8 x 2 && bx e 0x0F 1 = callOp x && bx e 0x10 2 = u16 x 4
    && bx e 0x12 1 % 4 = b2n (callWide x) + 2 * b2n (callFree x) && bx e 0x18 4 = callLen x

/-- A packet of a call that has completed here is acknowledged as wholly received (R365). -/
def ackPast (slot : Nat) (r : Rope) (p : Pkt) (d : Dev) : Dev :=
  let e := p.ext
  let call := bx e 4 4
  let (num, last, limit) := r.past
  let cum := if num % 2 ^ 32 = call && r.nextCall ≠ 0 then last else p.psn + 1#32
  let head := slice e 0 8 ++ zpad 5 ++ slice e 0x0D 5 ++ [BitVec.ofNat 8 (bx e 0x12 1 % 4)] ++ slice e 0x13 9 ++ zpad 4
    ++ slice e 0x20 2 ++ toBE 2 r.par.index ++ zpad 4
  (sendRope slot false ptRopeAck { ext := head ++ hopAckExt cum limit p.psn p.txTime 0 [] } d).2

/-- A packet that takes a PSN is committed, and acknowledged when R260 says so. -/
def commitRope (slot : Nat) (p : Pkt) (d : Dev) : Dev :=
  let d := onCall slot (fun c => { c with rx := hopCommit p (now d) c.rx }) d
  let k : Nat := (((d.rope? slot).bind (·.call)).map (·.rx.commits)).getD 0
  if pflag p pfAckReq || 16 ≤ k then sendRopeAck slot d else d

/-- ROPE_DATA within its call (R360, R366, R367): it is taken into its ledge, and written where this member only writes. -/
def takeRopeData (slot : Nat) (r : Rope) (c : Call) (p : Pkt) (d : Dev) : Dev :=
  let e := p.ext
  let j := bx e 8 4
  let lap := bx e 0x0C 1
  let hpn := bx e 0x1C 4
  let off := p.msgOffset.toNat
  let len := p.payload.length
  let old := c.input.find? fun i => i.piece = j && i.lap = lap
  let lapOk := takes r c.entry j lap && !c.got.contains (j, lap) && match old with
    | some i => i.hpn = hpn
    | none => !c.input.any fun i => i.hpn = hpn
  if !(j < callPieces r c.entry) || !lapOk || lapBytes r c.entry j lap < off + len || ropeMtu r < len
      || off % lapSize c.entry lap ≠ 0 || len % lapSize c.entry lap ≠ 0 || c.rx.limit ≤ hpn then
    ropeAbortLocal slot 0x6E d
  else
    let fl := bx e 0x12 1 / 4
    let k : Chunk := { off := off, data := p.payload }
    let d := match old with
      | some _ => onInput slot j lap (fun i => { i with
          chunks := if i.chunks.any (fun x => x.off = off && x.data.length = len) then i.chunks else i.chunks ++ [k], flags := i.flags ||| fl }) d
      | none => onCall slot (fun c => { c with input := c.input ++ [{ piece := j, lap := lap, hpn := hpn, chunks := [k], flags := fl }] }) d
    let d := commitRope slot p (tenCount r.par.tenant 5 len d)
    let d :=
      if writesHere c.entry lap && !r.stalled && putOpen d r c (j * pieceElems r c.entry + off / lapSize c.entry lap) (len / lapSize c.entry lap) then
        match d.rope? slot with
        | some r => match r.call.bind fun c => (c.input.find? fun i => i.piece = j && i.lap = lap).map fun i => (c, i) with
          | some (c, i) => chunkWork slot r c i k d
          | none => d
        | none => d
      else d
    ropeTidy slot d

/-- ROPE_CONFIRM within its call (R360). -/
def takeConfirm (slot : Nat) (r : Rope) (c : Call) (p : Pkt) (d : Dev) : Dev :=
  let j := bx p.ext 8 4
  if !(j < callPieces r c.entry) || bx p.ext 0x0C 1 ≠ 2 || !takesConfirm r c.entry then ropeAbortLocal slot 0x6E d
  else
    let d := onCall slot (fun c => { c with confIn := max c.confIn (j + 1), flags := c.flags ||| bx p.ext 0x12 1 / 4 }) d
    let d := commitRope slot p d
    ropeTidy slot (if passesConfirm r c.entry then confirmTo slot (j + 1) d else d)

/-- ROPE_DATA or ROPE_CONFIRM of a rope: by its call, then by its PSN (R256, R365). An aborted rope still answers for the calls it had completed before. -/
def ropePayload (port slot : Nat) (r : Rope) (t : BitVec 8) (p : Pkt) (d : Dev) : Dev :=
  let call := BitVec.ofNat 32 (bx p.ext 4 4)
  match r.call with
  | none =>
    if 0 ≤ seqDiff call (BitVec.ofNat 32 r.nextCall) then count 0x0906 port none 1 d
    else if r.st = .aborted && 0 ≤ seqDiff call (BitVec.ofNat 32 r.abortCall) then d
    else ackPast slot r p d
  | some c =>
    let at_ := seqDiff call (BitVec.ofNat 32 c.num)
    if 0 < at_ then count 0x0906 port none 1 d
    else if at_ < 0 then ackPast slot r p d
    else if !sameCall c p then ropeAbortLocal slot 0x67 d
    else
      let k := (p.psn - c.rx.cum).toNat
      -- a duplicate, or a packet ahead of the window, is answered at once and echoed (R260)
      let answer (src : Nat) : Dev := sendRopeAck slot
        (onCall slot (fun c => { c with rx := { c.rx with gotFirst := true, echo := (p.psn, p.txTime, now d) } }) (count src port (some r.par.tenant) 1 d))
      if 2 ^ 31 ≤ k || (k < 256 && nth c.rx.map k false) then answer rxDup
      else if 256 ≤ k then answer rxPsnAhead
      else if t = ptRopeData then takeRopeData slot r c p d
      else takeConfirm slot r c p d

/-- ROPE_ACK of the current call (R261 to R263, R365, R366). -/
def ropeAcked (port slot : Nat) (r : Rope) (p : Pkt) (d : Dev) : Dev :=
  let call := BitVec.ofNat 32 (bx p.ext 4 4)
  match r.call with
  | none => if 0 ≤ seqDiff call (BitVec.ofNat 32 r.nextCall) then count 0x0906 port none 1 d else d
  | some c =>
    let at_ := seqDiff call (BitVec.ofNat 32 c.num)
    if 0 < at_ then count 0x0906 port none 1 d
    else if at_ < 0 then d
    else if !sameCall c p then ropeAbortLocal slot 0x67 d
    else
      let e := p.ext.drop 40
      let cum := BitVec.ofNat 32 (bx e 0 4)
      let sack (i : Nat) : Bool := sackBit e i
      let next := ((c.tx.unacked.find? fun h => h.sends = 0).map (·.psn)).getD c.tx.nextPsn
      if psnBefore next cum || (List.range 256).any (fun i => sack i && !psnBefore (cum + BitVec.ofNat 32 i) next) then
        count rxAckBad port (some r.par.tenant) 1 d
      else
        let hit (h : HopPkt) : Bool := h.sends ≠ 0 && (psnBefore h.psn cum || ((h.psn - cum).toNat < 256 && sack (h.psn - cum).toNat))
        let got := c.tx.unacked.filter hit
        let early (h : HopPkt) : Bool := h.sends ≠ 0 && !h.earlyDone && !h.due && h.retx < 7 && got.any fun a => h.order < a.order
        let echo := BitVec.ofNat 32 (bx e 8 4)
        let rtt := (d.pwr.tsc.setWidth 32 - BitVec.ofNat 32 (bx e 12 4) - BitVec.ofNat 32 (bx e 16 4)).toNat
        let sample := got.any fun h => h.sends = 1 && h.psn = echo
        let (s, v) :=
          if !sample then (r.srtt, r.rttvar)
          else if r.sampled then ((7 * r.srtt + rtt) / 8, (3 * r.rttvar + (if rtt < r.srtt then r.srtt - rtt else rtt - r.srtt)) / 4)
          else (rtt, rtt / 2)
        let d := d.onRope slot fun r => { r with
          srtt := s, rttvar := v, sampled := r.sampled || sample
          call := r.call.map fun c => { c with tx := { c.tx with
            started := true
            limit := max c.tx.limit (bx e 4 4)
            cum := if psnBefore c.tx.cum cum then cum else c.tx.cum
            unacked := (c.tx.unacked.filter fun h => !hit h).map fun h =>
              if early h then { h with due := true, earlyDone := true, retx := h.retx + 1 } else h } } }
        ropeTidy slot (flushConfirms 256 slot d)

/-- ROPE_ABORT: adopted, and forwarded in its direction but never back to its origin (R373). -/
def ropeAborted (slot : Nat) (r : Rope) (p : Pkt) (d : Dev) : Dev :=
  let origin := bx p.ext 40 2
  let down := bx p.ext 43 1 = 0
  let m := r.par.members
  let next := if down then (r.par.index + 1) % m else (r.par.index + m - 1) % m
  ropeAbort slot origin (bx p.ext 42 1) (down && next ≠ origin) (!down && next ≠ origin) d

/-- The port meter of a rope packet (R297, R299; log 56): whether it is dropped. -/
def meterRope (port : Nat) (p : Pkt) (ten : Nat) (d : Dev) : Bool × Dev :=
  let m := (d.port port).meter
  let colour := meterColour m
  let drop := meterDrops d port m
  let d := d.onPort port fun x => { x with meter := meterCharge x.meter (frameLen p) }
  let d := count (0x0500 + colour) port (some ten) 1 d
  (drop, if drop then count 0x0503 port (some ten) 1 d else d)

/-- The checks of R367 on a rope packet that has passed checks 1 and 2 of R255. -/
def ropeChecked (port : Nat) (t : BitVec 8) (p : Pkt) (d : Dev) : Dev :=
  let slot := p.dstQpn.toNat
  match d.rope? slot with
  | none => noRope port t p d
  | some r =>
    if bx p.ext 0 4 ≠ r.par.ropeId.toNat then noRope port t p d
    else
      match meterRope port p r.par.tenant d with
      | (true, d) => d
      | (false, d) =>
        match fromUpstream r t p with
        | none => count 0x0905 port none 1 d
        | some up =>
          if r.st = .aborted then (if t = ptRopeAbort || t = ptRopeAck then d else ropePayload port slot r t p d)
          else if !sameRope r up p then ropeAbortLocal slot 0x67 d
          else if t = ptRopeAbort then
            let mine := match r.call with
              | some c => BitVec.ofNat 32 (bx p.ext 4 4) ≠ BitVec.ofNat 32 c.num || bx p.ext 0x0D 1 = 0 || sameCall c p
              | none => true
            if mine then ropeAborted slot r p d else ropeAbortLocal slot 0x67 d
          else if t = ptRopeAck then
            if !up then ropeAcked port slot r p d
            else match r.call with
              | some c => if BitVec.ofNat 32 (bx p.ext 4 4) = BitVec.ofNat 32 c.num && !sameCall c p then ropeAbortLocal slot 0x67 d else d
              | none => d
          else ropePayload port slot r t p d

/-- A rope packet reaches its rope's tile in the COL class (R37). -/
def ropeLand (port : Nat) (t : BitVec 8) (p : Pkt) (d : Dev) : Dev :=
  match d.rope? p.dstQpn.toNat with
  | some r => if tileUp d r.par.tile then ropeChecked port t p d else d
  | none => ropeChecked port t p d

/-- A rope packet arrives at a port (R255, R300, R367). -/
def recvRope (t : BitVec 8) (port : Nat) (p : Pkt) (d : Dev) : Dev :=
  let np := d.port port
  let size := frameLen p
  if !portUp d port || !tileUp d (portTile port) || (np.ent.mode = .direct && p.dstNode ≠ d.net.nodeId) then d
  else if bufFull d port size then count rxBufFull port none 1 d
  else frameIn port (inwardWith d port t p) (fun d =>
    let ten := (d.rope? p.dstQpn.toNat).map (·.par.tenant)
    let d := count 0x0402 port ten 1 (count 0x0403 port ten size d)
    if p.trailer.length ≠ (if pflag p pfAuth then 16 else 4) then malformed port p d
    else if pflag p pfAuth then malformed port p d
    else match trailerCheck none t p with
      | .ok p _ =>
        if p.ver.toNat / 16 ≠ 2 then versionBad port p d
        else if !ropeForm t p then malformed port p d
        else match d.rope? p.dstQpn.toNat with
          | some r =>
            if tileUp d r.par.tile then crossOr ⟨.col, portTile port, r.par.tile⟩ (.rope port t p) (ropeLand port t p) d else d
          | none => ropeChecked port t p d
      | _ => trailerBad port d) d

def devRopePkt (t : BitVec 8) (port : Nat) (p : Pkt) (d : Dev) : Dev := arrive t port p (recvRope t port p) d

def execRopeData (port : Nat) (p : Pkt) (s : State) : Host.Outcome State Fault Refusal := onDev s (liveQ (devRopePkt ptRopeData port p))
def execRopeConfirm (port : Nat) (p : Pkt) (s : State) : Host.Outcome State Fault Refusal := onDev s (liveQ (devRopePkt ptRopeConfirm port p))
def execRopeAck (port : Nat) (p : Pkt) (s : State) : Host.Outcome State Fault Refusal := onDev s (liveQ (devRopePkt ptRopeAck port p))
def execRopeAbort (port : Nat) (p : Pkt) (s : State) : Host.Outcome State Fault Refusal := onDev s (liveQ (devRopePkt ptRopeAbort port p))

-- The rope engine (R361, R366, R374, R375)

/-- A data packet could leave downstream now (R37, R277, R370, R374). -/
def canSend (d : Dev) (r : Rope) (c : Call) : Bool :=
  c.tx.started && (c.tx.nextPsn - c.tx.cum).toNat < 256 && (r.par.maxRate = 0 || 0 < r.bucket)
    && match ropePort d r true with
      | some port => eqRoom d port 6 (ropeFrame d r (ropeMtu r)) && tileOpen d .col r.par.tile (portTile port)
      | none => false

/-- Bytes of a data packet: its offset and length within the piece-lap. -/
def pktSpan (r : Rope) (e : Bytes) (j lap i : Nat) : Nat × Nat :=
  let o := i * ropeMtu r
  (o, min (ropeMtu r) (lapBytes r e j lap - o))

/-- The chunks that a sent piece-lap goes out from; none for this member's own contribution. -/
def sourceOf (r : Rope) (c : Call) (j lap : Nat) : Option (Option (List Chunk × Nat)) :=
  if lap = 1 && enters r c.entry j then some none
  else match c.input.find? fun i => i.piece = j && onward r c.entry j i.lap = some lap with
    | none => none
    | some i =>
      if rootHere r c.entry j i.lap then some (some (i.res, i.flags))
      else if writesHere c.entry i.lap then some (some (i.chunks.filter (·.used), i.flags))
      else some (some (i.chunks, i.flags))

/-- The next packet of the piece-lap has its input. -/
def hasInput (r : Rope) (c : Call) (o : PieceOut) : Bool :=
  if lapPkts r c.entry o.piece o.lap ≤ o.sent then false
  else match sourceOf r c o.piece o.lap with
    | none => false
    | some none => true
    | some (some (l, _)) => let (off, n) := pktSpan r c.entry o.piece o.lap o.sent; l ≠ [] && (gatherAll l off n).isSome

/-- The next packet of a piece-lap is formed and leaves: own data, data passed on, or p ⊕ own (R360, R361). -/
def servePacket (slot : Nat) (r : Rope) (c : Call) (o : PieceOut) (d : Dev) : Dev :=
  let e := c.entry
  let (off, n) := pktSpan r e o.piece o.lap o.sent
  let w := o.piece * pieceElems r e + off / lapSize e o.lap
  let last := o.sent + 1 = lapPkts r e o.piece o.lap
  let out (data : Bytes) (fl : Nat) (d : Dev) : Dev :=
    let d := onOutput slot o.piece o.lap (fun o => { o with sent := o.sent + 1, flags := fl }) d
    let d := pushHop slot ptRopeData o.piece o.lap fl o.hpn off (decide (o.sent = 0)) last data d
    match ((d.rope? slot).bind (·.call)).bind fun c => c.tx.unacked.getLast? with
    | some h => (sendHop slot h d).2
    | none => d
  let own (f : List Nat → Dev → Dev) : Dev := match ownTake slot r c w (n / lapSize e o.lap) d with
    | (.err x, d) => ropeFault slot r false x d
    | (.bad, d) => ropeAbortLocal slot 0x62 d
    | (.ok l, d) => f l d
  match sourceOf r c o.piece o.lap with
  | none => d
  | some none => own fun l d =>
    let cs := if callKind e = 1 then l.map fun x => (x, {}) else l.map (toCarry e)
    out (joinElems (lapSize e o.lap) (cs.map Prod.fst)) (o.flags ||| flagsOf cs) d
  | some (some (l, fl)) => match gatherAll l off n with
    | none => d
    | some b =>
      if callKind e = 1 || o.lap = 2 then out b (o.flags ||| fl) d
      else own fun mine d =>
        let cs := mine.map (toCarry e)
        let vs := ((splitElems (carrySize e) b).zip (cs.map Prod.fst)).map fun (v, x) => combine e v x
        out (joinElems (carrySize e) (vs.map Prod.fst)) (o.flags ||| fl ||| flagsOf cs ||| flagsOf vs) d

/-- A piece-lap that may begin: one held here that goes on, or else the next piece that enters the ring here (R366). -/
def nextOutput (r : Rope) (c : Call) : Option PieceOut :=
  let open_ (j lap : Nat) : Bool := !c.gave.contains (j, lap) && !c.output.any fun o => o.piece = j && o.lap = lap
  let on := if c.tx.limit ≤ c.tx.nextHpn then none else c.input.findSome? fun i =>
    match onward r c.entry i.piece i.lap with
    | some l =>
      let o : PieceOut := { piece := i.piece, lap := l, hpn := c.tx.nextHpn }
      if open_ i.piece l && hasInput r c o then some o else none
    | none => none
  match on with
  | some o => some o
  | none =>
    if c.tx.limit ≤ c.tx.nextHpn + 1 then none
    else ((List.range (callPieces r c.entry)).find? fun j => enters r c.entry j && gives r c.entry j 1 && open_ j 1).map
      fun j => { piece := j, lap := 1, hpn := c.tx.nextHpn }

/-- The next packet of a piece-lap can be formed: its own elements, where it needs them, can be read (R37). -/
def formOpen (d : Dev) (r : Rope) (c : Call) (o : PieceOut) : Bool :=
  let (off, n) := pktSpan r c.entry o.piece o.lap o.sent
  let k := lapSize c.entry o.lap
  match sourceOf r c o.piece o.lap with
  | some (some _) => callKind c.entry = 1 || o.lap = 2 || ownOpen d r c (o.piece * pieceElems r c.entry + off / k) (n / k)
  | _ => ownOpen d r c (o.piece * pieceElems r c.entry + off / k) (n / k)

/-- The piece-laps in which the engine may find work: those in progress, the next one to begin, and that of the packet that waits to be sent. -/
def pitchList (r : Rope) (c : Call) : List (Nat × Nat) :=
  ((if r.par.members = 1 then [(0, 1)] else []) ++ ((dueHop c).toList.map fun (h : HopPkt) => (h.piece, h.lap)) ++ pitchesNow c
    ++ (nextOutput r c).toList.map fun (o : PieceOut) => (o.piece, o.lap)).dedup

/-- One act of the engine for a pitch, when it is eligible: its packet again, work on data it received, its next packet or its first one (log 57). Packets leave in the order of their PSNs. -/
def pitchAct (d : Dev) (slot : Nat) (r : Rope) (c : Call) (x : Nat × Nat) : Option Dev :=
  if r.par.members = 1 then (if aloneOpen d r c then some (aloneCall slot r c d) else none)
  else match (dueHop c).filter fun h => (h.piece, h.lap) = x with
    | some h => match sendHop slot h d with
      | (true, d) => some d
      | (false, _) => none
    | none => match c.input.findSome? fun i => if (i.piece, i.lap) = x then (workOf r c i).map fun k => (i, k) else none with
      | some (i, k) => if workOpen d r c i k then some (ropeTidy slot (chunkWork slot r c i k d)) else none
      | none =>
        if (dueHop c).isSome || !canSend d r c then none
        else match c.output.find? fun o => (o.piece, o.lap) = x && hasInput r c o && formOpen d r c o with
          | some o => some (ropeTidy slot (servePacket slot r c o d))
          | none => match (nextOutput r c).filter fun o => (o.piece, o.lap) = x && formOpen d r c o with
            | none => none
            | some o =>
              let c' := { c with output := c.output ++ [o], tx := { c.tx with nextHpn := c.tx.nextHpn + 1 } }
              let r' := { r with call := some c' }
              some (ropeTidy slot (servePacket slot r' c' o (d.onRope slot fun _ => r')))

/-- The eligible pitches of a rope. -/
def eligiblePitches (d : Dev) (slot : Nat) (r : Rope) : List (Nat × Nat) :=
  match r.call with
  | none => []
  | some c => if r.stalled || r.st ≠ .running then [] else (pitchList r c).filter fun x => (pitchAct d slot r c x).isSome

/-- A rope's pitches since when each has been eligible: one that is no longer so loses its age (R375). -/
def agePitches (t : Nat) (l : List (Nat × Nat)) (r : Rope) : Rope :=
  { r with since := l.map fun x => (x, ((r.since.find? fun y => y.1 = x).map Prod.snd).getD t) }

/-- A pitch the engine may serve: slot, priority, piece and lap, since when. -/
structure PitchTurn where
  slot : Nat
  priority : Nat
  pitch : Nat × Nat
  since : Nat

/-- Its place in the round robin. -/
def PitchTurn.key (x : PitchTurn) : Nat := x.slot * 2 ^ 34 + x.pitch.1 * 4 + x.pitch.2

/-- The least turn by a measure. -/
def leastTurn (f : PitchTurn → Nat) (l : List PitchTurn) : Option PitchTurn :=
  l.foldl (fun b x => match b with
    | some y => if f x < f y then some x else some y
    | none => some x) none

/-- The pitch served next: the oldest of those eligible for 100 µs, else one of the highest PRIORITY, round robin after the last (R375). -/
def pickPitch (t last : Nat) (l : List PitchTurn) : Option PitchTurn :=
  match leastTurn (·.since) (l.filter fun x => x.since + usTicks 100 ≤ t) with
  | some x => some x
  | none =>
    let top := l.foldl (fun n x => max n x.priority) 0
    let l := l.filter fun x => x.priority = top
    match leastTurn (·.key) (l.filter fun x => last < x.key) with
    | some x => some x
    | none => leastTurn (·.key) l

/-- ROPE_PITCH_SERVE: one packet of one eligible pitch of the tile. -/
def devRopePitchServe (tile : Nat) (d : Dev) : Dev :=
  if !tileUp d tile then d
  else
    let age (k : Nat) (r : Rope) : Rope := if r.par.tile = tile then agePitches (now d) (eligiblePitches d k r) r else r
    let d := d.onRopes fun x => { x with slots := x.slots.map fun (k, r) => (k, age k r) }
    let turns := d.ropes.slots.flatMap fun (k, r) =>
      if r.par.tile = tile then r.since.map fun (x, t) => (⟨k, r.par.priority, x, t⟩ : PitchTurn) else []
    match pickPitch (now d) (nth d.ropes.last tile 0) turns with
    | none => d
    | some x =>
      let d := (d.onRopes fun y => { y with last := modAt y.last tile fun _ => x.key }).onRope x.slot fun r =>
        { r with since := r.since.filter fun y => y.1 ≠ x.pitch }
      match (d.rope? x.slot).bind fun r => r.call.map fun c => (r, c) with
      | none => d
      | some (r, c) => (pitchAct d x.slot r c x.pitch).getD d

def execRopePitchServe (tile : Nat) (s : State) : Host.Outcome State Fault Refusal := onDev s (liveQ (devRopePitchServe tile))

-- Timers (R263, R365, R372, R373)

/-- PITCH_TIMEOUT: nothing of the begun call has advanced for TIMEOUT_US (R372). -/
def devPitchTimeout (slot : Nat) (d : Dev) : Dev :=
  match d.rope? slot with
  | none => d
  | some r => if r.st = .running && r.call.isSome then ropeAbortLocal slot 0x60 d else d

def execPitchTimeout (slot : Nat) (s : State) : Host.Outcome State Fault Refusal := onDev s (liveQ (devPitchTimeout slot))

/-- ROPE_ABORT_REPEAT: the second and third sendings in each direction (R373). -/
def devRopeAbortRepeat (slot : Nat) (d : Dev) : Dev :=
  match d.rope? slot with
  | none => d
  | some r =>
    let d := if r.abortDown = 0 then d else sendAbort slot true d
    let d := if r.abortUp = 0 then d else sendAbort slot false d
    d.onRope slot fun r => { r with abortDown := r.abortDown - 1, abortUp := r.abortUp - 1 }

def execRopeAbortRepeat (slot : Nat) (s : State) : Host.Outcome State Fault Refusal := onDev s (live (devRopeAbortRepeat slot))

/-- A packet of a hop times out: it is sent again, or at the eighth expiry the rope aborts HOP_RETRY (R263, R371). -/
def hopTimer (slot : Nat) (psn : BitVec 32) (d : Dev) : Dev :=
  match (d.rope? slot).bind (·.call) with
  | none => d
  | some c => match c.tx.unacked.find? fun h => h.psn = psn && (h.sends ≠ 0 || c.tx.started) with
    | none => d
    | some h =>
      if 7 ≤ h.retx then ropeAbortLocal slot 0x61 d
      else onCall slot (fun c => { c with tx := { c.tx with
        unacked := c.tx.unacked.map fun x => if x.psn = psn then { x with due := true, retx := x.retx + 1 } else x } }) d

/-- RETRANSMIT_TIMER of a queue pair's packet or of a hop's (R263, R365). -/
def devTimer (q : Sender) (psn : BitVec 32) (d : Dev) : Dev :=
  match q with
  | .qp n => devRetransmitTimer n psn d
  | .rope k => flushConfirms 256 k (hopTimer k psn d)

def execRetransmitTimer (q : Sender) (psn : BitVec 32) (s : State) : Host.Outcome State Fault Refusal := onDev s (liveQ (devTimer q psn))

/-- ACK_TIMER of a queue pair or of a hop (R260, R365). -/
def devAckDue (q : Sender) (d : Dev) : Dev :=
  match q with
  | .qp n => devAckTimer n d
  | .rope k => match (d.rope? k).bind (·.call) with
    | some c => if c.rx.commits = 0 then d else sendRopeAck k d
    | none => d

def execAckTimer (q : Sender) (s : State) : Host.Outcome State Fault Refusal := onDev s (liveQ (devAckDue q))

-- ROPE_DESTROY and ROPE_QUERY (R377, R378)

/-- The tenant's rope that a command names. -/
def withRope (c : CmdSlot) (p : Bytes) (busyRule : Bool) (f : Rope → Dev → Dev) (d : Dev) : Dev :=
  withTenant c (u32 p 0) busyRule (fun _ d => match d.rope? (u8 p 4) with
    | none => finishAt c stBadParam 4 d
    | some r => if r.par.tenant ≠ u32 p 0 then finishAt c stNotOwner 4 d else f r d) d

/-- Calls due and not begun (R351). -/
def dueCount (d : Dev) (r : Rope) : Nat :=
  match d.cq? r.par.triggerCq with
  | some c => (seqDiff c.count (r.mark + BitVec.ofNat 32 r.nextCall)).toNat
  | none => 0

def devRopeDestroy (c : CmdSlot) : Dev → Dev :=
  runChk c 0x0602 (fun p _ => [(0, u32 p 0 < 256), (4, u8 p 4 < 64), (5, zeros p 5 3)]) fun p d =>
    withRope c p true (fun r d =>
      let k := u8 p 4
      let d := leave c [k] d
      let d := if r.st = .running then ropeAbortLocal k 0x6A d else d
      let n : Nat := ((d.rope? k).map (dueCount d)).getD 0
      let d := iter (dueAborted k r.par.index 0x6A) n d
      d.onRope k fun r => { r with refetch := 0, destroying := some (some c) }) d

def execRopeDestroy (c : CmdSlot) (s : State) : Host.Outcome State Fault Refusal := onDev s (liveQ (devRopeDestroy c))

/-- A rope packet of the slot waits in some egress queue, or on its way to one. -/
def ropeQueued (d : Dev) (slot : Nat) : Bool :=
  let mine (t : BitVec 8) (x : Pkt) : Bool := t.toNat / 16 = 2 && x.srcNode = d.net.nodeId && x.srcQpn = BitVec.ofNat 32 slot
  let frame (f : Frame) : Bool := match f.kind with
    | .pkt t x _ _ => mine t x
    | _ => false
  d.net.ports.any (fun p => p.held6.any frame || p.queues.any fun q => q.frames.any frame)
    || d.fab.crossings.any fun c => match c.what with
      | .outward _ t x _ _ _ => mine t x
      | _ => false

/-- ROPE_SLOT_FREED: no packet of the rope remains, its aborts have been repeated and its completions released; slot and partition are free (R377; log 58). -/
def devRopeSlotFreed (slot : Nat) (d : Dev) : Dev :=
  match d.rope? slot with
  | none => d
  | some r => match r.destroying with
    | none => d
    | some cmd =>
      if ropeQueued d slot || r.abortDown ≠ 0 || r.abortUp ≠ 0 || r.waiting ≠ [] then d
      else
        let d := dropWaiters (fun w => w = .rope slot) (d.onRopes fun x => { x with slots := x.slots.erase slot })
        let d := match cmd with
          | some c => answerIf c 0x0602 stDone none d
          | none => d
        tenResetTry r.par.tenant d

def execRopeSlotFreed (slot : Nat) (s : State) : Host.Outcome State Fault Refusal := onDev s (liveQ (devRopeSlotFreed slot))

def ropeStateCode : RopeState → Nat
  | .idle => 1
  | .running => 2
  | .aborted => 3

/-- Pieces of the running call whose duties here are finished (R378). -/
def piecesDone (r : Rope) (c : Call) : Nat :=
  let e := c.entry
  ((List.range (callPieces r e)).filter fun j =>
    ([1, 2] : List Nat).all (fun l => (!takes r e j l || c.got.contains (j, l)) && (!gives r e j l || c.gave.contains (j, l)))
      && (!takesConfirm r e || j < c.confIn) && (!(makesConfirm r e || passesConfirm r e) || j < c.confOut)).length

/-- The record of R378. -/
def ropeRecord (r : Rope) : Bytes :=
  let ab := r.st = .aborted
  toLE 4 r.par.ropeId.toNat ++ toLE 1 (ropeStateCode r.st) ++ toLE 1 r.par.priority ++ toLE 2 r.par.members ++ toLE 2 r.par.index
    ++ toLE 1 r.par.ledges ++ toLE 1 r.par.pieceLog2 ++ toLE 4 r.callsDone.toNat
    ++ toLE 4 (match r.call with
      | some c => c.num
      | none => r.nextCall)
    ++ toLE 4 ((r.call.map (piecesDone r)).getD 0) ++ toLE 4 (if ab then r.abortCall else 0)
    ++ toLE 2 (if ab then r.abortOrigin else 0xFFFF) ++ toLE 1 (if ab then r.abortReason else 0) ++ zpad 1
    ++ toLE 8 r.pitches.toNat ++ toLE 8 r.retx.toNat ++ toLE 4 r.srtt ++ zpad 12

def devRopeQuery (c : CmdSlot) : Dev → Dev :=
  runChk c 0x0603 (fun p _ => [(0, u32 p 0 < 256), (4, u8 p 4 < 64), (5, zeros p 5 3), (8, addrOk c (u64 p 8) 64)]) fun p d =>
    withRope c p true (fun r d => finishRes c stDone (u64 p 8) (ropeRecord r) d) d

def execRopeQuery (c : CmdSlot) (s : State) : Host.Outcome State Fault Refusal := onDev s (live (devRopeQuery c))

end Sys2Proof.Machine
end

