-- ==== Sys2Proof/Machine/Power.lean ====
section
/-! DEFINITION. Power, clocks and resets (15_power_clocks_reset; R579 to R582): the input, the limiter, clock loss, the resets, the low-power states, the legacy window. -/

namespace Sys2Proof.Machine

-- PWR_EN and the input (R511, R512, R580)

/-- PWR_EN is asserted with the input at mV. -/
def devPwrEnAssert (mV : Nat) (d : Dev) : Dev :=
  d.onPwr fun p => { p with
    pwrEn := true, vin := mV
    rails := match p.rails with
      | .off => if vinOk mV then .starting else .waitInput
      | r => r }

def execPwrEnAssert (mV : Nat) (s : State) : Host.Outcome State Fault Refusal := onDev s (devPwrEnAssert mV)

/-- PWR_EN has been low for 10 µs. -/
def devPwrEnDeassert (d : Dev) : Dev := (powerOff d).onPwr fun p => { p with pwrEn := false, rails := .holdoff }

def execPwrEnDeassert (s : State) : Host.Outcome State Fault Refusal := onDev s devPwrEnDeassert

/-- 100 ms have passed since PWR_EN went low. -/
def devPowerOnHoldoff (d : Dev) : Dev :=
  d.onPwr fun p => if p.rails ≠ .holdoff then p
    else { p with rails := if !p.pwrEn then .off else if vinOk p.vin then .starting else .waitInput }

def execPowerOnHoldoff (s : State) : Host.Outcome State Fault Refusal := onDev s devPowerOnHoldoff

/-- The input enters the range while the device waits for it. -/
def devInputInRange (mV : Nat) (d : Dev) : Dev :=
  d.onPwr fun p => { p with vin := mV, rails := if p.rails = .waitInput && p.pwrEn && vinOk mV then .starting else p.rails }

def execInputInRange (mV : Nat) (s : State) : Host.Outcome State Fault Refusal := onDev s (devInputInRange mV)

/-- The device is powered. -/
def railsUp (d : Dev) : Bool :=
  match d.pwr.rails with
  | .off => false
  | .waitInput => false
  | .holdoff => false
  | _ => true

/-- The input leaves the operating range (R511), by band. -/
def devVinEvent (band : VinBand) (mV : Nat) (d : Dev) : Dev :=
  let d := d.onPwr fun p => { p with vin := mV }
  if !railsUp d then d
  else
    let event (d : Dev) : Dev := d.onPwr fun p => { p with vinEvent := true, vinReg := BitVec.ofNat 16 (min mV 65535) }
    let note (d : Dev) : Dev := if d.pwr.rails = .on then logIt 0x0701 0 0 [mV] (d := d) else d
    match band with
    | .high58 => note (event d)
    | .low40 => event d
    | .below38 => note ((event d).onPwr fun p => { p with vinCause := true })
    | .powerLoss => (powerLoss d).onPwr fun p => { p with rails := if p.pwrEn then .waitInput else .off }

def execVinEvent (band : VinBand) (mV : Nat) (s : State) : Host.Outcome State Fault Refusal := onDev s (devVinEvent band mV)

/-- The input has been above 40 V for 10 ms after a brown-out. -/
def devUndervoltageRecovery (d : Dev) : Dev := d.onPwr fun p => { p with vinCause := false }

def execUndervoltageRecovery (s : State) : Host.Outcome State Fault Refusal := onDev s devUndervoltageRecovery

-- Conversion (R513)

def devIsolationLinkLoss (d : Dev) : Dev := d.onPwr fun p => { p with isoDown := true }

def execIsolationLinkLoss (s : State) : Host.Outcome State Fault Refusal := onDev s (powered devIsolationLinkLoss)

def devIsolationLinkReturn (d : Dev) : Dev := d.onPwr fun p => { p with isoDown := false }

def execIsolationLinkReturn (s : State) : Host.Outcome State Fault Refusal := onDev s (powered devIsolationLinkReturn)

def devIsolationLinkTimeout (d : Dev) : Dev := if d.pwr.isoDown then powerOff d else d

def execIsolationLinkTimeout (s : State) : Host.Outcome State Fault Refusal := onDev s devIsolationLinkTimeout

/-- A power stage fails: the cap of R514 drops, or with a second one every rail goes off. -/
def devStageLost (d : Dev) : Dev :=
  if !railsUp d then d
  else if d.pwr.stages < 4 then powerOff d
  else
    let d := d.onPwr fun p => { p with stages := 3, stageLost := true }
    if d.pwr.rails ≠ .on then d
    else
      let (u, d) := takeFree d
      logIt 0x0703 7 (u.toNat % 4) [] (d := d)

def execStageLost (s : State) : Host.Outcome State Fault Refusal := onDev s devStageLost

def execThermalShutdown (s : State) : Host.Outcome State Fault Refusal := onDev s powerOff

-- The limiter (R514 to R518)

/-- The throttle level in force: 15 while the input voltage or the isolation link forces it (R511, R513; log 64). -/
def throttleNow (d : Dev) : Nat := if d.pwr.vinCause || d.pwr.isoDown then 15 else d.pwr.throttle

/-- The change of the level by the average, from 0 to 15. -/
def limitStep (limit average level : Nat) : Nat :=
  if limit * 105 < average * 100 then min 15 (level + 2)
  else if limit < average then min 15 (level + 1)
  else if average * 100 < limit * 97 then level - 1
  else level

/-- The 1 ms step: the limit is taken, the average and the temperature move the level. -/
def devLimiterStep (average : Nat) (hottest : Int) (d : Dev) : Dev :=
  let limit := limitNow d
  let hot : Bool := if 24320 ≤ hottest then true else if hottest ≤ 23552 then false else d.pwr.thermal
  let began := 24320 ≤ hottest && !d.pwr.thermal
  let l := limitStep limit average d.pwr.throttle
  let l := if hot then min 15 (l + 1) else l
  let d := if throttleNow d = 0 then d else count 0x0B04 0xFF none 1000 d
  let d := d.onPwr fun p => { p with
    limitW := limit
    pinReg := BitVec.ofNat 16 (min average 65535)
    throttle := l
    thermal := hot
    thermalEvent := p.thermalEvent || began
    limited := l ≠ 0 && (p.limited || limit < average)
    peak := l ≠ 0 && p.peak }
  if !began then d
  else
    let (c, d) := takeFree d
    logIt 0x0702 0 0 [c.toNat % 256, (BitVec.ofInt 64 hottest).toNat] (d := d)

def execLimiterStep (average : Nat) (hottest : Int) (s : State) : Host.Outcome State Fault Refusal :=
  onDev s (live (devLimiterStep average hottest))

/-- The input is between 38 V and 40 V and the sample takes more than 85 A of it (R511): the level rises as above 3,400 W (log 64). The limits of R514 stay below 85 A. -/
def overCurrent (d : Dev) (watts : Nat) : Bool := 38000 ≤ d.pwr.vin && d.pwr.vin < 40000 && 85 * d.pwr.vin < 1000 * watts

/-- A 10 µs sample. -/
def devPowerSample (watts : Nat) (d : Dev) : Dev :=
  if 3400 < watts then d.onPwr fun p => { p with throttle := min 15 (p.throttle + 4), peak := true }
  else if overCurrent d watts then d.onPwr fun p => { p with throttle := min 15 (p.throttle + 4) }
  else d

def execPowerSample (watts : Nat) (s : State) : Host.Outcome State Fault Refusal := onDev s (live (devPowerSample watts))

/-- SET_POWER_LIMIT (R518): in force from the next 1 ms step. -/
def devSetPowerLimit (c : CmdSlot) : Dev → Dev :=
  runChk c 0x0105 (fun p _ => [(0, 500 ≤ u16 p 0 && u16 p 0 ≤ 3000), (2, zeros p 2 6)]) fun p d =>
    let note := limitCap d < u16 p 0
    finish c (if note then stNote else stDone) (d.onPwr fun x => { x with setW := some (u16 p 0) })

def execSetPowerLimit (c : CmdSlot) (s : State) : Host.Outcome State Fault Refusal := onDev s (live (devSetPowerLimit c))

-- Sensors (R544)

/-- 0 normal, 1 at its warning value, 2 at its critical value. -/
def overLevel (v warn crit : Int) : Nat := if crit ≤ v then 2 else if warn ≤ v then 1 else 0

/-- The inlet limit of the record's coolant class, in 1/256 degree (R515); none without a record. -/
def inletLimit (d : Dev) : Option Int :=
  d.pwr.coolantW.map fun c => if c = 2400 then 45 * 256 else 40 * 256

/-- The level of each sensor of R544: coolant, input, then each die and power stage. -/
def sensorLevels (d : Dev) (v : Sensors) : List Nat :=
  [match inletLimit d with
   | some l => overLevel v.inlet (l + 1) (l + 5 * 256)
   | none => 0,
   overLevel v.outlet (60 * 256) (70 * 256),
   if v.vin < 38000 || 60000 < v.vin then 2 else if v.vin < 40000 || 58000 < v.vin then 1 else 0,
   overLevel v.iin 6250 8500, overLevel v.pin d.pwr.limitW 3400] ++ v.dies.map fun t => overLevel t (95 * 256) (110 * 256)

/-- Every 100 ms: ALERT_N while a sensor is at its warning value, and a PLDM event when one crosses. -/
def devSensorUpdate (v : Sensors) (d : Dev) : Dev :=
  let old := sensorLevels d d.pwr.sensors
  let new := sensorLevels d v
  let crossed := ((List.range new.length).zip new).any fun (i, b) => nth old i 0 < b
  let d := d.onPwr fun p => { p with
    sensors := v, vinReg := BitVec.ofNat 16 (min v.vin 65535), iinReg := BitVec.ofNat 16 (min v.iin 65535) }
  let d := if new.any (· ≠ 0) then raiseAlert alSensor d else dropAlert alSensor d
  if crossed then emit (.sideband (0x01#8 :: Config.dmtfAnswer 2 (pldmReadings d))) d else d

def execSensorUpdate (v : Sensors) (s : State) : Host.Outcome State Fault Refusal := onDev s (powered (devSensorUpdate v))

-- Power-on (R541)

/-- The boot once its store is known (R501): the selected bank, or the whole of the other one, or none. -/
def bootBanks (e : PowerOnEnv) (bad : List Nat) (d : Dev) : Dev :=
  let b := if bad.contains rkSelector then d.svc.bank.other else d.svc.bank
  match bankFault d.svc b with
  | none => powerUp e b bad none d
  | some f => match bankFault d.svc b.other with
    | none => powerUp e b.other bad (some (b, f)) d
    | some g => bootHalted e true (d.onSvc (measureTo b.other g.1))

/-- The timed power-on sequence, from the input in range to the command rings: the seed, the protected store, the images (R497, R501, R502, R541). -/
def devPowerOn (e : PowerOnEnv) (d : Dev) : Dev :=
  if d.pwr.rails ≠ .starting then d
  else match seedOf e with
    | none => bootHalted e true d
    | some s =>
      let d := d.onSvc fun v => { v with seed := s }
      let bad := badRecords e d
      if bad.contains rkPuf || bad.contains rkSvn then bootHalted e false d
      else bootBanks e bad (absentRecords bad d)

def execPowerOn (env : PowerOnEnv) (s : State) : Host.Outcome State Fault Refusal := onDev s (devPowerOn env)

-- Clocks (R519 to R522)

def lockLost (d : Dev) : Dev := d.onPwr fun p => { p with lockLosses := satAdd p.lockLosses 1 }

/-- CK_ROOT loses lock: the core clocks and the timestamp counter stop (R521, R522). -/
def devClockLoss (d : Dev) : Dev :=
  if d.pwr.rails = .on then (lockLost d).onPwr fun p => { p with rails := .clockLost, rootLock := false } else d

def execClockLoss (s : State) : Host.Outcome State Fault Refusal := onDev s devClockLoss

/-- Lock returns within 10 ms: a warm reset with cause CLOCK_LOSS. -/
def devClockLockReturn (d : Dev) : Dev :=
  if d.pwr.rails = .clockLost then settle (warmReset 3 (d.onPwr fun p => { p with rails := .on, rootLock := true })) else d

def execClockLockReturn (s : State) : Host.Outcome State Fault Refusal := onDev s devClockLockReturn

/-- Lock does not return: the device stays halted with ALERT_N asserted. -/
def devClockHalt (d : Dev) : Dev := if d.pwr.rails = .clockLost then raiseAlert alClock (setRails .clockHalt d) else d

def execClockHalt (s : State) : Host.Outcome State Fault Refusal := onDev s devClockHalt

/-- The PLL of optical engine n, of ports 2n and 2n + 1, loses lock; the bridge segment of that PLL goes down (log 65). -/
def devSerdesPllLoss (n : Nat) (d : Dev) : Dev :=
  if 8 ≤ n then d
  else
    let d := (lockLost d).onPwr fun p => { p with serdesLock := p.serdesLock.set n false }
    segmentDown (n % 4) (portDown (2 * n + 1) (portDown (2 * n) d))

def execSerdesPllLoss (engine : Nat) (s : State) : Host.Outcome State Fault Refusal := onDev s (liveQ (devSerdesPllLoss engine))

/-- A PCIe PLL loses lock: the host link goes down, which is a PORT event. -/
def devPciePllLoss (p : Side) (d : Dev) : Dev :=
  let d := (lockLost d).onPwr fun x => { x with pcieLock := x.pcieLock.set p false }
  devLinkDown p d

def execPciePllLoss (p : Side) (s : State) : Host.Outcome State Fault Refusal := onDev s (liveQ (devPciePllLoss p))

-- Resets (R529 to R532)

/-- A write of 1 to WARM, which needs Hasp 1. -/
def devWarmReset (p : Side) (d : Dev) : Dev := needHasp p 1 0x48000 (warmReset 2) d

def execWarmReset (p : Side) (s : State) : Host.Outcome State Fault Refusal := onDev s (liveQ (devWarmReset p))

/-- Another command has begun and has not been answered. -/
def othersActive (d : Dev) (c : CmdSlot) : Bool :=
  allSlots.any fun x => x ≠ c && match cmdAt d x with
    | some m => cmdActive m
    | none => false

/-- HALF_RESET (R530, R531). Where the half holds the leader, begun commands end before the handover, and the row comes again (R432). -/
def devHalfReset (c : CmdSlot) : Dev → Dev :=
  runChk c 0x0103 (fun p _ => [(0, u8 p 0 ≤ 1), (1, zeros p 1 7)]) fun p d =>
    let h := Side.ofIdx (u8 p 0)
    let d := d.onCtl fun x => { x with handover := none }
    let leads : Bool := leader d = some h
    if leads && !canHandover d then finish c stNotPermitted d
    else if d.pwr.inReset.w || d.pwr.inReset.e then finish c stBusy d
    else if leads && othersActive d c then d.onCtl fun x => { x with handover := some h }
    else finish c stDone (halfReset h (if leads then handOver d else d))

def execHalfReset (c : CmdSlot) (s : State) : Host.Outcome State Fault Refusal := onDev s (liveQ (devHalfReset c))

-- Low-power states (R534 to R540)

def powerStateChk (p : Bytes) (d : Dev) : List (Nat × Bool) :=
  let t := u8 p 0
  [(0, 1 ≤ t && t ≤ 3), (1, u8 p 1 ≤ 1),
   (2, if t = 1 then u8 p 2 < 32 && (d.stack (u8 p 2)).mode ≠ .offline else u8 p 2 < 16), (3, zeros p 3 5)]

/-- STACK_PARK: a request is recorded, or withdrawn and the stack leaves PARKED (R65, R540); withdrawn while PARKING, the stack is ONLINE at once, for which the state table has no row (log 94). -/
def stackPark (c : CmdSlot) (k : Nat) (withdraw : Bool) (d : Dev) : Dev :=
  let s := d.stack k
  if !withdraw then finish c stDone (d.onStk k fun s => { s with parkReq := true })
  else if s.mode = .waking && !s.parkReq then finish c stDone d
  else if !s.parkReq then finish c stNote d
  else
    let d := d.onStk k fun s => { s with parkReq := false, mode := match s.mode with
      | .parked => .waking
      | .parking => .online
      | m => m }
    finish c stDone (if s.mode = .parked then count 0x0608 k none 1 d else d)

def portSleep (c : CmdSlot) (k : Nat) (withdraw : Bool) (d : Dev) : Dev :=
  let p := d.port k
  if p.ent.mode ≠ .direct then finish c stNotPermitted d
  else if withdraw && !p.sleepReq then finish c stNote d
  else finish c stDone (d.onPort k fun p => { p with sleepReq := !withdraw })

/-- What keeps the device from ENTERING (R535). -/
def bivouacBusy (d : Dev) : Bool :=
  d.pwr.state = .entering || d.pwr.state = .waking
    || d.ropes.slots.any (fun (_, r) => r.st = .running || (r.st = .idle && ropeDue d r))
    || d.ten.tenants.any fun (_, t) => t.st = .freezing || t.st = .resetting

def bivouacCmd (c : CmdSlot) (k : Nat) (withdraw : Bool) (d : Dev) : Dev :=
  if withdraw then
    match d.pwr.state with
    | .active => finish c stNote d
    | .bivouac => wakeDev (leave c [] (d.onPwr fun p => { p with wakeCmd := some c }))
    | _ => finish c stBusy d
  else if (d.port k).st ≠ .up then finish c stNotPermitted d
  else if bivouacBusy d then finish c stBusy d
  else leave c [] (d.onPwr fun p => { p with state := .entering, keptPort := k, bivCmd := some c })

/-- POWER_STATE (R535). -/
def devPowerState (c : CmdSlot) : Dev → Dev :=
  runChk c 0x0104 powerStateChk fun p d =>
    let w := u8 p 1 = 1
    let k := u8 p 2
    if u8 p 0 = 2 && (d.port k).ent.mode ≠ .direct then finish c stNotPermitted d
    else if d.pwr.inReset.w || d.pwr.inReset.e then finish c stBusy d
    else match u8 p 0 with
      | 1 => stackPark c k w d
      | 2 => portSleep c k w d
      | _ => bivouacCmd c k w d

def execPowerState (c : CmdSlot) (s : State) : Host.Outcome State Fault Refusal := onDev s (live (devPowerState c))

/-- No begun entry, outstanding message, running leg, held completion, retirement move or zeroing, and no begun job (R537). -/
def devDrained (d : Dev) : Bool :=
  d.q.qps.all (fun (_, q) => q.begun = [] && q.conn.msgs = []) && d.q.xfers = [] && d.eng.ops = []
    && d.q.cqs.all (fun (_, c) => c.held = []) && d.ropes.slots.all (fun (_, r) => r.waiting = [])
    && d.ciph.jobs = [] && d.ciph.opening = [] && d.mem.stk.all (fun s => s.moves = []) && d.mem.allocs.all fun (_, a) => !a.zeroing

/-- The stacks enter self-refresh as the device gates down (R537; log 107). -/
def stacksRest (d : Dev) : Dev :=
  d.onMem fun m => { m with stk := m.stk.map fun s => if s.mode = .offline || s.mode = .init then s else { s with mode := .parked } }

/-- The stacks leave self-refresh, but those with a park request in force (R65, R539; log 107); what they held is served. -/
def stacksRise (d : Dev) : Dev :=
  let d := d.onMem fun m => { m with stk := m.stk.map fun s => if s.mode = .parked && !s.parkReq then { s with mode := .online } else s }
  (List.range 32).foldl (fun d k => if (d.stack k).mode = .online && (d.stack k).held ≠ [] then serveWaiting k d else d) d

/-- The device gates down: every port but the kept one goes DOWN, the stacks enter self-refresh, and POWER_STATE is answered. -/
def devBivouacDrained (d : Dev) : Dev :=
  if d.pwr.state ≠ .entering || !devDrained d then d
  else
    let d := (List.range 16).foldl (fun d k =>
      if k = d.pwr.keptPort || (d.port k).st = .adminDown then d else portDown k d) d
    let c := d.pwr.bivCmd
    let d := (stacksRest d).onPwr fun p => { p with state := .bivouac, bivCmd := none }
    match c with
    | some c => answerIf c 0x0104 stDone none d
    | none => d

def execBivouacDrained (s : State) : Host.Outcome State Fault Refusal := onDev s (liveQ devBivouacDrained)

def execBivouacEntryTimeout (s : State) : Host.Outcome State Fault Refusal := onDev s (liveQ bivAbort)

def execBivouacWake (cause : WakeCause) (s : State) : Host.Outcome State Fault Refusal :=
  onDev s (live fun d => match cause with
    | .doorbell => wakeDev d
    | .frame => wakeDev d
    | .keptPortDown => wakeDev d
    | .portEvent => wakeDev d
    | .halfReset => wakeDev d
    | .withdraw => wakeDev d
    | .command => wakeDev d)

/-- What was held, or waited to cross the package, is served now: what can cross from tile to tile does, what cannot waits again in its order. -/
def applyArrived (a : Arrived) (d : Dev) : Dev :=
  match a with
  | .bell p requester page kind number index arm => devBell p requester page kind number index arm d
  | .pkt port t p => if t.toNat / 16 = 2 then devRopePkt t port p d else devPkt t port p d
  | .completion tag data bad => hostDelivers tag data bad d
  | .accepted n port t p at_ => rxLand n port t p at_ d
  | .rope port t p => ropeLand port t p d
  | .outward port t p qpn path outer => outwardLand port t p qpn path outer d
  -- what is for a base die waits in the fabric alone
  | .register _ => d
  | .epoch _ _ => d

/-- Exit is complete (R539): caches empty, congestion afresh (R309), held doorbells and packets, the command that woke the device. -/
def devBivouacExitDone (d : Dev) : Dev :=
  if d.pwr.state ≠ .waking then d
  else
    let bells := d.pwr.bellsHeld
    let pkts := d.pwr.pktsHeld
    let c := d.pwr.wakeCmd
    let d := d.onXlt fun x => { x with tiles := x.tiles.map fun t => { t with runs := [], upper := [], prefetch := [], streams := [] } }
    let d := restartFlow (List.range 8) (stacksRise d)
    let d := d.onPwr fun p => { p with state := .active, bellsHeld := [], pktsHeld := [], wakeCmd := none }
    let d := d.onNet fun n => { n with ports := ((List.range 16).zip n.ports).map fun (k, p) =>
      if k ≠ d.pwr.keptPort && p.st = .down && p.ent.mode ≠ .none && !asleepPort d k then { p with st := .training } else p }
    let d := bells.foldl (fun d b => applyArrived b d) d
    let d := pkts.foldl (fun d x => applyArrived x d) d
    match c with
    | some c => answerIf c 0x0104 stDone none d
    | none => d

def execBivouacExitDone (s : State) : Host.Outcome State Fault Refusal := onDev s (liveQ devBivouacExitDone)

-- The legacy window (R525 to R528)

/-- LEADER as HASP_LEASE codes it. -/
def leaderCode (d : Dev) : Nat :=
  match leader d with
  | some s => s.idx + 1
  | none => 0

/-- Word k of R526, as its sources stand. -/
def legacyWord (d : Dev) (k : Nat) : Nat :=
  let s := d.pwr.sensors
  match k with
  | 0 => d.pwr.tsc.toNat
  | 1 => 0x4832 * 2 ^ 48 + 0xB0 * 2 ^ 40 + leaderCode d * 2 ^ 32 + (leadEpoch d).toNat
  | 2 => d.pwr.vinReg.toNat * 2 ^ 32 + d.pwr.iinReg.toNat * 2 ^ 16 + d.pwr.pinReg.toNat
  | 3 => i16 (hottestOf s) * 2 ^ 48 + i16 s.inlet * 2 ^ 32 + i16 s.outlet * 2 ^ 16
  | 4 => maskOf 32 fun i => (d.stack i).mode ≠ .offline
  | 5 => maskOf 16 fun i => (d.port i).st = .up
  | 6 => d.svc.logTotal.toNat
  | 7 => throttleNow d * 16 + d.pwr.state.code
  | _ => 0

def onLegacy (f : Legacy → Legacy) (d : Dev) : Dev := d.onPwr fun p => { p with legacy := f p.legacy }

/-- A write of CAPTURE copies all eight words, in CAPTURE mode (R527). -/
def devCapture (d : Dev) : Dev :=
  if d.pwr.legacy.live then d
  else onLegacy (fun l => { l with captured := (List.range 8).map fun k => BitVec.ofNat 64 (legacyWord d k) }) d

def execCapture (_p : Side) (s : State) : Host.Outcome State Fault Refusal := onDev s (powered devCapture)

/-- One of at most five pairs of samples agrees (R528). -/
def someAgree (l : List Bool) : Bool := (l.take 5).any id

/-- Half of a 64-bit word. -/
def halfWord (v : BitVec 64) (hi : Bool) : BitVec 64 := if hi then v >>> 32 else v &&& 0xFFFFFFFF#64

/-- Agreed sampling of word k: whether each pair of samples was equal. Two equal samples are the live value, as no read returns a torn one (R528); the read's value, and the word's agreed value and UNSTABLE bit. -/
def sampleWord (k : Nat) (agree : List Bool) (d : Dev) : BitVec 64 × Dev :=
  let bit := BitVec.ofNat 8 (2 ^ k)
  if someAgree agree then
    let v := BitVec.ofNat 64 (legacyWord d k)
    (v, onLegacy (fun l => { l with agreed := l.agreed.set k v, unstable := l.unstable &&& ~~~bit }) d)
  else (nth d.pwr.legacy.agreed k 0#64, onLegacy (fun l => { l with unstable := l.unstable ||| bit }) d)

/-- A read of the window in LIVE mode (R528): of 8 B, of a low half, which latches the high half for its port for 1 µs, or of a high half. A misaligned read, or one of another size, ends in a Completer Abort (R4, R415). -/
def devLegacyLiveRead (p : Side) (off size : Nat) (agree : List Bool) (d : Dev) : Dev :=
  let o := off % 0x10000
  if accessBad off size then emit (.completerAbort p) (badAccess p d)
  else if !d.pwr.legacy.live || o < 0x100 || 0x140 ≤ o then d
  else
    let k := (o - 0x100) / 8
    let hi : Bool := o % 8 = 4
    let held : Option (BitVec 32) := match d.pwr.legacy.latched.get p with
      | some (w, h, t) => if w = k && now d ≤ t + usTicks 1 then some h else none
      | none => none
    match hi, held with
    | true, some h => emit (.regRead p (h.setWidth 64)) d
    | _, _ =>
      let (v, d) := sampleWord k agree d
      if size = 8 then emit (.regRead p v) d
      else
        let d := if hi then d else onLegacy (fun l => { l with latched := l.latched.set p (some (k, (v >>> 32).setWidth 32, now d)) }) d
        emit (.regRead p (halfWord v hi)) d

def execLegacyLiveRead (p : Side) (off : Nat) (size : Nat) (agree : List Bool) (s : State) : Host.Outcome State Fault Refusal :=
  onDev s (powered (devLegacyLiveRead p off size agree))

end Sys2Proof.Machine
end

