-- ==== Sys2Proof/Machine/Service.lean ====
section
/-! DEFINITION. Service (16_service_counters; R439; R503, R504): device information, the environment check, banks and Traverse, microcode, the Lamold record, logs, event counters, a lost tile, attestation. -/

namespace Sys2Proof.Machine

-- DEVICE_INFO (R439)

/-- UCODE_VERSION: one version, or all ones while units run different images (R553). -/
def ucodeVersion (d : Dev) : BitVec 32 :=
  let l := ((List.range 32).filter fun k => (d.stack k).mode ≠ .offline).map (fun k => nth d.svc.stackUcode k 0#32)
    ++ (((List.range 8).filter d.tileLive).map fun t => nth d.svc.tileUcode t 0#32)
  match l with
  | [] => 0xFFFFFFFF#32
  | v :: r => if r.all (· = v) then v else 0xFFFFFFFF#32

/-- Bytes free for MEM_ALLOC on online stacks. -/
def memFree (d : Dev) : Nat :=
  (((List.range 32).filter (stackUsable d)).map fun k => ivSum (freeIv d k)).sum * unitBytes

/-- The record of R439; its identifiers are those of configuration space (R11, R382). -/
def deviceRecord (d : Dev) : Bytes :=
  let fw := imageVersion d.svc (d.svc.dieBank.get ((leader d).getD .west)) 3
  let cfg := d.host.w.config
  toLE 2 cfg.vendor.toNat ++ toLE 2 cfg.device.toNat ++ [cfg.revision] ++ zpad 3 ++ slice (ascii "JM-4832") 0 16 ++ toLE 4 fw.toNat ++ toLE 4 (ucodeVersion d).toNat
    ++ toLE 4 (maskOf 32 fun k => (d.stack k).mode ≠ .offline) ++ toLE 1 (maskOf 8 d.tileLive)
    ++ toLE 1 (b2n (!dieDown d.ctl.dies.w) + 2 * b2n (!dieDown d.ctl.dies.e)) ++ toLE 1 (leaderCode d) ++ zpad 1 ++ toLE 8 (memFree d)
    ++ toLE 2 256 ++ toLE 2 d.ten.tenants.length ++ toLE 4 65536 ++ toLE 4 16384 ++ toLE 4 16384 ++ toLE 2 d.net.nodeId.toNat
    ++ toLE 2 (maskOf 16 fun p => (d.port p).st = .up) ++ toLE 4 (recordSerial d.svc) ++ toLE 4 (leadEpoch d).toNat
    ++ toLE 4 d.pwr.limitW ++ deviceDigest d.svc ++ toLE 8 d.pwr.tsc.toNat ++ zpad 24

def devDeviceInfo (c : CmdSlot) : Dev → Dev :=
  runChk c 0x0101 (fun p _ => [(0, addrOk c (u64 p 0) 64), (8, u64 p 8 = 0)]) fun p d =>
    finishRes c stDone (u64 p 0) (deviceRecord d) d

def execDeviceInfo (c : CmdSlot) (s : State) : Host.Outcome State Fault Refusal := onDev s (live (devDeviceInfo c))

-- ENV_CHECK (R558)

/-- The port has a partner: it trained, and a DIRECT one has sent IDENT. -/
def hasPartner (p : NetPort) : Bool :=
  (match p.st with
    | .down => false
    | .training => false
    | .adminDown => false
    | _ => true) && (p.ent.mode ≠ .direct || p.identSeen || p.peerId ≠ [])

/-- CHECK of a network port under an entry. -/
def portCheck (p : NetPort) (e : PortEntry) : Nat :=
  if e.mode = .none then 0
  else if !hasPartner p then 1
  else if e.mode ≠ p.ent.mode then 2
  else if e.mode = .direct then
    (if p.peerPort ≠ e.peerPort then 3 else if p.peerNode ≠ e.peerNode then 4 else if p.peerId ≠ e.peerId then 5 else 0)
  else if e.chassis = [] && e.portId = [] then 0
  else if p.lldpSeen = some (e.chassis, e.portId) then 0 else 6

/-- WOULD: held where the recheck would fail. -/
def portWould (p : NetPort) (e : PortEntry) (nodeNew : Bool) : Nat :=
  let c := portChange p e nodeNew
  if c = 1 && portCheck p e ≠ 0 then 3 else c

def envPort (d : Dev) (b : Bytes) (nodeNew : Bool) (k : Nat) : Nat × Bytes :=
  let p := d.port k
  let e := portEntryOf b k
  let c := portCheck p e
  (c, toLE 1 k ++ toLE 1 p.st.code ++ toLE 1 c ++ toLE 1 (portWould p e nodeNew) ++ toLE 2 p.peerNode.toNat ++ toLE 1 p.peerPort
    ++ toLE 1 (laneCount p.lanesActive) ++ zpad 8)

def envHost (d : Dev) (w : Nat) (p : Side) : Nat × Bytes :=
  let h := d.host.get p
  let c := if w = 0 then 0 else if !h.linkUp then 1 else if h.width < w then 7 else 0
  (c, toLE 1 (0x80 + p.idx) ++ toLE 1 (b2n h.linkUp) ++ toLE 1 c ++ zpad 4 ++ toLE 1 h.width ++ zpad 8)

def envResult (d : Dev) (b : Bytes) : Bytes :=
  let body := (recSection b 1).getD (zpad 64)
  let nodeNew := BitVec.ofNat 16 (u16 body 0) ≠ d.net.nodeId
  let l := ((List.range 16).map (envPort d b nodeNew)) ++ [envHost d (u8 body 0xA) .west, envHost d (u8 body 0xB) .east]
  toLE 4 (u32 b 8) ++ toLE 4 (l.filter fun x => x.1 ≠ 0).length ++ zpad 8 ++ l.flatMap Prod.snd

def envChk (c : CmdSlot) (p : Bytes) (_ : Dev) : List (Nat × Bool) :=
  [(0, !isSideband c || u64 p 0 = 0), (0xC, u32 p 0xC = 0), (0x10, addrOk c (u64 p 0x10) 64)]

/-- ENV_CHECK; record: the candidate as it stands in host memory. -/
def devEnvCheck (c : CmdSlot) (record : Bytes) : Dev → Dev :=
  runChk c 0x0102 (envChk c) fun p d =>
    if u64 p 0 = 0 then
      match d.svc.record with
      | none => finish c stNotPermitted d
      | some b => finishRes c stDone (u64 p 0x10) (envResult d b) d
    else
      let b := slice record 0 (u32 p 8)
      match recordBad d.svc b (u32 p 8) with
      | some (.layout o) => answer c stBadParam 0 none (some o) d
      | some .verify => finish c stVerifyFailed d
      | none => finishRes c stDone (u64 p 0x10) (envResult d b) d

def execEnvCheck (c : CmdSlot) (record : Bytes) (s : State) : Host.Outcome State Fault Refusal := onDev s (live (devEnvCheck c record))

-- RECORD_LOAD (R557)

/-- A record that passes its checks is stored and applied. -/
def acceptRecord (b : Bytes) (d : Dev) : Dev :=
  let next := slice b 0xA5 133
  let d := storeWrite [rkRecord] (d.onSvc fun v => { v with record := some b, anchor := some (if zeros next 0 133 then recordKey v b else next) })
  applyRecord b (logIt 0x0901 0 0 [5] (d := d))

/-- RECORD_LOAD: answered once every live tile holds the new node table (R40, R557). -/
def devRecordLoad (c : CmdSlot) (record : Bytes) : Dev → Dev :=
  runChk c 0x0B02 (fun p _ => [(0, isSideband c || u64 p 0 % 64 = 0), (0xC, u32 p 0xC = 0)]) fun p d =>
    if isSideband c then finish c stNotPermitted d
    else
      let b := slice record 0 (u32 p 8)
      match recordBad d.svc b (u32 p 8) with
      | some (.layout o) => answer c stBadParam 0 none (some o) d
      | some .verify => finish c stVerifyFailed d
      | none => replFinish c 0x0B02 stDone none (nodeWrites d.net.nodes (recordNodes b)) (acceptRecord b d)

def execRecordLoad (c : CmdSlot) (record : Bytes) (s : State) : Host.Outcome State Fault Refusal := onDev s (liveQ (devRecordLoad c record))

-- Firmware banks (R545, R546)

def stageChk (p : Bytes) (_ : Dev) : List (Nat × Bool) :=
  let copy := u64 p 8 = 0
  [(0, 1 ≤ u8 p 0 && u8 p 0 ≤ 5), (1, zeros p 1 3),
   (4, if copy then u32 p 4 = 0 else u32 p 4 % 4096 = 0 && u32 p 4 ≤ 67104768), (8, u64 p 8 % 4096 = 0),
   (0x10, if copy then u32 p 0x10 = 0 else 1 ≤ u32 p 0x10 && u32 p 0x10 ≤ 16777216 && u32 p 4 + u32 p 0x10 ≤ 67108864), (0x14, u32 p 0x14 = 0)]

/-- Part of an image is written into the candidate bank, or the running bank's image copied; data: what host memory holds at SRC_ADDR. -/
def stageImage (p data : Bytes) (v : Svc) : Svc :=
  let t := u8 p 0
  let b := candidate v
  if u64 p 8 = 0 then
    match imageAt v v.bank t with
    | some i => { v with banks := v.banks.upd b fun x => x.set t { i with verified := false } }
    | none => { v with banks := v.banks.upd b fun x => x.erase t }
  else
    let off := u32 p 4
    let len := u32 p 0x10
    let old : Image := if off = 0 then ⟨[], 0, false⟩ else (imageAt v b t).getD ⟨[], 0, false⟩
    let new : Image := ⟨Memory.writes old.bytes off (slice data 0 len), max old.len (off + len), false⟩
    { v with banks := v.banks.upd b fun x => x.set t new }

def devImageStage (c : CmdSlot) (data : Bytes) : Dev → Dev :=
  runChk c 0x0901 stageChk fun p d =>
    if d.svc.trav ≠ .idle then finish c stBusy d
    else finish c stDone (storeWrite [rkBank (candidate d.svc)] (d.onSvc (stageImage p data)))

def execImageStage (c : CmdSlot) (data : Bytes) (s : State) : Host.Outcome State Fault Refusal := onDev s (live (devImageStage c data))

/-- One named type is checked: its entry, and its mark. -/
def verifyType (t : Nat) (d : Dev) : Nat × Bytes × Dev :=
  let v := d.svc
  let b := candidate v
  let i := imageAt v b t
  let r := imageResult v t i
  let h := (i.map fun i => imageBytes i 0 512).getD []
  let d := storeWrite [rkBank b] (d.onSvc fun v => { v with banks := v.banks.upd b fun x => x.upd t fun i => { i with verified := decide (r = 0) } })
  let d := if 2 ≤ r then logIt 0x0803 0 0 [t, b.idx, r] (d := d) else d
  (r, toLE 1 t ++ toLE 1 r ++ zpad 2 ++ toLE 4 (u32 h 8) ++ toLE 4 (u32 h 0xC) ++ zpad 4, d)

/-- The named types in order: whether every one is OK, and their entries. -/
def verifyTypes : List Nat → Dev → Bool × Bytes × Dev
  | [], d => (true, [], d)
  | t :: r, d =>
    let (x, e, d) := verifyType t d
    let (ok, l, d) := verifyTypes r d
    (decide (x = 0) && ok, e ++ l, d)

def devImageVerify (c : CmdSlot) : Dev → Dev :=
  runChk c 0x0902 (fun p _ => [(0, u8 p 0 < 64 && u8 p 0 % 2 = 0), (1, zeros p 1 7), (8, addrOk c (u64 p 8) 64)]) fun p d =>
    let (ok, l, d) := verifyTypes (bitsOf 6 (u8 p 0)) d
    finishRes c (if ok then stDone else stVerifyFailed) (u64 p 8) l d

def execImageVerify (c : CmdSlot) (s : State) : Host.Outcome State Fault Refusal := onDev s (live (devImageVerify c))

-- Traverse (R547 to R551)

def types5 : List Nat := [1, 2, 3, 4, 5]

def onTraverse (f : Traverse → Traverse) (d : Dev) : Dev := d.onSvc fun v => { v with traverse := v.traverse.map f }

/-- The bank that dies restart from: the candidate, or the running bank when a Traverse is undone. -/
def restartBank (v : Svc) : Side :=
  let undo := v.trav = .aborting || (v.traverse.map (·.failed)).getD false
  if undo then v.bank else candidate v

/-- A control die stops and restarts. -/
def restartDie (s : Side) (d : Dev) : Dev :=
  let b := restartBank d.svc
  (d.onSvc (runDie s b)).onCtl fun c => { c with dies := c.dies.set s .starting }

/-- The steps are complete: the reply and the next state (R549). -/
def travEnd (d : Dev) : Dev :=
  match d.svc.traverse with
  | none => d
  | some t =>
    let undo := d.svc.trav = .aborting
    let d := d.onSvc fun v => { v with traverse := none, trav := if undo || t.failed then .idle else .traversed }
    let d := d.onCtl fun c => { c with handover := none }
    if undo then answerIf t.cmd 0x0905 stDone none d
    else if t.failed then internalEnd t.cmd 0x0903 d
    else answerIf t.cmd 0x0903 stDone none d

/-- The next die restarts, the leader after its handover (R432); begun commands end first, and the row comes again. -/
def travNext (d : Dev) : Dev :=
  match d.svc.traverse with
  | none => d
  | some t =>
    match t.left with
    | x :: rest =>
      if leader d = some x && !canHandover d then
        -- no other die can lead: it takes the image without giving up the lease (log 67)
        let b := restartBank d.svc
        let d := d.onSvc (runDie x b)
        onTraverse (fun t => { t with restarting := none, left := rest }) d
      else if leader d = some x && othersActive d t.cmd then d.onCtl fun c => { c with handover := some x }
      else
        let d := if leader d = some x then handOver d else d
        let d := restartDie x (d.onCtl fun c => { c with handover := none })
        onTraverse (fun t => { t with restarting := some x, left := rest }) d
    | [] =>
      if t.centre && !t.failed && d.svc.trav = .traversing && !t.centreBusy then onTraverse (fun t => { t with restarting := none, centreBusy := true }) d
      else d

/-- The Traverse goes on once a die is back, or ends. -/
def travGo (d : Dev) : Dev :=
  match d.svc.traverse with
  | none => d
  | some t =>
    if t.left ≠ [] then
      let d := travNext d
      match d.svc.traverse with
      | some t => if t.left = [] && t.restarting.isNone then travEnd d else d
      | none => d
    else if t.centre && !t.failed && d.svc.trav = .traversing then travNext d
    else travEnd d

def devTraverseBegin (c : CmdSlot) : Dev → Dev :=
  runChk c 0x0903 (fun p _ => [(0, u8 p 0 < 2), (1, zeros p 1 7)]) fun p d =>
    let v := d.svc
    let major (b : Side) : Nat := (imageVersion v b 3).toNat % 256
    if !types5.all (candidateOk v) || dieDown d.ctl.dies.w || dieDown d.ctl.dies.e || major (candidate v) ≠ major v.bank then
      finish c stNotPermitted d
    else if v.trav ≠ .idle || d.pwr.inReset.w || d.pwr.inReset.e then finish c stBusy d
    else
      let lead := (leader d).getD .west
      let t : Traverse := { cmd := c, centre := u8 p 0 = 1, restarting := some lead.other, left := [lead] }
      let d := leave c [] (d.onSvc fun v => { v with trav := .traversing, traverse := some t })
      restartDie lead.other (logIt 0x0901 0 0 [1] (d := d))

def execTraverseBegin (c : CmdSlot) (s : State) : Host.Outcome State Fault Refusal := onDev s (live (devTraverseBegin c))

/-- A restarted die has reached FOLLOWER (R548). -/
def devTraverseDieFollower (s : Side) (d : Dev) : Dev :=
  match d.svc.traverse with
  | none => d
  | some t =>
    if t.restarting ≠ some s || !(d.ctl.dies.get s = .starting || d.ctl.dies.get s = .follower) then d
    else travGo (d.onCtl fun c => { c with dies := c.dies.set s .follower })

def execTraverseDieFollower (d : Side) (s : State) : Host.Outcome State Fault Refusal := onDev s (live (devTraverseDieFollower d))

/-- A die has not reached FOLLOWER 100 ms after its restart: it restarts from the running bank, and so does the other where it runs the candidate; the command ends INTERNAL. -/
def devTraverseRestartTimeout (s : Side) (d : Dev) : Dev :=
  match d.svc.traverse with
  | none => d
  | some t =>
    if t.restarting ≠ some s || d.ctl.dies.get s ≠ .starting then d
    else if t.failed || d.svc.trav = .aborting then travEnd (onTraverse (fun t => { t with failed := true }) d)
    else
      let o := s.other
      let again := d.svc.dieBank.get o ≠ d.svc.bank
      restartDie s (onTraverse (fun t => { t with failed := true, left := if again then [o] else [] }) d)

def execTraverseRestartTimeout (d : Side) (s : State) : Host.Outcome State Fault Refusal := onDev s (live (devTraverseRestartTimeout d))

/-- The centre runtime runs again (R548 step 4); a Traverse undone then goes on with its dies. -/
def devCentreRuntimeRestartDone (d : Dev) : Dev :=
  match d.svc.traverse with
  | none => d
  | some t =>
    if !t.centreBusy then d
    else
      let b := restartBank d.svc
      let d := d.onSvc (runCentre b)
      let d := onTraverse (fun t => { t with centreBusy := false }) d
      if d.svc.trav = .aborting then travGo d else travEnd d

def execCentreRuntimeRestartDone (s : State) : Host.Outcome State Fault Refusal := onDev s (live devCentreRuntimeRestartDone)

/-- The roots that sign the images of a bank. -/
def bankRoots (v : Svc) (b : Side) : List Nat := (v.banks.get b).map fun (_, i) => rootOf (imageBytes i 0 512)

/-- The candidate bank becomes the running bank, with MIN_SVN raised and roots revoked as one record (R550). -/
def commitBank (raise : Bool) (revoke : Nat) (v : Svc) : Svc :=
  let b := candidate v
  let svn (t : Nat) : Nat := ((imageAt v b t).map fun i => u32 (imageBytes i 0 512) 0xC).getD 0
  { v with
    bank := b, trav := .idle, traverse := none
    minSvn := if raise then ((List.range 5).zip v.minSvn).map fun (i, m) => BitVec.ofNat 32 (max m.toNat (svn (i + 1))) else v.minSvn
    rootRevoked := v.rootRevoked ||| BitVec.ofNat 4 revoke }

def devTraverseCommit (c : CmdSlot) : Dev → Dev :=
  runChk c 0x0904 (fun p _ => [(0, u8 p 0 < 4), (1, u8 p 1 < 16), (2, zeros p 2 6)]) fun p d =>
    let v := d.svc
    let ok := if tb (u8 p 0) 1 then v.trav = .idle && types5.all (candidateOk v) else v.trav = .traversed
    let revoke := u8 p 1
    if !ok then finish c stBadParam d
    else if (bankRoots v (candidate v)).any (tb revoke) || v.rootRevoked ||| BitVec.ofNat 4 revoke = 0xF#4 then finish c stNotPermitted d
    else finish c stDone (logIt 0x0901 0 0 [2] (d := storeWrite [rkSvn, rkSelector] (d.onSvc (commitBank (tb (u8 p 0) 0) revoke))))

def execTraverseCommit (c : CmdSlot) (s : State) : Host.Outcome State Fault Refusal := onDev s (live (devTraverseCommit c))

/-- TRAVERSE_ABORT (R549, R551): the steps of R548 in reverse, from the running bank. -/
def devTraverseAbort (c : CmdSlot) : Dev → Dev :=
  runChk c 0x0905 (fun p _ => [(0, zeros p 0 8)]) fun _ d =>
    match d.svc.trav with
    | .idle => finishAt c stBadParam 0 d
    | .aborting => finish c stBusy d
    | _ =>
      let d := match d.svc.traverse with
        | some t => answerIf t.cmd 0x0903 stAborted none d
        | none => d
      let lead := (leader d).getD .west
      let centre := d.svc.centreBank ≠ d.svc.bank
      let dies := [lead.other, lead].filter fun s => !dieDown (d.ctl.dies.get s)
      let t : Traverse := { cmd := c, centre := centre, restarting := none, left := dies, centreBusy := centre }
      let d := leave c [] (d.onSvc fun v => { v with trav := .aborting, traverse := some t })
      let d := logIt 0x0901 0 0 [3] (d := d)
      if centre then d else travGo d

def execTraverseAbort (c : CmdSlot) (s : State) : Host.Outcome State Fault Refusal := onDev s (live (devTraverseAbort c))

-- Microcode (R552, R553)

def microcodeChk (c : CmdSlot) (p : Bytes) (_ : Dev) : List (Nat × Bool) :=
  [(0, u8 p 0 = 4 || u8 p 0 = 5), (1, u8 p 1 = 0), (2, u16 p 2 ≤ 10000), (4, u8 p 0 = 5 || u32 p 4 < 256), (8, addrOk c (u64 p 8) 16)]

/-- A unit that cannot take an image: an offline stack, or a lost tile. -/
def unitGone (d : Dev) (base : Bool) (u : Nat) : Bool := if base then stackOffline d u || !d.tileLive (stackTile u) else !d.tileLive u

/-- Units that are gone are skipped until one is left to drain. -/
def skipUnits (d : Dev) (base : Bool) : List Nat → BitVec 32 → List Nat × BitVec 32
  | [], k => ([], k)
  | u :: r, k => if unitGone d base u then skipUnits d base r (k ||| BitVec.ofNat 32 (2 ^ u)) else (u :: r, k)

/-- The next unit drains, or the load ends. -/
def microcodeNext (d : Dev) : Dev :=
  match d.svc.microcode with
  | none => d
  | some m =>
    let (units, skipped) := skipUnits d m.base m.units m.skipped
    let m := { m with units := units, skipped := skipped }
    if units ≠ [] then d.onSvc fun v => { v with microcode := some m }
    else
      let d := logIt 0x0901 0 0 [4] (d := d.onSvc fun v => { v with microcode := none })
      match cmdAt d m.cmd with
      | some x => answerIf m.cmd 0x0906 (if m.skipped = 0#32 then stDone else stNote)
          (some (u64 x.params 8, toLE 4 m.loaded.toNat ++ toLE 4 m.skipped.toNat ++ zpad 8)) d
      | none => d

def devMicrocodeLoad (c : CmdSlot) : Dev → Dev :=
  runChk c 0x0906 (microcodeChk c) fun p d =>
    if !candidateOk d.svc (u8 p 0) then finish c stNotPermitted d
    else
      let base : Bool := u8 p 0 = 5
      microcodeNext (leave c [] (d.onSvc fun v => { v with microcode := some { cmd := c, base := base, units := bitsOf 32 (u32 p 4) } }))

def execMicrocodeLoad (c : CmdSlot) (s : State) : Host.Outcome State Fault Refusal := onDev s (live (devMicrocodeLoad c))

/-- The unit has drained: no running leg on the stack, whose image comes by the MGT class of its stack link (R13); or no operation of the tile, and its ropes IDLE. -/
def unitDrained (d : Dev) (base : Bool) (u : Nat) : Bool :=
  if base then mgtOpen d u && d.eng.ops.all fun (_, o) => o.legs.all fun l => l.stack ≠ u || !(l.stage = .loading || l.stage = .running)
  else d.eng.ops.all (fun (_, o) => o.tile ≠ u) && d.ropes.slots.all fun (_, r) => r.par.tile ≠ u || r.st = .idle

def devMicrocodeUnitDrained (u : Nat) (d : Dev) : Dev :=
  match d.svc.microcode with
  | none => d
  | some m =>
    if m.units.head? ≠ some u || !unitDrained d m.base u then d
    else
      let ver := imageVersion d.svc (candidate d.svc) (if m.base then 5 else 4)
      let dig := imageDigest d.svc (candidate d.svc) (if m.base then 5 else 4)
      microcodeNext (d.onSvc fun v => { v with
        stackUcode := if m.base then v.stackUcode.set u ver else v.stackUcode
        tileUcode := if m.base then v.tileUcode else v.tileUcode.set u ver
        stackDigest := if m.base then v.stackDigest.set u dig else v.stackDigest
        tileDigest := if m.base then v.tileDigest else dig
        microcode := some { m with units := m.units.drop 1, loaded := m.loaded ||| BitVec.ofNat 32 (2 ^ u) } })

def execMicrocodeUnitDrained (unit : Nat) (s : State) : Host.Outcome State Fault Refusal := onDev s (live (devMicrocodeUnitDrained unit))

def devMicrocodeDrainTimeout (u : Nat) (d : Dev) : Dev :=
  match d.svc.microcode with
  | none => d
  | some m =>
    if m.units.head? ≠ some u then d
    else microcodeNext (d.onSvc fun v => { v with
      microcode := some { m with units := m.units.drop 1, skipped := m.skipped ||| BitVec.ofNat 32 (2 ^ u) } })

def execMicrocodeDrainTimeout (unit : Nat) (s : State) : Host.Outcome State Fault Refusal := onDev s (live (devMicrocodeDrainTimeout unit))

-- Error logs (R560, R562)

def logBytes (die : Nat) (e : LogEntry) : Bytes :=
  toLE 8 e.time.toNat ++ toLE 4 e.seq.toNat ++ toLE 2 e.code.toNat ++ toLE 1 e.severity ++ toLE 1 die ++ toLE 1 e.unitKind ++ toLE 1 e.unit
    ++ toLE 2 e.tenant ++ toLE 4 e.count.toNat ++ (e.args.take 4).flatMap (fun a => toLE 8 a.toNat) ++ zpad 8

def logReadChk (c : CmdSlot) (p : Bytes) (_ : Dev) : List (Nat × Bool) :=
  [(0, u8 p 0 ≤ 1), (1, zeros p 1 3), (8, addrOk c (u64 p 8) 64),
   (0x10, 1 ≤ u32 p 0x10 && u32 p 0x10 ≤ (if isSideband c then 63 else 4096))]

def devLogRead (c : CmdSlot) : Dev → Dev :=
  runChk c 0x0A03 (logReadChk c) fun p d =>
    let g := d.svc.logs.get (.ofIdx (u8 p 0))
    let oldest := (g.entries.head?.map (·.seq)).getD g.nextSeq
    let l := (g.entries.filter fun e => u32 p 4 ≤ e.seq.toNat).take (u32 p 0x10)
    finishRes c stDone (u64 p 8)
      (toLE 4 oldest.toNat ++ toLE 4 g.nextSeq.toNat ++ toLE 4 l.length ++ zpad 4 ++ l.flatMap (logBytes (u8 p 0))) d

def execLogRead (c : CmdSlot) (s : State) : Host.Outcome State Fault Refusal := onDev s (live (devLogRead c))

def clearLog (s : Side) (d : Dev) : Dev :=
  logIt 0x0901 5 s.idx [6] (d := d.onSvc fun v => { v with logs := v.logs.upd s fun g => { g with entries := [] } })

def devLogClear (c : CmdSlot) : Dev → Dev :=
  runChk c 0x0A04 (fun p _ => [(0, u8 p 0 < 4), (1, zeros p 1 7)]) fun p d =>
    let d := if tb (u8 p 0) 0 then clearLog .west d else d
    finish c stDone (if tb (u8 p 0) 1 then clearLog .east d else d)

def execLogClear (c : CmdSlot) (s : State) : Host.Outcome State Fault Refusal := onDev s (live (devLogClear c))

-- Event counters (R564 to R567)

/-- Sources of each group of R565. -/
def sourceCount (g : Nat) : Nat :=
  match g with
  | 1 => 19 | 2 => 16 | 3 => 16 | 4 => 16 | 5 => 9 | 6 => 11 | 7 => 10 | 8 => 10 | 9 => 7 | 10 => 5 | 11 => 10
  | _ => 0

/-- Instances of a source; none: it has no instance but 0xFF. -/
def sourceInst (src : Nat) : Nat :=
  let i := src % 256
  match src / 256 with
  | 3 => 2
  | 6 => 32
  | 7 => if i ≤ 4 then 32 else 8
  | 8 => 8
  | 9 => if i ≤ 3 then 8 else 16
  | 10 => 8
  | 11 => 0
  | _ => 16

/-- The source takes a tenant filter. -/
def sourceFilter (src : Nat) : Bool :=
  let i := src % 256
  match src / 256 with
  | 1 => (5 ≤ i && i ≤ 15) || i = 18
  | 3 => i = 15
  | 4 => true
  | 5 => i ≤ 3
  | 7 => true
  | 8 => true
  | 9 => i ≤ 3
  | _ => false

def selectChk (p : Bytes) (_ : Dev) : List (Nat × Bool) :=
  let n := u16 p 2
  ([(0, u16 p 0 ≤ 511 && u16 p 0 + n ≤ 512), (2, 1 ≤ n && n ≤ 256), (4, u32 p 4 = 0)] : List (Nat × Bool))
    ++ (List.range n).flatMap fun i =>
      let o := 8 + 8 * i
      let src := u16 p o
      ([(o, src % 256 < sourceCount (src / 256)), (o + 2, u8 p (o + 2) = 0xFF || u8 p (o + 2) < sourceInst src), (o + 3, u8 p (o + 3) < 8),
        (o + 4, u16 p (o + 4) = 0xFFFF || (u16 p (o + 4) < 256 && sourceFilter src)), (o + 6, u16 p (o + 6) = 0)] : List (Nat × Bool))

/-- A counter takes a new selection; it starts from 0 when the selection changes or CLEAR asks for it. -/
def selectEvc (old : Evc) (e : Bytes) : Evc :=
  let src := BitVec.ofNat 16 (u16 e 0)
  let inst := BitVec.ofNat 8 (u8 e 2)
  let ten := BitVec.ofNat 16 (u16 e 4)
  let keep := old.source = src && old.inst = inst && old.tenant = ten && !tb (u8 e 3) 2
  { count := if keep then old.count else 0#48, source := src, inst := inst, tenant := ten
    saturate := tb (u8 e 3) 1, enable := tb (u8 e 3) 0, ovf := keep && old.ovf }

def devCounterSelect (c : CmdSlot) : Dev → Dev :=
  runChk c 0x0A01 selectChk fun p d =>
    finish c stDone ((List.range (u16 p 2)).foldl (fun d i =>
      let n := u16 p 0 + i
      d.onSvc fun v => { v with counters := v.counters.set n (selectEvc (v.counters.getD n {}) (slice p (8 + 8 * i) 8)) }) d)

def execCounterSelect (c : CmdSlot) (s : State) : Host.Outcome State Fault Refusal := onDev s (live (devCounterSelect c))

def evcWord (e : Evc) : Nat := e.count.toNat + b2n e.enable * 2 ^ 62 + b2n e.ovf * 2 ^ 63

def devCounterRead (c : CmdSlot) : Dev → Dev :=
  runChk c 0x0A02 (fun p _ => [(0, u16 p 0 ≤ 511), (2, 1 ≤ u16 p 2 && u16 p 2 ≤ 512 && u16 p 0 + u16 p 2 ≤ 512), (4, u32 p 4 = 0),
      (8, addrOk c (u64 p 8) 64)]) fun p d =>
    finishRes c stDone (u64 p 8) (toLE 8 d.pwr.tsc.toNat ++ toLE 4 (u16 p 2) ++ zpad 4
      ++ (List.range (u16 p 2)).flatMap fun i => toLE 8 (evcWord (d.svc.counters.getD (u16 p 0 + i) {}))) d

def execCounterRead (c : CmdSlot) (s : State) : Host.Outcome State Fault Refusal := onDev s (live (devCounterRead c))

-- A lost tile (R559)

/-- Its queue pairs and completion queues are destroyed, and each tenant concerned hears of it (R231). -/
def lostObjects (t : Nat) (d : Dev) : Dev :=
  let qs := d.q.qps.filter fun (n, _) => qpTile n = t
  let cs := d.q.cqs.filter fun (n, _) => cqTile n = t
  let d := qs.foldl (fun d (n, _) => destroyQp n .other d) d
  let d := cs.foldl (fun d (n, _) => destroyCq n d) d
  let d := d.onQ fun q => { q with gone := q.gone.filter fun (n, _) => qpTile n ≠ t }
  (tenantNums d).foldl (fun d n =>
    let a := (qs.filter fun (_, q) => q.par.tenant = n).length
    let b := (cs.filter fun (_, c) => c.tenant = n).length
    if a = 0 && b = 0 then d else postEvent n 0x06 t a b d) d

/-- Operations that the tile held for queue pairs of other tiles end FLUSHED (R28). -/
def lostOps (t : Nat) (d : Dev) : Dev :=
  let l := (d.eng.ops.filter fun (_, o) => o.tile = t && (match o.src with
    | .entry n _ => qpTile n
    | .message n _ _ _ => qpTile n) ≠ t).map Prod.fst
  l.foldl (fun d i => opFail i ccFlushed 0x17 d) d

/-- A tile is lost (R559): its registers keep their last values (R110), and its units in the fabric are gone (R28). -/
def devTileLost (t : Nat) (d : Dev) : Dev :=
  if 8 ≤ t || !d.tileLive t then d
  else
    let d := d.onEng fun e => { e with lastTile := e.lastTile.set t (pendingUsed d t, 2048 - mergeUsed d t, nth e.opsDone t 0#48) }
    let d := d.onFab fun f => flushTile t { f with tileLive := f.tileLive.set t false }
    let d := logIt 0x0202 2 t [] (d := d)
    let d := lostOps t d
    let d := resetRopes t d
    let d := lostObjects t d
    let d := (List.range 4).foldl (fun d i => stackLost (4 * t + i) 3 d) d
    let d := portDown (2 * t + 1) (portDown (2 * t) d)
    let d := d.onCiph fun c => { c with opening := c.opening.filter fun o => portTile o.port ≠ t }
    let d := (d.xlt.invs.map Prod.fst).foldl (fun d i => ackTile t i d) d
    let d := d.onXlt fun x => { x with windows := x.windows.map fun (w, v) => (w, { v with drain := v.drain.set t 0, views := v.views.set t .free }) }
    segmentDown (t % 4) (windowsEnd (replSettle d))

def execTileLost (tile : Nat) (s : State) : Host.Outcome State Fault Refusal := onDev s (liveQ (devTileLost tile))

end Sys2Proof.Machine
end

