-- ==== Sys2Proof/Machine/Spdm.lean ====
section
/-! DEFINITION. Attestation by SPDM (R503, R504). The layouts of the messages are those of DMTF DSP0274, which the spec cites (log 12). -/

namespace Sys2Proof.Machine

-- Measurements (R504)

/-- A measurement block in DMTF format: index, type, whether the value is raw, the value. -/
def measBlock (i type : Nat) (raw : Bool) (v : Bytes) : Bytes :=
  toLE 1 i ++ [0x01#8] ++ toLE 2 (v.length + 3) ++ toLE 1 (type + if raw then 0x80 else 0) ++ toLE 2 v.length ++ v

/-- A digest, or zeros for what does not run. -/
def orZeros (b : Bytes) : Bytes := slice b 0 64

/-- The block of an index of R504, 1 to 9. -/
def measured (v : Svc) (i : Nat) : Bytes :=
  match i with
  | 1 => measBlock 1 0 false (sha512 Config.bootRom)
  | 2 => measBlock 2 1 false (orZeros v.firstDigest)
  | 3 => measBlock 3 1 false (orZeros v.centreDigest)
  | 4 => measBlock 4 1 false (orZeros v.dieDigest.w)
  | 5 => measBlock 5 1 false (orZeros v.dieDigest.e)
  | 6 => measBlock 6 1 false (orZeros v.tileDigest)
  | 7 => measBlock 7 1 false (sha512 (v.stackDigest.flatMap orZeros))
  | 8 => measBlock 8 3 false (match v.record with
    | some r => sha512 r
    | none => zpad 64)
  | _ => measBlock 9 3 true (v.minSvn.flatMap (fun x => toLE 4 x.toNat) ++ toLE 4 v.rootRevoked.toNat)

def allMeasured (v : Svc) : Bytes := (List.range 9).flatMap fun i => measured v (i + 1)

-- Answers

/-- The header of an answer: version, code and two parameters. -/
def spdmHdr (ver code p1 p2 : Nat) : Bytes := toLE 1 ver ++ toLE 1 code ++ toLE 1 p1 ++ toLE 1 p2

/-- ERROR. -/
def spdmError (ver code data : Nat) : Bytes := spdmHdr ver 0x7F code data

def speInvalid : Nat := 0x01
def speBusy : Nat := 0x03
def speUnspecified : Nat := 0x05
def speUnsupported : Nat := 0x07

/-- n words from the centre die's DRBG (R496). -/
def drawWords : Nat → Dev → Bytes × Dev
  | 0, d => ([], d)
  | n + 1, d =>
    let (x, d) := takeFree (drbgDraw 16 1 d)
    let (b, d) := drawWords n d
    (toLE 8 x.toNat ++ b, d)

/-- The answer with its signature by the identity key (R497, R503), which needs the seed; its secret number comes from the DRBG. -/
def spdmSign (msg b : Bytes) (d : Dev) : Bytes × Dev :=
  let (k, d) := drawWords 9 d
  (b ++ ecdsaSign (keyPriv d.svc "identity") (1 + beN k % (p521N - 1)) (Config.spdmSigned msg b), d)

/-- The certificate chain of slot 0 (R502, R503). -/
def chain (v : Svc) : Option Bytes := if v.chainOk then some Config.certChain else none

/-- The context that version 1.3 echoes, from an offset of the request. -/
def spdmContext (ver : Nat) (msg : Bytes) (off : Nat) : Bytes := if 0x13 ≤ ver then slice msg off 8 else []

/-- CERTIFICATE: part of the chain of slot 0. -/
def spdmCertificate (v : Svc) (ver : Nat) (msg : Bytes) : Bytes :=
  match chain v with
  | none => spdmError ver speUnspecified 0
  | some c =>
    let off := u16 msg 4
    if u8 msg 2 % 16 ≠ 0 || c.length ≤ off then spdmError ver speInvalid 0
    else
      let n := min (u16 msg 6) (c.length - off)
      spdmHdr ver 0x02 0 0 ++ toLE 2 n ++ toLE 2 (c.length - off - n) ++ slice c off n

/-- CHALLENGE_AUTH of slot 0, with the summary of the measurements where it is asked for. -/
def spdmChallenge (ver : Nat) (msg : Bytes) (d : Dev) : Bytes × Dev :=
  if u8 msg 2 ≠ 0 then (spdmError ver speInvalid 0, d)
  else if d.svc.seed = [] then (spdmError ver speUnspecified 0, d)
  else
    let (nonce, d) := drawWords 4 d
    let sum := if u8 msg 3 = 0 then [] else sha512 (allMeasured d.svc)
    spdmSign msg (spdmHdr ver 0x03 0 1 ++ sha512 ((chain d.svc).getD []) ++ nonce ++ sum ++ zpad 2 ++ spdmContext ver msg 36) d

/-- MEASUREMENTS: their number, one block or all, signed where the request asks. -/
def spdmMeasurements (ver : Nat) (msg : Bytes) (d : Dev) : Bytes × Dev :=
  let op := u8 msg 3
  let signed := tb (u8 msg 2) 0
  if (9 < op && op ≠ 0xFF) || (signed && u8 msg 36 % 16 ≠ 0) then (spdmError ver speInvalid 0, d)
  else if signed && d.svc.seed = [] then (spdmError ver speUnspecified 0, d)
  else
    let l := if op = 0 then [] else if op = 0xFF then allMeasured d.svc else measured d.svc op
    let n := if op = 0 then 0 else if op = 0xFF then 9 else 1
    let (nonce, d) := drawWords 4 d
    let b := spdmHdr ver 0x60 (if op = 0 then 9 else 0) 0 ++ toLE 1 n ++ toLE 3 l.length ++ l ++ nonce ++ zpad 2
      ++ spdmContext ver msg (if signed then 37 else 4)
    if signed then spdmSign msg b d else (b, d)

/-- The answer to a request: the requests, capabilities, algorithms and the slot of R503; any other is ERROR UnsupportedRequest. -/
def spdmAnswer (req : SpdmReq) (msg : Bytes) (d : Dev) : Bytes × Dev :=
  let ver := u8 msg 0
  match req with
  | .getVersion => (spdmHdr 0x10 0x04 0 0 ++ [0x00#8, 0x02#8, 0x00#8, 0x12#8, 0x00#8, 0x13#8], d)
  | .getCapabilities => (spdmHdr ver 0x61 0 0 ++ [0x00#8, Config.spdmCt, 0x00#8, 0x00#8] ++ toLE 4 0x16 ++ slice Config.spdmSizes 0 8, d)
  | .negotiateAlgorithms =>
    (spdmHdr ver 0x63 0 0 ++ toLE 2 36 ++ [0x01#8, 0x00#8] ++ toLE 4 0x08 ++ toLE 4 0x100 ++ toLE 4 0x04 ++ zpad 16, d)
  | .getDigests => (match chain d.svc with
    | some c => spdmHdr ver 0x01 0 1 ++ sha512 c
    | none => spdmHdr ver 0x01 0 0, d)
  | .getCertificate => (spdmCertificate d.svc ver msg, d)
  | .challenge => spdmChallenge ver msg d
  | .getMeasurements => spdmMeasurements ver msg d
  | .unsupported => (spdmError ver speUnsupported (u8 msg 1), d)

/-- A request whose answer draws from the DRBG, which waits while that has stopped (R496). -/
def spdmDraws (req : SpdmReq) : Bool :=
  match req with
  | .challenge => true
  | .getMeasurements => true
  | _ => false

/-- SPDM over DOE or MCTP, answered by the centre die even with no leader, ERROR Busy while the centre runtime restarts (R503, R548). -/
def devSpdm (route : SpdmRoute) (req : SpdmReq) (msg : Bytes) (d : Dev) : Dev :=
  let busy := (d.svc.traverse.map (·.centreBusy)).getD false
  let up : Bool := match route with
    | .doe p => (d.host.get p).linkUp
    | .mctp => true
  if !up || (!busy && spdmDraws req && !keysFlow d) then d
  else
    let (b, d) := if busy then (spdmError (u8 msg 0) speBusy 0, d) else spdmAnswer req msg d
    match route with
    | .doe p => emit (.doe p b) d
    | .mctp => emit (.sideband (0x05#8 :: b)) d

def execSpdm (route : SpdmRoute) (req : SpdmReq) (msg : Bytes) (s : State) : Host.Outcome State Fault Refusal :=
  onDev s (powered (devSpdm route req msg))

end Sys2Proof.Machine
end

