-- ==== Sys2Proof/Machine/Registers.lean ====
section
/-! DEFINITION. The register map of BAR0: what a read of every register shows, and a write to any register by its access type (R4 to R10, R388, R415 and the register rules of every chapter). -/

namespace Sys2Proof.Machine

/-- Fields placed side by side, the first the least significant: width and value of each. -/
def fields : List (Nat × Nat) → Nat
  | [] => 0
  | (w, v) :: r => v % 2 ^ w + 2 ^ w * fields r

/-- A field of one bit. -/
def flag (b : Bool) : Nat × Nat := (1, b2n b)

/-- The 4 B at an offset of a 64-bit register's value. -/
def half64 (v off : Nat) : Nat := if off % 8 < 4 then v % 2 ^ 32 else v / 2 ^ 32 % 2 ^ 32

-- What the registers show

/-- DEV_STACK_STATUS (R67). SCRUB_PCT is rounded down, so that 100 never shows (log 94). -/
def stackStatus (s : Stack) : Nat :=
  fields [(4, s.mode.code), (4, 0), flag s.ceSeen, flag s.ueSeen, flag (s.moves ≠ []), flag s.reserveExhausted, (4, 0),
    (8, s.scrubPos * 100 / stackCodewords)]

/-- A register of a stack group (R67 to R69). -/
def stackReg (d : Dev) (k o : Nat) : Nat :=
  let s := d.stack k
  if o = 0x00 then stackStatus s
  else if o / 8 = 1 then half64 s.ceCount.toNat o
  else if o / 8 = 2 then half64 s.ueCount.toNat o
  else if o = 0x18 then fields [(10, s.reserveUsed), (6, 0), (16, s.lostGroups.toNat)]
  else 0

/-- DEV_HOST_STATUS (R417). -/
def hostStatus (h : HostPort) : Nat :=
  fields [flag h.linkUp, flag (h.linkUp && h.flit), flag (h.linkUp && h.belowRecord), flag h.degraded, (12, 0),
    (3, if h.linkUp then h.gen else 0), (5, if h.linkUp then h.width else 0), (5, h.recordWidth)]

/-- The DEV block. -/
def devReg (d : Dev) (p : Side) (off : Nat) : Nat :=
  if off = 0x100 then p.idx
  else if off = 0x110 then hostStatus d.host.w
  else if off = 0x118 then hostStatus d.host.e
  else if 0x1000 ≤ off && off < 0x1400 then stackReg d ((off - 0x1000) / 32) (off % 32)
  else if 0x2000 ≤ off && off < 0x2200 then
    let k := (off - 0x2000) / 16
    if off % 16 = 0 then fields [(7, ctxBusy d k), (9, 0), (7, 64 - blocksUsed d k)]
    else if 8 ≤ off % 16 then half64 (nth d.eng.stk k {}).legsEnded.toNat off
    else 0
  else if 0x2200 ≤ off && off < 0x2280 then
    let t := (off - 0x2200) / 16
    -- a lost tile reads its last values
    let (used, free, ops) := d.eng.lastTile.getD t (pendingUsed d t, 2048 - mergeUsed d t, nth d.eng.opsDone t 0#48)
    if off % 16 = 0 then fields [(11, used), (5, 0), (12, free)]
    else if 8 ≤ off % 16 then half64 ops.toNat off
    else 0
  else if 0x2400 ≤ off && off < 0x2480 && off % 16 = 0 then
    let t := (off - 0x2400) / 16
    fields [(10, sramFree d t), (6, 0), (7, (d.ropes.slots.filter fun (_, r) => r.par.tile = t).length)]
  else 0

/-- The codes of HOLDER (R392). -/
def holderCode : Option Agent → Nat
  | none => 0
  | some (.port p) => p.idx + 1
  | some (.die s) => s.idx + 3

/-- HASP_STATE and CIPHER_LATCH (R392, R505). -/
def haspState (h : Hasp) : Nat :=
  fields [flag h.holder.isSome, (7, 0), (4, holderCode h.holder), (4, 0), (16, h.token.toNat), (32, h.epoch.toNat)]

/-- HASP_LEASE (R400). -/
def leaseReg (d : Dev) : Nat :=
  fields [(10, d.ctl.lease), (18, 0), flag (dieDown d.ctl.dies.w), flag (dieDown d.ctl.dies.e), (2, leaderCode d)]

def haspReg (d : Dev) (off : Nat) : Nat :=
  if off < 0x400 then (if off % 16 < 8 then half64 (haspState (d.hasp (off / 16))) off else 0)
  else if off = 0x400 then leaseReg d
  else 0

/-- MBX_STATUS (R408); MBX_DATA is read by its own row. -/
def mbxStatus (m : Mailbox) : Nat :=
  fields [flag m.full, (2, 0), flag m.reject, flag m.taken, flag m.timeout, flag m.receiverReset, flag m.senderReset]

def mbxReg (d : Dev) (off : Nat) : Nat := if off < 0xC0 && off % 32 = 8 then mbxStatus (d.mbx (off / 32)) else 0

/-- CMD_RING_STATUS (R444). -/
def ringStatus (d : Dev) (r : CmdRing) : Nat :=
  let running : Bool := match r.cmd with
    | some c => c.ran && !c.orphan
    | none => false
  fields [flag running, flag (r.enable && r.prod ≠ r.cons && (leader d).isNone), flag r.stopping, flag r.prodInvalid]

/-- The ring of an offset of the CMD block, and the offset in its group. -/
def ringAt (off : Nat) : Option (Side × Nat × Nat) :=
  if off < 0x400 then some (.west, off / 256, off % 256)
  else if 0x1000 ≤ off && off < 0x1400 then some (.east, (off - 0x1000) / 256, off % 256)
  else none

/-- CTRL of a ring: ENABLE, SIZE_LOG2, VECTOR (R188, R442, R507). -/
def ctrlReg (enable : Bool) (size : BitVec 4) (vector : BitVec 11) : Nat :=
  fields [flag enable, (3, 0), (4, size.toNat), (8, 0), (11, vector.toNat)]

def cmdReg (d : Dev) (off : Nat) : Nat :=
  match ringAt off with
  | none => 0
  | some (g, k, o) =>
    let r := d.ring g k
    if o < 8 then half64 r.base.toNat o
    else if o < 16 then half64 r.replyBase.toNat o
    else if o = 0x10 then ctrlReg r.enable r.sizeLog2 r.vector
    else if o = 0x14 then r.prod.toNat
    else if o = 0x18 then r.cons.toNat
    else if o = 0x1C then ringStatus d r
    else 0

/-- PWR_STATUS (R542). -/
def pwrStatus (d : Dev) : Nat :=
  let w := d.pwr
  fields [(3, w.state.code), (1, 0), flag w.stageLost, flag w.thermalEvent, flag w.vinEvent, flag w.isoDown, (8, 0),
    flag w.limited, flag w.peak, flag w.vinCause, flag w.thermal, (4, 0), (4, throttleNow d)]

def pwrReg (d : Dev) (off : Nat) : Nat :=
  if off = 0x00 then pwrStatus d
  else if off / 8 = 1 then half64 (fields [(16, d.pwr.pinReg.toNat), (16, d.pwr.iinReg.toNat), (16, d.pwr.vinReg.toNat)]) off
  else if off = 0x10 then fields [(16, d.pwr.limitW), (16, limitCap d)]
  else if off = 0x18 then maskOf 32 fun k => (d.stack k).parkReq
  else if off = 0x1C then maskOf 16 fun p => (d.port p).sleepReq
  else 0

def clkReg (d : Dev) (off : Nat) : Nat :=
  if off = 0x00 then
    fields [flag d.pwr.rootLock, flag d.pwr.refOk, flag (d.pwr.serdesLock.all id), flag d.pwr.pcieLock.w, flag d.pwr.pcieLock.e, (11, 0),
      (16, d.pwr.lockLosses.toNat)]
  else if off / 8 = 1 then half64 d.pwr.tsc.toNat off
  else 0

def rstReg (d : Dev) (off : Nat) : Nat :=
  if off = 0x08 then fields [(8, d.pwr.lastCause.toNat), (8, 0), (16, d.pwr.warmCount.toNat)]
  else if off = 0x10 then fields [flag d.pwr.inReset.w, flag d.pwr.inReset.e, (14, 0), (16, d.pwr.halfResets.toNat)]
  else 0

def evcAt (d : Dev) (n : Nat) : Evc := d.svc.counters.getD n {}

/-- The EVC block (R568). -/
def evcReg (d : Dev) (off : Nat) : Nat :=
  if off < 0x1000 then half64 (evcAt d (off / 8)).count.toNat off
  else if off < 0x2000 then
    let c := evcAt d ((off - 0x1000) / 8)
    half64 (fields [flag c.enable, flag c.saturate, (22, 0), (16, c.tenant.toNat), (8, c.inst.toNat), (16, c.source.toNat)]) off
  else if off < 0x2040 then half64 (maskOf 64 fun b => (evcAt d ((off - 0x2000) / 8 * 64 + b)).ovf) off
  else 0

/-- LOG_STATUS (R563). -/
def logReg (d : Dev) (off : Nat) : Nat :=
  if 16 ≤ off then 0
  else
    let g := d.svc.logs.get (.ofIdx (off / 8))
    half64 (fields [(13, g.entries.length), (3, 0), (16, g.overwritten.toNat), (32, g.nextSeq.toNat)]) off

/-- The LEGACY block (R525 to R527); in LIVE mode a read of the window is a row of its own. -/
def legacyReg (d : Dev) (off : Nat) : Nat :=
  let l := d.pwr.legacy
  if off = 0 then fields [(1, 0), flag l.live]
  else if off = 4 then (if l.live then l.unstable.toNat else 0)
  else if 0x100 ≤ off && off < 0x140 then
    let k := (off - 0x100) / 8
    half64 (if l.live then legacyWord d k else (nth l.captured k 0#64).toNat) off
  else 0

/-- The CIPH block (R505 to R509). -/
def ciphReg (d : Dev) (off : Nat) : Nat :=
  let c := d.ciph
  if off < 8 then half64 (haspState c.latch) off
  else if off < 0x10 then 0
  else if off < 0x18 then half64 c.base.toNat off
  else if off = 0x18 then ctrlReg c.enable c.sizeLog2 c.vector
  else if off = 0x1C then c.prod.toNat
  else if off = 0x20 then c.cons.toNat
  else if off = 0x24 then fields [flag c.prodInvalid, flag c.entropyFail, (14, 0), (5, (c.jobs.filter fun j => j.fin.isNone).length)]
  else if off = 0x28 then fields [(4, c.jobWeight.toNat), (4, 0), (4, c.transportWeight.toNat)]
  else if 0x30 ≤ off && off < 0x38 then half64 (maskOf 64 fun k => (c.slots.get? k).isSome) off
  else if 0x38 ≤ off && off < 0x40 then half64 (maskOf 64 fun k => slotBusy d k) off
  else 0

/-- LNK_PORT_STATUS (R344): WIDTH is the count of active lanes. -/
def portStatus (n : NetPort) : Nat :=
  fields [flag n.sublinkA, flag n.sublinkB, flag n.fallbackActive, flag (recalActive n), (4, n.ent.mode.code), (8, n.lanesHealthy.toNat),
    (8, n.lanesActive.toNat), (4, (bitsOf 8 n.lanesActive.toNat).length), (4, n.st.code)]

/-- A register of an egress queue (R305 to R308). -/
def eqReg (n : NetPort) (q o : Nat) : Nat :=
  let e := nth n.queues q {}
  let tagged : Bool := match e.frames with
    | f :: _ => f.excess
    | [] => false
  if o = 0x00 then eqDepth e
  else if o = 0x04 then e.peakDepth
  else if o = 0x08 then min e.peakSojourn (2 ^ 32 - 1)
  else if o = 0x0C then
    fields [flag (gateOpen n q), flag (e.shaper.committed ≤ 0), flag (e.shaper.peak ≤ 0), flag tagged, (12, 0), (8, n.gateIdx)]
  else if o / 8 = 2 then half64 e.sent.toNat o
  else 0

/-- The LNK mirror (R304 to R308, R344 to R346). -/
def lnkReg (d : Dev) (off : Nat) : Nat :=
  if off < 0x1000 then
    let n := d.port (off / 256)
    let o := off % 256
    if o = 0x00 then portStatus n
    else if o = 0x04 then fields [flag n.peerMatch, (7, 0), (4, n.peerPort), (4, 0), (16, if isEth n then 0 else n.peerNode.toNat)]
    else if o / 8 = 1 then half64 (fields [(16, n.steps.toNat), (16, n.retrains.toNat), (32, n.replays.toNat)]) o
    else 0
  else if 0x8000 ≤ off && off < 0x9000 then eqReg (d.port ((off - 0x8000) / 256)) (off % 256 / 32) (off % 32)
  else 0

/-- The port of an offset of the XLT block, and the offset in its group (R186). -/
def xltAt (off : Nat) : Option (Side × Nat) :=
  if off < 0x20 then some (.west, off) else if 0x100 ≤ off && off < 0x120 then some (.east, off - 0x100) else none

/-- The XLT block (R187 to R191). -/
def xltReg (d : Dev) (off : Nat) : Nat :=
  match xltAt off with
  | none => 0
  | some (g, o) =>
    let x := d.xlt.ports.get g
    let s := cairnSlots x
    if o < 8 then half64 x.base.toNat o
    else if o = 0x08 then ctrlReg x.enable x.sizeLog2 x.vector
    else if o = 0x10 then x.prod.toNat
    else if o = 0x14 then x.cons.toNat
    else if o = 0x18 then
      fields [flag (x.held ≠ [] && (!x.enable || ringSub s x.prod.toNat x.cons.toNat = s)), flag x.overflowed, flag x.consInvalid, (13, 0),
        (9, x.held.length)]
    else if o = 0x1C then x.limitMs.toNat
    else 0

/-- TEN_STATUS (R450): its TEN fields read 0 while the tenant is reset (R10). -/
def tenStatus (t : Tenant) : Nat :=
  let held : Bool := t.st = .resetting || t.st = .destroying
  fields [(4, t.st.code), flag (!held && t.dbReject), flag (!held && t.eventsLost), flag (!held && t.quotaHit), flag (!held && t.carried)]

/-- A tenant page (R449 to R451). -/
def pageReg (d : Dev) (n o : Nat) : Nat :=
  match d.ten? n with
  | none => 0
  | some t =>
    if o = 0x1000 then tenStatus t
    else if 0x2000 ≤ o && o < 0x2040 then
      (if t.st = .resetting || t.st = .destroying then 0 else half64 (nth t.counts ((o - 0x2000) / 8) 0#48).toNat o)
    else 0

/-- A port's MSI-X table and pending bits (R411, R412): address, data and mask in the order of the PCIe capability (log 68). -/
def msixReg (d : Dev) (p : Side) (off : Nat) : Nat :=
  if off < 0x8000 then
    let e := msixEntry d p (off / 16)
    if off % 16 < 8 then half64 e.addr.toNat off
    else if off % 16 < 12 then e.data.toNat
    else b2n e.masked
  else maskOf 32 fun b => (msixEntry d p ((off - 0x8000) * 8 + b)).pending

/-- The 4 B at an offset of BAR0 as port p reads them; unassigned and reserved offsets, and WO fields, read 0 (R6, R388, R415). The rows MBX_DATA_READ and LEGACY_LIVE_READ are the reads that change anything. -/
def readWord (d : Dev) (p : Side) (off : Nat) : Nat :=
  if off < 0x10000 then devReg d p off
  else if off < 0x20000 then haspReg d (off - 0x10000)
  else if off < 0x30000 then mbxReg d (off - 0x20000)
  else if off < 0x40000 then cmdReg d (off - 0x30000)
  else if off < 0x44000 then pwrReg d (off - 0x40000)
  else if off < 0x48000 then clkReg d (off - 0x44000)
  else if off < 0x50000 then rstReg d (off - 0x48000)
  else if off < 0x60000 then evcReg d (off - 0x50000)
  else if off < 0x70000 then logReg d (off - 0x60000)
  else if off < 0x80000 then legacyReg d (off - 0x70000)
  else if off < 0x90000 then ciphReg d (off - 0x80000)
  else if off < 0xA0000 then lnkReg d (off - 0x90000)
  else if off < 0xB0000 then xltReg d (off - 0xA0000)
  else if 0x100000 ≤ off && off < 0x1100000 then pageReg d ((off - 0x100000) / 0x10000) (off % 0x10000)
  else if 0x2000000 ≤ off && off < 0x2008100 then msixReg d p (off - 0x2000000)
  else 0

/-- An 8 B read: both words, the lower first (R4, R388). -/
def readPair (d : Dev) (p : Side) (off : Nat) : Nat := readWord d p off + 2 ^ 32 * readWord d p (off + 4)

/-- An assigned offset (R388). -/
def assigned (off : Nat) : Bool :=
  off < 0xB0000 || (0x100000 ≤ off && off < 0x1100000) || (0x2000000 ≤ off && off < 0x2008100)

-- Writes

/-- What a write puts into a 64-bit register: the value lies under the mask of the bytes written (R4). -/
structure RegWrite where
  mask : BitVec 64
  v : BitVec 64
  deriving DecidableEq, Repr

/-- The new value of a 64-bit register. -/
def RegWrite.into (w : RegWrite) (old : BitVec 64) : BitVec 64 := (old &&& ~~~w.mask) ||| (w.v &&& w.mask)

/-- The new value of a 4 KiB aligned base (R187, R441, R507). -/
def RegWrite.base (w : RegWrite) (old : BitVec 64) : BitVec 64 := w.into old &&& ~~~0xFFF#64

/-- Whether the 4 B at an offset of a 64-bit register are written, and their value. -/
def RegWrite.word (w : RegWrite) (hi : Bool) : Option (BitVec 32) :=
  if w.mask.extractLsb' (if hi then 32 else 0) 32 = 0#32 then none else some (w.v.extractLsb' (if hi then 32 else 0) 32)

/-- Both words of an aligned 8 B, the lower first (R388). -/
def RegWrite.both (w : RegWrite) (f : Nat → BitVec 32 → Dev → Dev) (d : Dev) : Dev :=
  let d := match w.word false with
    | some v => f 0 v d
    | none => d
  match w.word true with
  | some v => f 4 v d
  | none => d

/-- W1C of one bit (R6). -/
def w1c (v : BitVec 32) (i : Nat) (b : Bool) : Bool := b && !v.getLsbD i

def writeDev (off : Nat) (v : BitVec 32) (d : Dev) : Dev :=
  if off = 0x110 then d.onHost .west fun h => { h with degraded := w1c v 3 h.degraded }
  else if off = 0x118 then d.onHost .east fun h => { h with degraded := w1c v 3 h.degraded }
  else if 0x1000 ≤ off && off < 0x1400 && off % 32 = 0 then
    d.onStk ((off - 0x1000) / 32) fun s => { s with ueSeen := w1c v 9 s.ueSeen, ceSeen := w1c v 8 s.ceSeen }
  else d

/-- HASP_CTRL (R391, R393); any write to Hasp 0 from a host is a violation (R415). -/
def writeHasp (p : Side) (off : Nat) (w : RegWrite) (d : Dev) : Dev :=
  let n := off / 16
  if 0x400 ≤ off then d
  else if n = 0 then haspMisuse (.port p) d
  else if off % 16 = 8 then
    match w.word false with
    | some v =>
      let t := v.extractLsb' 16 16
      let a := v.toNat % 4
      if a = 1 then devHaspAcquire (.port p) n t d
      else if a = 2 then devHaspRelease (.port p) n t d
      else haspMisuse (.port p) d
    | none => d
  else d

/-- W1C bits of MBX_STATUS (R408): each side clears its own. -/
def mbxClear (snd rcv : Bool) (v : BitVec 32) (k : Nat) (d : Dev) : Dev :=
  d.onMbx k fun m =>
    let m := if snd then { m with receiverReset := w1c v 6 m.receiverReset, timeout := w1c v 5 m.timeout, taken := w1c v 4 m.taken, reject := w1c v 3 m.reject }
      else m
    if rcv then { m with senderReset := w1c v 7 m.senderReset } else m

/-- A mailbox (R402 to R409). One 8 B write of MBX_DATA is a word sent; a 4 B write puts in its half alone, and any write while FULL is rejected (R4, R403; log 69). A W1C bit is cleared only by the side its row names. -/
def writeMbx (p : Side) (off : Nat) (w : RegWrite) (d : Dev) : Dev :=
  let k := off / 32
  if 0xC0 ≤ off then d
  else
    let snd : Bool := mbxSender k = some p
    let rcv : Bool := mbxReceiver k = some p
    if !snd && !rcv then hostWrongPort p d
    else if off % 32 = 0 then
      if !snd then hostWrongPort p d
      else if w.mask = BitVec.allOnes 64 || (d.mbx k).full then devMbxDataWrite (.port p) k w.v d
      else d.onMbx k fun m => { m with word := w.into m.word }
    else if off % 32 = 8 then
      w.both (fun o v d =>
        if o = 4 then
          (if !snd then hostWrongPort p d else if v.getLsbD 0 then devWithdraw (.port p) k d else d)
        else mbxClear snd rcv v k d) d
    else d

/-- A command-ring group (R440 to R444). -/
def writeRing (p g : Side) (k o : Nat) (w : RegWrite) (d : Dev) : Dev :=
  if p ≠ g then hostWrongPort p d
  else if o < 8 then d.onRing g k fun r => if r.enable then r else { r with base := w.base r.base }
  else if o < 16 then d.onRing g k fun r => if r.enable then r else { r with replyBase := w.base r.replyBase }
  else w.both (fun h v d =>
    if o / 8 * 8 + h = 0x10 then (if v.getLsbD 0 then devCmdRingEnable p g k v d else devCmdRingDisable p g k v d)
    else if o / 8 * 8 + h = 0x14 then devCmdRingProdWrite p g k v d
    else if o / 8 * 8 + h = 0x1C then d.onRing g k fun r => { r with prodInvalid := w1c v 3 r.prodInvalid }
    else d) d

def writePwr (off : Nat) (v : BitVec 32) (d : Dev) : Dev :=
  if off = 0 then d.onPwr fun w => { w with vinEvent := w1c v 6 w.vinEvent, thermalEvent := w1c v 5 w.thermalEvent } else d

/-- RST_CTRL needs Hasp 1 (R543). -/
def writeRst (p : Side) (off : Nat) (v : BitVec 32) (d : Dev) : Dev :=
  if off = 0 then needHasp p 1 0x48000 (fun d => if v.getLsbD 0 then warmReset 2 d else d) d else d

/-- EVC_OVF_k needs Hasp 7 (R568); the other EVC registers are read-only. -/
def writeEvc (p : Side) (off : Nat) (w : RegWrite) (d : Dev) : Dev :=
  if off < 0x2000 || 0x2040 ≤ off then d
  else
    let k := (off - 0x2000) / 8
    needHasp p 7 (0x52000 + 8 * k) (fun d => d.onSvc fun s => { s with counters := s.counters.map fun (n, c) =>
      (n, if n / 64 = k && (w.v &&& w.mask).getLsbD (n % 64) then { c with ovf := false } else c) }) d

/-- LEGACY_CTRL (R525): MODE is set before a capture in the same write is taken. -/
def writeLegacy (off : Nat) (v : BitVec 32) (d : Dev) : Dev :=
  if off = 0 then
    let d := onLegacy (fun l => { l with live := v.getLsbD 1 }) d
    if v.getLsbD 0 then devCapture d else d
  else d

/-- The CIPH block (R476, R505 to R509): the job-ring registers take writes from the holder alone, CIPH_SCHED needs Hasp 4. -/
def writeCiph (p : Side) (off : Nat) (w : RegWrite) (d : Dev) : Dev :=
  let a := Agent.port p
  if off = 0x10 then
    (if d.ciph.latch.holder ≠ some a then latchDenied a d
     else d.onCiph fun c => if c.enable then c else { c with base := w.base c.base })
  else w.both (fun h v d =>
    let o := off + h
    if o = 0x08 then
      let t := v.extractLsb' 16 16
      let x := v.toNat % 4
      if x = 1 then devLatchAcquire a t d else if x = 2 then devLatchRelease a t d else haspMisuse a d
    else if o = 0x18 then (if v.getLsbD 0 then devCiphJobEnable a v d else devCiphJobDisable a v d)
    else if o = 0x1C then devCiphJobProdWrite a v d
    else if o = 0x24 then d.onCiph fun c => { c with prodInvalid := w1c v 0 c.prodInvalid }
    else if o = 0x28 then
      needHasp p 4 0x80028 (fun d => d.onCiph fun c => { c with jobWeight := v.extractLsb' 0 4, transportWeight := v.extractLsb' 8 4 }) d
    else d) d

/-- A cairn-ring group (R186 to R191). -/
def writeXlt (p g : Side) (o : Nat) (w : RegWrite) (d : Dev) : Dev :=
  if p ≠ g then hostWrongPort p d
  else if o < 8 then d.onXPort g fun x => if x.enable then x else { x with base := w.base x.base }
  else w.both (fun h v d =>
    let o := o / 8 * 8 + h
    if o = 0x08 then (if v.getLsbD 0 then devXltCairnEnable p g v d else devXltCairnDisable p g v d)
    else if o = 0x14 then devXltCairnConsWrite p g v d
    else if o = 0x18 then d.onXPort g fun x => { x with consInvalid := w1c v 2 x.consInvalid, overflowed := w1c v 1 x.overflowed }
    else if o = 0x1C then d.onXPort g fun x => { x with limitMs := v.extractLsb' 0 16 }
    else d) d

/-- The fields of a doorbell (R196, R197): a reserved bit reads as a reserved KIND. -/
def bellKind (v : BitVec 64) : Nat :=
  if v.extractLsb' 37 27 ≠ 0#27 || v.getLsbD 32 then 7 else (v.extractLsb' 33 3).toNat

/-- A tenant page (R196, R449, R450): only an 8 B doorbell takes effect, and TEN fields are held during a reset of the tenant (R10). -/
def writePage (p : Side) (requester : BitVec 16) (n o : Nat) (w : RegWrite) (d : Dev) : Dev :=
  match pageTenant d p requester n with
  | none => hostWrongPort p d
  | some t =>
    if t.st = .resetting || t.st = .destroying then d
    else if o = 0 then
      if w.mask = BitVec.allOnes 64 then
        devBell p requester n (bellKind w.v) (w.v.extractLsb' 16 16) (w.v.extractLsb' 0 16) (w.v.getLsbD 36) d
      else violate p 0x0302 false (bellReject n d)
    else if o = 0x1000 then
      match w.word false with
      | some v => d.onTen n fun t => { t with
          quotaHit := w1c v 6 t.quotaHit, eventsLost := w1c v 5 t.eventsLost, dbReject := w1c v 4 t.dbReject }
      | none => d
    else d

/-- A port's MSI-X table (R411, R412): a mask that clears, or an address that is no longer 0, sends the pending message. -/
def writeMsix (p : Side) (off : Nat) (w : RegWrite) (d : Dev) : Dev :=
  if 0x8000 ≤ off then d
  else
    let k := off / 16
    let e := msixEntry d p k
    let e := if off % 16 < 8 then { e with addr := w.into e.addr &&& ~~~3#64 }
      else
        let e := match w.word false with
          | some v => { e with data := v }
          | none => e
        match w.word true with
        | some v => { e with masked := v.getLsbD 0 }
        | none => e
    msixFlush p (d.onHost p fun h => { h with msix := h.msix.set k e })

/-- A write within an aligned 8 B of an assigned offset, block by block (R388). -/
def writeBlock (p : Side) (requester : BitVec 16) (off : Nat) (w : RegWrite) (d : Dev) : Dev :=
  if off < 0x10000 then w.both (fun h v => writeDev (off + h) v) d
  else if off < 0x20000 then writeHasp p (off - 0x10000) w d
  else if off < 0x30000 then writeMbx p (off - 0x20000) w d
  else if off < 0x40000 then
    match ringAt (off - 0x30000) with
    | some (g, k, o) => writeRing p g k o w d
    | none => d
  else if off < 0x44000 then w.both (fun h v => writePwr (off - 0x40000 + h) v) d
  else if off < 0x48000 then d
  else if off < 0x50000 then w.both (fun h v => writeRst p (off - 0x48000 + h) v) d
  else if off < 0x60000 then writeEvc p (off - 0x50000) w d
  else if off < 0x70000 then d
  else if off < 0x80000 then w.both (fun h v => writeLegacy (off - 0x70000 + h) v) d
  else if off < 0x90000 then writeCiph p (off - 0x80000) w d
  else if off < 0xA0000 then d
  else if off < 0xB0000 then
    match xltAt (off - 0xA0000) with
    | some (g, o) => writeXlt p g o w d
    | none => d
  else if off < 0x1100000 then writePage p requester ((off - 0x100000) / 0x10000) (off % 0x10000) w d
  else writeMsix p (off - 0x2000000) w d

/-- An access to an unassigned offset (R388, R415). -/
def unmapped (p : Side) (off : Nat) (d : Dev) : Dev := logFirst60 0x0301 p.idx 0x0501 4 p.idx [0x0301, off] (violate p 0x0301 false d)

/-- The stack whose base die holds the register at an offset (R67 to R69). -/
def dieOf (off : Nat) : Option Nat := if 0x1000 ≤ off && off < 0x1400 then some ((off - 0x1000) / 32) else none

/-- An access to a register of a base die (R5, R13, R20, R41). -/
def dieAccess (r : DieAccess) (k : Nat) (f : Dev → Dev) (d : Dev) : Dev := toBase k (.register r) f d

/-- The mailbox whose MBX_DATA lies at an offset (R401, R407). -/
def mbxAt (off : Nat) : Option Nat := if 0x20000 ≤ off && off < 0x200C0 && off % 32 < 8 then some ((off - 0x20000) / 32) else none

/-- A read of a register of BAR0 or of a mailbox word: its value and what it does besides (R4, R402). A 4 B read of MBX_DATA returns its half; as any read by the receiver of a waiting word, it takes the word (log 69). -/
def regRead (a : Agent) (p : Side) (off size : Nat) (d : Dev) : BitVec 64 × Dev :=
  match mbxAt off with
  | some k =>
    let (v, d) := mbxTake a k d
    (if size = 8 then v else halfWord v (off % 8 = 4), d)
  | none => (BitVec.ofNat 64 (if size = 8 then readPair d p off else readWord d p off), d)

/-- A register read by an agent. Of a host port: R4, R388, R415; a misaligned read, or one of another size, ends in a Completer Abort. Of a control die: the mailbox registers of the leader, by the management network (R401, R408). -/
def busRead (a : Agent) (off size : Nat) (d : Dev) : Dev :=
  match a with
  | .die s => if accessBad off size || off < 0x20000 || 0x200C0 ≤ off then d
    else
      let (v, d) := regRead a s off size d
      answerRead a v d
  | .port p =>
    if 0x4000000 ≤ off then d
    else if accessBad off size then emit (.completerAbort p) (badAccess p d)
    else if !assigned off then answerRead a 0#64 (unmapped p off d)
    else
      let (v, d) := regRead a p off size d
      answerRead a v d

/-- A read for which the table has a row, or none: MBX_DATA by MBX_DATA_READ, and any other register, whose read is served alike (log 69). -/
def devMbxDataRead (a : Agent) (r : RegAt) (d : Dev) : Dev :=
  match a, dieOf r.off with
  | .port p, some k => if accessBad r.off r.size then busRead a r.off r.size d else dieAccess ⟨p, r.off, r.size, none⟩ k (busRead a r.off r.size) d
  | _, _ => busRead a r.off r.size d

def execMbxDataRead (a : Agent) (reg : RegAt) (s : State) : Host.Outcome State Fault Refusal :=
  onDev s (powered (fun d => settle (devMbxDataRead a reg d)))

/-- A write into an aligned 8 B of an assigned offset. -/
def writeBytes (p : Side) (requester : BitVec 16) (off size : Nat) (v : BitVec 64) (d : Dev) : Dev :=
  if size = 8 then writeBlock p requester off ⟨BitVec.allOnes 64, v⟩ d
  else
    let lo := v &&& 0xFFFFFFFF#64
    if off % 8 = 0 then writeBlock p requester off ⟨0xFFFFFFFF#64, lo⟩ d
    else writeBlock p requester (off - 4) ⟨0xFFFFFFFF00000000#64, lo <<< 32⟩ d

/-- A write into BAR0 (R4, R388, R415): a misaligned one, one of another size and one to an unassigned offset are discarded and counted. -/
def barWrite (p : Side) (off size : Nat) (v : BitVec 64) (requester : BitVec 16) (d : Dev) : Dev :=
  if 0x4000000 ≤ off then d
  else if accessBad off size then badAccess p d
  else if !assigned off then unmapped p off d
  else match dieOf off with
    | some k => dieAccess ⟨p, off, size, some (v, requester)⟩ k (writeBytes p requester off size v) d
    | none => writeBytes p requester off size v d

/-- The leading control die's write of MBX_STATUS or MBX_CTRL (R401, R408, R409): it is the sender of mailboxes 1 and 3 and the receiver of 0 and 2. -/
def dieMbxWrite (s : Side) (off : Nat) (v : BitVec 32) (d : Dev) : Dev :=
  let k := (off - 0x20000) / 32
  if leader d ≠ some s || off < 0x20000 || 0x200C0 ≤ off then d
  else if off % 32 = 8 then mbxClear (mbxSender k = none) (mbxReceiver k = none) v k d
  else if off % 32 = 0xC && v.getLsbD 0 then devWithdraw (.die s) k d
  else d

/-- What a host programs in a configuration register (R381, R386, R412, R415): a value outside what R381 and R386 support leaves it as it is. -/
def configWrite (p : Side) (r : ConfigReg) (v : Nat) (d : Dev) : Dev :=
  let set (ok : Bool) (f : ConfigSpace → ConfigSpace) : Dev := if ok then d.onHost p fun h => { h with config := f h.config } else d
  let aer (f : AerLog → AerLog) : Dev := d.onHost p fun h => { h with aer := f h.aer }
  let put (e : AerError) (l : List AerError) : List AerError := if v = 0 then l.erase e else if l.contains e then l else e :: l
  let size : Bool := [128, 256, 512, 1024, 2048, 4096].contains v
  match r with
  | .maxPayload => set size fun c => { c with maxPayload := v }
  | .maxReadRequest => set size fun c => { c with maxReadRequest := v }
  | .tagBits => set ([8, 10, 14].contains v) fun c => { c with tagBits := v }
  | .relaxedOrdering => set true fun c => { c with relaxedOrdering := v ≠ 0 }
  | .completionTimeout => set (CplRange.of v).isSome fun c => { c with completionTimeout := v }
  | .aspm => set true fun c => { c with aspmL1 := tb v 0, aspmL11 := tb v 1, aspmL12 := tb v 2 }
  | .atsEnable => d.onHost p fun h => { h with atsEnabled := v ≠ 0 }
  | .priAllocation => priSend p (d.onHost p fun h => { h with priAlloc := min v 512 })
  | .functionMask => if v = 0 then devMsiXUnmask p none d else d.onHost p fun h => { h with funcMask := true }
  | .aerMask e => aer fun a => { a with masked := put e a.masked }
  | .aerSeverity e => aer fun a => { a with severe := put e a.severe }

/-- A TLP that is no access: AER logs it, and the port reports it by the severity the host programmed (R415). -/
def malformedTlp (p : Side) (e : AerError) (d : Dev) : Dev :=
  let a := (d.host.get p).aer
  let d := aerLog p e d
  if a.masked.contains e then d else emit (.errMessage p e (a.severe.contains e)) d

/-- A write of a register by its access type, from where it comes (R6). -/
def devRegisterWrite (w : RegWriter) (off size : Nat) (v : BitVec 64) (requester : BitVec 16) (d : Dev) : Dev :=
  match w with
  | .bar p => barWrite p off size v requester d
  | .die s => dieMbxWrite s off (v.extractLsb' 0 32) d
  | .config p r => configWrite p r v.toNat d
  | .malformed p e => malformedTlp p e d

def execRegisterWrite (p : RegWriter) (off : Nat) (size : Nat) (v : BitVec 64) (requester : BitVec 16) (s : State) :
    Host.Outcome State Fault Refusal :=
  onDev s (powered (fun d => settle (devRegisterWrite p off size v requester d)))

end Sys2Proof.Machine
end

