-- ==== Sys2Proof/Machine/Fabric.lean ====
section
/-! DEFINITION. The commands of the credit queues and the links inside the package (01_architecture, R14 to R29). CREDIT_QUEUE_SEND names a queue between tiles by the flow of the unit, instance 8 x source tile + destination tile; every other command names the queue itself (log 60). -/

namespace Sys2Proof.Machine

-- Units the model carries as state of its own

/-- Units out on a queue: its own, and on rows 10 to 13 the messages, pending legs, contexts and held completions that the device carries (R22 to R25). -/
def unitsOut (d : Dev) (q : QueueId) : Nat :=
  match q.row with
  | 10 => trackerUsed d q.inst
  | 11 => pendingUsed d q.inst
  | 12 => ctxBusy d q.inst
  | 13 => poolUnits d 13 q.inst + ((d.cq? q.inst).map fun c => c.held.length).getD 0
  | _ => (queueAt d.fab q).units.length

/-- An entry of the tile waits for a tracker credit (R23). -/
def trackerWaits (d : Dev) (t : Nat) : Bool :=
  d.q.qps.any fun (n, q) => qpTile n = t && q.st = .rts && sqLeft q ≠ 0 && trackerFull d t q.par.tenant

/-- Units a sender holds for want of a credit: its own; flits whose next queue this is, and what waits to cross for its sake; accesses that wait at a stack link; entries, legs and completions that wait (R23 to R25). -/
def heldUnits (d : Dev) (q : QueueId) : Nat :=
  let own := (queueAt d.fab q).held + (d.fab.crossings.filter fun c => blockedOn d.fab c = some q).length
  if isLink q || isBridge q then
    own + (d.fab.waiting.filter fun w => nextQueue d.fab w.flit.src (aim d.fab w.flit) = some q).length
  else match q.row with
    | 1 => own + (d.stack q.inst).held.length
    | 10 => own + b2n (trackerWaits d q.inst)
    | 11 => own + d.eng.ops.foldl (fun n (_, o) => if o.tile = q.inst then n + (o.legs.filter fun l => l.stage = .unplaced).length else n) 0
    | 12 => own + (nth d.eng.stk q.inst {}).queue.length
    | 13 => own + ((d.cq? q.inst).map fun c => c.held.length).getD 0
    | _ => own

/-- A base die withholds its REQ credits while its stack is parked or wakes, and while the hold queue of the move in progress is full (R61, R65). -/
def reqWithheld (d : Dev) (q : QueueId) : Bool :=
  q.row = 1 && (let s := d.stack q.inst
    s.mode = .parked || s.mode = .waking || s.moves.any fun m => 64 ≤ m.hold.length)

-- What waited to cross

/-- Serve again what waited to cross: an access to a base die, or what crosses between tiles. -/
def crossOne (a : Arrived) (d : Dev) : Dev :=
  match a with
  | .register r => match r.write with
    | some (v, requester) => barWrite r.port r.off r.size v requester d
    | none => devMbxDataRead (.port r.port) ⟨r.off, r.size⟩ d
  | .epoch k e => toBase k a (fun d => d.onFab fun f => { f with baseEpoch := f.baseEpoch.set k e }) d
  | a => applyArrived a d

/-- Serve again, in order, what waited to cross the package; what cannot cross yet waits on. -/
def crossAll (d : Dev) : Dev :=
  d.fab.crossings.foldl (fun d c => crossOne c.what d) (d.onFab fun f => { f with crossings := [] })

/-- Host requests and completions that waited for a way to their host tile go on (R31). -/
def hostMoves (d : Dev) : Dev :=
  let d := sendHeldReads .east (sendHeldReads .west d)
  (d.q.cqs.filter fun (_, c) => c.held ≠ []).foldl (fun d (n, _) => cqDrain n d) d

/-- Accesses that waited at a stack link for its credits, or for a place for their answers, arrive (R18, R21). -/
def stackMoves (d : Dev) : Dev :=
  (List.range 32).foldl (fun d k =>
    if (d.stack k).held = [] || (d.stack k).mode = .waking || (d.stack k).mode = .parked then d else serveWaiting k d) d

/-- Credits or paths have come back: units leave, and what waited crosses. -/
def fabricMoves (d : Dev) : Dev := stackMoves (hostMoves (crossAll (d.onFab (flowsSend (now d)))))

-- The commands

/-- A unit goes out on a queue that is not between tiles, if a credit is at hand and a request finds room for its response (R18, R21). -/
def unitOut (q : QueueId) (d : Dev) : Option Dev :=
  let c := queueAt d.fab q
  let room := match rspQueue q with
    | some r => rspRoom d r
    | none => true
  if c.resetting || (queueDepth q).getD 0 ≤ unitsOut d q || !room then none
  else some (d.onFab fun f =>
    let f := setQueue f (pushUnit (now d) ⟨⟨q.cls, 0, 0⟩, none⟩ c)
    match rspQueue q with
    | some r => { f with rsp := f.rsp ++ [r] }
    | none => f)

/-- Units that a sender holds leave while they can. -/
def heldSend1 (q : QueueId) (d : Dev) : Dev :=
  let c := queueAt d.fab q
  if c.held = 0 then d
  else (unitOut q (d.onFab fun f => setQueue f { c with held := c.held - 1 })).getD d

def heldSend (q : QueueId) (d : Dev) : Dev :=
  if isLink q || isBridge q then d else iter (heldSend1 q) ((queueAt d.fab q).held) d

/-- CREDIT_QUEUE_SEND between tiles names the flow of its unit. -/
def sendFlow (q : QueueId) : Option Flit :=
  let u : Flit := ⟨q.cls, q.inst / 8, q.inst % 8⟩
  let cross := tileHalf u.src ≠ tileHalf u.dst
  if q.inst < 64 && u.src ≠ u.dst && q.row = (if cross then bridgeRow u.cls else linkRow u.cls) then some u else none

/-- A block sends a unit, or holds it for want of a credit or of a place for its response (R18, R20, R21, R28). -/
def devCreditQueueSend (q : QueueId) (d : Dev) : Dev :=
  match sendFlow q with
  | some u => if d.tileLive u.src && d.tileLive u.dst then d.onFab fun f => flowSend1 (now d) f ⟨u, now d⟩ else d
  | none =>
    if (queueDepth q).isNone || isLink q || isBridge q then d
    else
      let c := queueAt d.fab q
      let hold := d.onFab fun f => setQueue f { c with held := c.held + 1, since := if c.held = 0 then now d else c.since }
      if c.held = 0 then (unitOut q d).getD hold else hold

def execCreditQueueSend (q : QueueId) (s : State) : Host.Outcome State Fault Refusal := onDev s (live (devCreditQueueSend q))

/-- The oldest unit leaves the receiver's queue, onward or consumed, and its credit comes back (R19); a unit that cannot go on stays, and its credit with it. A unit bound for an end in reset is discarded (R28). A response frees the place reserved for it (R21). Ignored while an end is in reset (R29). -/
def devCreditReturn (q : QueueId) (d : Dev) : Dev :=
  let c := queueAt d.fab q
  match c.units with
  | [] => d
  | u :: r =>
    if c.resetting || reqWithheld d q then d
    else
      let gone (f : Fab) : Fab := setQueue f { c with units := r }
      let place : QueueId := if u.flow.src = u.flow.dst then q else flowRsp ⟨.req, u.flow.dst, u.flow.src⟩
      match nextHop d.fab q u with
      | none => d
      | some none => fabricMoves (heldSend q (d.onFab fun f => if u.flow.cls = .rsp then rspFree (gone f) place else gone f))
      | some (some q') =>
        if (queueAt d.fab q').resetting then fabricMoves (heldSend q (d.onFab gone))
        else if hasCredit d.fab q' then
          fabricMoves (heldSend q (d.onFab fun f => let f := gone f; setQueue f (pushUnit (now d) u (queueAt f q'))))
        else d

def execCreditReturn (q : QueueId) (s : State) : Host.Outcome State Fault Refusal := onDev s (live (devCreditReturn q))

/-- A queue has held units and sent none for 1 ms (R27): a stall record, at most one in 100 ms for a queue and class while the stall lasts. The time is that of the queue's last sending, or of the oldest flit that waits. -/
def devCreditStall (q : QueueId) (d : Dev) : Dev :=
  let c := queueAt d.fab q
  let quiet := match c.logged with
    | some t => now d < t + msTicks 100
    | none => false
  if (queueDepth q).isNone || heldUnits d q = 0 || quiet then d
  else
    let (k, u) := queueUnit q
    let first := (d.fab.waiting.find? fun w => nextQueue d.fab w.flit.src (aim d.fab w.flit) = some q).map (·.since)
    let d := logIt 0x0201 k u [q.row, classCode q.cls, q.inst, max (msTicks 1) (now d - max c.since (first.getD 0))] (d := count 0x0B00 0xFF none 1 d)
    d.onFab fun f => setQueue f { c with logged := some (now d) }

def execCreditStall (q : QueueId) (s : State) : Host.Outcome State Fault Refusal := onDev s (live (devCreditStall q))

/-- The reset end is ready: the other end has every credit again (R28). -/
def devCreditQueueReady (q : QueueId) (d : Dev) : Dev :=
  let c := queueAt d.fab q
  if !c.resetting then d
  else fabricMoves (heldSend q (d.onFab fun f => setQueue f { id := q, held := c.held, since := c.since }))

def execCreditQueueReady (q : QueueId) (s : State) : Host.Outcome State Fault Refusal := onDev s (live (devCreditQueueReady q))

def execSegmentDown (n : Nat) (s : State) : Host.Outcome State Fault Refusal := onDev s (live fun d => crossAll (segmentDown n d))

/-- A bridge segment comes back (R15). -/
def devSegmentUp (n : Nat) (d : Dev) : Dev :=
  if n < 4 then fabricMoves (d.onFab fun f => { f with segUp := f.segUp.set n true }) else d

def execSegmentUp (n : Nat) (s : State) : Host.Outcome State Fault Refusal := onDev s (live (devSegmentUp n))

/-- An intra-half link goes down: what waits goes by another tile (R16), once nothing of its flow is out on the link (R17). -/
def devIntraHalfLinkDown (a b : Nat) (d : Dev) : Dev :=
  if a < 8 && b < 8 && a ≠ b && tileHalf a = tileHalf b && linkUp d.fab a b then
    fabricMoves (d.onFab fun f => { f with linksDown := f.linksDown ++ [(min a b, max a b)] })
  else d

def execIntraHalfLinkDown (a b : Nat) (s : State) : Host.Outcome State Fault Refusal := onDev s (live (devIntraHalfLinkDown a b))

end Sys2Proof.Machine
end

