-- ==== Sys2Proof/Machine/Dispatch.lean ====
section
/-! DEFINITION. The meaning of every command: one arm for each row of the table of operations and events. -/

namespace Sys2Proof.Machine

def exec (i : Instr) (s : State) : Host.Outcome State Fault Refusal :=
  match i with
  | .deviceInfo c => Sys2Proof.Machine.execDeviceInfo c s
  | .envCheck c record => Sys2Proof.Machine.execEnvCheck c record s
  | .halfReset c => Sys2Proof.Machine.execHalfReset c s
  | .powerState c => Sys2Proof.Machine.execPowerState c s
  | .setPowerLimit c => Sys2Proof.Machine.execSetPowerLimit c s
  | .tenantCreate c => Sys2Proof.Machine.execTenantCreate c s
  | .tenantDestroy c stubs => Sys2Proof.Machine.execTenantDestroy c stubs s
  | .tenantReset c => Sys2Proof.Machine.execTenantReset c s
  | .tenantFreeze c => Sys2Proof.Machine.execTenantFreeze c s
  | .tenantSave c => Sys2Proof.Machine.execTenantSave c s
  | .tenantRestore c snap handles => Sys2Proof.Machine.execTenantRestore c snap handles s
  | .tenantThaw c => Sys2Proof.Machine.execTenantThaw c s
  | .tenantQuery c => Sys2Proof.Machine.execTenantQuery c s
  | .memAlloc c => Sys2Proof.Machine.execMemAlloc c s
  | .memFree c => Sys2Proof.Machine.execMemFree c s
  | .mapRange c => Sys2Proof.Machine.execMapRange c s
  | .unmapRange c => Sys2Proof.Machine.execUnmapRange c s
  | .cairnResolve c => Sys2Proof.Machine.execCairnResolve c s
  | .retireQuery c => Sys2Proof.Machine.execRetireQuery c s
  | .windowOpen c => Sys2Proof.Machine.execWindowOpen c s
  | .windowRevoke c => Sys2Proof.Machine.execWindowRevoke c s
  | .windowQuery c => Sys2Proof.Machine.execWindowQuery c s
  | .qpCreate c => Sys2Proof.Machine.execQpCreate c s
  | .qpModify c => Sys2Proof.Machine.execQpModify c s
  | .qpDestroy c => Sys2Proof.Machine.execQpDestroy c s
  | .cqCreate c => Sys2Proof.Machine.execCqCreate c s
  | .cqDestroy c => Sys2Proof.Machine.execCqDestroy c s
  | .pathSet c => Sys2Proof.Machine.execPathSet c s
  | .ccProfileSet c => Sys2Proof.Machine.execCcProfileSet c s
  | .ropeCreate c => Sys2Proof.Machine.execRopeCreate c s
  | .ropeDestroy c => Sys2Proof.Machine.execRopeDestroy c s
  | .ropeQuery c => Sys2Proof.Machine.execRopeQuery c s
  | .shaperSet c => Sys2Proof.Machine.execShaperSet c s
  | .meterSet c => Sys2Proof.Machine.execMeterSet c s
  | .gateListSet c => Sys2Proof.Machine.execGateListSet c s
  | .nodeTableWrite c => Sys2Proof.Machine.execNodeTableWrite c s
  | .linkControl c => Sys2Proof.Machine.execLinkControl c s
  | .laneRecal c => Sys2Proof.Machine.execLaneRecal c s
  | .keyLoad c => Sys2Proof.Machine.execKeyLoad c s
  | .keyErase c => Sys2Proof.Machine.execKeyErase c s
  | .imageStage c data => Sys2Proof.Machine.execImageStage c data s
  | .imageVerify c => Sys2Proof.Machine.execImageVerify c s
  | .traverseBegin c => Sys2Proof.Machine.execTraverseBegin c s
  | .traverseCommit c => Sys2Proof.Machine.execTraverseCommit c s
  | .traverseAbort c => Sys2Proof.Machine.execTraverseAbort c s
  | .microcodeLoad c => Sys2Proof.Machine.execMicrocodeLoad c s
  | .counterSelect c => Sys2Proof.Machine.execCounterSelect c s
  | .counterRead c => Sys2Proof.Machine.execCounterRead c s
  | .logRead c => Sys2Proof.Machine.execLogRead c s
  | .logClear c => Sys2Proof.Machine.execLogClear c s
  | .identityGet c => Sys2Proof.Machine.execIdentityGet c s
  | .recordLoad c record => Sys2Proof.Machine.execRecordLoad c record s
  | .cmdRingProdWrite p ring k v => Sys2Proof.Machine.execCmdRingProdWrite p ring k v s
  | .cmdRingEnable p ring k v => Sys2Proof.Machine.execCmdRingEnable p ring k v s
  | .cmdRingDisable p ring k v => Sys2Proof.Machine.execCmdRingDisable p ring k v s
  | .commandFetch data => Sys2Proof.Machine.execCommandFetch data s
  | .commandBegin c => Sys2Proof.Machine.execCommandBegin c s
  | .commandDeadline c => Sys2Proof.Machine.execCommandDeadline c s
  | .sidebandRequest msg => Sys2Proof.Machine.execSidebandRequest msg s
  | .leaseRenewal => Sys2Proof.Machine.execLeaseRenewal s
  | .leaseExpiry => Sys2Proof.Machine.execLeaseExpiry s
  | .controlDieStart d => Sys2Proof.Machine.execControlDieStart d s
  | .cdeAcquireDelay => Sys2Proof.Machine.execCdeAcquireDelay s
  | .fenceNoRenewal d => Sys2Proof.Machine.execFenceNoRenewal d s
  | .fenceUnreachable d => Sys2Proof.Machine.execFenceUnreachable d s
  | .fencedRecovery d => Sys2Proof.Machine.execFencedRecovery d s
  | .controlDieLost d => Sys2Proof.Machine.execControlDieLost d s
  | .haspAcquire a n token => Sys2Proof.Machine.execHaspAcquire a n token s
  | .haspRelease a n token => Sys2Proof.Machine.execHaspRelease a n token s
  | .latchAcquire a token => Sys2Proof.Machine.execLatchAcquire a token s
  | .latchRelease a token => Sys2Proof.Machine.execLatchRelease a token s
  | .mbxDataWrite a k word => Sys2Proof.Machine.execMbxDataWrite a k word s
  | .mbxDataRead a reg => Sys2Proof.Machine.execMbxDataRead a reg s
  | .withdraw a k => Sys2Proof.Machine.execWithdraw a k s
  | .mbxTimeout k => Sys2Proof.Machine.execMbxTimeout k s
  | .msiXUnmask p vector => Sys2Proof.Machine.execMsiXUnmask p vector s
  | .registerWrite p off size v requester => Sys2Proof.Machine.execRegisterWrite p off size v requester s
  | .xltCairnEnable p g v => Sys2Proof.Machine.execXltCairnEnable p g v s
  | .xltCairnDisable p g v => Sys2Proof.Machine.execXltCairnDisable p g v s
  | .xltCairnConsWrite p g v => Sys2Proof.Machine.execXltCairnConsWrite p g v s
  | .ciphJobEnable a v => Sys2Proof.Machine.execCiphJobEnable a v s
  | .ciphJobDisable a v => Sys2Proof.Machine.execCiphJobDisable a v s
  | .ciphJobProdWrite a v => Sys2Proof.Machine.execCiphJobProdWrite a v s
  | .capture p => Sys2Proof.Machine.execCapture p s
  | .legacyLiveRead p off size agree => Sys2Proof.Machine.execLegacyLiveRead p off size agree s
  | .warmReset p => Sys2Proof.Machine.execWarmReset p s
  | .sqDoorbell p requester page number index arm => Sys2Proof.Machine.execSqDoorbell p requester page number index arm s
  | .rqDoorbell p requester page number index arm => Sys2Proof.Machine.execRqDoorbell p requester page number index arm s
  | .cqDoorbell p requester page number index => Sys2Proof.Machine.execCqDoorbell p requester page number index s
  | .eventRingDoorbell p requester page number index => Sys2Proof.Machine.execEventRingDoorbell p requester page number index s
  | .arm p requester page event number index => Sys2Proof.Machine.execArm p requester page event number index s
  | .perstN p => Sys2Proof.Machine.execPerstN p s
  | .hotReset p => Sys2Proof.Machine.execHotReset p s
  | .linkDown p => Sys2Proof.Machine.execLinkDown p s
  | .functionLevelReset p => Sys2Proof.Machine.execFunctionLevelReset p s
  | .hostLinkUp p width gen flit => Sys2Proof.Machine.execHostLinkUp p width gen flit s
  | .busMasterEnableSet p => Sys2Proof.Machine.execBusMasterEnableSet p s
  | .busMasterEnableClear p => Sys2Proof.Machine.execBusMasterEnableClear p s
  | .d3hotEntry p => Sys2Proof.Machine.execD3hotEntry p s
  | .d0Return p => Sys2Proof.Machine.execD0Return p s
  | .hostCompletion tag data => Sys2Proof.Machine.execHostCompletion tag data s
  | .hostReqFailed t => Sys2Proof.Machine.execHostReqFailed t s
  | .completionTimeout t => Sys2Proof.Machine.execCompletionTimeout t s
  | .poisonedCompletion tag data granules => Sys2Proof.Machine.execPoisonedCompletion tag data granules s
  | .unexpectedCompletion p => Sys2Proof.Machine.execUnexpectedCompletion p s
  | .poisonedWrite p => Sys2Proof.Machine.execPoisonedWrite p s
  | .atsCompletion p tag cpl => Sys2Proof.Machine.execAtsCompletion p tag cpl s
  | .atsInvalidation p pasid addr len => Sys2Proof.Machine.execAtsInvalidation p pasid addr len s
  | .priResponse p group code => Sys2Proof.Machine.execPriResponse p group code s
  | .entdaa addr => Sys2Proof.Machine.execEntdaa addr s
  | .mctpControl msg => Sys2Proof.Machine.execMctpControl msg s
  | .pldm msg => Sys2Proof.Machine.execPldm msg s
  | .spdm route req msg => Sys2Proof.Machine.execSpdm route req msg s
  | .replicatedTableWrite tile epoch w => Sys2Proof.Machine.execReplicatedTableWrite tile epoch w s
  | .translationWalkDone tile tenant addr write who => Sys2Proof.Machine.execTranslationWalkDone tile tenant addr write who s
  | .cairnTimer p => Sys2Proof.Machine.execCairnTimer p s
  | .faultLimitExpiry record => Sys2Proof.Machine.execFaultLimitExpiry record s
  | .invalidationAck tile inv => Sys2Proof.Machine.execInvalidationAck tile inv s
  | .unmapAbort tile inv => Sys2Proof.Machine.execUnmapAbort tile inv s
  | .windowDrained w => Sys2Proof.Machine.execWindowDrained w s
  | .stackRead stack off codewords who errs => Sys2Proof.Machine.execStackRead stack off codewords who errs s
  | .stackWrite stack off data who => Sys2Proof.Machine.execStackWrite stack off data who s
  | .retirementMoveDone move => Sys2Proof.Machine.execRetirementMoveDone move s
  | .patrolScrub stack symbols => Sys2Proof.Machine.execPatrolScrub stack symbols s
  | .ceTrackExpiry stack chimney group => Sys2Proof.Machine.execCeTrackExpiry stack chimney group s
  | .memCe stack => Sys2Proof.Machine.execMemCe stack s
  | .stackInit stack ok => Sys2Proof.Machine.execStackInit stack ok s
  | .parkIdle stack => Sys2Proof.Machine.execParkIdle stack s
  | .parkDrained stack => Sys2Proof.Machine.execParkDrained stack s
  | .stackWakeDone stack => Sys2Proof.Machine.execStackWakeDone stack s
  | .chimneyFail stack chimney => Sys2Proof.Machine.execChimneyFail stack chimney s
  | .zeroingDone handle => Sys2Proof.Machine.execZeroingDone handle s
  | .creditQueueSend q => Sys2Proof.Machine.execCreditQueueSend q s
  | .creditReturn q => Sys2Proof.Machine.execCreditReturn q s
  | .creditStall q => Sys2Proof.Machine.execCreditStall q s
  | .creditQueueReady q => Sys2Proof.Machine.execCreditQueueReady q s
  | .segmentDown n => Sys2Proof.Machine.execSegmentDown n s
  | .segmentUp n => Sys2Proof.Machine.execSegmentUp n s
  | .intraHalfLinkDown a b => Sys2Proof.Machine.execIntraHalfLinkDown a b s
  | .workFetch tile host => Sys2Proof.Machine.execWorkFetch tile host s
  | .phaseRefetch t data => Sys2Proof.Machine.execPhaseRefetch t data s
  | .entryBegin qpn hostDesc => Sys2Proof.Machine.execEntryBegin qpn hostDesc s
  | .legDone xfer leg => Sys2Proof.Machine.execLegDone xfer leg s
  | .waitSatisfied qpn => Sys2Proof.Machine.execWaitSatisfied qpn s
  | .waitPatchDone qpn => Sys2Proof.Machine.execWaitPatchDone qpn s
  | .cqStallLimit cqn => Sys2Proof.Machine.execCqStallLimit cqn s
  | .mergeSpaceGrant tile => Sys2Proof.Machine.execMergeSpaceGrant tile s
  | .legGrant stack => Sys2Proof.Machine.execLegGrant stack s
  | .opstoreStarvation stack => Sys2Proof.Machine.execOpstoreStarvation stack s
  | .operandLoadDone op leg => Sys2Proof.Machine.execOperandLoadDone op leg s
  | .legFinish op leg => Sys2Proof.Machine.execLegFinish op leg s
  | .legFail op leg detail => Sys2Proof.Machine.execLegFail op leg detail s
  | .graphWalkRound op => Sys2Proof.Machine.execGraphWalkRound op s
  | .write port p => Sys2Proof.Machine.execWrite port p s
  | .readReq port p => Sys2Proof.Machine.execReadReq port p s
  | .readResp port p => Sys2Proof.Machine.execReadResp port p s
  | .send port p => Sys2Proof.Machine.execSend port p s
  | .atomicReq port p => Sys2Proof.Machine.execAtomicReq port p s
  | .atomicResp port p => Sys2Proof.Machine.execAtomicResp port p s
  | .operateReq port p => Sys2Proof.Machine.execOperateReq port p s
  | .operateResp port p => Sys2Proof.Machine.execOperateResp port p s
  | .ack port p => Sys2Proof.Machine.execAck port p s
  | .nak port p => Sys2Proof.Machine.execNak port p s
  | .probe port p => Sys2Proof.Machine.execProbe port p s
  | .disconnect port p => Sys2Proof.Machine.execDisconnect port p s
  | .responderAdmit qpn => Sys2Proof.Machine.execResponderAdmit qpn s
  | .nonEwewaFrame port h => Sys2Proof.Machine.execNonEwewaFrame port h s
  | .arpRequest port ask => Sys2Proof.Machine.execArpRequest port ask s
  | .neighbourSolicitation port ask => Sys2Proof.Machine.execNeighbourSolicitation port ask s
  | .pauseFrame port => Sys2Proof.Machine.execPauseFrame port s
  | .lldpdu port chassis portId => Sys2Proof.Machine.execLldpdu port chassis portId s
  | .packetSend qpn => Sys2Proof.Machine.execPacketSend qpn s
  | .retransmitTimer q psn => Sys2Proof.Machine.execRetransmitTimer q psn s
  | .ackTimer q => Sys2Proof.Machine.execAckTimer q s
  | .notReadyBackoff qpn msn => Sys2Proof.Machine.execNotReadyBackoff qpn msn s
  | .msnProbe qpn => Sys2Proof.Machine.execMsnProbe qpn s
  | .grantAnnounce qpn => Sys2Proof.Machine.execGrantAnnounce qpn s
  | .disconnectRepeat qpn => Sys2Proof.Machine.execDisconnectRepeat qpn s
  | .tombstoneExpiry qpn => Sys2Proof.Machine.execTombstoneExpiry qpn s
  | .pathHoldExpiry qpn path => Sys2Proof.Machine.execPathHoldExpiry qpn path s
  | .baseWinRotate qpn path => Sys2Proof.Machine.execBaseWinRotate qpn path s
  | .bucketFill => Sys2Proof.Machine.execBucketFill s
  | .portSchedule port => Sys2Proof.Machine.execPortSchedule port s
  | .gateEntryAdvance port => Sys2Proof.Machine.execGateEntryAdvance port s
  | .gateListTakeover port => Sys2Proof.Machine.execGateListTakeover port s
  | .eqSamplePeriod => Sys2Proof.Machine.execEqSamplePeriod s
  | .data port b => Sys2Proof.Machine.execData port b s
  | .idle port b => Sys2Proof.Machine.execIdle port b s
  | .replayReq port b => Sys2Proof.Machine.execReplayReq port b s
  | .replayReqTimer port => Sys2Proof.Machine.execReplayReqTimer port s
  | .retrainTimeout port => Sys2Proof.Machine.execRetrainTimeout port s
  | .ident port msg => Sys2Proof.Machine.execIdent port msg s
  | .laneState port mask => Sys2Proof.Machine.execLaneState port mask s
  | .widthReq port mask width => Sys2Proof.Machine.execWidthReq port mask width s
  | .widthAck port mask width => Sys2Proof.Machine.execWidthAck port mask width s
  | .sleepReq port => Sys2Proof.Machine.execSleepReq port s
  | .sleepAck port => Sys2Proof.Machine.execSleepAck port s
  | .sleepIdleTimer port => Sys2Proof.Machine.execSleepIdleTimer port s
  | .linkWake port => Sys2Proof.Machine.execLinkWake port s
  | .laneUnhealthy port lane => Sys2Proof.Machine.execLaneUnhealthy port lane s
  | .laneStepUp port lane => Sys2Proof.Machine.execLaneStepUp port lane s
  | .laneRecalDone port ok => Sys2Proof.Machine.execLaneRecalDone port ok s
  | .trainingDone port lanes => Sys2Proof.Machine.execTrainingDone port lanes s
  | .trainingTimeout port => Sys2Proof.Machine.execTrainingTimeout port s
  | .identTimeout port => Sys2Proof.Machine.execIdentTimeout port s
  | .lldpTimeout port => Sys2Proof.Machine.execLldpTimeout port s
  | .lossOfSignal port => Sys2Proof.Machine.execLossOfSignal port s
  | .frameForward port => Sys2Proof.Machine.execFrameForward port s
  | .ropeCallDue slot => Sys2Proof.Machine.execRopeCallDue slot s
  | .ropeAckRepeat slot => Sys2Proof.Machine.execRopeAckRepeat slot s
  | .ropeData port p => Sys2Proof.Machine.execRopeData port p s
  | .ropeConfirm port p => Sys2Proof.Machine.execRopeConfirm port p s
  | .ropeAck port p => Sys2Proof.Machine.execRopeAck port p s
  | .ropeAbort port p => Sys2Proof.Machine.execRopeAbort port p s
  | .ropePitchServe tile => Sys2Proof.Machine.execRopePitchServe tile s
  | .pitchTimeout slot => Sys2Proof.Machine.execPitchTimeout slot s
  | .ropeAbortRepeat slot => Sys2Proof.Machine.execRopeAbortRepeat slot s
  | .ropeSlotFreed slot => Sys2Proof.Machine.execRopeSlotFreed slot s
  | .freezeDrained tenant => Sys2Proof.Machine.execFreezeDrained tenant s
  | .freezeLimit tenant => Sys2Proof.Machine.execFreezeLimit tenant s
  | .stubExpiry qpn => Sys2Proof.Machine.execStubExpiry qpn s
  | .cipherJobBegin entry => Sys2Proof.Machine.execCipherJobBegin entry s
  | .cipherJobDone index how => Sys2Proof.Machine.execCipherJobDone index how s
  | .drbgReseed drbg ok => Sys2Proof.Machine.execDrbgReseed drbg ok s
  | .drbgStop drbg => Sys2Proof.Machine.execDrbgStop drbg s
  | .limiterStep average hottest => Sys2Proof.Machine.execLimiterStep average hottest s
  | .powerSample watts => Sys2Proof.Machine.execPowerSample watts s
  | .thermalShutdown => Sys2Proof.Machine.execThermalShutdown s
  | .vinEvent band mV => Sys2Proof.Machine.execVinEvent band mV s
  | .isolationLinkLoss => Sys2Proof.Machine.execIsolationLinkLoss s
  | .isolationLinkTimeout => Sys2Proof.Machine.execIsolationLinkTimeout s
  | .stageLost => Sys2Proof.Machine.execStageLost s
  | .pwrEnAssert mV => Sys2Proof.Machine.execPwrEnAssert mV s
  | .pwrEnDeassert => Sys2Proof.Machine.execPwrEnDeassert s
  | .powerOn env => Sys2Proof.Machine.execPowerOn env s
  | .clockLoss => Sys2Proof.Machine.execClockLoss s
  | .clockLockReturn => Sys2Proof.Machine.execClockLockReturn s
  | .clockHalt => Sys2Proof.Machine.execClockHalt s
  | .serdesPllLoss engine => Sys2Proof.Machine.execSerdesPllLoss engine s
  | .pciePllLoss p => Sys2Proof.Machine.execPciePllLoss p s
  | .bivouacDrained => Sys2Proof.Machine.execBivouacDrained s
  | .bivouacEntryTimeout => Sys2Proof.Machine.execBivouacEntryTimeout s
  | .bivouacWake cause => Sys2Proof.Machine.execBivouacWake cause s
  | .bivouacExitDone => Sys2Proof.Machine.execBivouacExitDone s
  | .sensorUpdate v => Sys2Proof.Machine.execSensorUpdate v s
  | .traverseDieFollower d => Sys2Proof.Machine.execTraverseDieFollower d s
  | .traverseRestartTimeout d => Sys2Proof.Machine.execTraverseRestartTimeout d s
  | .microcodeUnitDrained unit => Sys2Proof.Machine.execMicrocodeUnitDrained unit s
  | .microcodeDrainTimeout unit => Sys2Proof.Machine.execMicrocodeDrainTimeout unit s
  | .tileLost tile => Sys2Proof.Machine.execTileLost tile s
  | .ethFecUncorrectableRetrain port worstLane => Sys2Proof.Machine.execEthFecUncorrectableRetrain port worstLane s
  | .adminDownDrainEnd port => Sys2Proof.Machine.execAdminDownDrainEnd port s
  | .tableCopyRebuilt tenant extent => Sys2Proof.Machine.execTableCopyRebuilt tenant extent s
  | .priReset p => Sys2Proof.Machine.execPriReset p s
  | .ibiAccept => Sys2Proof.Machine.execIbiAccept s
  | .ibiDisabledTimeout => Sys2Proof.Machine.execIbiDisabledTimeout s
  | .undervoltageRecovery => Sys2Proof.Machine.execUndervoltageRecovery s
  | .inputInRange mV => Sys2Proof.Machine.execInputInRange mV s
  | .powerOnHoldoff => Sys2Proof.Machine.execPowerOnHoldoff s
  | .isolationLinkReturn => Sys2Proof.Machine.execIsolationLinkReturn s
  | .centreRuntimeRestartDone => Sys2Proof.Machine.execCentreRuntimeRestartDone s

end Sys2Proof.Machine
end

