-- ==== Sys2Proof/Machine/Tick.lean ====
section
/-! DEFINITION. The passing of time. -/

namespace Sys2Proof.Machine

/-- The timestamp counter counts while the root PLL runs: it holds while the rails are off and while the clock is lost (R521, R522). -/
def clockRuns (d : Dev) : Bool :=
  match d.pwr.rails with
  | .on => true
  | .bootHalt => true
  | _ => false

/-- One tick of CK_M: 2 ns (R521; log 3); the lease runs down by the microsecond (R400); the AES cores take four blocks each (R473), and the packets they have opened are taken in (R474). -/
def tick (d : Dev) : Dev :=
  if clockRuns d then
    let t := d.pwr.tsc + 1#64
    let c := if t.toNat % 500 = 0 then { d.ctl with lease := d.ctl.lease - 1 } else d.ctl
    openedAll (coresTick { d with pwr := { d.pwr with tsc := t }, ctl := c })
  else d

end Sys2Proof.Machine
end

