-- ==== Sys2Proof/Machine/Step.lean ====
section
/-! DEFINITION. One step of the block, and the two functions by which the host places a command. -/

namespace Sys2Proof.Machine

/-- Take the command at the front of the queue and run it with the rest; on an empty queue 2 ns pass (log 3). -/
def step (s : State) : Host.Outcome State Fault Refusal :=
  match s.pending with
  | [] => .next { s with dev := Sys2Proof.Machine.tick s.dev }
  | i :: rest => exec i { s with pending := rest }

/-- The command that the word spells, put at the front of the queue. -/
def State.withFetchWord (s : State) (nbits w : Nat) : State :=
  match Sys2Proof.decodeTableWord nbits w with
  | some i => { s with pending := i :: s.pending }
  | none => s

end Sys2Proof.Machine
end

