-- ==== Sys2Proof/WellFormed.lean ====
section
/-! DEFINITION. Which commands are well formed: every operand lies in the range the spec gives it. An ill-formed command names nothing of the device, and its meaning changes nothing. -/

namespace Sys2Proof

/-- Network ports NP0 to NP15 (R12). -/
def okPort (n : Nat) : Bool := n < 16
/-- Tiles FT0 to FT7 (R12). -/
def okTile (n : Nat) : Bool := n < 8
/-- Stacks S0 to S31 (R12). -/
def okStack (n : Nat) : Bool := n < 32
/-- Chimneys of a stack (R42). -/
def okChimney (n : Nat) : Bool := n < 128
/-- Queue pairs (R197). -/
def okQp (n : Nat) : Bool := n < 65536
/-- Completion queues (R197). -/
def okCq (n : Nat) : Bool := n < 16384
/-- Tenants (R445). -/
def okTenant (n : Nat) : Bool := n < 256
/-- Rope slots (R348). -/
def okRope (n : Nat) : Bool := n < 64
/-- Remote windows (R176). -/
def okWindow (n : Nat) : Bool := n < 16384
/-- Command rings of a host port (R418). -/
def okRing (n : Nat) : Bool := n < 4
/-- Hasps (R390). -/
def okHasp (n : Nat) : Bool := n < 64
/-- Mailboxes (R401). -/
def okMbx (n : Nat) : Bool := n < 6
/-- Lanes of a port (R332). -/
def okLane (n : Nat) : Bool := n < 8
/-- Bridge segments (R14). -/
def okSegment (n : Nat) : Bool := n < 4
/-- Paths of a queue pair (R254). -/
def okPath (n : Nat) : Bool := n < 64
/-- DRBGs: one in each of sixteen cores and one in the centre die (R496). -/
def okDrbg (n : Nat) : Bool := n < 17
/-- Trained widths of a host link (R417). -/
def okLinkWidth (n : Nat) : Bool := n = 1 || n = 2 || n = 4 || n = 8 || n = 16
/-- Generations of a host link (R417). -/
def okGen (n : Nat) : Bool := 1 ≤ n && n ≤ 7
/-- Offsets of BAR0, 64 MiB (R383). -/
def okBar (n : Nat) : Bool := n < 0x4000000
/-- Byte offsets within a stack's share of the DPA space (R43). -/
def okStackOff (n : Nat) : Bool := n < 2 ^ 36
/-- Bad symbols of a codeword (R55): 36 symbols of 8 bits. -/
def okSymbols (n : Nat) : Bool := n ≤ 36
/-- Page request group indices of PCI Express. -/
def okGroup (n : Nat) : Bool := n < 512
/-- PASIDs are 20 bits (R445). -/
def okPasid (n : Nat) : Bool := n < 2 ^ 20
/-- MSI-X vectors (R411); none stands for the function mask. -/
def okVector : Option Nat → Bool
  | none => true
  | some n => n < 2048
/-- A ring of a port, or the sideband (R418). -/
def okSlot : CmdSlot → Bool
  | .ring _ k => okRing k
  | .sideband => true
/-- The payload of a packet: 0 to 8,192 B (R236). -/
def okPkt (p : Pkt) : Bool := p.payload.length ≤ 8192
/-- A block of a DIRECT link carries at most 244 B (R315). -/
def okBlock (b : Block) : Bool := b.payload.length ≤ 244
/-- Rows 1 to 13 of the queue table (R22). -/
def okQueue (q : QueueId) : Bool := 1 ≤ q.row && q.row ≤ 13
def okSender : Sender → Bool
  | .qp n => okQp n
  | .rope n => okRope n
def okWaiter : Waiter → Bool
  | .sqFetch n => okQp n
  | .rqFetch n => okQp n
  | .entry n _ => okQp n
  | .op _ => true
  | .rope n => okRope n
  | .cqWrite n => okCq n
def okRefetch : RefetchTarget → Bool
  | .sq n => okQp n
  | .rq n => okQp n
  | .command c => okSlot c
  | .job => true
  | .ropeCall n => okRope n
def okTarget : HostTarget → Bool
  | .req _ => true
  | .result c => okSlot c
  | .cqWrite n => okCq n
  | .ats _ => true
/-- Windows, and node-table entries of 32 B (R324). -/
def okTable : TableWrite → Bool
  | .windowClosing w => okWindow w
  | .windowFree w => okWindow w
  | .windowOpen w => okWindow w
  | .nodeEntry i e => i < 4096 && e.length = 32
  | .profileEntry k => k < 16
  | .tenantEntry t => okTenant t

/-- Every operand lies in its range. -/
def Instr.wf : Instr → Bool
  | .deviceInfo c => okSlot c
  | .envCheck c _ => okSlot c
  | .halfReset c => okSlot c
  | .powerState c => okSlot c
  | .setPowerLimit c => okSlot c
  | .tenantCreate c => okSlot c
  | .tenantDestroy c _ => okSlot c
  | .tenantReset c => okSlot c
  | .tenantFreeze c => okSlot c
  | .tenantSave c => okSlot c
  | .tenantRestore c _ _ => okSlot c
  | .tenantThaw c => okSlot c
  | .tenantQuery c => okSlot c
  | .memAlloc c => okSlot c
  | .memFree c => okSlot c
  | .mapRange c => okSlot c
  | .unmapRange c => okSlot c
  | .cairnResolve c => okSlot c
  | .retireQuery c => okSlot c
  | .windowOpen c => okSlot c
  | .windowRevoke c => okSlot c
  | .windowQuery c => okSlot c
  | .qpCreate c => okSlot c
  | .qpModify c => okSlot c
  | .qpDestroy c => okSlot c
  | .cqCreate c => okSlot c
  | .cqDestroy c => okSlot c
  | .pathSet c => okSlot c
  | .ccProfileSet c => okSlot c
  | .ropeCreate c => okSlot c
  | .ropeDestroy c => okSlot c
  | .ropeQuery c => okSlot c
  | .shaperSet c => okSlot c
  | .meterSet c => okSlot c
  | .gateListSet c => okSlot c
  | .nodeTableWrite c => okSlot c
  | .linkControl c => okSlot c
  | .laneRecal c => okSlot c
  | .keyLoad c => okSlot c
  | .keyErase c => okSlot c
  | .imageStage c _ => okSlot c
  | .imageVerify c => okSlot c
  | .traverseBegin c => okSlot c
  | .traverseCommit c => okSlot c
  | .traverseAbort c => okSlot c
  | .microcodeLoad c => okSlot c
  | .counterSelect c => okSlot c
  | .counterRead c => okSlot c
  | .logRead c => okSlot c
  | .logClear c => okSlot c
  | .identityGet c => okSlot c
  | .recordLoad c _ => okSlot c
  | .cmdRingProdWrite _ _ k _ => okRing k
  | .cmdRingEnable _ _ k _ => okRing k
  | .cmdRingDisable _ _ k _ => okRing k
  | .commandFetch _ => true
  | .commandBegin c => okSlot c
  | .commandDeadline c => okSlot c
  | .sidebandRequest _ => true
  | .leaseRenewal => true
  | .leaseExpiry => true
  | .controlDieStart _ => true
  | .cdeAcquireDelay => true
  | .fenceNoRenewal _ => true
  | .fenceUnreachable _ => true
  | .fencedRecovery _ => true
  | .controlDieLost _ => true
  | .haspAcquire _ n _ => okHasp n
  | .haspRelease _ n _ => okHasp n
  | .latchAcquire _ _ => true
  | .latchRelease _ _ => true
  | .mbxDataWrite _ k _ => okMbx k
  | .mbxDataRead _ r => okBar r.off
  | .withdraw _ k => okMbx k
  | .mbxTimeout k => okMbx k
  | .msiXUnmask _ vector => okVector vector
  | .registerWrite _ off _ _ _ => okBar off
  | .xltCairnEnable _ _ _ => true
  | .xltCairnDisable _ _ _ => true
  | .xltCairnConsWrite _ _ _ => true
  | .ciphJobEnable _ _ => true
  | .ciphJobDisable _ _ => true
  | .ciphJobProdWrite _ _ => true
  | .capture _ => true
  | .legacyLiveRead _ off _ _ => okBar off
  | .warmReset _ => true
  | .sqDoorbell _ _ page _ _ _ => okTenant page
  | .rqDoorbell _ _ page _ _ _ => okTenant page
  | .cqDoorbell _ _ page _ _ => okTenant page
  | .eventRingDoorbell _ _ page _ _ => okTenant page
  | .arm _ _ page _ _ _ => okTenant page
  | .perstN _ => true
  | .hotReset _ => true
  | .linkDown _ => true
  | .functionLevelReset _ => true
  | .hostLinkUp _ width gen _ => okLinkWidth width && okGen gen
  | .busMasterEnableSet _ => true
  | .busMasterEnableClear _ => true
  | .d3hotEntry _ => true
  | .d0Return _ => true
  | .hostCompletion _ _ => true
  | .hostReqFailed t => okTarget t
  | .completionTimeout t => okTarget t
  | .poisonedCompletion _ _ _ => true
  | .unexpectedCompletion _ => true
  | .poisonedWrite _ => true
  | .atsCompletion _ _ _ => true
  | .atsInvalidation _ pasid _ _ => okPasid pasid
  | .priResponse _ group _ => okGroup group
  | .entdaa _ => true
  | .mctpControl _ => true
  | .pldm _ => true
  | .spdm _ _ _ => true
  | .replicatedTableWrite unit _ w => unit < 10 && okTable w
  | .translationWalkDone tile tenant _ _ who => okTile tile && okTenant tenant && okWaiter who
  | .cairnTimer _ => true
  | .faultLimitExpiry _ => true
  | .invalidationAck tile _ => okTile tile
  | .unmapAbort tile _ => okTile tile
  | .windowDrained w => okWindow w
  | .stackRead stack off _ _ _ => okStack stack && okStackOff off
  | .stackWrite stack off _ _ => okStack stack && okStackOff off
  | .retirementMoveDone m => okStack m.stack
  | .patrolScrub stack symbols => okStack stack && okSymbols symbols
  | .ceTrackExpiry stack chimney _ => okStack stack && okChimney chimney
  | .memCe stack => okStack stack
  | .stackInit stack _ => okStack stack
  | .parkIdle stack => okStack stack
  | .parkDrained stack => okStack stack
  | .stackWakeDone stack => okStack stack
  | .chimneyFail stack chimney => okStack stack && okChimney chimney
  | .zeroingDone _ => true
  | .creditQueueSend q => okQueue q
  | .creditReturn q => okQueue q
  | .creditStall q => okQueue q
  | .creditQueueReady q => okQueue q
  | .segmentDown n => okSegment n
  | .segmentUp n => okSegment n
  | .intraHalfLinkDown a b => okTile a && okTile b
  | .workFetch tile _ => okTile tile
  | .phaseRefetch t _ => okRefetch t
  | .entryBegin qpn _ => okQp qpn
  | .legDone _ _ => true
  | .waitSatisfied qpn => okQp qpn
  | .waitPatchDone qpn => okQp qpn
  | .cqStallLimit cqn => okCq cqn
  | .mergeSpaceGrant tile => okTile tile
  | .legGrant stack => okStack stack
  | .opstoreStarvation stack => okStack stack
  | .operandLoadDone _ _ => true
  | .legFinish _ _ => true
  | .legFail _ _ _ => true
  | .graphWalkRound _ => true
  | .write port p => okPort port && okPkt p
  | .readReq port p => okPort port && okPkt p
  | .readResp port p => okPort port && okPkt p
  | .send port p => okPort port && okPkt p
  | .atomicReq port p => okPort port && okPkt p
  | .atomicResp port p => okPort port && okPkt p
  | .operateReq port p => okPort port && okPkt p
  | .operateResp port p => okPort port && okPkt p
  | .ack port p => okPort port && okPkt p
  | .nak port p => okPort port && okPkt p
  | .probe port p => okPort port && okPkt p
  | .disconnect port p => okPort port && okPkt p
  | .responderAdmit qpn => okQp qpn
  | .nonEwewaFrame port _ => okPort port
  | .arpRequest port a => okPort port && a.mac.length = 6 && a.src.length = 4 && a.ip.length = 4
  | .neighbourSolicitation port a => okPort port && a.mac.length = 6 && a.src.length = 16 && a.ip.length = 16
  | .pauseFrame port => okPort port
  | .lldpdu port _ _ => okPort port
  | .packetSend qpn => okQp qpn
  | .retransmitTimer q _ => okSender q
  | .ackTimer q => okSender q
  | .notReadyBackoff qpn _ => okQp qpn
  | .msnProbe qpn => okQp qpn
  | .grantAnnounce qpn => okQp qpn
  | .disconnectRepeat qpn => okQp qpn
  | .tombstoneExpiry qpn => okQp qpn
  | .pathHoldExpiry qpn path => okQp qpn && okPath path
  | .baseWinRotate qpn path => okQp qpn && okPath path
  | .bucketFill => true
  | .portSchedule port => okPort port
  | .gateEntryAdvance port => okPort port
  | .gateListTakeover port => okPort port
  | .eqSamplePeriod => true
  | .data port b => okPort port && okBlock b
  | .idle port b => okPort port && okBlock b
  | .replayReq port b => okPort port && okBlock b
  | .replayReqTimer port => okPort port
  | .retrainTimeout port => okPort port
  | .ident port _ => okPort port
  | .laneState port _ => okPort port
  | .widthReq port _ _ => okPort port
  | .widthAck port _ _ => okPort port
  | .sleepReq port => okPort port
  | .sleepAck port => okPort port
  | .sleepIdleTimer port => okPort port
  | .linkWake port => okPort port
  | .laneUnhealthy port lane => okPort port && okLane lane
  | .laneStepUp port lane => okPort port && okLane lane
  | .laneRecalDone port _ => okPort port
  | .trainingDone port _ => okPort port
  | .trainingTimeout port => okPort port
  | .identTimeout port => okPort port
  | .lldpTimeout port => okPort port
  | .lossOfSignal port => okPort port
  | .frameForward port => okPort port
  | .ropeCallDue slot => okRope slot
  | .ropeAckRepeat slot => okRope slot
  | .ropeData port p => okPort port && okPkt p
  | .ropeConfirm port p => okPort port && okPkt p
  | .ropeAck port p => okPort port && okPkt p
  | .ropeAbort port p => okPort port && okPkt p
  | .ropePitchServe tile => okTile tile
  | .pitchTimeout slot => okRope slot
  | .ropeAbortRepeat slot => okRope slot
  | .ropeSlotFreed slot => okRope slot
  | .freezeDrained tenant => okTenant tenant
  | .freezeLimit tenant => okTenant tenant
  | .stubExpiry qpn => okQp qpn
  | .cipherJobBegin _ => true
  | .cipherJobDone _ _ => true
  | .drbgReseed drbg _ => okDrbg drbg
  | .drbgStop drbg => okDrbg drbg
  | .limiterStep _ _ => true
  | .powerSample _ => true
  | .thermalShutdown => true
  | .vinEvent _ _ => true
  | .isolationLinkLoss => true
  | .isolationLinkTimeout => true
  | .stageLost => true
  | .pwrEnAssert _ => true
  | .pwrEnDeassert => true
  | .powerOn _ => true
  | .clockLoss => true
  | .clockLockReturn => true
  | .clockHalt => true
  | .serdesPllLoss engine => okTile engine
  | .pciePllLoss _ => true
  | .bivouacDrained => true
  | .bivouacEntryTimeout => true
  | .bivouacWake _ => true
  | .bivouacExitDone => true
  | .sensorUpdate _ => true
  | .traverseDieFollower _ => true
  | .traverseRestartTimeout _ => true
  | .microcodeUnitDrained unit => okStack unit
  | .microcodeDrainTimeout unit => okStack unit
  | .tileLost tile => okTile tile
  | .ethFecUncorrectableRetrain port _ => okPort port
  | .adminDownDrainEnd port => okPort port
  | .tableCopyRebuilt tenant _ => okTenant tenant
  | .priReset _ => true
  | .ibiAccept => true
  | .ibiDisabledTimeout => true
  | .undervoltageRecovery => true
  | .inputInRange _ => true
  | .powerOnHoldoff => true
  | .isolationLinkReturn => true
  | .centreRuntimeRestartDone => true

/-- The row of the table of operations and events that the command is, counted from 0. -/
def Instr.row : Instr → Nat
  | .deviceInfo _ => 0
  | .envCheck _ _ => 1
  | .halfReset _ => 2
  | .powerState _ => 3
  | .setPowerLimit _ => 4
  | .tenantCreate _ => 5
  | .tenantDestroy _ _ => 6
  | .tenantReset _ => 7
  | .tenantFreeze _ => 8
  | .tenantSave _ => 9
  | .tenantRestore _ _ _ => 10
  | .tenantThaw _ => 11
  | .tenantQuery _ => 12
  | .memAlloc _ => 13
  | .memFree _ => 14
  | .mapRange _ => 15
  | .unmapRange _ => 16
  | .cairnResolve _ => 17
  | .retireQuery _ => 18
  | .windowOpen _ => 19
  | .windowRevoke _ => 20
  | .windowQuery _ => 21
  | .qpCreate _ => 22
  | .qpModify _ => 23
  | .qpDestroy _ => 24
  | .cqCreate _ => 25
  | .cqDestroy _ => 26
  | .pathSet _ => 27
  | .ccProfileSet _ => 28
  | .ropeCreate _ => 29
  | .ropeDestroy _ => 30
  | .ropeQuery _ => 31
  | .shaperSet _ => 32
  | .meterSet _ => 33
  | .gateListSet _ => 34
  | .nodeTableWrite _ => 35
  | .linkControl _ => 36
  | .laneRecal _ => 37
  | .keyLoad _ => 38
  | .keyErase _ => 39
  | .imageStage _ _ => 40
  | .imageVerify _ => 41
  | .traverseBegin _ => 42
  | .traverseCommit _ => 43
  | .traverseAbort _ => 44
  | .microcodeLoad _ => 45
  | .counterSelect _ => 46
  | .counterRead _ => 47
  | .logRead _ => 48
  | .logClear _ => 49
  | .identityGet _ => 50
  | .recordLoad _ _ => 51
  | .cmdRingProdWrite _ _ _ _ => 52
  | .cmdRingEnable _ _ _ _ => 53
  | .cmdRingDisable _ _ _ _ => 54
  | .commandFetch _ => 55
  | .commandBegin _ => 56
  | .commandDeadline _ => 57
  | .sidebandRequest _ => 58
  | .leaseRenewal => 59
  | .leaseExpiry => 60
  | .controlDieStart _ => 61
  | .cdeAcquireDelay => 62
  | .fenceNoRenewal _ => 63
  | .fenceUnreachable _ => 64
  | .fencedRecovery _ => 65
  | .controlDieLost _ => 66
  | .haspAcquire _ _ _ => 67
  | .haspRelease _ _ _ => 68
  | .latchAcquire _ _ => 69
  | .latchRelease _ _ => 70
  | .mbxDataWrite _ _ _ => 71
  | .mbxDataRead _ _ => 72
  | .withdraw _ _ => 73
  | .mbxTimeout _ => 74
  | .msiXUnmask _ _ => 75
  | .registerWrite _ _ _ _ _ => 76
  | .xltCairnEnable _ _ _ => 77
  | .xltCairnDisable _ _ _ => 78
  | .xltCairnConsWrite _ _ _ => 79
  | .ciphJobEnable _ _ => 80
  | .ciphJobDisable _ _ => 81
  | .ciphJobProdWrite _ _ => 82
  | .capture _ => 83
  | .legacyLiveRead _ _ _ _ => 84
  | .warmReset _ => 85
  | .sqDoorbell _ _ _ _ _ _ => 86
  | .rqDoorbell _ _ _ _ _ _ => 87
  | .cqDoorbell _ _ _ _ _ => 88
  | .eventRingDoorbell _ _ _ _ _ => 89
  | .arm _ _ _ _ _ _ => 90
  | .perstN _ => 91
  | .hotReset _ => 92
  | .linkDown _ => 93
  | .functionLevelReset _ => 94
  | .hostLinkUp _ _ _ _ => 95
  | .busMasterEnableSet _ => 96
  | .busMasterEnableClear _ => 97
  | .d3hotEntry _ => 98
  | .d0Return _ => 99
  | .hostCompletion _ _ => 100
  | .hostReqFailed _ => 101
  | .completionTimeout _ => 102
  | .poisonedCompletion _ _ _ => 103
  | .unexpectedCompletion _ => 104
  | .poisonedWrite _ => 105
  | .atsCompletion _ _ _ => 106
  | .atsInvalidation _ _ _ _ => 107
  | .priResponse _ _ _ => 108
  | .entdaa _ => 109
  | .mctpControl _ => 110
  | .pldm _ => 111
  | .spdm _ _ _ => 112
  | .replicatedTableWrite _ _ _ => 113
  | .translationWalkDone _ _ _ _ _ => 114
  | .cairnTimer _ => 115
  | .faultLimitExpiry _ => 116
  | .invalidationAck _ _ => 117
  | .unmapAbort _ _ => 118
  | .windowDrained _ => 119
  | .stackRead _ _ _ _ _ => 120
  | .stackWrite _ _ _ _ => 121
  | .retirementMoveDone _ => 122
  | .patrolScrub _ _ => 123
  | .ceTrackExpiry _ _ _ => 124
  | .memCe _ => 125
  | .stackInit _ _ => 126
  | .parkIdle _ => 127
  | .parkDrained _ => 128
  | .stackWakeDone _ => 129
  | .chimneyFail _ _ => 130
  | .zeroingDone _ => 131
  | .creditQueueSend _ => 132
  | .creditReturn _ => 133
  | .creditStall _ => 134
  | .creditQueueReady _ => 135
  | .segmentDown _ => 136
  | .segmentUp _ => 137
  | .intraHalfLinkDown _ _ => 138
  | .workFetch _ _ => 139
  | .phaseRefetch _ _ => 140
  | .entryBegin _ _ => 141
  | .legDone _ _ => 142
  | .waitSatisfied _ => 143
  | .waitPatchDone _ => 144
  | .cqStallLimit _ => 145
  | .mergeSpaceGrant _ => 146
  | .legGrant _ => 147
  | .opstoreStarvation _ => 148
  | .operandLoadDone _ _ => 149
  | .legFinish _ _ => 150
  | .legFail _ _ _ => 151
  | .graphWalkRound _ => 152
  | .write _ _ => 153
  | .readReq _ _ => 154
  | .readResp _ _ => 155
  | .send _ _ => 156
  | .atomicReq _ _ => 157
  | .atomicResp _ _ => 158
  | .operateReq _ _ => 159
  | .operateResp _ _ => 160
  | .ack _ _ => 161
  | .nak _ _ => 162
  | .probe _ _ => 163
  | .disconnect _ _ => 164
  | .responderAdmit _ => 165
  | .nonEwewaFrame _ _ => 166
  | .arpRequest _ _ => 167
  | .neighbourSolicitation _ _ => 168
  | .pauseFrame _ => 169
  | .lldpdu _ _ _ => 170
  | .packetSend _ => 171
  | .retransmitTimer _ _ => 172
  | .ackTimer _ => 173
  | .notReadyBackoff _ _ => 174
  | .msnProbe _ => 175
  | .grantAnnounce _ => 176
  | .disconnectRepeat _ => 177
  | .tombstoneExpiry _ => 178
  | .pathHoldExpiry _ _ => 179
  | .baseWinRotate _ _ => 180
  | .bucketFill => 181
  | .portSchedule _ => 182
  | .gateEntryAdvance _ => 183
  | .gateListTakeover _ => 184
  | .eqSamplePeriod => 185
  | .data _ _ => 186
  | .idle _ _ => 187
  | .replayReq _ _ => 188
  | .replayReqTimer _ => 189
  | .retrainTimeout _ => 190
  | .ident _ _ => 191
  | .laneState _ _ => 192
  | .widthReq _ _ _ => 193
  | .widthAck _ _ _ => 194
  | .sleepReq _ => 195
  | .sleepAck _ => 196
  | .sleepIdleTimer _ => 197
  | .linkWake _ => 198
  | .laneUnhealthy _ _ => 199
  | .laneStepUp _ _ => 200
  | .laneRecalDone _ _ => 201
  | .trainingDone _ _ => 202
  | .trainingTimeout _ => 203
  | .identTimeout _ => 204
  | .lldpTimeout _ => 205
  | .lossOfSignal _ => 206
  | .frameForward _ => 207
  | .ropeCallDue _ => 208
  | .ropeAckRepeat _ => 209
  | .ropeData _ _ => 210
  | .ropeConfirm _ _ => 211
  | .ropeAck _ _ => 212
  | .ropeAbort _ _ => 213
  | .ropePitchServe _ => 214
  | .pitchTimeout _ => 215
  | .ropeAbortRepeat _ => 216
  | .ropeSlotFreed _ => 217
  | .freezeDrained _ => 218
  | .freezeLimit _ => 219
  | .stubExpiry _ => 220
  | .cipherJobBegin _ => 221
  | .cipherJobDone _ _ => 222
  | .drbgReseed _ _ => 223
  | .drbgStop _ => 224
  | .limiterStep _ _ => 225
  | .powerSample _ => 226
  | .thermalShutdown => 227
  | .vinEvent _ _ => 228
  | .isolationLinkLoss => 229
  | .isolationLinkTimeout => 230
  | .stageLost => 231
  | .pwrEnAssert _ => 232
  | .pwrEnDeassert => 233
  | .powerOn _ => 234
  | .clockLoss => 235
  | .clockLockReturn => 236
  | .clockHalt => 237
  | .serdesPllLoss _ => 238
  | .pciePllLoss _ => 239
  | .bivouacDrained => 240
  | .bivouacEntryTimeout => 241
  | .bivouacWake _ => 242
  | .bivouacExitDone => 243
  | .sensorUpdate _ => 244
  | .traverseDieFollower _ => 245
  | .traverseRestartTimeout _ => 246
  | .microcodeUnitDrained _ => 247
  | .microcodeDrainTimeout _ => 248
  | .tileLost _ => 249
  | .ethFecUncorrectableRetrain _ _ => 250
  | .adminDownDrainEnd _ => 251
  | .tableCopyRebuilt _ _ => 252
  | .priReset _ => 253
  | .ibiAccept => 254
  | .ibiDisabledTimeout => 255
  | .undervoltageRecovery => 256
  | .inputInRange _ => 257
  | .powerOnHoldoff => 258
  | .isolationLinkReturn => 259
  | .centreRuntimeRestartDone => 260

end Sys2Proof
end

