-- ==== Sys2Proof/Safety.lean ====
section
/-! DEFINITION. What statements say of a run: a command completes, the device is on, a slot's command has begun, the device is consistent. -/

namespace Sys2Proof.Machine

/-- The command answers a next state, leaves the queue as it was, and the device it leaves satisfies Q. -/
def Completes (c : Instr) (s : State) (Q : Dev → Prop) : Prop := ∃ t, exec c s = .next t ∧ t.pending = s.pending ∧ Q t.dev

/-- The command answers exactly this device, the queue as it was. -/
def Gives (c : Instr) (s : State) (d : Dev) : Prop := exec c s = .next { s with dev := d }

/-- The command answers this device once the completions then due are released (R216, R227). -/
def Settles (c : Instr) (s : State) (d : Dev) : Prop := exec c s = .next { s with dev := settle d }

/-- The rails are on and the clocks run (R541 after step 13). -/
def Dev.On (d : Dev) : Prop := d.pwr.rails = .on

/-- A control die leads, and the command of a slot has begun with its effect to come: its opcode and parameters (R397, R430). -/
def CmdBegun (d : Dev) (c : CmdSlot) (op : Nat) (p : Bytes) : Prop :=
  (leader d).isSome = true ∧ ∃ m, cmdAt d c = some m ∧ m.stage = .begun ∧ m.hdr.opcode = BitVec.ofNat 16 op ∧ m.params = p

/-- A control die leads, and the command of a slot runs on until another row ends it. -/
def CmdRuns (d : Dev) (c : CmdSlot) (op : Nat) : Prop :=
  (leader d).isSome = true ∧ ∃ m, cmdAt d c = some m ∧ m.stage = .running ∧ m.hdr.opcode = BitVec.ofNat 16 op

/-- A control die that leads holds Hasp 0 (R390, R396, R398). -/
def Dev.LeadOk (d : Dev) : Prop := ∀ s : Side, d.ctl.dies.get s = .leader → (d.hasp 0).holder = some (.die s)

/-- No host port holds Hasp 0 (R390). -/
def Dev.LeaseOwn (d : Dev) : Prop := ∀ p : Side, (d.hasp 0).holder ≠ some (.port p)

/-- Device memory is in its canonical form. -/
def Dev.MemOk (d : Dev) : Prop := Memory.wf d.mem.bytes = true

/-- A control die that leads holds Hasp 0, one of 64 Hasps, and no port holds it (R389, R390, R396). -/
def Dev.LeadSound (d : Dev) : Prop := d.ctl.hasps.length = 64 ∧ d.LeadOk ∧ d.LeaseOwn

/-- The limit in force is at most 3,000 W, a limit that was set is in its range, the throttle level is at most 15 (R514, R516, R518). -/
def Dev.LimitsOk (d : Dev) : Prop := d.pwr.limitW ≤ 3000 ∧ (∀ w, d.pwr.setW = some w → 500 ≤ w ∧ w ≤ 3000) ∧ d.pwr.throttle ≤ 15

/-- Nothing waits to be released. -/
def Dev.Quiet (d : Dev) : Prop := settle1 d = none

/-- A plain packet of version 2 passes checks 1 to 4 of R255 and the meters at an Ethernet port, for queue pair q, and leaves the device as e. -/
def PktTaken (d : Dev) (port : Nat) (t : BitVec 8) (p : Pkt) (q : Qp) (e : Dev) : Prop :=
  let n := p.dstQpn.toNat
  let ten := some q.par.tenant
  d.pwr.state = .active ∧ portUp d port = true ∧ tileUp d (portTile port) = true ∧ (d.port port).ent.mode ≠ .direct
    ∧ ingressFill d port + frameLen p ≤ 1048576 ∧ pflag p pfAuth = false ∧ p.trailer.length = 4 ∧ p.trailer = toLE 4 (crc32c (coveredBytes t p)).toNat
    ∧ d.qp? n = some q ∧ q.conn.auth = none ∧ q.par.kind = .v2 ∧ q.st = .rts ∧ p.ver.toNat / 16 = 2 ∧ pktForm false t p = true
    ∧ p.srcNode = q.conn.peerNode ∧ p.srcQpn = q.conn.peerQpn
    ∧ ∃ m, meterPkt port t p q.par.tenant (count 0x0402 port ten 1 (count 0x0403 port ten (frameLen p) d)) = (false, m)
      ∧ e = m.onConn n fun c => { c with gotValid := true }

/-- Checks 5 to 7 of R255 pass: the packet is new, within the window and the grant, and of the right size. -/
def PktInOrder (q : Qp) (t : BitVec 8) (p : Pkt) : Prop :=
  q.conn.fatal = none ∧ psnBefore p.psn q.conn.cumRx = false ∧ (p.psn - q.conn.cumRx).toNat < 256
    ∧ nth q.conn.rxMap (p.psn - q.conn.cumRx).toNat false = false ∧ (isReq t = true → seqDiff p.msn q.conn.granted < 0)
    ∧ p.payload.length ≤ q.conn.mtu ∧ (t = ptOperateReq ∨ pflag p pfLast = true ∨ p.payload.length = q.conn.mtu) ∧ p.msgOffset.toNat % q.conn.mtu = 0

/-- A request runs now: nothing makes it NOT_READY, and its message is not yet answered. -/
def ReqRuns (e : Dev) (q : Qp) (t : BitVec 8) (p : Pkt) : Prop := notReadyNow e q t p = false ∧ 0 ≤ seqDiff p.msn q.conn.rxMsn

end Sys2Proof.Machine
end

