-- ==== Sys2Proof/Certificates/Slice0/Obligations.lean ====
section
/-! DEFINITION. The statements for the provers. Settles names the next state up to the release of due completions, which SettleRules describes. -/

open Sys2Proof Sys2Proof.Machine

-- The block as a whole

/-- A step takes the command at the front of the queue and runs exec on the state with the queue's rest (the model's own rule for a block; log 3 names the empty queue). -/
def Obligations.StepRunsFront : Prop :=
  ∀ (c : Instr) (rest : List Instr) (d : Dev), step { pending := c :: rest, dev := d } = exec c { pending := rest, dev := d }

/-- On an empty queue 2 ns pass (log 3): the timestamp counter counts while the rails are on, and nothing but it, the lease and the work of the AES cores changes; cores with no work and no job left do nothing; packets that their cores have opened are then taken in (R521, R400, R473, R474, R496). -/
def Obligations.IdleStep : Prop :=
  ∀ d : Dev,
    (d.On → ∃ e : Dev, step { pending := [], dev := d } = .next { pending := [], dev := openedAll e } ∧ e.pwr = { d.pwr with tsc := d.pwr.tsc + 1#64 }
      ∧ e.ctl = { d.ctl with lease := e.ctl.lease } ∧ e.ctl.lease ≤ d.ctl.lease ∧ d.ctl.lease ≤ e.ctl.lease + 1
      ∧ e.ciph = { d.ciph with cores := e.ciph.cores, jobs := e.ciph.jobs, rotate := e.ciph.rotate, drbgs := e.ciph.drbgs }
      ∧ ((∀ x ∈ d.ciph.cores, x.load = 0) → (∀ j ∈ d.ciph.jobs, j.left = 0) → e.ciph = d.ciph)
      ∧ e = { d with pwr := e.pwr, ctl := e.ctl, ciph := e.ciph }
      ∧ (d.ciph.opening = [] → openedAll e = e))
    ∧ (d.pwr.rails = .off → step { pending := [], dev := d } = .next { pending := [], dev := d })

/-- Every command answers a next state and leaves the waiting commands alone: the block never faults and refuses nothing. -/
def Obligations.EveryCommandAnswers : Prop :=
  ∀ (c : Instr) (s : State), ∃ t, exec c s = .next t ∧ t.pending = s.pending

/-- Commands that act on a device whose rails are off: the power pins and the input (R511, R580). -/
def powerPin : Instr → Prop
  | .pwrEnAssert _ => True
  | .pwrEnDeassert => True
  | .powerOnHoldoff => True
  | .inputInRange _ => True
  | .vinEvent _ _ => True
  | .powerOn _ => True
  | _ => False

/-- With the rails off the device does nothing until a power pin or the input changes (R512, R580). -/
def Obligations.RailsOffInert : Prop :=
  ∀ (c : Instr) (s : State), s.dev.pwr.rails = .off → ¬ powerPin c → exec c s = .next s

/-- The Reset column, read through BAR0 at State.reset: registers whose Reset value is not 0, and one that is (R107, R109, R188, R191, R307, R380, R392, R442, R507, R508, R525, R542, R543, R568). -/
def Obligations.ResetRegisters : Prop :=
  let r := readWord State.reset.dev .west
  r 0x2000 = 0x00400000 ∧ r 0x2200 = 0x08000000 ∧ r 0x2400 = 0x200 ∧ r 0xA0008 = 0x40 ∧ r 0xA001C = 0x32 ∧ r 0xA0108 = 0x40 ∧ r 0xA011C = 0x32
    ∧ r 0x9800C = 1 ∧ r 0x10010 = 0 ∧ r 0x10014 = 0 ∧ r 0x30010 = 0x40 ∧ r 0x31310 = 0x40 ∧ r 0x80018 = 0x40 ∧ r 0x80028 = 0x301
    ∧ r 0x70000 = 2 ∧ r 0x40010 = 0x03E803E8 ∧ r 0x48008 = 1 ∧ r 0x51000 = 0xFF000000 ∧ r 0x51004 = 0xFFFF

-- Register access

/-- A register of stack k's base die can be reached now: the MGT class of its stack link has credits, and nothing waits for the die (R5, R13, R20). -/
def DieFree (d : Dev) (k : Nat) : Prop :=
  mgtOpen d k = true ∧ ∀ c ∈ d.fab.crossings, c.base ≠ some k

/-- What enters a tile's switch at an input port can go on its flow now. -/
def Crosses (d : Dev) (u : Flit) (entry : Nat) : Prop := flowOpen d.fab u entry = true

/-- A write that is not naturally aligned or not 4 or 8 bytes wide is discarded, counted as HOST_BAD_ACCESS and logged through AER, and such a read ends in a Completer Abort; one to an unassigned offset is discarded and counted as HOST_UNMAPPED, and such a read returns 0 (R4, R388, R415). Any other read outside the base dies and MBX_DATA returns the register or the pair. The state is that of the counting alone. A write to a read-only register is discarded without error (R6): the CLK and LOG blocks, the LNK mirror, the counts and selections of EVC, DEV_STACK_CE to DEV_STACK_RETIRE and the engine and rope groups of DEV. -/
def Obligations.BadRegisterWrites : Prop :=
    (∀ (s : State) (p : Side) (off size : Nat) (v : BitVec 64) (rq : BitVec 16), s.dev.On → off < 0x4000000 →
      ((size ≠ 4 ∧ size ≠ 8 ∨ off % size ≠ 0) →
        Settles (.registerWrite (.bar p) off size v rq) s
          (violate p 0x0300 true (aerLog p .completerAbort s.dev)))
      ∧ ((size = 4 ∨ size = 8) → off % size = 0 → (0xB0000 ≤ off ∧ off < 0x100000 ∨ 0x1100000 ≤ off ∧ off < 0x2000000 ∨ 0x2008100 ≤ off) →
        Settles (.registerWrite (.bar p) off size v rq) s (logFirst60 0x0301 p.idx 0x0501 4 p.idx [0x0301, off] (violate p 0x0301 false s.dev))))
    ∧ (∀ (s : State) (p : Side) (off size : Nat) (v : BitVec 64) (rq : BitVec 16), s.dev.On → (size = 4 ∨ size = 8) → off % size = 0 →
      (0x44000 ≤ off ∧ off < 0x48000 ∨ 0x60000 ≤ off ∧ off < 0x70000 ∨ 0x90000 ≤ off ∧ off < 0xA0000 ∨ 0x50000 ≤ off ∧ off < 0x52000
        ∨ 0x2000 ≤ off ∧ off < 0x10000 ∨ 0x1000 ≤ off ∧ off < 0x1400 ∧ 8 ≤ off % 32 ∧ DieFree s.dev ((off - 0x1000) / 32)) →
      Settles (.registerWrite (.bar p) off size v rq) s s.dev)
    ∧ (∀ (d : Dev) (p : Side), ∃ h, (aerLog p .completerAbort d).host.get p =
        { d.host.get p with aer := { (d.host.get p).aer with counts := aerAdd .completerAbort (d.host.get p).aer.counts, header := h } })
    ∧ (∀ (s : State) (p : Side) (off size : Nat), s.dev.On → off < 0x4000000 →
      ((size ≠ 4 ∧ size ≠ 8 ∨ off % size ≠ 0) →
        Settles (.mbxDataRead (.port p) ⟨off, size⟩) s (emit (.completerAbort p) (violate p 0x0300 true (aerLog p .completerAbort s.dev))))
      ∧ ((size = 4 ∨ size = 8) → off % size = 0 → assigned off = false →
        Settles (.mbxDataRead (.port p) ⟨off, size⟩) s
          (emit (.regRead p 0#64) (logFirst60 0x0301 p.idx 0x0501 4 p.idx [0x0301, off] (violate p 0x0301 false s.dev))))
      ∧ (off % size = 0 → assigned off = true → dieOf off = none → mbxAt off = none →
        (size = 4 → Settles (.mbxDataRead (.port p) ⟨off, size⟩) s (emit (.regRead p (BitVec.ofNat 64 (readWord s.dev p off))) s.dev))
        ∧ (size = 8 → Settles (.mbxDataRead (.port p) ⟨off, size⟩) s (emit (.regRead p (BitVec.ofNat 64 (readPair s.dev p off))) s.dev))))

/-- RW, W1C and WO fields by their access type (R6): FAULT_LIMIT of the writer's own port is set; each 1 of DEV_STACK_STATUS clears its flag and each 0 leaves it, and the write waits while its base die cannot be reached (R5, R13, R20); MODE of LEGACY_CTRL is set. A write to a field that needs a Hasp the writer does not hold is discarded, counted as HASP_MISUSE and logged at most once per 60 s; the holder's write takes effect (R415, R434, R508). Of the control dies only the leader reaches the mailboxes, and it clears the flags of its side: of mailboxes 1 and 3 as their sender, of 0 and 2 as their receiver (R401, R402, R408). A host sets a completion timeout within R386's ranges, and any other value leaves it as it was; a malformed TLP is logged through AER and reported unless masked (R415). -/
def Obligations.RegisterWriteFields : Prop :=
    (∀ (s : State) (p : Side) (v : BitVec 64) (rq : BitVec 16), s.dev.On →
      Settles (.registerWrite (.bar p) (0xA001C + 0x100 * p.idx) 4 v rq) s (s.dev.onXPort p fun x => { x with limitMs := v.extractLsb' 0 16 })
      ∧ (∀ k, k < 32 → DieFree s.dev k → Settles (.registerWrite (.bar p) (0x1000 + 32 * k) 4 v rq) s
          (s.dev.onStk k fun x => { x with ueSeen := x.ueSeen && !v.getLsbD 9, ceSeen := x.ceSeen && !v.getLsbD 8 }))
      ∧ (∀ k, k < 32 → ¬ DieFree s.dev k → Settles (.registerWrite (.bar p) (0x1000 + 32 * k) 4 v rq) s (s.dev.onFab fun f =>
          { f with crossings := f.crossings ++ [⟨⟨.mgt, stackTile k, stackTile k⟩, inMgt, some k, .register ⟨p, 0x1000 + 32 * k, 4, some (v, rq)⟩⟩] }))
      ∧ Settles (.registerWrite (.bar p) 0x70000 4 (v &&& 2#64) rq) s
          (s.dev.onPwr fun w => { w with legacy := { w.legacy with live := v.getLsbD 1 } }))
    ∧ (∀ (s : State) (p : Side) (v : BitVec 64) (rq : BitVec 16), s.dev.On →
      ((s.dev.hasp 4).holder ≠ some (.port p) →
        Settles (.registerWrite (.bar p) 0x80028 4 v rq) s
          (logFirst60 0x0305 p.idx 0x0501 4 p.idx [0x0305, 0x80028] (count 0x0305 p.idx none 1 s.dev)))
      ∧ ((s.dev.hasp 4).holder = some (.port p) →
        Settles (.registerWrite (.bar p) 0x80028 4 v rq) s
          (s.dev.onCiph fun c => { c with jobWeight := v.extractLsb' 0 4, transportWeight := v.extractLsb' 8 4 })))
    ∧ (∀ (s : State) (x : Side) (k size : Nat) (v : BitVec 64) (rq : BitVec 16), s.dev.On → k < 6 →
      (leader s.dev ≠ some x → ∀ off, Settles (.registerWrite (.die x) off size v rq) s s.dev)
      ∧ (leader s.dev = some x → k = 1 ∨ k = 3 → Settles (.registerWrite (.die x) (0x20008 + 32 * k) size v rq) s (s.dev.onMbx k fun m =>
          { m with receiverReset := m.receiverReset && !v.getLsbD 6, timeout := m.timeout && !v.getLsbD 5, taken := m.taken && !v.getLsbD 4
                   reject := m.reject && !v.getLsbD 3 }))
      ∧ (leader s.dev = some x → k = 0 ∨ k = 2 → Settles (.registerWrite (.die x) (0x20008 + 32 * k) size v rq) s (s.dev.onMbx k fun m =>
          { m with senderReset := m.senderReset && !v.getLsbD 7 }))
      ∧ (leader s.dev = some x → k = 4 ∨ k = 5 → Settles (.registerWrite (.die x) (0x20008 + 32 * k) size v rq) s (s.dev.onMbx k id)))
    ∧ (∀ (s : State) (p : Side) (off size : Nat) (v : BitVec 64) (rq : BitVec 16) (e : AerError), s.dev.On →
      (50 ≤ v.toNat → v.toNat ≤ 64000000 → Settles (.registerWrite (.config p .completionTimeout) off size v rq) s
        (s.dev.onHost p fun h => { h with config := { h.config with completionTimeout := v.toNat } }))
      ∧ (v.toNat < 50 ∨ 64000000 < v.toNat → Settles (.registerWrite (.config p .completionTimeout) off size v rq) s s.dev)
      ∧ (e ∈ (s.dev.host.get p).aer.masked → Settles (.registerWrite (.malformed p e) off size v rq) s (aerLog p e s.dev))
      ∧ (e ∉ (s.dev.host.get p).aer.masked → Settles (.registerWrite (.malformed p e) off size v rq) s
          (emit (.errMessage p e ((s.dev.host.get p).aer.severe.contains e)) (aerLog p e s.dev))))

-- Command rings

/-- PROD, and ENABLE set and cleared, by the ring's own port (R440, R442, R443). -/
def Obligations.CommandRingRegisters : Prop :=
  ∀ (s : State) (p : Side) (k : Nat) (v : BitVec 32), s.dev.On →
    let r := s.dev.ring p k
    let n := ringSlots r
    let i := v.toNat % 65536
    (r.enable = true → i < 2 * n → ringSub n i r.cons.toNat ≤ n → ringSub n r.prod.toNat r.cons.toNat ≤ ringSub n i r.cons.toNat →
      Gives (.cmdRingProdWrite p p k v) s
        (s.dev.onRing p k fun x => { x with prod := BitVec.ofNat 16 i, visible := if i = x.prod.toNat then x.visible else x.visible ++ [(i, now s.dev)] }))
    ∧ ((r.enable = false ∨ 2 * n ≤ i ∨ n < ringSub n i r.cons.toNat ∨ ringSub n i r.cons.toNat < ringSub n r.prod.toNat r.cons.toNat) →
      Gives (.cmdRingProdWrite p p k v) s (s.dev.onRing p k fun x => { x with prodInvalid := true }))
    ∧ (Gives (.cmdRingEnable p p k v) s (s.dev.onRing p k fun x =>
        if x.enable then { x with vector := v.extractLsb' 16 11 }
        else { x with vector := v.extractLsb' 16 11, sizeLog2 := v.extractLsb' 4 4, enable := true, prod := 0#16, cons := 0#16, visible := [], refetch := 0, lateTo := none }))
    ∧ (Gives (.cmdRingDisable p p k v) s (s.dev.onRing p k fun x =>
        { x with vector := v.extractLsb' 16 11, enable := false, refetch := 0, sizeLog2 := if x.enable then x.sizeLog2 else v.extractLsb' 4 4,
                 stopping := x.stopping || (x.enable && x.cmd.isSome) }))
    ∧ Gives (.cmdRingProdWrite p.other p k v) s (hostWrongPort p.other s.dev)

/-- The leader fetches the next packet of the first ready slot after the one last served. A packet that passes checks 2 to 8 waits in its slot with its holds known; one whose PHASE does not match is read again; one that cannot be read, or fails a check, is answered (R421, R428 to R430). A fetched command begins when every hold is free: one of a ring passes checks 9 to 11 or is answered, one of the sideband takes the Hasp that it needs for the leader, or is answered BUSY (R430, R433, R435); a device in Bivouac wakes first where the command needs it awake (R538). A deadline that ends before the command began answers TIMEOUT (R431). A sideband packet waits to be fetched (R435). -/
def Obligations.CommandFetchedAndBegun : Prop :=
    (∀ (s : State) (i : Nat), s.dev.On → (leader s.dev).isSome → s.dev.ctl.handover = none → i < 9 →
      ((List.range 9).map fun j => (s.dev.ctl.turn + 1 + j) % 9).find? (fun j => fetchReady s.dev (slotOf j)) = some i →
      let kept (d : Dev) : Prop := d.ctl.turn = i ∧ d.ctl.hasps = s.dev.ctl.hasps ∧ d.mem = s.dev.mem ∧ d.q = s.dev.q ∧ d.ten = s.dev.ten ∧ d.pwr = s.dev.pwr
      let waits (c : CmdSlot) (b : Bytes) (d : Dev) : Prop := ∃ m, cmdAt d c = some m ∧ m.stage = .fetched ∧ m.hdr = parseHdr b
        ∧ m.params = (b.drop 64).take ((parseHdr b).length - 64) ∧ m.holds = holdsOf (parseHdr b).opcode.toNat m.params ∧ m.ran = false
      (∀ (p : Side) (k : Nat), slotOf i = .ring p k → k < (s.dev.ctl.rings.get p).length →
        let r := s.dev.ring p k
        let answered (d : Dev) : Prop := cmdAt d (.ring p k) = none ∧ (d.ring p k).cons = BitVec.ofNat 16 (ringAdd (ringSlots r) r.cons.toNat 1)
        let read (d : Dev) : Prop := ∃ l, d.out = s.dev.out ++ Output.slotRead p (r.base.toNat + r.cons.toNat % ringSlots r * 4096) 64 :: l
        ((s.dev.host.get p).heldWrites = [] → Completes (.commandFetch none) s fun d => kept d ∧ answered d ∧ read d)
        ∧ ∀ b : Bytes,
          (tb (u8 b 2) 0 = phaseOf (ringSlots r) r.cons.toNat → packetCheck (.ring p k) b = none → (parseHdr b).deadline = 0 →
            Completes (.commandFetch (some b)) s fun d => kept d ∧ waits (.ring p k) b d
              ∧ (∀ m, cmdAt d (.ring p k) = some m → m.idx = r.cons.toNat) ∧ read d)
          ∧ (tb (u8 b 2) 0 ≠ phaseOf (ringSlots r) r.cons.toNat →
            Completes (.commandFetch (some b)) s fun d => kept d ∧ cmdAt d (.ring p k) = none ∧ (d.ring p k).refetch = 1 ∧ read d)
          ∧ (tb (u8 b 2) 0 = phaseOf (ringSlots r) r.cons.toNat → packetCheck (.ring p k) b ≠ none → (s.dev.host.get p).heldWrites = [] →
            Completes (.commandFetch (some b)) s fun d => kept d ∧ answered d ∧ read d))
      ∧ (∀ b, slotOf i = .sideband → s.dev.ctl.side.request = some b → 64 ≤ b.length → tb (u8 b 2) 0 = true → packetCheck .sideband b = none →
        (parseHdr b).deadline = 0 → ∀ x, Completes (.commandFetch x) s fun d => kept d ∧ waits .sideband b d ∧ d.ctl.side.request = none))
    ∧ (∀ (s : State) (c : CmdSlot) (m : Cmd) (l : Side), s.dev.On → cmdAt s.dev c = some m → m.stage = .fetched → leader s.dev = some l →
      let go := setCmd c (some { m with stage := .begun, ran := true, began := now s.dev, epoch := leadEpoch s.dev }) s.dev
      (s.dev.ctl.handover = none → s.dev.pwr.state = .active → tenantHeld s.dev m = false → holdsFree s.dev c m = true →
        (∀ (p : Side) (k : Nat), c = .ring p k →
          (haspCheck s.dev p m = none → Gives (.commandBegin c) s go)
          ∧ (∀ st o, haspCheck s.dev p m = some (st, o) → Gives (.commandBegin c) s (finishAt c st o go)))
        ∧ (c = .sideband →
          let need := haspNeeded m.hdr.opcode.toNat m.params
          (need = 0 ∨ (s.dev.hasp need).holder = some (.die l) → Gives (.commandBegin c) s go)
          ∧ (0 < need → need < s.dev.ctl.hasps.length → (s.dev.hasp need).holder = none → Completes (.commandBegin c) s fun d =>
              (d.hasp need).holder = some (.die l) ∧ ∃ x, cmdAt d c = some x ∧ x.stage = .begun ∧ x.params = m.params ∧ x.hdr.opcode = m.hdr.opcode)
          ∧ (∀ a, 0 < need → (s.dev.hasp need).holder = some a → a ≠ .die l → Gives (.commandBegin c) s (finish c stBusy go))))
      ∧ (s.dev.ctl.handover = none → s.dev.pwr.state = .bivouac → tenantHeld s.dev m = false → holdsFree s.dev c m = true →
        asleepOk m.hdr.opcode.toNat = false → withdraws m = false → Gives (.commandBegin c) s (wakeDev s.dev))
      ∧ (m.hdr.deadline ≠ 0 → Gives (.commandDeadline c) s (answer c stTimeout 0 none none s.dev)))
    ∧ (∀ (s : State) (c : CmdSlot), s.dev.On → (leader s.dev = none ∨ cmdAt s.dev c = none) →
      Gives (.commandBegin c) s s.dev ∧ Gives (.commandDeadline c) s s.dev)
    ∧ (∀ (s : State) (b : Option Bytes), s.dev.On → leader s.dev = none ∨ s.dev.ctl.handover.isSome = true ∨ (∀ j < 9, fetchReady s.dev (slotOf j) = false) →
      Gives (.commandFetch b) s s.dev)

/-- What an answer does on a ring whose port can issue: the 32 B reply is written into the reply slot of the command's index, CONS moves past the command, and the ring's slot is free (R424 to R426, R436). On the sideband a response message with the reply leaves and the slot is free (R435). While no control die leads nothing is answered (R397, R399, R432). -/
def Obligations.ReplyWritten : Prop :=
    (∀ (d : Dev) (p : Side) (k st detail : Nat) (m : Cmd), cmdAt d (.ring p k) = some m → m.orphan = false → canIssue d p = true → (leader d).isSome →
      (d.host.get p).heldWrites = [] → k < (d.ctl.rings.get p).length → tb m.hdr.hflags.toNat 1 = true → (d.ring p k).stopping = false →
      let r := d.ring p k
      let g := (d.host.get p).config
      let e := answer (.ring p k) st detail none none d
      e.out = d.out ++ [.hostWrite ⟨p, none, r.replyBase.toNat + m.idx % ringSlots r * 32,
          replyBytes d m st detail 0 m.idx (phaseOf (ringSlots r) m.idx), g.maxPayload, false⟩]
        ∧ cmdAt e (.ring p k) = none ∧ (e.ring p k).cons = BitVec.ofNat 16 (ringAdd (ringSlots r) m.idx 1)
        ∧ e.mem = d.mem ∧ e.q = d.q ∧ e.ctl.hasps = d.ctl.hasps ∧ e.ctl.mbx = d.ctl.mbx ∧ e.net.ports = d.net.ports)
    ∧ (∀ (d : Dev) (st detail : Nat) (m : Cmd), cmdAt d .sideband = some m → (leader d).isSome → m.hdr.hasp = 0 →
      let e := answer .sideband st detail none none d
      e.out = d.out ++ [.sideband ([0x7E#8, 0x1D#8, 0x5A#8, 0x02#8, 0x00#8] ++ replyBytes d m st detail 0 0 true)]
        ∧ cmdAt e .sideband = none ∧ e.mem = d.mem ∧ e.q = d.q ∧ e.ctl.hasps = d.ctl.hasps ∧ e.ctl.mbx = d.ctl.mbx ∧ e.net.ports = d.net.ports)
    ∧ (∀ (d : Dev) (c : CmdSlot) (st detail : Nat), leader d = none → answer c st detail none none d = d)

-- Leadership

/-- Renewal sets the lease to 1 ms without changing EPOCH; expiry with no die able to lead frees Hasp 0, raises EPOCH by one and broadcasts it, and with a follower raises it by two and makes it leader (R396). A starting die leads when Hasp 0 is free, CDW at once and CDE after its delay, and otherwise follows (R398). A die that fences or is lost holds no Hasp from 1 to 63 afterwards, while Hasp 0 and its EPOCH stay as they were; a fenced die becomes a follower again (R394, R397 to R399). -/
def Obligations.LeadershipRules : Prop :=
    (∀ (s : State) (k : Side), s.dev.On →
      ((leader s.dev).isSome → Gives .leaseRenewal s (s.dev.onCtl fun c => { c with lease := 1000 }))
      ∧ ((s.dev.hasp 0).holder = some (.die k) → s.dev.ctl.dies.get k = .fenced → 0 < s.dev.ctl.hasps.length →
        (s.dev.ctl.dies.get k.other ≠ .follower →
          Gives .leaseExpiry s ((epochCast { s.dev with ctl := { s.dev.ctl with
            hasps := modAt s.dev.ctl.hasps 0 fun h => { epoch := h.epoch + 1#32, token := 0#16, holder := none } } }).onCtl fun c => { c with lease := 0 }))
        ∧ (s.dev.ctl.dies.get k.other = .follower →
          Completes .leaseExpiry s fun d => d.ctl.dies.get k.other = .leader ∧ (d.hasp 0).holder = some (.die k.other)
            ∧ leadEpoch d = leadEpoch s.dev + 2#32 ∧ d.ctl.lease = 1000)))
    ∧ (∀ s : State, s.dev.On → 0 < s.dev.ctl.hasps.length →
      (s.dev.ctl.dies.w = .starting → (s.dev.hasp 0).holder = none →
        Completes (.controlDieStart .west) s fun d => d.ctl.dies.w = .leader ∧ d.ctl.dies.e = s.dev.ctl.dies.e ∧ (d.hasp 0).holder = some (.die .west)
          ∧ leadEpoch d = leadEpoch s.dev + 1#32)
      ∧ (s.dev.ctl.dies.w = .starting → (s.dev.hasp 0).holder ≠ none →
        Gives (.controlDieStart .west) s (s.dev.onCtl fun c => { c with dies := c.dies.set .west .follower }))
      ∧ (s.dev.ctl.dies.e = .starting → (s.dev.hasp 0).holder ≠ none →
        Gives .cdeAcquireDelay s (s.dev.onCtl fun c => { c with dies := c.dies.set .east .follower }))
      ∧ (s.dev.ctl.dies.e = .starting → (s.dev.hasp 0).holder = none →
        Completes .cdeAcquireDelay s fun d => d.ctl.dies.e = .leader ∧ (d.hasp 0).holder = some (.die .east)))
    ∧ (∀ (s : State) (k : Side), s.dev.On → s.dev.ctl.hasps.length = 64 → s.dev.svc.traverse = none →
      let gone (e : DieState) (d : Dev) : Prop :=
        d.ctl.dies.get k = e ∧ d.ctl.dies.get k.other = s.dev.ctl.dies.get k.other ∧ d.hasp 0 = s.dev.hasp 0
          ∧ (∀ n, 0 < n → n < 64 → (d.hasp n).holder ≠ some (.die k))
          ∧ (∀ n, 0 < n → n < 64 → (s.dev.hasp n).holder ≠ some (.die k) → d.hasp n = s.dev.hasp n)
      (s.dev.ctl.dies.get k = .leader → Completes (.fenceNoRenewal k) s (gone .fenced))
      ∧ (s.dev.ctl.dies.get k = .follower → Completes (.fenceUnreachable k) s (gone .fenced))
      ∧ (s.dev.ctl.dies.get k ≠ .lost → Completes (.controlDieLost k) s (gone .lost))
      ∧ (s.dev.ctl.dies.get k = .fenced → (s.dev.hasp 0).holder ≠ none →
        Gives (.fencedRecovery k) s (s.dev.onCtl fun c => { c with dies := c.dies.set k .follower })))

-- Hasps, the Latch, mailboxes

/-- ACQUIRE and RELEASE by a host port of Hasps 1 to 63: the table of R391. The Latch follows the rules of a Hasp, and its RELEASE is refused while the job ring is enabled (R476). -/
def Obligations.HaspAndLatch : Prop :=
    (∀ (s : State) (p : Side) (n : Nat) (t : BitVec 16), s.dev.On → 0 < n → n < 64 → t ≠ 0#16 → s.dev.ctl.hasps.length = 64 →
      let a := Agent.port p
      let others (d : Dev) : Prop := (∀ m, m ≠ n → d.hasp m = s.dev.hasp m) ∧ d.mem = s.dev.mem ∧ d.q = s.dev.q ∧ d.ctl.mbx = s.dev.ctl.mbx ∧ d.pwr = s.dev.pwr
      ((s.dev.hasp n).holder = none →
        Completes (.haspAcquire a n t) s fun d => d.hasp n = { epoch := (s.dev.hasp n).epoch + 1#32, token := t, holder := some a } ∧ others d)
      ∧ ((s.dev.hasp n).holder ≠ none → Gives (.haspAcquire a n t) s s.dev)
      ∧ ((s.dev.hasp n).holder = some a → (s.dev.hasp n).token = t →
        Completes (.haspRelease a n t) s fun d => d.hasp n = { epoch := (s.dev.hasp n).epoch + 1#32, token := 0#16, holder := none } ∧ others d)
      ∧ ((s.dev.hasp n).holder ≠ some a ∨ (s.dev.hasp n).token ≠ t →
        Gives (.haspRelease a n t) s (count 0x0305 p.idx none 1 s.dev)))
    ∧ (∀ (s : State) (p : Side) (t : BitVec 16), s.dev.On → t ≠ 0#16 →
      let a := Agent.port p
      (s.dev.ciph.latch.holder = none →
        Gives (.latchAcquire a t) s (s.dev.onCiph fun c => { c with latch := { epoch := c.latch.epoch + 1#32, token := t, holder := some a } }))
      ∧ (s.dev.ciph.latch.holder ≠ none → Gives (.latchAcquire a t) s s.dev)
      ∧ (s.dev.ciph.latch.holder = some a → s.dev.ciph.latch.token = t → s.dev.ciph.enable = false →
        Gives (.latchRelease a t) s (s.dev.onCiph fun c => { c with latch := { epoch := c.latch.epoch + 1#32, token := 0#16, holder := none } }))
      ∧ (s.dev.ciph.enable = true → Gives (.latchRelease a t) s (count 0x0305 p.idx none 1 s.dev)))

/-- A mailbox carries one word from its sender to its receiver, by the host ports and the leading control die alike: the write sets FULL and signals the receiver, a write while FULL is rejected (a die's by its bus), the receiver's read returns the word, clears FULL, sets TAKEN and signals the sender, a 4 B read returns its half, a read of an empty mailbox returns 0, WITHDRAW discards the word, TIMEOUT leaves it (R4, R401 to R404, R409). -/
def Obligations.MailboxRules : Prop :=
  ∀ (s : State) (k : Nat) (w : BitVec 64), s.dev.On → k < 6 → s.dev.ctl.mbx.length = 6 →
    let rest (d : Dev) : Prop := (∀ j, j ≠ k → d.mbx j = s.dev.mbx j) ∧ d.ctl.hasps = s.dev.ctl.hasps ∧ d.mem = s.dev.mem ∧ d.q = s.dev.q
    let at_ := 0x20000 + 32 * k
    let taken := signalParty (mbxSender k) 2 (s.dev.onMbx k fun m => { m with word := 0#64, full := false, taken := true })
    let word := (s.dev.mbx k).word
    (∀ p, mbxSender k = some p → (s.dev.mbx k).full = false →
      Completes (.mbxDataWrite (.port p) k w) s fun d => d.mbx k = { s.dev.mbx k with word := w, full := true } ∧ rest d)
    ∧ (∀ p, mbxSender k = some p → (s.dev.mbx k).full = true →
      Completes (.mbxDataWrite (.port p) k w) s fun d => d.mbx k = { s.dev.mbx k with reject := true } ∧ rest d)
    ∧ (∀ p, mbxReceiver k = some p → (s.dev.mbx k).full = true →
      Settles (.mbxDataRead (.port p) ⟨at_, 8⟩) s (emit (.regRead p word) taken)
      ∧ Settles (.mbxDataRead (.port p) ⟨at_, 4⟩) s (emit (.regRead p (word &&& 0xFFFFFFFF#64)) taken)
      ∧ Settles (.mbxDataRead (.port p) ⟨at_ + 4, 4⟩) s (emit (.regRead p (word >>> 32)) taken))
    ∧ (∀ p, mbxReceiver k ≠ some p ∨ (s.dev.mbx k).full = false →
      Settles (.mbxDataRead (.port p) ⟨at_, 8⟩) s (emit (.regRead p 0#64) s.dev))
    ∧ (∀ p, mbxSender k = some p → (s.dev.mbx k).full = true →
      Gives (.withdraw (.port p) k) s (s.dev.onMbx k fun m => { m with word := 0#64, full := false }))
    ∧ ((s.dev.mbx k).full = true → Completes (.mbxTimeout k) s fun d => d.mbx k = { s.dev.mbx k with timeout := true } ∧ rest d)
    ∧ (∀ x, leader s.dev = some x →
      (mbxSender k = none → (s.dev.mbx k).full = false →
        Completes (.mbxDataWrite (.die x) k w) s fun d => d.mbx k = { s.dev.mbx k with word := w, full := true } ∧ rest d)
      ∧ (mbxSender k = none → (s.dev.mbx k).full = true →
        Gives (.mbxDataWrite (.die x) k w) s (emit (.dieBusError x) s.dev)
        ∧ Gives (.withdraw (.die x) k) s (s.dev.onMbx k fun m => { m with word := 0#64, full := false }))
      ∧ (mbxReceiver k = none → (s.dev.mbx k).full = true → Settles (.mbxDataRead (.die x) ⟨at_, 8⟩) s (emit (.dieRead x word) taken))
      ∧ (mbxReceiver k = none → (s.dev.mbx k).full = false → Settles (.mbxDataRead (.die x) ⟨at_, 8⟩) s (emit (.dieRead x 0#64) s.dev)))

-- MSI-X, doorbells, host ports, the sideband

/-- A doorbell of the page's tenant on its bound port crosses the package in the MGT class (R20, R30) and gives the ring its new index: for a producer index within the ring, and for a consumer index, after which held entries are written (R196 to R199, R227, R232, R449). Arming a completion queue that holds no entry arms it, and one that holds an entry sends its message at once (R229). A write to a tenant page from a port or requester the tenant does not accept is discarded and counted (R415, R449). -/
def Obligations.DoorbellsTake : Prop :=
    (∀ (s : State) (p : Side) (rq : BitVec 16) (n : Nat) (num i : BitVec 16) (t : Tenant), s.dev.On → s.dev.pwr.state = .active →
      pageTenant s.dev p rq n = some t → t.st = .active →
      (∀ q, Crosses s.dev (bellFlow p (qpTile num.toNat % 8)) inHost → s.dev.qp? num.toNat = some q → q.par.tenant = n → q.st = .rts →
        (q.par.sqStanding = false → prodOk (sqSize q) q.sq.p q.sq.c i.toNat = true →
          Settles (.sqDoorbell p rq n num i false) s
            (count 0x030F p.idx (some n) 1 (s.dev.onQp num.toNat fun x => { x with sq := { q.sq with p := i.toNat } })))
        ∧ (q.par.noRq = false → q.par.rqStanding = false → prodOk (rqSize q) q.rq.p q.rq.c i.toNat = true →
          Settles (.rqDoorbell p rq n num i false) s
            (count 0x030F p.idx (some n) 1 (s.dev.onQp num.toNat fun x => { x with rq := { q.rq with p := i.toNat } })))
        ∧ (q.par.sqStanding = false → prodOk (sqSize q) q.sq.p q.sq.c i.toNat = false →
          Settles (.sqDoorbell p rq n num i false) s (bellReject n s.dev)))
      ∧ (∀ c, Crosses s.dev (bellFlow p (cqTile num.toNat % 8)) inHost → s.dev.cq? num.toNat = some c → c.tenant = n → consOk (cqSize c) c.p c.c i.toNat = true →
          let moved (d : Dev) : Dev := cqDrain num.toNat (d.onCq num.toNat fun x => { x with c := i.toNat, timer := x.timer && x.c = i.toNat })
          Settles (.cqDoorbell p rq n num i) s (count 0x030F p.idx (some n) 1 (moved s.dev))
          ∧ Settles (.arm p rq n false num i) s (count 0x030F p.idx (some n) 1 (armCq num.toNat (moved s.dev))))
      ∧ (¬ Crosses s.dev (bellFlow p (qpTile num.toNat % 8)) inHost → ∀ a, Settles (.sqDoorbell p rq n num i a) s (s.dev.onFab fun f =>
          { f with crossings := f.crossings ++ [⟨bellFlow p (qpTile num.toNat % 8), inHost, none, .bell p rq n 0 num i a⟩] }))
      ∧ (s.dev.ten? n = some t → consOk (evSize t) t.ev.p t.ev.c i.toNat = true →
          Settles (.eventRingDoorbell p rq n 0#16 i) s
            (count 0x030F p.idx (some n) 1 (eventDrain n (s.dev.onTen n fun x => { x with ev := { x.ev with c := i.toNat } }))))
      ∧ (s.dev.ten? n = some t → consOk (evSize t) t.ev.p t.ev.c i.toNat = true →
          Settles (.arm p rq n true 0#16 i) s
            (count 0x030F p.idx (some n) 1 (armEv n (eventDrain n (s.dev.onTen n fun x => { x with ev := { x.ev with c := i.toNat } }))))))
    ∧ (∀ (d : Dev) (n : Nat) (c : Cq), d.cq? n = some c → c.vector ≠ 0xFFFF#16 →
      (c.p = c.c → armCq n d = d.onCq n fun x => { x with armed := true })
      ∧ (c.p ≠ c.c → armCq n d = msix (tenPort d c.tenant) c.vector.toNat (d.onCq n fun x => { x with armed := false })))
    ∧ (∀ (s : State) (p : Side) (rq : BitVec 16) (n : Nat) (num i : BitVec 16) (a : Bool), s.dev.On → pageTenant s.dev p rq n = none →
      Settles (.sqDoorbell p rq n num i a) s (hostWrongPort p s.dev) ∧ Settles (.cqDoorbell p rq n num i) s (hostWrongPort p s.dev))

/-- After a PORT event the port issues no request until its link is up and Bus Master Enable is set again, and it holds no Hasp from 1 to 63; a function-level reset keeps the link (R394, R410, R417, R587). -/
def Obligations.PortEvents : Prop :=
  ∀ (s : State) (p : Side), s.dev.On →
    let dropped (d : Dev) : Prop := canIssue d p = false ∧ (d.host.get p).busMaster = false ∧ (d.host.get p).d3hot = false
      ∧ ∀ n, 0 < n → n < 64 → (d.hasp n).holder ≠ some (.port p)
    (Completes (.perstN p) s fun d => dropped d ∧ (d.host.get p).linkUp = false)
    ∧ (Completes (.hotReset p) s fun d => dropped d ∧ (d.host.get p).linkUp = false)
    ∧ ((s.dev.host.get p).linkUp = true → Completes (.linkDown p) s fun d => dropped d ∧ (d.host.get p).linkUp = false)
    ∧ (Completes (.functionLevelReset p) s fun d => dropped d ∧ (d.host.get p).linkUp = (s.dev.host.get p).linkUp)

/-- The link, Bus Master Enable and D3hot as the host sets them (R384, R387, R417). A vector's mask clears and its pending message is sent once (R412). -/
def Obligations.HostPortConditions : Prop :=
    (∀ (s : State) (p : Side), s.dev.On →
      (∀ width gen flit, Completes (.hostLinkUp p width gen flit) s fun d =>
        (d.host.get p).linkUp = true ∧ (d.host.get p).width = width ∧ (d.host.get p).gen = gen ∧ (d.host.get p).flit = flit
          ∧ ((d.host.get p).belowRecord = true ↔ (s.dev.host.get p).recordWidth ≠ 0 ∧ width < (s.dev.host.get p).recordWidth))
      ∧ (Completes (.busMasterEnableSet p) s fun d => (d.host.get p).busMaster = true ∧ (d.host.get p).linkUp = (s.dev.host.get p).linkUp)
      ∧ Gives (.busMasterEnableClear p) s (s.dev.onHost p fun h => { h with busMaster := false })
      ∧ Gives (.d3hotEntry p) s (s.dev.onHost p fun h => { h with d3hot := true })
      ∧ (Completes (.d0Return p) s fun d => (d.host.get p).d3hot = false))
    ∧ (∀ (s : State) (p : Side) (v : Nat), s.dev.On → v < 2048 → (msixEntry s.dev p v).pending = true → (msixEntry s.dev p v).addr ≠ 0#64 →
      (s.dev.host.get p).funcMask = false → canIssue s.dev p = true →
      Completes (.msiXUnmask p (some v)) s fun d => .msix p v ∈ d.out ∧ d.mem = s.dev.mem ∧ d.q = s.dev.q ∧ d.ctl = s.dev.ctl ∧ d.ten = s.dev.ten)

/-- Completion data reaches the leg that asked for it once it can cross from the host tile, and waits to cross until then (R17, R31); a refused, timed-out or poisoned request ends its work LOCAL_ACCESS with detail ACCESS; the place of its response is then free for the requests that wait for one (R21, R31, R386, R415). Violations that only discard (R415). -/
def Obligations.HostCompletions : Prop :=
    (∀ (s : State) (tag x l : Nat) (b : Bytes) (g : List Nat) (r : HostReq) (t : Xfer), s.dev.On →
      s.dev.q.hostReqs.get? tag = some r → r.sent = true → r.use = .leg x l → s.dev.q.xfers.get? x = some t →
      let taken (d : Dev) : Dev := d.onQ fun q => { q with hostReqs := q.hostReqs.erase tag }
      let filled (d : Dev) : Dev := d.onQ fun q => { q with xfers := q.xfers.upd x fun y =>
        { y with legs := modAt y.legs l fun z => { z with data := some (slice b 0 r.len), hostTag := none } } }
      let failed (d : Dev) : Dev := endBad t.qpn t.idx ccLocalAccess 0x10 (d.onQ fun q => { q with xfers := q.xfers.erase x })
      let o := hostOwner s.dev (.leg x l)
      let u : Flit := ⟨.rsp, (hostTile s.dev r.port o).getD o, o⟩
      (Crosses s.dev u inHost → Settles (.hostCompletion tag b) s (placeFreed (filled (taken s.dev))))
      ∧ (¬ Crosses s.dev u inHost → Settles (.hostCompletion tag b) s (s.dev.onFab fun f =>
          { f with crossings := f.crossings ++ [⟨u, inHost, none, .completion tag b none⟩] }))
      ∧ Settles (.hostReqFailed (.req tag)) s (placeFreed (failed (violate r.port 0x0307 true (taken s.dev))))
      ∧ (r.at_ + usTicks (s.dev.host.get r.port).config.completionTimeout ≤ now s.dev →
        Settles (.completionTimeout (.req tag)) s (placeFreed (failed ((violate r.port 0x0308 true (taken s.dev)).onHost r.port fun h =>
          { h with aer := { h.aer with counts := aerAdd .completionTimeout h.aer.counts } }))))
      ∧ (Crosses s.dev u inHost → Settles (.poisonedCompletion tag b g) s
          (placeFreed ((filled (taken (aerLog r.port .poisonedTlp (violate r.port 0x0306 true s.dev)))).onQ fun q =>
          { q with xfers := q.xfers.upd x fun y =>
            { y with legs := modAt y.legs l fun z => { z with bad := g }, fail := y.fail.orElse fun _ => some (ccLocalAccess, 0x10) } }))))
    ∧ (∀ (s : State) (p : Side), s.dev.On →
      Gives (.unexpectedCompletion p) s (aerLog p .unexpectedCompletion (count 0x0309 p.idx none 1 s.dev))
      ∧ Gives (.poisonedWrite p) s (aerLog p .poisonedTlp (count 0x0306 p.idx none 1 s.dev))
      ∧ (∀ d : Dev, ∃ h g,
        (aerLog p .unexpectedCompletion d).host.get p =
          { d.host.get p with aer := { (d.host.get p).aer with counts := aerAdd .unexpectedCompletion (d.host.get p).aer.counts, header := h } }
        ∧ (aerLog p .poisonedTlp d).host.get p =
          { d.host.get p with aer := { (d.host.get p).aer with counts := aerAdd .poisonedTlp (d.host.get p).aer.counts, header := g } }))

/-- The sideband: the dynamic address by ENTDAA, or by SETDASA to the strapped static address; the endpoint identifier that a request sets; answers to MCTP control and PLDM (bodies as the cited DMTF documents define, log 12), In-Band Interrupts and ALERT_N (R413, R414, R581). A sideband request that arrives while none is unanswered waits for the leader (R435). -/
def Obligations.SidebandRules : Prop :=
    (∀ (s : State) (a : BitVec 7) (msg : Bytes), s.dev.On →
      Gives (.entdaa (.entdaa a)) s (s.dev.onSide fun x => { x with dynAddr := some a })
      ∧ Gives (.entdaa (.setdasa (i3cStatic s.dev) a)) s (s.dev.onSide fun x => { x with dynAddr := some a })
      ∧ (∀ b, b ≠ i3cStatic s.dev → Gives (.entdaa (.setdasa b a)) s s.dev)
      ∧ (eidSet msg = none → Gives (.mctpControl msg) s
          (emit (.sideband (0x00#8 :: Config.dmtfAnswer 0 (toLE 1 s.dev.ctl.side.eid.toNat ++ msg))) s.dev))
      ∧ (∀ e, eidSet msg = some e → Gives (.mctpControl msg) s
          (emit (.sideband (0x00#8 :: Config.dmtfAnswer 0 (toLE 1 e.toNat ++ msg))) (s.dev.onSide fun x => { x with eid := e })))
      ∧ Gives (.pldm msg) s (emit (.sideband (0x01#8 :: Config.dmtfAnswer 1 (pldmReadings s.dev ++ msg))) s.dev)
      ∧ (∀ v rest, s.dev.ctl.side.ibi = v :: rest →
        (Completes .ibiAccept s fun d => d.ctl.side.ibi = rest ∧ .ibi v ∈ d.out ∧ (rest = [] → alIbi ∉ d.ctl.alerts))
        ∧ (Completes .ibiDisabledTimeout s fun d => alIbi ∉ d.ctl.alerts ∧ d.ctl.side = s.dev.ctl.side)))
    ∧ (∀ (s : State) (body : Bytes), s.dev.On → s.dev.ctl.side.cmd = none → s.dev.ctl.side.request = none →
      Gives (.sidebandRequest ([0x7E#8, 0x1D#8, 0x5A#8, 0x01#8, 0x00#8] ++ body)) s
        (s.dev.onSide fun x => { x with request := some body, reqTime := now s.dev, late := (leader s.dev).isNone }))

-- Translation, faults, windows

/-- The cairn ring's registers by their own port (R186 to R189). A replicated-table write of a lower epoch is rejected, counted and answered STALE_EPOCH; one of a higher epoch that Hasp 0 does not hold changes nothing; one of the unit's epoch applies and is acknowledged; windows that every live tile then holds FREE end (R39, R40, R182). -/
def Obligations.CairnRegisters : Prop :=
    (∀ (s : State) (p : Side) (v : BitVec 32), s.dev.On →
      let x := s.dev.xlt.ports.get p
      let n := cairnSlots x
      let i := v.toNat % 65536
      (x.enable = false → Gives (.xltCairnEnable p p v) s (cairnDrain p (s.dev.onXPort p fun x =>
        { x with vector := v.extractLsb' 16 11, sizeLog2 := v.extractLsb' 4 4, enable := true, prod := 0#16, cons := 0#16 })))
      ∧ (x.enable = true → Gives (.xltCairnDisable p p v) s (s.dev.onXPort p fun x => { x with vector := v.extractLsb' 16 11, enable := false }))
      ∧ (i < 2 * n → ringSub n x.prod.toNat i ≤ ringSub n x.prod.toNat x.cons.toNat →
        Gives (.xltCairnConsWrite p p v) s (cairnDrain p (s.dev.onXPort p fun x => { x with cons := BitVec.ofNat 16 i })))
      ∧ ((2 * n ≤ i ∨ ringSub n x.prod.toNat x.cons.toNat < ringSub n x.prod.toNat i) →
        Gives (.xltCairnConsWrite p p v) s (s.dev.onXPort p fun x => { x with consInvalid := true }))
      ∧ Gives (.xltCairnConsWrite p.other p v) s (hostWrongPort p.other s.dev))
    ∧ (∀ (s : State) (tile w : Nat) (e : BitVec 32) (x : TableWrite), s.dev.On → tileUp s.dev tile = true → tile < 8 →
      let own := nth s.dev.fab.tileEpoch tile 0#32
      let learnt := s.dev.onFab fun f => { f with tileEpoch := modAt f.tileEpoch tile fun _ => e }
      (seqDiff e own < 0 → Gives (.replicatedTableWrite tile e x) s
        (windowsEnd (emit (.staleEpoch tile own) (s.dev.onFab fun f => { f with staleCount := modAt f.staleCount tile (· + 1) }))))
      ∧ (0 < seqDiff e own → e ≠ leadEpoch s.dev → Gives (.replicatedTableWrite tile e x) s (windowsEnd s.dev))
      ∧ (e = own ∨ 0 < seqDiff e own ∧ e = leadEpoch s.dev →
        Gives (.replicatedTableWrite tile e (.windowClosing w)) s
          (windowsEnd (replAck tile (.windowClosing w) (learnt.onXlt fun q =>
            { q with windows := q.windows.upd w fun v => if v.closing && !v.freeing then { v with views := modAt v.views tile fun _ => .closing } else v })))
        ∧ Gives (.replicatedTableWrite tile e (.windowFree w)) s
          (windowsEnd (replAck tile (.windowFree w) (learnt.onXlt fun q =>
            { q with windows := q.windows.upd w fun v => if v.freeing then { v with views := modAt v.views tile fun _ => .free } else v })))
        ∧ (∀ n b, Gives (.replicatedTableWrite tile e (.nodeEntry n b)) s
          (windowsEnd (replAck tile (.nodeEntry n b) (learnt.onNet fun y =>
            { y with tileNodes := modAt y.tileNodes tile (putNode (n % 4096) (slice b 0 32)) }))))))

/-- A walk made for a prefetch enters its run and, for a stream still tracked, goes on to the next entry, once its reads of the tables can be answered (R21, R161, R162); a stream's walk makes its run entry, or the stream stalls on a fault; the port's cairn is posted by its timer; a record unresolved at FAULT_LIMIT ends its waiters FAULT_UNRESOLVED (R161, R162, R164, R165, R170). -/
def Obligations.WalksAndFaults : Prop :=
  ∀ (s : State) (tile n : Nat) (a : BitVec 64) (w : Waiter) (p : Side), s.dev.On →
    (let dva := a.toNat - 2 ^ 63
      let reads := walkStacks s.dev tile n dva
      (∀ k ∈ reads, stackOpen s.dev tile k = true) →
        (∀ f e, (s.dev.tile tile).prefetch.find? (fun f => f.tenant = n && f.addr = a.toNat) = some f → isDva a.toNat = true → lostAt s.dev n dva = false →
          (pageAt s.dev n dva).isSome = true →
          let d := reads.foldl (fun d k => touchStack k d) (count 0x0803 tile (some n) 1 (s.dev.onTile tile fun x => { x with prefetch := x.prefetch.erase f }))
          walkRun d n dva = some e →
          let x := addRun tile e (addUpper tile n dva d)
          Settles (.translationWalkDone tile n a false w) s
            (if tracked x tile f.stream then prefetchFrom tile n f.stream (2 - f.ahead) (e.addr + e.len) x else x))
        ∧ ((s.dev.tile tile).prefetch.find? (fun f => f.tenant = n && f.addr = a.toNat) = none → streamOf s.dev w = some (n, tile) →
          formOk s.dev n a.toNat = true → isDva a.toNat = true → lostAt s.dev n dva = false → ∀ wr,
          ((pageAt s.dev n dva).isSome = true → Settles (.translationWalkDone tile n a wr w) s (lookup tile n a.toNat w wr s.dev))
          ∧ (pageAt s.dev n dva = none → Settles (.translationWalkDone tile n a wr w) s
              (let r := raiseFault tile n a.toNat wr false w s.dev
               if r.1 then stallStream w r.2 else unresolved w r.2))))
    ∧ ((∃ k ∈ walkStacks s.dev tile n (a.toNat - 2 ^ 63), stackOpen s.dev tile k = false) →
      Settles (.translationWalkDone tile n a false w) s s.dev)
    ∧ (∀ c, (leader s.dev).isSome = true → (s.dev.xlt.ports.get p).opened = some c → (s.dev.xlt.ports.get p).hostOpen = [] →
      Completes (.cairnTimer p) s fun d => (d.xlt.ports.get p).opened = none
        ∧ ((s.dev.xlt.ports.get p).enable = false → (d.xlt.ports.get p).held = (s.dev.xlt.ports.get p).held ++ [{ c with timed := true }]))
    ∧ (leader s.dev = none → Settles (.cairnTimer p) s s.dev)
    ∧ (∀ i r, s.dev.xlt.recs.get? i = some r → r.host = false →
      Settles (.faultLimitExpiry i) s (r.waiters.foldl (fun d x => failWaiter x.who ccFaultUnresolved 0x13 d) (dropRec i s.dev)))

/-- Host translations: a completion is cached and its stream goes on; an invalidation of no tenant of the port is answered at once; a page response retries its pages; PRI leaves Stopped at its reset (R163, R171, R175). -/
def Obligations.HostTranslations : Prop :=
  ∀ (s : State) (p : Side), s.dev.On →
    (∀ tag r c, s.dev.xlt.ats.get? tag = some r → r.port = p → r.sent = true → r.record = none → r.prefetch = none → isPow2 c.size = true → 4096 ≤ c.size → c.present = true →
      (if r.who.write then c.write else c.read) = true →
      let base := r.addr / c.size * c.size
      Settles (.atsCompletion p tag c) s (resume r.who.who (addRun r.who.tile ⟨r.tenant, base, c.size, c.addr / c.size * c.size, true, c.read, c.write⟩
        ((s.dev.onXlt fun x => { x with ats := x.ats.erase tag }).onTile r.who.tile fun x =>
          { x with runs := x.runs.filter fun e => !(e.host && e.tenant = r.tenant && meets e.addr e.len base c.size) }))))
    ∧ (∀ pasid a n, (∀ k t, (k, t) ∈ s.dev.ten.tenants → ¬ (t.par.port = p ∧ t.par.pasid = some pasid)) →
      Gives (.atsInvalidation p pasid a n) s (emit (.invalDone p) s.dev))
    ∧ (∀ i g k r w ws, (s.dev.xlt.ports.get p).groups.find? (fun g => g.index = i && g.sent) = some g → g.recs = [k] → s.dev.xlt.recs.get? k = some r →
      r.waiters = w :: ws →
      Settles (.priResponse p i .success) s (priSend p (askAts w.tile r.tenant (r.page * 4096) r.write w.who (some k)
        (s.dev.onXPort p fun x => { x with groups := x.groups.filter fun h => h.index ≠ i }))))
    ∧ Gives (.priReset p) s (s.dev.onXPort p fun x => { x with priStopped := false })

/-- MAP_RANGE and UNMAP_RANGE (R158, R159, R172, R173), CAIRN_RESOLVE (R169). -/
def Obligations.MappingCommands : Prop :=
  ∀ (s : State) (c : CmdSlot) (p : Bytes) (ten : Tenant), s.dev.On → s.dev.ten? (u32 p 0) = some ten → mgmtOk c ten = true → ten.st = .active →
    let t := u32 p 0
    (CmdBegun s.dev c 0x0303 p → firstBad (mapChk p s.dev) = none →
      let m : Mapping := { dva := u64 p 8 % 2 ^ 48, len := u64 p 0x18, handle := u32 p 4, off := u64 p 0x10, page := pageOf (u8 p 0x20),
                           read := tb (u8 p 0x21) 0, write := tb (u8 p 0x21) 1 }
      ∀ a e, s.dev.alloc? (u32 p 4) = some a → a.zeroing = false → a.tenant = t → m.off + m.len ≤ allocUnits a * unitBytes →
        (m.page = 30 → a.huge = true) → (tabOf s.dev t).maps.any (fun x => meets x.dva x.len m.dva m.len) = false → unmapOver s.dev t (m.dva + 2 ^ 63) m.len = false →
        let need := (tablesOf m).filter fun n => !(tablesHeld (tabOf s.dev t)).contains n
        memUsed s.dev t + 2 * newExtents (tabOf s.dev t) need.length ≤ ten.par.memUnits → placeTables t need s.dev = some e →
        Gives (.mapRange c) s (answer c stDone 0 none none (onTab t (fun x => { x with maps := insMap x.maps m }) e)))
    ∧ (CmdBegun s.dev c 0x0304 p → isDva (u64 p 8) = true → fld (u64 p 8) 48 15 = 0 → u64 p 8 % 4096 = 0 → u64 p 0x10 % 4096 = 0 →
      u64 p 8 % 2 ^ 48 + u64 p 0x10 ≤ 2 ^ 48 → t < 256 → u32 p 4 = 0 →
      let a := u64 p 8 % 2 ^ 48
      let n := u64 p 0x10
      splitsPage s.dev t a = false → splitsPage s.dev t (a + n) = false → unmapOver s.dev t (a + 2 ^ 63) n = false →
        s.dev.xlt.windows.any (fun (_, w) => w.tenant = t && meets w.dva w.len a n) = false →
        Completes (.unmapRange c) s fun d =>
          (∀ m ∈ (tabOf d t).maps, meets m.dva m.len a n = true → n = 0)
          ∧ (∀ k, tileUp s.dev k = true → k < s.dev.xlt.tiles.length → k < 8 → ∀ e ∈ (d.tile k).runs, ¬ (e.tenant = t ∧ meets e.addr e.len (a + 2 ^ 63) n = true))
          ∧ CmdRuns d c 0x0304)

/-- Dispositions of fault records (R169), the last acknowledgement of an invalidation (R172, R173) and the abort of marked work (R174). -/
def Obligations.FaultsAndInvalidations : Prop :=
  ∀ (s : State) (c : CmdSlot), s.dev.On →
    (∀ p l e, CmdBegun s.dev c 0x0305 p → u32 p 4 = 0 → (∀ k < u32 p 0, u8 p (12 + 8 * k) ≤ 1 ∧ zeros p (13 + 8 * k) 3 = true) →
      l = (List.range (u32 p 0)).map (fun k => (u32 p (8 + 8 * k), decide (u8 p (12 + 8 * k) = 1))) →
      (∀ x ∈ l, ∀ r, s.dev.xlt.recs.get? x.1 = some r → r.host = false ∧ some r.port = slotPort c) → resolveAll l false s.dev = (false, e) →
      Settles (.cairnResolve c) s (answer c stDone 0 none none e))
    ∧ (∀ i v tile, s.dev.xlt.invs.get? i = some v → v.tiles = [tile] → v.ats = none → v.cmd = some c →
      let done (d : Dev) : Dev := (d.onXlt fun x => { x with invs := x.invs.upd i fun v =>
        { v with tiles := v.tiles.filter (· ≠ tile), marked := v.marked.filter fun m => m.tile ≠ tile } }).onXlt fun x => { x with invs := x.invs.erase i }
      (s.dev.ciph.jobs.any (jobMeets v.tenant v.addr v.len) = false → (v.marked.filter fun m => m.tile = tile).all (markDone s.dev v) = true →
        Settles (.invalidationAck tile i) s (answerIf c 0x0304 (if v.aborted || v.nothing then stNote else stDone) none (done s.dev)))
      ∧ (∀ n j, v.marked = [⟨tile, .entry n j, 0, []⟩] → markDone s.dev v ⟨tile, .entry n j, 0, []⟩ = false →
        Settles (.unmapAbort tile i) s (ackTile tile i ((failJobs (jobMeets v.tenant v.addr v.len) ccLocalAccess 0
          (failWaiter (.entry n j) ccLocalAccess 0x12
            (s.dev.onQ fun q => { q with xfers := q.xfers.filter fun (_, t) => !(t.qpn = n && t.idx = j) }))).onXlt fun x =>
            { x with invs := x.invs.upd i fun v => { v with aborted := true } }))))

/-- WINDOW_OPEN takes a free number, gives the window a key that is not 0 and not the last of its number, and no tile has it open before it applies the leader's write (R40, R176 to R178). WINDOW_REVOKE moves the window to CLOSING and waits; the leader then writes the drained window FREE to every live tile, and once each of them holds it FREE the window ends and its command is answered; WINDOW_QUERY writes its entries (R40, R182 to R185). -/
def Obligations.WindowRules : Prop :=
    (∀ (s : State) (c : CmdSlot) (p : Bytes) (ten : Tenant), s.dev.On → keysFlow s.dev = true → CmdBegun s.dev c 0x0401 p → firstBad (windowOpenChk c p s.dev) = none →
      s.dev.ten? (u32 p 0) = some ten → mgmtOk c ten = true → ten.st = .active →
      let t := u32 p 0
      let a := u64 p 8 % 2 ^ 48
      let n := u64 p 0x10
      unmapOver s.dev t (a + 2 ^ 63) n = false → covered s.dev t a n (fun m => m.read && m.write) = true →
      (tenWindows s.dev t).length < ten.par.winCount → slabsUsed s.dev t + ceilDiv n (2 ^ 30) ≤ ten.par.winSlabs →
      ∀ w, freeWindow s.dev = some w →
      Completes (.windowOpen c) s fun d => s.dev.win? w = none ∧ ∃ x, d.win? w = some x ∧ x.tenant = t ∧ x.dva = a ∧ x.len = n ∧ x.closing = false
        ∧ x.rights = BitVec.ofNat 4 (u8 p 0x18) ∧ x.key ≠ 0#32 ∧ x.key ≠ s.dev.xlt.lastKey.getD w 0#32
        ∧ (∀ k, nth x.views k .free = .free)
        ∧ (∀ v, v ≠ w → d.win? v = s.dev.win? v))
    ∧ (∀ (s : State) (c : CmdSlot) (p : Bytes), s.dev.On →
      (∀ ten v, CmdBegun s.dev c 0x0402 p → u32 p 0 < 256 → u32 p 4 < 16384 → s.dev.ten? (u32 p 0) = some ten → mgmtOk c ten = true →
        s.dev.win? (u32 p 4) = some v → v.tenant = u32 p 0 → v.closing = false →
        Gives (.windowRevoke c) s (leave c [u32 p 4] (s.dev.onXlt fun x =>
          { x with windows := x.windows.upd (u32 p 4) fun v => { v with closing := true, cmd := some c } })))
      ∧ (∀ w v, s.dev.win? w = some v → v.closing = true → v.freeing = false → windowIdle s.dev v = true → (leader s.dev).isSome →
        Settles (.windowDrained w) s (windowsEnd (freeWindows (fun n _ => n = w) none s.dev)))
      ∧ (CmdBegun s.dev c 0x0403 p → u32 p 0 = 0xFFFFFFFF → addrOk c (u64 p 8) 64 = true → 1 ≤ u32 p 0x10 → u32 p 0x10 ≤ 16384 →
        let sel := (s.dev.xlt.windows.filter fun (w, _) => u32 p 4 ≤ w).take (u32 p 0x10)
        Gives (.windowQuery c) s (answer c stDone 0 (some (u64 p 8, toLE 4 s.dev.xlt.windows.length ++ toLE 4 sel.length ++ zpad 8 ++ sel.flatMap windowEntry)) none s.dev)))
    ∧ (∀ (d : Dev) (l : Tab Window) (w : Nat) (v : Window), d.xlt.windows = l ++ [(w, v)] →
      (∀ x ∈ l, windowFreed d x.2 = false) →
      (windowFreed d v = true → windowsEnd d = tenResetTry v.tenant ((match v.cmd with
        | some c => answerIf c 0x0402 stDone none
        | none => id) (d.onXlt fun x => { x with windows := x.windows.erase w })))
      ∧ (windowFreed d v = false → windowsEnd d = d))
    ∧ (∀ (d : Dev) (v : Window), windowFreed d v = true ↔ v.freeing = true ∧ ∀ k < 8, tileUp d k = true → nth v.views k .free = .free)

-- Tenants

/-- Creation with its reservations met, answered when every copy of the tenant table has the entry; thawing, and the record of a tenant (R38, R40, R445 to R447, R463, R470). -/
def Obligations.TenantCommands : Prop :=
  ∀ (s : State) (c : CmdSlot) (p : Bytes), s.dev.On →
    (CmdBegun s.dev c 0x0201 p → firstBad (tenantCreateChk c p s.dev) = none → u32 p 0 < 256 → reservable s.dev (parseTenant p) = true →
      Gives (.tenantCreate c) s (replFinish c 0x0201 stDone (some (u64 p 0x48, toLE 4 (u32 p 0) ++ zpad 12)) [.tenantEntry (u32 p 0)]
        (leave c [u32 p 0] (s.dev.onTens fun y =>
          { y with tenants := y.tenants.set (u32 p 0) { par := parseTenant p, st := if (parseTenant p).createFrozen then .frozen else .active, since := s.dev.pwr.tsc } }))))
    ∧ (∀ t, CmdBegun s.dev c 0x0207 p → u32 p 0 < 256 → u32 p 4 = 0 → s.dev.ten? (u32 p 0) = some t → mgmtOk c t = true → t.st = .frozen → t.carried = false →
      Settles (.tenantThaw c) s (answer c stDone 0 none none (postEvent (u32 p 0) 0x12 (u32 p 0) 0 0
        (s.dev.onTen (u32 p 0) fun t => { t with st := .active, since := s.dev.pwr.tsc }))))
    ∧ (∀ t, CmdBegun s.dev c 0x0207 p → u32 p 0 < 256 → u32 p 4 = 0 → s.dev.ten? (u32 p 0) = some t → mgmtOk c t = true →
      (t.st ≠ .frozen → Settles (.tenantThaw c) s (answer c stBadParam 0 none none s.dev))
      ∧ (t.st = .frozen → t.carried = true → Settles (.tenantThaw c) s (answer c stNotPermitted 0 none none s.dev)))
    ∧ (∀ t, CmdBegun s.dev c 0x0208 p → u32 p 0 < 256 → u32 p 4 = 0 → addrOk c (u64 p 8) 64 = true → s.dev.ten? (u32 p 0) = some t →
      Gives (.tenantQuery c) s (answer c stDone 0 (some (u64 p 8, tenRecord s.dev (u32 p 0) t)) none s.dev))

/-- TENANT_RESET and TENANT_DESTROY complete on every tenant that is ACTIVE. After TENANT_RESET the tenant has no queue pair and no completion queue, its last reset is by command, and it is ACTIVE again at once where it has no window and no rope, else RESETTING (R457). After TENANT_DESTROY it is FREE at once, with no mapping, where it has no window and no rope; with a window it is DESTROYING until that has drained (R459). -/
def Obligations.TenantResets : Prop :=
  ∀ (s : State) (c : CmdSlot) (p : Bytes) (t : Tenant), s.dev.On → s.dev.ten? (u32 p 0) = some t → t.st = .active → u32 p 0 < 256 →
    let n := u32 p 0
    (CmdBegun s.dev c 0x0203 p → u32 p 4 = 0 → mgmtOk c t = true →
      Completes (.tenantReset c) s fun d => ∃ y, d.ten? n = some y ∧ y.lastReset = .command ∧ tenQps d n = [] ∧ tenCqs d n = []
        ∧ (tenWindows s.dev n = [] → tenRopes s.dev n = [] → y.st = .active)
        ∧ (tenWindows s.dev n ≠ [] → y.st = .resetting ∧ ∀ w v, d.win? w = some v → v.tenant = n → v.closing = true))
    ∧ (CmdBegun s.dev c 0x0202 p → firstBad (tenantDestroyChk c p s.dev) = none → u8 p 4 = 0 →
      Completes (.tenantDestroy c none) s fun d =>
        (tenWindows s.dev n = [] → tenRopes s.dev n = [] → d.ten? n = none ∧ d.xlt.tables.get? n = none ∧ tenQps d n = [])
        ∧ (tenWindows s.dev n ≠ [] → ∃ y, d.ten? n = some y ∧ y.st = .destroying ∧ tenQps d n = []))
    ∧ (CmdBegun s.dev c 0x0203 p → u32 p 4 = 0 → mgmtOk c t = true →
      Settles (.tenantReset c) s (tenResetTry n (tenResetSteps n .resetting .command ((leave c [n] s.dev).onTen n fun t => { t with resetCmd := some c }))))
    ∧ (∀ d : Dev, ∀ x, d.ten? n = some x → (x.st = .resetting ∨ x.st = .destroying) → tenWindows d n = [] → tenRopes d n = [] →
      (x.destroy = none → x.resetCmd = none → ∃ y, (tenResetTry n d).ten? n = some y ∧ y.st = .active)
      ∧ (∀ stubs, x.destroy = some stubs → x.destroyCmd = none → ∀ m, m ≠ n → ((tenResetTry n d).ten? m).map (·.st) = (d.ten? m).map (·.st)))

/-- TENANT_FREEZE of an ACTIVE tenant completes with the tenant FREEZING and nothing fetched on its queue pairs, unless FLAGS does not allow the abort of a busy rope (R461). The end of the drain, and LIMIT_MS, complete with the tenant FROZEN and its event posted (R461). The end of a stub's life completes with the stub and the tombstone gone (R460). -/
def Obligations.FreezeRules : Prop :=
    (∀ (s : State) (n : Nat) (t : Tenant), s.dev.On → s.dev.ten? n = some t →
      (∀ c p, CmdBegun s.dev c 0x0204 p → firstBad (tenantFreezeChk p s.dev) = none → n = u32 p 0 → mgmtOk c t = true → t.st = .active →
        (u8 p 4 = 1 ∨ (tenRopes s.dev n).filter (fun (_, r) => r.st = .running || (r.st = .idle && ropeDue s.dev r)) = []) →
        Completes (.tenantFreeze c) s fun d => (∃ y, d.ten? n = some y ∧ y.st = .freezing)
          ∧ ∀ k q, (k, q) ∈ tenQps d n → q.fetched = [] ∨ q.st = .flushing ∨ q.st = .error)
      ∧ (∀ f, t.st = .freezing → t.freeze = some f → tenDrained s.dev n = true →
        Completes (.freezeDrained n) s fun d => ∃ y, d.ten? n = some y ∧ y.st = .frozen ∧ y.freeze = none)
      ∧ (∀ f, t.st = .freezing → t.freeze = some f →
        Completes (.freezeLimit n) s fun d => ∃ y, d.ten? n = some y ∧ y.st = .frozen ∧ y.freeze = none)
      ∧ (∀ f, t.st = .freezing → tenDrained s.dev n = true → t.freeze = some f → f.cmd = none →
        Settles (.freezeDrained n) s (postEvent n 0x11 n 0 f.ropesAborted
          ((s.dev.onTen n fun t => { t with freeze := none }).onTen n fun t => { t with st := .frozen, since := s.dev.pwr.tsc })))
      ∧ (∀ f, t.st = .freezing → t.freeze = some f → f.cmd = none → tenQps s.dev n = [] → tenCqs s.dev n = [] →
        s.dev.xlt.recs.filter (fun (_, r) => r.tenant = n) = [] →
        Settles (.freezeLimit n) s (postEvent n 0x11 n 0 f.ropesAborted
          ((s.dev.onTen n fun t => { t with freeze := none }).onTen n fun t => { t with st := .frozen, since := s.dev.pwr.tsc }))))
    ∧ (∀ (s : State) (q : Nat), s.dev.On →
      Gives (.stubExpiry q) s ((s.dev.onTens fun t => { t with stubs := t.stubs.erase q }).onQ fun x => { x with tombs := x.tombs.erase q }))

-- Internal queues and paths

/-- On a queue with a credit at hand a unit goes out, with a place reserved for the response of a request; without one it waits with its sender (R18, R21, R22). Between tiles a unit goes by the path of its flow, in order: the segment is that of its source mod 4, else of its destination mod 4, else the lowest that is up, it keeps the segment it took while that is up, and a link that is down is passed through another live tile of the half (R14 to R17). From a link a unit goes through the switch of the tile at its end. A returned credit lets what waits go on, and a unit that cannot go on keeps its credit; the end of a half reset brings every credit back (R18, R19, R28). A queue with held units is recorded as stalled (R27). -/
def Obligations.CreditQueues : Prop :=
    (∀ (s : State) (q : QueueId) (depth : Nat), s.dev.On → queueDepth q = some depth → isBridge q = false → isLink q = false →
      let c := queueAt s.dev.fab q
      (c.resetting = false → c.held = 0 → unitsOut s.dev q < depth → (∀ r, rspQueue q = some r → rspRoom s.dev r = true) →
        Gives (.creditQueueSend q) s (s.dev.onFab fun f =>
          let f := setQueue f { c with units := c.units ++ [⟨⟨q.cls, 0, 0⟩, none⟩], since := now s.dev, logged := none }
          { f with rsp := f.rsp ++ (rspQueue q).toList }))
      ∧ ((c.resetting = true ∨ c.held ≠ 0 ∨ depth ≤ unitsOut s.dev q) →
        Gives (.creditQueueSend q) s (s.dev.onFab fun f =>
          setQueue f { c with held := c.held + 1, since := if c.held = 0 then now s.dev else c.since })))
    ∧ (∀ (s : State) (q : QueueId), s.dev.On →
      let c := queueAt s.dev.fab q
      (∀ u r, c.resetting = false → reqWithheld s.dev q = false → c.units = u :: r →
        let gone (f : Fab) : Fab := setQueue f { c with units := r }
        let place : QueueId := if u.flow.src = u.flow.dst then q else flowRsp ⟨.req, u.flow.dst, u.flow.src⟩
        (nextHop s.dev.fab q u = none → Gives (.creditReturn q) s s.dev)
        ∧ (nextHop s.dev.fab q u = some none → u.flow.cls ≠ .rsp → Gives (.creditReturn q) s (fabricMoves (heldSend q (s.dev.onFab gone))))
        ∧ (nextHop s.dev.fab q u = some none → u.flow.cls = .rsp →
          Gives (.creditReturn q) s (fabricMoves (heldSend q (s.dev.onFab fun f => rspFree (gone f) place))))
        ∧ (∀ q', nextHop s.dev.fab q u = some (some q') →
          ((queueAt s.dev.fab q').resetting = true → Gives (.creditReturn q) s (fabricMoves (heldSend q (s.dev.onFab gone))))
          ∧ ((queueAt s.dev.fab q').resetting = false → hasCredit s.dev.fab q' = true →
            Gives (.creditReturn q) s (fabricMoves (heldSend q (s.dev.onFab fun f => setQueue (gone f) (pushUnit (now s.dev) u (queueAt (gone f) q'))))))
          ∧ ((queueAt s.dev.fab q').resetting = false → hasCredit s.dev.fab q' = false → Gives (.creditReturn q) s s.dev)))
      ∧ (∀ u, sendFlow q = some u → s.dev.tileLive u.src = true → s.dev.tileLive u.dst = true →
        Gives (.creditQueueSend q) s (s.dev.onFab fun f => flowSend1 (now s.dev) f ⟨u, now s.dev⟩))
      ∧ ((c.resetting = true ∨ c.units = [] ∨ reqWithheld s.dev q = true) → Gives (.creditReturn q) s s.dev)
      ∧ (c.resetting = true →
        Gives (.creditQueueReady q) s (fabricMoves (heldSend q (s.dev.onFab fun f => setQueue f { id := q, held := c.held, since := c.since }))))
      ∧ ((queueDepth q).isSome = true → heldUnits s.dev q ≠ 0 → c.logged = none → Completes (.creditStall q) s fun d =>
          (queueAt d.fab q).logged = some (now s.dev) ∧ d.q = s.dev.q ∧ d.mem = s.dev.mem ∧ d.eng = s.dev.eng))
    ∧ (∀ (f : Fab) (q : QueueId) (u : Sent), isLink q = true ∨ isBridge q = true → ∃ e, queueEnd q = some e ∧ nextHop f q u = some (some (switchIn q.cls e (inPort q))))
    ∧ (∀ (t : Nat) (f : Fab) (u : Flit) (q : QueueId) (path : List QueueId), route f u = some (q :: path) →
      ((∀ w ∈ f.waiting, w.flit ≠ u) → strayUnit f u (q :: path) = false → hasCredit f q = true →
        (u.cls = .req → rspCount f (flowRsp u) < rspDepth (flowRsp u)) → (queueAt (flowSend1 t f ⟨u, t⟩) q).units = (queueAt f q).units ++ [aim f u])
      ∧ (hasCredit f q = false → flowSend1 t f ⟨u, t⟩ = { f with waiting := f.waiting ++ [⟨u, t⟩] }))
    ∧ (∀ (s : State), s.dev.On →
      (∀ n, n < 4 → nth s.dev.fab.segUp n false = true → Gives (.segmentDown n) s (crossAll
        (logIt 0x0203 8 n [] (d := s.dev.onFab fun f => flowsSend (now s.dev) { f with segUp := f.segUp.set n false }))))
      ∧ (∀ n, n < 4 → Gives (.segmentUp n) s (fabricMoves (s.dev.onFab fun f => { f with segUp := f.segUp.set n true })))
      ∧ (∀ a b, a < b → b < 8 → tileHalf a = tileHalf b → s.dev.fab.linksDown.contains (a, b) = false →
        Gives (.intraHalfLinkDown a b) s (fabricMoves (s.dev.onFab fun f => { f with linksDown := f.linksDown ++ [(a, b)] }))))
    ∧ (∀ (f : Fab) (src dst k : Nat), segmentFor f src dst = some k →
        nth f.segUp k false = true ∧ (nth f.segUp (src % 4) false = true → k = src % 4)
        ∧ (nth f.segUp (src % 4) false = false → nth f.segUp (dst % 4) false = true → k = dst % 4)
        ∧ (nth f.segUp (src % 4) false = false → nth f.segUp (dst % 4) false = false → ∀ j < k, nth f.segUp j false = false))
    ∧ (∀ (f : Fab) (u : Flit) (k : Nat), nth f.segUp k false = true → segOf f ⟨u, some k⟩ = some k)
    ∧ (∀ (f : Fab) (a b c : Nat), linkHop f a b = some c → c ≠ b →
        linkUp f a b = false ∧ c ≠ a ∧ tileHalf c = tileHalf a ∧ nth f.tileLive c false = true ∧ linkUp f a c = true ∧ linkUp f c b = true)

-- Device memory

/-- MEM_ALLOC takes its extents and answers once they are zeroed; MEM_FREE returns them; RETIRE_QUERY lists the retired row groups; a rebuilt table copy is sound (R49 to R54, R64, R157). -/
def Obligations.MemoryAllocation : Prop :=
  ∀ (s : State) (c : CmdSlot) (p : Bytes), s.dev.On →
    (∀ ten runs, CmdBegun s.dev c 0x0301 p → firstBad (memAllocChk c p s.dev) = none → s.dev.ten? (u32 p 0) = some ten → mgmtOk c ten = true →
      ten.st = .active → memUsed s.dev (u32 p 0) + u32 p 4 ≤ ten.par.memUnits →
      place s.dev (u32 p 4) (u32 p 8) (u8 p 0xC) (u16 p 0xE) = some runs → runs.length ≤ u32 p 0x18 →
      let h := newHandle s.dev
      Gives (.memAlloc c) s (leave c [h] (runs.foldl (fun d r => wakeStack (r.unit / 32768) d)
        (s.dev.onMem fun m => { m with nextHandle := (h + 1) % 2 ^ 32, allocs := m.allocs.set h ⟨u32 p 0, runs, u8 p 0xC = 2, true⟩ }))))
    ∧ (∀ h a r, s.dev.alloc? h = some a → a.zeroing = true → a.runs = [r] → (s.dev.stack (r.unit / 32768)).held = [] → (s.dev.stack (r.unit / 32768)).moves = [] → allocSlot s.dev h = some c → CmdRuns s.dev c 0x0301 →
      Completes (.zeroingDone h) s fun d => (d.alloc? h).map (·.zeroing) = some false ∧ d.q = s.dev.q ∧ d.ten = s.dev.ten
        ∧ (∀ x, r.unit * unitBytes ≤ x → x < (r.unit + r.len) * unitBytes → Memory.read d.mem.bytes x = Memory.unlisted)
        ∧ (∀ x, ¬ (r.unit * unitBytes ≤ x ∧ x < (r.unit + r.len) * unitBytes) → Memory.read d.mem.bytes x = Memory.read s.dev.mem.bytes x)
        ∧ poisonIn d (r.unit * unitBytes) (r.len * unitBytes) = false)
    ∧ (∀ ten a, CmdBegun s.dev c 0x0302 p → u32 p 0 < 256 → s.dev.ten? (u32 p 0) = some ten → mgmtOk c ten = true → ten.st = .active →
      s.dev.alloc? (u32 p 4) = some a → a.zeroing = false → a.tenant = u32 p 0 →
      (allocCovered s.dev (u32 p 4) = false → Gives (.memFree c) s (answer c stDone 0 none none (releaseAlloc (u32 p 4) s.dev)))
      ∧ (allocCovered s.dev (u32 p 4) = true → Gives (.memFree c) s (answer c stBusy 0 none none s.dev)))
    ∧ (CmdBegun s.dev c 0x0306 p → u8 p 0 < 32 → zeros p 1 3 = true → addrOk c (u64 p 8) 64 = true → 1 ≤ u32 p 0x10 → u32 p 0x10 ≤ 16384 →
      let all := (s.dev.stack (u8 p 0)).retired.map (retiredEntry (u8 p 0))
      let sel := (all.drop (u32 p 4)).take (u32 p 0x10)
      Gives (.retireQuery c) s (answer c stDone 0 (some (u64 p 8, toLE 4 all.length ++ toLE 4 sel.length ++ zpad 8 ++ sel.flatten)) none s.dev))
    ∧ (∀ t n e w v, (tabOf s.dev t).extents.get? n = some e → e.copies = ⟨some w, some v⟩ → w.bad = [] → v.bad = [] →
      Gives (.tableCopyRebuilt t n) s (onTab t (fun x => { x with extents := x.extents.upd n fun e =>
        { e with copies := ⟨some { w with rebuilding := false }, some { v with rebuilding := false }⟩ } }) s.dev))

/-- One codeword is read: sound, corrected, found uncorrectable and poisoned with 2 or 3 symbols in error, or already poisoned; beyond the allocatable offsets the access fails LOCAL_ACCESS and is logged; a write of whole codewords stores its bytes and clears their poison (R44, R47, R55 to R58). A parked stack begins to wake and holds the access; an offline one fails it UNCORRECTABLE (R65, R66). An access whose way there or back is not open waits (R12, R18, R21). -/
def Obligations.StackAccesses : Prop :=
    (∀ (s : State) (k off n : Nat) (w : Requester) (errs : List (Nat × Nat)), s.dev.On → k < 32 →
      ((s.dev.stack k).mode = .parked → Settles (.stackRead k off n w errs) s
        ((wakeStack k s.dev).onStk k fun x => { x with held := x.held ++ [.read off n w errs] }))
      ∧ ((s.dev.stack k).mode = .offline → Settles (.stackRead k off n w errs) s (accFail w ccUncorrectable 0x15 s.dev)))
    ∧ ∀ (s : State) (k off : Nat), s.dev.On → k < 32 → (s.dev.stack k).mode = .online ∨ (s.dev.stack k).mode = .parking → (s.dev.stack k).held = [] → off % 32 = 0 →
    let on := s.dev.onStk k fun x => { x with mode := .online }
    let dpa := k * 2 ^ 36 + off
    let rd := count 0x0604 k none 32 on
    (∀ w, accOpen on k w = false → Settles (.stackRead k off 1 w []) s (on.onStk k fun x => { x with held := x.held ++ [.read off 1 w []] }))
    ∧ (accOpen on k .other = true → (s.dev.stack k).moves = [] → off < 0xBF8000000 → poisonIn s.dev dpa 32 = false →
      Settles (.stackRead k off 1 .other []) s (emit (.legRead .other [some (memBytes s.dev dpa 32)]) rd)
      ∧ Settles (.stackRead k off 1 .other [(0, 1)]) s (emit (.legRead .other [some (memBytes s.dev dpa 32)]) (ceFound k dpa rd))
      ∧ Settles (.stackRead k off 1 .other [(0, 2)]) s (emit (.legRead .other [none]) (ueFound k dpa (count 0x0604 k none 32 (memPoison dpa 32 on))))
      ∧ Settles (.stackRead k off 1 .other [(0, 3)]) s (emit (.legRead .other [none]) (ueFound k dpa (count 0x0604 k none 32 (memPoison dpa 32 on)))))
    ∧ (accOpen on k .other = true → (s.dev.stack k).moves = [] → off < 0xBF8000000 → poisonIn s.dev dpa 32 = true →
      Settles (.stackRead k off 1 .other []) s (emit (.legRead .other [none]) rd))
    ∧ (∀ w, accOpen on k w = true → 0xBF8000000 ≤ off → Settles (.stackRead k off 1 w []) s (accFail w ccLocalAccess 0x10 (logIt 0x0106 1 k [off] (d := on))))
    ∧ (∀ w b errs, accOpen on k w = true → (s.dev.stack k).moves = [] → b.length % 32 = 0 → off + b.length ≤ 0xBF8000000 →
      Settles (.stackWrite k off ⟨b, errs⟩ w) s (count 0x0605 k none b.length (memWrite dpa b on)))

/-- What a stored stretch reads as, byte by byte: the bytes written inside it, and what was there before outside it (R42, R47). -/
def Obligations.WrittenBytesRead : Prop :=
  ∀ (d : Dev) (dpa : Nat) (b : Bytes), d.MemOk → dpa + b.length ≤ 2 ^ 41 →
    (∀ i, i < b.length → Memory.read (memWrite dpa b d).mem.bytes (dpa + i) = nth b i 0#8)
    ∧ (∀ x, x < dpa ∨ dpa + b.length ≤ x → Memory.read (memWrite dpa b d).mem.bytes x = Memory.read d.mem.bytes x)
    ∧ (memWrite dpa b d).MemOk

/-- The states of a stack: trained, PARK after idle time once asked, PARKED once drained, ONLINE when awake (R65). Errors of a stack: the scrubber, the correctable-error log, a tracked row forgotten, a retirement move ended, a chimney lost (R56, R59 to R62, R66). -/
def Obligations.StackStates : Prop :=
    (∀ (s : State) (k : Nat), s.dev.On → k < 32 → s.dev.mem.stk.length = 32 →
      let goes (a b : StackMode) (c : Instr) : Prop := (s.dev.stack k).mode = a → Completes c s fun d => (d.stack k).mode = b ∧ (∀ j, j ≠ k → d.stack j = s.dev.stack j)
      goes .init .online (.stackInit k true) ∧ goes .init .offline (.stackInit k false)
      ∧ ((s.dev.stack k).parkReq = true → goes .online .parking (.parkIdle k))
      ∧ (stackBusy s.dev k = false → goes .parking .parked (.parkDrained k))
      ∧ ((s.dev.stack k).mode = .waking → Settles (.stackWakeDone k) s (serveWaiting k (s.dev.onStk k fun x => { x with mode := .online }))))
    ∧ (∀ (s : State) (k : Nat), s.dev.On → k < 32 →
      ((s.dev.stack k).mode = .online → (s.dev.stack k).held = [] → (s.dev.stack k).moves = [] → (s.dev.stack k).scrubPos + 1 < stackCodewords → poisonIn s.dev (servedDpa (s.dev.stack k) k (k * 2 ^ 36 + 32 * (s.dev.stack k).scrubPos)) 32 = false →
        let next := s.dev.onStk k fun x => { x with scrubPos := x.scrubPos + 1 }
        let at_ := servedDpa (s.dev.stack k) k (k * 2 ^ 36 + 32 * (s.dev.stack k).scrubPos)
        Settles (.patrolScrub k 0) s next ∧ Settles (.patrolScrub k 1) s (ceFound k at_ next) ∧ Settles (.patrolScrub k 2) s (ueFound k at_ (memPoison at_ 32 next)))
      ∧ ((s.dev.stack k).ceUnlogged ≠ 0 → (∀ t, (s.dev.stack k).ceLogged = some t → t + secTicks 1 < now s.dev) →
        Gives (.memCe k) s (logIt 0x0101 1 k [(s.dev.stack k).ceUnlogged] (d := s.dev.onStk k fun x => { x with ceUnlogged := 0, ceLogged := some (now s.dev) })))
      ∧ (∀ t, (s.dev.stack k).ceLogged = some t → now s.dev ≤ t + secTicks 1 → Gives (.memCe k) s s.dev)
      ∧ (∀ ch g, s.dev.mem.stk.length = 32 → Completes (.ceTrackExpiry k ch g) s fun d => (∀ t ∈ (d.stack k).track, ¬ (t.chimney = ch ∧ t.group = g))
        ∧ (∀ j, j ≠ k → d.stack j = s.dev.stack j))
      ∧ (∀ m, (s.dev.stack k).moves = [m] → m.hold = [] → (s.dev.stack k).held = [] → ownerOf s.dev (k * 2 ^ 36 + m.group * groupBytes) = none → (s.dev.stack k).reserveUsed < 511 → s.dev.mem.stk.length = 32 →
        Settles (.retirementMoveDone ⟨k, []⟩) s (count 0x0602 k none 1 (logIt 0x0103 1 k [k * 2 ^ 36 + m.group * groupBytes, k * 2 ^ 36 + m.spare * groupBytes, m.cause.code]
          (d := s.dev.onStk k fun x => { x with moves := [], reserveUsed := x.reserveUsed + 1, retired := x.retired.set m.group ⟨some m.spare, s.dev.pwr.tsc, m.cause, groupOwner s.dev (k * 2 ^ 36 + m.group * groupBytes), poisonCount s.dev (k * 2 ^ 36 + m.group * groupBytes) groupBytes⟩ }))))
      ∧ (∀ ch, (s.dev.stack k).mode ≠ .init → Settles (.chimneyFail k ch) s (stackLost k 2 s.dev)))

-- Snapshots

/-- TENANT_SAVE writes the snapshot, and passes the memory to a carrier that is named, its windows written FREE in every live tile before it is answered; TENANT_RESTORE checks the snapshot in order, makes the tenant's objects and is answered once every tile has its windows open (R40, R464 to R469). -/
def Obligations.Snapshots : Prop :=
  ∀ (s : State) (c : CmdSlot) (p : Bytes) (t : Tenant), s.dev.On → s.dev.ten? (u32 p 0) = some t → mgmtOk c t = true → t.st = .frozen → u32 p 0 < 256 →
    let n := u32 p 0
    (CmdBegun s.dev c 0x0205 p → t.carried = false → addrOk c (u64 p 8) 64 = true → u32 p 0x14 = 0 → snapLen s.dev n ≤ u32 p 0x10 →
      (u32 p 4 = 0xFFFFFFFF →
        Gives (.tenantSave c) s (answer c stDone 0 (some (u64 p 8, snapshot s.dev n t 0xFFFFFFFF)) none s.dev))
      ∧ (∀ x, u32 p 4 < 256 → u32 p 4 ≠ n → s.dev.ten? (u32 p 4) = some x → mgmtOk c x = true → x.st = .active →
        memUsed s.dev (u32 p 4) + ((tenAllocs s.dev n).map fun (_, a) => allocUnits a).sum ≤ x.par.memUnits →
        Gives (.tenantSave c) s (passAllocs n (u32 p 4) ⟨c, 0x0205, stDone, some (u64 p 8, snapshot s.dev n t (u32 p 4))⟩ (leave c [] s.dev))))
    ∧ (∀ (d : Dev) (x : Nat) (r : ReplyDue), passAllocs n x r d =
      ((dropRuns n (freeWindows (fun _ w => w.tenant = n) (some r) (d.onXlt fun y => { y with tables := y.tables.erase n }))).onMem fun m =>
        { m with allocs := m.allocs.map fun (h, a) => (h, if a.tenant = n then { a with tenant := x } else a) }).onTen n fun t => { t with carried := true })
    ∧ (∀ snap hs don, CmdBegun s.dev c 0x0206 p → keysFlow s.dev = true → firstBad (tenantRestoreChk c p s.dev) = none →
      s.dev.ten? (u32 p 4) = some don → mgmtOk c don = true →
      tenAllocs s.dev n = [] → tenWindows s.dev n = [] → tenQps s.dev n = [] → tenCqs s.dev n = [] → tenRopes s.dev n = [] →
      let x := parseSnap snap
      Gives (.tenantRestore c snap hs) s
        (if snapHeadOk snap (u32 p 0xC) && snapFieldsOk x then
          restoreChecked c p t x ((List.range x.allocs.length).map fun i => u32 hs (4 * i)) s.dev
        else answer c stVerifyFailed 0 none none s.dev))
    ∧ (∀ d e x cqs qps wins, x.allocs = [] → x.maps = [] → hostRing x = false → x.wins.length ≤ t.par.winCount →
      (x.wins.map fun w => ceilDiv (u64 w 8) (2 ^ 30)).sum ≤ t.par.winSlabs → x.qps.length ≤ t.par.qpMax → x.cqs.length ≤ t.par.cqMax →
      restoreCqNumbers d x = some cqs → restoreQpNumbers d x = some qps → restoreWinNumbers d x = some wins → placeTables n [] d = some e →
      tb (u8 p 8) 0 = false → 16 + 8 * (qps.length + cqs.length) + 16 * wins.length ≤ u32 p 0x28 →
      let r := restoreAll n x [] cqs qps wins e
      restoreChecked c p t x [] d =
        replFinish c 0x0206 stDone (some (u64 p 0x20, restoreResult r x cqs qps wins)) (wins.map .windowOpen) (postEvent n 0x13 n qps.length wins.length r))

-- Ciphers, keys, trust

/-- A job that passes its checks runs on the pieces it names, dealt to the AES cores; one that fails ends at its check; a finished encryption, every block of it served and the way to its stacks open, writes its output and its tag; another end zeroes its output (R475, R490 to R493). A core takes at most one 16 B block at a time, and a piece goes to a core with the least queued work (R473, R475). The job ring's registers take writes from the holder of the Latch alone (R476, R507). -/
def Obligations.CipherJobs : Prop :=
    (∀ (s : State), s.dev.On →
      (∀ b, jobReady s.dev = true → s.dev.ciph.refetch = 0 → tb (u8 b 1) 0 = phaseOf (jobSlots s.dev.ciph) s.dev.ciph.next →
        let i := s.dev.ciph.next
        let push (j : Job) : Dev := s.dev.onCiph fun c => { c with jobs := c.jobs ++ [j], next := ringAdd (jobSlots s.dev.ciph) i 1, refetch := 0 }
        (∀ st at_, jobCheck s.dev b = some (st, at_) →
          Gives (.cipherJobBegin b) s (jobRelease (push { idx := i, entry := b, fin := some (st, at_, 0, s.dev.pwr.tsc) })))
        ∧ (jobCheck s.dev b = none → 2 < u8 b 0 →
          let src := jobPieces s.dev (u16 b 4) (u64 b 8) (u32 b 0x18) false
          let dst := jobPieces s.dev (u16 b 4) (u64 b 0x10) (u32 b 0x18) true
          Gives (.cipherJobBegin b) s (dealJobs (push { idx := i, entry := b, src := src, dst := dst, left := blocks16 (u32 b 0x1C) + blocks16 (u32 b 0x18) }))))
      ∧ (∀ i j, s.dev.ciph.jobs.find? (fun j => j.idx = i && j.fin.isNone) = some j → jobServed s.dev.ciph i = false →
        Gives (.cipherJobDone i .finished) s (jobRelease s.dev))
      ∧ (∀ i j k src aad, s.dev.ciph.jobs.find? (fun j => j.idx = i && j.fin.isNone) = some j → jobServed s.dev.ciph i = true → jobOp j = 1 →
        let e := touchPlaces (jobPlaces j) s.dev
        jobOpen s.dev j = true → e.ciph.slots.get? (jobSlot j) = some k →
        readPieces e j.src = some src → readPieces e j.aad = some aad → writeBad e j.dst = false → writeBad e j.tag = false →
        let r := gcmSeal (k.material.take (k.bits / 8)) (slice j.entry 0x28 12) aad src
        Gives (.cipherJobDone i .finished) s (jobRelease ((count 0x0A01 (jobTile j) none (jobLen j) (count 0x0A02 (jobTile j) none 1
          (writePieces j.tag r.2 (writePieces j.dst r.1 e)))).onCiph fun c => { c with jobs := c.jobs.map fun x =>
            if x.idx = j.idx && x.fin.isNone then { x with fin := some (ccOk, 0, jobLen j, e.pwr.tsc) } else x })))
      ∧ (∀ i j, s.dev.ciph.jobs.find? (fun j => j.idx = i && j.fin.isNone) = some j → jobOpen s.dev j = false →
        Gives (.cipherJobDone i .finished) s (jobRelease s.dev))
      ∧ (∀ i j, s.dev.ciph.jobs.find? (fun j => j.idx = i && j.fin.isNone) = some j → jobOp j = 3 →
        Gives (.cipherJobDone i .tenantReset) s (jobRelease ((zeroPieces j.dst s.dev).onCiph fun c => dropWork (· = i) { c with jobs := c.jobs.map fun x =>
          if x.idx = i && x.fin.isNone then { x with left := 0, fin := some (ccFlushed, 0, 0, s.dev.pwr.tsc) } else x }))))
    ∧ (∀ (x : Ciph) (c : AesCore), (coreBlock x c).load ≤ c.load ∧ c.load ≤ (coreBlock x c).load + 16)
    ∧ (∀ (cs : List AesCore) (l : List Nat) (k : Nat), leastCore cs l = some k →
      k ∈ l ∧ ∀ j ∈ l, (nth cs k {}).load ≤ (nth cs j {}).load)
    ∧ (∀ (s : State) (a : Agent) (v : BitVec 32), s.dev.On → s.dev.ciph.latch.holder = some a →
      let c := s.dev.ciph
      let n := jobSlots c
      let i := v.toNat % 65536
      (c.enable = false → Gives (.ciphJobEnable a v) s (s.dev.onCiph fun c =>
        { c with vector := v.extractLsb' 16 11, sizeLog2 := v.extractLsb' 4 4, enable := true, prod := 0#16, cons := 0#16, next := 0, refetch := 0, owner := some a }))
      ∧ (c.enable = true → Gives (.ciphJobDisable a v) s (s.dev.onCiph fun c => { c with vector := v.extractLsb' 16 11, enable := false, refetch := 0 }))
      ∧ (c.enable = true → i < 2 * n → ringSub n i c.cons.toNat ≤ n → ringSub n c.prod.toNat c.cons.toNat ≤ ringSub n i c.cons.toNat →
        Gives (.ciphJobProdWrite a v) s (s.dev.onCiph fun c => { c with prod := BitVec.ofNat 16 i }))
      ∧ (c.enable = false → Gives (.ciphJobProdWrite a v) s (s.dev.onCiph fun c => { c with prodInvalid := true })))

/-- KEY_LOAD takes a key that unwraps and satisfies its layout, and answers VERIFY_FAILED otherwise, and NOT_PERMITTED for a tenant that the port does not manage; a slot that a running KEY_LOAD names as its KEK is in use; KEY_ERASE takes the key from jobs, queue pairs and tiles; reseeds; IDENTITY_GET; SPDM answers on both routes, with the measurements by index (R452, R478 to R482, R496, R499, R503, R504; their layouts by log 12). -/
def Obligations.KeysAndIdentity : Prop :=
  ∀ (s : State) (c : CmdSlot) (p : Bytes), s.dev.On →
    (CmdBegun s.dev c 0x0801 p → firstBad (keyLoadChk p s.dev) = none → keyTenantOk c p s.dev = false →
      Gives (.keyLoad c) s (answer c stNotPermitted 0 none none s.dev))
    ∧ (∀ w, CmdBegun s.dev c 0x0801 p → firstBad (keyLoadChk p s.dev) = none → keyTenantOk c p s.dev = true → u8 p 1 = 4 → u8 p 8 = 0 → s.dev.ciph.slots.get? (u8 p 9) = some w → w.use = .wrap →
      slotBusy s.dev (u8 p 0) = false → s.dev.ciph.slots.get? (u8 p 0) = none →
      Gives (.keyLoad c) s (match keyUnwrap (w.material.take 32) (slice p 0x10 72) with
        | none => answer c stVerifyFailed 0 none none s.dev
        | some m =>
          if slice m 0 32 = slice m 0x20 32 then answer c stBadParam 0x10 none none s.dev
          else answer c stDone 0 none none (dropTombKey (u8 p 0) (s.dev.onCiph fun x =>
            { x with slots := x.slots.set (u8 p 0) ⟨.xts, u16 p 2, u16 p 4, BitVec.ofNat 16 (u16 p 6), slice m 0 64⟩ }))))
    ∧ (CmdBegun s.dev c 0x0801 p → firstBad (keyLoadChk p s.dev) = none → keyTenantOk c p s.dev = true → u8 p 8 = 1 → u8 p 1 = 4 → slotBusy s.dev (u8 p 0) = true →
      Gives (.keyLoad c) s (answer c stKeyBusy 0 none none s.dev))
    ∧ (∀ w, c ∈ allSlots → CmdBegun s.dev c 0x0801 p → firstBad (keyLoadChk p s.dev) = none → keyTenantOk c p s.dev = true → u8 p 1 = 4 → u8 p 8 = 0 → u8 p 9 = u8 p 0 →
      s.dev.ciph.slots.get? (u8 p 9) = some w → w.use = .wrap → Gives (.keyLoad c) s (answer c stKeyBusy 0 none none s.dev))
    ∧ (CmdBegun s.dev c 0x0802 p → u8 p 0 < 64 → zeros p 1 7 = true →
      (s.dev.ciph.slots.get? (u8 p 0) = none → Settles (.keyErase c) s (answer c stNote 0 none none s.dev))
      ∧ (∀ k, s.dev.ciph.slots.get? (u8 p 0) = some k →
        let d := failJobs (fun j => jobSlot j = u8 p 0) ccFlushed 0x0C s.dev
        Settles (.keyErase c) s (answer c stDone 0 none none (dropTombKey (u8 p 0)
          ((dropSlotKeys (u8 p 0) ((slotQps d (u8 p 0)).foldl (fun d n => keyLost n d) d)).onCiph fun x => { x with slots := x.slots.erase (u8 p 0) })))))
    ∧ (∀ n, n < 17 → Gives (.drbgReseed n true) s (s.dev.onCiph fun c =>
      { c with entropyFail := false, drbgs := modAt c.drbgs n fun x => { failures := 0, stopped := false, reseeds := x.reseeds + 1, since := now s.dev } }))
    ∧ (∀ n, n < 17 → (nth s.dev.ciph.drbgs n {}).failures = 15 → s.dev.ciph.entropyFail = false →
      Gives (.drbgReseed n false) s (logIt 0x0801 0 0 [] (d := (s.dev.onCiph fun c => { c with drbgs := modAt c.drbgs n fun x => { x with failures := 16 } }).onCiph fun c => { c with entropyFail := true })))
    ∧ (∀ n, s.dev.ciph.entropyFail = true → reseedDue (nth s.dev.ciph.drbgs n {}) + secTicks 1 ≤ now s.dev →
      Gives (.drbgStop n) s (s.dev.onCiph fun c => { c with drbgs := modAt c.drbgs n fun x => { x with stopped := true } }))
    ∧ (∀ n, s.dev.ciph.entropyFail = false ∨ now s.dev < reseedDue (nth s.dev.ciph.drbgs n {}) + secTicks 1 → Gives (.drbgStop n) s s.dev)
    ∧ (CmdBegun s.dev c 0x0B01 p → addrOk c (u64 p 0) 64 = true → u64 p 8 = 0 →
      Gives (.identityGet c) s (answer c stDone 0 (some (u64 p 0, deviceDigest s.dev.svc ++ slice (identityKey s.dev.svc) 0 133 ++ slice (agreementKey s.dev.svc) 0 133 ++ zpad 2
        ++ toLE 4 (if s.dev.svc.chainOk then Config.certChain.length else 0) ++ s.dev.svc.minSvn.flatMap (fun v => toLE 4 v.toNat) ++ toLE 4 s.dev.svc.rootRevoked.toNat ++ zpad 8)) none s.dev))
    ∧ (CmdBegun s.dev c 0x0B01 p → addrOk c (u64 p 0) 64 = false → Gives (.identityGet c) s (answer c stBadParam 0 none none s.dev))
    ∧ (∀ req msg, s.dev.svc.traverse = none → (spdmDraws req = true → keysFlow s.dev = true) →
      let a := spdmAnswer req msg s.dev
      Gives (.spdm .mctp req msg) s (emit (.sideband (0x05#8 :: a.1)) a.2)
      ∧ (∀ k, (s.dev.host.get k).linkUp = true → Gives (.spdm (.doe k) req msg) s (emit (.doe k a.1) a.2)))
    ∧ (∀ d msg,
      spdmAnswer .unsupported msg d = (toLE 1 (u8 msg 0) ++ toLE 1 0x7F ++ toLE 1 0x07 ++ toLE 1 (u8 msg 1), d)
      ∧ (d.svc.chainOk = false → (spdmAnswer .getCertificate msg d).1.drop 1 = [0x7F#8, 0x05#8, 0x00#8])
      ∧ (∀ i, 1 ≤ i → i ≤ 9 → u8 msg 3 = i → tb (u8 msg 2) 0 = false → ∃ nonce e, nonce.length = 32 ∧ e.svc = d.svc ∧ spdmAnswer .getMeasurements msg d =
          (toLE 1 (u8 msg 0) ++ toLE 1 0x60 ++ toLE 1 0 ++ toLE 1 0 ++ toLE 1 1 ++ toLE 3 (measured d.svc i).length ++ measured d.svc i ++ nonce ++ zpad 2
            ++ spdmContext (u8 msg 0) msg 4, e)))

-- Service

/-- The device record, the environment check, the Lamold record, staged and verified images, the logs, the counters (R439, R546, R557, R558, R560 to R567). -/
def Obligations.ServiceCommands : Prop :=
  ∀ (s : State) (c : CmdSlot) (p : Bytes), s.dev.On →
    (CmdBegun s.dev c 0x0101 p → addrOk c (u64 p 0) 64 = true → u64 p 8 = 0 →
      Gives (.deviceInfo c) s (answer c stDone 0 (some (u64 p 0, deviceRecord s.dev)) none s.dev))
    ∧ (∀ r b, CmdBegun s.dev c 0x0102 p → firstBad (envChk c p s.dev) = none → u64 p 0 = 0 → s.dev.svc.record = some b →
      Gives (.envCheck c r) s (answer c stDone 0 (some (u64 p 0x10, envResult s.dev b)) none s.dev))
    ∧ (∀ r o, CmdBegun s.dev c 0x0B02 p → isSideband c = false → u64 p 0 % 64 = 0 → u32 p 0xC = 0 → recordFault (slice r 0 (u32 p 8)) (u32 p 8) = some o →
      Settles (.recordLoad c r) s (answer c stBadParam 0 none (some o) s.dev))
    ∧ (∀ r, CmdBegun s.dev c 0x0B02 p → isSideband c = false → u64 p 0 % 64 = 0 → u32 p 0xC = 0 →
      let b := slice r 0 (u32 p 8)
      recordFault b (u32 p 8) = none →
      Settles (.recordLoad c r) s
        (if ecdsaVerify (recordKey s.dev.svc b) (b.take (u32 p 8 - 132)) (slice b (u32 p 8 - 132) 132) && slice b 0x10 16 = deviceDigest s.dev.svc && recordSerial s.dev.svc < u32 b 8 then
          replFinish c 0x0B02 stDone none (nodeWrites s.dev.net.nodes (recordNodes b)) (acceptRecord b s.dev)
        else answer c stVerifyFailed 0 none none s.dev))
    ∧ (∀ data, CmdBegun s.dev c 0x0901 p → firstBad (stageChk p s.dev) = none →
      (s.dev.svc.trav = .idle → Gives (.imageStage c data) s (answer c stDone 0 none none (storeWrite [rkBank (candidate s.dev.svc)] (s.dev.onSvc (stageImage p data)))))
      ∧ (s.dev.svc.trav ≠ .idle → Gives (.imageStage c data) s (answer c stBusy 0 none none s.dev)))
    ∧ (CmdBegun s.dev c 0x0902 p → u8 p 0 = 2 → zeros p 1 7 = true → addrOk c (u64 p 8) 64 = true → imageAt s.dev.svc (candidate s.dev.svc) 1 = none →
      Gives (.imageVerify c) s (answer c stVerifyFailed 0 (some (u64 p 8, [1#8, 1#8] ++ zpad 14)) none
        (storeWrite [rkBank (candidate s.dev.svc)] (s.dev.onSvc fun v => { v with banks := v.banks.upd (candidate v) fun x => x.upd 1 fun i => { i with verified := false } }))))
    ∧ (CmdBegun s.dev c 0x0902 p → u8 p 0 < 64 → u8 p 0 % 2 = 0 → zeros p 1 7 = true → addrOk c (u64 p 8) 64 = true →
      let r := verifyTypes (bitsOf 6 (u8 p 0)) s.dev
      Gives (.imageVerify c) s (answer c (if r.1 then stDone else stVerifyFailed) 0 (some (u64 p 8, r.2.1)) none r.2.2))
    ∧ (CmdBegun s.dev c 0x0A03 p → firstBad (logReadChk c p s.dev) = none →
      let g := s.dev.svc.logs.get (.ofIdx (u8 p 0))
      let l := (g.entries.filter fun e => u32 p 4 ≤ e.seq.toNat).take (u32 p 0x10)
      Gives (.logRead c) s (answer c stDone 0 (some (u64 p 8, toLE 4 ((g.entries.head?.map (·.seq)).getD g.nextSeq).toNat ++ toLE 4 g.nextSeq.toNat
        ++ toLE 4 l.length ++ zpad 4 ++ l.flatMap (logBytes (u8 p 0)))) none s.dev))
    ∧ (CmdBegun s.dev c 0x0A04 p → u8 p 0 = 1 → zeros p 1 7 = true →
      Gives (.logClear c) s (answer c stDone 0 none none (logIt 0x0901 5 0 [6] (d := s.dev.onSvc fun v =>
        { v with logs := v.logs.upd .west fun g => { g with entries := [] } }))))
    ∧ (CmdBegun s.dev c 0x0A01 p → firstBad (selectChk p s.dev) = none → u16 p 2 = 1 →
      Gives (.counterSelect c) s (answer c stDone 0 none none (s.dev.onSvc fun v =>
        { v with counters := v.counters.set (u16 p 0) (selectEvc (v.counters.getD (u16 p 0) {}) (slice p 8 8)) })))

/-- A counter adds what its selected source counts; past 2^48 - 1 it wraps, or holds under SATURATE, and its overflow bit is set; another that is off stays. COUNTER_READ writes the named counters with TIME and COUNT before them (R564, R566, R567). -/
def Obligations.CountersCount : Prop :=
    (∀ (d : Dev) (k src inst n : Nat) (t : Option Nat) (c : Evc), d.svc.counters.get? k = some c → c.enable = true → c.source = BitVec.ofNat 16 src →
      (c.inst = 0xFF#8 ∨ c.inst = BitVec.ofNat 8 inst) → (c.tenant = 0xFFFF#16 ∨ t = some c.tenant.toNat) →
      let e := count src inst t n d
      (c.count.toNat + n < 2 ^ 48 → ∃ x, e.svc.counters.get? k = some x ∧ x.count.toNat = c.count.toNat + n ∧ x.ovf = c.ovf)
      ∧ (2 ^ 48 ≤ c.count.toNat + n → ∃ x, e.svc.counters.get? k = some x ∧ x.ovf = true
        ∧ x.count.toNat = if c.saturate then 2 ^ 48 - 1 else (c.count.toNat + n) % 2 ^ 48)
      ∧ (∀ j x, j ≠ k → d.svc.counters.get? j = some x → x.enable = false → e.svc.counters.get? j = some x))
    ∧ (∀ (s : State) (c : CmdSlot) (p : Bytes), s.dev.On → CmdBegun s.dev c 0x0A02 p → u16 p 0 ≤ 511 → 1 ≤ u16 p 2 → u16 p 0 + u16 p 2 ≤ 512 → u32 p 4 = 0 → addrOk c (u64 p 8) 64 = true →
      Gives (.counterRead c) s (answer c stDone 0 (some (u64 p 8, toLE 8 s.dev.pwr.tsc.toNat ++ toLE 4 (u16 p 2) ++ zpad 4
        ++ (List.range (u16 p 2)).flatMap fun i => toLE 8 (evcWord (s.dev.svc.counters.getD (u16 p 0 + i) {})))) none s.dev))
    ∧ (∀ c : Evc, evcWord c < 2 ^ 64 ∧ evcWord c % 2 ^ 48 = c.count.toNat ∧ tb (evcWord c) 62 = c.enable ∧ tb (evcWord c) 63 = c.ovf ∧ fld (evcWord c) 48 14 = 0)

/-- Traverse restarts the dies one after another from the candidate bank, and commits or goes back; microcode loads unit by unit; a lost tile takes its objects with it (R547 to R553, R559). -/
def Obligations.TraverseAndMicrocode : Prop :=
  ∀ (s : State) (c : CmdSlot) (p : Bytes) (k : Side), s.dev.On →
    let v := s.dev.svc
    let lead := (leader s.dev).getD .west
    (CmdBegun s.dev c 0x0903 p → u8 p 0 < 2 → zeros p 1 7 = true → types5.all (candidateOk v) = true → dieDown s.dev.ctl.dies.w = false → dieDown s.dev.ctl.dies.e = false →
      (imageVersion v (candidate v) 3).toNat % 256 = (imageVersion v v.bank 3).toNat % 256 → v.trav = .idle → s.dev.pwr.inReset = ⟨false, false⟩ →
      Gives (.traverseBegin c) s (restartDie lead.other (logIt 0x0901 0 0 [1] (d := leave c [] (s.dev.onSvc fun v =>
        { v with trav := .traversing, traverse := some { cmd := c, centre := u8 p 0 = 1, restarting := some lead.other, left := [lead] } })))))
    ∧ (∀ t, v.traverse = some t → t.restarting = some k → s.dev.ctl.dies.get k = .starting →
      (t.left = [] → t.centre = false → t.failed = false → v.trav = .traversing →
        Gives (.traverseDieFollower k) s (answerIf t.cmd 0x0903 stDone none (((s.dev.onCtl fun c => { c with dies := c.dies.set k .follower }).onSvc fun v =>
          { v with traverse := none, trav := .traversed }).onCtl fun c => { c with handover := none })))
      ∧ (t.left = [] → t.centre = true → t.failed = false → t.centreBusy = false → v.trav = .traversing →
        Gives (.traverseDieFollower k) s ((s.dev.onCtl fun c => { c with dies := c.dies.set k .follower }).onSvc fun v =>
          { v with traverse := some { t with restarting := none, centreBusy := true } }))
      ∧ (t.failed = false → v.trav = .traversing → v.dieBank.get k.other = v.bank →
        Gives (.traverseRestartTimeout k) s (restartDie k (s.dev.onSvc fun v => { v with traverse := some { t with failed := true, left := [] } }))))
    ∧ (∀ t, v.traverse = some t → t.centreBusy = true → t.failed = false → v.trav = .traversing →
      Gives .centreRuntimeRestartDone s (answerIf t.cmd 0x0903 stDone none ((s.dev.onSvc fun v =>
        { runCentre (candidate v) v with traverse := none, trav := .traversed }).onCtl fun c => { c with handover := none })))
    ∧ (CmdBegun s.dev c 0x0904 p → u8 p 0 < 2 → u8 p 1 = 0 → zeros p 2 6 = true → v.trav = .traversed → v.rootRevoked ≠ 0xF#4 →
      Gives (.traverseCommit c) s (answer c stDone 0 none none (logIt 0x0901 0 0 [2] (d := storeWrite [rkSvn, rkSelector] (s.dev.onSvc (commitBank (tb (u8 p 0) 0) 0))))))
    ∧ (CmdBegun s.dev c 0x0905 p → zeros p 0 8 = true → v.trav = .traversed → v.traverse = none → v.centreBank = v.bank →
      dieDown s.dev.ctl.dies.w = false → dieDown s.dev.ctl.dies.e = false →
      Gives (.traverseAbort c) s (travGo (logIt 0x0901 0 0 [3] (d := leave c [] (s.dev.onSvc fun v =>
        { v with trav := .aborting, traverse := some { cmd := c, centre := false, restarting := none, left := [lead.other, lead] } })))))
    ∧ (CmdBegun s.dev c 0x0906 p → firstBad (microcodeChk c p s.dev) = none → candidateOk v (u8 p 0) = true →
      Gives (.microcodeLoad c) s (microcodeNext (leave c [] (s.dev.onSvc fun v =>
        { v with microcode := some { cmd := c, base := u8 p 0 = 5, units := bitsOf 32 (u32 p 4) } }))))
    ∧ (∀ m u rest, v.microcode = some m → m.units = u :: rest →
      (unitDrained s.dev m.base u = true → m.base = true →
        Gives (.microcodeUnitDrained u) s (microcodeNext (s.dev.onSvc fun v => { v with stackUcode := v.stackUcode.set u (imageVersion v (candidate v) 5), stackDigest := v.stackDigest.set u (imageDigest v (candidate v) 5), microcode := some { m with units := rest, loaded := m.loaded ||| BitVec.ofNat 32 (2 ^ u) } })))
      ∧ Gives (.microcodeDrainTimeout u) s (microcodeNext (s.dev.onSvc fun v => { v with microcode := some { m with units := rest, skipped := m.skipped ||| BitVec.ofNat 32 (2 ^ u) } })))
    ∧ (∀ t, t < 8 → s.dev.tileLive t = true → s.dev.mem.stk.length = 32 → s.dev.eng.lastTile.get? t = none → Completes (.tileLost t) s fun d =>
      d.tileLive t = false ∧ (∀ n q, d.qp? n = some q → qpTile n ≠ t) ∧ (∀ n x, d.cq? n = some x → cqTile n ≠ t)
        ∧ (∀ i, i < 4 → (d.stack (4 * t + i)).mode = .offline) ∧ (d.port (2 * t)).st ≠ .up ∧ (d.port (2 * t + 1)).st ≠ .up
        ∧ devReg d .west (0x2200 + 16 * t) = devReg s.dev .west (0x2200 + 16 * t))

-- Queue pairs, completion queues, work

/-- QP_CREATE and CQ_CREATE take the lowest free place of their tile; QP_MODIFY makes the transitions of R223; the destroy commands free the place (R220 to R228). -/
def Obligations.QueuePairCommands : Prop :=
  ∀ (s : State) (c : CmdSlot) (p : Bytes) (t : Tenant), s.dev.On → s.dev.ten? (u32 p 0) = some t → mgmtOk c t = true → t.st = .active → u32 p 0 < 256 →
    let n := u32 p 0
    let done (d : Dev) : Dev := answer c stDone 0 none none d
    (∀ k, CmdBegun s.dev c 0x0501 p → firstBad (qpCreateChk c p s.dev) = none → u8 p 4 < 8 → u8 p 5 = 0 → formOk s.dev n (u64 p 8) = true → tb (u8 p 7) 0 = false →
      cqBindable s.dev n (u8 p 4) (u16 p 0x1A) = true → (tenQps s.dev n).length < t.par.qpMax → tileUp s.dev (u8 p 4) = true →
      findFrom (qpFree s.dev) 8192 (8192 * u8 p 4) = some k →
      Completes (.qpCreate c) s fun d => (∃ q, d.qp? k = some q ∧ q.st = .reset ∧ q.par.tenant = n ∧ q.par.kind = .loc ∧ q.par.sendCq = u16 p 0x1A
        ∧ q.par.sqAddr.toNat = u64 p 8 ∧ q.par.sqLog2 = u8 p 0x18 ∧ q.par.weight = u8 p 6) ∧ (∀ j, j ≠ k → d.qp? j = s.dev.qp? j) ∧ d.q.cqs = s.dev.q.cqs ∧ d.mem = s.dev.mem)
    ∧ (∀ k, CmdBegun s.dev c 0x0504 p → firstBad (cqCreateChk c p s.dev) = none → formOk s.dev n (u64 p 8) = true → (tenCqs s.dev n).length < t.par.cqMax →
      tileUp s.dev (u8 p 4) = true → findFrom (cqFree s.dev) 2048 (2048 * u8 p 4) = some k →
      Completes (.cqCreate c) s fun d => (∃ q, d.cq? k = some q ∧ q.st = .open ∧ q.tenant = n ∧ q.log2 = u8 p 5 ∧ q.p = 0 ∧ q.c = 0 ∧ q.addr.toNat = u64 p 8
        ∧ q.stallMs = if u16 p 0x10 = 0 then 10 else u16 p 0x10) ∧ (∀ j, j ≠ k → d.cq? j = s.dev.cq? j) ∧ d.q.qps = s.dev.q.qps ∧ d.mem = s.dev.mem)
    ∧ (∀ q, CmdBegun s.dev c 0x0502 p → firstBad (qpModifyChk p s.dev) = none → s.dev.qp? (u32 p 4) = some q → q.par.tenant = n →
      let k := u32 p 4
      (u8 p 8 = 0 → q.st = .error → Settles (.qpModify c) s (done (resetQp k s.dev)))
      ∧ (u8 p 8 = 1 → q.st = .reset → Settles (.qpModify c) s (done (toInit k s.dev)))
      ∧ (u8 p 8 = 2 → q.st = .init → q.par.kind = .v2 → Settles (.qpModify c) s (done (toRtr k p s.dev)))
      ∧ (u8 p 8 = 3 → (q.st = .rtr ∨ q.st = .init ∧ q.par.kind = .loc) → Settles (.qpModify c) s (done (s.dev.onQp k fun q => { q with st := .rts })))
      ∧ (u8 p 8 = 4 → (q.st = .init ∨ q.st = .rtr ∨ q.st = .rts) → Settles (.qpModify c) s (done (toFlush k (some ccFlushed) none s.dev)))
      ∧ (q.st = .flushing → Settles (.qpModify c) s (answer c stBusy 0 none none s.dev)))
    ∧ (∀ q, CmdBegun s.dev c 0x0503 p → u32 p 4 < 65536 → s.dev.qp? (u32 p 4) = some q → q.par.tenant = n → (q.st = .reset ∨ q.st = .error) →
      Completes (.qpDestroy c) s fun d => d.q.qps = s.dev.q.qps.erase (u32 p 4) ∧ d.q.cqs = s.dev.q.cqs ∧ d.mem = s.dev.mem
        ∧ (s.dev.ten.stubs.get? (u32 p 4) = none → qpFree d (u32 p 4) = true))
    ∧ (∀ q, CmdBegun s.dev c 0x0503 p → u32 p 4 < 65536 → s.dev.qp? (u32 p 4) = some q →
      (q.par.tenant ≠ n → Gives (.qpDestroy c) s (answer c stNotOwner 4 none none s.dev))
      ∧ (q.par.tenant = n → q.st ≠ .reset → q.st ≠ .error → Gives (.qpDestroy c) s (answer c stBusy 0 none none s.dev)))
    ∧ (∀ q, CmdBegun s.dev c 0x0505 p → u32 p 4 < 16384 → s.dev.cq? (u32 p 4) = some q →
      (q.tenant ≠ n → Gives (.cqDestroy c) s (answer c stNotOwner 4 none none s.dev))
      ∧ (q.tenant = n → cqInUse s.dev (u32 p 4) = true → Gives (.cqDestroy c) s (answer c stBusy 0 none none s.dev)))
    ∧ (∀ d k, cqInUse d k = true ↔ (∃ j q, (j, q) ∈ d.q.qps ∧ (q.par.sendCq = k ∨ q.par.noRq = false ∧ q.par.recvCq = k ∨ ∃ w, q.wait = some w ∧ w.cq = k))
      ∨ ∃ j r, (j, r) ∈ d.ropes.slots ∧ (r.par.triggerCq = k ∨ r.par.doneCq = k))
    ∧ (∀ q, CmdBegun s.dev c 0x0505 p → u32 p 4 < 16384 → s.dev.cq? (u32 p 4) = some q → q.tenant = n → cqInUse s.dev (u32 p 4) = false →
      Completes (.cqDestroy c) s fun d => d.q.cqs = s.dev.q.cqs.erase (u32 p 4) ∧ d.q.qps = s.dev.q.qps ∧ d.mem = s.dev.mem)
    ∧ (∀ q, CmdBegun s.dev c 0x0506 p → firstBad (pathSetChk p s.dev) = none → s.dev.qp? (u32 p 4) = some q → q.par.tenant = n → q.par.kind = .v2 → q.st ≠ .reset →
      Completes (.pathSet c) s fun d => (∃ r, d.qp? (u32 p 4) = some r ∧ r.paths.length = u8 p 8 ∧ r.paths.map (·.entropy) = (List.range (u8 p 8)).map (fun j => BitVec.ofNat 14 (pathAt p j).2)
        ∧ r.par = q.par ∧ r.st = q.st) ∧ (∀ j, j ≠ u32 p 4 → d.qp? j = s.dev.qp? j))

/-- A turn of a fetch unit reads a burst of the one queue pair that has work; an entry that finds a tracker credit is kept to begin; a first entry begins; an entry whose PHASE is late is read again (R195, R200, R201, R212, R214). -/
def Obligations.WorkEntries : Prop :=
  ∀ (s : State) (n k : Nat) (q : Qp) (x : Tenant) (host : Bytes), s.dev.On → s.dev.pwr.state = .active → s.dev.qp? n = some q → s.dev.ten? q.par.tenant = some x →
    let tile := qpTile n
    let t := q.par.tenant
    (tileUp s.dev tile = true → fetchCands s.dev tile = [⟨t, n, k, 0⟩] → 0 < k → tenCopy s.dev tile t = some x.par → nth s.dev.q.deficits tile [] = [] → nth s.dev.q.lastQueue tile [] = [] →
      let m := min (min 8 k) (min (8 * x.par.fetchWeight) (sqSize q - q.sq.f % sqSize q))
      Settles (.workFetch tile host) s (fetchBurst n false m true host (lookupRange tile t (nextAddr q false) (m * 64) (.work (.sqFetch n) false)
        ((s.dev.onQ fun y => { y with lastTenant := modAt y.lastTenant tile fun _ => t, deficits := modAt y.deficits tile fun _ => [(t, 8 * x.par.fetchWeight - m)], lastQueue := modAt y.lastQueue tile fun l => l.set t (n, q.par.weight - 1) }).onQp n
          fun q => { q with lastRq := false }))))
    ∧ (∀ d b, d.qp? n = some q → qpDead q = false → weVerb b ≠ vbOperate → (weVerb b = vbWait ∨ trackerFull d tile t = false) → weCheck d n q false b = none →
      tb (u8 b 1) 0 = phaseOf (sqSize q) q.sq.f →
      fetchSq n 0 b d = (!(weVerb b = vbWait || weFence b), d.onQp n fun q => tidyIdx { q with
        sq := { q.sq with f := q.sq.f + 1, refetch := 0 }, fetched := q.fetched ++ [⟨q.sq.f, b, none⟩] }))
    ∧ (∀ b, q.sq.refetch = k → 0 < k →
      let d := touchRange tile t (nextAddr q false) 64 false s.dev
      ringRead d tile t (nextAddr q false) host = .bytes b →
      Settles (.phaseRefetch (.sq n) host) s (fetchOne n k false b d).2)
    ∧ (∀ f r, mayBegin s.dev n q = true → q.begun = [] → q.fetched = f :: r → q.par.kind = .loc → f.fail = none → weVerb f.bytes ≠ vbOperate →
      Settles (.entryBegin n host) s (beginEntry n f.idx f.bytes host (s.dev.onQp n fun q => tidyIdx
        { q with fetched := r, begun := [{ idx := f.idx, bytes := f.bytes, msn := none, fin := none }] })))
    ∧ (∀ f r b c e, mayBegin s.dev n q = true → q.begun = [b] → b.held = false → q.fetched = f :: r → f.fail = some (c, e) → q.par.kind = .loc →
      Settles (.entryBegin n host) s (endBad n f.idx c e (s.dev.onQp n fun q => tidyIdx
        { q with fetched := r, begun := [b, { idx := f.idx, bytes := f.bytes, msn := none, fin := none }] })))

/-- A leg of a local transfer whose paths have credits moves its bytes, poisoned codewords with them, and the last ends the entry (R12, R18); a WAIT ends at its target once its patches are made; a stalled completion queue overflows at its limit while its timer runs (R30, R58, R210, R211, R227). -/
def Obligations.TransfersAndWaits : Prop :=
  ∀ (s : State), s.dev.On →
    (∀ x l t g bad d, s.dev.q.xfers.get? x = some t → t.legs[l]? = some g → g.done = false → (∃ p, g.src = .dev p) → legOpen s.dev t.tile g = true → weVerb t.entry ≠ vbAtomic → moveLeg g s.dev = some (bad, d) →
      Settles (.legDone x l) s (xferEnd x 0#64 (d.onQ fun q => { q with xfers := q.xfers.upd x fun t =>
        { t with legs := modAt t.legs l fun g => { g with done := true }, poisoned := t.poisoned || bad, fail := t.fail.orElse fun _ => none } })))
    ∧ (∀ x l t g, s.dev.q.xfers.get? x = some t → t.legs[l]? = some g → legOpen s.dev t.tile g = false → Settles (.legDone x l) s s.dev)
    ∧ (∀ d a b n, (∀ p ∈ [a, b], (d.stack (dpaStack p)).mode = .online ∧ (d.stack (dpaStack p)).held = [] ∧ (d.stack (dpaStack p)).moves = []) → d.mem.poison = [] →
      moveLeg { src := .dev a, dst := .dev b, len := n } d = some (false, memWrite b (memBytes d a n) d))
    ∧ (∀ n q w c, s.dev.qp? n = some q → q.wait = some w → w.satisfied = false → s.dev.cq? w.cq = some c → c.st ≠ .overflow → 0 ≤ seqDiff c.count w.target →
      let v := { w with satisfied := true, count := c.count }
      (weItems (waitEntry q w) = 0 → Settles (.waitSatisfied n) s (waitEnd n v (s.dev.onQp n fun q => { q with wait := some v })))
      ∧ (weItems (waitEntry q w) ≠ 0 → Settles (.waitSatisfied n) s (s.dev.onQp n fun q => { q with wait := some v })))
    ∧ (∀ n q w, s.dev.qp? n = some q → q.wait = some w → w.satisfied = true → q.entryStalled = false →
      Settles (.waitPatchDone n) s (patchItems n (waitEntry q w) (weItems (waitEntry q w) - w.items) w s.dev))
    ∧ (∀ n c, s.dev.cq? n = some c → c.st = .stalled →
      (c.timer = true → Settles (.cqStallLimit n) s (cqOverflow n 0 s.dev)) ∧ (c.timer = false → Settles (.cqStallLimit n) s s.dev))

/-- COUNT of an open completion queue advances by one for every completion of its queue, written or not, but for that of a WAIT; an entry that finds the queue full is held; in OVERFLOW an entry is only counted as discarded (R218, R227). -/
def Obligations.CompletionsCounted : Prop :=
  ∀ (d : Dev) (n : Nat) (c : Cq) (e : Cqe), d.cq? n = some c → c.st = .open →
    (e.code = ccOk → ∃ x, (cqPush n e false false d).cq? n = some x ∧ x.count = c.count + 1#32 ∧ x.p = c.p ∧ x.held = c.held)
    ∧ (e.code = ccOk → cqPush n e false true d = d)
    ∧ (c.held = [] → ringSub (cqSize c) c.p c.c = cqSize c →
      ∃ x, (cqPush n e true false d).cq? n = some x ∧ x.count = c.count + 1#32 ∧ x.held = [e] ∧ x.st = if 64 ≤ 1 + poolUnits d 13 n then .stalled else .holding)
    ∧ cqPush n e true false (d.onCq n fun c => { c with st := .overflow }) = d.onCq n fun c => { c with st := .overflow, discarded := c.discarded + 1 }

-- The near-memory engine

/-- Merge space, grants, operand loads, the end and the failure of legs, walk rounds; a leg waits where its way to the stack or back has no credit, and a parked stack wakes for it (R18, R21, R24, R36, R65, R83, R92, R93, R97 to R99, R104, R115, R130). -/
def Obligations.EngineRules : Prop :=
  ∀ (s : State), s.dev.On →
    (∀ tile i o, (∀ x ∈ s.dev.eng.ops, x.2.tile = tile → x.2.stage ≠ .reading) → mergeHead s.dev tile = some (i, o) → tileUp s.dev tile = true → mergeUsed s.dev tile + o.need ≤ 2048 → cutOpen s.dev o = true →
      Settles (.mergeSpaceGrant tile) s (cutOp i (s.dev.onOp i fun o => { o with merge := true })))
    ∧ (∀ tile i o, s.dev.eng.ops = [(i, o)] → o.tile = tile → o.stage = .reading → tileUp s.dev tile = true → cutOpen s.dev o = true → Settles (.mergeSpaceGrant tile) s (cutOp i s.dev))
    ∧ (∀ k, stackTakes s.dev k = true → Settles (.legGrant k) s (giveBacks (grantLeg k (giveBacks s.dev))))
    ∧ (∀ k, k < 32 → tileUp s.dev (stackTile k) = true → (s.dev.stack k).mode = .parked → (nth s.dev.eng.stk k {}).queue ≠ [] →
      Settles (.legGrant k) s (wakeStack k s.dev))
    ∧ (∀ d k t i j o x, legHeads d k = [(t, i, j, o)] → canGrant d k i j o = true → stackOpen d o.tile k = true → (nth d.eng.stk k {}).deficit = [] → d.ten? t = some x →
      grantLeg k d = ((noteSent 12 k d).onStkEng k fun e => { e with queue := e.queue.erase (i, j), turn := t, deficit := [(t, x.par.opWeight - 1)], starving := if e.starving = some (i, j) then none else e.starving }).onOp i
        fun p => { p with legs := modAt p.legs j fun l => { l with stage := if dOpndLen o.desc = 0 then .running else .loading, back := false } })
    ∧ (∀ k t i j o, (nth s.dev.eng.stk k {}).starving = none → legHeads s.dev k = [(t, i, j, o)] → o.blocks ≠ 0 → 64 < blocksUsed s.dev k + o.blocks →
      Gives (.opstoreStarvation k) s (giveBacks (s.dev.onStkEng k fun e => { e with starving := some (i, j) })))
    ∧ (∀ i j o l b, s.dev.op? i = some o → o.legs[j]? = some l → l.stage = .loading → (∀ r ∈ o.opndRuns, placeOpen s.dev o.tile (.dev r.dpa) = true) →
      let d := touchAll (· = l.stack) o.opndRuns s.dev
      readRuns d o.opndRuns 0 (dOpndLen o.desc) = .ok b →
      (listOk o.desc b = true → listInside o.desc b = true →
        Settles (.operandLoadDone i j) s (d.onOp i fun o => { o with legs := modAt o.legs j fun l => { l with stage := .running, operand := b } }))
      ∧ (listOk o.desc b = false → Settles (.operandLoadDone i j) s (legFails i 0x09 d)))
    ∧ (∀ i j o l, s.dev.op? i = some o → o.legs[j]? = some l → l.stage = .running → opResident o = false → stackAnswers s.dev l.stack o.tile = true → resultOpen s.dev o = true →
      let ran := legCompute (touchAll (· = l.stack) o.dstRuns (touchAll (· = l.stack) (if dOp o.desc = opSet then o.srcRuns else l.runs ++ overhang o l) s.dev)) o l
      (∀ r d, o.legs = [l] → ran = (.ok r, d) → d.op? i = some o → Settles (.legFinish i j) s (opDeliver i (legEnded i j r d)))
      ∧ (∀ e d, ran = (.error e, d) → Settles (.legFinish i j) s (legFails i e d)))
    ∧ (∀ i j o l, s.dev.op? i = some o → o.legs[j]? = some l → stackAnswers s.dev l.stack o.tile = false → Settles (.legFinish i j) s s.dev)
    ∧ (∀ i j o l, s.dev.op? i = some o → o.legs[j]? = some l → legHolds l = true →
      Settles (.legFail i j 0x14#8) s (opFail i ccUncorrectable 0x14 s.dev) ∧ Settles (.legFail i j 0x09#8) s (opFail i (codeOfDetail 0x09) 0x09 s.dev))
    ∧ (∀ i o w ss, s.dev.op? i = some o → opResident o = true → o.stage = .cut → o.legs ≠ [] → (∀ l ∈ o.legs, l.stage = .running ∧ stackAnswers s.dev l.stack o.tile = true) → resultOpen s.dev o = true →
      let d := touchAll (fun k => o.legs.any (·.stack = k)) o.srcRuns s.dev
      walkRound d o ((o.legs.head?.map (·.operand)).getD []) = .ok (w, ss) → w.stop = 0 →
      Settles (.graphWalkRound i) s (d.onOp i fun o => { o with walk := w, legs := chargeLegs o.legs ss (dStride o.desc) }))

-- The wire

/-- Requests of a peer that pass every check: WRITE and SEND are placed as they come, once their places can be reached, and wait to cross the package otherwise; READ, ATOMIC and OPERATE wait for their turn in message order with their window's drain count raised; a window check that fails is a fatal NAK (R33, R34, R179 to R181, R255 to R257). -/
def Obligations.RequestsArrive : Prop :=
  ∀ (s : State) (port : Nat) (p : Pkt) (q : Qp) (e : Dev), s.dev.On →
    let n := p.dstQpn.toNat
    let tile := portTile port
    let arr := e.pwr.tsc.setWidth 32
    let took (t : BitVec 8) : Prop := PktTaken s.dev port t p q e ∧ PktInOrder q t p
    let runs (t : BitVec 8) : Prop := took t ∧ landFlow e tile (targetPlaces e port q t p) = none ∧ ReqRuns e q t p ∧ rxMsg? q p.msn = none
    let holds (t : BitVec 8) (w : Window) : Dev :=
      upRx n { msn := p.msn, verb := t, len := none, port := port, request := some p, psn := p.psn, path := p.path, arrived := arr } id
        (drainUp (bx p.ext 0 4) tile (count 0x0808 tile (some w.tenant) 1 e))
    (∀ w, runs ptWrite → pflag p pfImm = false → winCheck e tile p 2 (reqRanges ptWrite p) = .ok w →
      let a := winAddr w (bx p.ext 8 8 + p.msgOffset.toNat)
      let d := lookupRange tile w.tenant a p.payload.length (.placing n p.msn) (count 0x0808 tile (some w.tenant) 1 e)
      Settles (.write port p) s (placePkt n port ptWrite p arr none none (xrange d tile w.tenant a p.payload.length true).toOption d))
    ∧ (∀ r, runs ptSend →
      let ssn := BitVec.ofNat 32 (bx p.ext 0 4)
      let len := bx p.ext 4 4
      let places := placesAt r.runs p.msgOffset.toNat p.payload.length
      let d := e.onQp n fun q => { q with recvs := q.recvs.map fun x => if x.ord = r.ord && x.fin.isNone then { x with msn := some p.msn } else x }
      conflicts { msn := p.msn, verb := ptSend, len := some len, ssn := some ssn } ptSend p (some ssn) (some len) = false →
      recvFor q p.msn ssn = .some_ r → len ≤ weLen r.bytes → hostShut d places = false →
      Settles (.send port p) s (placePkt n port ptSend p arr (some ssn) (some len) (some places) d))
    ∧ (∀ t u, (t = ptWrite ∧ q.par.kind = .v2 ∨ t = ptSend) → took t → landFlow e tile (targetPlaces e port q t p) = some u →
      Settles (if t = ptWrite then .write port p else .send port p) s
        (e.onFab fun f => { f with crossings := f.crossings ++ [⟨u, inOwn, none, .accepted n port t p arr⟩] }))
    ∧ (∀ w, runs ptReadReq → winCheck e tile p 1 (reqRanges ptReadReq p) = .ok w → Settles (.readReq port p) s (holds ptReadReq w))
    ∧ (∀ w, runs ptAtomicReq → winCheck e tile p 4 (reqRanges ptAtomicReq p) = .ok w → Settles (.atomicReq port p) s (holds ptAtomicReq w))
    ∧ (∀ w, runs ptOperateReq → p.payload.length % 64 = 0 → p.payload.length ≤ 512 → p.payload ≠ [] → pflag p pfFirst = true → pflag p pfLast = true →
      winCheck e tile p (operateNeed p.payload) (reqRanges ptOperateReq p) = .ok w → descCheck false p.payload.length p.payload = none →
      Settles (.operateReq port p) s (holds ptOperateReq w))
    ∧ (∀ c, runs ptReadReq → winCheck e tile p 1 (reqRanges ptReadReq p) = .error c →
      Settles (.readReq port p) s (nakFatal n c (winDetail c) p (count 0x0809 tile (some q.par.tenant) 1 e)))

/-- Responses and control packets: a response meets its message and is placed where its entry was translated to, or waits to cross the package; ACK and NAK act on the messages they name; a PROBE is answered; a DISCONNECT flushes; a duplicate is acknowledged again; a wrong CRC is counted; and RESPONDER_ADMIT runs the next request in message order (R34, R164, R215, R244, R247, R255, R256, R259, R261, R268). -/
def Obligations.ResponsesArrive : Prop :=
  ∀ (s : State) (port : Nat) (p : Pkt) (q : Qp) (e : Dev) (r : Qp), s.dev.On →
    let n := p.dstQpn.toNat
    let arr := e.pwr.tsc.setWidth 32
    let meets (t : BitVec 8) (m : TxMsg) : Prop := PktTaken s.dev port t p q e ∧ PktInOrder q t p ∧ e.qp? n = some r
      ∧ landFlow e (portTile port) (targetPlaces e port r t p) = none
      ∧ r.conn.msgs.find? (fun m => m.msn = p.msn && m.opened && m.verb = respVerb t) = some m
    (∀ m, meets ptReadResp m → Settles (.readResp port p) s (rxReadResp n port r m p arr e))
    ∧ (∀ m, meets ptAtomicResp m →
      let v := beN (slice p.payload 0 8)
      let x := placeBytes (placesAt m.runs 0 8) (toLE 8 v) [] e
      Settles (.atomicResp port p) s (msgDone n port m (if x.1 then ⟨ccUncorrectable, 0x14, 0, 0#64⟩
        else ⟨ccOk, 0, u8 (msgEntry r m) 0x19, BitVec.ofNat 64 v⟩) false (commit n p arr x.2)))
    ∧ (∀ m, meets ptOperateResp m → Settles (.operateResp port p) s (rxOperateResp n port r m p arr e))
    ∧ (∀ u, PktTaken s.dev port ptReadResp p q e → PktInOrder q ptReadResp p → e.qp? n = some r →
      landFlow e (portTile port) (targetPlaces e port r ptReadResp p) = some u →
      Settles (.readResp port p) s (e.onFab fun f => { f with crossings := f.crossings ++ [⟨u, inOwn, none, .accepted n port ptReadResp p arr⟩] }))
    ∧ (PktTaken s.dev port ptAck p q e → Settles (.ack port p) s (rxAck n port p e))
    ∧ (PktTaken s.dev port ptNak p q e → Settles (.nak port p) s (rxNak n port p e))
    ∧ (PktTaken s.dev port ptProbe p q e → Settles (.probe port p) s (sendAck n 0#32 p.txTime (now e) p.path e))
    ∧ (PktTaken s.dev port ptDisconnect p q e → Settles (.disconnect port p) s
      (toFlush n none (some (bx p.ext 0 1)) (count 0x040F port (some q.par.tenant) 1 e)))
    ∧ (PktTaken s.dev port ptWrite p q e → q.conn.fatal = none → psnBefore p.psn q.conn.cumRx = true →
      Settles (.write port p) s (ackNow n p (count 0x0109 port (some q.par.tenant) 1 e)))
    ∧ (s.dev.pwr.state = .active → portUp s.dev port = true → tileUp s.dev (portTile port) = true → (s.dev.port port).ent.mode ≠ .direct →
      ingressFill s.dev port + frameLen p ≤ 1048576 → pflag p pfAuth = false → s.dev.qp? n = some q → q.conn.auth = none → p.trailer.length = 4 →
      p.trailer ≠ toLE 4 (crc32c (coveredBytes ptWrite p)).toNat →
      Settles (.write port p) s (trailerBad port (count 0x0402 port (some q.par.tenant) 1 (count 0x0403 port (some q.par.tenant) (frameLen p) s.dev))))
    ∧ (∀ k m y w, s.dev.qp? k = some q → q.st = .rts → nextAdmit q 64 q.conn.rxMsn = some m → m.request = some y → s.dev.win? (bx y.ext 0 4) = some w →
      let win := bx y.ext 0 4
      let tile := portTile m.port
      tileUp s.dev tile = true → admitOpen s.dev tile w m.verb y = true →
      let d := s.dev.onConn k fun c => { c with rx := c.rx.map fun x => if x.msn = m.msn then { x with admitted := true } else x }
      (m.verb = ptReadReq → Settles (.responderAdmit k) s (commit k y m.arrived (rxDone k m.msn (drainDown win tile (admitRead k w m y d)))))
      ∧ (m.verb = ptAtomicReq → Settles (.responderAdmit k) s (commit k y m.arrived (drainDown win tile (admitAtomic k w m y d))))
      ∧ (m.verb = ptOperateReq → pendingUsed s.dev tile < 1024 → ucodeBusy s.dev false tile = false →
        Settles (.responderAdmit k) s (commit k y m.arrived
          (newOp tile w.tenant (.message k m.msn win (winAddr w 0)) (y.payload.take (dLen y.payload)) d))))

/-- Other frames; PACKET_SEND; the delivery timers (R238, R251, R260, R263 to R269, R272, R300, R312, R339). -/
def Obligations.FramesAndTimers : Prop :=
  ∀ (s : State), s.dev.On →
    (∀ port, portUp s.dev port = true → (s.dev.port port).ent.mode ≠ .direct → bufFull s.dev port 64 = false →
      (∀ h, h.fcsOk = false → Settles (.nonEwewaFrame port h) s (count 0x0100 port none 1 s.dev))
      ∧ (∀ h, h.fcsOk = true → ewewaFrame s.dev h = false → Settles (.nonEwewaFrame port h) s (count 0x0101 port none 1 s.dev))
      ∧ (∀ h, h.fcsOk = true → ewewaFrame s.dev h = true → h.udpLen < 32 + (if pflag h.p pfAuth then 16 else 4) → Settles (.nonEwewaFrame port h) s (malformed port h.p s.dev))
      ∧ (∀ h, h.fcsOk = true → ewewaFrame s.dev h = true → 36 ≤ h.udpLen → ptKnown h.ptype = false → pflag h.p pfAuth = false → authOf s.dev h.p.dstQpn.toNat = none →
        let sound := h.p.trailer = toLE 4 (crc32c (coveredBytes h.ptype h.p)).toNat
        (¬ sound → Settles (.nonEwewaFrame port h) s (trailerBad port s.dev))
        ∧ (sound → versionOk s.dev h.p.dstQpn.toNat h.p = false → Settles (.nonEwewaFrame port h) s (versionBad port h.p s.dev))
        ∧ (sound → versionOk s.dev h.p.dstQpn.toNat h.p = true → Settles (.nonEwewaFrame port h) s (malformed port h.p s.dev)))
      ∧ (∀ mac src ip, ip.length = 4 → (∃ p ∈ s.dev.net.ports, ownIp p.ent.ipv4 ip 4 = true) →
        Gives (.arpRequest port ⟨mac, src, ip⟩) s (ownIn port 7
          { len := 64, excess := false, entered := now s.dev, kind := .arp (arpReply (ownMac (s.dev.port port) (s.dev.port port).ent.ipv4 ip 4) mac src ip) } s.dev))
      ∧ (∀ mac src ip, ip.length = 16 → (∃ p ∈ s.dev.net.ports, ownIp p.ent.ipv6 ip 16 = true) →
        Gives (.neighbourSolicitation port ⟨mac, src, ip⟩) s (ownIn port 7
          { len := 90, excess := false, entered := now s.dev, kind := .neighbour (neighbourReply (ownMac (s.dev.port port) (s.dev.port port).ent.ipv6 ip 16) mac src ip) } s.dev)))
    ∧ (∀ port h, portUp s.dev port = true → bufFull s.dev port 64 = true → Settles (.nonEwewaFrame port h) s (count rxBufFull port none 1 s.dev))
    ∧ (∀ port, (ethRuns (s.dev.port port) = true → bufFull s.dev port 64 = false → Gives (.pauseFrame port) s (count 0x020B port none 1 s.dev))
      ∧ (ethRuns (s.dev.port port) = false → Gives (.pauseFrame port) s s.dev))
    ∧ (∀ port a b, port < s.dev.net.ports.length → bufFull s.dev port 64 = false → (s.dev.port port).st = .checking → (s.dev.port port).lldpDue = true → (s.dev.port port).ent.chassis = a → (s.dev.port port).ent.portId = b →
      Gives (.lldpdu port a b) s (portUpNow port (s.dev.onPort port fun p => { p with lldpSeen := some (a, b) })))
    ∧ (∀ n q u ext data r k pa port, s.dev.qp? n = some q → q.st = .rtr ∨ q.st = .rts → tileUp s.dev (qpTile n) = true → q.conn.auth = none → nextPkt q = some u →
      let e := touchPlaces (payloadPlaces s.dev n q u) s.dev
      payloadOf e n q u = .ok ext data → ((tenantShaper s.dev q.par.tenant (qpTile n)).enable = false ∨ 0 < (tenantShaper s.dev q.par.tenant (qpTile n)).peak) →
      let d := dropDeadPaths n s.dev
      d.qp? n = some r → choosePath u (eligible d n r u.ptype (plannedLen d n r ext data)) = some (k, pa, port) →
      Settles (.packetSend n) s (sendOn n r u ext data k pa port (dropDeadPaths n e)))
    ∧ (∀ n q u, s.dev.qp? n = some q → pkt? q u.psn = some u → suspended q u = false →
      (u.sends ≠ 0 ∨ (q.conn.unacked.find? fun x => x.sends = 0) = some u ∧ noRoute s.dev n q = true) →
      (u.retx < 7 → Settles (.retransmitTimer (.qp n) u.psn) s (markResend n u (some 0x0404) true s.dev))
      ∧ (7 ≤ u.retx → Settles (.retransmitTimer (.qp n) u.psn) s (noAck n u s.dev)))
    ∧ (∀ n q, s.dev.qp? n = some q → q.conn.commits ≠ 0 → q.st = .rts → Settles (.ackTimer (.qp n)) s (ackLatest n s.dev))
    ∧ (∀ n q msn, s.dev.qp? n = some q → (∃ m ∈ q.conn.msgs, m.msn = msn ∧ m.suspended = true) →
      Settles (.notReadyBackoff n msn) s (s.dev.onConn n fun c => { c with
        msgs := c.msgs.map fun m => if m.msn = msn then { m with suspended := false } else m
        unacked := c.unacked.map fun u => if isReq u.ptype && u.msn = msn then { u with due := true } else u }))
    ∧ (∀ n q m, s.dev.qp? n = some q → q.conn.msgs.find? (fun m => !m.opened) = some m → q.par.kind ≠ .v1 → q.st = .rts →
      (m.probes < 7 → Settles (.msnProbe n) s (sendProbe n (((List.range q.paths.length).find? fun k => (q.paths[k]?).any (·.up)).getD 0)
        (s.dev.onConn n fun c => { c with msgs := c.msgs.map fun x => if x.msn = m.msn then { x with probes := x.probes + 1 } else x })))
      ∧ (7 ≤ m.probes → Settles (.msnProbe n) s (msgFail n m ccRetryExceeded 0x47 s.dev)))
    ∧ (∀ n q, s.dev.qp? n = some q → q.st = .rtr → q.conn.gotValid = false →
      Settles (.grantAnnounce n) s (sendAck n 0#32 0#32 (now s.dev) 0#8 (extendGrant n s.dev)))
    ∧ (∀ n q, s.dev.qp? n = some q → q.conn.discLeft ≠ 0 →
      Settles (.disconnectRepeat n) s (sendCtl n ptDisconnect (discExt q.conn.discReason) 0 (s.dev.onConn n fun c => { c with discLeft := c.discLeft - 1 })))
    ∧ (∀ n, s.dev.ten.stubs.get? n = none → Gives (.tombstoneExpiry n) s (s.dev.onQ fun x => { x with tombs := x.tombs.erase n }))

-- Congestion and shaping

/-- Profiles, shapers, meters and gate lists as their commands set them, and the timers that run them (R281, R284, R288 to R293, R296, R298, R301 to R304). -/
def Obligations.CongestionRules : Prop :=
  ∀ (s : State) (c : CmdSlot) (p : Bytes), s.dev.On →
    let done (d : Dev) : Dev := answer c stDone 0 none none d
    (CmdBegun s.dev c 0x0507 p → firstBad (ccProfileChk p s.dev) = none → u8 p 0 = 0 →
      Gives (.ccProfileSet c) s (replFinish c 0x0507 stDone none [.profileEntry (u8 p 1)]
        (s.dev.onNet fun n => { n with profiles := modAt n.profiles (u8 p 1) fun _ => parseProfile p, defined := insNat n.defined (u8 p 1) })))
    ∧ (CmdBegun s.dev c 0x0701 p → firstBad (shaperChk p s.dev) = none → u8 p 0 = 0 →
      Gives (.shaperSet c) s (done (s.dev.onPort (u8 p 1) fun x => { x with queues := modAt x.queues (u8 p 2) fun q => { q with shaper := { q.shaper with next := some (parseShaper p) } } })))
    ∧ (CmdBegun s.dev c 0x0702 p → firstBad (meterChk p s.dev) = none → u8 p 0 = 0 →
      Gives (.meterSet c) s (done (s.dev.onPort (u8 p 1) fun x => { x with meter := { x.meter with next := some (parseMeter p) } })))
    ∧ (CmdBegun s.dev c 0x0703 p → firstBad (gateChk p s.dev) = none → (s.dev.port (u8 p 0)).gatePending = none → u8 p 1 = 1 →
      let l : GateList := ⟨u64 p 8, u32 p 0x10, gateEntries p⟩
      Gives (.gateListSet c) s ((leave c [u8 p 0] s.dev).onPort (u8 p 0) fun x => { x with gatePending := some ⟨some l, c, cycleStart l.base l.cycle (now s.dev + usTicks 10)⟩ }))
    ∧ (∀ base cycle t, 0 < cycle → let a := cycleStart base cycle t; t ≤ a ∧ a < t + cycle ∧ (a : Int) % cycle = (base : Int) % cycle)
    ∧ (∀ n k q x, s.dev.qp? n = some q → q.paths[k]? = some x → x.up = false → q.st = .rts → q.par.kind = .v2 →
      (x.probe = [] → Settles (.pathHoldExpiry n k) s (sendProbe n k s.dev))
      ∧ (x.probe ≠ [] → Settles (.pathHoldExpiry n k) s (onPath n k (fun p => { p with probe := [], holdStart := now s.dev }) s.dev)))
    ∧ (∀ n k, Gives (.baseWinRotate n k) s (onPath n k (fun p => { p with basePrev := p.baseCur, baseCur := none, base := p.baseCur.orElse fun _ => p.base }) s.dev))
    ∧ (∀ port g, port < s.dev.net.ports.length → (s.dev.port port).gate = some g → (s.dev.port port).gateOn = true →
      Gives (.gateEntryAdvance port) s (s.dev.onPort port fun x => enterGate ((x.gateIdx + 1) % max 1 g.entries.length) x (now s.dev)))
    ∧ (∀ port g, (s.dev.port port).gatePending = some g → g.list = none →
      Gives (.gateListTakeover port) s (answerIf g.cmd 0x0703 stDone none (s.dev.onPort port fun x =>
        { x with gate := none, gateOn := false, gateIdx := 0, gatePending := none, queues := x.queues.map fun e => { e with headWaited := false } })))
    ∧ (Gives .eqSamplePeriod s (s.dev.onNet fun n => { n with ports := n.ports.map fun x => { x with queues := x.queues.map fun q =>
        { q with peakDepth := q.maxDepth, peakSojourn := min q.maxSojourn 0xFFFFFFFF, maxDepth := eqDepth q, maxSojourn := 0 } } }))
    ∧ ((∀ y ∈ s.dev.net.pace, y.2.egressNext = none) →
      let d := s.dev.onRopes fun r => { r with slots := r.slots.map fun (i, x) => (i, fillRope s.dev s.dev.net.fills x) }
      Gives .bucketFill s (d.onNet fun n => { n with
        fills := (n.fills + 1) % 125, ports := n.ports.map (fillPort n.fills), pace := n.pace.map fun (t, y) => (t, fillPace d n.fills t y) }))
    ∧ (∀ rate k, fillOf rate (k + 125) = fillOf rate k ∧ ((List.range 125).map (fillOf rate)).sum = 1024 * rate)
    ∧ (∀ port, gateHeld s.dev (s.dev.port port) = false → (s.dev.port port).st = .sleep → (pickFrame s.dev { s.dev.port port with st := .up }).1 ≠ .nothing →
      Gives (.portSchedule port) s (s.dev.onPort port fun x => { x with st := .up }))
    ∧ (∀ port f rest, gateHeld s.dev (s.dev.port port) = false → (s.dev.port port).st = .up → (s.dev.port port).holding = false → (nth (s.dev.port port).queues 7 {}).frames = f :: rest → linkTakes s.dev (s.dev.port port) f false = true →
      let d := s.dev.onPort port fun x => { x with sleepSent := x.sleepSent && isMgt f, queues := ((List.range 8).zip x.queues).map fun (i, q) => if i ≠ 7 then q else { q with
        frames := q.frames.erase f, shaper := shaperCharge q.shaper f.len, sent := q.sent + BitVec.ofNat 48 (f.len + 20),
        maxSojourn := max q.maxSojourn (now s.dev - f.entered), headWaited := false, deficit := if q.frames.length ≤ 1 then 0 else q.deficit } }
      Gives (.portSchedule port) s (startFrame port (ownChannel s.dev (s.dev.port port) f) false f
        (heldDrain 7 port (count 0x0504 port none 1 (count 0x0505 port none (f.len + 20) d)))))

-- Links

/-- DIRECT blocks: CRC, sequence, acknowledgement, credits, channel and frame rules, replay and its limit, forwarding (R315 to R320, R329, R343). -/
def Obligations.LinkBlocks : Prop :=
  ∀ (s : State) (port : Nat) (b : Block), s.dev.On → linkLive (s.dev.port port) = true →
    let l := (s.dev.port port).link
    let ask (d : Dev) : Dev := if l.reqOut then d else sendPlain port btReplay l.rxSeq (onLink port (fun l => { l with reqOut := true }) d)
    let vc := blkVc b
    let next : Dev := onLink port (fun l => { l with rxSeq := (l.rxSeq + 1) % 4096, reqOut := false }) s.dev
    let took : Dev := onLink port (fun l => { l with rxCredits := modAt l.rxCredits vc (· - 1) }) next
    let opened := nth l.openBlocks vc []
    let body := slice b.payload 0 (blkLen b)
    let plain : Prop := blkCrcOk b = true ∧ blkFormOk b = true ∧ l.unacked = [] ∧ blkCredits b = 0
    (blkCrcOk b = false → Settles (.data port b) s (ask (badBlock port 0x0200 s.dev)))
    ∧ (blkCrcOk b = true → blkType b = btData → blkSeq b ≠ l.rxSeq → Settles (.data port b) s (ask (badBlock port 0x0201 s.dev)))
    ∧ (plain → blkType b = btData → blkSeq b = l.rxSeq → vc < 6 → nth l.rxCredits vc 0 ≠ 0 → nth l.dropping vc false = false → opened.length < 35 →
      blkSof b = decide (opened = []) →
      (blkEof b = true → Settles (.data port b) s (wholeFrame port vc (opened.length + 1) (opened.flatten ++ body)
        (onLink port (fun l => { l with openBlocks := modAt l.openBlocks vc fun _ => [] }) took)))
      ∧ (blkEof b = false → Settles (.data port b) s (onLink port (fun l => { l with openBlocks := modAt l.openBlocks vc fun x => x ++ [body] }) took)))
    ∧ (plain → blkType b = btData → blkSeq b = l.rxSeq → nth l.rxCredits vc 0 = 0 →
      Settles (.data port b) s (linkViolation port 0x0204 true (dropOpen port vc (!blkEof b) next)))
    ∧ (plain → blkType b = btData → blkSeq b = l.rxSeq → vc = 6 → nth l.rxCredits vc 0 ≠ 0 → blkSof b = true → blkEof b = true →
      (1 ≤ u8 b.payload 0 → u8 b.payload 0 ≤ 6 → Settles (.data port b) s (oweBack port 6 1 took))
      ∧ (6 < u8 b.payload 0 → Settles (.data port b) s (count 0x0209 port none 1 (oweBack port 6 1 took))))
    ∧ (∀ i x, blkCrcOk b = true → blkFormOk b = true → blkType b = btIdle → blkCredits b = 0 → (s.dev.port port).holding = false → (s.dev.port port).sleepDue = false →
      l.unacked[i]? = some x → x.1 = blkAck b → 0 < i → (∀ k y, k < i → l.unacked[k]? = some y → y.1 ≠ blkAck b) →
      Settles (.idle port b) s (onLink port (fun l => { l with unacked := l.unacked.drop i, replayCount := 0 }) s.dev))
    ∧ (blkCrcOk b = true → blkFormOk b = true → blkType b = btIdle → l.unacked = [] → blkCreditVc b < 7 → blkCredits b ≠ 0 →
      let top := nth linkDepth (blkCreditVc b) 0
      let d := onLink port (fun l => { l with credits := modAt l.credits (blkCreditVc b) fun x => min top (x + blkCredits b) }) s.dev
      (nth l.credits (blkCreditVc b) 0 + blkCredits b ≤ top → Settles (.idle port b) s d)
      ∧ (top < nth l.credits (blkCreditVc b) 0 + blkCredits b → Settles (.idle port b) s (linkViolation port 0x0205 true d)))
    ∧ (∀ i x, blkCrcOk b = true → blkFormOk b = true → blkType b = btReplay → blkCredits b = 0 → blkAck b ≠ l.txSeq → (∀ k y, 0 < k → l.unacked[k]? = some y → y.1 ≠ blkAck b) →
      l.unacked[i]? = some x → x.1 = blkSeq b → (∀ k y, k < i → l.unacked[k]? = some y → y.1 ≠ blkSeq b) →
      (l.replaySeq ≠ blkSeq b → Settles (.replayReq port b) s ((l.unacked.drop i).foldl (fun d (_, b) => emit (.block port b) d)
        (count 0x020D port none 1 ((onLink port (fun l => { l with replaySeq := blkSeq b, replayCount := 1 }) s.dev).onPort port fun p =>
          { p with replays := satAdd p.replays 1 }))))
      ∧ (l.replaySeq = blkSeq b → 8 ≤ l.replayCount → Settles (.replayReq port b) s (replayRetrain port s.dev)))
    ∧ (plain → blkType b = btReplay → Settles (.replayReq port b) s (replayRetrain port (logLink port 0x0202 (count 0x0202 port none 1 s.dev))))
    ∧ (∀ w x e c, l.whole = [(w, x)] → w < 6 → forwardTo s.dev (s.dev.port port) w x = some (e, c) →
      (tileOpen s.dev (vcClass w) (portTile port) (portTile e) = false → Gives (.frameForward port) s s.dev) ∧
      (tileOpen s.dev (vcClass w) (portTile port) (portTile e) = true →
      let n := blocksOf x.length
      let d := oweBack port w n (onLink port (fun l => { l with whole := [] }) s.dev)
      let f : Frame := { len := x.length, excess := false, entered := now s.dev, kind := .transit x }
      Gives (.frameForward port) s (count 0x020F port none 1 ((onLink e (fun l => { l with credits := modAt l.credits c (· - n) }) d).onPort e fun p =>
        { p with forward := modAt p.forward c (· ++ [f]) }))))

/-- Port states: training, the Lamold check, retrains, loss of signal, sleep and wake; a port that goes down loses its frames, its link state and its replay buffer (R320, R339, R340, R343, R536). -/
def Obligations.LinkTraining : Prop :=
  ∀ (s : State) (port : Nat), s.dev.On → port < s.dev.net.ports.length →
    let p := s.dev.port port
    let lock : Dev := s.dev.onPwr fun x => { x with serdesLock := modAt x.serdesLock (port / 2) fun _ => true }
    let trains (lanes : BitVec 8) : Prop := p.st = .training ∧ p.ent.mode ≠ .none ∧ lanes ≠ 0#8 ∧ p.recal = none ∧ asleepPort s.dev port = false
    (∀ lanes, trains lanes → p.replayRetrain = false → p.ent.mode = .direct →
      let d := lock.onPort port fun p => { p with st := .checking, link := {}, identSeen := false, lanesHealthy := lanes, lanesActive := lowLanes lanes (widthOf p.widthCap lanes) }
      Gives (.trainingDone port lanes) s (sendMgt port (identMsg d port) d))
    ∧ (∀ lanes, trains lanes → p.replayRetrain = false → p.ent.mode = .dr8 → p.fallbackActive = false →
      let d := lock.onPort port fun p => { p with st := .checking, lanesActive := if lanes = 0xFF#8 then lanes else 0#8, lanesHealthy := lanes, sublinkA := false, sublinkB := false }
      (lanes ≠ 0xFF#8 → Gives (.trainingDone port lanes) s (holdPort port 2 d))
      ∧ (lanes = 0xFF#8 → p.ent.chassis = [] → p.ent.portId = [] → Gives (.trainingDone port lanes) s (portUpNow port d))
      ∧ (lanes = 0xFF#8 → p.ent.chassis ≠ [] → Gives (.trainingDone port lanes) s (d.onPort port fun p => { p with lldpDue := true })))
    ∧ (∀ lanes, trains lanes → p.replayRetrain = true → p.ent.mode = .direct →
      (p.lanesActive &&& lanes = p.lanesActive → Gives (.trainingDone port lanes) s (stepAgain port (lock.onPort port fun p => { p with st := .up, replayRetrain := false })))
      ∧ (p.lanesActive &&& lanes ≠ p.lanesActive → Gives (.trainingDone port lanes) s s.dev))
    ∧ (p.st = .training → p.ent.mode ≠ .none → p.replayRetrain = false → asleepPort s.dev port = false →
      Gives (.trainingTimeout port) s (s.dev.onPort port fun p => { p with st := .training, retrains := satAdd p.retrains 1 }))
    ∧ (p.st = .training → p.replayRetrain = true → Settles (.retrainTimeout port) s (portDown port s.dev))
    ∧ (∀ msg, p.ent.mode = .direct → p.st = .checking → msg.length = 32 → u8 msg 0 = 1 →
      let d := s.dev.onPort port fun p => { p with identSeen := true, peerNode := BitVec.ofNat 16 (u16 msg 2), peerPort := u8 msg 1 % 16, peerId := slice msg 8 16 }
      (u8 msg 4 = 3 → u8 msg 1 = p.ent.peerPort → u16 msg 2 = p.ent.peerNode.toNat → slice msg 8 16 = slice p.ent.peerId 0 16 →
        Settles (.ident port msg) s (stepAgain port (portUpNow port d)))
      ∧ (identCheck p msg ≠ 0 → Settles (.ident port msg) s (holdPort port (identCheck p msg) d)))
    ∧ (p.ent.mode = .direct → p.st = .checking → p.identSeen = false → Settles (.identTimeout port) s (trainAfresh port s.dev))
    ∧ (p.st = .checking → p.lldpDue = true → Gives (.lldpTimeout port) s (holdPort port 6 s.dev))
    ∧ (p.st = .up ∨ p.st = .stepping → Settles (.lossOfSignal port) s (portDown port s.dev))
    ∧ (p.st = .sleep → Settles (.lossOfSignal port) s s.dev)
    ∧ (isEth p = true → portUp s.dev port = true → p.fecLast = none → Settles (.ethFecUncorrectableRetrain port 0) s (trainAfresh port
      (logLink port 0x020C (count 0x020C port none 1 (s.dev.onPort port fun p => { p with fecLast := some (now s.dev) })))))
    ∧ (p.adminDrain = none →
      let x := (portDown port s.dev).port port
      x.st = .down ∧ x.link = {} ∧ x.lanesActive = 0#8 ∧ x.step = none ∧ (∀ q ∈ x.queues, q.frames = []) ∧ x.retrains = p.retrains ∧ x.ent = p.ent)
    ∧ (∀ c, p.adminDrain = some c → Settles (.adminDownDrainEnd port) s (portDown port s.dev) ∧ ((portDown port s.dev).port port).st = .adminDown)
    ∧ (p.ent.mode = .direct → p.st = .up → p.sleepReq = true → s.dev.pwr.state = .active → linkQuiet p = true →
      Gives (.sleepIdleTimer port) s (sendMgt port [0x05#8] (s.dev.onPort port fun p => { p with sleepSent := true })))
    ∧ (p.ent.mode = .direct → p.st = .up → linkQuiet p = true → Gives (.sleepReq port) s (sendMgt port [0x06#8] (s.dev.onPort port fun p => { p with sleepDue := true })))
    ∧ (p.st = .up → p.sleepSent = true →
      let d := s.dev.onPort port fun p => { p with sleepDue := true }
      (p.link.unacked ≠ [] → Gives (.sleepAck port) s d)
      ∧ (p.link.unacked = [] → (nth p.queues 7 {}).frames = [] → p.held7 = [] →
        Gives (.sleepAck port) s ((sendPlain port btIdle p.link.txSeq d).onPort port fun p => { p with st := .sleep, sleepSent := false, sleepDue := false })))
    ∧ (p.st = .sleep → Gives (.linkWake port) s (stepAgain port (s.dev.onPort port fun p => { p with st := .up })))
    ∧ Gives (.replayReqTimer port) s (onLink port (fun l => { l with reqOut := false }) s.dev)

/-- Width steps and their messages, LANE_RECAL, LINK_CONTROL, the node table (R325, R333 to R337, R341). -/
def Obligations.WidthSteps : Prop :=
  ∀ (s : State) (port : Nat) (c : CmdSlot) (q : Bytes), s.dev.On → port < s.dev.net.ports.length →
    let p := s.dev.port port
    let named : Prop := u8 q 0 = port ∧ port < 16
    (∀ lane, p.ent.mode = .direct → p.st = .up → p.step = none → tb p.lanesActive.toNat lane = true →
      let d := s.dev.onPort port fun p => { p with lanesHealthy := setLane lane false p.lanesHealthy, laneCheck := setLane lane false p.laneCheck }
      Settles (.laneUnhealthy port lane) s (if goodLanes (d.port port) = 0#8 then portDown port d else startStep port .lane d))
    ∧ (∀ lane, p.ent.mode = .direct → p.st = .up → p.step = none → p.recal = none → p.stepAfter = none →
      let d := s.dev.onPort port fun p => { p with lanesHealthy := setLane lane true p.lanesHealthy, stepUpDue := false }
      p.lanesActive &&& ~~~goodLanes (d.port port) = 0#8 →
      Gives (.laneStepUp port lane) s
        (if laneCount p.lanesActive < stepWidth p (goodLanes (d.port port)) then startStep port .up d else d))
    ∧ (∀ mask x, p.ent.mode = .direct → p.st = .stepping → p.step = some x → x.stateIn = false →
      let m := goodLanes p &&& mask
      (m = 0#8 → Settles (.laneState port mask) s (portDown port s.dev))
      ∧ (m ≠ 0#8 → Settles (.laneState port mask) s (sendWidthReq port m (s.dev.onPort port fun p => { p with step := some { x with stateIn := true } }))))
    ∧ (∀ mask w x, p.ent.mode = .direct → p.st = .stepping → p.step = some x → x.reqSent = true →
      (x.mask = mask → x.ackIn = false → Settles (.widthReq port mask w) s ((sendMgt port [0x04#8, mask, BitVec.ofNat 8 w] s.dev).onPort port fun p =>
        { p with step := some { x with mask := mask, ackOut := true, peerWidth := w } }))
      ∧ (x.mask ≠ mask → x.mask &&& mask ≠ 0#8 →
        let d := s.dev.onPort port fun p => { p with step := some { x with mask := x.mask &&& mask, reqSent := false, ackIn := false, ackOut := false } }
        Settles (.widthReq port mask w) s (if lowerId s.dev p then sendWidthReq port (x.mask &&& mask) d else d)))
    ∧ (∀ mask x, p.st = .stepping → p.step = some x → x.reqSent = true → x.mask = mask → x.ackOut = true → x.cause = .lane →
      let lanes := lowLanes mask (min x.peerWidth (stepWidth p mask))
      Gives (.widthAck port mask (stepWidth p mask)) s (stepAgain port (logIt 0x0302 3 port [p.lanesActive.toNat, lanes.toNat] (d := count 0x020E port none 1
        (s.dev.onPort port fun p => { p with st := .up, step := none, lanesActive := lanes, steps := satAdd p.steps 1 })))))
    ∧ (∀ m : BitVec 8, laneCount (lowLanes m (widthOf 8 m)) = widthOf 8 m ∧ lowLanes m (widthOf 8 m) &&& m = lowLanes m (widthOf 8 m))
    ∧ (named → CmdBegun s.dev c 0x0706 q → u8 q 1 < 8 → zeros q 2 6 = true →
      (p.step ≠ none → Settles (.laneRecal c) s (answer c stBusy 0 none none s.dev))
      ∧ (p.recal = none → p.recalUp = none → p.step = none → p.stepAfter = none →
        (p.st ≠ .up → Settles (.laneRecal c) s (answer c stBadParam 0 none none s.dev))
        ∧ (p.st = .up → p.ent.mode = .direct → tb p.lanesActive.toNat (u8 q 1) = true →
          (laneCount p.lanesActive = 1 → Settles (.laneRecal c) s (answer c stNotPermitted 0 none none s.dev))
          ∧ (laneCount p.lanesActive ≠ 1 → Settles (.laneRecal c) s (startStep port (.recalDown (u8 q 1) c)
            ((leave c [port, u8 q 1] s.dev).onPort port fun p => { p with recal := some (u8 q 1, c) }))))))
    ∧ (∀ lane k, p.recal = some (lane, k) → p.step = none → p.replayRetrain = false → p.ent.mode = .direct → p.st = .up →
      let d (ok : Bool) : Dev := s.dev.onPort port fun p => { p with recal := none, recalDone := none, lanesHealthy := setLane lane ok p.lanesHealthy }
      Gives (.laneRecalDone port true) s (startStep port (.recalUp lane k) (d true)) ∧ Gives (.laneRecalDone port false) s (answerIf k 0x0706 stNote none (d false)))
    ∧ (named → CmdBegun s.dev c 0x0705 q → zeros q 3 5 = true → p.recal = none → p.recalUp = none → p.step = none → p.stepAfter = none →
      (u8 q 1 = 0 → u8 q 2 = 0 → p.ent.mode ≠ .direct → Settles (.linkControl c) s (answer c stDone 0 none none ((portDown port s.dev).onPort port fun p => { p with st := .adminDown })))
      ∧ (u8 q 1 = 0 → u8 q 2 = 0 → p.ent.mode = .direct → portUp s.dev port = true → p.link.unacked ≠ [] →
        Settles (.linkControl c) s (downPaths port (resendPort port ((leave c [port] s.dev).onPort port fun p => { dropFrames p with adminDrain := some c }))))
      ∧ (u8 q 1 = 1 → u8 q 2 = 0 → p.ent.mode ≠ .none → p.st = .adminDown → Settles (.linkControl c) s (answer c stDone 0 none none (s.dev.onPort port fun p => { p with st := .down })))
      ∧ (u8 q 1 = 1 ∨ u8 q 1 = 2 → u8 q 2 = 0 → p.ent.mode = .none → Settles (.linkControl c) s (answer c stNotPermitted 0 none none s.dev))
      ∧ (u8 q 1 = 2 → u8 q 2 = 0 → p.ent.mode ≠ .none → Settles (.linkControl c) s (answer c stDone 0 none none ((trainAfresh port s.dev).onPort port fun p => { p with fallbackActive := false })))
      ∧ (u8 q 1 = 3 → u8 q 2 = 4 → p.ent.mode = .direct →
        let x : NetPort := { p with widthCap := 4 }
        let d := s.dev.onPort port fun p => { p with widthCap := 4 }
        stepWidth x (goodLanes x) ≠ laneCount p.lanesActive →
        (p.st = .up ∨ p.st = .sleep → Settles (.linkControl c) s (startStep port (.cap c) (leave c [port] d)))
        ∧ (p.st = .checking → Settles (.linkControl c) s ((leave c [port] d).onPort port fun p => { p with stepAfter := some (.cap c) })))
      ∧ (u8 q 1 = 3 → u8 q 2 = 4 → p.ent.mode = .direct → p.st ≠ .up → p.st ≠ .sleep → p.st ≠ .checking → p.replayRetrain = false → Settles (.linkControl c) s (answer c stDone 0 none none (s.dev.onPort port fun p => { p with widthCap := 4 })))
      ∧ (u8 q 1 = 3 → u8 q 2 = 3 → p.ent.mode = .direct → Settles (.linkControl c) s (answer c stBadParam 2 none none s.dev)))
    ∧ (CmdBegun s.dev c 0x0704 q → firstBad (nodeTableChk q s.dev) = none → 
      let es := (List.range (u16 q 2)).map fun i => (u16 q 0 + i, slice q (8 + 32 * i) 32)
      Gives (.nodeTableWrite c) s (replFinish c 0x0704 stDone none (es.map fun e => .nodeEntry e.1 e.2)
        (s.dev.onNet fun n => { n with nodes := es.foldl (fun t e => putNode e.1 e.2 t) n.nodes })))

-- Ropes

/-- ROPE_CREATE, ROPE_DESTROY and ROPE_QUERY; calls that become due, their checks and their completions; PITCH_TIMEOUT and the abort's repeats (R348, R349, R354, R371 to R373, R376 to R378). -/
def Obligations.RopeCommands : Prop :=
  ∀ (s : State) (c : CmdSlot) (p : Bytes) (t : Tenant), s.dev.On →
    let n := u32 p 0
    let k := u8 p 4
    let may (op : Nat) : Prop := CmdBegun s.dev c op p ∧ s.dev.ten? n = some t ∧ mgmtOk c t = true ∧ t.st = .active
    let named : Prop := n < 256 ∧ k < 64 ∧ zeros p 5 3 = true
    (may 0x0601 → firstBad (ropeCreateChk p s.dev) = none → ropeCqOk s.dev n (u8 p 9) (u16 p 0x2A) = true → ropeCqOk s.dev n (u8 p 9) (u16 p 0x2C) = true →
      (t.par.ropes ≤ (tenRopes s.dev n).length → Gives (.ropeCreate c) s (quotaHit c n 6 s.dev))
      ∧ ((tenRopes s.dev n).length < t.par.ropes → sramFree s.dev (u8 p 9) < partUnits (u8 p 0x19) (u8 p 0x18) → Gives (.ropeCreate c) s (answer c stNoResource 0 none none s.dev))
      ∧ (∀ q, (tenRopes s.dev n).length < t.par.ropes → partUnits (u8 p 0x19) (u8 p 0x18) ≤ sramFree s.dev (u8 p 9) → tileUp s.dev (u8 p 9) = true → s.dev.cq? (u16 p 0x2A) = some q →
        let r := parseRope p q.count
        Gives (.ropeCreate c) s (answer c stDone 0 none none (s.dev.onRopes fun x => { x with
          slots := x.slots.set (u8 p 8) { r with bucket := if r.par.maxRate = 0 then 0 else 1024 * (ropeBurst s.dev r : Int) } }))))
    ∧ (∀ r, may 0x0603 → named → addrOk c (u64 p 8) 64 = true → s.dev.rope? k = some r →
      (r.par.tenant = n → Gives (.ropeQuery c) s (answer c stDone 0 (some (u64 p 8, ropeRecord r)) none s.dev))
      ∧ (r.par.tenant ≠ n → Gives (.ropeQuery c) s (answer c stNotOwner 4 none none s.dev)))
    ∧ (∀ r, may 0x0602 → named → s.dev.rope? k = some r → r.par.tenant = n → r.st = .idle → Settles (.ropeDestroy c) s
      ((iter (dueAborted k r.par.index 0x6A) (dueCount s.dev r) (leave c [k] s.dev)).onRope k fun r => { r with refetch := 0, destroying := some (some c) }))
    ∧ (∀ k r q, s.dev.rope? k = some r → r.destroying = some (some q) → ropeQueued s.dev k = false → r.abortDown = 0 → r.abortUp = 0 → r.waiting = [] →
      Settles (.ropeSlotFreed k) s (tenResetTry r.par.tenant (answerIf q 0x0602 stDone none
        (dropWaiters (fun w => w = .rope k) (s.dev.onRopes fun x => { x with slots := x.slots.erase k })))))
    ∧ (∀ k r e, s.dev.rope? k = some r → ropeDue s.dev r = true → ropeRuns s.dev r = true → r.waiting = [] → entryOpen s.dev r = true →
      let a := callEntryAddr r r.nextCall
      let u := touchRange r.par.tile r.par.tenant a 64 false s.dev
      readCall u r r.nextCall = .ok e →
      let d := (enterRun r.par.tile r.par.tenant a (.calls k) u).2
      let start : Dev := d.onRope k fun r => { r with st := .running, call := some { num := r.nextCall, entry := e, rx := { limit := r.par.ledges } }, refetch := 0 }
      (r.st = .idle → ropeMay s.dev r = true → doneOpen s.dev r = true → r.refetch = 0 → r.stalled = false →
        (tb (u8 e 1) 0 ≠ phaseOf (2 ^ r.par.callLog2) r.nextCall → Settles (.ropeCallDue k) s (d.onRope k fun r => { r with refetch := 1 }))
        ∧ (tb (u8 e 1) 0 = phaseOf (2 ^ r.par.callLog2) r.nextCall →
          (callForm r e = false → Settles (.ropeCallDue k) s (ropeAbortLocal k 0x66 start))
          ∧ (callForm r e = true → callAccess d r e = false → Settles (.ropeCallDue k) s (ropeAbortLocal k 0x64 start))
          ∧ (callForm r e = true → callAccess d r e = true → r.par.members ≠ 1 → Settles (.ropeCallDue k) s (sendRopeAck k start))))
      ∧ (r.st = .aborted → Settles (.ropeCallDue k) s (d.onRope k fun r => { r with
          nextCall := r.nextCall + 1, callsDone := r.callsDone + 1#32, waiting := [(ropeCqe k r r.nextCall e ccRopeAbort r.abortReason r.abortOrigin 0, true)] })))
    ∧ (∀ k r x, s.dev.rope? k = some r → r.call = some x →
      (x.rx.gotFirst = false → Gives (.ropeAckRepeat k) s (sendRopeAck k s.dev))
      ∧ (r.st = .running → Settles (.pitchTimeout k) s (ropeAbortLocal k 0x60 s.dev) ∧
        ∃ y, (ropeAbortLocal k 0x60 s.dev).rope? k = some y ∧ y.st = .aborted ∧ y.call = none ∧ y.nextCall = x.num + 1 ∧ y.callsDone = r.callsDone + 1#32
          ∧ y.waiting = r.waiting ++ [(ropeCqe k r x.num x.entry ccRopeAbort 0x60 r.par.index 0, true)]))
    ∧ (∀ k r, s.dev.rope? k = some r → r.abortDown ≠ 0 → r.abortUp = 0 → Gives (.ropeAbortRepeat k) s
      ((sendAbort k true s.dev).onRope k fun r => { r with abortDown := r.abortDown - 1, abortUp := 0 }))

/-- Rope packets from the neighbours, in call and PSN order, strangers and absent ropes; the engine's service; what the members' contributions of a copy-free call sum to (R360 to R369, R373, R375). -/
def Obligations.RopePackets : Prop :=
  ∀ (s : State) (port : Nat) (p : Pkt) (r : Rope) (e : Dev), s.dev.On →
    let k := p.dstQpn.toNat
    let x := p.ext
    let counted (ten : Option Nat) : Dev := count 0x0402 port ten 1 (count 0x0403 port ten (frameLen p) s.dev)
    let sound (t : BitVec 8) : Prop := s.dev.pwr.state = .active ∧ portUp s.dev port = true ∧ tileUp s.dev (portTile port) = true ∧ (s.dev.port port).ent.mode ≠ .direct
      ∧ ingressFill s.dev port + frameLen p ≤ 1048576 ∧ pflag p pfAuth = false ∧ p.trailer.length = 4 ∧ p.trailer = toLE 4 (crc32c (coveredBytes t p)).toNat
      ∧ p.ver.toNat / 16 = 2 ∧ ropeForm t p = true
    let came (t : BitVec 8) : Prop := sound t ∧ s.dev.rope? k = some r ∧ tileUp s.dev r.par.tile = true ∧ bx x 0 4 = r.par.ropeId.toNat
      ∧ Crosses (counted (some r.par.tenant)) ⟨.col, portTile port, r.par.tile⟩ inOwn
      ∧ meterRope port p r.par.tenant (counted (some r.par.tenant)) = (false, e)
    let ofCall (c : Call) : Prop := r.st = .running ∧ r.call = some c ∧ BitVec.ofNat 32 (bx x 4 4) = BitVec.ofNat 32 c.num ∧ sameCall c p = true
    let inOrder (c : Call) : Prop := (p.psn - c.rx.cum).toNat < 256 ∧ nth c.rx.map (p.psn - c.rx.cum).toNat false = false
    (came ptRopeData → fromUpstream r ptRopeData p = none → Settles (.ropeData port p) s (count 0x0905 port none 1 e))
    ∧ (came ptRopeData → r.st ≠ .aborted → fromUpstream r ptRopeData p = some true → sameRope r true p = false → Settles (.ropeData port p) s (ropeAbortLocal k 0x67 e))
    ∧ (∀ c, came ptRopeData → fromUpstream r ptRopeData p = some true → sameRope r true p = true → ofCall c → inOrder c →
      let j := bx x 8 4
      let lap := bx x 0x0C 1
      (callPieces r c.entry ≤ j → Settles (.ropeData port p) s (ropeAbortLocal k 0x6E e))
      ∧ (j < callPieces r c.entry → takes r c.entry j lap = true → c.got.contains (j, lap) = false → (∀ i ∈ c.input, ¬ (i.piece = j ∧ i.lap = lap) ∧ i.hpn ≠ bx x 0x1C 4) →
        p.msgOffset.toNat + p.payload.length ≤ lapBytes r c.entry j lap → p.payload.length ≤ ropeMtu r → p.msgOffset.toNat % lapSize c.entry lap = 0 →
        p.payload.length % lapSize c.entry lap = 0 → bx x 0x1C 4 < c.rx.limit → writesHere c.entry lap = false →
        Settles (.ropeData port p) s (ropeTidy k (commitRope k p (tenCount r.par.tenant 5 p.payload.length (onCall k (fun c => { c with input := c.input ++
          [{ piece := j, lap := lap, hpn := bx x 0x1C 4, chunks := [{ off := p.msgOffset.toNat, data := p.payload }], flags := bx x 0x12 1 / 4 }] }) e))))))
    ∧ (∀ c, came ptRopeConfirm → fromUpstream r ptRopeConfirm p = some true → sameRope r true p = true → ofCall c → inOrder c →
      bx x 8 4 < callPieces r c.entry → bx x 0x0C 1 = 2 → takesConfirm r c.entry = true → passesConfirm r c.entry = false →
      Settles (.ropeConfirm port p) s (ropeTidy k (commitRope k p
        (onCall k (fun c => { c with confIn := max c.confIn (bx x 8 4 + 1), flags := c.flags ||| bx x 0x12 1 / 4 }) e))))
    ∧ (∀ c, came ptRopeAck → fromUpstream r ptRopeAck p = some false → sameRope r false p = true → ofCall c → Settles (.ropeAck port p) s (ropeAcked port k r p e))
    ∧ (∀ c, came ptRopeAck → fromUpstream r ptRopeAck p = some true → sameRope r true p = true → r.st = .running → r.call = some c →
      BitVec.ofNat 32 (bx x 4 4) = BitVec.ofNat 32 c.num → sameCall c p = false → Settles (.ropeAck port p) s (ropeAbortLocal k 0x67 e))
    ∧ (∀ c, came ptRopeAbort → fromUpstream r ptRopeAbort p = some true → sameRope r true p = true → ofCall c → bx x 43 1 = 0 →
      Settles (.ropeAbort port p) s (ropeAbort k (bx x 40 2) (bx x 42 1) (decide ((r.par.index + 1) % r.par.members ≠ bx x 40 2)) false e))
    ∧ (sound ptRopeData → s.dev.rope? k = none → Settles (.ropeData port p) s (noRope port ptRopeData p (counted none)))
    ∧ (∀ d a, d.ropes.noRope.get? p.srcNode.toNat = some a → now d < a + usTicks 10 → noRope port ptRopeData p d = count 0x0904 port none 1 d)
    ∧ (∀ m z c y, s.dev.ropes.slots = [(m, r)] → tileUp s.dev r.par.tile = true → r.call = some c → eligiblePitches s.dev m r = [z] →
      let r' := { r with since := [] }
      let d := s.dev.onRopes fun q => { q with slots := [(m, r')], last := modAt q.last r.par.tile fun _ => m * 2 ^ 34 + z.1 * 4 + z.2 }
      pitchAct d m r' c z = some y → Settles (.ropePitchServe r.par.tile) s y)
    ∧ (∀ t last l y, pickPitch t last l = some y → y ∈ l
      ∧ (∀ z ∈ l, z.since + usTicks 100 ≤ t → y.since + usTicks 100 ≤ t ∧ y.since ≤ z.since)
      ∧ ((∀ z ∈ l, t < z.since + usTicks 100) → ∀ z ∈ l, z.priority ≤ y.priority))
    ∧ (sound ptRopeData → s.dev.rope? k = some r → tileUp s.dev r.par.tile = true → r.par.tile ≠ portTile port → flowOpen (counted (some r.par.tenant)).fab ⟨.col, portTile port, r.par.tile⟩ inOwn = false →
      Settles (.ropeData port p) s ((counted (some r.par.tenant)).onFab fun f =>
        { f with crossings := f.crossings ++ [⟨⟨.col, portTile port, r.par.tile⟩, inOwn, none, .rope port ptRopeData p⟩] }))
    ∧ (∀ M n w, 0 < M → ((List.range M).map fun m => patternAt m n w).sum % 2 ^ 32 = ((n + 1) * (M * (M + 1) / 2) + M * w) % 2 ^ 32)
    ∧ (∀ c a b, callFmt c = .int32 → callOp c = 0 → combine c a b = combine c b a ∧ combine c (combine c a b).1 a = combine c a (combine c b a).1)
    ∧ (∀ mx (a b : BitVec 32), sext 32 (pickOf .int32 mx a.toNat b.toNat).1 = if mx then max a.toInt b.toInt else min a.toInt b.toInt)
    ∧ (∀ r c, callKind c = 3 → 1 < r.par.members → r.par.index < r.par.members →
      needTakes r c = (((List.range (callPieces r c)).flatMap fun j => [(j, 1), (j, 2)]).filter fun x => takes r c x.1 x.2).length)

-- Power, clocks, resets

/-- SET_POWER_LIMIT and the limit it takes part in, POWER_STATE, HALF_RESET, WARM, and the legacy window (R514, R518, R526 to R532, R535, R540). -/
def Obligations.PowerCommands : Prop :=
  ∀ (s : State) (c : CmdSlot) (p : Bytes), s.dev.On →
    let reply (st at_ : Nat) (d : Dev) : Dev := answer c st at_ none none d
    let k := u8 p 2
    let asks (what back : Nat) : Prop := CmdBegun s.dev c 0x0104 p ∧ u8 p 0 = what ∧ u8 p 1 = back ∧ zeros p 3 5 = true
    let noReset : Prop := s.dev.pwr.inReset.w = false ∧ s.dev.pwr.inReset.e = false
    (CmdBegun s.dev c 0x0105 p → zeros p 2 6 = true →
      (500 ≤ u16 p 0 → u16 p 0 ≤ 3000 → Gives (.setPowerLimit c) s
        (reply (if limitCap s.dev < u16 p 0 then stNote else stDone) 0 (s.dev.onPwr fun x => { x with setW := some (u16 p 0) })))
      ∧ ((u16 p 0 < 500 ∨ 3000 < u16 p 0) → Gives (.setPowerLimit c) s (reply stBadParam 0 s.dev)))
    ∧ (CmdBegun s.dev c 0x0105 p → zeros p 2 6 = false → 500 ≤ u16 p 0 → u16 p 0 ≤ 3000 → Gives (.setPowerLimit c) s (reply stBadParam 2 s.dev))
    ∧ haspNeeded 0x0105 p = 1 ∧ (∀ a h, Completes (.limiterStep a h) s fun d => d.pwr.limitW = limitNow s.dev ∧ d.pwr.setW = s.dev.pwr.setW)
    ∧ (∀ d : Dev, (warmReset 2 d).pwr.setW = d.pwr.setW ∧ (powerLoss d).pwr.setW = none ∧ ∀ b, (acceptRecord b d).pwr.setW = none)
    ∧ (∀ d r q w, d.pwr.recordW = some r → d.pwr.coolantW = some q → d.pwr.setW = some w →
      limitNow d = min w (min (min r q) (if d.pwr.stages = 4 then 3000 else 2390)))
    ∧ (asks 1 0 → k < 32 → (s.dev.stack k).mode ≠ .offline →
      (noReset → Gives (.powerState c) s (reply stDone 0 (s.dev.onStk k fun x => { x with parkReq := true })))
      ∧ (s.dev.pwr.inReset.w = true → Gives (.powerState c) s (reply stBusy 0 s.dev)))
    ∧ (asks 1 1 → noReset → k < 32 → (s.dev.stack k).mode = .parked → (s.dev.stack k).parkReq = true →
      Gives (.powerState c) s (reply stDone 0 (count 0x0608 k none 1 (s.dev.onStk k fun x => { x with parkReq := false, mode := .waking }))))
    ∧ (asks 2 0 → k < 16 →
      ((s.dev.port k).ent.mode ≠ .direct → Gives (.powerState c) s (reply stNotPermitted 0 s.dev))
      ∧ (noReset → (s.dev.port k).ent.mode = .direct → Gives (.powerState c) s (reply stDone 0 (s.dev.onPort k fun x => { x with sleepReq := true }))))
    ∧ (asks 3 0 → noReset → k < 16 →
      ((s.dev.port k).st ≠ .up → Gives (.powerState c) s (reply stNotPermitted 0 s.dev))
      ∧ ((s.dev.port k).st = .up → bivouacBusy s.dev = true → Gives (.powerState c) s (reply stBusy 0 s.dev))
      ∧ ((s.dev.port k).st = .up → bivouacBusy s.dev = false →
        Gives (.powerState c) s (leave c [] (s.dev.onPwr fun x => { x with state := .entering, keptPort := k, bivCmd := some c }))))
    ∧ (CmdBegun s.dev c 0x0103 p → u8 p 0 ≤ 1 → zeros p 1 7 = true →
      let h := Side.ofIdx (u8 p 0)
      let d := s.dev.onCtl fun x => { x with handover := none }
      (leader s.dev = some h → canHandover s.dev = false → Settles (.halfReset c) s (reply stNotPermitted 0 d))
      ∧ (leader s.dev ≠ some h → noReset → Settles (.halfReset c) s (reply stDone 0 (halfReset h d)))
      ∧ (leader s.dev = some h → canHandover s.dev = true → noReset → othersActive s.dev c = true →
        Settles (.halfReset c) s (s.dev.onCtl fun x => { x with handover := some h }))
      ∧ (leader s.dev = some h → canHandover s.dev = true → noReset → othersActive s.dev c = false → Settles (.halfReset c) s (reply stDone 0 (halfReset h (handOver d)))))
    ∧ (∀ q, ((s.dev.hasp 1).holder = some (.port q) → Settles (.warmReset q) s (warmReset 2 s.dev))
      ∧ ((s.dev.hasp 1).holder ≠ some (.port q) → Settles (.warmReset q) s
        (logFirst60 0x0305 q.idx 0x0501 4 q.idx [0x0305, 0x48000] (haspMisuse (.port q) s.dev))))
    ∧ (∀ q, (s.dev.pwr.legacy.live = false → Gives (.capture q) s (onLegacy (fun l => { l with
        captured := (List.range 8).map fun k => BitVec.ofNat 64 (legacyWord s.dev k) }) s.dev))
      ∧ (s.dev.pwr.legacy.live = true → Gives (.capture q) s s.dev))
    ∧ (∀ q j off l, s.dev.pwr.legacy.live = true → j < 8 → off % 0x10000 = 0x100 + 8 * j →
      let bit := BitVec.ofNat 8 (2 ^ j)
      (someAgree l = true →
        let v := BitVec.ofNat 64 (legacyWord s.dev j)
        let d := onLegacy (fun x => { x with agreed := x.agreed.set j v, unstable := x.unstable &&& ~~~bit }) s.dev
        Gives (.legacyLiveRead q off 8 l) s (emit (.regRead q v) d)
        ∧ Gives (.legacyLiveRead q off 4 l) s (emit (.regRead q (v &&& 0xFFFFFFFF#64))
          (onLegacy (fun x => { x with latched := x.latched.set q (some (j, (v >>> 32).setWidth 32, now s.dev)) }) d)))
      ∧ (someAgree l = false → Gives (.legacyLiveRead q off 8 l) s (emit (.regRead q (nth s.dev.pwr.legacy.agreed j 0#64))
        (onLegacy (fun x => { x with unstable := x.unstable ||| bit }) s.dev)))
      ∧ (∀ h t, s.dev.pwr.legacy.latched.get q = some (j, h, t) → now s.dev ≤ t + usTicks 1 →
        Gives (.legacyLiveRead q (off + 4) 4 l) s (emit (.regRead q (h.setWidth 64)) s.dev)))

/-- PWR_EN, the input, the isolation link and the stages; POWER_ON; what a loss of power keeps (R511 to R513, R541, R580). -/
def Obligations.PowerInput : Prop :=
  ∀ (s : State) (mV : Nat),
    let pwr (f : Pwr → Pwr) : Dev := s.dev.onPwr f
    let start (mV : Nat) : Rails := if vinOk mV then .starting else .waitInput
    (s.dev.pwr.rails = .off → Gives (.pwrEnAssert mV) s (pwr fun p => { p with pwrEn := true, vin := mV, rails := start mV }))
    ∧ (s.dev.On → Gives (.pwrEnDeassert) s ((powerLoss s.dev).onPwr fun p => { p with pwrEn := false, rails := .holdoff }))
    ∧ (s.dev.pwr.rails = .holdoff → Gives .powerOnHoldoff s (pwr fun p => { p with rails := if s.dev.pwr.pwrEn then start s.dev.pwr.vin else .off }))
    ∧ (s.dev.pwr.rails = .waitInput → s.dev.pwr.pwrEn = true → vinOk mV = true → Gives (.inputInRange mV) s (pwr fun p => { p with vin := mV, rails := .starting }))
    ∧ (s.dev.On →
      let seen := pwr fun p => { p with vin := mV, vinEvent := true, vinReg := BitVec.ofNat 16 (min mV 65535) }
      Gives (.vinEvent .high58 mV) s (logIt 0x0701 0 0 [mV] (d := seen))
      ∧ Gives (.vinEvent .low40 mV) s seen
      ∧ Gives (.vinEvent .below38 mV) s (logIt 0x0701 0 0 [mV] (d := seen.onPwr fun p => { p with vinCause := true }))
      ∧ Gives (.vinEvent .powerLoss mV) s ((powerLoss (pwr fun p => { p with vin := mV })).onPwr fun p => { p with rails := if p.pwrEn then .waitInput else .off }))
    ∧ Gives .undervoltageRecovery s (pwr fun p => { p with vinCause := false })
    ∧ (s.dev.On → Gives .isolationLinkLoss s (pwr fun p => { p with isoDown := true }) ∧ Gives .isolationLinkReturn s (pwr fun p => { p with isoDown := false })
      ∧ (s.dev.pwr.isoDown = true → Gives .isolationLinkTimeout s (powerLoss s.dev)) ∧ Gives .thermalShutdown s (powerLoss s.dev))
    ∧ (s.dev.On → s.dev.pwr.stages < 4 → Gives .stageLost s (powerLoss s.dev))
    ∧ (s.dev.On → s.dev.pwr.stages = 4 →
      let x := takeFree (pwr fun p => { p with stages := 3, stageLost := true })
      Gives .stageLost s (logIt 0x0703 7 (x.1.toNat % 4) [] (d := x.2)))
    ∧ (∀ e, s.dev.pwr.rails = .starting →
      (seedOf e = none → Gives (.powerOn e) s (bootHalted e true s.dev))
      ∧ (∀ x, seedOf e = some x →
        let d := s.dev.onSvc fun v => { v with seed := x }
        let bad := badRecords e d
        let vital : Prop := bad.contains rkPuf = true ∨ bad.contains rkSvn = true
        (vital → Gives (.powerOn e) s (bootHalted e false d))
        ∧ (¬ vital →
          let d := absentRecords bad d
          let b := if bad.contains rkSelector then d.svc.bank.other else d.svc.bank
          (bankFault d.svc b = none → Gives (.powerOn e) s (powerUp e b bad none d))
          ∧ (∀ f, bankFault d.svc b = some f →
            (bankFault d.svc b.other = none → Gives (.powerOn e) s (powerUp e b.other bad (some (b, f)) d))
            ∧ (∀ g, bankFault d.svc b.other = some g → Gives (.powerOn e) s (bootHalted e true (d.onSvc (measureTo b.other g.1))))))))
    ∧ (∀ e b bad rej, s.dev.ctl = {} → let d := powerUp e b bad rej s.dev
      let runs (k : Side) : Bool := dieRuns e { s.dev.svc with bank := b } k
      d.On ∧ d.pwr.tsc = 0#64 ∧ d.svc.bank = b
        ∧ (runs .west = true → leader d = some .west ∧ d.ctl.dies.e = (if runs .east then .follower else .starting) ∧ (d.hasp 0).holder = some (.die .west) ∧ leadEpoch d = 1#32)
        ∧ (runs .west = false → runs .east = true → leader d = some .east ∧ d.ctl.dies.w = .starting ∧ (d.hasp 0).holder = some (.die .east)))
    ∧ (let d := powerLoss s.dev
      d.net = {} ∧ d.q = {} ∧ d.eng = {} ∧ d.ctl = {} ∧ d.ciph = {} ∧ d.mem.bytes = [] ∧ d.mem.allocs = [] ∧ d.ten = {} ∧ d.ropes = {} ∧ d.svc.record = s.dev.svc.record
      ∧ d.svc.minSvn = s.dev.svc.minSvn ∧ d.svc.logTotal = 0#48 ∧ (∀ k, k < s.dev.mem.stk.length → (d.stack k).withheld = (s.dev.stack k).withheld))

/-- The limiter, the sensors, clock loss, and the Bivouac's timed events (R515 to R517, R519 to R522, R536, R537, R539, R544). -/
def Obligations.PowerEvents : Prop :=
  ∀ (s : State),
    let pwr (f : Pwr → Pwr) : Dev := s.dev.onPwr f
    let step (average : Nat) (hot : Bool) (l : Nat) (d : Dev) : Dev := d.onPwr fun p => { p with
      limitW := limitNow s.dev, pinReg := BitVec.ofNat 16 (min average 65535), throttle := l, thermal := hot
      thermalEvent := p.thermalEvent || (hot && !p.thermal), limited := l ≠ 0 && (p.limited || limitNow s.dev < average), peak := l ≠ 0 && p.peak }
    let moved (average : Nat) : Nat := limitStep (limitNow s.dev) average s.dev.pwr.throttle
    let timed : Dev := if throttleNow s.dev = 0 then s.dev else count 0x0B04 0xFF none 1000 s.dev
    (∀ average hottest, s.dev.On →
      (hottest ≤ 23552 → Gives (.limiterStep average hottest) s (step average false (moved average) timed))
      ∧ (24320 ≤ hottest → s.dev.pwr.thermal = true → Gives (.limiterStep average hottest) s (step average true (min 15 (moved average + 1)) timed))
      ∧ (24320 ≤ hottest → s.dev.pwr.thermal = false →
        let x := takeFree (step average true (min 15 (moved average + 1)) timed)
        Gives (.limiterStep average hottest) s (logIt 0x0702 0 0 [x.1.toNat % 256, (BitVec.ofInt 64 hottest).toNat] (d := x.2))))
    ∧ (∀ limit average level, level ≤ 15 → limitStep limit average level ≤ 15
      ∧ (limit < average → level ≤ limitStep limit average level) ∧ (average ≤ limit → limitStep limit average level ≤ level)
      ∧ (average * 100 < limit * 97 → level ≠ 0 → limitStep limit average level < level))
    ∧ (∀ watts, s.dev.On → Gives (.powerSample watts) s (if 3400 < watts then pwr fun p => { p with throttle := min 15 (p.throttle + 4), peak := true }
      else if overCurrent s.dev watts then pwr fun p => { p with throttle := min 15 (p.throttle + 4) } else s.dev))
    ∧ (∀ v, s.dev.On →
      let d := pwr fun p => { p with sensors := v, vinReg := BitVec.ofNat 16 (min v.vin 65535), iinReg := BitVec.ofNat 16 (min v.iin 65535) }
      let new := sensorLevels s.dev v
      let up := ((List.range new.length).zip new).any fun (i, b) => nth (sensorLevels s.dev s.dev.pwr.sensors) i 0 < b
      let a := if new.any (· ≠ 0) then raiseAlert alSensor d else dropAlert alSensor d
      (up = false → Gives (.sensorUpdate v) s a)
      ∧ (up = true → Gives (.sensorUpdate v) s (emit (.sideband (0x01#8 :: Config.dmtfAnswer 2 (pldmReadings a))) a)))
    ∧ (s.dev.On → Gives .clockLoss s (pwr fun p => { p with lockLosses := satAdd p.lockLosses 1, rails := .clockLost, rootLock := false }))
    ∧ (s.dev.pwr.rails = .clockLost →
      Settles .clockLockReturn s (warmReset 3 (pwr fun p => { p with rails := .on, rootLock := true }))
      ∧ Gives .clockHalt s (raiseAlert alClock (pwr fun p => { p with rails := .clockHalt })))
    ∧ (∀ n, s.dev.On → n < 8 → Settles (.serdesPllLoss n) s (segmentDown (n % 4) (portDown (2 * n + 1) (portDown (2 * n)
      (pwr fun p => { p with lockLosses := satAdd p.lockLosses 1, serdesLock := p.serdesLock.set n false })))))
    ∧ (∀ q, s.dev.On → Settles (.pciePllLoss q) s (devLinkDown q (pwr fun p => { p with lockLosses := satAdd p.lockLosses 1, pcieLock := p.pcieLock.set q false })))
    ∧ (∀ q, s.dev.On → s.dev.pwr.state = .entering → s.dev.pwr.bivCmd = some q →
      Settles .bivouacEntryTimeout s (answerIf q 0x0104 stBusy none (pwr fun p => { p with state := .active, bivCmd := none }))
      ∧ (devDrained s.dev = true →
        let d := (List.range 16).foldl (fun d k => if k = s.dev.pwr.keptPort ∨ (d.port k).st = .adminDown then d else portDown k d) s.dev
        Settles .bivouacDrained s (answerIf q 0x0104 stDone none ((stacksRest d).onPwr fun p => { p with state := .bivouac, bivCmd := none }))))
    ∧ (∀ cause, s.dev.On → s.dev.pwr.state = .bivouac → Gives (.bivouacWake cause) s (pwr fun p => { p with state := .waking }))
    ∧ (∀ q, s.dev.On → s.dev.pwr.state = .waking → s.dev.pwr.bellsHeld = [] → s.dev.pwr.pktsHeld = [] → s.dev.pwr.wakeCmd = some q →
      let d := s.dev.onXlt fun x => { x with tiles := x.tiles.map fun t => { t with runs := [], upper := [], prefetch := [], streams := [] } }
      let d := (restartFlow (List.range 8) (stacksRise d)).onPwr fun p => { p with state := .active, wakeCmd := none }
      let back (k : Nat) (p : NetPort) : NetPort :=
        if k ≠ d.pwr.keptPort && p.st = .down && p.ent.mode ≠ .none && !asleepPort d k then { p with st := .training } else p
      Settles .bivouacExitDone s (answerIf q 0x0104 stDone none (d.onNet fun n => { n with ports := ((List.range 16).zip n.ports).map fun (k, p) => back k p })))

-- The device as a whole

/-- Releasing what is due does nothing where nothing is due: no whole message, no grant to extend, no completion; and it leaves the clocks, the queues between the dies, the key slots and the Latch, the command rings, the dies and the Hasps alone (R216, R227, R251, R258). -/
def Obligations.SettleRules : Prop :=
  ∀ (d : Dev), (d.Quiet → (∀ x ∈ d.q.qps, rxAdvance x.1 d = d ∧ spentNow x.2 = false) → settle d = d)
    ∧ (let e := settle d
      e.pwr = d.pwr ∧ e.fab.queues = d.fab.queues ∧ e.ciph.slots = d.ciph.slots ∧ e.ciph.latch = d.ciph.latch
      ∧ e.ctl.rings = d.ctl.rings ∧ e.ctl.dies = d.ctl.dies ∧ e.ctl.hasps = d.ctl.hasps)

/-- Every step keeps device memory in its canonical form: equal memories are equal data. -/
def Obligations.MemoryKept : Prop := ∀ s t : State, s.dev.MemOk → step s = .next t → t.dev.MemOk

/-- Every step keeps leadership sound: a control die that leads holds Hasp 0, and no host port ever holds it (R390, R396, R398). -/
def Obligations.LeadKept : Prop := ∀ s t : State, s.dev.LeadSound → step s = .next t → t.dev.LeadSound

/-- Every step keeps the power limits: the limit in force at most 3,000 W, a limit that was set from 500 to 3,000 W, the throttle level at most 15 (R514, R516, R518). -/
def Obligations.LimitsKept : Prop := ∀ s t : State, s.dev.LimitsOk → step s = .next t → t.dev.LimitsOk

/-- The invariants hold right after reset. -/
def Obligations.ResetSound : Prop := State.reset.dev.MemOk ∧ State.reset.dev.LeadSound ∧ State.reset.dev.LimitsOk
end

