-- ==== Sys2Proof/Laws/Memory.lean ====
section
/-! SUPPORT. Device memory: every operation keeps the canonical form; a byte reads as it was stored and every other byte as before. -/

namespace Sys2Proof.Machine

/-- Every address of the list is above a. -/
def Memory.above (a : Nat) (m : List Host.Cell) : Prop := ∀ c ∈ m, a < c.1

theorem Memory.wf_cons (a : Nat) (b : Byte) (m : List Host.Cell) :
    Memory.wf ((a, b) :: m) = true ↔ b ≠ Memory.unlisted ∧ a < 2 ^ 41 ∧ Memory.above a m ∧ Memory.wf m = true := by
  induction m generalizing a b with
  | nil => simp [Memory.wf, Memory.above]
  | cons c r ih =>
    obtain ⟨k, x⟩ := c
    constructor
    · intro h
      simp only [Memory.wf, Bool.and_eq_true, decide_eq_true_eq] at h
      obtain ⟨⟨hb, hk⟩, hr⟩ := h
      have hx := (ih k x).1 hr
      refine ⟨by simpa using hb, by omega, ?_, hr⟩
      intro y hy
      rcases List.mem_cons.1 hy with rfl | hy
      · exact hk
      · exact Nat.lt_trans hk (hx.2.2.1 y hy)
    · rintro ⟨hb, -, hab, hr⟩
      simp only [Memory.wf, Bool.and_eq_true, decide_eq_true_eq]
      exact ⟨⟨by simpa using hb, hab (k, x) (by simp)⟩, hr⟩

theorem Memory.above_write (c : Nat) (m : List Host.Cell) (a : Nat) (b : Byte) (h : Memory.above c m) (hc : c < a) : Memory.above c (Memory.write m a b) := by
  induction m with
  | nil =>
    intro y hy
    by_cases hb : b = Memory.unlisted
    · simp [Memory.write, hb] at hy
    · simp [Memory.write, hb] at hy; subst hy; exact hc
  | cons x r ih =>
    obtain ⟨k, x⟩ := x
    have hr : Memory.above c r := fun y hy => h y (List.mem_cons_of_mem _ hy)
    have hk : c < k := h (k, x) (by simp)
    intro y hy
    simp only [Memory.write] at hy
    split at hy
    · split at hy
      · exact h y hy
      · rcases List.mem_cons.1 hy with rfl | hy
        · exact hc
        · exact h y hy
    · split at hy
      · split at hy
        · exact hr y hy
        · rcases List.mem_cons.1 hy with rfl | hy
          · exact hc
          · exact hr y hy
      · rcases List.mem_cons.1 hy with rfl | hy
        · exact hk
        · exact ih hr y hy

theorem Memory.above_mono {a c : Nat} {m : List Host.Cell} (h : Memory.above a m) (hc : c ≤ a) : Memory.above c m :=
  fun y hy => Nat.lt_of_le_of_lt hc (h y hy)

/-- Storing a byte keeps the canonical form. -/
theorem Memory.write_wf (m : List Host.Cell) (a : Nat) (b : Byte) (ha : a < 2 ^ 41) (h : Memory.wf m = true) : Memory.wf (Memory.write m a b) = true := by
  induction m with
  | nil =>
    by_cases hb : b = Memory.unlisted
    · simp [Memory.write, hb, Memory.wf]
    · simp only [Memory.write, hb, if_false, Memory.wf, Bool.and_eq_true, decide_eq_true_eq]
      exact ⟨hb, ha⟩
  | cons x r ih =>
    obtain ⟨k, x⟩ := x
    obtain ⟨hx, hk, hab, hr⟩ := (Memory.wf_cons k x r).1 h
    simp only [Memory.write]
    split
    · rename_i hlt
      split
      · exact h
      · rename_i hb
        refine (Memory.wf_cons a b _).2 ⟨hb, ha, ?_, h⟩
        intro y hy
        rcases List.mem_cons.1 hy with rfl | hy
        · exact hlt
        · exact Nat.lt_trans hlt (hab y hy)
    · split
      · rename_i he
        subst he
        split
        · exact hr
        · rename_i hb
          exact (Memory.wf_cons a b r).2 ⟨hb, ha, hab, hr⟩
      · rename_i h1 h2
        exact (Memory.wf_cons k x _).2 ⟨hx, hk, Memory.above_write k r a b hab (by omega), ih hr⟩

/-- Storing bytes keeps the canonical form. -/
theorem Memory.writes_wf (m : List Host.Cell) (a : Nat) (d : Bytes) (h : Memory.wf m = true) : Memory.wf (Memory.writes m a d) = true := by
  induction d generalizing m a with
  | nil => exact h
  | cons b r ih =>
    simp only [Memory.writes]
    apply ih
    split
    · rename_i ha; exact Memory.write_wf m a b ha h
    · exact h

/-- Clearing a stretch keeps the canonical form. -/
theorem Memory.clear_wf (m : List Host.Cell) (lo hi : Nat) (h : Memory.wf m = true) : Memory.wf (Memory.clear m lo hi) = true := by
  induction m with
  | nil => rfl
  | cons x r ih =>
    obtain ⟨k, x⟩ := x
    obtain ⟨hx, hk, hab, hr⟩ := (Memory.wf_cons k x r).1 h
    have hf : Memory.above k (Memory.clear r lo hi) := fun y hy => hab y (List.mem_of_mem_filter hy)
    by_cases hc : k < lo ∨ hi ≤ k
    · have : Memory.clear ((k, x) :: r) lo hi = (k, x) :: Memory.clear r lo hi := by simp [Memory.clear, hc]
      rw [this]
      exact (Memory.wf_cons k x _).2 ⟨hx, hk, hf, ih hr⟩
    · have : Memory.clear ((k, x) :: r) lo hi = Memory.clear r lo hi := by simp [Memory.clear, hc]
      rw [this]
      exact ih hr

theorem Memory.read_above (m : List Host.Cell) (a : Nat) (h : Memory.above a m) : Memory.read m a = Memory.unlisted := by
  induction m with
  | nil => rfl
  | cons x r ih =>
    obtain ⟨k, x⟩ := x
    have hk : a < k := h (k, x) (by simp)
    have : k ≠ a := by omega
    simp only [Memory.read, this, if_false]
    exact ih fun y hy => h y (List.mem_cons_of_mem _ hy)

/-- A byte reads as it was stored, every other as before. -/
theorem Memory.read_write (m : List Host.Cell) (a x : Nat) (b : Byte) (h : Memory.wf m = true) :
    Memory.read (Memory.write m a b) x = if x = a then b else Memory.read m x := by
  induction m with
  | nil =>
    by_cases hb : b = Memory.unlisted <;> by_cases hx : x = a <;> simp [Memory.write, Memory.read, hb, hx]
    exact fun h => absurd h.symm hx
  | cons y r ih =>
    obtain ⟨k, y⟩ := y
    obtain ⟨-, -, hab, hr⟩ := (Memory.wf_cons k y r).1 h
    simp only [Memory.write]
    split
    · rename_i hlt
      have hra : Memory.read ((k, y) :: r) a = Memory.unlisted := by
        apply Memory.read_above
        intro z hz
        rcases List.mem_cons.1 hz with rfl | hz
        · exact hlt
        · exact Nat.lt_trans hlt (hab z hz)
      split
      · rename_i hb
        by_cases hx : x = a
        · subst hx; rw [hra, if_pos rfl, hb]
        · rw [if_neg hx]
      · by_cases hx : x = a
        · subst hx; simp [Memory.read]
        · rw [if_neg hx, Memory.read, if_neg (Ne.symm hx)]
    · split
      · rename_i he
        subst he
        by_cases hx : x = a
        · subst hx
          split
          · rename_i hb; rw [Memory.read_above r x hab, if_pos rfl, hb]
          · simp [Memory.read]
        · rw [if_neg hx]
          split
          · rw [Memory.read, if_neg (Ne.symm hx)]
          · rw [Memory.read, if_neg (Ne.symm hx), Memory.read, if_neg (Ne.symm hx)]
      · rename_i h1 h2
        by_cases hk : k = x
        · subst hk; rw [Memory.read, if_pos rfl, if_neg (Ne.symm h2), Memory.read, if_pos rfl]
        · rw [Memory.read, if_neg hk, ih hr, Memory.read, if_neg hk]

/-- A cleared stretch reads as unlisted, every other byte as before. -/
theorem Memory.read_clear (m : List Host.Cell) (lo hi x : Nat) :
    Memory.read (Memory.clear m lo hi) x = if lo ≤ x ∧ x < hi then Memory.unlisted else Memory.read m x := by
  induction m with
  | nil => simp [Memory.clear, Memory.read]
  | cons y r ih =>
    obtain ⟨k, y⟩ := y
    by_cases hc : k < lo ∨ hi ≤ k
    · have : Memory.clear ((k, y) :: r) lo hi = (k, y) :: Memory.clear r lo hi := by simp [Memory.clear, hc]
      rw [this, Memory.read, Memory.read, ih]
      by_cases hk : k = x
      · subst hk; rw [if_pos rfl, if_neg (by omega), if_pos rfl]
      · simp [hk]
    · have : Memory.clear ((k, y) :: r) lo hi = Memory.clear r lo hi := by simp [Memory.clear, hc]
      rw [this, ih, Memory.read]
      by_cases hk : k = x
      · subst hk; rw [if_pos (by omega), if_pos (by omega)]
      · simp [hk]

/-- The device's memory operations keep the canonical form. -/
theorem memWrite_wf (dpa : Nat) (b : Bytes) (d : Dev) (h : Memory.wf d.mem.bytes = true) : Memory.wf (memWrite dpa b d).mem.bytes = true :=
  Memory.writes_wf _ _ _ h

theorem memZero_wf (dpa len : Nat) (d : Dev) (h : Memory.wf d.mem.bytes = true) : Memory.wf (memZero dpa len d).mem.bytes = true :=
  Memory.clear_wf _ _ _ h

theorem memPoison_bytes (dpa len : Nat) (d : Dev) : (memPoison dpa len d).mem.bytes = d.mem.bytes := by
  unfold memPoison; split <;> rfl

end Sys2Proof.Machine
end

