-- ==== Sys2Proof/Laws/State.lean ====
section
/-! SUPPORT. What each update of the device leaves of each of its parts. -/

namespace Sys2Proof.Machine

-- onFab
@[simp] theorem Dev.onFab_fab (d : Dev) (f : Fab → Fab) : (d.onFab f).fab = f d.fab := rfl
@[simp] theorem Dev.onFab_mem (d : Dev) (f : Fab → Fab) : (d.onFab f).mem = d.mem := rfl
@[simp] theorem Dev.onFab_xlt (d : Dev) (f : Fab → Fab) : (d.onFab f).xlt = d.xlt := rfl
@[simp] theorem Dev.onFab_eng (d : Dev) (f : Fab → Fab) : (d.onFab f).eng = d.eng := rfl
@[simp] theorem Dev.onFab_q (d : Dev) (f : Fab → Fab) : (d.onFab f).q = d.q := rfl
@[simp] theorem Dev.onFab_net (d : Dev) (f : Fab → Fab) : (d.onFab f).net = d.net := rfl
@[simp] theorem Dev.onFab_ropes (d : Dev) (f : Fab → Fab) : (d.onFab f).ropes = d.ropes := rfl
@[simp] theorem Dev.onFab_host (d : Dev) (f : Fab → Fab) : (d.onFab f).host = d.host := rfl
@[simp] theorem Dev.onFab_ctl (d : Dev) (f : Fab → Fab) : (d.onFab f).ctl = d.ctl := rfl
@[simp] theorem Dev.onFab_ten (d : Dev) (f : Fab → Fab) : (d.onFab f).ten = d.ten := rfl
@[simp] theorem Dev.onFab_ciph (d : Dev) (f : Fab → Fab) : (d.onFab f).ciph = d.ciph := rfl
@[simp] theorem Dev.onFab_pwr (d : Dev) (f : Fab → Fab) : (d.onFab f).pwr = d.pwr := rfl
@[simp] theorem Dev.onFab_svc (d : Dev) (f : Fab → Fab) : (d.onFab f).svc = d.svc := rfl
@[simp] theorem Dev.onFab_out (d : Dev) (f : Fab → Fab) : (d.onFab f).out = d.out := rfl
@[simp] theorem Dev.onFab_free (d : Dev) (f : Fab → Fab) : (d.onFab f).free = d.free := rfl
@[simp] theorem Dev.onFab_onFab (d : Dev) (f g : Fab → Fab) : (d.onFab f).onFab g = d.onFab (fun x => g (f x)) := rfl
-- onMem
@[simp] theorem Dev.onMem_fab (d : Dev) (f : Mem → Mem) : (d.onMem f).fab = d.fab := rfl
@[simp] theorem Dev.onMem_mem (d : Dev) (f : Mem → Mem) : (d.onMem f).mem = f d.mem := rfl
@[simp] theorem Dev.onMem_xlt (d : Dev) (f : Mem → Mem) : (d.onMem f).xlt = d.xlt := rfl
@[simp] theorem Dev.onMem_eng (d : Dev) (f : Mem → Mem) : (d.onMem f).eng = d.eng := rfl
@[simp] theorem Dev.onMem_q (d : Dev) (f : Mem → Mem) : (d.onMem f).q = d.q := rfl
@[simp] theorem Dev.onMem_net (d : Dev) (f : Mem → Mem) : (d.onMem f).net = d.net := rfl
@[simp] theorem Dev.onMem_ropes (d : Dev) (f : Mem → Mem) : (d.onMem f).ropes = d.ropes := rfl
@[simp] theorem Dev.onMem_host (d : Dev) (f : Mem → Mem) : (d.onMem f).host = d.host := rfl
@[simp] theorem Dev.onMem_ctl (d : Dev) (f : Mem → Mem) : (d.onMem f).ctl = d.ctl := rfl
@[simp] theorem Dev.onMem_ten (d : Dev) (f : Mem → Mem) : (d.onMem f).ten = d.ten := rfl
@[simp] theorem Dev.onMem_ciph (d : Dev) (f : Mem → Mem) : (d.onMem f).ciph = d.ciph := rfl
@[simp] theorem Dev.onMem_pwr (d : Dev) (f : Mem → Mem) : (d.onMem f).pwr = d.pwr := rfl
@[simp] theorem Dev.onMem_svc (d : Dev) (f : Mem → Mem) : (d.onMem f).svc = d.svc := rfl
@[simp] theorem Dev.onMem_out (d : Dev) (f : Mem → Mem) : (d.onMem f).out = d.out := rfl
@[simp] theorem Dev.onMem_free (d : Dev) (f : Mem → Mem) : (d.onMem f).free = d.free := rfl
@[simp] theorem Dev.onMem_onMem (d : Dev) (f g : Mem → Mem) : (d.onMem f).onMem g = d.onMem (fun x => g (f x)) := rfl
-- onXlt
@[simp] theorem Dev.onXlt_fab (d : Dev) (f : Xlt → Xlt) : (d.onXlt f).fab = d.fab := rfl
@[simp] theorem Dev.onXlt_mem (d : Dev) (f : Xlt → Xlt) : (d.onXlt f).mem = d.mem := rfl
@[simp] theorem Dev.onXlt_xlt (d : Dev) (f : Xlt → Xlt) : (d.onXlt f).xlt = f d.xlt := rfl
@[simp] theorem Dev.onXlt_eng (d : Dev) (f : Xlt → Xlt) : (d.onXlt f).eng = d.eng := rfl
@[simp] theorem Dev.onXlt_q (d : Dev) (f : Xlt → Xlt) : (d.onXlt f).q = d.q := rfl
@[simp] theorem Dev.onXlt_net (d : Dev) (f : Xlt → Xlt) : (d.onXlt f).net = d.net := rfl
@[simp] theorem Dev.onXlt_ropes (d : Dev) (f : Xlt → Xlt) : (d.onXlt f).ropes = d.ropes := rfl
@[simp] theorem Dev.onXlt_host (d : Dev) (f : Xlt → Xlt) : (d.onXlt f).host = d.host := rfl
@[simp] theorem Dev.onXlt_ctl (d : Dev) (f : Xlt → Xlt) : (d.onXlt f).ctl = d.ctl := rfl
@[simp] theorem Dev.onXlt_ten (d : Dev) (f : Xlt → Xlt) : (d.onXlt f).ten = d.ten := rfl
@[simp] theorem Dev.onXlt_ciph (d : Dev) (f : Xlt → Xlt) : (d.onXlt f).ciph = d.ciph := rfl
@[simp] theorem Dev.onXlt_pwr (d : Dev) (f : Xlt → Xlt) : (d.onXlt f).pwr = d.pwr := rfl
@[simp] theorem Dev.onXlt_svc (d : Dev) (f : Xlt → Xlt) : (d.onXlt f).svc = d.svc := rfl
@[simp] theorem Dev.onXlt_out (d : Dev) (f : Xlt → Xlt) : (d.onXlt f).out = d.out := rfl
@[simp] theorem Dev.onXlt_free (d : Dev) (f : Xlt → Xlt) : (d.onXlt f).free = d.free := rfl
@[simp] theorem Dev.onXlt_onXlt (d : Dev) (f g : Xlt → Xlt) : (d.onXlt f).onXlt g = d.onXlt (fun x => g (f x)) := rfl
-- onEng
@[simp] theorem Dev.onEng_fab (d : Dev) (f : Eng → Eng) : (d.onEng f).fab = d.fab := rfl
@[simp] theorem Dev.onEng_mem (d : Dev) (f : Eng → Eng) : (d.onEng f).mem = d.mem := rfl
@[simp] theorem Dev.onEng_xlt (d : Dev) (f : Eng → Eng) : (d.onEng f).xlt = d.xlt := rfl
@[simp] theorem Dev.onEng_eng (d : Dev) (f : Eng → Eng) : (d.onEng f).eng = f d.eng := rfl
@[simp] theorem Dev.onEng_q (d : Dev) (f : Eng → Eng) : (d.onEng f).q = d.q := rfl
@[simp] theorem Dev.onEng_net (d : Dev) (f : Eng → Eng) : (d.onEng f).net = d.net := rfl
@[simp] theorem Dev.onEng_ropes (d : Dev) (f : Eng → Eng) : (d.onEng f).ropes = d.ropes := rfl
@[simp] theorem Dev.onEng_host (d : Dev) (f : Eng → Eng) : (d.onEng f).host = d.host := rfl
@[simp] theorem Dev.onEng_ctl (d : Dev) (f : Eng → Eng) : (d.onEng f).ctl = d.ctl := rfl
@[simp] theorem Dev.onEng_ten (d : Dev) (f : Eng → Eng) : (d.onEng f).ten = d.ten := rfl
@[simp] theorem Dev.onEng_ciph (d : Dev) (f : Eng → Eng) : (d.onEng f).ciph = d.ciph := rfl
@[simp] theorem Dev.onEng_pwr (d : Dev) (f : Eng → Eng) : (d.onEng f).pwr = d.pwr := rfl
@[simp] theorem Dev.onEng_svc (d : Dev) (f : Eng → Eng) : (d.onEng f).svc = d.svc := rfl
@[simp] theorem Dev.onEng_out (d : Dev) (f : Eng → Eng) : (d.onEng f).out = d.out := rfl
@[simp] theorem Dev.onEng_free (d : Dev) (f : Eng → Eng) : (d.onEng f).free = d.free := rfl
@[simp] theorem Dev.onEng_onEng (d : Dev) (f g : Eng → Eng) : (d.onEng f).onEng g = d.onEng (fun x => g (f x)) := rfl
-- onQ
@[simp] theorem Dev.onQ_fab (d : Dev) (f : Qps → Qps) : (d.onQ f).fab = d.fab := rfl
@[simp] theorem Dev.onQ_mem (d : Dev) (f : Qps → Qps) : (d.onQ f).mem = d.mem := rfl
@[simp] theorem Dev.onQ_xlt (d : Dev) (f : Qps → Qps) : (d.onQ f).xlt = d.xlt := rfl
@[simp] theorem Dev.onQ_eng (d : Dev) (f : Qps → Qps) : (d.onQ f).eng = d.eng := rfl
@[simp] theorem Dev.onQ_q (d : Dev) (f : Qps → Qps) : (d.onQ f).q = f d.q := rfl
@[simp] theorem Dev.onQ_net (d : Dev) (f : Qps → Qps) : (d.onQ f).net = d.net := rfl
@[simp] theorem Dev.onQ_ropes (d : Dev) (f : Qps → Qps) : (d.onQ f).ropes = d.ropes := rfl
@[simp] theorem Dev.onQ_host (d : Dev) (f : Qps → Qps) : (d.onQ f).host = d.host := rfl
@[simp] theorem Dev.onQ_ctl (d : Dev) (f : Qps → Qps) : (d.onQ f).ctl = d.ctl := rfl
@[simp] theorem Dev.onQ_ten (d : Dev) (f : Qps → Qps) : (d.onQ f).ten = d.ten := rfl
@[simp] theorem Dev.onQ_ciph (d : Dev) (f : Qps → Qps) : (d.onQ f).ciph = d.ciph := rfl
@[simp] theorem Dev.onQ_pwr (d : Dev) (f : Qps → Qps) : (d.onQ f).pwr = d.pwr := rfl
@[simp] theorem Dev.onQ_svc (d : Dev) (f : Qps → Qps) : (d.onQ f).svc = d.svc := rfl
@[simp] theorem Dev.onQ_out (d : Dev) (f : Qps → Qps) : (d.onQ f).out = d.out := rfl
@[simp] theorem Dev.onQ_free (d : Dev) (f : Qps → Qps) : (d.onQ f).free = d.free := rfl
@[simp] theorem Dev.onQ_onQ (d : Dev) (f g : Qps → Qps) : (d.onQ f).onQ g = d.onQ (fun x => g (f x)) := rfl
-- onNet
@[simp] theorem Dev.onNet_fab (d : Dev) (f : Net → Net) : (d.onNet f).fab = d.fab := rfl
@[simp] theorem Dev.onNet_mem (d : Dev) (f : Net → Net) : (d.onNet f).mem = d.mem := rfl
@[simp] theorem Dev.onNet_xlt (d : Dev) (f : Net → Net) : (d.onNet f).xlt = d.xlt := rfl
@[simp] theorem Dev.onNet_eng (d : Dev) (f : Net → Net) : (d.onNet f).eng = d.eng := rfl
@[simp] theorem Dev.onNet_q (d : Dev) (f : Net → Net) : (d.onNet f).q = d.q := rfl
@[simp] theorem Dev.onNet_net (d : Dev) (f : Net → Net) : (d.onNet f).net = f d.net := rfl
@[simp] theorem Dev.onNet_ropes (d : Dev) (f : Net → Net) : (d.onNet f).ropes = d.ropes := rfl
@[simp] theorem Dev.onNet_host (d : Dev) (f : Net → Net) : (d.onNet f).host = d.host := rfl
@[simp] theorem Dev.onNet_ctl (d : Dev) (f : Net → Net) : (d.onNet f).ctl = d.ctl := rfl
@[simp] theorem Dev.onNet_ten (d : Dev) (f : Net → Net) : (d.onNet f).ten = d.ten := rfl
@[simp] theorem Dev.onNet_ciph (d : Dev) (f : Net → Net) : (d.onNet f).ciph = d.ciph := rfl
@[simp] theorem Dev.onNet_pwr (d : Dev) (f : Net → Net) : (d.onNet f).pwr = d.pwr := rfl
@[simp] theorem Dev.onNet_svc (d : Dev) (f : Net → Net) : (d.onNet f).svc = d.svc := rfl
@[simp] theorem Dev.onNet_out (d : Dev) (f : Net → Net) : (d.onNet f).out = d.out := rfl
@[simp] theorem Dev.onNet_free (d : Dev) (f : Net → Net) : (d.onNet f).free = d.free := rfl
@[simp] theorem Dev.onNet_onNet (d : Dev) (f g : Net → Net) : (d.onNet f).onNet g = d.onNet (fun x => g (f x)) := rfl
-- onRopes
@[simp] theorem Dev.onRopes_fab (d : Dev) (f : Ropes → Ropes) : (d.onRopes f).fab = d.fab := rfl
@[simp] theorem Dev.onRopes_mem (d : Dev) (f : Ropes → Ropes) : (d.onRopes f).mem = d.mem := rfl
@[simp] theorem Dev.onRopes_xlt (d : Dev) (f : Ropes → Ropes) : (d.onRopes f).xlt = d.xlt := rfl
@[simp] theorem Dev.onRopes_eng (d : Dev) (f : Ropes → Ropes) : (d.onRopes f).eng = d.eng := rfl
@[simp] theorem Dev.onRopes_q (d : Dev) (f : Ropes → Ropes) : (d.onRopes f).q = d.q := rfl
@[simp] theorem Dev.onRopes_net (d : Dev) (f : Ropes → Ropes) : (d.onRopes f).net = d.net := rfl
@[simp] theorem Dev.onRopes_ropes (d : Dev) (f : Ropes → Ropes) : (d.onRopes f).ropes = f d.ropes := rfl
@[simp] theorem Dev.onRopes_host (d : Dev) (f : Ropes → Ropes) : (d.onRopes f).host = d.host := rfl
@[simp] theorem Dev.onRopes_ctl (d : Dev) (f : Ropes → Ropes) : (d.onRopes f).ctl = d.ctl := rfl
@[simp] theorem Dev.onRopes_ten (d : Dev) (f : Ropes → Ropes) : (d.onRopes f).ten = d.ten := rfl
@[simp] theorem Dev.onRopes_ciph (d : Dev) (f : Ropes → Ropes) : (d.onRopes f).ciph = d.ciph := rfl
@[simp] theorem Dev.onRopes_pwr (d : Dev) (f : Ropes → Ropes) : (d.onRopes f).pwr = d.pwr := rfl
@[simp] theorem Dev.onRopes_svc (d : Dev) (f : Ropes → Ropes) : (d.onRopes f).svc = d.svc := rfl
@[simp] theorem Dev.onRopes_out (d : Dev) (f : Ropes → Ropes) : (d.onRopes f).out = d.out := rfl
@[simp] theorem Dev.onRopes_free (d : Dev) (f : Ropes → Ropes) : (d.onRopes f).free = d.free := rfl
@[simp] theorem Dev.onRopes_onRopes (d : Dev) (f g : Ropes → Ropes) : (d.onRopes f).onRopes g = d.onRopes (fun x => g (f x)) := rfl
-- onCtl
@[simp] theorem Dev.onCtl_fab (d : Dev) (f : Ctl → Ctl) : (d.onCtl f).fab = d.fab := rfl
@[simp] theorem Dev.onCtl_mem (d : Dev) (f : Ctl → Ctl) : (d.onCtl f).mem = d.mem := rfl
@[simp] theorem Dev.onCtl_xlt (d : Dev) (f : Ctl → Ctl) : (d.onCtl f).xlt = d.xlt := rfl
@[simp] theorem Dev.onCtl_eng (d : Dev) (f : Ctl → Ctl) : (d.onCtl f).eng = d.eng := rfl
@[simp] theorem Dev.onCtl_q (d : Dev) (f : Ctl → Ctl) : (d.onCtl f).q = d.q := rfl
@[simp] theorem Dev.onCtl_net (d : Dev) (f : Ctl → Ctl) : (d.onCtl f).net = d.net := rfl
@[simp] theorem Dev.onCtl_ropes (d : Dev) (f : Ctl → Ctl) : (d.onCtl f).ropes = d.ropes := rfl
@[simp] theorem Dev.onCtl_host (d : Dev) (f : Ctl → Ctl) : (d.onCtl f).host = d.host := rfl
@[simp] theorem Dev.onCtl_ctl (d : Dev) (f : Ctl → Ctl) : (d.onCtl f).ctl = f d.ctl := rfl
@[simp] theorem Dev.onCtl_ten (d : Dev) (f : Ctl → Ctl) : (d.onCtl f).ten = d.ten := rfl
@[simp] theorem Dev.onCtl_ciph (d : Dev) (f : Ctl → Ctl) : (d.onCtl f).ciph = d.ciph := rfl
@[simp] theorem Dev.onCtl_pwr (d : Dev) (f : Ctl → Ctl) : (d.onCtl f).pwr = d.pwr := rfl
@[simp] theorem Dev.onCtl_svc (d : Dev) (f : Ctl → Ctl) : (d.onCtl f).svc = d.svc := rfl
@[simp] theorem Dev.onCtl_out (d : Dev) (f : Ctl → Ctl) : (d.onCtl f).out = d.out := rfl
@[simp] theorem Dev.onCtl_free (d : Dev) (f : Ctl → Ctl) : (d.onCtl f).free = d.free := rfl
@[simp] theorem Dev.onCtl_onCtl (d : Dev) (f g : Ctl → Ctl) : (d.onCtl f).onCtl g = d.onCtl (fun x => g (f x)) := rfl
-- onTens
@[simp] theorem Dev.onTens_fab (d : Dev) (f : Tens → Tens) : (d.onTens f).fab = d.fab := rfl
@[simp] theorem Dev.onTens_mem (d : Dev) (f : Tens → Tens) : (d.onTens f).mem = d.mem := rfl
@[simp] theorem Dev.onTens_xlt (d : Dev) (f : Tens → Tens) : (d.onTens f).xlt = d.xlt := rfl
@[simp] theorem Dev.onTens_eng (d : Dev) (f : Tens → Tens) : (d.onTens f).eng = d.eng := rfl
@[simp] theorem Dev.onTens_q (d : Dev) (f : Tens → Tens) : (d.onTens f).q = d.q := rfl
@[simp] theorem Dev.onTens_net (d : Dev) (f : Tens → Tens) : (d.onTens f).net = d.net := rfl
@[simp] theorem Dev.onTens_ropes (d : Dev) (f : Tens → Tens) : (d.onTens f).ropes = d.ropes := rfl
@[simp] theorem Dev.onTens_host (d : Dev) (f : Tens → Tens) : (d.onTens f).host = d.host := rfl
@[simp] theorem Dev.onTens_ctl (d : Dev) (f : Tens → Tens) : (d.onTens f).ctl = d.ctl := rfl
@[simp] theorem Dev.onTens_ten (d : Dev) (f : Tens → Tens) : (d.onTens f).ten = f d.ten := rfl
@[simp] theorem Dev.onTens_ciph (d : Dev) (f : Tens → Tens) : (d.onTens f).ciph = d.ciph := rfl
@[simp] theorem Dev.onTens_pwr (d : Dev) (f : Tens → Tens) : (d.onTens f).pwr = d.pwr := rfl
@[simp] theorem Dev.onTens_svc (d : Dev) (f : Tens → Tens) : (d.onTens f).svc = d.svc := rfl
@[simp] theorem Dev.onTens_out (d : Dev) (f : Tens → Tens) : (d.onTens f).out = d.out := rfl
@[simp] theorem Dev.onTens_free (d : Dev) (f : Tens → Tens) : (d.onTens f).free = d.free := rfl
@[simp] theorem Dev.onTens_onTens (d : Dev) (f g : Tens → Tens) : (d.onTens f).onTens g = d.onTens (fun x => g (f x)) := rfl
-- onCiph
@[simp] theorem Dev.onCiph_fab (d : Dev) (f : Ciph → Ciph) : (d.onCiph f).fab = d.fab := rfl
@[simp] theorem Dev.onCiph_mem (d : Dev) (f : Ciph → Ciph) : (d.onCiph f).mem = d.mem := rfl
@[simp] theorem Dev.onCiph_xlt (d : Dev) (f : Ciph → Ciph) : (d.onCiph f).xlt = d.xlt := rfl
@[simp] theorem Dev.onCiph_eng (d : Dev) (f : Ciph → Ciph) : (d.onCiph f).eng = d.eng := rfl
@[simp] theorem Dev.onCiph_q (d : Dev) (f : Ciph → Ciph) : (d.onCiph f).q = d.q := rfl
@[simp] theorem Dev.onCiph_net (d : Dev) (f : Ciph → Ciph) : (d.onCiph f).net = d.net := rfl
@[simp] theorem Dev.onCiph_ropes (d : Dev) (f : Ciph → Ciph) : (d.onCiph f).ropes = d.ropes := rfl
@[simp] theorem Dev.onCiph_host (d : Dev) (f : Ciph → Ciph) : (d.onCiph f).host = d.host := rfl
@[simp] theorem Dev.onCiph_ctl (d : Dev) (f : Ciph → Ciph) : (d.onCiph f).ctl = d.ctl := rfl
@[simp] theorem Dev.onCiph_ten (d : Dev) (f : Ciph → Ciph) : (d.onCiph f).ten = d.ten := rfl
@[simp] theorem Dev.onCiph_ciph (d : Dev) (f : Ciph → Ciph) : (d.onCiph f).ciph = f d.ciph := rfl
@[simp] theorem Dev.onCiph_pwr (d : Dev) (f : Ciph → Ciph) : (d.onCiph f).pwr = d.pwr := rfl
@[simp] theorem Dev.onCiph_svc (d : Dev) (f : Ciph → Ciph) : (d.onCiph f).svc = d.svc := rfl
@[simp] theorem Dev.onCiph_out (d : Dev) (f : Ciph → Ciph) : (d.onCiph f).out = d.out := rfl
@[simp] theorem Dev.onCiph_free (d : Dev) (f : Ciph → Ciph) : (d.onCiph f).free = d.free := rfl
@[simp] theorem Dev.onCiph_onCiph (d : Dev) (f g : Ciph → Ciph) : (d.onCiph f).onCiph g = d.onCiph (fun x => g (f x)) := rfl
-- onPwr
@[simp] theorem Dev.onPwr_fab (d : Dev) (f : Pwr → Pwr) : (d.onPwr f).fab = d.fab := rfl
@[simp] theorem Dev.onPwr_mem (d : Dev) (f : Pwr → Pwr) : (d.onPwr f).mem = d.mem := rfl
@[simp] theorem Dev.onPwr_xlt (d : Dev) (f : Pwr → Pwr) : (d.onPwr f).xlt = d.xlt := rfl
@[simp] theorem Dev.onPwr_eng (d : Dev) (f : Pwr → Pwr) : (d.onPwr f).eng = d.eng := rfl
@[simp] theorem Dev.onPwr_q (d : Dev) (f : Pwr → Pwr) : (d.onPwr f).q = d.q := rfl
@[simp] theorem Dev.onPwr_net (d : Dev) (f : Pwr → Pwr) : (d.onPwr f).net = d.net := rfl
@[simp] theorem Dev.onPwr_ropes (d : Dev) (f : Pwr → Pwr) : (d.onPwr f).ropes = d.ropes := rfl
@[simp] theorem Dev.onPwr_host (d : Dev) (f : Pwr → Pwr) : (d.onPwr f).host = d.host := rfl
@[simp] theorem Dev.onPwr_ctl (d : Dev) (f : Pwr → Pwr) : (d.onPwr f).ctl = d.ctl := rfl
@[simp] theorem Dev.onPwr_ten (d : Dev) (f : Pwr → Pwr) : (d.onPwr f).ten = d.ten := rfl
@[simp] theorem Dev.onPwr_ciph (d : Dev) (f : Pwr → Pwr) : (d.onPwr f).ciph = d.ciph := rfl
@[simp] theorem Dev.onPwr_pwr (d : Dev) (f : Pwr → Pwr) : (d.onPwr f).pwr = f d.pwr := rfl
@[simp] theorem Dev.onPwr_svc (d : Dev) (f : Pwr → Pwr) : (d.onPwr f).svc = d.svc := rfl
@[simp] theorem Dev.onPwr_out (d : Dev) (f : Pwr → Pwr) : (d.onPwr f).out = d.out := rfl
@[simp] theorem Dev.onPwr_free (d : Dev) (f : Pwr → Pwr) : (d.onPwr f).free = d.free := rfl
@[simp] theorem Dev.onPwr_onPwr (d : Dev) (f g : Pwr → Pwr) : (d.onPwr f).onPwr g = d.onPwr (fun x => g (f x)) := rfl
-- onSvc
@[simp] theorem Dev.onSvc_fab (d : Dev) (f : Svc → Svc) : (d.onSvc f).fab = d.fab := rfl
@[simp] theorem Dev.onSvc_mem (d : Dev) (f : Svc → Svc) : (d.onSvc f).mem = d.mem := rfl
@[simp] theorem Dev.onSvc_xlt (d : Dev) (f : Svc → Svc) : (d.onSvc f).xlt = d.xlt := rfl
@[simp] theorem Dev.onSvc_eng (d : Dev) (f : Svc → Svc) : (d.onSvc f).eng = d.eng := rfl
@[simp] theorem Dev.onSvc_q (d : Dev) (f : Svc → Svc) : (d.onSvc f).q = d.q := rfl
@[simp] theorem Dev.onSvc_net (d : Dev) (f : Svc → Svc) : (d.onSvc f).net = d.net := rfl
@[simp] theorem Dev.onSvc_ropes (d : Dev) (f : Svc → Svc) : (d.onSvc f).ropes = d.ropes := rfl
@[simp] theorem Dev.onSvc_host (d : Dev) (f : Svc → Svc) : (d.onSvc f).host = d.host := rfl
@[simp] theorem Dev.onSvc_ctl (d : Dev) (f : Svc → Svc) : (d.onSvc f).ctl = d.ctl := rfl
@[simp] theorem Dev.onSvc_ten (d : Dev) (f : Svc → Svc) : (d.onSvc f).ten = d.ten := rfl
@[simp] theorem Dev.onSvc_ciph (d : Dev) (f : Svc → Svc) : (d.onSvc f).ciph = d.ciph := rfl
@[simp] theorem Dev.onSvc_pwr (d : Dev) (f : Svc → Svc) : (d.onSvc f).pwr = d.pwr := rfl
@[simp] theorem Dev.onSvc_svc (d : Dev) (f : Svc → Svc) : (d.onSvc f).svc = f d.svc := rfl
@[simp] theorem Dev.onSvc_out (d : Dev) (f : Svc → Svc) : (d.onSvc f).out = d.out := rfl
@[simp] theorem Dev.onSvc_free (d : Dev) (f : Svc → Svc) : (d.onSvc f).free = d.free := rfl
@[simp] theorem Dev.onSvc_onSvc (d : Dev) (f g : Svc → Svc) : (d.onSvc f).onSvc g = d.onSvc (fun x => g (f x)) := rfl
-- onHost
@[simp] theorem Dev.onHost_fab (d : Dev) (k : Side) (f : HostPort → HostPort) : (d.onHost k f).fab = d.fab := rfl
@[simp] theorem Dev.onHost_mem (d : Dev) (k : Side) (f : HostPort → HostPort) : (d.onHost k f).mem = d.mem := rfl
@[simp] theorem Dev.onHost_xlt (d : Dev) (k : Side) (f : HostPort → HostPort) : (d.onHost k f).xlt = d.xlt := rfl
@[simp] theorem Dev.onHost_eng (d : Dev) (k : Side) (f : HostPort → HostPort) : (d.onHost k f).eng = d.eng := rfl
@[simp] theorem Dev.onHost_q (d : Dev) (k : Side) (f : HostPort → HostPort) : (d.onHost k f).q = d.q := rfl
@[simp] theorem Dev.onHost_net (d : Dev) (k : Side) (f : HostPort → HostPort) : (d.onHost k f).net = d.net := rfl
@[simp] theorem Dev.onHost_ropes (d : Dev) (k : Side) (f : HostPort → HostPort) : (d.onHost k f).ropes = d.ropes := rfl
@[simp] theorem Dev.onHost_ctl (d : Dev) (k : Side) (f : HostPort → HostPort) : (d.onHost k f).ctl = d.ctl := rfl
@[simp] theorem Dev.onHost_ten (d : Dev) (k : Side) (f : HostPort → HostPort) : (d.onHost k f).ten = d.ten := rfl
@[simp] theorem Dev.onHost_ciph (d : Dev) (k : Side) (f : HostPort → HostPort) : (d.onHost k f).ciph = d.ciph := rfl
@[simp] theorem Dev.onHost_pwr (d : Dev) (k : Side) (f : HostPort → HostPort) : (d.onHost k f).pwr = d.pwr := rfl
@[simp] theorem Dev.onHost_svc (d : Dev) (k : Side) (f : HostPort → HostPort) : (d.onHost k f).svc = d.svc := rfl
@[simp] theorem Dev.onHost_out (d : Dev) (k : Side) (f : HostPort → HostPort) : (d.onHost k f).out = d.out := rfl
@[simp] theorem Dev.onHost_free (d : Dev) (k : Side) (f : HostPort → HostPort) : (d.onHost k f).free = d.free := rfl
-- onQp
@[simp] theorem Dev.onQp_fab (d : Dev) (k : Nat) (f : Qp → Qp) : (d.onQp k f).fab = d.fab := rfl
@[simp] theorem Dev.onQp_mem (d : Dev) (k : Nat) (f : Qp → Qp) : (d.onQp k f).mem = d.mem := rfl
@[simp] theorem Dev.onQp_xlt (d : Dev) (k : Nat) (f : Qp → Qp) : (d.onQp k f).xlt = d.xlt := rfl
@[simp] theorem Dev.onQp_eng (d : Dev) (k : Nat) (f : Qp → Qp) : (d.onQp k f).eng = d.eng := rfl
@[simp] theorem Dev.onQp_net (d : Dev) (k : Nat) (f : Qp → Qp) : (d.onQp k f).net = d.net := rfl
@[simp] theorem Dev.onQp_ropes (d : Dev) (k : Nat) (f : Qp → Qp) : (d.onQp k f).ropes = d.ropes := rfl
@[simp] theorem Dev.onQp_host (d : Dev) (k : Nat) (f : Qp → Qp) : (d.onQp k f).host = d.host := rfl
@[simp] theorem Dev.onQp_ctl (d : Dev) (k : Nat) (f : Qp → Qp) : (d.onQp k f).ctl = d.ctl := rfl
@[simp] theorem Dev.onQp_ten (d : Dev) (k : Nat) (f : Qp → Qp) : (d.onQp k f).ten = d.ten := rfl
@[simp] theorem Dev.onQp_ciph (d : Dev) (k : Nat) (f : Qp → Qp) : (d.onQp k f).ciph = d.ciph := rfl
@[simp] theorem Dev.onQp_pwr (d : Dev) (k : Nat) (f : Qp → Qp) : (d.onQp k f).pwr = d.pwr := rfl
@[simp] theorem Dev.onQp_svc (d : Dev) (k : Nat) (f : Qp → Qp) : (d.onQp k f).svc = d.svc := rfl
@[simp] theorem Dev.onQp_out (d : Dev) (k : Nat) (f : Qp → Qp) : (d.onQp k f).out = d.out := rfl
@[simp] theorem Dev.onQp_free (d : Dev) (k : Nat) (f : Qp → Qp) : (d.onQp k f).free = d.free := rfl
-- onConn
@[simp] theorem Dev.onConn_fab (d : Dev) (k : Nat) (f : Conn → Conn) : (d.onConn k f).fab = d.fab := rfl
@[simp] theorem Dev.onConn_mem (d : Dev) (k : Nat) (f : Conn → Conn) : (d.onConn k f).mem = d.mem := rfl
@[simp] theorem Dev.onConn_xlt (d : Dev) (k : Nat) (f : Conn → Conn) : (d.onConn k f).xlt = d.xlt := rfl
@[simp] theorem Dev.onConn_eng (d : Dev) (k : Nat) (f : Conn → Conn) : (d.onConn k f).eng = d.eng := rfl
@[simp] theorem Dev.onConn_net (d : Dev) (k : Nat) (f : Conn → Conn) : (d.onConn k f).net = d.net := rfl
@[simp] theorem Dev.onConn_ropes (d : Dev) (k : Nat) (f : Conn → Conn) : (d.onConn k f).ropes = d.ropes := rfl
@[simp] theorem Dev.onConn_host (d : Dev) (k : Nat) (f : Conn → Conn) : (d.onConn k f).host = d.host := rfl
@[simp] theorem Dev.onConn_ctl (d : Dev) (k : Nat) (f : Conn → Conn) : (d.onConn k f).ctl = d.ctl := rfl
@[simp] theorem Dev.onConn_ten (d : Dev) (k : Nat) (f : Conn → Conn) : (d.onConn k f).ten = d.ten := rfl
@[simp] theorem Dev.onConn_ciph (d : Dev) (k : Nat) (f : Conn → Conn) : (d.onConn k f).ciph = d.ciph := rfl
@[simp] theorem Dev.onConn_pwr (d : Dev) (k : Nat) (f : Conn → Conn) : (d.onConn k f).pwr = d.pwr := rfl
@[simp] theorem Dev.onConn_svc (d : Dev) (k : Nat) (f : Conn → Conn) : (d.onConn k f).svc = d.svc := rfl
@[simp] theorem Dev.onConn_out (d : Dev) (k : Nat) (f : Conn → Conn) : (d.onConn k f).out = d.out := rfl
@[simp] theorem Dev.onConn_free (d : Dev) (k : Nat) (f : Conn → Conn) : (d.onConn k f).free = d.free := rfl
-- onCq
@[simp] theorem Dev.onCq_fab (d : Dev) (k : Nat) (f : Cq → Cq) : (d.onCq k f).fab = d.fab := rfl
@[simp] theorem Dev.onCq_mem (d : Dev) (k : Nat) (f : Cq → Cq) : (d.onCq k f).mem = d.mem := rfl
@[simp] theorem Dev.onCq_xlt (d : Dev) (k : Nat) (f : Cq → Cq) : (d.onCq k f).xlt = d.xlt := rfl
@[simp] theorem Dev.onCq_eng (d : Dev) (k : Nat) (f : Cq → Cq) : (d.onCq k f).eng = d.eng := rfl
@[simp] theorem Dev.onCq_net (d : Dev) (k : Nat) (f : Cq → Cq) : (d.onCq k f).net = d.net := rfl
@[simp] theorem Dev.onCq_ropes (d : Dev) (k : Nat) (f : Cq → Cq) : (d.onCq k f).ropes = d.ropes := rfl
@[simp] theorem Dev.onCq_host (d : Dev) (k : Nat) (f : Cq → Cq) : (d.onCq k f).host = d.host := rfl
@[simp] theorem Dev.onCq_ctl (d : Dev) (k : Nat) (f : Cq → Cq) : (d.onCq k f).ctl = d.ctl := rfl
@[simp] theorem Dev.onCq_ten (d : Dev) (k : Nat) (f : Cq → Cq) : (d.onCq k f).ten = d.ten := rfl
@[simp] theorem Dev.onCq_ciph (d : Dev) (k : Nat) (f : Cq → Cq) : (d.onCq k f).ciph = d.ciph := rfl
@[simp] theorem Dev.onCq_pwr (d : Dev) (k : Nat) (f : Cq → Cq) : (d.onCq k f).pwr = d.pwr := rfl
@[simp] theorem Dev.onCq_svc (d : Dev) (k : Nat) (f : Cq → Cq) : (d.onCq k f).svc = d.svc := rfl
@[simp] theorem Dev.onCq_out (d : Dev) (k : Nat) (f : Cq → Cq) : (d.onCq k f).out = d.out := rfl
@[simp] theorem Dev.onCq_free (d : Dev) (k : Nat) (f : Cq → Cq) : (d.onCq k f).free = d.free := rfl
-- onStk
@[simp] theorem Dev.onStk_fab (d : Dev) (k : Nat) (f : Stack → Stack) : (d.onStk k f).fab = d.fab := rfl
@[simp] theorem Dev.onStk_xlt (d : Dev) (k : Nat) (f : Stack → Stack) : (d.onStk k f).xlt = d.xlt := rfl
@[simp] theorem Dev.onStk_eng (d : Dev) (k : Nat) (f : Stack → Stack) : (d.onStk k f).eng = d.eng := rfl
@[simp] theorem Dev.onStk_q (d : Dev) (k : Nat) (f : Stack → Stack) : (d.onStk k f).q = d.q := rfl
@[simp] theorem Dev.onStk_net (d : Dev) (k : Nat) (f : Stack → Stack) : (d.onStk k f).net = d.net := rfl
@[simp] theorem Dev.onStk_ropes (d : Dev) (k : Nat) (f : Stack → Stack) : (d.onStk k f).ropes = d.ropes := rfl
@[simp] theorem Dev.onStk_host (d : Dev) (k : Nat) (f : Stack → Stack) : (d.onStk k f).host = d.host := rfl
@[simp] theorem Dev.onStk_ctl (d : Dev) (k : Nat) (f : Stack → Stack) : (d.onStk k f).ctl = d.ctl := rfl
@[simp] theorem Dev.onStk_ten (d : Dev) (k : Nat) (f : Stack → Stack) : (d.onStk k f).ten = d.ten := rfl
@[simp] theorem Dev.onStk_ciph (d : Dev) (k : Nat) (f : Stack → Stack) : (d.onStk k f).ciph = d.ciph := rfl
@[simp] theorem Dev.onStk_pwr (d : Dev) (k : Nat) (f : Stack → Stack) : (d.onStk k f).pwr = d.pwr := rfl
@[simp] theorem Dev.onStk_svc (d : Dev) (k : Nat) (f : Stack → Stack) : (d.onStk k f).svc = d.svc := rfl
@[simp] theorem Dev.onStk_out (d : Dev) (k : Nat) (f : Stack → Stack) : (d.onStk k f).out = d.out := rfl
@[simp] theorem Dev.onStk_free (d : Dev) (k : Nat) (f : Stack → Stack) : (d.onStk k f).free = d.free := rfl
-- onStkEng
@[simp] theorem Dev.onStkEng_fab (d : Dev) (k : Nat) (f : StackEng → StackEng) : (d.onStkEng k f).fab = d.fab := rfl
@[simp] theorem Dev.onStkEng_mem (d : Dev) (k : Nat) (f : StackEng → StackEng) : (d.onStkEng k f).mem = d.mem := rfl
@[simp] theorem Dev.onStkEng_xlt (d : Dev) (k : Nat) (f : StackEng → StackEng) : (d.onStkEng k f).xlt = d.xlt := rfl
@[simp] theorem Dev.onStkEng_q (d : Dev) (k : Nat) (f : StackEng → StackEng) : (d.onStkEng k f).q = d.q := rfl
@[simp] theorem Dev.onStkEng_net (d : Dev) (k : Nat) (f : StackEng → StackEng) : (d.onStkEng k f).net = d.net := rfl
@[simp] theorem Dev.onStkEng_ropes (d : Dev) (k : Nat) (f : StackEng → StackEng) : (d.onStkEng k f).ropes = d.ropes := rfl
@[simp] theorem Dev.onStkEng_host (d : Dev) (k : Nat) (f : StackEng → StackEng) : (d.onStkEng k f).host = d.host := rfl
@[simp] theorem Dev.onStkEng_ctl (d : Dev) (k : Nat) (f : StackEng → StackEng) : (d.onStkEng k f).ctl = d.ctl := rfl
@[simp] theorem Dev.onStkEng_ten (d : Dev) (k : Nat) (f : StackEng → StackEng) : (d.onStkEng k f).ten = d.ten := rfl
@[simp] theorem Dev.onStkEng_ciph (d : Dev) (k : Nat) (f : StackEng → StackEng) : (d.onStkEng k f).ciph = d.ciph := rfl
@[simp] theorem Dev.onStkEng_pwr (d : Dev) (k : Nat) (f : StackEng → StackEng) : (d.onStkEng k f).pwr = d.pwr := rfl
@[simp] theorem Dev.onStkEng_svc (d : Dev) (k : Nat) (f : StackEng → StackEng) : (d.onStkEng k f).svc = d.svc := rfl
@[simp] theorem Dev.onStkEng_out (d : Dev) (k : Nat) (f : StackEng → StackEng) : (d.onStkEng k f).out = d.out := rfl
@[simp] theorem Dev.onStkEng_free (d : Dev) (k : Nat) (f : StackEng → StackEng) : (d.onStkEng k f).free = d.free := rfl
-- onOp
@[simp] theorem Dev.onOp_fab (d : Dev) (k : Nat) (f : Op → Op) : (d.onOp k f).fab = d.fab := rfl
@[simp] theorem Dev.onOp_mem (d : Dev) (k : Nat) (f : Op → Op) : (d.onOp k f).mem = d.mem := rfl
@[simp] theorem Dev.onOp_xlt (d : Dev) (k : Nat) (f : Op → Op) : (d.onOp k f).xlt = d.xlt := rfl
@[simp] theorem Dev.onOp_q (d : Dev) (k : Nat) (f : Op → Op) : (d.onOp k f).q = d.q := rfl
@[simp] theorem Dev.onOp_net (d : Dev) (k : Nat) (f : Op → Op) : (d.onOp k f).net = d.net := rfl
@[simp] theorem Dev.onOp_ropes (d : Dev) (k : Nat) (f : Op → Op) : (d.onOp k f).ropes = d.ropes := rfl
@[simp] theorem Dev.onOp_host (d : Dev) (k : Nat) (f : Op → Op) : (d.onOp k f).host = d.host := rfl
@[simp] theorem Dev.onOp_ctl (d : Dev) (k : Nat) (f : Op → Op) : (d.onOp k f).ctl = d.ctl := rfl
@[simp] theorem Dev.onOp_ten (d : Dev) (k : Nat) (f : Op → Op) : (d.onOp k f).ten = d.ten := rfl
@[simp] theorem Dev.onOp_ciph (d : Dev) (k : Nat) (f : Op → Op) : (d.onOp k f).ciph = d.ciph := rfl
@[simp] theorem Dev.onOp_pwr (d : Dev) (k : Nat) (f : Op → Op) : (d.onOp k f).pwr = d.pwr := rfl
@[simp] theorem Dev.onOp_svc (d : Dev) (k : Nat) (f : Op → Op) : (d.onOp k f).svc = d.svc := rfl
@[simp] theorem Dev.onOp_out (d : Dev) (k : Nat) (f : Op → Op) : (d.onOp k f).out = d.out := rfl
@[simp] theorem Dev.onOp_free (d : Dev) (k : Nat) (f : Op → Op) : (d.onOp k f).free = d.free := rfl
-- onPort
@[simp] theorem Dev.onPort_fab (d : Dev) (k : Nat) (f : NetPort → NetPort) : (d.onPort k f).fab = d.fab := rfl
@[simp] theorem Dev.onPort_mem (d : Dev) (k : Nat) (f : NetPort → NetPort) : (d.onPort k f).mem = d.mem := rfl
@[simp] theorem Dev.onPort_xlt (d : Dev) (k : Nat) (f : NetPort → NetPort) : (d.onPort k f).xlt = d.xlt := rfl
@[simp] theorem Dev.onPort_eng (d : Dev) (k : Nat) (f : NetPort → NetPort) : (d.onPort k f).eng = d.eng := rfl
@[simp] theorem Dev.onPort_q (d : Dev) (k : Nat) (f : NetPort → NetPort) : (d.onPort k f).q = d.q := rfl
@[simp] theorem Dev.onPort_ropes (d : Dev) (k : Nat) (f : NetPort → NetPort) : (d.onPort k f).ropes = d.ropes := rfl
@[simp] theorem Dev.onPort_host (d : Dev) (k : Nat) (f : NetPort → NetPort) : (d.onPort k f).host = d.host := rfl
@[simp] theorem Dev.onPort_ctl (d : Dev) (k : Nat) (f : NetPort → NetPort) : (d.onPort k f).ctl = d.ctl := rfl
@[simp] theorem Dev.onPort_ten (d : Dev) (k : Nat) (f : NetPort → NetPort) : (d.onPort k f).ten = d.ten := rfl
@[simp] theorem Dev.onPort_ciph (d : Dev) (k : Nat) (f : NetPort → NetPort) : (d.onPort k f).ciph = d.ciph := rfl
@[simp] theorem Dev.onPort_pwr (d : Dev) (k : Nat) (f : NetPort → NetPort) : (d.onPort k f).pwr = d.pwr := rfl
@[simp] theorem Dev.onPort_svc (d : Dev) (k : Nat) (f : NetPort → NetPort) : (d.onPort k f).svc = d.svc := rfl
@[simp] theorem Dev.onPort_out (d : Dev) (k : Nat) (f : NetPort → NetPort) : (d.onPort k f).out = d.out := rfl
@[simp] theorem Dev.onPort_free (d : Dev) (k : Nat) (f : NetPort → NetPort) : (d.onPort k f).free = d.free := rfl
-- onRope
@[simp] theorem Dev.onRope_fab (d : Dev) (k : Nat) (f : Rope → Rope) : (d.onRope k f).fab = d.fab := rfl
@[simp] theorem Dev.onRope_mem (d : Dev) (k : Nat) (f : Rope → Rope) : (d.onRope k f).mem = d.mem := rfl
@[simp] theorem Dev.onRope_xlt (d : Dev) (k : Nat) (f : Rope → Rope) : (d.onRope k f).xlt = d.xlt := rfl
@[simp] theorem Dev.onRope_eng (d : Dev) (k : Nat) (f : Rope → Rope) : (d.onRope k f).eng = d.eng := rfl
@[simp] theorem Dev.onRope_q (d : Dev) (k : Nat) (f : Rope → Rope) : (d.onRope k f).q = d.q := rfl
@[simp] theorem Dev.onRope_net (d : Dev) (k : Nat) (f : Rope → Rope) : (d.onRope k f).net = d.net := rfl
@[simp] theorem Dev.onRope_host (d : Dev) (k : Nat) (f : Rope → Rope) : (d.onRope k f).host = d.host := rfl
@[simp] theorem Dev.onRope_ctl (d : Dev) (k : Nat) (f : Rope → Rope) : (d.onRope k f).ctl = d.ctl := rfl
@[simp] theorem Dev.onRope_ten (d : Dev) (k : Nat) (f : Rope → Rope) : (d.onRope k f).ten = d.ten := rfl
@[simp] theorem Dev.onRope_ciph (d : Dev) (k : Nat) (f : Rope → Rope) : (d.onRope k f).ciph = d.ciph := rfl
@[simp] theorem Dev.onRope_pwr (d : Dev) (k : Nat) (f : Rope → Rope) : (d.onRope k f).pwr = d.pwr := rfl
@[simp] theorem Dev.onRope_svc (d : Dev) (k : Nat) (f : Rope → Rope) : (d.onRope k f).svc = d.svc := rfl
@[simp] theorem Dev.onRope_out (d : Dev) (k : Nat) (f : Rope → Rope) : (d.onRope k f).out = d.out := rfl
@[simp] theorem Dev.onRope_free (d : Dev) (k : Nat) (f : Rope → Rope) : (d.onRope k f).free = d.free := rfl
-- onTen
@[simp] theorem Dev.onTen_fab (d : Dev) (k : Nat) (f : Tenant → Tenant) : (d.onTen k f).fab = d.fab := rfl
@[simp] theorem Dev.onTen_mem (d : Dev) (k : Nat) (f : Tenant → Tenant) : (d.onTen k f).mem = d.mem := rfl
@[simp] theorem Dev.onTen_xlt (d : Dev) (k : Nat) (f : Tenant → Tenant) : (d.onTen k f).xlt = d.xlt := rfl
@[simp] theorem Dev.onTen_eng (d : Dev) (k : Nat) (f : Tenant → Tenant) : (d.onTen k f).eng = d.eng := rfl
@[simp] theorem Dev.onTen_q (d : Dev) (k : Nat) (f : Tenant → Tenant) : (d.onTen k f).q = d.q := rfl
@[simp] theorem Dev.onTen_net (d : Dev) (k : Nat) (f : Tenant → Tenant) : (d.onTen k f).net = d.net := rfl
@[simp] theorem Dev.onTen_ropes (d : Dev) (k : Nat) (f : Tenant → Tenant) : (d.onTen k f).ropes = d.ropes := rfl
@[simp] theorem Dev.onTen_host (d : Dev) (k : Nat) (f : Tenant → Tenant) : (d.onTen k f).host = d.host := rfl
@[simp] theorem Dev.onTen_ctl (d : Dev) (k : Nat) (f : Tenant → Tenant) : (d.onTen k f).ctl = d.ctl := rfl
@[simp] theorem Dev.onTen_ciph (d : Dev) (k : Nat) (f : Tenant → Tenant) : (d.onTen k f).ciph = d.ciph := rfl
@[simp] theorem Dev.onTen_pwr (d : Dev) (k : Nat) (f : Tenant → Tenant) : (d.onTen k f).pwr = d.pwr := rfl
@[simp] theorem Dev.onTen_svc (d : Dev) (k : Nat) (f : Tenant → Tenant) : (d.onTen k f).svc = d.svc := rfl
@[simp] theorem Dev.onTen_out (d : Dev) (k : Nat) (f : Tenant → Tenant) : (d.onTen k f).out = d.out := rfl
@[simp] theorem Dev.onTen_free (d : Dev) (k : Nat) (f : Tenant → Tenant) : (d.onTen k f).free = d.free := rfl
-- onXPort
@[simp] theorem Dev.onXPort_fab (d : Dev) (k : Side) (f : XltPort → XltPort) : (d.onXPort k f).fab = d.fab := rfl
@[simp] theorem Dev.onXPort_mem (d : Dev) (k : Side) (f : XltPort → XltPort) : (d.onXPort k f).mem = d.mem := rfl
@[simp] theorem Dev.onXPort_eng (d : Dev) (k : Side) (f : XltPort → XltPort) : (d.onXPort k f).eng = d.eng := rfl
@[simp] theorem Dev.onXPort_q (d : Dev) (k : Side) (f : XltPort → XltPort) : (d.onXPort k f).q = d.q := rfl
@[simp] theorem Dev.onXPort_net (d : Dev) (k : Side) (f : XltPort → XltPort) : (d.onXPort k f).net = d.net := rfl
@[simp] theorem Dev.onXPort_ropes (d : Dev) (k : Side) (f : XltPort → XltPort) : (d.onXPort k f).ropes = d.ropes := rfl
@[simp] theorem Dev.onXPort_host (d : Dev) (k : Side) (f : XltPort → XltPort) : (d.onXPort k f).host = d.host := rfl
@[simp] theorem Dev.onXPort_ctl (d : Dev) (k : Side) (f : XltPort → XltPort) : (d.onXPort k f).ctl = d.ctl := rfl
@[simp] theorem Dev.onXPort_ten (d : Dev) (k : Side) (f : XltPort → XltPort) : (d.onXPort k f).ten = d.ten := rfl
@[simp] theorem Dev.onXPort_ciph (d : Dev) (k : Side) (f : XltPort → XltPort) : (d.onXPort k f).ciph = d.ciph := rfl
@[simp] theorem Dev.onXPort_pwr (d : Dev) (k : Side) (f : XltPort → XltPort) : (d.onXPort k f).pwr = d.pwr := rfl
@[simp] theorem Dev.onXPort_svc (d : Dev) (k : Side) (f : XltPort → XltPort) : (d.onXPort k f).svc = d.svc := rfl
@[simp] theorem Dev.onXPort_out (d : Dev) (k : Side) (f : XltPort → XltPort) : (d.onXPort k f).out = d.out := rfl
@[simp] theorem Dev.onXPort_free (d : Dev) (k : Side) (f : XltPort → XltPort) : (d.onXPort k f).free = d.free := rfl
-- onTile
@[simp] theorem Dev.onTile_fab (d : Dev) (k : Nat) (f : TileXlt → TileXlt) : (d.onTile k f).fab = d.fab := rfl
@[simp] theorem Dev.onTile_mem (d : Dev) (k : Nat) (f : TileXlt → TileXlt) : (d.onTile k f).mem = d.mem := rfl
@[simp] theorem Dev.onTile_eng (d : Dev) (k : Nat) (f : TileXlt → TileXlt) : (d.onTile k f).eng = d.eng := rfl
@[simp] theorem Dev.onTile_q (d : Dev) (k : Nat) (f : TileXlt → TileXlt) : (d.onTile k f).q = d.q := rfl
@[simp] theorem Dev.onTile_net (d : Dev) (k : Nat) (f : TileXlt → TileXlt) : (d.onTile k f).net = d.net := rfl
@[simp] theorem Dev.onTile_ropes (d : Dev) (k : Nat) (f : TileXlt → TileXlt) : (d.onTile k f).ropes = d.ropes := rfl
@[simp] theorem Dev.onTile_host (d : Dev) (k : Nat) (f : TileXlt → TileXlt) : (d.onTile k f).host = d.host := rfl
@[simp] theorem Dev.onTile_ctl (d : Dev) (k : Nat) (f : TileXlt → TileXlt) : (d.onTile k f).ctl = d.ctl := rfl
@[simp] theorem Dev.onTile_ten (d : Dev) (k : Nat) (f : TileXlt → TileXlt) : (d.onTile k f).ten = d.ten := rfl
@[simp] theorem Dev.onTile_ciph (d : Dev) (k : Nat) (f : TileXlt → TileXlt) : (d.onTile k f).ciph = d.ciph := rfl
@[simp] theorem Dev.onTile_pwr (d : Dev) (k : Nat) (f : TileXlt → TileXlt) : (d.onTile k f).pwr = d.pwr := rfl
@[simp] theorem Dev.onTile_svc (d : Dev) (k : Nat) (f : TileXlt → TileXlt) : (d.onTile k f).svc = d.svc := rfl
@[simp] theorem Dev.onTile_out (d : Dev) (k : Nat) (f : TileXlt → TileXlt) : (d.onTile k f).out = d.out := rfl
@[simp] theorem Dev.onTile_free (d : Dev) (k : Nat) (f : TileXlt → TileXlt) : (d.onTile k f).free = d.free := rfl
-- onHasp
@[simp] theorem Dev.onHasp_fab (d : Dev) (k : Nat) (f : Hasp → Hasp) : (d.onHasp k f).fab = d.fab := rfl
@[simp] theorem Dev.onHasp_mem (d : Dev) (k : Nat) (f : Hasp → Hasp) : (d.onHasp k f).mem = d.mem := rfl
@[simp] theorem Dev.onHasp_xlt (d : Dev) (k : Nat) (f : Hasp → Hasp) : (d.onHasp k f).xlt = d.xlt := rfl
@[simp] theorem Dev.onHasp_eng (d : Dev) (k : Nat) (f : Hasp → Hasp) : (d.onHasp k f).eng = d.eng := rfl
@[simp] theorem Dev.onHasp_q (d : Dev) (k : Nat) (f : Hasp → Hasp) : (d.onHasp k f).q = d.q := rfl
@[simp] theorem Dev.onHasp_net (d : Dev) (k : Nat) (f : Hasp → Hasp) : (d.onHasp k f).net = d.net := rfl
@[simp] theorem Dev.onHasp_ropes (d : Dev) (k : Nat) (f : Hasp → Hasp) : (d.onHasp k f).ropes = d.ropes := rfl
@[simp] theorem Dev.onHasp_host (d : Dev) (k : Nat) (f : Hasp → Hasp) : (d.onHasp k f).host = d.host := rfl
@[simp] theorem Dev.onHasp_ten (d : Dev) (k : Nat) (f : Hasp → Hasp) : (d.onHasp k f).ten = d.ten := rfl
@[simp] theorem Dev.onHasp_ciph (d : Dev) (k : Nat) (f : Hasp → Hasp) : (d.onHasp k f).ciph = d.ciph := rfl
@[simp] theorem Dev.onHasp_pwr (d : Dev) (k : Nat) (f : Hasp → Hasp) : (d.onHasp k f).pwr = d.pwr := rfl
@[simp] theorem Dev.onHasp_svc (d : Dev) (k : Nat) (f : Hasp → Hasp) : (d.onHasp k f).svc = d.svc := rfl
@[simp] theorem Dev.onHasp_out (d : Dev) (k : Nat) (f : Hasp → Hasp) : (d.onHasp k f).out = d.out := rfl
@[simp] theorem Dev.onHasp_free (d : Dev) (k : Nat) (f : Hasp → Hasp) : (d.onHasp k f).free = d.free := rfl
-- onMbx
@[simp] theorem Dev.onMbx_fab (d : Dev) (k : Nat) (f : Mailbox → Mailbox) : (d.onMbx k f).fab = d.fab := rfl
@[simp] theorem Dev.onMbx_mem (d : Dev) (k : Nat) (f : Mailbox → Mailbox) : (d.onMbx k f).mem = d.mem := rfl
@[simp] theorem Dev.onMbx_xlt (d : Dev) (k : Nat) (f : Mailbox → Mailbox) : (d.onMbx k f).xlt = d.xlt := rfl
@[simp] theorem Dev.onMbx_eng (d : Dev) (k : Nat) (f : Mailbox → Mailbox) : (d.onMbx k f).eng = d.eng := rfl
@[simp] theorem Dev.onMbx_q (d : Dev) (k : Nat) (f : Mailbox → Mailbox) : (d.onMbx k f).q = d.q := rfl
@[simp] theorem Dev.onMbx_net (d : Dev) (k : Nat) (f : Mailbox → Mailbox) : (d.onMbx k f).net = d.net := rfl
@[simp] theorem Dev.onMbx_ropes (d : Dev) (k : Nat) (f : Mailbox → Mailbox) : (d.onMbx k f).ropes = d.ropes := rfl
@[simp] theorem Dev.onMbx_host (d : Dev) (k : Nat) (f : Mailbox → Mailbox) : (d.onMbx k f).host = d.host := rfl
@[simp] theorem Dev.onMbx_ten (d : Dev) (k : Nat) (f : Mailbox → Mailbox) : (d.onMbx k f).ten = d.ten := rfl
@[simp] theorem Dev.onMbx_ciph (d : Dev) (k : Nat) (f : Mailbox → Mailbox) : (d.onMbx k f).ciph = d.ciph := rfl
@[simp] theorem Dev.onMbx_pwr (d : Dev) (k : Nat) (f : Mailbox → Mailbox) : (d.onMbx k f).pwr = d.pwr := rfl
@[simp] theorem Dev.onMbx_svc (d : Dev) (k : Nat) (f : Mailbox → Mailbox) : (d.onMbx k f).svc = d.svc := rfl
@[simp] theorem Dev.onMbx_out (d : Dev) (k : Nat) (f : Mailbox → Mailbox) : (d.onMbx k f).out = d.out := rfl
@[simp] theorem Dev.onMbx_free (d : Dev) (k : Nat) (f : Mailbox → Mailbox) : (d.onMbx k f).free = d.free := rfl
-- onRing, onSide
@[simp] theorem Dev.onRing_fab (d : Dev) (p : Side) (k : Nat) (f : CmdRing → CmdRing) : (d.onRing p k f).fab = d.fab := rfl
@[simp] theorem Dev.onSide_fab (d : Dev) (f : Sideband → Sideband) : (d.onSide f).fab = d.fab := rfl
@[simp] theorem Dev.onRing_mem (d : Dev) (p : Side) (k : Nat) (f : CmdRing → CmdRing) : (d.onRing p k f).mem = d.mem := rfl
@[simp] theorem Dev.onSide_mem (d : Dev) (f : Sideband → Sideband) : (d.onSide f).mem = d.mem := rfl
@[simp] theorem Dev.onRing_xlt (d : Dev) (p : Side) (k : Nat) (f : CmdRing → CmdRing) : (d.onRing p k f).xlt = d.xlt := rfl
@[simp] theorem Dev.onSide_xlt (d : Dev) (f : Sideband → Sideband) : (d.onSide f).xlt = d.xlt := rfl
@[simp] theorem Dev.onRing_eng (d : Dev) (p : Side) (k : Nat) (f : CmdRing → CmdRing) : (d.onRing p k f).eng = d.eng := rfl
@[simp] theorem Dev.onSide_eng (d : Dev) (f : Sideband → Sideband) : (d.onSide f).eng = d.eng := rfl
@[simp] theorem Dev.onRing_q (d : Dev) (p : Side) (k : Nat) (f : CmdRing → CmdRing) : (d.onRing p k f).q = d.q := rfl
@[simp] theorem Dev.onSide_q (d : Dev) (f : Sideband → Sideband) : (d.onSide f).q = d.q := rfl
@[simp] theorem Dev.onRing_net (d : Dev) (p : Side) (k : Nat) (f : CmdRing → CmdRing) : (d.onRing p k f).net = d.net := rfl
@[simp] theorem Dev.onSide_net (d : Dev) (f : Sideband → Sideband) : (d.onSide f).net = d.net := rfl
@[simp] theorem Dev.onRing_ropes (d : Dev) (p : Side) (k : Nat) (f : CmdRing → CmdRing) : (d.onRing p k f).ropes = d.ropes := rfl
@[simp] theorem Dev.onSide_ropes (d : Dev) (f : Sideband → Sideband) : (d.onSide f).ropes = d.ropes := rfl
@[simp] theorem Dev.onRing_host (d : Dev) (p : Side) (k : Nat) (f : CmdRing → CmdRing) : (d.onRing p k f).host = d.host := rfl
@[simp] theorem Dev.onSide_host (d : Dev) (f : Sideband → Sideband) : (d.onSide f).host = d.host := rfl
@[simp] theorem Dev.onRing_ten (d : Dev) (p : Side) (k : Nat) (f : CmdRing → CmdRing) : (d.onRing p k f).ten = d.ten := rfl
@[simp] theorem Dev.onSide_ten (d : Dev) (f : Sideband → Sideband) : (d.onSide f).ten = d.ten := rfl
@[simp] theorem Dev.onRing_ciph (d : Dev) (p : Side) (k : Nat) (f : CmdRing → CmdRing) : (d.onRing p k f).ciph = d.ciph := rfl
@[simp] theorem Dev.onSide_ciph (d : Dev) (f : Sideband → Sideband) : (d.onSide f).ciph = d.ciph := rfl
@[simp] theorem Dev.onRing_pwr (d : Dev) (p : Side) (k : Nat) (f : CmdRing → CmdRing) : (d.onRing p k f).pwr = d.pwr := rfl
@[simp] theorem Dev.onSide_pwr (d : Dev) (f : Sideband → Sideband) : (d.onSide f).pwr = d.pwr := rfl
@[simp] theorem Dev.onRing_svc (d : Dev) (p : Side) (k : Nat) (f : CmdRing → CmdRing) : (d.onRing p k f).svc = d.svc := rfl
@[simp] theorem Dev.onSide_svc (d : Dev) (f : Sideband → Sideband) : (d.onSide f).svc = d.svc := rfl
@[simp] theorem Dev.onRing_out (d : Dev) (p : Side) (k : Nat) (f : CmdRing → CmdRing) : (d.onRing p k f).out = d.out := rfl
@[simp] theorem Dev.onSide_out (d : Dev) (f : Sideband → Sideband) : (d.onSide f).out = d.out := rfl
@[simp] theorem Dev.onRing_free (d : Dev) (p : Side) (k : Nat) (f : CmdRing → CmdRing) : (d.onRing p k f).free = d.free := rfl
@[simp] theorem Dev.onSide_free (d : Dev) (f : Sideband → Sideband) : (d.onSide f).free = d.free := rfl
-- emit, takeFree
@[simp] theorem emit_fab (d : Dev) (x : Output) : (emit x d).fab = d.fab := rfl
@[simp] theorem takeFree_fab (d : Dev) : (takeFree d).2.fab = d.fab := rfl
@[simp] theorem emit_mem (d : Dev) (x : Output) : (emit x d).mem = d.mem := rfl
@[simp] theorem takeFree_mem (d : Dev) : (takeFree d).2.mem = d.mem := rfl
@[simp] theorem emit_xlt (d : Dev) (x : Output) : (emit x d).xlt = d.xlt := rfl
@[simp] theorem takeFree_xlt (d : Dev) : (takeFree d).2.xlt = d.xlt := rfl
@[simp] theorem emit_eng (d : Dev) (x : Output) : (emit x d).eng = d.eng := rfl
@[simp] theorem takeFree_eng (d : Dev) : (takeFree d).2.eng = d.eng := rfl
@[simp] theorem emit_q (d : Dev) (x : Output) : (emit x d).q = d.q := rfl
@[simp] theorem takeFree_q (d : Dev) : (takeFree d).2.q = d.q := rfl
@[simp] theorem emit_net (d : Dev) (x : Output) : (emit x d).net = d.net := rfl
@[simp] theorem takeFree_net (d : Dev) : (takeFree d).2.net = d.net := rfl
@[simp] theorem emit_ropes (d : Dev) (x : Output) : (emit x d).ropes = d.ropes := rfl
@[simp] theorem takeFree_ropes (d : Dev) : (takeFree d).2.ropes = d.ropes := rfl
@[simp] theorem emit_host (d : Dev) (x : Output) : (emit x d).host = d.host := rfl
@[simp] theorem takeFree_host (d : Dev) : (takeFree d).2.host = d.host := rfl
@[simp] theorem emit_ctl (d : Dev) (x : Output) : (emit x d).ctl = d.ctl := rfl
@[simp] theorem takeFree_ctl (d : Dev) : (takeFree d).2.ctl = d.ctl := rfl
@[simp] theorem emit_ten (d : Dev) (x : Output) : (emit x d).ten = d.ten := rfl
@[simp] theorem takeFree_ten (d : Dev) : (takeFree d).2.ten = d.ten := rfl
@[simp] theorem emit_ciph (d : Dev) (x : Output) : (emit x d).ciph = d.ciph := rfl
@[simp] theorem takeFree_ciph (d : Dev) : (takeFree d).2.ciph = d.ciph := rfl
@[simp] theorem emit_pwr (d : Dev) (x : Output) : (emit x d).pwr = d.pwr := rfl
@[simp] theorem takeFree_pwr (d : Dev) : (takeFree d).2.pwr = d.pwr := rfl
@[simp] theorem emit_svc (d : Dev) (x : Output) : (emit x d).svc = d.svc := rfl
@[simp] theorem takeFree_svc (d : Dev) : (takeFree d).2.svc = d.svc := rfl
@[simp] theorem takeFree_out (d : Dev) : (takeFree d).2.out = d.out := rfl
@[simp] theorem emit_free (d : Dev) (x : Output) : (emit x d).free = d.free := rfl
@[simp] theorem emit_out (d : Dev) (x : Output) : (emit x d).out = d.out ++ [x] := rfl
@[simp] theorem takeFree_free (d : Dev) : (takeFree d).2.free = d.free + 1 := rfl

end Sys2Proof.Machine
end

