-- ==== Sys2Proof/Laws/Ops.lean ====
section
/-! SUPPORT. What the shared operations leave alone, and the one step of the queue. -/

namespace Sys2Proof.Machine

-- a count is of the service state, of a network port or of a host port
@[simp] theorem count_fab (src inst : Nat) (t : Option Nat) (n : Nat) (d : Dev) : (count src inst t n d).fab = d.fab := by unfold count; split <;> [rfl; (split <;> rfl)]
@[simp] theorem count_mem (src inst : Nat) (t : Option Nat) (n : Nat) (d : Dev) : (count src inst t n d).mem = d.mem := by unfold count; split <;> [rfl; (split <;> rfl)]
@[simp] theorem count_xlt (src inst : Nat) (t : Option Nat) (n : Nat) (d : Dev) : (count src inst t n d).xlt = d.xlt := by unfold count; split <;> [rfl; (split <;> rfl)]
@[simp] theorem count_eng (src inst : Nat) (t : Option Nat) (n : Nat) (d : Dev) : (count src inst t n d).eng = d.eng := by unfold count; split <;> [rfl; (split <;> rfl)]
@[simp] theorem count_q (src inst : Nat) (t : Option Nat) (n : Nat) (d : Dev) : (count src inst t n d).q = d.q := by unfold count; split <;> [rfl; (split <;> rfl)]
@[simp] theorem count_ropes (src inst : Nat) (t : Option Nat) (n : Nat) (d : Dev) : (count src inst t n d).ropes = d.ropes := by unfold count; split <;> [rfl; (split <;> rfl)]
@[simp] theorem count_ctl (src inst : Nat) (t : Option Nat) (n : Nat) (d : Dev) : (count src inst t n d).ctl = d.ctl := by unfold count; split <;> [rfl; (split <;> rfl)]
@[simp] theorem count_ten (src inst : Nat) (t : Option Nat) (n : Nat) (d : Dev) : (count src inst t n d).ten = d.ten := by unfold count; split <;> [rfl; (split <;> rfl)]
@[simp] theorem count_ciph (src inst : Nat) (t : Option Nat) (n : Nat) (d : Dev) : (count src inst t n d).ciph = d.ciph := by unfold count; split <;> [rfl; (split <;> rfl)]
@[simp] theorem count_pwr (src inst : Nat) (t : Option Nat) (n : Nat) (d : Dev) : (count src inst t n d).pwr = d.pwr := by unfold count; split <;> [rfl; (split <;> rfl)]
@[simp] theorem count_out (src inst : Nat) (t : Option Nat) (n : Nat) (d : Dev) : (count src inst t n d).out = d.out := by unfold count; split <;> [rfl; (split <;> rfl)]
@[simp] theorem count_free (src inst : Nat) (t : Option Nat) (n : Nat) (d : Dev) : (count src inst t n d).free = d.free := by unfold count; split <;> [rfl; (split <;> rfl)]
-- a vector is sent or becomes pending
@[simp] theorem msix_fab (p : Side) (v : Nat) (d : Dev) : (msix p v d).fab = d.fab := by unfold msix; dsimp only; split <;> rfl
@[simp] theorem msix_mem (p : Side) (v : Nat) (d : Dev) : (msix p v d).mem = d.mem := by unfold msix; dsimp only; split <;> rfl
@[simp] theorem msix_xlt (p : Side) (v : Nat) (d : Dev) : (msix p v d).xlt = d.xlt := by unfold msix; dsimp only; split <;> rfl
@[simp] theorem msix_eng (p : Side) (v : Nat) (d : Dev) : (msix p v d).eng = d.eng := by unfold msix; dsimp only; split <;> rfl
@[simp] theorem msix_q (p : Side) (v : Nat) (d : Dev) : (msix p v d).q = d.q := by unfold msix; dsimp only; split <;> rfl
@[simp] theorem msix_net (p : Side) (v : Nat) (d : Dev) : (msix p v d).net = d.net := by unfold msix; dsimp only; split <;> rfl
@[simp] theorem msix_ropes (p : Side) (v : Nat) (d : Dev) : (msix p v d).ropes = d.ropes := by unfold msix; dsimp only; split <;> rfl
@[simp] theorem msix_ctl (p : Side) (v : Nat) (d : Dev) : (msix p v d).ctl = d.ctl := by unfold msix; dsimp only; split <;> rfl
@[simp] theorem msix_ten (p : Side) (v : Nat) (d : Dev) : (msix p v d).ten = d.ten := by unfold msix; dsimp only; split <;> rfl
@[simp] theorem msix_ciph (p : Side) (v : Nat) (d : Dev) : (msix p v d).ciph = d.ciph := by unfold msix; dsimp only; split <;> rfl
@[simp] theorem msix_pwr (p : Side) (v : Nat) (d : Dev) : (msix p v d).pwr = d.pwr := by unfold msix; dsimp only; split <;> rfl
@[simp] theorem msix_svc (p : Side) (v : Nat) (d : Dev) : (msix p v d).svc = d.svc := by unfold msix; dsimp only; split <;> rfl
@[simp] theorem msix_free (p : Side) (v : Nat) (d : Dev) : (msix p v d).free = d.free := by unfold msix; dsimp only; split <;> rfl
-- ALERT_N
@[simp] theorem raiseAlert_fab (n : Nat) (d : Dev) : (raiseAlert n d).fab = d.fab := rfl
@[simp] theorem raiseAlert_mem (n : Nat) (d : Dev) : (raiseAlert n d).mem = d.mem := rfl
@[simp] theorem raiseAlert_xlt (n : Nat) (d : Dev) : (raiseAlert n d).xlt = d.xlt := rfl
@[simp] theorem raiseAlert_eng (n : Nat) (d : Dev) : (raiseAlert n d).eng = d.eng := rfl
@[simp] theorem raiseAlert_q (n : Nat) (d : Dev) : (raiseAlert n d).q = d.q := rfl
@[simp] theorem raiseAlert_net (n : Nat) (d : Dev) : (raiseAlert n d).net = d.net := rfl
@[simp] theorem raiseAlert_ropes (n : Nat) (d : Dev) : (raiseAlert n d).ropes = d.ropes := rfl
@[simp] theorem raiseAlert_host (n : Nat) (d : Dev) : (raiseAlert n d).host = d.host := rfl
@[simp] theorem raiseAlert_ten (n : Nat) (d : Dev) : (raiseAlert n d).ten = d.ten := rfl
@[simp] theorem raiseAlert_ciph (n : Nat) (d : Dev) : (raiseAlert n d).ciph = d.ciph := rfl
@[simp] theorem raiseAlert_pwr (n : Nat) (d : Dev) : (raiseAlert n d).pwr = d.pwr := rfl
@[simp] theorem raiseAlert_svc (n : Nat) (d : Dev) : (raiseAlert n d).svc = d.svc := rfl
@[simp] theorem raiseAlert_out (n : Nat) (d : Dev) : (raiseAlert n d).out = d.out := rfl
@[simp] theorem raiseAlert_free (n : Nat) (d : Dev) : (raiseAlert n d).free = d.free := rfl
-- ALERT_N
@[simp] theorem dropAlert_fab (n : Nat) (d : Dev) : (dropAlert n d).fab = d.fab := rfl
@[simp] theorem dropAlert_mem (n : Nat) (d : Dev) : (dropAlert n d).mem = d.mem := rfl
@[simp] theorem dropAlert_xlt (n : Nat) (d : Dev) : (dropAlert n d).xlt = d.xlt := rfl
@[simp] theorem dropAlert_eng (n : Nat) (d : Dev) : (dropAlert n d).eng = d.eng := rfl
@[simp] theorem dropAlert_q (n : Nat) (d : Dev) : (dropAlert n d).q = d.q := rfl
@[simp] theorem dropAlert_net (n : Nat) (d : Dev) : (dropAlert n d).net = d.net := rfl
@[simp] theorem dropAlert_ropes (n : Nat) (d : Dev) : (dropAlert n d).ropes = d.ropes := rfl
@[simp] theorem dropAlert_host (n : Nat) (d : Dev) : (dropAlert n d).host = d.host := rfl
@[simp] theorem dropAlert_ten (n : Nat) (d : Dev) : (dropAlert n d).ten = d.ten := rfl
@[simp] theorem dropAlert_ciph (n : Nat) (d : Dev) : (dropAlert n d).ciph = d.ciph := rfl
@[simp] theorem dropAlert_pwr (n : Nat) (d : Dev) : (dropAlert n d).pwr = d.pwr := rfl
@[simp] theorem dropAlert_svc (n : Nat) (d : Dev) : (dropAlert n d).svc = d.svc := rfl
@[simp] theorem dropAlert_out (n : Nat) (d : Dev) : (dropAlert n d).out = d.out := rfl
@[simp] theorem dropAlert_free (n : Nat) (d : Dev) : (dropAlert n d).free = d.free := rfl
-- In-Band Interrupt
@[simp] theorem raiseIbi_fab (v : Nat) (d : Dev) : (raiseIbi v d).fab = d.fab := rfl
@[simp] theorem raiseIbi_mem (v : Nat) (d : Dev) : (raiseIbi v d).mem = d.mem := rfl
@[simp] theorem raiseIbi_xlt (v : Nat) (d : Dev) : (raiseIbi v d).xlt = d.xlt := rfl
@[simp] theorem raiseIbi_eng (v : Nat) (d : Dev) : (raiseIbi v d).eng = d.eng := rfl
@[simp] theorem raiseIbi_q (v : Nat) (d : Dev) : (raiseIbi v d).q = d.q := rfl
@[simp] theorem raiseIbi_net (v : Nat) (d : Dev) : (raiseIbi v d).net = d.net := rfl
@[simp] theorem raiseIbi_ropes (v : Nat) (d : Dev) : (raiseIbi v d).ropes = d.ropes := rfl
@[simp] theorem raiseIbi_host (v : Nat) (d : Dev) : (raiseIbi v d).host = d.host := rfl
@[simp] theorem raiseIbi_ten (v : Nat) (d : Dev) : (raiseIbi v d).ten = d.ten := rfl
@[simp] theorem raiseIbi_ciph (v : Nat) (d : Dev) : (raiseIbi v d).ciph = d.ciph := rfl
@[simp] theorem raiseIbi_pwr (v : Nat) (d : Dev) : (raiseIbi v d).pwr = d.pwr := rfl
@[simp] theorem raiseIbi_svc (v : Nat) (d : Dev) : (raiseIbi v d).svc = d.svc := rfl
@[simp] theorem raiseIbi_out (v : Nat) (d : Dev) : (raiseIbi v d).out = d.out := rfl
@[simp] theorem raiseIbi_free (v : Nat) (d : Dev) : (raiseIbi v d).free = d.free := rfl
-- both ports and the sideband
@[simp] theorem signalBoth_fab (v : Nat) (d : Dev) : (signalBoth v d).fab = d.fab := by simp [signalBoth]
@[simp] theorem signalBoth_mem (v : Nat) (d : Dev) : (signalBoth v d).mem = d.mem := by simp [signalBoth]
@[simp] theorem signalBoth_xlt (v : Nat) (d : Dev) : (signalBoth v d).xlt = d.xlt := by simp [signalBoth]
@[simp] theorem signalBoth_eng (v : Nat) (d : Dev) : (signalBoth v d).eng = d.eng := by simp [signalBoth]
@[simp] theorem signalBoth_q (v : Nat) (d : Dev) : (signalBoth v d).q = d.q := by simp [signalBoth]
@[simp] theorem signalBoth_net (v : Nat) (d : Dev) : (signalBoth v d).net = d.net := by simp [signalBoth]
@[simp] theorem signalBoth_ropes (v : Nat) (d : Dev) : (signalBoth v d).ropes = d.ropes := by simp [signalBoth]
@[simp] theorem signalBoth_ten (v : Nat) (d : Dev) : (signalBoth v d).ten = d.ten := by simp [signalBoth]
@[simp] theorem signalBoth_ciph (v : Nat) (d : Dev) : (signalBoth v d).ciph = d.ciph := by simp [signalBoth]
@[simp] theorem signalBoth_pwr (v : Nat) (d : Dev) : (signalBoth v d).pwr = d.pwr := by simp [signalBoth]
@[simp] theorem signalBoth_svc (v : Nat) (d : Dev) : (signalBoth v d).svc = d.svc := by simp [signalBoth]
@[simp] theorem signalBoth_free (v : Nat) (d : Dev) : (signalBoth v d).free = d.free := by simp [signalBoth]
theorem raiseIbi_ctl (v : Nat) (d : Dev) : (raiseIbi v d).ctl.dies = d.ctl.dies ∧ (raiseIbi v d).ctl.hasps = d.ctl.hasps ∧ (raiseIbi v d).ctl.rings = d.ctl.rings ∧ (raiseIbi v d).ctl.mbx = d.ctl.mbx := ⟨rfl, rfl, rfl, rfl⟩
-- a posted write leaves or waits
@[simp] theorem hostPut_fab (r : Bool) (p : Side) (x : Option Nat) (a : Nat) (b : Bytes) (d : Dev) : (hostPut r p x a b d).fab = d.fab := by simp only [hostPut, sendWrite]; split <;> simp
@[simp] theorem hostPut_mem (r : Bool) (p : Side) (x : Option Nat) (a : Nat) (b : Bytes) (d : Dev) : (hostPut r p x a b d).mem = d.mem := by simp only [hostPut, sendWrite]; split <;> simp
@[simp] theorem hostPut_xlt (r : Bool) (p : Side) (x : Option Nat) (a : Nat) (b : Bytes) (d : Dev) : (hostPut r p x a b d).xlt = d.xlt := by simp only [hostPut, sendWrite]; split <;> simp
@[simp] theorem hostPut_eng (r : Bool) (p : Side) (x : Option Nat) (a : Nat) (b : Bytes) (d : Dev) : (hostPut r p x a b d).eng = d.eng := by simp only [hostPut, sendWrite]; split <;> simp
@[simp] theorem hostPut_q (r : Bool) (p : Side) (x : Option Nat) (a : Nat) (b : Bytes) (d : Dev) : (hostPut r p x a b d).q = d.q := by simp only [hostPut, sendWrite]; split <;> simp
@[simp] theorem hostPut_ropes (r : Bool) (p : Side) (x : Option Nat) (a : Nat) (b : Bytes) (d : Dev) : (hostPut r p x a b d).ropes = d.ropes := by simp only [hostPut, sendWrite]; split <;> simp
@[simp] theorem hostPut_ctl (r : Bool) (p : Side) (x : Option Nat) (a : Nat) (b : Bytes) (d : Dev) : (hostPut r p x a b d).ctl = d.ctl := by simp only [hostPut, sendWrite]; split <;> simp
@[simp] theorem hostPut_ten (r : Bool) (p : Side) (x : Option Nat) (a : Nat) (b : Bytes) (d : Dev) : (hostPut r p x a b d).ten = d.ten := by simp only [hostPut, sendWrite]; split <;> simp
@[simp] theorem hostPut_ciph (r : Bool) (p : Side) (x : Option Nat) (a : Nat) (b : Bytes) (d : Dev) : (hostPut r p x a b d).ciph = d.ciph := by simp only [hostPut, sendWrite]; split <;> simp
@[simp] theorem hostPut_pwr (r : Bool) (p : Side) (x : Option Nat) (a : Nat) (b : Bytes) (d : Dev) : (hostPut r p x a b d).pwr = d.pwr := by simp only [hostPut, sendWrite]; split <;> simp
@[simp] theorem hostPut_free (r : Bool) (p : Side) (x : Option Nat) (a : Nat) (b : Bytes) (d : Dev) : (hostPut r p x a b d).free = d.free := by simp only [hostPut, sendWrite]; split <;> simp
@[simp] theorem hostWrite_fab (p : Side) (x : Option Nat) (a : Nat) (b : Bytes) (d : Dev) : (hostWrite p x a b d).fab = d.fab := by simp [hostWrite]
@[simp] theorem hostWrite_mem (p : Side) (x : Option Nat) (a : Nat) (b : Bytes) (d : Dev) : (hostWrite p x a b d).mem = d.mem := by simp [hostWrite]
@[simp] theorem hostWrite_xlt (p : Side) (x : Option Nat) (a : Nat) (b : Bytes) (d : Dev) : (hostWrite p x a b d).xlt = d.xlt := by simp [hostWrite]
@[simp] theorem hostWrite_eng (p : Side) (x : Option Nat) (a : Nat) (b : Bytes) (d : Dev) : (hostWrite p x a b d).eng = d.eng := by simp [hostWrite]
@[simp] theorem hostWrite_q (p : Side) (x : Option Nat) (a : Nat) (b : Bytes) (d : Dev) : (hostWrite p x a b d).q = d.q := by simp [hostWrite]
@[simp] theorem hostWrite_ropes (p : Side) (x : Option Nat) (a : Nat) (b : Bytes) (d : Dev) : (hostWrite p x a b d).ropes = d.ropes := by simp [hostWrite]
@[simp] theorem hostWrite_ctl (p : Side) (x : Option Nat) (a : Nat) (b : Bytes) (d : Dev) : (hostWrite p x a b d).ctl = d.ctl := by simp [hostWrite]
@[simp] theorem hostWrite_ten (p : Side) (x : Option Nat) (a : Nat) (b : Bytes) (d : Dev) : (hostWrite p x a b d).ten = d.ten := by simp [hostWrite]
@[simp] theorem hostWrite_ciph (p : Side) (x : Option Nat) (a : Nat) (b : Bytes) (d : Dev) : (hostWrite p x a b d).ciph = d.ciph := by simp [hostWrite]
@[simp] theorem hostWrite_pwr (p : Side) (x : Option Nat) (a : Nat) (b : Bytes) (d : Dev) : (hostWrite p x a b d).pwr = d.pwr := by simp [hostWrite]
@[simp] theorem hostWrite_free (p : Side) (x : Option Nat) (a : Nat) (b : Bytes) (d : Dev) : (hostWrite p x a b d).free = d.free := by simp [hostWrite]
-- a log entry and its signals
@[simp] theorem logIt_fab (code kind unit : Nat) (args : List Nat) (t : Nat) (d : Dev) : (logIt code kind unit args t d).fab = d.fab := by unfold logIt; dsimp only; (repeat' split) <;> simp
@[simp] theorem logIt_mem (code kind unit : Nat) (args : List Nat) (t : Nat) (d : Dev) : (logIt code kind unit args t d).mem = d.mem := by unfold logIt; dsimp only; (repeat' split) <;> simp
@[simp] theorem logIt_xlt (code kind unit : Nat) (args : List Nat) (t : Nat) (d : Dev) : (logIt code kind unit args t d).xlt = d.xlt := by unfold logIt; dsimp only; (repeat' split) <;> simp
@[simp] theorem logIt_eng (code kind unit : Nat) (args : List Nat) (t : Nat) (d : Dev) : (logIt code kind unit args t d).eng = d.eng := by unfold logIt; dsimp only; (repeat' split) <;> simp
@[simp] theorem logIt_q (code kind unit : Nat) (args : List Nat) (t : Nat) (d : Dev) : (logIt code kind unit args t d).q = d.q := by unfold logIt; dsimp only; (repeat' split) <;> simp
@[simp] theorem logIt_ropes (code kind unit : Nat) (args : List Nat) (t : Nat) (d : Dev) : (logIt code kind unit args t d).ropes = d.ropes := by unfold logIt; dsimp only; (repeat' split) <;> simp
@[simp] theorem logIt_ten (code kind unit : Nat) (args : List Nat) (t : Nat) (d : Dev) : (logIt code kind unit args t d).ten = d.ten := by unfold logIt; dsimp only; (repeat' split) <;> simp
@[simp] theorem logIt_ciph (code kind unit : Nat) (args : List Nat) (t : Nat) (d : Dev) : (logIt code kind unit args t d).ciph = d.ciph := by unfold logIt; dsimp only; (repeat' split) <;> simp
@[simp] theorem logIt_pwr (code kind unit : Nat) (args : List Nat) (t : Nat) (d : Dev) : (logIt code kind unit args t d).pwr = d.pwr := by unfold logIt; dsimp only; (repeat' split) <;> simp
@[simp] theorem logIt_free (code kind unit : Nat) (args : List Nat) (t : Nat) (d : Dev) : (logIt code kind unit args t d).free = d.free := by unfold logIt; dsimp only; (repeat' split) <;> simp
-- the first of a kind per minute
@[simp] theorem logFirst60_fab (key obj code kind unit : Nat) (args : List Nat) (d : Dev) : (logFirst60 key obj code kind unit args d).fab = d.fab := by unfold logFirst60; dsimp only; split <;> simp
@[simp] theorem logFirst60_mem (key obj code kind unit : Nat) (args : List Nat) (d : Dev) : (logFirst60 key obj code kind unit args d).mem = d.mem := by unfold logFirst60; dsimp only; split <;> simp
@[simp] theorem logFirst60_xlt (key obj code kind unit : Nat) (args : List Nat) (d : Dev) : (logFirst60 key obj code kind unit args d).xlt = d.xlt := by unfold logFirst60; dsimp only; split <;> simp
@[simp] theorem logFirst60_eng (key obj code kind unit : Nat) (args : List Nat) (d : Dev) : (logFirst60 key obj code kind unit args d).eng = d.eng := by unfold logFirst60; dsimp only; split <;> simp
@[simp] theorem logFirst60_q (key obj code kind unit : Nat) (args : List Nat) (d : Dev) : (logFirst60 key obj code kind unit args d).q = d.q := by unfold logFirst60; dsimp only; split <;> simp
@[simp] theorem logFirst60_ropes (key obj code kind unit : Nat) (args : List Nat) (d : Dev) : (logFirst60 key obj code kind unit args d).ropes = d.ropes := by unfold logFirst60; dsimp only; split <;> simp
@[simp] theorem logFirst60_ten (key obj code kind unit : Nat) (args : List Nat) (d : Dev) : (logFirst60 key obj code kind unit args d).ten = d.ten := by unfold logFirst60; dsimp only; split <;> simp
@[simp] theorem logFirst60_ciph (key obj code kind unit : Nat) (args : List Nat) (d : Dev) : (logFirst60 key obj code kind unit args d).ciph = d.ciph := by unfold logFirst60; dsimp only; split <;> simp
@[simp] theorem logFirst60_pwr (key obj code kind unit : Nat) (args : List Nat) (d : Dev) : (logFirst60 key obj code kind unit args d).pwr = d.pwr := by unfold logFirst60; dsimp only; split <;> simp
@[simp] theorem logFirst60_free (key obj code kind unit : Nat) (args : List Nat) (d : Dev) : (logFirst60 key obj code kind unit args d).free = d.free := by unfold logFirst60; dsimp only; split <;> simp
-- a count of a tenant's page
@[simp] theorem tenCount_fab (t k n : Nat) (d : Dev) : (tenCount t k n d).fab = d.fab := rfl
@[simp] theorem tenCount_mem (t k n : Nat) (d : Dev) : (tenCount t k n d).mem = d.mem := rfl
@[simp] theorem tenCount_xlt (t k n : Nat) (d : Dev) : (tenCount t k n d).xlt = d.xlt := rfl
@[simp] theorem tenCount_eng (t k n : Nat) (d : Dev) : (tenCount t k n d).eng = d.eng := rfl
@[simp] theorem tenCount_q (t k n : Nat) (d : Dev) : (tenCount t k n d).q = d.q := rfl
@[simp] theorem tenCount_net (t k n : Nat) (d : Dev) : (tenCount t k n d).net = d.net := rfl
@[simp] theorem tenCount_ropes (t k n : Nat) (d : Dev) : (tenCount t k n d).ropes = d.ropes := rfl
@[simp] theorem tenCount_host (t k n : Nat) (d : Dev) : (tenCount t k n d).host = d.host := rfl
@[simp] theorem tenCount_ctl (t k n : Nat) (d : Dev) : (tenCount t k n d).ctl = d.ctl := rfl
@[simp] theorem tenCount_ciph (t k n : Nat) (d : Dev) : (tenCount t k n d).ciph = d.ciph := rfl
@[simp] theorem tenCount_pwr (t k n : Nat) (d : Dev) : (tenCount t k n d).pwr = d.pwr := rfl
@[simp] theorem tenCount_svc (t k n : Nat) (d : Dev) : (tenCount t k n d).svc = d.svc := rfl
@[simp] theorem tenCount_out (t k n : Nat) (d : Dev) : (tenCount t k n d).out = d.out := rfl
@[simp] theorem tenCount_free (t k n : Nat) (d : Dev) : (tenCount t k n d).free = d.free := rfl
-- an event entry
@[simp] theorem eventWrite_fab (n : Nat) (e : Event) (d : Dev) : (eventWrite n e d).fab = d.fab := by unfold eventWrite; split <;> [rfl; (dsimp only; split <;> simp)]
@[simp] theorem eventWrite_mem (n : Nat) (e : Event) (d : Dev) : (eventWrite n e d).mem = d.mem := by unfold eventWrite; split <;> [rfl; (dsimp only; split <;> simp)]
@[simp] theorem eventWrite_xlt (n : Nat) (e : Event) (d : Dev) : (eventWrite n e d).xlt = d.xlt := by unfold eventWrite; split <;> [rfl; (dsimp only; split <;> simp)]
@[simp] theorem eventWrite_eng (n : Nat) (e : Event) (d : Dev) : (eventWrite n e d).eng = d.eng := by unfold eventWrite; split <;> [rfl; (dsimp only; split <;> simp)]
@[simp] theorem eventWrite_q (n : Nat) (e : Event) (d : Dev) : (eventWrite n e d).q = d.q := by unfold eventWrite; split <;> [rfl; (dsimp only; split <;> simp)]
@[simp] theorem eventWrite_ropes (n : Nat) (e : Event) (d : Dev) : (eventWrite n e d).ropes = d.ropes := by unfold eventWrite; split <;> [rfl; (dsimp only; split <;> simp)]
@[simp] theorem eventWrite_ctl (n : Nat) (e : Event) (d : Dev) : (eventWrite n e d).ctl = d.ctl := by unfold eventWrite; split <;> [rfl; (dsimp only; split <;> simp)]
@[simp] theorem eventWrite_ciph (n : Nat) (e : Event) (d : Dev) : (eventWrite n e d).ciph = d.ciph := by unfold eventWrite; split <;> [rfl; (dsimp only; split <;> simp)]
@[simp] theorem eventWrite_pwr (n : Nat) (e : Event) (d : Dev) : (eventWrite n e d).pwr = d.pwr := by unfold eventWrite; split <;> [rfl; (dsimp only; split <;> simp)]
@[simp] theorem eventWrite_free (n : Nat) (e : Event) (d : Dev) : (eventWrite n e d).free = d.free := by unfold eventWrite; split <;> [rfl; (dsimp only; split <;> simp)]
-- an event, written, held or dropped
-- what waits at a port that cannot issue
@[simp] theorem heldNote_fab (p : Side) (w : HeldWork) (d : Dev) : (heldNote p w d).fab = d.fab := by unfold heldNote; split <;> rfl
@[simp] theorem heldNote_mem (p : Side) (w : HeldWork) (d : Dev) : (heldNote p w d).mem = d.mem := by unfold heldNote; split <;> rfl
@[simp] theorem heldNote_xlt (p : Side) (w : HeldWork) (d : Dev) : (heldNote p w d).xlt = d.xlt := by unfold heldNote; split <;> rfl
@[simp] theorem heldNote_eng (p : Side) (w : HeldWork) (d : Dev) : (heldNote p w d).eng = d.eng := by unfold heldNote; split <;> rfl
@[simp] theorem heldNote_q (p : Side) (w : HeldWork) (d : Dev) : (heldNote p w d).q = d.q := by unfold heldNote; split <;> rfl
@[simp] theorem heldNote_net (p : Side) (w : HeldWork) (d : Dev) : (heldNote p w d).net = d.net := by unfold heldNote; split <;> rfl
@[simp] theorem heldNote_ropes (p : Side) (w : HeldWork) (d : Dev) : (heldNote p w d).ropes = d.ropes := by unfold heldNote; split <;> rfl
@[simp] theorem heldNote_ctl (p : Side) (w : HeldWork) (d : Dev) : (heldNote p w d).ctl = d.ctl := by unfold heldNote; split <;> rfl
@[simp] theorem heldNote_ten (p : Side) (w : HeldWork) (d : Dev) : (heldNote p w d).ten = d.ten := by unfold heldNote; split <;> rfl
@[simp] theorem heldNote_ciph (p : Side) (w : HeldWork) (d : Dev) : (heldNote p w d).ciph = d.ciph := by unfold heldNote; split <;> rfl
@[simp] theorem heldNote_pwr (p : Side) (w : HeldWork) (d : Dev) : (heldNote p w d).pwr = d.pwr := by unfold heldNote; split <;> rfl
@[simp] theorem heldNote_svc (p : Side) (w : HeldWork) (d : Dev) : (heldNote p w d).svc = d.svc := by unfold heldNote; split <;> rfl
@[simp] theorem heldNote_out (p : Side) (w : HeldWork) (d : Dev) : (heldNote p w d).out = d.out := by unfold heldNote; split <;> rfl
@[simp] theorem heldNote_free (p : Side) (w : HeldWork) (d : Dev) : (heldNote p w d).free = d.free := by unfold heldNote; split <;> rfl
@[simp] theorem postEvent_fab (n code obj a b : Nat) (d : Dev) : (postEvent n code obj a b d).fab = d.fab := by unfold postEvent; split <;> [rfl; (simp only []; split <;> [simp; (split <;> simp)])]
@[simp] theorem postEvent_mem (n code obj a b : Nat) (d : Dev) : (postEvent n code obj a b d).mem = d.mem := by unfold postEvent; split <;> [rfl; (simp only []; split <;> [simp; (split <;> simp)])]
@[simp] theorem postEvent_xlt (n code obj a b : Nat) (d : Dev) : (postEvent n code obj a b d).xlt = d.xlt := by unfold postEvent; split <;> [rfl; (simp only []; split <;> [simp; (split <;> simp)])]
@[simp] theorem postEvent_eng (n code obj a b : Nat) (d : Dev) : (postEvent n code obj a b d).eng = d.eng := by unfold postEvent; split <;> [rfl; (simp only []; split <;> [simp; (split <;> simp)])]
@[simp] theorem postEvent_q (n code obj a b : Nat) (d : Dev) : (postEvent n code obj a b d).q = d.q := by unfold postEvent; split <;> [rfl; (simp only []; split <;> [simp; (split <;> simp)])]
@[simp] theorem postEvent_ropes (n code obj a b : Nat) (d : Dev) : (postEvent n code obj a b d).ropes = d.ropes := by unfold postEvent; split <;> [rfl; (simp only []; split <;> [simp; (split <;> simp)])]
@[simp] theorem postEvent_ctl (n code obj a b : Nat) (d : Dev) : (postEvent n code obj a b d).ctl = d.ctl := by unfold postEvent; split <;> [rfl; (simp only []; split <;> [simp; (split <;> simp)])]
@[simp] theorem postEvent_ciph (n code obj a b : Nat) (d : Dev) : (postEvent n code obj a b d).ciph = d.ciph := by unfold postEvent; split <;> [rfl; (simp only []; split <;> [simp; (split <;> simp)])]
@[simp] theorem postEvent_pwr (n code obj a b : Nat) (d : Dev) : (postEvent n code obj a b d).pwr = d.pwr := by unfold postEvent; split <;> [rfl; (simp only []; split <;> [simp; (split <;> simp)])]
@[simp] theorem postEvent_free (n code obj a b : Nat) (d : Dev) : (postEvent n code obj a b d).free = d.free := by unfold postEvent; split <;> [rfl; (simp only []; split <;> [simp; (split <;> simp)])]
-- device memory
@[simp] theorem memWrite_fab (a : Nat) (b : Bytes) (d : Dev) : (memWrite a b d).fab = d.fab := rfl
@[simp] theorem memWrite_xlt (a : Nat) (b : Bytes) (d : Dev) : (memWrite a b d).xlt = d.xlt := rfl
@[simp] theorem memWrite_eng (a : Nat) (b : Bytes) (d : Dev) : (memWrite a b d).eng = d.eng := rfl
@[simp] theorem memWrite_q (a : Nat) (b : Bytes) (d : Dev) : (memWrite a b d).q = d.q := rfl
@[simp] theorem memWrite_net (a : Nat) (b : Bytes) (d : Dev) : (memWrite a b d).net = d.net := rfl
@[simp] theorem memWrite_ropes (a : Nat) (b : Bytes) (d : Dev) : (memWrite a b d).ropes = d.ropes := rfl
@[simp] theorem memWrite_host (a : Nat) (b : Bytes) (d : Dev) : (memWrite a b d).host = d.host := rfl
@[simp] theorem memWrite_ctl (a : Nat) (b : Bytes) (d : Dev) : (memWrite a b d).ctl = d.ctl := rfl
@[simp] theorem memWrite_ten (a : Nat) (b : Bytes) (d : Dev) : (memWrite a b d).ten = d.ten := rfl
@[simp] theorem memWrite_ciph (a : Nat) (b : Bytes) (d : Dev) : (memWrite a b d).ciph = d.ciph := rfl
@[simp] theorem memWrite_pwr (a : Nat) (b : Bytes) (d : Dev) : (memWrite a b d).pwr = d.pwr := rfl
@[simp] theorem memWrite_svc (a : Nat) (b : Bytes) (d : Dev) : (memWrite a b d).svc = d.svc := rfl
@[simp] theorem memWrite_out (a : Nat) (b : Bytes) (d : Dev) : (memWrite a b d).out = d.out := rfl
@[simp] theorem memWrite_free (a : Nat) (b : Bytes) (d : Dev) : (memWrite a b d).free = d.free := rfl
-- device memory
@[simp] theorem memZero_fab (a n : Nat) (d : Dev) : (memZero a n d).fab = d.fab := rfl
@[simp] theorem memZero_xlt (a n : Nat) (d : Dev) : (memZero a n d).xlt = d.xlt := rfl
@[simp] theorem memZero_eng (a n : Nat) (d : Dev) : (memZero a n d).eng = d.eng := rfl
@[simp] theorem memZero_q (a n : Nat) (d : Dev) : (memZero a n d).q = d.q := rfl
@[simp] theorem memZero_net (a n : Nat) (d : Dev) : (memZero a n d).net = d.net := rfl
@[simp] theorem memZero_ropes (a n : Nat) (d : Dev) : (memZero a n d).ropes = d.ropes := rfl
@[simp] theorem memZero_host (a n : Nat) (d : Dev) : (memZero a n d).host = d.host := rfl
@[simp] theorem memZero_ctl (a n : Nat) (d : Dev) : (memZero a n d).ctl = d.ctl := rfl
@[simp] theorem memZero_ten (a n : Nat) (d : Dev) : (memZero a n d).ten = d.ten := rfl
@[simp] theorem memZero_ciph (a n : Nat) (d : Dev) : (memZero a n d).ciph = d.ciph := rfl
@[simp] theorem memZero_pwr (a n : Nat) (d : Dev) : (memZero a n d).pwr = d.pwr := rfl
@[simp] theorem memZero_svc (a n : Nat) (d : Dev) : (memZero a n d).svc = d.svc := rfl
@[simp] theorem memZero_out (a n : Nat) (d : Dev) : (memZero a n d).out = d.out := rfl
@[simp] theorem memZero_free (a n : Nat) (d : Dev) : (memZero a n d).free = d.free := rfl
-- poison
@[simp] theorem memPoison_fab (a n : Nat) (d : Dev) : (memPoison a n d).fab = d.fab := by unfold memPoison; split <;> rfl
@[simp] theorem memPoison_xlt (a n : Nat) (d : Dev) : (memPoison a n d).xlt = d.xlt := by unfold memPoison; split <;> rfl
@[simp] theorem memPoison_eng (a n : Nat) (d : Dev) : (memPoison a n d).eng = d.eng := by unfold memPoison; split <;> rfl
@[simp] theorem memPoison_q (a n : Nat) (d : Dev) : (memPoison a n d).q = d.q := by unfold memPoison; split <;> rfl
@[simp] theorem memPoison_net (a n : Nat) (d : Dev) : (memPoison a n d).net = d.net := by unfold memPoison; split <;> rfl
@[simp] theorem memPoison_ropes (a n : Nat) (d : Dev) : (memPoison a n d).ropes = d.ropes := by unfold memPoison; split <;> rfl
@[simp] theorem memPoison_host (a n : Nat) (d : Dev) : (memPoison a n d).host = d.host := by unfold memPoison; split <;> rfl
@[simp] theorem memPoison_ctl (a n : Nat) (d : Dev) : (memPoison a n d).ctl = d.ctl := by unfold memPoison; split <;> rfl
@[simp] theorem memPoison_ten (a n : Nat) (d : Dev) : (memPoison a n d).ten = d.ten := by unfold memPoison; split <;> rfl
@[simp] theorem memPoison_ciph (a n : Nat) (d : Dev) : (memPoison a n d).ciph = d.ciph := by unfold memPoison; split <;> rfl
@[simp] theorem memPoison_pwr (a n : Nat) (d : Dev) : (memPoison a n d).pwr = d.pwr := by unfold memPoison; split <;> rfl
@[simp] theorem memPoison_svc (a n : Nat) (d : Dev) : (memPoison a n d).svc = d.svc := by unfold memPoison; split <;> rfl
@[simp] theorem memPoison_out (a n : Nat) (d : Dev) : (memPoison a n d).out = d.out := by unfold memPoison; split <;> rfl
@[simp] theorem memPoison_free (a n : Nat) (d : Dev) : (memPoison a n d).free = d.free := by unfold memPoison; split <;> rfl
-- the command of a slot
@[simp] theorem setCmd_fab (c : CmdSlot) (m : Option Cmd) (d : Dev) : (setCmd c m d).fab = d.fab := by cases c <;> rfl
@[simp] theorem setCmd_mem (c : CmdSlot) (m : Option Cmd) (d : Dev) : (setCmd c m d).mem = d.mem := by cases c <;> rfl
@[simp] theorem setCmd_xlt (c : CmdSlot) (m : Option Cmd) (d : Dev) : (setCmd c m d).xlt = d.xlt := by cases c <;> rfl
@[simp] theorem setCmd_eng (c : CmdSlot) (m : Option Cmd) (d : Dev) : (setCmd c m d).eng = d.eng := by cases c <;> rfl
@[simp] theorem setCmd_q (c : CmdSlot) (m : Option Cmd) (d : Dev) : (setCmd c m d).q = d.q := by cases c <;> rfl
@[simp] theorem setCmd_net (c : CmdSlot) (m : Option Cmd) (d : Dev) : (setCmd c m d).net = d.net := by cases c <;> rfl
@[simp] theorem setCmd_ropes (c : CmdSlot) (m : Option Cmd) (d : Dev) : (setCmd c m d).ropes = d.ropes := by cases c <;> rfl
@[simp] theorem setCmd_host (c : CmdSlot) (m : Option Cmd) (d : Dev) : (setCmd c m d).host = d.host := by cases c <;> rfl
@[simp] theorem setCmd_ten (c : CmdSlot) (m : Option Cmd) (d : Dev) : (setCmd c m d).ten = d.ten := by cases c <;> rfl
@[simp] theorem setCmd_ciph (c : CmdSlot) (m : Option Cmd) (d : Dev) : (setCmd c m d).ciph = d.ciph := by cases c <;> rfl
@[simp] theorem setCmd_pwr (c : CmdSlot) (m : Option Cmd) (d : Dev) : (setCmd c m d).pwr = d.pwr := by cases c <;> rfl
@[simp] theorem setCmd_svc (c : CmdSlot) (m : Option Cmd) (d : Dev) : (setCmd c m d).svc = d.svc := by cases c <;> rfl
@[simp] theorem setCmd_out (c : CmdSlot) (m : Option Cmd) (d : Dev) : (setCmd c m d).out = d.out := by cases c <;> rfl
@[simp] theorem setCmd_free (c : CmdSlot) (m : Option Cmd) (d : Dev) : (setCmd c m d).free = d.free := by cases c <;> rfl
-- the command of a slot
@[simp] theorem onCmd_fab (c : CmdSlot) (f : Cmd → Cmd) (d : Dev) : (onCmd c f d).fab = d.fab := by unfold onCmd; split <;> simp
@[simp] theorem onCmd_mem (c : CmdSlot) (f : Cmd → Cmd) (d : Dev) : (onCmd c f d).mem = d.mem := by unfold onCmd; split <;> simp
@[simp] theorem onCmd_xlt (c : CmdSlot) (f : Cmd → Cmd) (d : Dev) : (onCmd c f d).xlt = d.xlt := by unfold onCmd; split <;> simp
@[simp] theorem onCmd_eng (c : CmdSlot) (f : Cmd → Cmd) (d : Dev) : (onCmd c f d).eng = d.eng := by unfold onCmd; split <;> simp
@[simp] theorem onCmd_q (c : CmdSlot) (f : Cmd → Cmd) (d : Dev) : (onCmd c f d).q = d.q := by unfold onCmd; split <;> simp
@[simp] theorem onCmd_net (c : CmdSlot) (f : Cmd → Cmd) (d : Dev) : (onCmd c f d).net = d.net := by unfold onCmd; split <;> simp
@[simp] theorem onCmd_ropes (c : CmdSlot) (f : Cmd → Cmd) (d : Dev) : (onCmd c f d).ropes = d.ropes := by unfold onCmd; split <;> simp
@[simp] theorem onCmd_host (c : CmdSlot) (f : Cmd → Cmd) (d : Dev) : (onCmd c f d).host = d.host := by unfold onCmd; split <;> simp
@[simp] theorem onCmd_ten (c : CmdSlot) (f : Cmd → Cmd) (d : Dev) : (onCmd c f d).ten = d.ten := by unfold onCmd; split <;> simp
@[simp] theorem onCmd_ciph (c : CmdSlot) (f : Cmd → Cmd) (d : Dev) : (onCmd c f d).ciph = d.ciph := by unfold onCmd; split <;> simp
@[simp] theorem onCmd_pwr (c : CmdSlot) (f : Cmd → Cmd) (d : Dev) : (onCmd c f d).pwr = d.pwr := by unfold onCmd; split <;> simp
@[simp] theorem onCmd_svc (c : CmdSlot) (f : Cmd → Cmd) (d : Dev) : (onCmd c f d).svc = d.svc := by unfold onCmd; split <;> simp
@[simp] theorem onCmd_out (c : CmdSlot) (f : Cmd → Cmd) (d : Dev) : (onCmd c f d).out = d.out := by unfold onCmd; split <;> simp
@[simp] theorem onCmd_free (c : CmdSlot) (f : Cmd → Cmd) (d : Dev) : (onCmd c f d).free = d.free := by unfold onCmd; split <;> simp
-- a command left running
@[simp] theorem leave_fab (c : CmdSlot) (w : List Nat) (d : Dev) : (leave c w d).fab = d.fab := by simp [leave]
@[simp] theorem leave_mem (c : CmdSlot) (w : List Nat) (d : Dev) : (leave c w d).mem = d.mem := by simp [leave]
@[simp] theorem leave_xlt (c : CmdSlot) (w : List Nat) (d : Dev) : (leave c w d).xlt = d.xlt := by simp [leave]
@[simp] theorem leave_eng (c : CmdSlot) (w : List Nat) (d : Dev) : (leave c w d).eng = d.eng := by simp [leave]
@[simp] theorem leave_q (c : CmdSlot) (w : List Nat) (d : Dev) : (leave c w d).q = d.q := by simp [leave]
@[simp] theorem leave_net (c : CmdSlot) (w : List Nat) (d : Dev) : (leave c w d).net = d.net := by simp [leave]
@[simp] theorem leave_ropes (c : CmdSlot) (w : List Nat) (d : Dev) : (leave c w d).ropes = d.ropes := by simp [leave]
@[simp] theorem leave_host (c : CmdSlot) (w : List Nat) (d : Dev) : (leave c w d).host = d.host := by simp [leave]
@[simp] theorem leave_ten (c : CmdSlot) (w : List Nat) (d : Dev) : (leave c w d).ten = d.ten := by simp [leave]
@[simp] theorem leave_ciph (c : CmdSlot) (w : List Nat) (d : Dev) : (leave c w d).ciph = d.ciph := by simp [leave]
@[simp] theorem leave_pwr (c : CmdSlot) (w : List Nat) (d : Dev) : (leave c w d).pwr = d.pwr := by simp [leave]
@[simp] theorem leave_svc (c : CmdSlot) (w : List Nat) (d : Dev) : (leave c w d).svc = d.svc := by simp [leave]
@[simp] theorem leave_out (c : CmdSlot) (w : List Nat) (d : Dev) : (leave c w d).out = d.out := by simp [leave]
@[simp] theorem leave_free (c : CmdSlot) (w : List Nat) (d : Dev) : (leave c w d).free = d.free := by simp [leave]
-- a slot answered
@[simp] theorem retire_fab (p : Side) (k : Nat) (m : Cmd) (d : Dev) : (retire p k m d).fab = d.fab := by unfold retire; dsimp only; split <;> simp
@[simp] theorem retire_mem (p : Side) (k : Nat) (m : Cmd) (d : Dev) : (retire p k m d).mem = d.mem := by unfold retire; dsimp only; split <;> simp
@[simp] theorem retire_xlt (p : Side) (k : Nat) (m : Cmd) (d : Dev) : (retire p k m d).xlt = d.xlt := by unfold retire; dsimp only; split <;> simp
@[simp] theorem retire_eng (p : Side) (k : Nat) (m : Cmd) (d : Dev) : (retire p k m d).eng = d.eng := by unfold retire; dsimp only; split <;> simp
@[simp] theorem retire_q (p : Side) (k : Nat) (m : Cmd) (d : Dev) : (retire p k m d).q = d.q := by unfold retire; dsimp only; split <;> simp
@[simp] theorem retire_net (p : Side) (k : Nat) (m : Cmd) (d : Dev) : (retire p k m d).net = d.net := by unfold retire; dsimp only; split <;> simp
@[simp] theorem retire_ropes (p : Side) (k : Nat) (m : Cmd) (d : Dev) : (retire p k m d).ropes = d.ropes := by unfold retire; dsimp only; split <;> simp
@[simp] theorem retire_ten (p : Side) (k : Nat) (m : Cmd) (d : Dev) : (retire p k m d).ten = d.ten := by unfold retire; dsimp only; split <;> simp
@[simp] theorem retire_ciph (p : Side) (k : Nat) (m : Cmd) (d : Dev) : (retire p k m d).ciph = d.ciph := by unfold retire; dsimp only; split <;> simp
@[simp] theorem retire_pwr (p : Side) (k : Nat) (m : Cmd) (d : Dev) : (retire p k m d).pwr = d.pwr := by unfold retire; dsimp only; split <;> simp
@[simp] theorem retire_svc (p : Side) (k : Nat) (m : Cmd) (d : Dev) : (retire p k m d).svc = d.svc := by unfold retire; dsimp only; split <;> simp
@[simp] theorem retire_free (p : Side) (k : Nat) (m : Cmd) (d : Dev) : (retire p k m d).free = d.free := by unfold retire; dsimp only; split <;> simp
-- a reply
@[simp] theorem answer_fab (c : CmdSlot) (st at_ : Nat) (r : Option (Nat × Bytes)) (v : Option Nat) (d : Dev) : (answer c st at_ r v d).fab = d.fab := by simp only [answer]; (repeat' split) <;> simp
@[simp] theorem answer_mem (c : CmdSlot) (st at_ : Nat) (r : Option (Nat × Bytes)) (v : Option Nat) (d : Dev) : (answer c st at_ r v d).mem = d.mem := by simp only [answer]; (repeat' split) <;> simp
@[simp] theorem answer_xlt (c : CmdSlot) (st at_ : Nat) (r : Option (Nat × Bytes)) (v : Option Nat) (d : Dev) : (answer c st at_ r v d).xlt = d.xlt := by simp only [answer]; (repeat' split) <;> simp
@[simp] theorem answer_eng (c : CmdSlot) (st at_ : Nat) (r : Option (Nat × Bytes)) (v : Option Nat) (d : Dev) : (answer c st at_ r v d).eng = d.eng := by simp only [answer]; (repeat' split) <;> simp
@[simp] theorem answer_q (c : CmdSlot) (st at_ : Nat) (r : Option (Nat × Bytes)) (v : Option Nat) (d : Dev) : (answer c st at_ r v d).q = d.q := by simp only [answer]; (repeat' split) <;> simp
@[simp] theorem answer_ropes (c : CmdSlot) (st at_ : Nat) (r : Option (Nat × Bytes)) (v : Option Nat) (d : Dev) : (answer c st at_ r v d).ropes = d.ropes := by simp only [answer]; (repeat' split) <;> simp
@[simp] theorem answer_ten (c : CmdSlot) (st at_ : Nat) (r : Option (Nat × Bytes)) (v : Option Nat) (d : Dev) : (answer c st at_ r v d).ten = d.ten := by simp only [answer]; (repeat' split) <;> simp
@[simp] theorem answer_ciph (c : CmdSlot) (st at_ : Nat) (r : Option (Nat × Bytes)) (v : Option Nat) (d : Dev) : (answer c st at_ r v d).ciph = d.ciph := by simp only [answer]; (repeat' split) <;> simp
@[simp] theorem answer_pwr (c : CmdSlot) (st at_ : Nat) (r : Option (Nat × Bytes)) (v : Option Nat) (d : Dev) : (answer c st at_ r v d).pwr = d.pwr := by simp only [answer]; (repeat' split) <;> simp
@[simp] theorem answer_free (c : CmdSlot) (st at_ : Nat) (r : Option (Nat × Bytes)) (v : Option Nat) (d : Dev) : (answer c st at_ r v d).free = d.free := by simp only [answer]; (repeat' split) <;> simp
-- a reply to a running command
@[simp] theorem answerIf_fab (c : CmdSlot) (op st : Nat) (r : Option (Nat × Bytes)) (d : Dev) : (answerIf c op st r d).fab = d.fab := by unfold answerIf; split <;> [(split <;> simp); rfl]
@[simp] theorem answerIf_mem (c : CmdSlot) (op st : Nat) (r : Option (Nat × Bytes)) (d : Dev) : (answerIf c op st r d).mem = d.mem := by unfold answerIf; split <;> [(split <;> simp); rfl]
@[simp] theorem answerIf_xlt (c : CmdSlot) (op st : Nat) (r : Option (Nat × Bytes)) (d : Dev) : (answerIf c op st r d).xlt = d.xlt := by unfold answerIf; split <;> [(split <;> simp); rfl]
@[simp] theorem answerIf_eng (c : CmdSlot) (op st : Nat) (r : Option (Nat × Bytes)) (d : Dev) : (answerIf c op st r d).eng = d.eng := by unfold answerIf; split <;> [(split <;> simp); rfl]
@[simp] theorem answerIf_q (c : CmdSlot) (op st : Nat) (r : Option (Nat × Bytes)) (d : Dev) : (answerIf c op st r d).q = d.q := by unfold answerIf; split <;> [(split <;> simp); rfl]
@[simp] theorem answerIf_ropes (c : CmdSlot) (op st : Nat) (r : Option (Nat × Bytes)) (d : Dev) : (answerIf c op st r d).ropes = d.ropes := by unfold answerIf; split <;> [(split <;> simp); rfl]
@[simp] theorem answerIf_ten (c : CmdSlot) (op st : Nat) (r : Option (Nat × Bytes)) (d : Dev) : (answerIf c op st r d).ten = d.ten := by unfold answerIf; split <;> [(split <;> simp); rfl]
@[simp] theorem answerIf_ciph (c : CmdSlot) (op st : Nat) (r : Option (Nat × Bytes)) (d : Dev) : (answerIf c op st r d).ciph = d.ciph := by unfold answerIf; split <;> [(split <;> simp); rfl]
@[simp] theorem answerIf_pwr (c : CmdSlot) (op st : Nat) (r : Option (Nat × Bytes)) (d : Dev) : (answerIf c op st r d).pwr = d.pwr := by unfold answerIf; split <;> [(split <;> simp); rfl]
@[simp] theorem answerIf_free (c : CmdSlot) (op st : Nat) (r : Option (Nat × Bytes)) (d : Dev) : (answerIf c op st r d).free = d.free := by unfold answerIf; split <;> [(split <;> simp); rfl]

/-- A command that acts on the device answers a next state with the queue as it was. -/
theorem onDev_next (s : State) (f : Dev → Dev) : onDev s f = .next { s with dev := f s.dev } := rfl

/-- With the rails on a row acts. -/
theorem live_on (f : Dev → Dev) (d : Dev) (h : d.pwr.rails = .on) : live f d = f d := by simp [live, h]

/-- With the rails not on a row does nothing. -/
theorem live_off (f : Dev → Dev) (d : Dev) (h : d.pwr.rails ≠ .on) : live f d = d := by simp [live, h]

theorem liveQ_on (f : Dev → Dev) (d : Dev) (h : d.pwr.rails = .on) : liveQ f d = settle (f d) := by simp [liveQ, live, h]

theorem liveQ_off (f : Dev → Dev) (d : Dev) (h : d.pwr.rails ≠ .on) : liveQ f d = d := by simp [liveQ, live, h]

/-- Nothing due: settling stops at once, whatever the bound. -/
theorem settleN_quiet (n : Nat) (d : Dev) (h : settle1 d = none) : settleN n d = d := by cases n <;> simp [settleN, h]

/-- What holds of a device and is kept by each release holds after settling. -/
theorem settleN_ind (P : Dev → Prop) (hs : ∀ d e, P d → settle1 d = some e → P e) (n : Nat) (d : Dev) (h : P d) : P (settleN n d) := by
  induction n generalizing d with
  | zero => exact h
  | succ n ih =>
    simp only [settleN]
    split
    · rename_i e he; exact ih e (hs d e h he)
    · exact h

/-- What holds of a device and is kept by each step of a fold holds after it. -/
theorem foldl_ind {α : Type} (P : Dev → Prop) (f : Dev → α → Dev) (hf : ∀ d a, P d → P (f d a)) (l : List α) (d : Dev) (h : P d) : P (l.foldl f d) := by
  induction l generalizing d with
  | nil => exact h
  | cons a l ih => exact ih _ (hf d a h)

/-- What holds of a device, and is kept by each release of messages, each end of a spent sequence and each release of completions, holds after settling. -/
theorem settle_ind (P : Dev → Prop) (hr : ∀ d n, P d → P (rxAdvance n d)) (he : ∀ d n, P d → P (seqEnd n d))
    (hs : ∀ d e, P d → settle1 d = some e → P e) (d : Dev) (h : P d) : P (settle d) :=
  settleN_ind P hs _ _ (foldl_ind P (fun d (x : Nat × Qp) => if spentNow x.2 then seqEnd x.1 d else d)
    (fun d x hd => by split <;> [exact he d x.1 hd; exact hd]) _ _
    (foldl_ind P (fun d (x : Nat × Qp) => rxAdvance x.1 d) (fun d x => hr d x.1) _ d h))

-- Commands of the slots

/-- A row whose command has begun runs its effect on the parameters while a control die leads. -/
theorem runCmd_begun (c : CmdSlot) (op : Nat) (f : Bytes → Dev → Dev) (d : Dev) (m : Cmd) (h : cmdAt d c = some m) (hb : m.stage = .begun)
    (ho : m.hdr.opcode = BitVec.ofNat 16 op) (hl : (leader d).isSome) : runCmd c op f d = f m.params d := by
  obtain ⟨l, hl⟩ := Option.isSome_iff_exists.mp hl
  simp [runCmd, h, hb, ho, hl]

/-- A row whose slot holds no begun command of its opcode changes nothing. -/
theorem runCmd_other (c : CmdSlot) (op : Nat) (f : Bytes → Dev → Dev) (d : Dev)
    (h : ∀ m, cmdAt d c = some m → ¬ (m.stage = .begun ∧ m.hdr.opcode = BitVec.ofNat 16 op)) : runCmd c op f d = d := by
  unfold runCmd
  split
  · rename_i m _ hm _; rw [if_neg (by simpa using h m hm)]
  · rfl

/-- While no control die leads no command is carried out (R397, R432). -/
theorem runCmd_unled (c : CmdSlot) (op : Nat) (f : Bytes → Dev → Dev) (d : Dev) (h : leader d = none) : runCmd c op f d = d := by
  unfold runCmd
  split
  · simp_all
  · rfl

theorem runChk_ok (c : CmdSlot) (op : Nat) (k : Bytes → Dev → List (Nat × Bool)) (f : Bytes → Dev → Dev) (d : Dev) (m : Cmd) (h : cmdAt d c = some m)
    (hb : m.stage = .begun) (ho : m.hdr.opcode = BitVec.ofNat 16 op) (hl : (leader d).isSome) (hk : firstBad (k m.params d) = none) :
    runChk c op k f d = f m.params d := by simp [runChk, runCmd_begun c op _ d m h hb ho hl, hk]

theorem runChk_bad (c : CmdSlot) (op : Nat) (k : Bytes → Dev → List (Nat × Bool)) (f : Bytes → Dev → Dev) (d : Dev) (m : Cmd) (h : cmdAt d c = some m)
    (hb : m.stage = .begun) (ho : m.hdr.opcode = BitVec.ofNat 16 op) (hl : (leader d).isSome) (o : Nat) (hk : firstBad (k m.params d) = some o) :
    runChk c op k f d = finishAt c stBadParam o d := by simp [runChk, runCmd_begun c op _ d m h hb ho hl, hk]

end Sys2Proof.Machine
end

