-- ==== Sys2Proof/Laws/PerInstr.lean ====
section
/-! SUPPORT. Statements made of every command, constructor by constructor. -/

namespace Sys2Proof.Laws.TableRow

/-- The command is one of the 261 rows of the table. -/
def Statement (i : Instr) : Prop := i.row < 261

theorem deviceInfo (c : CmdSlot) : Statement (.deviceInfo c) := by show (0 : Nat) < 261; decide
theorem envCheck (c : CmdSlot) (record : Bytes) : Statement (.envCheck c record) := by show (1 : Nat) < 261; decide
theorem halfReset (c : CmdSlot) : Statement (.halfReset c) := by show (2 : Nat) < 261; decide
theorem powerState (c : CmdSlot) : Statement (.powerState c) := by show (3 : Nat) < 261; decide
theorem setPowerLimit (c : CmdSlot) : Statement (.setPowerLimit c) := by show (4 : Nat) < 261; decide
theorem tenantCreate (c : CmdSlot) : Statement (.tenantCreate c) := by show (5 : Nat) < 261; decide
theorem tenantDestroy (c : CmdSlot) (stubs : Option Bytes) : Statement (.tenantDestroy c stubs) := by show (6 : Nat) < 261; decide
theorem tenantReset (c : CmdSlot) : Statement (.tenantReset c) := by show (7 : Nat) < 261; decide
theorem tenantFreeze (c : CmdSlot) : Statement (.tenantFreeze c) := by show (8 : Nat) < 261; decide
theorem tenantSave (c : CmdSlot) : Statement (.tenantSave c) := by show (9 : Nat) < 261; decide
theorem tenantRestore (c : CmdSlot) (snap : Bytes) (handles : Bytes) : Statement (.tenantRestore c snap handles) := by show (10 : Nat) < 261; decide
theorem tenantThaw (c : CmdSlot) : Statement (.tenantThaw c) := by show (11 : Nat) < 261; decide
theorem tenantQuery (c : CmdSlot) : Statement (.tenantQuery c) := by show (12 : Nat) < 261; decide
theorem memAlloc (c : CmdSlot) : Statement (.memAlloc c) := by show (13 : Nat) < 261; decide
theorem memFree (c : CmdSlot) : Statement (.memFree c) := by show (14 : Nat) < 261; decide
theorem mapRange (c : CmdSlot) : Statement (.mapRange c) := by show (15 : Nat) < 261; decide
theorem unmapRange (c : CmdSlot) : Statement (.unmapRange c) := by show (16 : Nat) < 261; decide
theorem cairnResolve (c : CmdSlot) : Statement (.cairnResolve c) := by show (17 : Nat) < 261; decide
theorem retireQuery (c : CmdSlot) : Statement (.retireQuery c) := by show (18 : Nat) < 261; decide
theorem windowOpen (c : CmdSlot) : Statement (.windowOpen c) := by show (19 : Nat) < 261; decide
theorem windowRevoke (c : CmdSlot) : Statement (.windowRevoke c) := by show (20 : Nat) < 261; decide
theorem windowQuery (c : CmdSlot) : Statement (.windowQuery c) := by show (21 : Nat) < 261; decide
theorem qpCreate (c : CmdSlot) : Statement (.qpCreate c) := by show (22 : Nat) < 261; decide
theorem qpModify (c : CmdSlot) : Statement (.qpModify c) := by show (23 : Nat) < 261; decide
theorem qpDestroy (c : CmdSlot) : Statement (.qpDestroy c) := by show (24 : Nat) < 261; decide
theorem cqCreate (c : CmdSlot) : Statement (.cqCreate c) := by show (25 : Nat) < 261; decide
theorem cqDestroy (c : CmdSlot) : Statement (.cqDestroy c) := by show (26 : Nat) < 261; decide
theorem pathSet (c : CmdSlot) : Statement (.pathSet c) := by show (27 : Nat) < 261; decide
theorem ccProfileSet (c : CmdSlot) : Statement (.ccProfileSet c) := by show (28 : Nat) < 261; decide
theorem ropeCreate (c : CmdSlot) : Statement (.ropeCreate c) := by show (29 : Nat) < 261; decide
theorem ropeDestroy (c : CmdSlot) : Statement (.ropeDestroy c) := by show (30 : Nat) < 261; decide
theorem ropeQuery (c : CmdSlot) : Statement (.ropeQuery c) := by show (31 : Nat) < 261; decide
theorem shaperSet (c : CmdSlot) : Statement (.shaperSet c) := by show (32 : Nat) < 261; decide
theorem meterSet (c : CmdSlot) : Statement (.meterSet c) := by show (33 : Nat) < 261; decide
theorem gateListSet (c : CmdSlot) : Statement (.gateListSet c) := by show (34 : Nat) < 261; decide
theorem nodeTableWrite (c : CmdSlot) : Statement (.nodeTableWrite c) := by show (35 : Nat) < 261; decide
theorem linkControl (c : CmdSlot) : Statement (.linkControl c) := by show (36 : Nat) < 261; decide
theorem laneRecal (c : CmdSlot) : Statement (.laneRecal c) := by show (37 : Nat) < 261; decide
theorem keyLoad (c : CmdSlot) : Statement (.keyLoad c) := by show (38 : Nat) < 261; decide
theorem keyErase (c : CmdSlot) : Statement (.keyErase c) := by show (39 : Nat) < 261; decide
theorem imageStage (c : CmdSlot) (data : Bytes) : Statement (.imageStage c data) := by show (40 : Nat) < 261; decide
theorem imageVerify (c : CmdSlot) : Statement (.imageVerify c) := by show (41 : Nat) < 261; decide
theorem traverseBegin (c : CmdSlot) : Statement (.traverseBegin c) := by show (42 : Nat) < 261; decide
theorem traverseCommit (c : CmdSlot) : Statement (.traverseCommit c) := by show (43 : Nat) < 261; decide
theorem traverseAbort (c : CmdSlot) : Statement (.traverseAbort c) := by show (44 : Nat) < 261; decide
theorem microcodeLoad (c : CmdSlot) : Statement (.microcodeLoad c) := by show (45 : Nat) < 261; decide
theorem counterSelect (c : CmdSlot) : Statement (.counterSelect c) := by show (46 : Nat) < 261; decide
theorem counterRead (c : CmdSlot) : Statement (.counterRead c) := by show (47 : Nat) < 261; decide
theorem logRead (c : CmdSlot) : Statement (.logRead c) := by show (48 : Nat) < 261; decide
theorem logClear (c : CmdSlot) : Statement (.logClear c) := by show (49 : Nat) < 261; decide
theorem identityGet (c : CmdSlot) : Statement (.identityGet c) := by show (50 : Nat) < 261; decide
theorem recordLoad (c : CmdSlot) (record : Bytes) : Statement (.recordLoad c record) := by show (51 : Nat) < 261; decide
theorem cmdRingProdWrite (p : Side) (ring : Side) (k : Nat) (v : BitVec 32) : Statement (.cmdRingProdWrite p ring k v) := by show (52 : Nat) < 261; decide
theorem cmdRingEnable (p : Side) (ring : Side) (k : Nat) (v : BitVec 32) : Statement (.cmdRingEnable p ring k v) := by show (53 : Nat) < 261; decide
theorem cmdRingDisable (p : Side) (ring : Side) (k : Nat) (v : BitVec 32) : Statement (.cmdRingDisable p ring k v) := by show (54 : Nat) < 261; decide
theorem commandFetch (data : Option Bytes) : Statement (.commandFetch data) := by show (55 : Nat) < 261; decide
theorem commandBegin (c : CmdSlot) : Statement (.commandBegin c) := by show (56 : Nat) < 261; decide
theorem commandDeadline (c : CmdSlot) : Statement (.commandDeadline c) := by show (57 : Nat) < 261; decide
theorem sidebandRequest (msg : Bytes) : Statement (.sidebandRequest msg) := by show (58 : Nat) < 261; decide
theorem leaseRenewal : Statement (.leaseRenewal) := by show (59 : Nat) < 261; decide
theorem leaseExpiry : Statement (.leaseExpiry) := by show (60 : Nat) < 261; decide
theorem controlDieStart (d : Side) : Statement (.controlDieStart d) := by show (61 : Nat) < 261; decide
theorem cdeAcquireDelay : Statement (.cdeAcquireDelay) := by show (62 : Nat) < 261; decide
theorem fenceNoRenewal (d : Side) : Statement (.fenceNoRenewal d) := by show (63 : Nat) < 261; decide
theorem fenceUnreachable (d : Side) : Statement (.fenceUnreachable d) := by show (64 : Nat) < 261; decide
theorem fencedRecovery (d : Side) : Statement (.fencedRecovery d) := by show (65 : Nat) < 261; decide
theorem controlDieLost (d : Side) : Statement (.controlDieLost d) := by show (66 : Nat) < 261; decide
theorem haspAcquire (a : Agent) (n : Nat) (token : BitVec 16) : Statement (.haspAcquire a n token) := by show (67 : Nat) < 261; decide
theorem haspRelease (a : Agent) (n : Nat) (token : BitVec 16) : Statement (.haspRelease a n token) := by show (68 : Nat) < 261; decide
theorem latchAcquire (a : Agent) (token : BitVec 16) : Statement (.latchAcquire a token) := by show (69 : Nat) < 261; decide
theorem latchRelease (a : Agent) (token : BitVec 16) : Statement (.latchRelease a token) := by show (70 : Nat) < 261; decide
theorem mbxDataWrite (a : Agent) (k : Nat) (word : BitVec 64) : Statement (.mbxDataWrite a k word) := by show (71 : Nat) < 261; decide
theorem mbxDataRead (a : Agent) (reg : RegAt) : Statement (.mbxDataRead a reg) := by show (72 : Nat) < 261; decide
theorem withdraw (a : Agent) (k : Nat) : Statement (.withdraw a k) := by show (73 : Nat) < 261; decide
theorem mbxTimeout (k : Nat) : Statement (.mbxTimeout k) := by show (74 : Nat) < 261; decide
theorem msiXUnmask (p : Side) (vector : Option Nat) : Statement (.msiXUnmask p vector) := by show (75 : Nat) < 261; decide
theorem registerWrite (p : RegWriter) (off : Nat) (size : Nat) (v : BitVec 64) (requester : BitVec 16) : Statement (.registerWrite p off size v requester) := by show (76 : Nat) < 261; decide
theorem xltCairnEnable (p : Side) (g : Side) (v : BitVec 32) : Statement (.xltCairnEnable p g v) := by show (77 : Nat) < 261; decide
theorem xltCairnDisable (p : Side) (g : Side) (v : BitVec 32) : Statement (.xltCairnDisable p g v) := by show (78 : Nat) < 261; decide
theorem xltCairnConsWrite (p : Side) (g : Side) (v : BitVec 32) : Statement (.xltCairnConsWrite p g v) := by show (79 : Nat) < 261; decide
theorem ciphJobEnable (a : Agent) (v : BitVec 32) : Statement (.ciphJobEnable a v) := by show (80 : Nat) < 261; decide
theorem ciphJobDisable (a : Agent) (v : BitVec 32) : Statement (.ciphJobDisable a v) := by show (81 : Nat) < 261; decide
theorem ciphJobProdWrite (a : Agent) (v : BitVec 32) : Statement (.ciphJobProdWrite a v) := by show (82 : Nat) < 261; decide
theorem capture (p : Side) : Statement (.capture p) := by show (83 : Nat) < 261; decide
theorem legacyLiveRead (p : Side) (off : Nat) (size : Nat) (agree : List Bool) : Statement (.legacyLiveRead p off size agree) := by show (84 : Nat) < 261; decide
theorem warmReset (p : Side) : Statement (.warmReset p) := by show (85 : Nat) < 261; decide
theorem sqDoorbell (p : Side) (requester : BitVec 16) (page : Nat) (number : BitVec 16) (index : BitVec 16) (arm : Bool) : Statement (.sqDoorbell p requester page number index arm) := by show (86 : Nat) < 261; decide
theorem rqDoorbell (p : Side) (requester : BitVec 16) (page : Nat) (number : BitVec 16) (index : BitVec 16) (arm : Bool) : Statement (.rqDoorbell p requester page number index arm) := by show (87 : Nat) < 261; decide
theorem cqDoorbell (p : Side) (requester : BitVec 16) (page : Nat) (number : BitVec 16) (index : BitVec 16) : Statement (.cqDoorbell p requester page number index) := by show (88 : Nat) < 261; decide
theorem eventRingDoorbell (p : Side) (requester : BitVec 16) (page : Nat) (number : BitVec 16) (index : BitVec 16) : Statement (.eventRingDoorbell p requester page number index) := by show (89 : Nat) < 261; decide
theorem arm (p : Side) (requester : BitVec 16) (page : Nat) (event : Bool) (number : BitVec 16) (index : BitVec 16) : Statement (.arm p requester page event number index) := by show (90 : Nat) < 261; decide
theorem perstN (p : Side) : Statement (.perstN p) := by show (91 : Nat) < 261; decide
theorem hotReset (p : Side) : Statement (.hotReset p) := by show (92 : Nat) < 261; decide
theorem linkDown (p : Side) : Statement (.linkDown p) := by show (93 : Nat) < 261; decide
theorem functionLevelReset (p : Side) : Statement (.functionLevelReset p) := by show (94 : Nat) < 261; decide
theorem hostLinkUp (p : Side) (width : Nat) (gen : Nat) (flit : Bool) : Statement (.hostLinkUp p width gen flit) := by show (95 : Nat) < 261; decide
theorem busMasterEnableSet (p : Side) : Statement (.busMasterEnableSet p) := by show (96 : Nat) < 261; decide
theorem busMasterEnableClear (p : Side) : Statement (.busMasterEnableClear p) := by show (97 : Nat) < 261; decide
theorem d3hotEntry (p : Side) : Statement (.d3hotEntry p) := by show (98 : Nat) < 261; decide
theorem d0Return (p : Side) : Statement (.d0Return p) := by show (99 : Nat) < 261; decide
theorem hostCompletion (tag : Nat) (data : Bytes) : Statement (.hostCompletion tag data) := by show (100 : Nat) < 261; decide
theorem hostReqFailed (t : HostTarget) : Statement (.hostReqFailed t) := by show (101 : Nat) < 261; decide
theorem completionTimeout (t : HostTarget) : Statement (.completionTimeout t) := by show (102 : Nat) < 261; decide
theorem poisonedCompletion (tag : Nat) (data : Bytes) (granules : List Nat) : Statement (.poisonedCompletion tag data granules) := by show (103 : Nat) < 261; decide
theorem unexpectedCompletion (p : Side) : Statement (.unexpectedCompletion p) := by show (104 : Nat) < 261; decide
theorem poisonedWrite (p : Side) : Statement (.poisonedWrite p) := by show (105 : Nat) < 261; decide
theorem atsCompletion (p : Side) (tag : Nat) (cpl : AtsCpl) : Statement (.atsCompletion p tag cpl) := by show (106 : Nat) < 261; decide
theorem atsInvalidation (p : Side) (pasid : Nat) (addr : Nat) (len : Nat) : Statement (.atsInvalidation p pasid addr len) := by show (107 : Nat) < 261; decide
theorem priResponse (p : Side) (group : Nat) (code : PriCode) : Statement (.priResponse p group code) := by show (108 : Nat) < 261; decide
theorem entdaa (addr : I3cAssign) : Statement (.entdaa addr) := by show (109 : Nat) < 261; decide
theorem mctpControl (msg : Bytes) : Statement (.mctpControl msg) := by show (110 : Nat) < 261; decide
theorem pldm (msg : Bytes) : Statement (.pldm msg) := by show (111 : Nat) < 261; decide
theorem spdm (route : SpdmRoute) (req : SpdmReq) (msg : Bytes) : Statement (.spdm route req msg) := by show (112 : Nat) < 261; decide
theorem replicatedTableWrite (tile : Nat) (epoch : BitVec 32) (w : TableWrite) : Statement (.replicatedTableWrite tile epoch w) := by show (113 : Nat) < 261; decide
theorem translationWalkDone (tile : Nat) (tenant : Nat) (addr : BitVec 64) (write : Bool) (who : Waiter) : Statement (.translationWalkDone tile tenant addr write who) := by show (114 : Nat) < 261; decide
theorem cairnTimer (p : Side) : Statement (.cairnTimer p) := by show (115 : Nat) < 261; decide
theorem faultLimitExpiry (record : Nat) : Statement (.faultLimitExpiry record) := by show (116 : Nat) < 261; decide
theorem invalidationAck (tile : Nat) (inv : Nat) : Statement (.invalidationAck tile inv) := by show (117 : Nat) < 261; decide
theorem unmapAbort (tile : Nat) (inv : Nat) : Statement (.unmapAbort tile inv) := by show (118 : Nat) < 261; decide
theorem windowDrained (w : Nat) : Statement (.windowDrained w) := by show (119 : Nat) < 261; decide
theorem stackRead (stack : Nat) (off : Nat) (codewords : Nat) (who : Requester) (errs : List (Nat × Nat)) : Statement (.stackRead stack off codewords who errs) := by show (120 : Nat) < 261; decide
theorem stackWrite (stack : Nat) (off : Nat) (data : WriteData) (who : Requester) : Statement (.stackWrite stack off data who) := by show (121 : Nat) < 261; decide
theorem retirementMoveDone (move : MoveEnd) : Statement (.retirementMoveDone move) := by show (122 : Nat) < 261; decide
theorem patrolScrub (stack : Nat) (symbols : Nat) : Statement (.patrolScrub stack symbols) := by show (123 : Nat) < 261; decide
theorem ceTrackExpiry (stack : Nat) (chimney : Nat) (group : Nat) : Statement (.ceTrackExpiry stack chimney group) := by show (124 : Nat) < 261; decide
theorem memCe (stack : Nat) : Statement (.memCe stack) := by show (125 : Nat) < 261; decide
theorem stackInit (stack : Nat) (ok : Bool) : Statement (.stackInit stack ok) := by show (126 : Nat) < 261; decide
theorem parkIdle (stack : Nat) : Statement (.parkIdle stack) := by show (127 : Nat) < 261; decide
theorem parkDrained (stack : Nat) : Statement (.parkDrained stack) := by show (128 : Nat) < 261; decide
theorem stackWakeDone (stack : Nat) : Statement (.stackWakeDone stack) := by show (129 : Nat) < 261; decide
theorem chimneyFail (stack : Nat) (chimney : Nat) : Statement (.chimneyFail stack chimney) := by show (130 : Nat) < 261; decide
theorem zeroingDone (handle : Nat) : Statement (.zeroingDone handle) := by show (131 : Nat) < 261; decide
theorem creditQueueSend (q : QueueId) : Statement (.creditQueueSend q) := by show (132 : Nat) < 261; decide
theorem creditReturn (q : QueueId) : Statement (.creditReturn q) := by show (133 : Nat) < 261; decide
theorem creditStall (q : QueueId) : Statement (.creditStall q) := by show (134 : Nat) < 261; decide
theorem creditQueueReady (q : QueueId) : Statement (.creditQueueReady q) := by show (135 : Nat) < 261; decide
theorem segmentDown (n : Nat) : Statement (.segmentDown n) := by show (136 : Nat) < 261; decide
theorem segmentUp (n : Nat) : Statement (.segmentUp n) := by show (137 : Nat) < 261; decide
theorem intraHalfLinkDown (a : Nat) (b : Nat) : Statement (.intraHalfLinkDown a b) := by show (138 : Nat) < 261; decide
theorem workFetch (tile : Nat) (host : Bytes) : Statement (.workFetch tile host) := by show (139 : Nat) < 261; decide
theorem phaseRefetch (t : RefetchTarget) (data : Bytes) : Statement (.phaseRefetch t data) := by show (140 : Nat) < 261; decide
theorem entryBegin (qpn : Nat) (hostDesc : Bytes) : Statement (.entryBegin qpn hostDesc) := by show (141 : Nat) < 261; decide
theorem legDone (xfer : Nat) (leg : Nat) : Statement (.legDone xfer leg) := by show (142 : Nat) < 261; decide
theorem waitSatisfied (qpn : Nat) : Statement (.waitSatisfied qpn) := by show (143 : Nat) < 261; decide
theorem waitPatchDone (qpn : Nat) : Statement (.waitPatchDone qpn) := by show (144 : Nat) < 261; decide
theorem cqStallLimit (cqn : Nat) : Statement (.cqStallLimit cqn) := by show (145 : Nat) < 261; decide
theorem mergeSpaceGrant (tile : Nat) : Statement (.mergeSpaceGrant tile) := by show (146 : Nat) < 261; decide
theorem legGrant (stack : Nat) : Statement (.legGrant stack) := by show (147 : Nat) < 261; decide
theorem opstoreStarvation (stack : Nat) : Statement (.opstoreStarvation stack) := by show (148 : Nat) < 261; decide
theorem operandLoadDone (op : Nat) (leg : Nat) : Statement (.operandLoadDone op leg) := by show (149 : Nat) < 261; decide
theorem legFinish (op : Nat) (leg : Nat) : Statement (.legFinish op leg) := by show (150 : Nat) < 261; decide
theorem legFail (op : Nat) (leg : Nat) (detail : BitVec 8) : Statement (.legFail op leg detail) := by show (151 : Nat) < 261; decide
theorem graphWalkRound (op : Nat) : Statement (.graphWalkRound op) := by show (152 : Nat) < 261; decide
theorem write (port : Nat) (p : Pkt) : Statement (.write port p) := by show (153 : Nat) < 261; decide
theorem readReq (port : Nat) (p : Pkt) : Statement (.readReq port p) := by show (154 : Nat) < 261; decide
theorem readResp (port : Nat) (p : Pkt) : Statement (.readResp port p) := by show (155 : Nat) < 261; decide
theorem send (port : Nat) (p : Pkt) : Statement (.send port p) := by show (156 : Nat) < 261; decide
theorem atomicReq (port : Nat) (p : Pkt) : Statement (.atomicReq port p) := by show (157 : Nat) < 261; decide
theorem atomicResp (port : Nat) (p : Pkt) : Statement (.atomicResp port p) := by show (158 : Nat) < 261; decide
theorem operateReq (port : Nat) (p : Pkt) : Statement (.operateReq port p) := by show (159 : Nat) < 261; decide
theorem operateResp (port : Nat) (p : Pkt) : Statement (.operateResp port p) := by show (160 : Nat) < 261; decide
theorem ack (port : Nat) (p : Pkt) : Statement (.ack port p) := by show (161 : Nat) < 261; decide
theorem nak (port : Nat) (p : Pkt) : Statement (.nak port p) := by show (162 : Nat) < 261; decide
theorem probe (port : Nat) (p : Pkt) : Statement (.probe port p) := by show (163 : Nat) < 261; decide
theorem disconnect (port : Nat) (p : Pkt) : Statement (.disconnect port p) := by show (164 : Nat) < 261; decide
theorem responderAdmit (qpn : Nat) : Statement (.responderAdmit qpn) := by show (165 : Nat) < 261; decide
theorem nonEwewaFrame (port : Nat) (h : FrameHdr) : Statement (.nonEwewaFrame port h) := by show (166 : Nat) < 261; decide
theorem arpRequest (port : Nat) (ask : AddressAsk) : Statement (.arpRequest port ask) := by show (167 : Nat) < 261; decide
theorem neighbourSolicitation (port : Nat) (ask : AddressAsk) : Statement (.neighbourSolicitation port ask) := by show (168 : Nat) < 261; decide
theorem pauseFrame (port : Nat) : Statement (.pauseFrame port) := by show (169 : Nat) < 261; decide
theorem lldpdu (port : Nat) (chassis : Bytes) (portId : Bytes) : Statement (.lldpdu port chassis portId) := by show (170 : Nat) < 261; decide
theorem packetSend (qpn : Nat) : Statement (.packetSend qpn) := by show (171 : Nat) < 261; decide
theorem retransmitTimer (q : Sender) (psn : BitVec 32) : Statement (.retransmitTimer q psn) := by show (172 : Nat) < 261; decide
theorem ackTimer (q : Sender) : Statement (.ackTimer q) := by show (173 : Nat) < 261; decide
theorem notReadyBackoff (qpn : Nat) (msn : BitVec 32) : Statement (.notReadyBackoff qpn msn) := by show (174 : Nat) < 261; decide
theorem msnProbe (qpn : Nat) : Statement (.msnProbe qpn) := by show (175 : Nat) < 261; decide
theorem grantAnnounce (qpn : Nat) : Statement (.grantAnnounce qpn) := by show (176 : Nat) < 261; decide
theorem disconnectRepeat (qpn : Nat) : Statement (.disconnectRepeat qpn) := by show (177 : Nat) < 261; decide
theorem tombstoneExpiry (qpn : Nat) : Statement (.tombstoneExpiry qpn) := by show (178 : Nat) < 261; decide
theorem pathHoldExpiry (qpn : Nat) (path : Nat) : Statement (.pathHoldExpiry qpn path) := by show (179 : Nat) < 261; decide
theorem baseWinRotate (qpn : Nat) (path : Nat) : Statement (.baseWinRotate qpn path) := by show (180 : Nat) < 261; decide
theorem bucketFill : Statement (.bucketFill) := by show (181 : Nat) < 261; decide
theorem portSchedule (port : Nat) : Statement (.portSchedule port) := by show (182 : Nat) < 261; decide
theorem gateEntryAdvance (port : Nat) : Statement (.gateEntryAdvance port) := by show (183 : Nat) < 261; decide
theorem gateListTakeover (port : Nat) : Statement (.gateListTakeover port) := by show (184 : Nat) < 261; decide
theorem eqSamplePeriod : Statement (.eqSamplePeriod) := by show (185 : Nat) < 261; decide
theorem data (port : Nat) (b : Block) : Statement (.data port b) := by show (186 : Nat) < 261; decide
theorem idle (port : Nat) (b : Block) : Statement (.idle port b) := by show (187 : Nat) < 261; decide
theorem replayReq (port : Nat) (b : Block) : Statement (.replayReq port b) := by show (188 : Nat) < 261; decide
theorem replayReqTimer (port : Nat) : Statement (.replayReqTimer port) := by show (189 : Nat) < 261; decide
theorem retrainTimeout (port : Nat) : Statement (.retrainTimeout port) := by show (190 : Nat) < 261; decide
theorem ident (port : Nat) (msg : Bytes) : Statement (.ident port msg) := by show (191 : Nat) < 261; decide
theorem laneState (port : Nat) (mask : BitVec 8) : Statement (.laneState port mask) := by show (192 : Nat) < 261; decide
theorem widthReq (port : Nat) (mask : BitVec 8) (width : Nat) : Statement (.widthReq port mask width) := by show (193 : Nat) < 261; decide
theorem widthAck (port : Nat) (mask : BitVec 8) (width : Nat) : Statement (.widthAck port mask width) := by show (194 : Nat) < 261; decide
theorem sleepReq (port : Nat) : Statement (.sleepReq port) := by show (195 : Nat) < 261; decide
theorem sleepAck (port : Nat) : Statement (.sleepAck port) := by show (196 : Nat) < 261; decide
theorem sleepIdleTimer (port : Nat) : Statement (.sleepIdleTimer port) := by show (197 : Nat) < 261; decide
theorem linkWake (port : Nat) : Statement (.linkWake port) := by show (198 : Nat) < 261; decide
theorem laneUnhealthy (port : Nat) (lane : Nat) : Statement (.laneUnhealthy port lane) := by show (199 : Nat) < 261; decide
theorem laneStepUp (port : Nat) (lane : Nat) : Statement (.laneStepUp port lane) := by show (200 : Nat) < 261; decide
theorem laneRecalDone (port : Nat) (ok : Bool) : Statement (.laneRecalDone port ok) := by show (201 : Nat) < 261; decide
theorem trainingDone (port : Nat) (lanes : BitVec 8) : Statement (.trainingDone port lanes) := by show (202 : Nat) < 261; decide
theorem trainingTimeout (port : Nat) : Statement (.trainingTimeout port) := by show (203 : Nat) < 261; decide
theorem identTimeout (port : Nat) : Statement (.identTimeout port) := by show (204 : Nat) < 261; decide
theorem lldpTimeout (port : Nat) : Statement (.lldpTimeout port) := by show (205 : Nat) < 261; decide
theorem lossOfSignal (port : Nat) : Statement (.lossOfSignal port) := by show (206 : Nat) < 261; decide
theorem frameForward (port : Nat) : Statement (.frameForward port) := by show (207 : Nat) < 261; decide
theorem ropeCallDue (slot : Nat) : Statement (.ropeCallDue slot) := by show (208 : Nat) < 261; decide
theorem ropeAckRepeat (slot : Nat) : Statement (.ropeAckRepeat slot) := by show (209 : Nat) < 261; decide
theorem ropeData (port : Nat) (p : Pkt) : Statement (.ropeData port p) := by show (210 : Nat) < 261; decide
theorem ropeConfirm (port : Nat) (p : Pkt) : Statement (.ropeConfirm port p) := by show (211 : Nat) < 261; decide
theorem ropeAck (port : Nat) (p : Pkt) : Statement (.ropeAck port p) := by show (212 : Nat) < 261; decide
theorem ropeAbort (port : Nat) (p : Pkt) : Statement (.ropeAbort port p) := by show (213 : Nat) < 261; decide
theorem ropePitchServe (tile : Nat) : Statement (.ropePitchServe tile) := by show (214 : Nat) < 261; decide
theorem pitchTimeout (slot : Nat) : Statement (.pitchTimeout slot) := by show (215 : Nat) < 261; decide
theorem ropeAbortRepeat (slot : Nat) : Statement (.ropeAbortRepeat slot) := by show (216 : Nat) < 261; decide
theorem ropeSlotFreed (slot : Nat) : Statement (.ropeSlotFreed slot) := by show (217 : Nat) < 261; decide
theorem freezeDrained (tenant : Nat) : Statement (.freezeDrained tenant) := by show (218 : Nat) < 261; decide
theorem freezeLimit (tenant : Nat) : Statement (.freezeLimit tenant) := by show (219 : Nat) < 261; decide
theorem stubExpiry (qpn : Nat) : Statement (.stubExpiry qpn) := by show (220 : Nat) < 261; decide
theorem cipherJobBegin (entry : Bytes) : Statement (.cipherJobBegin entry) := by show (221 : Nat) < 261; decide
theorem cipherJobDone (index : Nat) (how : JobEnd) : Statement (.cipherJobDone index how) := by show (222 : Nat) < 261; decide
theorem drbgReseed (drbg : Nat) (ok : Bool) : Statement (.drbgReseed drbg ok) := by show (223 : Nat) < 261; decide
theorem drbgStop (drbg : Nat) : Statement (.drbgStop drbg) := by show (224 : Nat) < 261; decide
theorem limiterStep (average : Nat) (hottest : Int) : Statement (.limiterStep average hottest) := by show (225 : Nat) < 261; decide
theorem powerSample (watts : Nat) : Statement (.powerSample watts) := by show (226 : Nat) < 261; decide
theorem thermalShutdown : Statement (.thermalShutdown) := by show (227 : Nat) < 261; decide
theorem vinEvent (band : VinBand) (mV : Nat) : Statement (.vinEvent band mV) := by show (228 : Nat) < 261; decide
theorem isolationLinkLoss : Statement (.isolationLinkLoss) := by show (229 : Nat) < 261; decide
theorem isolationLinkTimeout : Statement (.isolationLinkTimeout) := by show (230 : Nat) < 261; decide
theorem stageLost : Statement (.stageLost) := by show (231 : Nat) < 261; decide
theorem pwrEnAssert (mV : Nat) : Statement (.pwrEnAssert mV) := by show (232 : Nat) < 261; decide
theorem pwrEnDeassert : Statement (.pwrEnDeassert) := by show (233 : Nat) < 261; decide
theorem powerOn (env : PowerOnEnv) : Statement (.powerOn env) := by show (234 : Nat) < 261; decide
theorem clockLoss : Statement (.clockLoss) := by show (235 : Nat) < 261; decide
theorem clockLockReturn : Statement (.clockLockReturn) := by show (236 : Nat) < 261; decide
theorem clockHalt : Statement (.clockHalt) := by show (237 : Nat) < 261; decide
theorem serdesPllLoss (engine : Nat) : Statement (.serdesPllLoss engine) := by show (238 : Nat) < 261; decide
theorem pciePllLoss (p : Side) : Statement (.pciePllLoss p) := by show (239 : Nat) < 261; decide
theorem bivouacDrained : Statement (.bivouacDrained) := by show (240 : Nat) < 261; decide
theorem bivouacEntryTimeout : Statement (.bivouacEntryTimeout) := by show (241 : Nat) < 261; decide
theorem bivouacWake (cause : WakeCause) : Statement (.bivouacWake cause) := by show (242 : Nat) < 261; decide
theorem bivouacExitDone : Statement (.bivouacExitDone) := by show (243 : Nat) < 261; decide
theorem sensorUpdate (v : Sensors) : Statement (.sensorUpdate v) := by show (244 : Nat) < 261; decide
theorem traverseDieFollower (d : Side) : Statement (.traverseDieFollower d) := by show (245 : Nat) < 261; decide
theorem traverseRestartTimeout (d : Side) : Statement (.traverseRestartTimeout d) := by show (246 : Nat) < 261; decide
theorem microcodeUnitDrained (unit : Nat) : Statement (.microcodeUnitDrained unit) := by show (247 : Nat) < 261; decide
theorem microcodeDrainTimeout (unit : Nat) : Statement (.microcodeDrainTimeout unit) := by show (248 : Nat) < 261; decide
theorem tileLost (tile : Nat) : Statement (.tileLost tile) := by show (249 : Nat) < 261; decide
theorem ethFecUncorrectableRetrain (port : Nat) (worstLane : Nat) : Statement (.ethFecUncorrectableRetrain port worstLane) := by show (250 : Nat) < 261; decide
theorem adminDownDrainEnd (port : Nat) : Statement (.adminDownDrainEnd port) := by show (251 : Nat) < 261; decide
theorem tableCopyRebuilt (tenant : Nat) (extent : Nat) : Statement (.tableCopyRebuilt tenant extent) := by show (252 : Nat) < 261; decide
theorem priReset (p : Side) : Statement (.priReset p) := by show (253 : Nat) < 261; decide
theorem ibiAccept : Statement (.ibiAccept) := by show (254 : Nat) < 261; decide
theorem ibiDisabledTimeout : Statement (.ibiDisabledTimeout) := by show (255 : Nat) < 261; decide
theorem undervoltageRecovery : Statement (.undervoltageRecovery) := by show (256 : Nat) < 261; decide
theorem inputInRange (mV : Nat) : Statement (.inputInRange mV) := by show (257 : Nat) < 261; decide
theorem powerOnHoldoff : Statement (.powerOnHoldoff) := by show (258 : Nat) < 261; decide
theorem isolationLinkReturn : Statement (.isolationLinkReturn) := by show (259 : Nat) < 261; decide
theorem centreRuntimeRestartDone : Statement (.centreRuntimeRestartDone) := by show (260 : Nat) < 261; decide

end Sys2Proof.Laws.TableRow
end

