-- ==== Sys2Proof/Laws/Tables.lean ====
section
/-! SUPPORT. Reads after updates of lists, pairs and sparse tables. -/

namespace Sys2Proof

@[simp] theorem modAt_length {α : Type} (l : List α) (i : Nat) (f : α → α) : (modAt l i f).length = l.length := by
  induction l generalizing i with
  | nil => rfl
  | cons x r ih => cases i <;> simp [modAt, ih]

theorem modAt_getElem? {α : Type} (l : List α) (i j : Nat) (f : α → α) :
    (modAt l i f)[j]? = if j = i then l[j]?.map f else l[j]? := by
  induction l generalizing i j with
  | nil => simp [modAt]
  | cons x r ih =>
    cases i <;> cases j <;> simp [modAt, ih]

theorem modAt_modAt {α : Type} (l : List α) (i : Nat) (f g : α → α) : modAt (modAt l i f) i g = modAt l i (fun x => g (f x)) := by
  induction l generalizing i with
  | nil => rfl
  | cons x r ih => cases i <;> simp [modAt, ih]

namespace Machine

theorem nth_modAt_self {α : Type} (l : List α) (i : Nat) (f : α → α) (d : α) (h : i < l.length) : nth (modAt l i f) i d = f (nth l i d) := by
  unfold nth
  rw [modAt_getElem?, if_pos rfl, List.getElem?_eq_getElem h]
  rfl

theorem nth_modAt_other {α : Type} (l : List α) (i j : Nat) (f : α → α) (d : α) (h : j ≠ i) : nth (modAt l i f) j d = nth l j d := by
  simp [nth, modAt_getElem?, h]

end Machine

@[simp] theorem Pair.get_set_self {α : Type} (p : Pair α) (s : Side) (x : α) : (p.set s x).get s = x := by cases s <;> rfl

@[simp] theorem Pair.get_set_other {α : Type} (p : Pair α) (s : Side) (x : α) : (p.set s.other x).get s = p.get s := by cases s <;> rfl

@[simp] theorem Pair.set_get_other {α : Type} (p : Pair α) (s : Side) (x : α) : (p.set s x).get s.other = p.get s.other := by cases s <;> rfl

@[simp] theorem Pair.get_upd_self {α : Type} (p : Pair α) (s : Side) (f : α → α) : (p.upd s f).get s = f (p.get s) := by cases s <;> rfl

theorem Tab.get?_upd_self {α : Type} (t : Tab α) (n : Nat) (f : α → α) : Tab.get? (Tab.upd t n f) n = (Tab.get? t n).map f := by
  induction t with
  | nil => rfl
  | cons x r ih =>
    obtain ⟨k, y⟩ := x
    by_cases h : k = n <;> simp [Tab.upd, Tab.get?, h, ih]

theorem Tab.get?_upd_other {α : Type} (t : Tab α) (n m : Nat) (f : α → α) (h : m ≠ n) : Tab.get? (Tab.upd t n f) m = Tab.get? t m := by
  induction t with
  | nil => rfl
  | cons x r ih =>
    obtain ⟨k, y⟩ := x
    by_cases hk : k = n
    · simp [Tab.upd, Tab.get?, hk, Ne.symm h]
    · by_cases hm : k = m
      · subst hm; simp [Tab.upd, Tab.get?, h]
      · simp [Tab.upd, Tab.get?, hk, hm, ih]

theorem Tab.get?_set_self {α : Type} (t : Tab α) (n : Nat) (x : α) : Tab.get? (Tab.set t n x) n = some x := by
  induction t with
  | nil => simp [Tab.set, Tab.get?]
  | cons y r ih =>
    obtain ⟨k, y⟩ := y
    by_cases h : n < k
    · simp [Tab.set, Tab.get?, h]
    · by_cases h' : n = k
      · simp [Tab.set, Tab.get?, h']
      · simp [Tab.set, Tab.get?, h, h', Ne.symm h', ih]

theorem Tab.get?_set_other {α : Type} (t : Tab α) (n m : Nat) (x : α) (h : m ≠ n) : Tab.get? (Tab.set t n x) m = Tab.get? t m := by
  induction t with
  | nil => simp [Tab.set, Tab.get?, Ne.symm h]
  | cons y r ih =>
    obtain ⟨k, y⟩ := y
    by_cases h1 : n < k
    · simp [Tab.set, Tab.get?, h1, Ne.symm h]
    · by_cases h2 : n = k
      · subst h2; simp [Tab.set, Tab.get?, Ne.symm h]
      · by_cases h3 : k = m
        · subst h3; simp [Tab.set, Tab.get?, h1, h2]
        · simp [Tab.set, Tab.get?, h1, h2, h3, ih]

theorem Tab.get?_erase_other {α : Type} (t : Tab α) (n m : Nat) (h : m ≠ n) : Tab.get? (Tab.erase t n) m = Tab.get? t m := by
  induction t with
  | nil => rfl
  | cons y r ih =>
    obtain ⟨k, y⟩ := y
    by_cases hk : k = n
    · simp [Tab.erase, Tab.get?, hk, Ne.symm h]
    · by_cases hm : k = m
      · subst hm; simp [Tab.erase, Tab.get?, h]
      · simp [Tab.erase, Tab.get?, hk, hm, ih]

end Sys2Proof
end

