-- ==== Sys2Proof/Tests/Slice0.lean ====
section
/-! SUPPORT. Tests of single steps, the refusals of WellFormed, and for every statement with hypotheses a state that meets them. -/

namespace Sys2Proof.Tests

open Sys2Proof.Machine

set_option Elab.async false

-- Helpers

/-- Bytes built from fields: offset, size, value. -/
def pb (l : List (Nat × Nat × Nat)) : Bytes := l.foldl (fun b (o, n, v) => patch b o (toLE n v)) (zpad 128)

/-- The device just powered: rails on, the rest at reset. -/
def bare : Dev := { pwr := { rails := .on } }

def tenPar : TenParams :=
  { port := .west, pasid := some 5, mgmtW := true, mgmtE := true, acceptList := false, accept := [], memUnits := 1000, winCount := 16, ropes := 4,
    winSlabs := 100, qpMax := 10, cqMax := 10, msgLimit := 1048576, fetchWeight := 1, opWeight := 1, opCtxLimit := 4, evqAddr := 0x10000#64, evqLog2 := 8,
    evqVector := 7#16, createFrozen := false }

def ten1 : Tenant := { par := tenPar, st := .active }

/-- A running device: CDW leads, both host links up, the stacks ONLINE, tenants 1 and 2, a mapped allocation, a completion queue. -/
def base : Dev :=
  { pwr := { rails := .on }
    ctl := { dies := ⟨.leader, .follower⟩, hasps := { epoch := 1#32, token := 1#16, holder := some (.die .west) } :: List.replicate 63 {}, lease := 1000 }
    host := ⟨{ linkUp := true, busMaster := true, width := 16, gen := 6 }, { linkUp := true, busMaster := true, width := 16, gen := 6 }⟩
    mem := { stk := List.replicate 32 { mode := .online }, allocs := [(5, ⟨1, [⟨0, 4⟩], false, false⟩)], nextHandle := 6 }
    xlt := { tables := [(1, { maps := [⟨0, 0x400000, 5, 0, 12, true, true⟩] })] }
    q := { cqs := [(0, { tenant := 1, log2 := 4, vector := 9#16, addr := BitVec.ofNat 64 (2 ^ 63 + 0x300000), stallMs := 10 })] }
    ten := { tenants := [(1, ten1), (2, ten1)], copies := List.replicate 10 [(1, tenPar), (2, tenPar)] } }

def st (d : Dev) : State := { pending := [], dev := d }

/-- The slot that witnesses use. -/
def c0 : CmdSlot := .ring .west 0

def mkCmd (op : Nat) (p : Bytes) (stage : CmdStage) : Cmd :=
  { hdr := ⟨BitVec.ofNat 16 op, 2#8, 0x80, 0, 1#64, 0, 0#16, 0#32⟩, params := p, idx := 0, stage := stage, order := 0, visible := 0 }

/-- A command of that opcode has begun on it. -/
def withCmd (op : Nat) (p : Bytes) (d : Dev) : Dev := d.onRing .west 0 fun r => { r with cmd := some (mkCmd op p .begun) }

def runsCmd (op : Nat) (d : Dev) : Dev := d.onRing .west 0 fun r => { r with cmd := some (mkCmd op [] .running) }

theorem begun_of {d : Dev} {c : CmdSlot} {op : Nat} {p : Bytes}
    (h : ((leader d).isSome && match cmdAt d c with | some m => decide (m.stage = .begun ∧ m.hdr.opcode = BitVec.ofNat 16 op ∧ m.params = p) | none => false) = true) :
    CmdBegun d c op p := by
  rw [Bool.and_eq_true] at h
  obtain ⟨l, h⟩ := h
  refine ⟨l, ?_⟩
  split at h
  · rename_i m hm; exact ⟨m, hm, of_decide_eq_true h⟩
  · cases h

theorem die_free {d : Dev} {k : Nat} (h : mgtOpen d k = true) (g : d.fab.crossings = []) : DieFree d k :=
  ⟨h, fun c hc => by rw [g] at hc; cases hc⟩

theorem not_crosses {d : Dev} {u : Flit} {n : Nat} (g : flowOpen d.fab u n = false) : ¬ Crosses d u n := fun h => by
  rw [Crosses, g] at h; cases h

theorem ex_of {α : Type} {f : Option α} {P : α → Prop} [∀ x, Decidable (P x)] (h : (match f with | some x => decide (P x) | none => false) = true) : ∃ x, f = some x ∧ P x := by
  split at h
  · rename_i x; exact ⟨x, rfl, of_decide_eq_true h⟩
  · cases h

-- WellFormed refuses each operand out of its range

theorem smoke_port : Instr.wf (.linkWake 16) = false ∧ Instr.wf (.linkWake 15) = true := by decide
theorem smoke_tile : Instr.wf (.mergeSpaceGrant 8) = false ∧ Instr.wf (.mergeSpaceGrant 7) = true := by decide
theorem smoke_stack : Instr.wf (.memCe 32) = false ∧ Instr.wf (.memCe 31) = true := by decide
theorem smoke_chimney : Instr.wf (.chimneyFail 0 128) = false ∧ Instr.wf (.chimneyFail 0 127) = true := by decide
theorem smoke_qp : Instr.wf (.packetSend 65536) = false ∧ Instr.wf (.packetSend 65535) = true := by decide
theorem smoke_cq : Instr.wf (.cqStallLimit 16384) = false ∧ Instr.wf (.cqStallLimit 16383) = true := by decide
theorem smoke_tenant : Instr.wf (.freezeDrained 256) = false ∧ Instr.wf (.freezeDrained 255) = true := by decide
theorem smoke_rope : Instr.wf (.ropeCallDue 64) = false ∧ Instr.wf (.ropeCallDue 63) = true := by decide
theorem smoke_window : Instr.wf (.windowDrained 16384) = false ∧ Instr.wf (.windowDrained 16383) = true := by decide
theorem smoke_ring : Instr.wf (.cmdRingEnable .west .west 4 0#32) = false ∧ Instr.wf (.cmdRingEnable .west .west 3 0#32) = true := by decide
theorem smoke_slot : Instr.wf (.deviceInfo (.ring .east 4)) = false ∧ Instr.wf (.deviceInfo .sideband) = true := by decide
theorem smoke_hasp : Instr.wf (.haspAcquire (.port .west) 64 1#16) = false ∧ Instr.wf (.haspAcquire (.port .west) 63 1#16) = true := by decide
theorem smoke_mailbox : Instr.wf (.mbxTimeout 6) = false ∧ Instr.wf (.mbxTimeout 5) = true := by decide
theorem smoke_lane : Instr.wf (.laneUnhealthy 0 8) = false ∧ Instr.wf (.laneUnhealthy 0 7) = true := by decide
theorem smoke_segment : Instr.wf (.segmentDown 4) = false ∧ Instr.wf (.segmentDown 3) = true := by decide
theorem smoke_path : Instr.wf (.pathHoldExpiry 0 64) = false ∧ Instr.wf (.pathHoldExpiry 0 63) = true := by decide
theorem smoke_drbg : Instr.wf (.drbgStop 17) = false ∧ Instr.wf (.drbgStop 16) = true := by decide
theorem smoke_width : Instr.wf (.hostLinkUp .west 3 6 true) = false ∧ Instr.wf (.hostLinkUp .west 8 6 true) = true := by decide
theorem smoke_gen : Instr.wf (.hostLinkUp .west 8 8 true) = false ∧ Instr.wf (.hostLinkUp .west 8 7 true) = true := by decide
theorem smoke_bar : Instr.wf (.registerWrite (.bar .west) 0x4000000 4 0#64 0#16) = false ∧ Instr.wf (.registerWrite (.bar .west) 0x3FFFFFC 4 0#64 0#16) = true := by decide
theorem smoke_offset : Instr.wf (.stackWrite 0 (2 ^ 36) ⟨[], []⟩ .other) = false ∧ Instr.wf (.stackWrite 0 0 ⟨[], []⟩ .other) = true := by decide
theorem smoke_symbols : Instr.wf (.patrolScrub 0 37) = false ∧ Instr.wf (.patrolScrub 0 36) = true := by decide
theorem smoke_group : Instr.wf (.priResponse .west 512 .success) = false ∧ Instr.wf (.priResponse .west 511 .success) = true := by decide
theorem smoke_pasid : Instr.wf (.atsInvalidation .west (2 ^ 20) 0 0) = false ∧ Instr.wf (.atsInvalidation .west 0 0 0) = true := by decide
theorem smoke_vector : Instr.wf (.msiXUnmask .west (some 2048)) = false ∧ Instr.wf (.msiXUnmask .west none) = true := by decide
theorem smoke_block : Instr.wf (.idle 0 ⟨0#64, List.replicate 245 0#8, 0#32⟩) = false ∧ Instr.wf (.idle 0 ⟨0#64, List.replicate 244 0#8, 0#32⟩) = true := by
  decide +kernel
theorem smoke_queue : Instr.wf (.creditQueueSend ⟨14, .req, 0⟩) = false ∧ Instr.wf (.creditQueueSend ⟨13, .req, 0⟩) = true := by decide
theorem smoke_sender : Instr.wf (.ackTimer (.rope 64)) = false ∧ Instr.wf (.ackTimer (.rope 63)) = true := by decide
theorem smoke_refetch : Instr.wf (.phaseRefetch (.sq 65536) []) = false ∧ Instr.wf (.phaseRefetch .job []) = true := by decide
theorem smoke_target : Instr.wf (.hostReqFailed (.cqWrite 16384)) = false ∧ Instr.wf (.hostReqFailed (.req 0)) = true := by decide
theorem smoke_table : Instr.wf (.replicatedTableWrite 0 0#32 (.nodeEntry 4096 (zpad 32))) = false
    ∧ Instr.wf (.replicatedTableWrite 0 0#32 (.nodeEntry 4095 (zpad 32))) = true := by decide
theorem smoke_payload : Instr.wf (.write 0 { payload := List.replicate 8193 0#8 }) = false ∧ Instr.wf (.write 0 { payload := List.replicate 8192 0#8 }) = true := by
  decide +kernel
theorem smoke_waiter : Instr.wf (.translationWalkDone 0 0 0#64 false (.cqWrite 16384)) = false ∧ Instr.wf (.translationWalkDone 0 0 0#64 false (.cqWrite 16383)) = true := by decide


-- Witnesses: the block, registers, command rings, leadership

theorem wit_IdleStep : base.On ∧ (∀ x ∈ base.ciph.cores, x.load = 0) ∧ (∀ j ∈ base.ciph.jobs, j.left = 0) ∧ ({} : Dev).pwr.rails = .off := ⟨rfl, by decide +kernel, by decide +kernel, rfl⟩
theorem wit_RailsOffInert : (st {}).dev.pwr.rails = .off ∧ ¬ powerPin (.leaseRenewal) := ⟨rfl, id⟩

/-- Width 2, an address off its alignment, and both ends of the first unassigned range of BAR0. -/
theorem wit_BadRegisterWrites_a : base.On ∧ 0x3FFFFFE < 0x4000000 ∧ ((2 ≠ 4 ∧ 2 ≠ 8) ∨ 0x3FFFFFE % 2 ≠ 0) ∧ ((8 ≠ 4 ∧ 8 ≠ 8) ∨ 0x44 % 8 ≠ 0) := ⟨rfl, by decide⟩
theorem wit_BadRegisterWrites_b : base.On ∧ 0xFFFFC < 0x4000000 ∧ 0xB0000 % 8 = 0 ∧ 0xFFFFC % 4 = 0 ∧ 0xB0000 ≤ 0xFFFFC ∧ 0xFFFFC < 0x100000 := ⟨rfl, by decide⟩
theorem wit_BadRegisterWrites_c : base.On ∧ 0x44000 % 8 = 0 ∧ 0x44000 < 0x48000 ∧ 0x51FFC % 4 = 0 ∧ 0x51FFC < 0x52000 ∧ 0x1008 % 32 = 8 := ⟨rfl, by decide⟩
theorem wit_BadRegisterWrites_e : assigned 0xB0000 = false ∧ (0xB0000 : Nat) < 0x4000000 ∧ (0xB0000 : Nat) % 8 = 0 ∧ assigned 0x20008 = true ∧ dieOf 0x20008 = none
    ∧ mbxAt 0x20008 = none ∧ (0x20008 : Nat) % 8 = 0 ∧ (2 : Nat) ≠ 4 ∧ (2 : Nat) ≠ 8 := by decide
theorem wit_BadRegisterWrites_d : DieFree base ((0x13FC - 0x1000) / 32) ∧ 0x1000 ≤ 0x13FC ∧ 0x13FC < 0x1400 ∧ 8 ≤ 0x13FC % 32 ∧ 0x13FC % 4 = 0 :=
  ⟨die_free (by decide +kernel) rfl, by decide⟩

/-- An earlier write to the base die of stack 31 waits. -/
def dieD : Dev := base.onFab fun f => { f with crossings := [⟨⟨.mgt, 7, 7⟩, inMgt, some 31, .register ⟨.west, 0x13E0, 4, some (0#64, 0#16)⟩⟩] }
theorem wit_RegisterWriteFields_a : base.On ∧ 31 < 32 ∧ DieFree base 31 ∧ dieD.On ∧ ¬ DieFree dieD 31 :=
  ⟨rfl, by decide, die_free (by decide +kernel) rfl, rfl, fun h => h.2 _ (List.mem_singleton.mpr rfl) rfl⟩
def hasp4 (h : Option Agent) : Dev := base.onCtl fun c => { c with hasps := c.hasps.set 4 { epoch := 1#32, token := 2#16, holder := h } }
theorem wit_RegisterWriteFields_b : (hasp4 none).On ∧ ((hasp4 none).hasp 4).holder ≠ some (.port .west)
    ∧ (hasp4 (some (.port .west))).On ∧ ((hasp4 (some (.port .west))).hasp 4).holder = some (.port .west) := ⟨rfl, by decide +kernel, rfl, by decide +kernel⟩

theorem wit_RegisterWriteFields_c : leader base = some .west ∧ leader base ≠ some .east ∧ 0 < 6 ∧ (50#64).toNat = 50 ∧ (64000000#64).toNat = 64000000
    ∧ (49#64).toNat < 50 ∧ 64000000 < (64000001#64).toNat ∧ AerError.completerAbort ∉ (base.host.get .west).aer.masked
    ∧ AerError.completerAbort ∈ ((base.onHost .west fun h => { h with aer := { h.aer with masked := [.completerAbort] } }).host.get .west).aer.masked := by decide +kernel

/-- Ring 0 of the west port, 16 slots, enabled, one command waiting at index 0. -/
def ringD : Dev := base.onRing .west 0 fun r => { r with enable := true, prod := 1#16, base := 0x10000#64, replyBase := 0x20000#64 }

/-- The producer index at the edges: equal, one ring ahead, one beyond it, behind, out of range. -/
theorem wit_CommandRingRegisters : ringD.On ∧
    (let r := ringD.ring .west 0
     let n := ringSlots r
     n = 16 ∧ r.enable = true
      ∧ (∀ i ∈ [1, 16], i < 2 * n ∧ ringSub n i r.cons.toNat ≤ n ∧ ringSub n r.prod.toNat r.cons.toNat ≤ ringSub n i r.cons.toNat)
      ∧ 2 * n ≤ 32 ∧ n < ringSub n 17 r.cons.toNat ∧ ringSub n 0 r.cons.toNat < ringSub n r.prod.toNat r.cons.toNat
      ∧ (base.ring .west 0).enable = false) := ⟨rfl, by decide +kernel⟩

/-- A packet of DEVICE_INFO whose PHASE is that of index 0. -/
def pktInfo : Bytes := pb [(0, 2, 0x101), (2, 1, 3), (3, 1, 1), (4, 2, 0x50), (8, 8, 77), (0x40, 8, 2 ^ 63 + 0x1000)]

theorem wit_CommandFetchedAndBegun_a : ringD.On ∧ (leader ringD).isSome ∧ ringD.ctl.handover = none
    ∧ 0 < (ringD.ctl.rings.get .west).length ∧ 0 < 9 ∧ slotOf 0 = .ring .west 0
    ∧ ((List.range 9).map fun j => (ringD.ctl.turn + 1 + j) % 9).find? (fun j => fetchReady ringD (slotOf j)) = some 0
    ∧ tb (u8 pktInfo 2) 0 = phaseOf (ringSlots (ringD.ring .west 0)) (ringD.ring .west 0).cons.toNat
    ∧ packetCheck (.ring .west 0) pktInfo = none ∧ (parseHdr pktInfo).deadline = 0 ∧ (ringD.host.get .west).heldWrites = []
    ∧ tb (u8 (pb []) 2) 0 ≠ phaseOf (ringSlots (ringD.ring .west 0)) (ringD.ring .west 0).cons.toNat
    ∧ tb (u8 (pb [(2, 1, 1)]) 2) 0 = phaseOf (ringSlots (ringD.ring .west 0)) (ringD.ring .west 0).cons.toNat
    ∧ packetCheck (.ring .west 0) (pb [(2, 1, 1)]) ≠ none := ⟨rfl, by decide +kernel⟩

/-- The same packet waits at the sideband. -/
def sideD : Dev := base.onSide fun x => { x with request := some pktInfo }
theorem wit_CommandFetchedAndBegun_c : sideD.On ∧ (leader sideD).isSome ∧ sideD.ctl.handover = none ∧ slotOf 8 = .sideband
    ∧ ((List.range 9).map fun j => (sideD.ctl.turn + 1 + j) % 9).find? (fun j => fetchReady sideD (slotOf j)) = some 8
    ∧ sideD.ctl.side.request = some pktInfo ∧ 64 ≤ pktInfo.length ∧ tb (u8 pktInfo 2) 0 = true ∧ packetCheck .sideband pktInfo = none := ⟨rfl, by decide +kernel⟩

def waits (m : Cmd) : Dev := ringD.onRing .west 0 fun r => { r with cmd := some m }
def mInfo : Cmd := mkCmd 0x101 (zpad 16) .fetched
def mLate : Cmd := { mInfo with hdr := { mInfo.hdr with deadline := 1 } }
theorem wit_CommandFetchedAndBegun_b : (waits mInfo).On ∧ cmdAt (waits mInfo) c0 = some mInfo ∧ mInfo.stage = .fetched ∧ (leader (waits mInfo)).isSome
    ∧ (waits mInfo).ctl.handover = none ∧ (waits mInfo).pwr.state = .active ∧ tenantHeld (waits mInfo) mInfo = false
    ∧ holdsFree (waits mInfo) c0 mInfo = true ∧ haspCheck (waits mInfo) .west mInfo = none
    ∧ cmdAt (waits mLate) c0 = some mLate ∧ mLate.stage = .fetched ∧ mLate.hdr.deadline ≠ 0 := ⟨rfl, by decide +kernel⟩

/-- A command of the sideband waits to begin. -/
def sideWaits (m : Cmd) : Dev := base.onSide fun x => { x with cmd := some m }
def mErase : Cmd := mkCmd 0x802 (zpad 8) .fetched
theorem wit_CommandFetchedAndBegun_d : ∀ m ∈ [mInfo, mErase], cmdAt (sideWaits m) .sideband = some m ∧ m.stage = .fetched ∧ leader (sideWaits m) = some .west
    ∧ (sideWaits m).ctl.handover = none ∧ (sideWaits m).pwr.state = .active ∧ tenantHeld (sideWaits m) m = false ∧ holdsFree (sideWaits m) .sideband m = true := by
  decide +kernel
theorem wit_CommandFetchedAndBegun_e : haspNeeded mInfo.hdr.opcode.toNat mInfo.params = 0 ∧ haspNeeded mErase.hdr.opcode.toNat mErase.params = 4
    ∧ 4 < base.ctl.hasps.length ∧ ((sideWaits mErase).hasp 4).holder = none ∧ ((hasp4 (some (.die .west))).hasp 4).holder = some (.die .west)
    ∧ ((hasp4 (some (.port .east))).hasp 4).holder = some (.port .east) ∧ Agent.port .east ≠ Agent.die .west := by decide +kernel
/-- The device sleeps, and the command that waits needs it awake. -/
def asleepC : Dev := (waits mErase).onPwr fun p => { p with state := .bivouac }
theorem wit_CommandFetchedAndBegun_f : asleepC.On ∧ cmdAt asleepC c0 = some mErase ∧ leader asleepC = some .west ∧ asleepC.pwr.state = .bivouac
    ∧ tenantHeld asleepC mErase = false ∧ holdsFree asleepC c0 mErase = true ∧ asleepOk mErase.hdr.opcode.toNat = false ∧ withdraws mErase = false
    ∧ haspCheck (waits mErase) .west mErase = some (stNotOwner, 0x8010) := ⟨rfl, by decide +kernel⟩
theorem wit_CommandFetchedAndBegun_g : cmdAt base c0 = none ∧ (∀ j < 9, fetchReady base (slotOf j) = false) := by decide +kernel

theorem wit_ReplyWritten_b : cmdAt (sideWaits (mkCmd 0x101 [] .begun)) .sideband = some (mkCmd 0x101 [] .begun)
    ∧ (leader (sideWaits (mkCmd 0x101 [] .begun))).isSome ∧ (mkCmd 0x101 [] .begun).hdr.hasp = 0 := by decide +kernel
theorem wit_ReplyWritten : let d := waits (mkCmd 0x101 [] .begun)
    let m := mkCmd 0x101 [] .begun
    cmdAt d c0 = some m ∧ m.orphan = false ∧ (leader d).isSome ∧ canIssue d .west = true ∧ (d.host.get .west).heldWrites = [] ∧ 0 < (d.ctl.rings.get .west).length
    ∧ tb m.hdr.hflags.toNat 1 = true ∧ (d.ring .west 0).stopping = false := by decide +kernel

def dies (w e : DieState) (h : Option Agent) : Dev :=
  base.onCtl fun c => { c with dies := ⟨w, e⟩, hasps := c.hasps.set 0 { epoch := 1#32, token := 0#16, holder := h } }
theorem wit_LeadershipRules_a : base.On ∧ (leader base).isSome
    ∧ (dies .fenced .lost (some (.die .west))).On ∧ ((dies .fenced .lost (some (.die .west))).hasp 0).holder = some (.die .west)
    ∧ (dies .fenced .lost (some (.die .west))).ctl.dies.get .west = .fenced ∧ 0 < (dies .fenced .lost (some (.die .west))).ctl.hasps.length
    ∧ (dies .fenced .lost (some (.die .west))).ctl.dies.get .east ≠ .follower
    ∧ (dies .fenced .follower (some (.die .west))).ctl.dies.get .west = .fenced
    ∧ (dies .fenced .follower (some (.die .west))).ctl.dies.get .east = .follower := ⟨rfl, by decide +kernel, rfl, by decide +kernel⟩
theorem wit_ReplyWritten_c : leader (dies .fenced .follower (some (.die .west))) = none := by decide +kernel
theorem wit_LeadershipRules_b : (dies .starting .starting none).On ∧ (dies .starting .starting none).ctl.dies.w = .starting
    ∧ (dies .starting .starting none).ctl.dies.e = .starting ∧ ((dies .starting .starting none).hasp 0).holder = none
    ∧ (dies .starting .starting (some (.die .east))).ctl.dies.w = .starting ∧ (dies .starting .starting (some (.die .west))).ctl.dies.e = .starting
    ∧ ((dies .starting .starting (some (.die .east))).hasp 0).holder ≠ none := ⟨rfl, by decide +kernel⟩
theorem wit_LeadershipRules_c : base.On ∧ base.ctl.hasps.length = 64 ∧ base.svc.traverse = none ∧ base.ctl.dies.get .west = .leader
    ∧ base.ctl.dies.get .east = .follower ∧ base.ctl.dies.get .east ≠ .lost ∧ (dies .fenced .leader (some (.die .east))).ctl.dies.get .west = .fenced
    ∧ ((dies .fenced .leader (some (.die .east))).hasp 0).holder ≠ none := ⟨rfl, by decide +kernel⟩

-- Hasps, mailboxes, doorbells

theorem wit_HaspAndLatch_a : base.On ∧ 0 < 63 ∧ 63 < 64 ∧ 1#16 ≠ 0#16 ∧ base.ctl.hasps.length = 64 ∧ (base.hasp 63).holder = none
    ∧ ((hasp4 (some (.port .east))).hasp 4).holder = some (.port .east) ∧ ((hasp4 (some (.port .east))).hasp 4).token = 2#16
    ∧ ((hasp4 (some (.port .east))).hasp 4).token ≠ 1#16 ∧ ((hasp4 (some (.port .east))).hasp 4).holder ≠ none := ⟨rfl, by decide +kernel⟩
def latched (e : Bool) : Dev := base.onCiph fun c => { c with latch := { epoch := 1#32, token := 3#16, holder := some (.port .west) }, enable := e, owner := some (.port .west) }
theorem wit_HaspAndLatch_b : base.On ∧ base.ciph.latch.holder = none ∧ (latched false).On ∧ (latched false).ciph.latch.holder = some (.port .west)
    ∧ (latched false).ciph.latch.token = 3#16 ∧ (latched false).ciph.enable = false ∧ (latched true).ciph.enable = true := ⟨rfl, by decide +kernel, rfl, by decide +kernel⟩

def mbxFull : Dev := base.onCtl fun c => { c with mbx := List.replicate 6 { word := 5#64, full := true } }
theorem wit_MailboxRules : base.On ∧ base.ctl.mbx.length = 6 ∧ mbxFull.On ∧ mbxFull.ctl.mbx.length = 6
    ∧ (∀ k ∈ [4, 5], k < 6 ∧ (∃ p ∈ [Side.west, .east], mbxSender k = some p) ∧ (∃ p ∈ [Side.west, .east], mbxReceiver k = some p)
      ∧ (base.mbx k).full = false ∧ (mbxFull.mbx k).full = true) := ⟨rfl, by decide +kernel, rfl, by decide +kernel⟩
/-- The leading control die sends by mailbox 0 and receives by mailbox 1, or the other way. -/
theorem wit_MailboxRules_b : leader base = some .west ∧ leader mbxFull = some .west ∧ (∃ k < 6, mbxSender k = none) ∧ (∃ k < 6, mbxReceiver k = none) := by
  decide +kernel

def qp1 : Qp := { par := ⟨1, .v2, 1, false, false, false, 0x40000#64, 0x50000#64, 4, 4, 0, 0⟩, st := .rts, conn := { peerNode := 7#16, peerQpn := 9#32 } }
def bellD : Dev := base.onQ fun q => { q with qps := [(0, qp1)] }
/-- No unit leaves the tile on its way to tile 4. -/
def shut (u : Flit) (d : Dev) : Dev := d.onFab fun f => { f with waiting := [⟨u, 0⟩] }
theorem wit_DoorbellsTake_c : Crosses bellD (bellFlow .west (qpTile 0 % 8)) inHost ∧ Crosses bellD (bellFlow .west (cqTile 0 % 8)) inHost
    ∧ ¬ Crosses (shut (bellFlow .east 0) bellD) (bellFlow .east (qpTile 0 % 8)) inHost :=
  ⟨by unfold Crosses; decide +kernel, by unfold Crosses; decide +kernel, not_crosses (by decide +kernel)⟩
theorem wit_DoorbellsTake_a : bellD.On ∧ bellD.pwr.state = .active ∧ pageTenant bellD .west 0#16 1 = some ten1 ∧ ten1.st = .active
    ∧ bellD.qp? (0#16).toNat = some qp1 ∧ qp1.par.tenant = 1 ∧ qp1.st = .rts ∧ qp1.par.sqStanding = false ∧ qp1.par.noRq = false ∧ qp1.par.rqStanding = false
    ∧ prodOk (sqSize qp1) qp1.sq.p qp1.sq.c 16 = true ∧ prodOk (rqSize qp1) qp1.rq.p qp1.rq.c 16 = true ∧ prodOk (sqSize qp1) qp1.sq.p qp1.sq.c 17 = false := ⟨rfl, by decide +kernel⟩
def cq0 (p : Nat) : Cq := { tenant := 1, log2 := 4, vector := 9#16, addr := 0x1000#64, stallMs := 10, p := p }
def cqD (p : Nat) : Dev := base.onQ fun q => { q with cqs := [(0, cq0 p)] }
theorem wit_DoorbellsTake_b : (cqD 16).cq? 0 = some (cq0 16) ∧ (cq0 16).tenant = 1 ∧ consOk (cqSize (cq0 16)) (cq0 16).p (cq0 16).c 16 = true
    ∧ (cqD 16).ten? 1 = some ten1 ∧ consOk (evSize ten1) ten1.ev.p ten1.ev.c 0 = true ∧ (cq0 0).vector ≠ 0xFFFF#16 ∧ (cqD 0).cq? 0 = some (cq0 0)
    ∧ (cq0 0).p = (cq0 0).c ∧ (cq0 1).p ≠ (cq0 1).c ∧ pageTenant base .east 0#16 1 = none ∧ pageTenant base .west 0#16 255 = none := by decide +kernel

-- Host ports and the sideband

theorem wit_PortEvents : base.On ∧ (base.host.get .east).linkUp = true := ⟨rfl, rfl⟩
def msixD : Dev := base.onHost .west fun h => { h with msix := [(2047, { addr := 0x1000#64, data := 1#32, masked := true, pending := true })] }
theorem wit_HostPortConditions : msixD.On ∧ 2047 < 2048 ∧ (msixEntry msixD .west 2047).pending = true ∧ (msixEntry msixD .west 2047).addr ≠ 0#64
    ∧ (msixD.host.get .west).funcMask = false ∧ canIssue msixD .west = true := ⟨rfl, by decide +kernel⟩
def hostX : Xfer := { qpn := 0, idx := 0, tile := 0, entry := zpad 64, legs := [{ src := .host .west none 0x1000, dst := .dev 0, len := 64, hostTag := some 3 }] }
def hostR : HostReq := ⟨.west, 0x1000, 64, .leg 2 0, none, true, 0⟩
/-- 50 ms after hostR was sent. -/
def lateHost (d : Dev) : Dev := d.onPwr fun p => { p with tsc := 25000000#64 }
def hostD : Dev := bellD.onQ fun q => { q with xfers := [(2, hostX)], hostReqs := [(3, hostR)] }
theorem wit_HostCompletions : hostD.On ∧ hostD.q.hostReqs.get? 3 = some hostR ∧ hostR.sent = true ∧ hostR.use = .leg 2 0 ∧ hostD.q.xfers.get? 2 = some hostX
    ∧ hostR.at_ + usTicks ((lateHost hostD).host.get hostR.port).config.completionTimeout ≤ now (lateHost hostD) := ⟨rfl, by decide +kernel⟩
def hostE : Dev := bellD.onQ fun q => { q with xfers := [(2, hostX)], hostReqs := [(3, { hostR with port := .east })] }
def hostU : Flit := ⟨.rsp, (hostTile hostE .east (hostOwner hostE (.leg 2 0))).getD (hostOwner hostE (.leg 2 0)), hostOwner hostE (.leg 2 0)⟩
theorem wit_HostCompletions_b : Crosses hostD ⟨.rsp, (hostTile hostD .west (hostOwner hostD (.leg 2 0))).getD (hostOwner hostD (.leg 2 0)), hostOwner hostD (.leg 2 0)⟩ inHost
    ∧ hostE.q.hostReqs.get? 3 = some { hostR with port := .east } ∧ ¬ Crosses (shut hostU hostE) hostU inHost :=
  ⟨by unfold Crosses; decide +kernel, by decide +kernel, not_crosses (by decide +kernel)⟩
def ibiD : Dev := base.onSide fun x => { x with ibi := [3] }
theorem wit_SidebandRules : ibiD.On ∧ ibiD.ctl.side.ibi = 3 :: [] ∧ ibiD.ctl.side.cmd = none ∧ ibiD.ctl.side.request = none
    ∧ eidSet [0x80#8, 1#8, 0#8, 9#8] = some 9#8 ∧ eidSet [0x80#8, 2#8] = none ∧ i3cStatic ibiD = 0x30#7 := ⟨rfl, by decide +kernel⟩

-- Witnesses: translation, faults, windows

theorem wit_CairnRegisters : base.On ∧ (base.xlt.ports.get .west).enable = false
    ∧ (let d := base.onXPort .west fun x => { x with enable := true, prod := 16#16 }
       let x := d.xlt.ports.get .west
       d.On ∧ x.enable = true ∧ cairnSlots x = 16
        ∧ (∀ i ∈ [0, 16], i < 2 * cairnSlots x ∧ ringSub (cairnSlots x) x.prod.toNat i ≤ ringSub (cairnSlots x) x.prod.toNat x.cons.toNat)
        ∧ 2 * cairnSlots x ≤ 32 ∧ ringSub (cairnSlots x) x.prod.toNat x.cons.toNat < ringSub (cairnSlots x) x.prod.toNat 31)
    ∧ tileUp base 7 = true ∧ seqDiff 0xFFFFFFFF#32 (nth base.fab.tileEpoch 7 0#32) < 0 ∧ 0 < seqDiff 7#32 (nth base.fab.tileEpoch 7 0#32) ∧ 7#32 ≠ leadEpoch base ∧ 0#32 = nth base.fab.tileEpoch 7 0#32 ∧ 7 < base.fab.tileEpoch.length :=
  ⟨rfl, by decide +kernel, ⟨rfl, by decide +kernel⟩, by decide +kernel⟩

def dva0 : BitVec 64 := BitVec.ofNat 64 (2 ^ 63)
def pre0 : Prefetch := ⟨.work (.op 3) false, 1, 2 ^ 63, 1⟩
def preD : Dev := base.onTile 0 fun x => { x with prefetch := [pre0] }
def rec0 : FaultRec := ⟨.west, 1, 8, false, 1#64, true, false, false, [⟨.op 3, 0, 0x8000, false⟩], 0#64, .opened⟩
def recD : Dev := base.onXlt fun x => { x with recs := [(4, rec0)], ports := x.ports.set .west { opened := some ⟨1, [4], 0#64, false⟩ } }
theorem wit_WalksAndFaults : preD.On ∧ (preD.tile 0).prefetch.find? (fun f => f.tenant = 1 && f.addr = dva0.toNat) = some pre0
    ∧ (∀ k ∈ walkStacks preD 0 1 (dva0.toNat - 2 ^ 63), stackOpen preD 0 k = true) ∧ isDva dva0.toNat = true ∧ lostAt preD 1 (dva0.toNat - 2 ^ 63) = false
    ∧ (pageAt preD 1 (dva0.toNat - 2 ^ 63)).isSome = true ∧ (walkRun ((walkStacks preD 0 1 (dva0.toNat - 2 ^ 63)).foldl (fun d k => touchStack k d)
      (count 0x0803 0 (some 1) 1 (preD.onTile 0 fun x => { x with prefetch := x.prefetch.erase pre0 }))) 1 (dva0.toNat - 2 ^ 63)).isSome = true
    ∧ (leader recD).isSome = true ∧ (recD.xlt.ports.get .west).opened = some ⟨1, [4], 0#64, false⟩ ∧ (recD.xlt.ports.get .west).hostOpen = []
    ∧ (recD.xlt.ports.get .west).enable = false ∧ recD.xlt.recs.get? 4 = some rec0 ∧ rec0.host = false := ⟨rfl, by decide +kernel⟩

/-- A stream's walk: of an operation that holds a place there, at a page that is mapped or not. -/
theorem wit_WalksAndFaults_c : (let d := base.onEng fun g => { g with ops := [(3, { tile := 0, tenant := 1, src := .entry 0 0, desc := [], stage := .cut })] }
    streamOf d (.op 3) = some (1, 0) ∧ (d.tile 0).prefetch.find? (fun f => f.tenant = 1 && f.addr = dva0.toNat) = none ∧ formOk d 1 dva0.toNat = true
      ∧ lostAt d 1 (dva0.toNat - 2 ^ 63) = false ∧ (pageAt d 1 (dva0.toNat - 2 ^ 63)).isSome = true ∧ pageAt d 1 (dva0.toNat + 0x400000 - 2 ^ 63) = none
      ∧ tracked d 0 (.work (.op 3) false) = false) ∧ leader (dies .fenced .lost none) = none := by decide +kernel
def ats0 : AtsReq := ⟨.west, 1, 0x5000, true, ⟨.op 3, 2, 0x5000, true⟩, none, none, true, 0⟩
def cpl0 : AtsCpl := ⟨0x9000, 4096, true, true, true⟩
def grp0 : PriGroup := ⟨511, [4], true, 1⟩
def atsD : Dev := base.onXlt fun x => { x with ats := [(6, ats0)], recs := [(4, { rec0 with host := true })], ports := x.ports.set .west { groups := [grp0] } }
theorem wit_HostTranslations_a : atsD.On ∧ atsD.xlt.ats.get? 6 = some ats0 ∧ ats0.port = .west ∧ ats0.sent = true ∧ ats0.record = none ∧ ats0.prefetch = none ∧ isPow2 cpl0.size = true
    ∧ 4096 ≤ cpl0.size ∧ cpl0.present = true ∧ (if ats0.who.write then cpl0.write else cpl0.read) = true
    ∧ (atsD.xlt.ports.get .west).groups.find? (fun g => g.index = 511 && g.sent) = some grp0 ∧ grp0.recs = [4]
    ∧ atsD.xlt.recs.get? 4 = some { rec0 with host := true } ∧ rec0.waiters = ⟨.op 3, 0, 0x8000, false⟩ :: [] := ⟨rfl, by decide +kernel⟩
theorem wit_HostTranslations_b : ∀ k t, (k, t) ∈ base.ten.tenants → ¬ (t.par.port = .west ∧ t.par.pasid = some 6) := by
  intro k t h
  have h : ∀ x ∈ base.ten.tenants, ¬ (x.2.par.port = .west ∧ x.2.par.pasid = some 6) := by decide +kernel
  exact h _ ‹_›

def pMap : Bytes := pb [(0, 4, 1), (4, 4, 5), (8, 8, 2 ^ 63 + 0x400000), (0x10, 8, 0x400000), (0x18, 8, 0x400000), (0x20, 1, 1), (0x21, 1, 3)]
def mapD : Dev := withCmd 0x303 pMap base
def m0 : Mapping := ⟨0x400000, 0x400000, 5, 0x400000, 21, true, true⟩
theorem wit_MappingCommands_a : mapD.On ∧ CmdBegun mapD c0 0x0303 pMap := ⟨rfl, begun_of (by decide +kernel)⟩
theorem wit_MappingCommands_b : firstBad (mapChk pMap mapD) = none ∧ mapD.ten? (u32 pMap 0) = some ten1 ∧ mgmtOk c0 ten1 = true ∧ ten1.st = .active
    ∧ mapD.alloc? (u32 pMap 4) = some ⟨1, [⟨0, 4⟩], false, false⟩ ∧ m0.off + m0.len ≤ allocUnits ⟨1, [⟨0, 4⟩], false, false⟩ * unitBytes ∧ m0.page ≠ 30
    ∧ (tabOf mapD 1).maps.any (fun x => meets x.dva x.len m0.dva m0.len) = false ∧ unmapOver mapD 1 (m0.dva + 2 ^ 63) m0.len = false
    ∧ (let need := (tablesOf m0).filter fun n => !(tablesHeld (tabOf mapD 1)).contains n
       memUsed mapD 1 + 2 * newExtents (tabOf mapD 1) need.length ≤ ten1.par.memUnits ∧ (placeTables 1 need mapD).isSome = true) := by decide +kernel
def pUnmap : Bytes := pb [(0, 4, 1), (8, 8, 2 ^ 63 + 0x1000), (0x10, 8, 0x2000)]
def unmapD : Dev := withCmd 0x304 pUnmap base
theorem wit_MappingCommands_c : unmapD.On ∧ CmdBegun unmapD c0 0x0304 pUnmap := ⟨rfl, begun_of (by decide +kernel)⟩
theorem wit_MappingCommands_d : isDva (u64 pUnmap 8) = true ∧ fld (u64 pUnmap 8) 48 15 = 0 ∧ u64 pUnmap 8 % 4096 = 0 ∧ u64 pUnmap 0x10 % 4096 = 0
    ∧ u64 pUnmap 8 % 2 ^ 48 + u64 pUnmap 0x10 ≤ 2 ^ 48 ∧ u32 pUnmap 0 < 256 ∧ u32 pUnmap 4 = 0 ∧ splitsPage unmapD 1 0x1000 = false ∧ splitsPage unmapD 1 0x3000 = false
    ∧ unmapOver unmapD 1 (0x1000 + 2 ^ 63) 0x2000 = false ∧ unmapD.xlt.windows.any (fun (_, w) => w.tenant = 1 && meets w.dva w.len 0x1000 0x2000) = false := by decide +kernel

def pRes : Bytes := pb [(0, 4, 1), (8, 4, 4)]
def resD : Dev := withCmd 0x305 pRes recD
theorem wit_FaultsAndInvalidations_a : resD.On ∧ CmdBegun resD c0 0x0305 pRes := ⟨rfl, begun_of (by decide +kernel)⟩
theorem wit_FaultsAndInvalidations_b : u32 pRes 4 = 0 ∧ (∀ k < u32 pRes 0, u8 pRes (12 + 8 * k) ≤ 1 ∧ zeros pRes (13 + 8 * k) 3 = true)
    ∧ (List.range (u32 pRes 0)).map (fun k => (u32 pRes (8 + 8 * k), decide (u8 pRes (12 + 8 * k) = 1))) = [(4, false)]
    ∧ resD.xlt.recs.get? 4 = some rec0 ∧ rec0.host = false ∧ some rec0.port = slotPort c0 ∧ (resolveAll [(4, false)] false resD).1 = false := by decide +kernel
def inv0 (m : List Mark) : Invalidation := ⟨1, 0x1000, 0x1000, none, some c0, [], [3], m, false, false⟩
def invD (m : List Mark) : Dev :=
  (runsCmd 0x304 base).onXlt fun x => { x with invs := [(2, inv0 m)] }
theorem wit_FaultsAndInvalidations_c : (invD []).On ∧ (invD []).xlt.invs.get? 2 = some (inv0 []) ∧ (inv0 []).tiles = [3] ∧ (inv0 []).ats = none ∧ (inv0 []).cmd = some c0
    ∧ (invD []).ciph.jobs.any (jobMeets 1 0x1000 0x1000) = false ∧ ((inv0 []).marked.filter fun m => m.tile = 3).all (markDone (invD []) (inv0 [])) = true :=
  ⟨rfl, by decide +kernel⟩
def mark0 : Mark := ⟨3, .entry 0 0, 0, []⟩
def markD : Dev := (invD [mark0]).onQ fun q => { q with qps := [(0, { qp1 with begun := [⟨0, zpad 64, none, none, false⟩] })] }
theorem wit_FaultsAndInvalidations_d : markD.On ∧ markD.xlt.invs.get? 2 = some (inv0 [mark0]) ∧ (inv0 [mark0]).marked = [mark0]
    ∧ markDone markD (inv0 [mark0]) mark0 = false := ⟨rfl, by decide +kernel⟩

def pWin : Bytes := pb [(0, 4, 1), (8, 8, 2 ^ 63), (0x10, 8, 0x400000), (0x18, 1, 15)]
def winD : Dev := withCmd 0x401 pWin base
theorem wit_WindowRules_a : winD.On ∧ CmdBegun winD c0 0x0401 pWin := ⟨rfl, begun_of (by decide +kernel)⟩
theorem wit_WindowRules_b : keysFlow winD = true ∧ firstBad (windowOpenChk c0 pWin winD) = none ∧ winD.ten? (u32 pWin 0) = some ten1 ∧ mgmtOk c0 ten1 = true
    ∧ unmapOver winD 1 (2 ^ 63) 0x400000 = false ∧ covered winD 1 0 0x400000 (fun m => m.read && m.write) = true ∧ (tenWindows winD 1).length < ten1.par.winCount
    ∧ slabsUsed winD 1 + ceilDiv 0x400000 (2 ^ 30) ≤ ten1.par.winSlabs ∧ freeWindow winD = some 0 := by decide +kernel
def win0 (closing : Bool) : Window :=
  { tenant := 1, dva := 0, len := 0x400000, rights := 15#4, peerMode := 0, peerNode := 0#16, key := 5#32, closing := closing, cmd := if closing then some c0 else none,
    views := List.replicate 8 (if closing then .closing else .open) }
def pRev : Bytes := pb [(0, 4, 1), (4, 4, 16383)]
def revD (closing : Bool) : Dev := (withCmd 0x402 pRev base).onXlt fun x => { x with windows := [(16383, win0 closing)] }
theorem wit_WindowRules_c : (revD false).On ∧ CmdBegun (revD false) c0 0x0402 pRev := ⟨rfl, begun_of (by decide +kernel)⟩
theorem wit_WindowRules_d : u32 pRev 0 < 256 ∧ u32 pRev 4 < 16384 ∧ (revD false).ten? 1 = some ten1 ∧ (revD false).win? (u32 pRev 4) = some (win0 false)
    ∧ (win0 false).tenant = u32 pRev 0 ∧ (win0 false).closing = false ∧ (revD true).win? 16383 = some (win0 true) ∧ (win0 true).closing = true
    ∧ windowIdle (revD true) (win0 true) = true ∧ (win0 true).cmd = some c0 := by decide +kernel
/-- The leader has it made FREE in every tile, or in none. -/
def endD (x : WinView) : Dev := base.onXlt fun y => { y with windows := [(16383, { win0 true with freeing := true, views := List.replicate 8 x })] }
theorem wit_WindowRules_f : (leader (revD true)).isSome ∧ (win0 true).freeing = false ∧ windowFreed (endD .free) { win0 true with freeing := true, views := List.replicate 8 .free } = true
    ∧ windowFreed (endD .closing) { win0 true with freeing := true, views := List.replicate 8 .closing } = false
    ∧ (endD .free).xlt.windows = [] ++ [(16383, { win0 true with freeing := true, views := List.replicate 8 .free })] := by decide +kernel
def pWq : Bytes := pb [(0, 4, 0xFFFFFFFF), (8, 8, 0x1000), (0x10, 4, 16384)]
theorem wit_WindowRules_e : CmdBegun (withCmd 0x403 pWq base) c0 0x0403 pWq ∧ u32 pWq 0 = 0xFFFFFFFF ∧ addrOk c0 (u64 pWq 8) 64 = true ∧ 1 ≤ u32 pWq 0x10 ∧ u32 pWq 0x10 ≤ 16384 :=
  ⟨begun_of (by decide +kernel), by decide +kernel⟩

-- Witnesses: tenants

def pTen : Bytes := pb [(0, 4, 3), (5, 1, 12), (0x20, 4, 100), (0x24, 2, 4), (0x34, 1, 1), (0x35, 1, 1), (0x38, 8, 0x1000), (0x40, 1, 4), (0x42, 2, 0xFFFF)]
def tenD : Dev := withCmd 0x201 pTen base
theorem wit_TenantCommands_a : tenD.On ∧ CmdBegun tenD c0 0x0201 pTen := ⟨rfl, begun_of (by decide +kernel)⟩
theorem wit_TenantCommands_b : firstBad (tenantCreateChk c0 pTen tenD) = none ∧ u32 pTen 0 < 256 ∧ reservable tenD (parseTenant pTen) = true := by decide +kernel
def ten1st (x : TenState) : Tenant := { ten1 with st := x }
def inSt (x : TenState) (d : Dev) : Dev := d.onTens fun y => { y with tenants := [(1, ten1st x), (2, ten1)] }
def pT1 : Bytes := pb [(0, 4, 1)]
theorem wit_TenantCommands_c : (inSt .frozen (withCmd 0x207 pT1 base)).On ∧ CmdBegun (inSt .frozen (withCmd 0x207 pT1 base)) c0 0x0207 pT1
    ∧ CmdBegun (inSt .frozen (withCmd 0x208 pT1 base)) c0 0x0208 pT1 := ⟨rfl, begun_of (by decide +kernel), begun_of (by decide +kernel)⟩
theorem wit_TenantCommands_d : (inSt .frozen base).ten? (u32 pT1 0) = some (ten1st .frozen) ∧ mgmtOk c0 (ten1st .frozen) = true ∧ (ten1st .frozen).st = .frozen
    ∧ (ten1st .frozen).carried = false ∧ u32 pT1 4 = 0 ∧ u32 pT1 0 < 256 ∧ addrOk c0 (u64 pT1 8) 64 = true := by decide +kernel
theorem wit_TenantResets_a : (withCmd 0x203 pT1 base).On ∧ CmdBegun (withCmd 0x203 pT1 base) c0 0x0203 pT1 ∧ CmdBegun (withCmd 0x202 pT1 base) c0 0x0202 pT1 :=
  ⟨rfl, begun_of (by decide +kernel), begun_of (by decide +kernel)⟩
theorem wit_TenantResets_b : base.ten? (u32 pT1 0) = some ten1 ∧ ten1.st = .active ∧ u32 pT1 0 < 256 ∧ u32 pT1 4 = 0 ∧ mgmtOk c0 ten1 = true
    ∧ firstBad (tenantDestroyChk c0 pT1 base) = none ∧ u8 pT1 4 = 0 := by decide +kernel
theorem wit_TenantResets_c : (inSt .resetting base).ten? 1 = some (ten1st .resetting) ∧ (ten1st .resetting).destroy = none ∧ (ten1st .resetting).resetCmd = none
    ∧ tenWindows (inSt .resetting base) 1 = [] ∧ tenRopes (inSt .resetting base) 1 = [] ∧ (inSt .destroying base).ten? 1 = some (ten1st .destroying)
    ∧ ({ ten1st .destroying with destroy := some [] } : Tenant).destroyCmd = none := by decide +kernel
theorem wit_FreezeRules_a : (withCmd 0x204 pT1 base).On ∧ CmdBegun (withCmd 0x204 pT1 base) c0 0x0204 pT1 := ⟨rfl, begun_of (by decide +kernel)⟩
def frz : Tenant := { ten1 with st := .freezing, freeze := some ⟨none, 0⟩ }
def frzD : Dev := base.onTens fun y => { y with tenants := [(2, frz)] }
theorem wit_FreezeRules_b : base.ten? (u32 pT1 0) = some ten1 ∧ firstBad (tenantFreezeChk pT1 base) = none ∧ mgmtOk c0 ten1 = true ∧ tenRopes base 1 = [] ∧ tenQps base 1 = []
    ∧ frzD.ten? 2 = some frz ∧ frz.st = .freezing ∧ tenDrained frzD 2 = true ∧ frz.freeze = some ⟨none, 0⟩ ∧ tenQps frzD 2 = [] ∧ tenCqs frzD 2 = []
    ∧ frzD.xlt.recs.filter (fun (_, r) => r.tenant = 2) = [] := by decide +kernel

-- Witnesses: internal queues, device memory, stacks

/-- The link queue from tile 0 to tile 1, a switch input's queue, a stack link's, and the link queue from tile 0 to tile 2. -/
def q6 : QueueId := ⟨6, .req, 1⟩
def q4 (c : QClass) : QueueId := ⟨4, c, 127⟩
def q3 : QueueId := ⟨3, .mgt, 63⟩
def q62 : QueueId := ⟨6, .req, 2⟩
def cqs (c : CreditQ) : Dev := base.onFab fun f => { f with queues := [c] }
def u01 : Flit := ⟨.req, 0, 1⟩
def many (n : Nat) (q : QueueId) : CreditQ := { id := q, units := List.replicate n ⟨⟨q.cls, 0, 0⟩, none⟩ }
theorem wit_CreditQueues_a : base.On ∧ queueDepth (q4 .req) = some 128 ∧ isBridge (q4 .req) = false ∧ isLink (q4 .req) = false
    ∧ (let d := cqs (many 127 (q4 .req))
       let c := queueAt d.fab (q4 .req)
       c.resetting = false ∧ c.held = 0 ∧ unitsOut d (q4 .req) < 128 ∧ rspQueue (q4 .req) = some (q4 .rsp) ∧ rspRoom d (q4 .rsp) = true)
    ∧ queueDepth q3 = some 16 ∧ rspQueue q3 = none ∧ unitsOut base q3 < 16
    ∧ 16 ≤ unitsOut (cqs (many 16 q3)) q3
    ∧ (let d := cqs (many 2 (q4 .req))
       let c := queueAt d.fab (q4 .req)
       c.resetting = false ∧ reqWithheld d (q4 .req) = false ∧ c.units = [⟨⟨.req, 0, 0⟩, none⟩, ⟨⟨.req, 0, 0⟩, none⟩]
        ∧ nextHop d.fab (q4 .req) ⟨⟨.req, 0, 0⟩, none⟩ = some none)
    ∧ (let d := cqs (many 1 (q4 .rsp))
       let c := queueAt d.fab (q4 .rsp)
       c.resetting = false ∧ reqWithheld d (q4 .rsp) = false ∧ c.units = [⟨⟨.rsp, 0, 0⟩, none⟩]
        ∧ nextHop d.fab (q4 .rsp) ⟨⟨.rsp, 0, 0⟩, none⟩ = some none) := ⟨rfl, by decide +kernel⟩
/-- A link is down and a unit that goes round it stands at tile 2, where its next queue has a credit or has none. -/
def q42 : QueueId := switchIn .req 2 (inPort q62)
def linkD (l : List CreditQ) : Dev := base.onFab fun f => { f with linksDown := [(0, 1)], queues := { id := q42, units := [⟨u01, none⟩] } :: l }
/-- A unit for the other half while no segment is up. -/
def u05 : Sent := ⟨⟨.req, 0, 5⟩, some 1⟩
def cutD : Dev := base.onFab fun f => { f with segUp := List.replicate 4 false, queues := [{ id := q42, units := [u05] }] }
def q621 : QueueId := ⟨6, .req, 17⟩
theorem wit_CreditQueues_b : sendFlow q6 = some u01 ∧ base.tileLive 0 = true ∧ base.tileLive 1 = true ∧ isLink q62 = true ∧ queueEnd q62 = some 2
    ∧ (queueAt (linkD []).fab q42).units = [⟨u01, none⟩] ∧ nextHop (linkD []).fab q42 ⟨u01, none⟩ = some (some q621) ∧ (queueAt (linkD []).fab q621).resetting = false
    ∧ hasCredit (linkD []).fab q621 = true ∧ hasCredit (linkD [many 512 q621]).fab q621 = false ∧ nextHop (linkD [many 512 q621]).fab q42 ⟨u01, none⟩ = some (some q621)
    ∧ (queueAt (linkD [{ id := q621, resetting := true }]).fab q621).resetting = true ∧ (queueAt cutD.fab q42).units = [u05] ∧ nextHop cutD.fab q42 u05 = none
    ∧ (queueAt base.fab q6).units = [] ∧ (queueAt (cqs { id := q6, resetting := true }).fab q6).resetting = true ∧ (queueDepth (q4 .req)).isSome = true
    ∧ (let d := cqs { id := q4 .req, held := 3 }
       heldUnits d (q4 .req) ≠ 0 ∧ (queueAt d.fab (q4 .req)).logged = none)
    ∧ reqWithheld (base.onStk 31 fun x => { x with mode := .parked }) ⟨1, .req, 31⟩ = true := by decide +kernel
theorem wit_CreditQueues_c : route base.fab u01 = some [q6, switchIn .req 1 (inPort q6)] ∧ (∀ w ∈ base.fab.waiting, w.flit ≠ u01) ∧ strayUnit base.fab u01 [q6, switchIn .req 1 (inPort q6)] = false ∧ hasCredit base.fab q6 = true
    ∧ rspCount base.fab (flowRsp u01) < rspDepth (flowRsp u01) ∧ hasCredit (cqs (many 512 q6)).fab q6 = false ∧ route (cqs (many 512 q6)).fab u01 = some [q6, switchIn .req 1 (inPort q6)]
    ∧ nth base.fab.segUp 3 false = true ∧ 6 < 7 ∧ 7 < 8 ∧ tileHalf 6 = tileHalf 7 ∧ base.fab.linksDown.contains (6, 7) = false
    ∧ segmentFor base.fab 5 2 = some 1 ∧ segmentFor { base.fab with segUp := [true, false, true, true] } 5 2 = some 2
    ∧ segmentFor { base.fab with segUp := [false, false, false, true] } 5 2 = some 3 ∧ linkHop (linkD []).fab 0 1 = some 2 := by decide +kernel

def pAl : Bytes := pb [(0, 4, 2), (4, 4, 2), (8, 4, 3), (0x0E, 2, 1), (0x18, 4, 2)]
def alD : Dev := withCmd 0x301 pAl base
theorem wit_MemoryAllocation_a : alD.On ∧ CmdBegun alD c0 0x0301 pAl := ⟨rfl, begun_of (by decide +kernel)⟩
theorem wit_MemoryAllocation_b : firstBad (memAllocChk c0 pAl alD) = none ∧ alD.ten? (u32 pAl 0) = some ten1 ∧ mgmtOk c0 ten1 = true ∧ ten1.st = .active
    ∧ memUsed alD (u32 pAl 0) + u32 pAl 4 ≤ ten1.par.memUnits
    ∧ ((place alD (u32 pAl 4) (u32 pAl 8) (u8 pAl 0xC) (u16 pAl 0xE)).map fun r => decide (r.length ≤ u32 pAl 0x18)) = some true := by decide +kernel
def zeroD : Dev := (base.onRing .west 0 fun r => { r with cmd := some { mkCmd 0x301 [] .running with work := [6] } }).onMem fun m =>
  { m with allocs := [(6, ⟨2, [⟨32767, 1⟩], false, true⟩)], bytes := [⟨32767 * 2 ^ 21, 1#8⟩] }
theorem wit_MemoryAllocation_c : zeroD.On ∧ zeroD.alloc? 6 = some ⟨2, [⟨32767, 1⟩], false, true⟩ ∧ allocSlot zeroD 6 = some c0 := ⟨rfl, by decide +kernel⟩
theorem wit_MemoryAllocation_d : CmdRuns zeroD c0 0x0301 := ⟨rfl, { mkCmd 0x301 [] .running with work := [6] }, by decide +kernel, rfl, rfl⟩
def pFr : Bytes := pb [(0, 4, 1), (4, 4, 5)]
def freeD : Dev := (withCmd 0x302 pFr base).onXlt fun x => { x with tables := [] }
theorem wit_MemoryAllocation_e : freeD.On ∧ CmdBegun freeD c0 0x0302 pFr ∧ CmdBegun (withCmd 0x302 pFr base) c0 0x0302 pFr := ⟨rfl, begun_of (by decide +kernel), begun_of (by decide +kernel)⟩
theorem wit_MemoryAllocation_f : u32 pFr 0 < 256 ∧ freeD.ten? (u32 pFr 0) = some ten1 ∧ freeD.alloc? (u32 pFr 4) = some ⟨1, [⟨0, 4⟩], false, false⟩
    ∧ allocCovered freeD (u32 pFr 4) = false ∧ allocCovered base (u32 pFr 4) = true := by decide +kernel
def pRq : Bytes := pb [(0, 1, 31), (0x10, 4, 16384)]
def copies0 : TabExtent := ⟨⟨some { unit := 9, rebuilding := true }, some { unit := 9 * 65536 }⟩, []⟩
def tabD : Dev := onTab 1 (fun x => { x with extents := [(9, copies0)] }) base
theorem wit_MemoryAllocation_g : CmdBegun (withCmd 0x306 pRq base) c0 0x0306 pRq := begun_of (by decide +kernel)
theorem wit_MemoryAllocation_h : u8 pRq 0 < 32 ∧ zeros pRq 1 3 = true ∧ addrOk c0 (u64 pRq 8) 64 = true ∧ 1 ≤ u32 pRq 0x10 ∧ u32 pRq 0x10 ≤ 16384
    ∧ (tabOf tabD 1).extents.get? 9 = some copies0 := by decide +kernel

/-- The request queue of the stack link of stack 31 is full. -/
def fullLink : Dev := cqs (many 256 ⟨1, .req, 31⟩)
theorem wit_StackAccesses_c : accOpen (base.onStk 31 fun x => { x with mode := .online }) 31 .other = true
    ∧ accOpen (fullLink.onStk 31 fun x => { x with mode := .online }) 31 .other = false ∧ (fullLink.stack 31).mode = .online ∧ (fullLink.stack 31).held = [] := by decide +kernel
/-- Offsets at both sides of the end of the allocatable space, and a poisoned codeword. -/
theorem wit_StackAccesses : base.On ∧ 31 < 32 ∧ (base.stack 31).mode = .online ∧ (base.stack 31).moves = [] ∧ (0xBF7FFFFE0 : Nat) % 32 = 0 ∧ (0xBF8000000 : Nat) % 32 = 0
    ∧ (0xBF7FFFFE0 : Nat) < 0xBF8000000 ∧ poisonIn base (31 * 2 ^ 36 + 0xBF7FFFFE0) 32 = false
    ∧ poisonIn (base.onMem fun m => { m with poison := [(31 * 2 ^ 36 + 0xBF7FFFFE0) / 32] }) (31 * 2 ^ 36 + 0xBF7FFFFE0) 32 = true
    ∧ (zpad 32).length % 32 = 0 ∧ 0xBF7FFFFE0 + (zpad 32).length ≤ 0xBF8000000 := ⟨rfl, by decide +kernel⟩
def memD : Dev := base.onMem fun m => { m with bytes := [⟨3, 7#8⟩, ⟨2 ^ 41 - 1, 1#8⟩] }
theorem wit_WrittenBytesRead : memD.MemOk ∧ 2 ^ 41 - 2 + [0#8, 5#8].length ≤ 2 ^ 41 := ⟨by unfold Dev.MemOk; decide +kernel, by decide⟩
def stk0 (f : Stack → Stack) : Dev := base.onStk 0 f
theorem wit_StackStates_a : base.On ∧ base.mem.stk.length = 32 ∧ ((stk0 fun x => { x with mode := .init }).stack 0).mode = .init
    ∧ ((stk0 fun x => { x with parkReq := true }).stack 0).parkReq = true ∧ (base.stack 0).mode = .online
    ∧ stackBusy (stk0 fun x => { x with mode := .parking }) 0 = false ∧ ((stk0 fun x => { x with mode := .parking }).stack 0).mode = .parking
    ∧ ((stk0 fun x => { x with mode := .waking }).stack 0).held = [] ∧ ((stk0 fun x => { x with mode := .waking }).stack 0).mode = .waking := ⟨rfl, by decide +kernel⟩
def moveD : Dev := stk0 fun x => { x with moves := [⟨5, 0, .correctable, []⟩], reserveUsed := 510, ceUnlogged := 1, scrubPos := 7 }
theorem wit_StackStates_b : moveD.On ∧ (moveD.stack 0).mode = .online ∧ (moveD.stack 0).scrubPos + 1 < stackCodewords
    ∧ poisonIn moveD (servedDpa (moveD.stack 0) 0 (0 * 2 ^ 36 + 32 * (moveD.stack 0).scrubPos)) 32 = false ∧ (moveD.stack 0).ceUnlogged ≠ 0
    ∧ (moveD.stack 0).moves = [⟨5, 0, .correctable, []⟩] ∧ ownerOf (moveD.onMem fun m => { m with allocs := [] }) (0 * 2 ^ 36 + 5 * groupBytes) = none
    ∧ (moveD.stack 0).reserveUsed < 511 ∧ moveD.mem.stk.length = 32 ∧ (moveD.stack 0).mode ≠ .init := ⟨rfl, by decide +kernel⟩

-- Witnesses: snapshots, ciphers, keys, service

def pSave (car : Nat) : Bytes := pb [(0, 4, 1), (4, 4, car), (0x10, 4, 4096)]
def saveD (car : Nat) : Dev := inSt .frozen (withCmd 0x205 (pSave car) base)
theorem wit_Snapshots_a : (saveD 2).On ∧ CmdBegun (saveD 2) c0 0x0205 (pSave 2) ∧ CmdBegun (saveD 0xFFFFFFFF) c0 0x0205 (pSave 0xFFFFFFFF) :=
  ⟨rfl, begun_of (by decide +kernel), begun_of (by decide +kernel)⟩
theorem wit_Snapshots_b : (saveD 2).ten? (u32 (pSave 2) 0) = some (ten1st .frozen) ∧ mgmtOk c0 (ten1st .frozen) = true ∧ (ten1st .frozen).carried = false
    ∧ addrOk c0 (u64 (pSave 2) 8) 64 = true ∧ u32 (pSave 2) 0x14 = 0 ∧ snapLen (saveD 2) 1 ≤ u32 (pSave 2) 0x10 ∧ u32 (pSave 0xFFFFFFFF) 4 = 0xFFFFFFFF
    ∧ u32 (pSave 2) 4 < 256 ∧ u32 (pSave 2) 4 ≠ 1 ∧ (saveD 2).ten? (u32 (pSave 2) 4) = some ten1 ∧ ten1.st = .active
    ∧ memUsed (saveD 2) 2 + ((tenAllocs (saveD 2) 1).map fun (_, a) => allocUnits a).sum ≤ ten1.par.memUnits := by decide +kernel
def pRst : Bytes := pb [(0, 4, 1), (4, 4, 2), (0xC, 4, 192), (0x28, 4, 4096)]
def rstD : Dev := (inSt .frozen (withCmd 0x206 pRst base)).onMem (fun m => { m with allocs := [] }) |>.onQ fun q => { q with cqs := [] }
theorem wit_Snapshots_c : rstD.On ∧ CmdBegun rstD c0 0x0206 pRst := ⟨rfl, begun_of (by decide +kernel)⟩
theorem wit_Snapshots_d : keysFlow rstD = true ∧ firstBad (tenantRestoreChk c0 pRst rstD) = none ∧ rstD.ten? (u32 pRst 4) = some ten1 ∧ tenAllocs rstD 1 = [] ∧ tenWindows rstD 1 = []
    ∧ tenQps rstD 1 = [] ∧ tenCqs rstD 1 = [] ∧ tenRopes rstD 1 = []
    ∧ (let x : Snap := ⟨zpad 64, [], [], [], [], []⟩
       x.allocs = [] ∧ x.maps = [] ∧ hostRing x = false ∧ x.wins.length ≤ ten1.par.winCount ∧ (x.wins.map fun w => ceilDiv (u64 w 8) (2 ^ 30)).sum ≤ ten1.par.winSlabs ∧ x.cqs.length ≤ ten1.par.cqMax ∧ x.qps.length ≤ ten1.par.qpMax ∧ restoreCqNumbers rstD x = some []
        ∧ restoreQpNumbers rstD x = some [] ∧ restoreWinNumbers rstD x = some [] ∧ (placeTables 1 [] rstD).isSome = true ∧ tb (u8 pRst 8) 0 = false ∧ 16 ≤ u32 pRst 0x28) := by decide +kernel

def gcmKey : KeySlot := ⟨.gcm, 256, 0xFFFF, 0#16, List.replicate 64 1#8⟩
def jobE : Bytes := pb [(0, 1, 1), (1, 1, 1), (2, 1, 63), (4, 2, 1), (8, 8, 2 ^ 63), (0x10, 8, 2 ^ 63 + 0x1000), (0x18, 4, 64), (0x38, 8, 2 ^ 63 + 0x2000)]
def xtsE : Bytes := pb [(0, 1, 3), (1, 1, 1), (2, 1, 62), (3, 1, 9), (4, 2, 1), (8, 8, 2 ^ 63), (0x10, 8, 2 ^ 63 + 0x1000), (0x18, 4, 512)]
def jobs0 (en : Bool) (l : List Job) : Dev := base.onCiph fun c =>
  { c with enable := en, prod := 1#16, owner := some (.port .west), latch := { epoch := 1#32, token := 1#16, holder := some (.port .west) }, jobs := l,
           slots := [(62, { gcmKey with use := .xts }), (63, gcmKey)] }
def jobG : Job := { idx := 0, entry := jobE, src := [(0, 64)], dst := [(0x1000, 64)], aad := [], tag := [(0x2000, 16)] }
def jobX : Job := { idx := 0, entry := xtsE, src := [(0, 512)], dst := [(0x1000, 512)] }
theorem wit_CipherJobs_a : (jobs0 true []).On ∧ jobReady (jobs0 true []) = true ∧ (jobs0 true []).ciph.refetch = 0
    ∧ tb (u8 xtsE 1) 0 = phaseOf (jobSlots (jobs0 true []).ciph) (jobs0 true []).ciph.next ∧ jobCheck (jobs0 true []) xtsE = none ∧ 2 < u8 xtsE 0
    ∧ jobCheck (jobs0 true []) (patch xtsE 0 [5#8]) = some (ccMalformed, 2) ∧ jobCheck (jobs0 true []) jobE = none := ⟨rfl, by decide +kernel⟩
theorem wit_CipherJobs_b : (jobs0 true [jobG]).ciph.jobs.find? (fun j => j.idx = 0 && j.fin.isNone) = some jobG ∧ jobOp jobG = 1
    ∧ (let e := touchPlaces (jobPlaces jobG) (jobs0 true [jobG])
       jobOpen (jobs0 true [jobG]) jobG = true ∧ e.ciph.slots.get? (jobSlot jobG) = some gcmKey ∧ readPieces e jobG.src = some (zpad 64)
        ∧ readPieces e jobG.aad = some [] ∧ writeBad e jobG.dst = false ∧ writeBad e jobG.tag = false)
    ∧ jobOpen ((jobs0 true [jobG]).onFab fun f => { f with queues := [many 256 ⟨1, .req, 0⟩] }) jobG = false
    ∧ (jobs0 true [jobX]).ciph.jobs.find? (fun j => j.idx = 0 && j.fin.isNone) = some jobX ∧ jobOp jobX = 3 := by decide +kernel
theorem wit_CipherJobs_c : (jobs0 true []).ciph.latch.holder = some (.port .west) ∧ (jobs0 false []).ciph.enable = false
    ∧ (let c := (jobs0 true []).ciph
       let n := jobSlots c
       c.enable = true ∧ n = 16 ∧ (∀ i ∈ [1, 16], i < 2 * n ∧ ringSub n i c.cons.toNat ≤ n ∧ ringSub n c.prod.toNat c.cons.toNat ≤ ringSub n i c.cons.toNat)) := by decide +kernel

def pKey (way : Nat) : Bytes := pb [(0, 1, 5), (1, 1, 4), (2, 2, 256), (4, 2, 0xFFFF), (8, 1, way), (9, 1, if way = 1 then 0 else 7)] ++ zpad 96
def keyD (way : Nat) : Dev := (withCmd 0x801 (pKey way) base).onCiph fun c => { c with slots := [(7, ⟨.wrap, 256, 0xFFFF, 0#16, zpad 64⟩)] }
def busyKeyD : Dev := (keyD 1).onCiph fun c => { c with slots := [(5, { gcmKey with use := .xts })], jobs := [{ jobX with entry := patch xtsE 2 [5#8] }] }
theorem wit_KeysAndIdentity_a : (keyD 0).On ∧ CmdBegun (keyD 0) c0 0x0801 (pKey 0) ∧ CmdBegun busyKeyD c0 0x0801 (pKey 1) := ⟨rfl, begun_of (by decide +kernel), begun_of (by decide +kernel)⟩
def pKeyT : Bytes := patch (pKey 0) 4 [1#8, 0#8]
def keyT : Dev := (withCmd 0x801 pKeyT base).onTens fun t => { t with tenants := [(1, { ten1 with par := { ten1.par with mgmtW := false, mgmtE := false } })] }
theorem wit_KeysAndIdentity_t : CmdBegun keyT c0 0x0801 pKeyT ∧ firstBad (keyLoadChk pKeyT keyT) = none ∧ keyTenantOk c0 pKeyT keyT = false :=
  ⟨begun_of (by decide +kernel), by decide +kernel, by decide +kernel⟩
theorem wit_KeysAndIdentity_b : firstBad (keyLoadChk (pKey 0) (keyD 0)) = none ∧ u8 (pKey 0) 1 = 4 ∧ u8 (pKey 0) 8 = 0
    ∧ (keyD 0).ciph.slots.get? (u8 (pKey 0) 9) = some ⟨.wrap, 256, 0xFFFF, 0#16, zpad 64⟩ ∧ slotBusy (keyD 0) (u8 (pKey 0) 0) = false ∧ (keyD 0).ciph.slots.get? (u8 (pKey 0) 0) = none
    ∧ firstBad (keyLoadChk (pKey 1) busyKeyD) = none ∧ u8 (pKey 1) 8 = 1 ∧ u8 (pKey 1) 1 = 4 ∧ slotBusy busyKeyD (u8 (pKey 1) 0) = true
    ∧ keyTenantOk c0 (pKey 0) (keyD 0) = true ∧ keyTenantOk c0 (pKey 1) busyKeyD = true := by decide +kernel
/-- The slot to load is itself the one that unwraps. -/
def pKek : Bytes := pb [(0, 1, 5), (1, 1, 4), (2, 2, 256), (4, 2, 0xFFFF), (9, 1, 5)] ++ zpad 96
def kekD : Dev := (withCmd 0x801 pKek base).onCiph fun c => { c with slots := [(5, ⟨.wrap, 256, 0xFFFF, 0#16, zpad 64⟩)] }
theorem wit_KeysAndIdentity_kek : c0 ∈ allSlots ∧ firstBad (keyLoadChk pKek kekD) = none ∧ keyTenantOk c0 pKek kekD = true ∧ u8 pKek 1 = 4 ∧ u8 pKek 8 = 0 ∧ u8 pKek 9 = u8 pKek 0
    ∧ kekD.ciph.slots.get? (u8 pKek 9) = some ⟨.wrap, 256, 0xFFFF, 0#16, zpad 64⟩ := by decide +kernel
theorem wit_KeysAndIdentity_kek_begun : CmdBegun kekD c0 0x0801 pKek := begun_of (by decide +kernel)
def noEntropy : Dev := (base.onCiph fun c => { c with entropyFail := true }).onPwr fun p => { p with tsc := 2000000000#64 }
theorem wit_KeysAndIdentity_drbg : noEntropy.ciph.entropyFail = true ∧ reseedDue (nth noEntropy.ciph.drbgs 16 {}) + secTicks 1 ≤ now noEntropy
    ∧ now (base.onCiph fun c => { c with entropyFail := true }) < reseedDue (nth base.ciph.drbgs 16 {}) + secTicks 1 := by decide +kernel
theorem wit_KeysAndIdentity_spdm : base.svc.traverse = none ∧ keysFlow base = true ∧ (base.host.get .west).linkUp = true
    ∧ (base.onSvc fun v => { v with chainOk := false }).svc.chainOk = false ∧ u8 [0x11#8, 0xE0#8, 0#8, 9#8] 3 = 9 ∧ tb (u8 [0x11#8, 0xE0#8, 0#8, 9#8] 2) 0 = false := by decide +kernel
def pEr : Bytes := pb [(0, 1, 63)]
theorem wit_KeysAndIdentity_c : CmdBegun (withCmd 0x802 pEr base) c0 0x0802 pEr ∧ CmdBegun (withCmd 0x802 pEr (jobs0 true [jobG])) c0 0x0802 pEr
    ∧ CmdBegun (withCmd 0xB01 (zpad 128) base) c0 0x0B01 (zpad 128) := ⟨begun_of (by decide +kernel), begun_of (by decide +kernel), begun_of (by decide +kernel)⟩
theorem wit_KeysAndIdentity_d : u8 pEr 0 < 64 ∧ zeros pEr 1 7 = true ∧ base.ciph.slots.get? (u8 pEr 0) = none ∧ (jobs0 true [jobG]).ciph.slots.get? (u8 pEr 0) = some gcmKey
    ∧ 16 < 17 ∧ (nth (base.onCiph fun c => { c with drbgs := List.replicate 17 { failures := 15 } }).ciph.drbgs 16 {}).failures = 15 ∧ base.ciph.entropyFail = false
    ∧ (base.onCiph fun c => { c with entropyFail := true }).ciph.entropyFail = true ∧ addrOk c0 (u64 (zpad 128) 0) 64 = true ∧ u64 (zpad 128) 8 = 0 ∧ base.svc.traverse = none := by decide +kernel

/-- A record of two sections whose layout is sound: DEVICE at 0x148, PORTS at 0x190, all ports of no mode. -/
def rec0b : Bytes :=
  [76#8, 77#8, 76#8, 68#8, 1#8, 0#8, 2#8, 0#8, 1#8, 0#8, 0#8, 0#8, 20#8, 10#8, 0#8, 0#8]
    ++ (zpad 16
    ++ ([4#8]
    ++ (zpad 287
    ++ ([1#8, 0#8, 0#8, 0#8, 64#8, 0#8, 0#8, 0#8, 1#8, 0#8, 0#8, 0#8, 0#8, 1#8, 184#8, 11#8]
    ++ (zpad 56
    ++ ([2#8, 0#8, 0#8, 0#8, 0#8, 8#8, 0#8, 0#8]
    ++ (zpad 2180)))))))
theorem test_record_sound : recordFault rec0b 2580 = none := by decide +kernel
theorem test_record_maxTdp : recordFault (patch rec0b 0x14E (toLE 2 3001)) 2580 = some 0x14E := by decide +kernel
def pRec (n : Nat) : Bytes := pb [(8, 4, n)]
theorem wit_ServiceCommands_a : (withCmd 0x101 (zpad 128) base).On ∧ CmdBegun (withCmd 0x101 (zpad 128) base) c0 0x0101 (zpad 128)
    ∧ CmdBegun (withCmd 0x102 (zpad 128) base) c0 0x0102 (zpad 128) ∧ CmdBegun (withCmd 0xB02 (pRec 2580) base) c0 0x0B02 (pRec 2580) :=
  ⟨rfl, begun_of (by decide +kernel), begun_of (by decide +kernel), begun_of (by decide +kernel)⟩
theorem wit_ServiceCommands_b : firstBad (envChk c0 (zpad 128) base) = none ∧ u64 (zpad 128) 0 = 0 ∧ (base.onSvc fun v => { v with record := some [] }).svc.record = some []
    ∧ isSideband c0 = false ∧ u64 (pRec 2580) 0 % 64 = 0 ∧ u32 (pRec 2580) 0xC = 0 ∧ recordFault (slice (zpad 2580) 0 (u32 (pRec 2580) 8)) (u32 (pRec 2580) 8) = some 0 := by decide +kernel
theorem wit_ServiceCommands_record : recordFault (slice rec0b 0 (u32 (pRec 2580) 8)) (u32 (pRec 2580) 8) = none := by
  have h : u32 (pRec 2580) 8 = 2580 := by decide +kernel
  have g : slice rec0b 0 2580 = rec0b := by decide +kernel
  rw [h, g]
  exact test_record_sound
def pStg : Bytes := pb [(0, 1, 5), (4, 4, 67104768), (8, 8, 4096), (0x10, 4, 4096)]
def pVer (m : Nat) : Bytes := pb [(0, 1, m)]
theorem wit_ServiceCommands_c : CmdBegun (withCmd 0x901 pStg base) c0 0x0901 pStg ∧ CmdBegun (withCmd 0x902 (pVer 2) base) c0 0x0902 (pVer 2)
    ∧ CmdBegun (withCmd 0x902 (pVer 62) base) c0 0x0902 (pVer 62) := ⟨begun_of (by decide +kernel), begun_of (by decide +kernel), begun_of (by decide +kernel)⟩
theorem wit_ServiceCommands_d : firstBad (stageChk pStg base) = none ∧ base.svc.trav = .idle ∧ (base.onSvc fun v => { v with trav := .traversed }).svc.trav ≠ .idle
    ∧ u8 (pVer 2) 0 = 2 ∧ zeros (pVer 2) 1 7 = true ∧ addrOk c0 (u64 (pVer 2) 8) 64 = true ∧ imageAt base.svc (candidate base.svc) 1 = none
    ∧ u8 (pVer 62) 0 < 64 ∧ u8 (pVer 62) 0 % 2 = 0 ∧ zeros (pVer 62) 1 7 = true := by decide +kernel
def pLog : Bytes := pb [(0, 1, 1), (0x10, 4, 4096)]
def pSel : Bytes := pb [(0, 2, 511), (2, 2, 1), (8, 2, 0x0300), (10, 1, 0xFF), (11, 1, 7), (12, 2, 0xFFFF)]
def pCnt : Bytes := pb [(0, 2, 511), (2, 2, 1)]
theorem wit_ServiceCommands_e : CmdBegun (withCmd 0xA03 pLog base) c0 0x0A03 pLog ∧ CmdBegun (withCmd 0xA04 (pVer 1) base) c0 0x0A04 (pVer 1)
    ∧ CmdBegun (withCmd 0xA01 pSel base) c0 0x0A01 pSel ∧ CmdBegun (withCmd 0xA02 pCnt base) c0 0x0A02 pCnt :=
  ⟨begun_of (by decide +kernel), begun_of (by decide +kernel), begun_of (by decide +kernel), begun_of (by decide +kernel)⟩
theorem wit_ServiceCommands_f : firstBad (logReadChk c0 pLog base) = none ∧ u8 (pVer 1) 0 = 1 ∧ zeros (pVer 1) 1 7 = true ∧ firstBad (selectChk pSel base) = none ∧ u16 pSel 2 = 1
    ∧ u16 pCnt 0 ≤ 511 ∧ 1 ≤ u16 pCnt 2 ∧ u16 pCnt 0 + u16 pCnt 2 ≤ 512 ∧ u32 pCnt 4 = 0 ∧ addrOk c0 (u64 pCnt 8) 64 = true := by decide +kernel
def evc0 (n : Nat) : Evc := { count := BitVec.ofNat 48 n, source := 0x0300#16, enable := true }
def evcD (n : Nat) : Dev := base.onSvc fun v => { v with counters := [(511, evc0 n), (510, {})] }
theorem wit_CountersCount : (evcD (2 ^ 48 - 1)).svc.counters.get? 511 = some (evc0 (2 ^ 48 - 1)) ∧ (evc0 0).enable = true ∧ (evc0 0).source = BitVec.ofNat 16 0x0300
    ∧ (evc0 0).inst = 0xFF#8 ∧ (evc0 0).tenant = 0xFFFF#16 ∧ (evc0 (2 ^ 48 - 2)).count.toNat + 1 < 2 ^ 48 ∧ 2 ^ 48 ≤ (evc0 (2 ^ 48 - 1)).count.toNat + 1
    ∧ (evcD 0).svc.counters.get? 510 = some {} ∧ ({} : Evc).enable = false := by decide +kernel

-- Witnesses: Traverse and microcode

def img : Image := ⟨[], 512, true⟩
def allImgs : Tab Image := [(1, img), (2, img), (3, img), (4, img), (5, img)]
def travD (f : Svc → Svc) : Dev := base.onSvc fun v => f { v with banks := ⟨allImgs, allImgs⟩ }
def trv (centre : Bool) (r : Option Side) (busy : Bool) : Traverse := { cmd := c0, centre := centre, restarting := r, left := [], centreBusy := busy }
def pOne : Bytes := pb [(0, 1, 1)]
theorem wit_TraverseAndMicrocode_a : CmdBegun (withCmd 0x903 pOne (travD id)) c0 0x0903 pOne ∧ CmdBegun (withCmd 0x904 pOne base) c0 0x0904 pOne
    ∧ CmdBegun (withCmd 0x905 (zpad 128) base) c0 0x0905 (zpad 128) := ⟨begun_of (by decide +kernel), begun_of (by decide +kernel), begun_of (by decide +kernel)⟩
theorem wit_TraverseAndMicrocode_b : u8 pOne 0 < 2 ∧ zeros pOne 1 7 = true ∧ types5.all (candidateOk (travD id).svc) = true ∧ dieDown (travD id).ctl.dies.w = false
    ∧ dieDown (travD id).ctl.dies.e = false
    ∧ (imageVersion (travD id).svc (candidate (travD id).svc) 3).toNat % 256 = (imageVersion (travD id).svc (travD id).svc.bank 3).toNat % 256
    ∧ (travD id).svc.trav = .idle ∧ (travD id).pwr.inReset = ⟨false, false⟩ := by decide +kernel
def midT (centre : Bool) (r : Option Side) (busy : Bool) : Dev :=
  (travD fun v => { v with trav := .traversing, traverse := some (trv centre r busy) }).onCtl fun c => { c with dies := ⟨.starting, .leader⟩ }
theorem wit_TraverseAndMicrocode_c : (midT false (some .west) false).On ∧ (midT false (some .west) false).svc.traverse = some (trv false (some .west) false)
    ∧ (midT false (some .west) false).ctl.dies.get .west = .starting ∧ (trv false (some .west) false).left = [] ∧ (trv true (some .west) false).centre = true
    ∧ (trv true (some .west) false).failed = false ∧ (midT true (some .west) false).svc.trav = .traversing
    ∧ (midT false (some .west) false).svc.dieBank.get .east = (midT false (some .west) false).svc.bank
    ∧ (midT true none true).svc.traverse = some (trv true none true) ∧ (trv true none true).centreBusy = true := ⟨rfl, by decide +kernel⟩
def doneT : Dev := travD fun v => { v with trav := .traversed }
def pUc : Bytes := pb [(0, 1, 5), (4, 4, 0xFFFFFFFF)]
def ucD : Dev := travD fun v => { v with microcode := some { cmd := c0, base := true, units := [31] } }
theorem wit_TraverseAndMicrocode_d : doneT.svc.trav = .traversed ∧ doneT.svc.rootRevoked ≠ 0xF#4 ∧ zeros (zpad 128) 0 8 = true ∧ doneT.svc.traverse = none
    ∧ doneT.svc.centreBank = doneT.svc.bank ∧ firstBad (microcodeChk c0 pUc doneT) = none ∧ candidateOk doneT.svc (u8 pUc 0) = true
    ∧ ucD.svc.microcode = some { cmd := c0, base := true, units := [31] } ∧ unitDrained ucD true 31 = true ∧ 7 < 8 ∧ base.tileLive 7 = true := by decide +kernel
theorem wit_TraverseAndMicrocode_e : CmdBegun (withCmd 0x906 pUc doneT) c0 0x0906 pUc := begun_of (by decide +kernel)

-- Witnesses: queue pairs, work, transfers

def pQp : Bytes := pb [(0, 4, 1), (6, 1, 16), (8, 8, 2 ^ 63 + 0x1000), (0x18, 1, 15), (0x1C, 2, 0xFFFF)]
def pCq : Bytes := pb [(0, 4, 1), (4, 1, 7), (5, 1, 4), (6, 2, 2047), (8, 8, 2 ^ 63 + 0x1000), (0x10, 2, 1000)]
theorem wit_QueuePairCommands_a : CmdBegun (withCmd 0x501 pQp base) c0 0x0501 pQp ∧ CmdBegun (withCmd 0x504 pCq base) c0 0x0504 pCq := ⟨begun_of (by decide +kernel), begun_of (by decide +kernel)⟩
theorem wit_QueuePairCommands_b : base.ten? (u32 pQp 0) = some ten1 ∧ mgmtOk c0 ten1 = true ∧ firstBad (qpCreateChk c0 pQp base) = none ∧ u8 pQp 4 < 8 ∧ u8 pQp 5 = 0
    ∧ formOk base 1 (u64 pQp 8) = true ∧ tb (u8 pQp 7) 0 = false ∧ cqBindable base 1 (u8 pQp 4) (u16 pQp 0x1A) = true ∧ (tenQps base 1).length < ten1.par.qpMax
    ∧ tileUp base (u8 pQp 4) = true ∧ findFrom (qpFree base) 8192 (8192 * u8 pQp 4) = some 0 ∧ firstBad (cqCreateChk c0 pCq base) = none ∧ formOk base 1 (u64 pCq 8) = true
    ∧ (tenCqs base 1).length < ten1.par.cqMax ∧ tileUp base (u8 pCq 4) = true ∧ findFrom (cqFree base) 2048 (2048 * u8 pCq 4) = some 14336 := by decide +kernel
def qpIn (x : QpState) (k : QpKind) : Qp := { qp1 with st := x, par := { qp1.par with kind := k } }
def qpD (q : Qp) : Dev := base.onQ fun y => { y with qps := [(65535, q)] }
def pMod (s : Nat) : Bytes := pb [(0, 4, 1), (4, 4, 65535), (8, 1, s), (0x0A, 2, 0)]
theorem wit_QueuePairCommands_c : CmdBegun (withCmd 0x502 (pMod 4) (qpD qp1)) c0 0x0502 (pMod 4) ∧ CmdBegun (withCmd 0x503 (pMod 0) (qpD (qpIn .error .v2))) c0 0x0503 (pMod 0) :=
  ⟨begun_of (by decide +kernel), begun_of (by decide +kernel)⟩
/-- The peer of a move to RTR is node 5, VALID in the node table. -/
def pRtr : Bytes := pb [(0, 4, 1), (4, 4, 65535), (8, 1, 2), (0x0A, 2, 5)]
def rtrD : Dev := (qpD (qpIn .init .v2)).onNet fun n => { n with nodes := [(5, patch (zpad 32) 0 [1#8])] }
theorem wit_QueuePairCommands_d : (∀ s ∈ [0, 1, 3, 4], firstBad (qpModifyChk (pMod s) (qpD qp1)) = none ∧ u8 (pMod s) 8 = s) ∧ firstBad (qpModifyChk pRtr rtrD) = none
    ∧ (∀ x ∈ [QpState.error, .reset, .init, .rtr, .rts, .flushing], (qpD (qpIn x .v2)).qp? (u32 (pMod 0) 4) = some (qpIn x .v2) ∧ (qpIn x .v2).par.tenant = 1 ∧ (qpIn x .v2).st = x)
    ∧ (qpIn .init .v2).par.kind = .v2 ∧ (qpIn .init .loc).par.kind = .loc := by decide +kernel
def pCqd : Bytes := pb [(0, 4, 1)]
def pPath : Bytes := pb [(0, 4, 1), (4, 4, 65535), (8, 1, 2), (0x10, 1, 15), (0x18, 1, 0xFF), (0x1A, 2, 16383)]
theorem wit_QueuePairCommands_e : CmdBegun (withCmd 0x505 pCqd base) c0 0x0505 pCqd ∧ CmdBegun (withCmd 0x506 pPath (qpD qp1)) c0 0x0506 pPath := ⟨begun_of (by decide +kernel), begun_of (by decide +kernel)⟩
theorem wit_QueuePairCommands_f : (base.cq? (u32 pCqd 4)).map (·.tenant) = some 1 ∧ cqInUse base (u32 pCqd 4) = false ∧ firstBad (pathSetChk pPath (qpD qp1)) = none
    ∧ (qpD qp1).qp? (u32 pPath 4) = some qp1 ∧ qp1.par.kind = .v2 ∧ qp1.st ≠ .reset := by decide +kernel

def qpL : Qp := { par := ⟨1, .loc, 1, false, true, true, BitVec.ofNat 64 (2 ^ 63), 0#64, 4, 4, 0, 0xFFFF⟩, st := .rts, sq := { p := 1 } }
def locD (q : Qp) : Dev := base.onQ fun y => { y with qps := [(0, q)] }
/-- A local WRITE of 64 bytes. -/
def weW : Bytes := ([(0, 1, 1), (1, 1, 3), (0x10, 8, 2 ^ 63 + 0x1000), (0x18, 4, 64), (0x20, 8, 2 ^ 63 + 0x2000)] : List (Nat × Nat × Nat)).foldl (fun b (o, n, v) => patch b o (toLE n v)) (zpad 64)
theorem wit_WorkEntries_a : (locD qpL).On ∧ (locD qpL).pwr.state = .active ∧ (locD qpL).qp? 0 = some qpL ∧ (locD qpL).ten? qpL.par.tenant = some ten1
    ∧ tileUp (locD qpL) (qpTile 0) = true ∧ fetchCands (locD qpL) (qpTile 0) = [⟨1, 0, 1, 0⟩] ∧ nth (locD qpL).q.deficits 0 [] = [] ∧ nth (locD qpL).q.lastQueue 0 [] = []
    ∧ qpDead qpL = false ∧ qpL.par.kind = .loc ∧ tenCopy (locD qpL) (qpTile 0) 1 = some ten1.par ∧ trackerFull (locD qpL) 0 1 = false := ⟨rfl, by decide +kernel⟩
theorem wit_WorkEntries_b : weVerb weW ≠ vbOperate ∧ weCheck (locD qpL) 0 qpL false weW = none ∧ tb (u8 weW 1) 0 = phaseOf (sqSize qpL) qpL.sq.f := by decide +kernel
def qpRe : Qp := { qpL with sq := { p := 1, refetch := 3 } }
def fch (x : Option (Nat × Nat)) : Fetched := ⟨1, weW, x⟩
def qpF : Qp := { qpL with fetched := [fch none] }
def bgn : Begun := ⟨0, weW, none, none, false⟩
def qpB : Qp := { qpL with begun := [bgn], fetched := [fch (some (2, 3))] }
theorem wit_WorkEntries_c : qpRe.sq.refetch = 3 ∧ (match ringRead (touchRange 0 1 (nextAddr qpRe false) 64 false (locD qpRe)) 0 1 (nextAddr qpRe false) [] with | .bytes b => decide (b = zpad 64) | _ => false) = true
    ∧ mayBegin (locD qpF) 0 qpF = true ∧ qpF.begun = [] ∧ qpF.fetched = fch none :: [] ∧ qpF.par.kind = .loc ∧ (fch none).fail = none ∧ weVerb (fch none).bytes ≠ vbOperate
    ∧ mayBegin (locD qpB) 0 qpB = true ∧ qpB.begun = [bgn] ∧ bgn.held = false ∧ qpB.fetched = fch (some (2, 3)) :: [] := by decide +kernel

def xf : Xfer := { qpn := 0, idx := 0, tile := 0, entry := weW, legs := [{ src := .dev 0x1000, dst := .dev 0x2000, len := 64 }] }
def xfD : Dev := (locD { qpL with begun := [bgn] }).onQ fun y => { y with xfers := [(3, xf)] }
theorem wit_TransfersAndWaits_a : xfD.On ∧ xfD.q.xfers.get? 3 = some xf ∧ xf.legs[0]? = some { src := .dev 0x1000, dst := .dev 0x2000, len := 64 } ∧ weVerb xf.entry ≠ vbAtomic
    ∧ ((moveLeg { src := .dev 0x1000, dst := .dev 0x2000, len := 64 } xfD).map Prod.fst) = some false ∧ (xfD.stack (dpaStack 0x1000)).mode = .online ∧ xfD.mem.poison = []
    ∧ legOpen xfD xf.tile { src := .dev 0x1000, dst := .dev 0x2000, len := 64 } = true
    ∧ legOpen (xfD.onFab fun f => { f with queues := [{ id := ⟨1, .req, 0⟩, resetting := true }] }) xf.tile { src := .dev 0x1000, dst := .dev 0x2000, len := 64 } = false
    ∧ (∀ p ∈ [0x1000, 0x2000], (xfD.stack (dpaStack p)).mode = .online ∧ (xfD.stack (dpaStack p)).held = [] ∧ (xfD.stack (dpaStack p)).moves = []) :=
  ⟨rfl, by decide +kernel⟩
def w0 (sat : Bool) : WaitSt := { idx := 0, cq := 0, target := 0#32, satisfied := sat }
def weWait (n : Nat) : Bytes := patch (zpad 64) 0x13 (toLE 1 n)
def qpW (sat : Bool) (n : Nat) : Qp := { qpL with begun := [{ bgn with bytes := weWait n }], wait := some (w0 sat) }
theorem wit_TransfersAndWaits_b : (locD (qpW false 0)).qp? 0 = some (qpW false 0) ∧ (qpW false 0).wait = some (w0 false) ∧ (w0 false).satisfied = false
    ∧ ((locD (qpW false 0)).cq? (w0 false).cq).map (fun c => decide (c.st ≠ .overflow ∧ 0 ≤ seqDiff c.count (w0 false).target)) = some true
    ∧ weItems (waitEntry (qpW false 0) { w0 false with satisfied := true, count := 0#32 }) = 0 ∧ weItems (waitEntry (qpW false 4) { w0 false with satisfied := true, count := 0#32 }) ≠ 0
    ∧ (qpW true 1).wait = some (w0 true) ∧ (w0 true).satisfied = true ∧ (qpW true 1).entryStalled = false
    ∧ ((base.onCq 0 fun c => { c with st := .stalled, timer := true }).cq? 0).map (fun c => (c.st, c.timer)) = some (.stalled, true)
    ∧ ((base.onCq 0 fun c => { c with st := .stalled, timer := false }).cq? 0).map (fun c => (c.st, c.timer)) = some (.stalled, false) := by decide +kernel
def cqe0 (code : Nat) : Cqe := ⟨5#64, 0, 0#32, 0#64, 0, 0, 2, code, 0, false, false⟩
theorem wit_CompletionsCounted : (cqD 16).cq? 0 = some (cq0 16) ∧ (cq0 16).st = .open ∧ (cqe0 ccOk).code = ccOk ∧ (cq0 16).held = [] ∧ ringSub (cqSize (cq0 16)) (cq0 16).p (cq0 16).c = cqSize (cq0 16) := by decide +kernel

-- Witnesses: the engine

/-- SCORE over one row of 32 INT8 elements at DPA 0, one query, K = 1. -/
def scD : Bytes := pb [(0, 1, 1), (2, 2, 128), (4, 4, 0x91100), (8, 8, 2 ^ 63), (0x10, 8, 64), (0x18, 4, 32), (0x1C, 4, 64), (0x28, 4, 32), (0x2C, 2, 1), (0x40, 2, 1)]
def scLeg (x : LegStage) : Leg := { stack := 0, runs := [⟨0, 0, 64⟩], blocks := 1, stage := x, operand := zpad 32 }
def scOp (x : LegStage) : Op := { tile := 0, tenant := 1, src := .entry 0 0, desc := scD, stage := .cut, blocks := 1, need := 1, merge := true, srcRuns := [⟨0, 0, 64⟩], opndRuns := [⟨0, 0x1000, 32⟩], legs := [scLeg x] }
def engD (o : Op) (q : List (Nat × Nat)) : Dev := { base with eng := { ops := [(7, o)], nextOp := 8, stk := List.replicate 32 { queue := q } } }
theorem wit_EngineRules_a : (engD { scOp .unplaced with merge := false, need := 2048 } []).On
    ∧ mergeHead (engD { scOp .unplaced with merge := false, need := 2048 } []) 0 = some (7, { scOp .unplaced with merge := false, need := 2048 })
    ∧ tileUp base 0 = true ∧ mergeUsed (engD { scOp .unplaced with merge := false, need := 2048 } []) 0 + 2048 ≤ 2048
    ∧ 31 < 32 ∧ legHeads (engD (scOp .placed) [(7, 0)]) 0 = [(1, 7, 0, scOp .placed)] ∧ canGrant (engD (scOp .placed) [(7, 0)]) 0 7 0 (scOp .placed) = true
    ∧ ucodeBusy (engD (scOp .placed) [(7, 0)]) true 0 = false ∧ stackOffline base 0 = false ∧ (nth (engD (scOp .placed) [(7, 0)]).eng.stk 0 {}).deficit = []
    ∧ stackTakes (engD (scOp .placed) [(7, 0)]) 0 = true ∧ stackOpen (engD (scOp .placed) [(7, 0)]) 0 0 = true
    ∧ tileUp base (stackTile 31) = true := ⟨rfl, by decide +kernel⟩
def rdOp : Op := { scOp .unplaced with stage := .reading }
def readE : Dev := engD rdOp []
theorem wit_EngineRules_reading : readE.eng.ops = [(7, rdOp)] ∧ rdOp.tile = 0 ∧ rdOp.stage = .reading ∧ tileUp readE 0 = true ∧ cutOpen readE rdOp = true
    ∧ cutOpen (engD { scOp .unplaced with merge := false, need := 2048 } []) { scOp .unplaced with merge := false, need := 2048 } = true
    ∧ (∀ x ∈ (engD { scOp .unplaced with merge := false, need := 2048 } []).eng.ops, x.2.tile = 0 → x.2.stage ≠ .reading) := by decide +kernel
def parkE : Dev := (engD (scOp .placed) [(7, 0)]).onStk 0 fun x => { x with mode := .parked }
theorem wit_EngineRules_parked : parkE.On ∧ tileUp parkE (stackTile 0) = true ∧ (parkE.stack 0).mode = .parked ∧ (nth parkE.eng.stk 0 {}).queue ≠ [] := ⟨rfl, by decide +kernel⟩
def starve : Op := { scOp .placed with blocks := 33, legs := [{ scLeg .placed with blocks := 33 }, { scLeg .running with blocks := 33 }] }
theorem wit_EngineRules_b : (nth (engD starve [(7, 0)]).eng.stk 0 {}).starving = none ∧ legHeads (engD starve [(7, 0)]) 0 = [(1, 7, 0, starve)] ∧ starve.blocks ≠ 0
    ∧ 64 < blocksUsed (engD starve [(7, 0)]) 0 + starve.blocks := by decide +kernel
theorem wit_EngineRules_c : (engD (scOp .loading) []).op? 7 = some (scOp .loading) ∧ (scOp .loading).legs[0]? = some (scLeg .loading)
    ∧ (match readRuns (touchAll (· = 0) (scOp .loading).opndRuns (engD (scOp .loading) [])) (scOp .loading).opndRuns 0 (dOpndLen scD) with | .ok b => decide (b = zpad 32) | .error _ => false) = true
    ∧ listOk scD (zpad 32) = true ∧ listInside scD (zpad 32) = true ∧ legHolds (scLeg .loading) = true ∧ (∀ r ∈ (scOp .loading).opndRuns, placeOpen (engD (scOp .loading) []) 0 (.dev r.dpa) = true)
    ∧ listOk (patch scD 0 [2#8]) (List.replicate 32 1#8) = false := by decide +kernel
theorem wit_EngineRules_d : let o := scOp .running
    let r := legCompute (touchAll (· = 0) o.dstRuns (touchAll (· = 0) ((scLeg .running).runs ++ overhang o (scLeg .running)) (engD o []))) o (scLeg .running)
    o.legs = [scLeg .running] ∧ opResident o = false ∧ dOp o.desc ≠ opSet ∧ r.1.isOk = true ∧ r.2.op? 7 = some o
      ∧ stackAnswers (engD o []) 0 0 = true ∧ resultOpen (engD o []) o = true
      ∧ stackAnswers ((engD o []).onFab fun f => { f with queues := [{ id := ⟨2, .rsp, 0⟩, resetting := true }] }) 0 0 = false := by decide +kernel
def sickD : Dev := (engD (scOp .running) []).onMem fun m => { m with poison := [0] }
theorem wit_EngineRules_e : (legCompute (touchAll (· = 0) [] (touchAll (· = 0) ((scLeg .running).runs ++ overhang (scOp .running) (scLeg .running)) sickD)) (scOp .running) (scLeg .running)).1.isOk = false := by decide +kernel
/-- GRAPH_WALK whose entry row 0 has one neighbour, row 1. -/
def gwDesc : Bytes := pb [(0, 1, 3), (2, 2, 128), (4, 4, 0x91100), (8, 8, 2 ^ 63), (0x10, 8, 128), (0x18, 4, 32), (0x1C, 4, 64), (0x28, 4, 36), (0x2C, 2, 1), (0x40, 2, 4), (0x42, 1, 1), (0x43, 1, 1), (0x44, 2, 1),
  (0x46, 2, 9), (0x48, 4, 9)]
def gwOp : Op := { scOp .running with desc := gwDesc, srcRuns := [⟨0, 0, 128⟩], legs := [{ scLeg .running with operand := zpad 36 }] }
def gwDev : Dev := (engD gwOp []).onMem fun m => { m with bytes := [⟨32, 1#8⟩, ⟨36, 1#8⟩] }
theorem wit_EngineRules_f : gwDev.op? 7 = some gwOp ∧ opResident gwOp = true ∧ gwOp.stage = .cut ∧ gwOp.legs ≠ [] ∧ (∀ l ∈ gwOp.legs, l.stage = .running ∧ stackAnswers gwDev l.stack gwOp.tile = true) ∧ resultOpen gwDev gwOp = true
    ∧ (match walkRound (touchAll (fun k => gwOp.legs.any (·.stack = k)) gwOp.srcRuns gwDev) gwOp (zpad 36) with | .ok (w, ss) => decide (w.stop = 0 ∧ ss.length = 1) | .error _ => false) = true := by decide +kernel

-- Witnesses: the wire

/-- Big-endian bytes of an extension. -/
def px (n : Nat) (l : List (Nat × Nat × Nat)) : Bytes := l.foldl (fun b (o, k, v) => patch b o (toBE k v)) (zpad n)
def wirePort : NetPort := { ent := { mode := .dr8, ipv4 := [10#8, 0#8, 0#8, 1#8], ipv6 := zpad 16 }, st := .up, lanesActive := 0xFF#8 }
def net0 : Net := { ports := wirePort :: List.replicate 15 {}, nodeId := 3#16, tileNodes := List.replicate 8 [(7, px 32 [(0, 1, 1), (2, 1, 1)])] }
def wWin : Window := { tenant := 1, dva := 0, len := 0x400000, rights := 15#4, peerMode := 0, peerNode := 0#16, key := 0x77#32, views := List.replicate 8 .open }
def qpT (f : Conn → Conn) : Qp := { qp1 with conn := f { qp1.conn with granted := 8#32 } }
def wireD (q : Qp) : Dev := { base with net := net0, q := { base.q with qps := [(0, q)] }, xlt := { base.xlt with windows := [(5, wWin)] } }
def mkP (t : BitVec 8) (fl : BitVec 8) (ext payload : Bytes) : Pkt :=
  withCrc t { pflags := fl, dstNode := 3#16, srcNode := 7#16, dstQpn := 0#32, srcQpn := 9#32, ext := ext, payload := payload }

def afterPkt (d : Dev) (port : Nat) (t : BitVec 8) (p : Pkt) (q : Qp) : Dev :=
  (meterPkt port t p q.par.tenant (count 0x0402 port (some q.par.tenant) 1 (count 0x0403 port (some q.par.tenant) (frameLen p) d))).2.onConn p.dstQpn.toNat
    fun c => { c with gotValid := true }
def takenB (d : Dev) (port : Nat) (t : BitVec 8) (p : Pkt) (q : Qp) : Bool :=
  decide (d.pwr.state = .active ∧ portUp d port = true ∧ tileUp d (portTile port) = true ∧ (d.port port).ent.mode ≠ .direct
    ∧ ingressFill d port + frameLen p ≤ 1048576 ∧ pflag p pfAuth = false ∧ p.trailer.length = 4
    ∧ d.qp? p.dstQpn.toNat = some q ∧ q.conn.auth = none ∧ q.par.kind = .v2 ∧ q.st = .rts ∧ p.ver.toNat / 16 = 2 ∧ pktForm false t p = true
    ∧ p.srcNode = q.conn.peerNode ∧ p.srcQpn = q.conn.peerQpn)
    && !(meterPkt port t p q.par.tenant (count 0x0402 port (some q.par.tenant) 1 (count 0x0403 port (some q.par.tenant) (frameLen p) d))).1
theorem taken_of {d : Dev} {port : Nat} {t : BitVec 8} {p : Pkt} {q : Qp} (h : takenB d port t (withCrc t p) q = true) :
    PktTaken d port t (withCrc t p) q (afterPkt d port t (withCrc t p) q) := by
  unfold takenB at h
  rw [Bool.and_eq_true] at h
  obtain ⟨h, g⟩ := h
  obtain ⟨a1, a2, a3, a4, a5, a6, a7, a9, a10, a11, a12, a13, a14, a15, a16⟩ := of_decide_eq_true h
  exact ⟨a1, a2, a3, a4, a5, a6, a7, rfl, a9, a10, a11, a12, a13, a14, a15, a16, _, Prod.ext (by simpa using g) rfl, rfl⟩

/-- Bool form of PktInOrder, ReqRuns and the places at hand, and no earlier packet of the message. -/
def runsB (e : Dev) (q : Qp) (t : BitVec 8) (p : Pkt) : Bool :=
  decide (q.conn.fatal = none ∧ psnBefore p.psn q.conn.cumRx = false ∧ (p.psn - q.conn.cumRx).toNat < 256
    ∧ nth q.conn.rxMap (p.psn - q.conn.cumRx).toNat false = false ∧ (isReq t = true → seqDiff p.msn q.conn.granted < 0)
    ∧ p.payload.length ≤ q.conn.mtu ∧ (t = ptOperateReq ∨ pflag p pfLast = true ∨ p.payload.length = q.conn.mtu) ∧ p.msgOffset.toNat % q.conn.mtu = 0)
    && decide (notReadyNow e q t p = false ∧ 0 ≤ seqDiff p.msn q.conn.rxMsn) && decide (landFlow e 0 (targetPlaces e 0 q t p) = none ∧ rxMsg? q p.msn = none)
theorem runs_of {e : Dev} {q : Qp} {t : BitVec 8} {p : Pkt} (h : runsB e q t p = true) : PktInOrder q t p ∧ ReqRuns e q t p ∧ landFlow e 0 (targetPlaces e 0 q t p) = none ∧ rxMsg? q p.msn = none := by
  unfold runsB at h
  rw [Bool.and_eq_true, Bool.and_eq_true] at h
  have a := of_decide_eq_true h.1.1
  have b := of_decide_eq_true h.1.2
  have c := of_decide_eq_true h.2
  exact ⟨a, b, c⟩

def qR : Qp := { qpT id with recvs := [{ ord := 0, idx := 0, bytes := ([(0, 1, 4), (0x10, 8, 2 ^ 63 + 0x1000), (0x18, 4, 64)] : List (Nat × Nat × Nat)).foldl (fun b (o, n, v) => patch b o (toLE n v)) (zpad 64), runs := [(.dev 0x1000, 64)] }], recvOrd := 1 }
def dR : Dev := wireD qR
def winExt (n : Nat) (l : List (Nat × Nat × Nat)) : Bytes := px n ([(0, 4, 5), (4, 4, 0x77)] ++ l)
def pWrite : Pkt := mkP ptWrite 0xC0#8 (winExt 16 [(8, 8, 64)]) (List.replicate 16 7#8)
def pSend : Pkt := mkP ptSend 0xC0#8 (px 16 [(4, 4, 64)]) (List.replicate 64 7#8)
def pRead : Pkt := mkP ptReadReq 0xC0#8 (winExt 24 [(16, 4, 64)]) []
def pReadBad : Pkt := mkP ptReadReq 0xC0#8 (px 24 [(0, 4, 5), (4, 4, 0x76), (16, 4, 64)]) []
def pAtom : Pkt := mkP ptAtomicReq 0xC0#8 (winExt 40 [(17, 1, 8)]) []
def opDesc : Bytes := pb [(0, 1, 1), (1, 1, 1), (2, 2, 128), (4, 4, 0x91100), (8, 8, 0), (0x10, 8, 64), (0x18, 4, 32), (0x1C, 4, 64), (0x20, 8, 0x1000), (0x28, 4, 32), (0x2C, 2, 1), (0x2E, 1, 1), (0x38, 4, 64), (0x40, 2, 1)]
def pOper : Pkt := mkP ptOperateReq 0xC0#8 (winExt 16 []) opDesc
theorem wit_RequestsArrive_write : PktTaken dR 0 ptWrite pWrite qR (afterPkt dR 0 ptWrite pWrite qR) ∧ PktInOrder qR ptWrite pWrite ∧ ReqRuns (afterPkt dR 0 ptWrite pWrite qR) qR ptWrite pWrite
    ∧ landFlow (afterPkt dR 0 ptWrite pWrite qR) 0 (targetPlaces (afterPkt dR 0 ptWrite pWrite qR) 0 qR ptWrite pWrite) = none ∧ rxMsg? qR pWrite.msn = none := ⟨taken_of (by decide +kernel), runs_of (by decide +kernel)⟩
theorem wit_RequestsArrive_send : PktTaken dR 0 ptSend pSend qR (afterPkt dR 0 ptSend pSend qR) ∧ PktInOrder qR ptSend pSend ∧ ReqRuns (afterPkt dR 0 ptSend pSend qR) qR ptSend pSend
    ∧ landFlow (afterPkt dR 0 ptSend pSend qR) 0 (targetPlaces (afterPkt dR 0 ptSend pSend qR) 0 qR ptSend pSend) = none ∧ rxMsg? qR pSend.msn = none := ⟨taken_of (by decide +kernel), runs_of (by decide +kernel)⟩
theorem wit_RequestsArrive_read : PktTaken dR 0 ptReadReq pRead qR (afterPkt dR 0 ptReadReq pRead qR) ∧ PktInOrder qR ptReadReq pRead ∧ ReqRuns (afterPkt dR 0 ptReadReq pRead qR) qR ptReadReq pRead
    ∧ landFlow (afterPkt dR 0 ptReadReq pRead qR) 0 (targetPlaces (afterPkt dR 0 ptReadReq pRead qR) 0 qR ptReadReq pRead) = none ∧ rxMsg? qR pRead.msn = none := ⟨taken_of (by decide +kernel), runs_of (by decide +kernel)⟩
theorem wit_RequestsArrive_refused : PktTaken dR 0 ptReadReq pReadBad qR (afterPkt dR 0 ptReadReq pReadBad qR) ∧ PktInOrder qR ptReadReq pReadBad
    ∧ ReqRuns (afterPkt dR 0 ptReadReq pReadBad qR) qR ptReadReq pReadBad ∧ landFlow (afterPkt dR 0 ptReadReq pReadBad qR) 0 (targetPlaces (afterPkt dR 0 ptReadReq pReadBad qR) 0 qR ptReadReq pReadBad) = none ∧ rxMsg? qR pReadBad.msn = none := ⟨taken_of (by decide +kernel), runs_of (by decide +kernel)⟩
theorem wit_RequestsArrive_atomic : PktTaken dR 0 ptAtomicReq pAtom qR (afterPkt dR 0 ptAtomicReq pAtom qR) ∧ PktInOrder qR ptAtomicReq pAtom
    ∧ ReqRuns (afterPkt dR 0 ptAtomicReq pAtom qR) qR ptAtomicReq pAtom ∧ landFlow (afterPkt dR 0 ptAtomicReq pAtom qR) 0 (targetPlaces (afterPkt dR 0 ptAtomicReq pAtom qR) 0 qR ptAtomicReq pAtom) = none ∧ rxMsg? qR pAtom.msn = none := ⟨taken_of (by decide +kernel), runs_of (by decide +kernel)⟩
theorem wit_RequestsArrive_operate : PktTaken dR 0 ptOperateReq pOper qR (afterPkt dR 0 ptOperateReq pOper qR) ∧ PktInOrder qR ptOperateReq pOper
    ∧ ReqRuns (afterPkt dR 0 ptOperateReq pOper qR) qR ptOperateReq pOper ∧ landFlow (afterPkt dR 0 ptOperateReq pOper qR) 0 (targetPlaces (afterPkt dR 0 ptOperateReq pOper qR) 0 qR ptOperateReq pOper) = none ∧ rxMsg? qR pOper.msn = none := ⟨taken_of (by decide +kernel), runs_of (by decide +kernel)⟩
def isWin (r : Except Nat Window) : Bool := match r with
  | .ok w => decide (w = wWin)
  | .error _ => false
theorem wit_RequestsArrive_checks : pflag pWrite pfImm = false ∧ isWin (winCheck (afterPkt dR 0 ptWrite pWrite qR) 0 pWrite 2 (reqRanges ptWrite pWrite)) = true
    ∧ isWin (winCheck dR 0 pRead 1 (reqRanges ptReadReq pRead)) = true ∧ isWin (winCheck dR 0 pAtom 4 (reqRanges ptAtomicReq pAtom)) = true
    ∧ isWin (winCheck dR 0 pOper (operateNeed pOper.payload) (reqRanges ptOperateReq pOper)) = true ∧ descCheck false pOper.payload.length pOper.payload = none
    ∧ pOper.payload.length % 64 = 0 ∧ pOper.payload.length ≤ 512 ∧ pOper.payload ≠ [] ∧ pflag pOper pfFirst = true ∧ pflag pOper pfLast = true
    ∧ (match winCheck dR 0 pReadBad 1 (reqRanges ptReadReq pReadBad) with | .error c => decide (c = 2) | .ok _ => false) = true
    ∧ conflicts { msn := pSend.msn, verb := ptSend, len := some 64, ssn := some 0#32 } ptSend pSend (some 0#32) (some 64) = false
    ∧ (match recvFor qR pSend.msn 0#32 with
      | .some_ r => decide (64 ≤ weLen r.bytes ∧ hostShut (afterPkt dR 0 ptSend pSend qR) (placesAt r.runs 0 64) = false)
      | _ => false) = true := by decide +kernel
/-- The stack of the places is behind a link in reset: the packet waits for its way. -/
def shutAt (d : Dev) : Dev := d.onFab fun f => { f with queues := [{ id := ⟨1, .req, 0⟩, resetting := true }] }
theorem wit_RequestsArrive_waits : PktTaken (shutAt dR) 0 ptWrite pWrite qR (afterPkt (shutAt dR) 0 ptWrite pWrite qR) ∧ PktInOrder qR ptWrite pWrite
    ∧ qR.par.kind = .v2 ∧ landFlow (afterPkt (shutAt dR) 0 ptWrite pWrite qR) 0 (targetPlaces (afterPkt (shutAt dR) 0 ptWrite pWrite qR) 0 qR ptWrite pWrite) = some ⟨.req, 0, 0⟩ :=
  ⟨taken_of (by decide +kernel), (runs_of (e := dR) (by decide +kernel)).1, by decide +kernel⟩
theorem wit_RequestsArrive_send_waits : PktTaken (shutAt dR) 0 ptSend pSend qR (afterPkt (shutAt dR) 0 ptSend pSend qR) ∧ PktInOrder qR ptSend pSend
    ∧ landFlow (afterPkt (shutAt dR) 0 ptSend pSend qR) 0 (targetPlaces (afterPkt (shutAt dR) 0 ptSend pSend qR) 0 qR ptSend pSend) = some ⟨.req, 0, 0⟩ :=
  ⟨taken_of (by decide +kernel), (runs_of (e := dR) (by decide +kernel)).1, by decide +kernel⟩

-- Responses: a message of each verb that is open

def msg0 (verb : Nat) : TxMsg := { msn := 0#32, idx := 0, verb := verb, len := 64, data := none, opened := true, runs := [(.dev 0x1000, 64)] }
def bgm (verb : Nat) : Begun := { idx := 0, bytes := patch (patch (zpad 64) 0 (toLE 1 verb)) 0x10 (toLE 8 (2 ^ 63 + 0x1000)), msn := some 0#32, fin := none }
def qM (verb : Nat) : Qp := { qpT (fun c => { c with msgs := [msg0 verb], nextMsn := 1#32 }) with begun := [bgm verb] }
def pRr : Pkt := mkP ptReadResp 0xC0#8 (zpad 8) (List.replicate 64 1#8)
def pAr : Pkt := mkP ptAtomicResp 0xC0#8 (zpad 8) (zpad 8)
def pOr : Pkt := mkP ptOperateResp 0xC0#8 (zpad 8) (zpad 64)
theorem wit_ResponsesArrive_a : PktTaken (wireD (qM 2)) 0 ptReadResp pRr (qM 2) (afterPkt (wireD (qM 2)) 0 ptReadResp pRr (qM 2))
    ∧ PktTaken (wireD (qM 5)) 0 ptAtomicResp pAr (qM 5) (afterPkt (wireD (qM 5)) 0 ptAtomicResp pAr (qM 5))
    ∧ PktTaken (wireD (qM 6)) 0 ptOperateResp pOr (qM 6) (afterPkt (wireD (qM 6)) 0 ptOperateResp pOr (qM 6)) :=
  ⟨taken_of (by decide +kernel), taken_of (by decide +kernel), taken_of (by decide +kernel)⟩
theorem wit_ResponsesArrive_b : PktInOrder (qM 2) ptReadResp pRr ∧ PktInOrder (qM 5) ptAtomicResp pAr ∧ PktInOrder (qM 6) ptOperateResp pOr :=
  ⟨(runs_of (e := wireD (qM 2)) (by decide +kernel)).1, (runs_of (e := wireD (qM 5)) (by decide +kernel)).1, (runs_of (e := wireD (qM 6)) (by decide +kernel)).1⟩
theorem wit_ResponsesArrive_c : (∀ x ∈ [(2, ptReadResp, pRr), (5, ptAtomicResp, pAr), (6, ptOperateResp, pOr)],
      (((afterPkt (wireD (qM x.1)) 0 x.2.1 x.2.2 (qM x.1)).qp? 0).bind fun r => r.conn.msgs.find? fun m => m.msn = x.2.2.msn && m.opened && m.verb = x.1) = some (msg0 x.1)
      ∧ landFlow (afterPkt (wireD (qM x.1)) 0 x.2.1 x.2.2 (qM x.1)) 0 (targetPlaces (afterPkt (wireD (qM x.1)) 0 x.2.1 x.2.2 (qM x.1)) 0
        { qM x.1 with conn := { (qM x.1).conn with gotValid := true } } x.2.1 x.2.2) = none
      ∧ (afterPkt (wireD (qM x.1)) 0 x.2.1 x.2.2 (qM x.1)).qp? 0 = some { qM x.1 with conn := { (qM x.1).conn with gotValid := true } }) := by decide +kernel
def readD : Dev := shutAt (wireD (qM 2))
theorem wit_ResponsesArrive_waits : PktTaken readD 0 ptReadResp pRr (qM 2) (afterPkt readD 0 ptReadResp pRr (qM 2)) ∧ PktInOrder (qM 2) ptReadResp pRr
    ∧ ((afterPkt readD 0 ptReadResp pRr (qM 2)).qp? 0).map (fun r => landFlow (afterPkt readD 0 ptReadResp pRr (qM 2)) 0
      (targetPlaces (afterPkt readD 0 ptReadResp pRr (qM 2)) 0 r ptReadResp pRr)) = some (some ⟨.req, 0, 0⟩) :=
  ⟨taken_of (by decide +kernel), (runs_of (e := wireD (qM 2)) (by decide +kernel)).1, by decide +kernel⟩
def pAck : Pkt := mkP ptAck 0#8 (zpad 56) []
def pNak : Pkt := mkP ptNak 0#8 (px 24 [(8, 1, 1)]) []
def pProbe : Pkt := mkP ptProbe 0#8 [] []
def pDisc : Pkt := mkP ptDisconnect 0#8 (px 8 [(0, 1, 1)]) []
theorem wit_ResponsesArrive_d : PktTaken dR 0 ptAck pAck qR (afterPkt dR 0 ptAck pAck qR) ∧ PktTaken dR 0 ptNak pNak qR (afterPkt dR 0 ptNak pNak qR)
    ∧ PktTaken dR 0 ptProbe pProbe qR (afterPkt dR 0 ptProbe pProbe qR) ∧ PktTaken dR 0 ptDisconnect pDisc qR (afterPkt dR 0 ptDisconnect pDisc qR) :=
  ⟨taken_of (by decide +kernel), taken_of (by decide +kernel), taken_of (by decide +kernel), taken_of (by decide +kernel)⟩
def qDup : Qp := qpT fun c => { c with cumRx := 1#32 }
theorem wit_ResponsesArrive_e : PktTaken (wireD qDup) 0 ptWrite pWrite qDup (afterPkt (wireD qDup) 0 ptWrite pWrite qDup) ∧ qDup.conn.fatal = none ∧ psnBefore pWrite.psn qDup.conn.cumRx = true :=
  ⟨taken_of (by decide +kernel), rfl, by decide +kernel⟩
def pCrc : Pkt := { pWrite with payload := List.replicate 16 8#8, trailer := zpad 4 }
def mRq (t : BitVec 8) (p : Pkt) : RxMsg := { msn := 0#32, verb := t, len := none, port := 0, request := some p }
def qAd (t : BitVec 8) (p : Pkt) : Qp := qpT fun c => { c with rx := [mRq t p] }
theorem wit_ResponsesArrive_f : pCrc.trailer.length = 4 ∧ pCrc.trailer ≠ toLE 4 (crc32c (coveredBytes ptWrite pCrc)).toNat ∧ pflag pCrc pfAuth = false ∧ portUp dR 0 = true
    ∧ (dR.port 0).ent.mode ≠ .direct ∧ ingressFill dR 0 + frameLen pCrc ≤ 1048576 ∧ dR.qp? 0 = some qR ∧ qR.conn.auth = none := by decide +kernel
theorem wit_ResponsesArrive_admit (x : BitVec 8 × Pkt) (h : x ∈ [(ptReadReq, pRead), (ptAtomicReq, pAtom), (ptOperateReq, pOper)]) : (wireD (qAd x.1 x.2)).qp? 0 = some (qAd x.1 x.2)
    ∧ (qAd x.1 x.2).st = .rts ∧ nextAdmit (qAd x.1 x.2) 64 (qAd x.1 x.2).conn.rxMsn = some (mRq x.1 x.2) ∧ (mRq x.1 x.2).request = some x.2
    ∧ (wireD (qAd x.1 x.2)).win? (bx x.2.ext 0 4) = some wWin ∧ tileUp (wireD (qAd x.1 x.2)) 0 = true ∧ admitOpen (wireD (qAd x.1 x.2)) 0 wWin x.1 x.2 = true
    ∧ pendingUsed (wireD (qAd x.1 x.2)) 0 < 1024 ∧ ucodeBusy (wireD (qAd x.1 x.2)) false 0 = false := by
  rcases List.mem_cons.mp h with rfl | h
  · decide +kernel
  · rcases List.mem_cons.mp h with rfl | h
    · decide +kernel
    · obtain rfl := List.mem_singleton.mp h
      exact ⟨rfl, rfl, rfl, rfl, by decide +kernel, by decide +kernel, by decide +kernel, by decide +kernel, by decide +kernel⟩

-- Frames and timers

def hdr0 (fcs : Bool) (tags : Nat) : FrameHdr := ⟨fcs, tags, true, true, 47312#16, false, true, 64, 1#8, {}⟩
def chk0 : Dev := dR.onPort 15 fun p => { p with st := .checking, lldpDue := true, ent := { mode := .dr8, chassis := [1#8], portId := [2#8] } }
theorem wit_FramesAndTimers_a : dR.On ∧ portUp dR 0 = true ∧ (hdr0 false 0).fcsOk = false ∧ (hdr0 true 2).fcsOk = true ∧ 1 < (hdr0 true 2).tags ∧ [10#8, 0#8, 0#8, 1#8] ≠ ([] : Bytes)
    ∧ (∃ p ∈ dR.net.ports, p.ent.ipv4 = [10#8, 0#8, 0#8, 1#8] ∧ ([10#8, 0#8, 0#8, 1#8] : Bytes).length = 4) ∧ (∃ p ∈ dR.net.ports, p.ent.ipv6 = zpad 16 ∧ (zpad 16).length = 16)
    ∧ ownIp (wirePort.ent.ipv4) [10#8, 0#8, 0#8, 1#8] 4 = true ∧ wirePort ∈ dR.net.ports ∧ bufFull dR 0 64 = false ∧ ewewaFrame dR { hdr0 true 0 with udpLen := 35 } = true ∧ pflag (hdr0 true 0).p pfAuth = false ∧ bufFull chk0 15 64 = false ∧ ethRuns (dR.port 0) = true ∧ ethRuns (dR.port 1) = false ∧ 15 < chk0.net.ports.length ∧ (chk0.port 15).st = .checking ∧ (chk0.port 15).lldpDue = true
    ∧ (chk0.port 15).ent.chassis = [1#8] ∧ (chk0.port 15).ent.portId = [2#8] := ⟨rfl, by decide +kernel⟩
/-- A frame of a reserved PTYPE: of a wrong trailer, of another VERSION, or sound. -/
def hdrR (p : Pkt) : FrameHdr := { hdr0 true 0 with ptype := 0x30#8, p := p }
def resBad : Pkt := { trailer := zpad 4 }
def resVer : Pkt := withCrc 0x30#8 { ver := 0x10#8 }
def resOk : Pkt := withCrc 0x30#8 {}
theorem crc_made (t : BitVec 8) (p : Pkt) : (withCrc t p).trailer = toLE 4 (crc32c (coveredBytes t (withCrc t p))).toNat := rfl
theorem wit_FramesAndTimers_reserved : (∀ p ∈ [resBad, resVer, resOk], (hdrR p).fcsOk = true ∧ ewewaFrame dR (hdrR p) = true ∧ 36 ≤ (hdrR p).udpLen ∧ ptKnown (hdrR p).ptype = false
      ∧ pflag (hdrR p).p pfAuth = false ∧ authOf dR (hdrR p).p.dstQpn.toNat = none)
    ∧ resBad.trailer ≠ toLE 4 (crc32c (coveredBytes 0x30#8 resBad)).toNat ∧ resVer.trailer = toLE 4 (crc32c (coveredBytes 0x30#8 resVer)).toNat
    ∧ resOk.trailer = toLE 4 (crc32c (coveredBytes 0x30#8 resOk)).toNat ∧ versionOk dR 0 resVer = false ∧ versionOk dR 0 resOk = true :=
  ⟨by decide +kernel, by decide +kernel, crc_made _ _, crc_made _ _, by decide +kernel, by decide +kernel⟩
def tx0 (sends retx : Nat) : TxPkt := { psn := 0#32, ptype := ptWrite, msn := 0#32, off := 0, len := 0, first := true, last := true, ext := zpad 16, sends := sends, retx := retx, due := sends = 0 }
def pa0 : Path := { egress := 0xFF, entropy := 5#14, w := 256 * 65536 }
def qTx (sends retx : Nat) : Qp := { qpT (fun c => { c with unacked := [tx0 sends retx], msgs := [msg0 1], nextPsn := 1#32, commits := 1, discLeft := 2 }) with paths := [pa0] }
theorem wit_FramesAndTimers_b : (wireD (qTx 0 0)).qp? 0 = some (qTx 0 0) ∧ (qTx 0 0).st = .rts ∧ (qTx 0 0).conn.auth = none ∧ nextPkt (qTx 0 0) = some (tx0 0 0)
    ∧ (match payloadOf (touchPlaces (payloadPlaces (wireD (qTx 0 0)) 0 (qTx 0 0) (tx0 0 0)) (wireD (qTx 0 0))) 0 (qTx 0 0) (tx0 0 0) with | .ok a b => decide (a = zpad 16 ∧ b = []) | _ => false) = true
    ∧ (tenantShaper (wireD (qTx 0 0)) 1 0).enable = false ∧ tileUp (wireD (qTx 0 0)) (qpTile 0) = true ∧ (dropDeadPaths 0 (wireD (qTx 0 0))).qp? 0 = some (qTx 0 0)
    ∧ choosePath (tx0 0 0) (eligible (dropDeadPaths 0 (wireD (qTx 0 0))) 0 (qTx 0 0) ptWrite (plannedLen (dropDeadPaths 0 (wireD (qTx 0 0))) 0 (qTx 0 0) (zpad 16) [])) = some (0, pa0, 0) := by decide +kernel
def qMs (probes : Nat) (susp : Bool) : Qp := qpT fun c => { c with msgs := [{ msg0 1 with opened := false, probes := probes, suspended := susp }] }
def qRtr : Qp := { qpT id with st := .rtr }
theorem wit_FramesAndTimers_c : (∀ r ∈ [6, 7], (wireD (qTx 1 r)).qp? 0 = some (qTx 1 r) ∧ pkt? (qTx 1 r) 0#32 = some (tx0 1 r) ∧ (tx0 1 r).sends ≠ 0 ∧ suspended (qTx 1 r) (tx0 1 r) = false)
    ∧ (tx0 1 6).retx < 7 ∧ 7 ≤ (tx0 1 7).retx ∧ (qTx 0 0).conn.commits ≠ 0 ∧ (qTx 0 0).conn.discLeft ≠ 0
    ∧ (∃ m ∈ (qMs 6 true).conn.msgs, m.msn = 0#32 ∧ m.suspended = true)
    ∧ (∀ n ∈ [6, 7], (wireD (qMs n false)).qp? 0 = some (qMs n false) ∧ (qMs n false).conn.msgs = [{ msg0 1 with opened := false, probes := n }] ∧ (qMs n false).par.kind = .v2 ∧ (qMs n false).paths = [])
    ∧ (wireD qRtr).qp? 0 = some qRtr ∧ qRtr.st = .rtr ∧ qRtr.conn.gotValid = false ∧ dR.ten.stubs.get? 0 = none := by decide +kernel

-- Congestion and shaping

def pCc : Bytes := pb [(1, 1, 15), (0x10, 4, 500), (0x14, 4, 65536), (0x18, 4, 64), (0x1C, 4, 2097152), (0x20, 4, 64), (0x24, 2, 255), (0x26, 2, 1), (0x28, 4, 10), (0x2C, 2, 1024), (0x2E, 2, 10000)]
def pShp : Bytes := pb [(1, 1, 15), (2, 1, 6), (3, 1, 1), (9, 1, 1), (0x0C, 4, 100), (0x10, 4, 100), (0x14, 4, 16384), (0x18, 4, 16384)]
def pMet : Bytes := pb [(1, 1, 15), (2, 1, 2), (0x0C, 4, 100), (0x10, 4, 100), (0x14, 4, 16384), (0x18, 4, 16384), (0x1C, 1, 100)]
def pGate : Bytes := pb [(0, 1, 15), (1, 1, 1), (2, 2, 1), (0x10, 4, 1000), (0x20, 4, 1000), (0x24, 1, 0x7F)]
theorem wit_CongestionRules_a : CmdBegun (withCmd 0x507 pCc base) c0 0x0507 pCc ∧ CmdBegun (withCmd 0x701 pShp base) c0 0x0701 pShp ∧ CmdBegun (withCmd 0x702 pMet base) c0 0x0702 pMet
    ∧ CmdBegun (withCmd 0x703 pGate base) c0 0x0703 pGate := ⟨begun_of (by decide +kernel), begun_of (by decide +kernel), begun_of (by decide +kernel), begun_of (by decide +kernel)⟩
theorem wit_CongestionRules_b : firstBad (ccProfileChk pCc base) = none ∧ u8 pCc 0 = 0 ∧ firstBad (shaperChk pShp base) = none ∧ u8 pShp 0 = 0 ∧ firstBad (meterChk pMet base) = none ∧ u8 pMet 0 = 0
    ∧ firstBad (gateChk pGate base) = none ∧ (base.port (u8 pGate 0)).gatePending = none ∧ u8 pGate 1 = 1 ∧ 0 < 1 := by decide +kernel
def qPa (pr : List Nat) : Qp := { qpT id with paths := [{ pa0 with up := false, probe := pr }] }
/-- A port asleep whose EQ7 holds a frame. -/
def napD : Dev := dR.onPort 0 fun p => { p with st := .sleep, queues := List.replicate 7 {} ++ [{ frames := [⟨64, false, 0, .arp [10#8, 0#8, 0#8, 1#8], [], none⟩] }] }
theorem wit_CongestionRules_sleep : gateHeld napD (napD.port 0) = false ∧ (napD.port 0).st = .sleep ∧ (pickFrame napD { napD.port 0 with st := .up }).1 ≠ .nothing := by decide +kernel
def gl : GateList := ⟨0, 1000, [(1000, 0x7F#8)]⟩
def gateD : Dev := dR.onPort 0 fun p => { p with gate := some gl, gateOn := true, gatePending := some ⟨none, c0, 0⟩ }
def arpF : Frame := ⟨64, false, 0, .arp [10#8, 0#8, 0#8, 1#8], [], none⟩
def txD : Dev := dR.onPort 0 fun p => { p with queues := List.replicate 7 {} ++ [{ frames := [arpF] }] }
theorem wit_CongestionRules_c : (wireD (qPa [])).qp? 0 = some (qPa []) ∧ (qPa []).st = .rts ∧ (qPa []).par.kind = .v2 ∧ (wireD (qPa [1])).qp? 0 = some (qPa [1]) := by decide +kernel
theorem wit_CongestionRules_c2 : (qPa []).paths[0]? = some { pa0 with up := false, probe := [] } ∧ (qPa [1]).paths[0]? = some { pa0 with up := false, probe := [1] } := by decide +kernel
theorem wit_CongestionRules_c3 : 0 < gateD.net.ports.length ∧ (gateD.port 0).gateOn = true ∧ (gateD.port 0).gate = some gl ∧ (gateD.port 0).gatePending = some ⟨none, c0, 0⟩ := by decide +kernel
theorem wit_CongestionRules_d : (∀ y ∈ dR.net.pace, y.2.egressNext = none) ∧ dR.ropes.slots = [] ∧ gateHeld txD (txD.port 0) = false ∧ (txD.port 0).st = .up ∧ (txD.port 0).holding = false
    ∧ (nth (txD.port 0).queues 7 {}).frames = arpF :: [] ∧ linkTakes txD (txD.port 0) arpF false = true := by decide +kernel

-- Witnesses: direct links

def dirPort (d : Nat) : NetPort := { ent := { mode := .direct, peerPort := 4, peerNode := 7#16, peerId := List.replicate 16 9#8, dir := some d }, st := .up, lanesActive := 0xFF#8, lanesHealthy := 0xFF#8 }
def dLk (l : Link) : Dev := { base with net := { net0 with ports := { dirPort 0 with link := l } :: List.replicate 15 {} } }
/-- A block as its sender makes it has a CRC that is right. -/
theorem made_ok (bt vc : Nat) (sof eof : Bool) (len seq ack cvc n : Nat) (pl : Bytes) (h : (slice pl 0 244).length = 244)
    (hb : bt * 2 ^ 60 + vc * 2 ^ 57 + b2n sof * 2 ^ 56 + b2n eof * 2 ^ 55 + len * 2 ^ 47 + seq * 2 ^ 35 + ack * 2 ^ 23 + cvc * 2 ^ 20 + n * 2 ^ 10 < 2 ^ 64) :
    blkCrcOk (mkBlock bt vc sof eof len seq ack cvc n pl) = true := by
  unfold blkCrcOk mkBlock
  simp only [h, BitVec.toNat_ofNat, Nat.mod_eq_of_lt hb, decide_true, Bool.and_self]
def blk (bt vc : Nat) (sof eof : Bool) (len seq ack cvc n : Nat) : Block := mkBlock bt vc sof eof len seq ack cvc n (List.replicate 244 3#8)
def lkA : Link := {}
def lkNo : Link := { rxCredits := [0, 832, 832, 832, 320, 320, 128] }
def lkU : Link := { txSeq := 3, unacked := [(1, blk 1 0 true true 4 1 0 0 0), (2, blk 1 0 true true 4 2 0 0 0)] }
theorem wit_LinkBlocks_a : linkLive ((dLk lkA).port 0) = true ∧ blkCrcOk ⟨0#64, [], 0#32⟩ = false
    ∧ blkSeq (blk 1 0 true true 4 5 0 0 0) ≠ lkA.rxSeq ∧ blkType (blk 1 0 true true 4 5 0 0 0) = btData := by decide +kernel
theorem wit_LinkBlocks_b : (∀ e ∈ [true, false], blkCrcOk (blk 1 0 true e 244 0 0 0 0) = true ∧ blkFormOk (blk 1 0 true e 244 0 0 0 0) = true ∧ lkA.unacked = [] ∧ blkCredits (blk 1 0 true e 244 0 0 0 0) = 0
    ∧ blkType (blk 1 0 true e 244 0 0 0 0) = btData ∧ blkSeq (blk 1 0 true e 244 0 0 0 0) = lkA.rxSeq ∧ blkVc (blk 1 0 true e 244 0 0 0 0) = 0 ∧ nth lkA.rxCredits 0 0 ≠ 0
    ∧ nth lkNo.rxCredits 0 0 = 0 ∧ nth lkA.dropping 0 false = false ∧ nth lkA.openBlocks 0 [] = [] ∧ blkSof (blk 1 0 true e 244 0 0 0 0) = true ∧ blkEof (blk 1 0 true e 244 0 0 0 0) = e) :=
  fun e he => ⟨made_ok _ _ _ _ _ _ _ _ _ _ (by decide +kernel) (by rcases e <;> decide), by revert e; decide +kernel⟩
def blkL (m : BitVec 8) : Block := mkBlock 1 6 true true 3 0 0 0 0 (m :: List.replicate 243 0#8)
theorem wit_LinkBlocks_c : (∀ m ∈ [1#8, 6#8, 7#8], blkCrcOk (blkL m) = true ∧ blkFormOk (blkL m) = true ∧ blkCredits (blkL m) = 0
    ∧ blkType (blkL m) = btData ∧ blkSeq (blkL m) = lkA.rxSeq ∧ blkVc (blkL m) = 6 ∧ nth lkA.rxCredits 6 0 ≠ 0 ∧ blkSof (blkL m) = true ∧ blkEof (blkL m) = true ∧ u8 (blkL m).payload 0 = m.toNat) :=
  fun m hm => ⟨made_ok _ _ _ _ _ _ _ _ _ _ (by revert m; decide +kernel) (by decide), by revert m; decide +kernel⟩
theorem wit_LinkBlocks_idle : (blkCrcOk (blk 2 0 false false 0 0 2 0 0) = true ∧ blkFormOk (blk 2 0 false false 0 0 2 0 0) = true ∧ blkType (blk 2 0 false false 0 0 2 0 0) = btIdle
    ∧ blkCredits (blk 2 0 false false 0 0 2 0 0) = 0 ∧ ((dLk lkU).port 0).holding = false ∧ ((dLk lkU).port 0).sleepDue = false ∧ lkU.unacked[1]? = some (2, blk 1 0 true true 4 2 0 0 0) ∧ blkAck (blk 2 0 false false 0 0 2 0 0) = 2
    ∧ (∀ k, k < 1 → ∀ y, lkU.unacked[k]? = some y → y.1 ≠ blkAck (blk 2 0 false false 0 0 2 0 0))) :=
  ⟨made_ok _ _ _ _ _ _ _ _ _ _ (by decide +kernel) (by decide), by decide +kernel, by decide +kernel, by decide +kernel, by decide +kernel, rfl, rfl, by decide +kernel,
    fun k hk y hy => by obtain rfl : k = 0 := by omega
                        cases hy; decide +kernel⟩
theorem wit_LinkBlocks_credit : (∀ n ∈ [16, 1], blkCrcOk (blk 2 0 false false 0 0 0 6 n) = true ∧ blkFormOk (blk 2 0 false false 0 0 0 6 n) = true ∧ blkType (blk 2 0 false false 0 0 0 6 n) = btIdle
    ∧ blkCreditVc (blk 2 0 false false 0 0 0 6 n) = 6 ∧ blkCredits (blk 2 0 false false 0 0 0 6 n) = n) ∧ nth (Link.credits { credits := [832, 832, 832, 832, 320, 320, 100] }) 6 0 + 16 ≤ nth linkDepth 6 0
    ∧ nth linkDepth 6 0 < nth lkA.credits 6 0 + 1 :=
  ⟨fun n hn => ⟨made_ok _ _ _ _ _ _ _ _ _ _ (by decide +kernel) (by revert n; decide), by revert n; decide +kernel⟩, by decide +kernel⟩
def lkR : Link := { lkU with replaySeq := 1, replayCount := 8 }
theorem wit_LinkBlocks_replay : blkCrcOk (blk 3 0 false false 0 1 1 0 0) = true ∧ blkFormOk (blk 3 0 false false 0 1 1 0 0) = true ∧ blkType (blk 3 0 false false 0 1 1 0 0) = btReplay
    ∧ blkCredits (blk 3 0 false false 0 1 1 0 0) = 0 ∧ blkAck (blk 3 0 false false 0 1 1 0 0) ≠ lkU.txSeq ∧ lkU.unacked[0]? = some (1, blk 1 0 true true 4 1 0 0 0)
    ∧ blkSeq (blk 3 0 false false 0 1 1 0 0) = 1 ∧ blkAck (blk 3 0 false false 0 1 1 0 0) = 1 ∧ lkU.replaySeq ≠ 1 ∧ lkR.replaySeq = 1 ∧ 8 ≤ lkR.replayCount ∧ lkA.unacked = [] :=
  ⟨made_ok _ _ _ _ _ _ _ _ _ _ (by decide +kernel) (by decide), by decide +kernel, by decide +kernel, by decide +kernel, by decide +kernel, rfl, by decide +kernel, by decide +kernel, by decide, by decide, by decide, rfl⟩
/-- A node of a 4 × 4 × 4 torus whose DIRECT port 0 goes east and has a frame for node (2, 0, 0) in transit. -/
def frm : Bytes := patch (patch (patch (patch (patch (zpad 74) 12 [8#8, 0#8, 0x45#8]) 36 (toBE 2 47312)) 43 [0x02#8]) 46 (toBE 2 0x8800)) 48 (toBE 2 0x8000)
def dFwd : Dev := { base with net := { net0 with nodeId := 0x8400#16, torus := (4, 4, 4), ports := { dirPort 1 with link := { whole := [(0, frm)] } } :: dirPort 0 :: List.replicate 14 {} } }
theorem wit_LinkBlocks_forward : (dFwd.port 0).link.whole = [(0, frm)] ∧ (forwardTo dFwd (dFwd.port 0) 0 frm).map Prod.fst = some 1 ∧ tileOpen dFwd (vcClass 0) (portTile 0) (portTile 1) = true
    ∧ tileOpen (dFwd.onFab fun f => { f with queues := [many 128 (switchIn .req 0 inOwn)] }) (vcClass 0) (portTile 0) (portTile 1) = false := by decide +kernel

def dPt (p : NetPort) : Dev := { base with net := { net0 with ports := p :: List.replicate 15 {} } }
def pTr (m : PortMode) (rr : Bool) : NetPort := { dirPort 0 with ent := { (dirPort 0).ent with mode := m }, st := .training, replayRetrain := rr }
theorem wit_LinkTraining_a : (∀ m ∈ [PortMode.direct, .dr8], ∀ rr ∈ [true, false], (dPt (pTr m rr)).pwr.rails = .on ∧ 0 < (dPt (pTr m rr)).net.ports.length ∧ (pTr m rr).st = .training
    ∧ (pTr m rr).ent.mode = m ∧ m ≠ .none ∧ asleepPort (dPt (pTr m rr)) 0 = false ∧ (pTr m rr).replayRetrain = rr ∧ (pTr m rr).fallbackActive = false ∧ (pTr m rr).recal = none) ∧ (pTr .direct true).lanesActive &&& 0xFF#8 = (pTr .direct true).lanesActive
    ∧ (pTr .direct true).lanesActive &&& 0x7F#8 ≠ (pTr .direct true).lanesActive ∧ 0x7F#8 ≠ 0#8 ∧ 0x7F#8 ≠ 0xFF#8
    ∧ (pTr .dr8 false).ent.chassis = [] ∧ (pTr .dr8 false).ent.portId = [] := by decide +kernel
def idMsg : Bytes := [1#8, 4#8, 7#8, 0#8, 3#8, 0xFF#8, 0#8, 0#8] ++ List.replicate 16 9#8 ++ zpad 8
def pCk : NetPort := { dirPort 0 with st := .checking, lldpDue := true }
theorem wit_LinkTraining_b : pCk.ent.mode = .direct ∧ pCk.st = .checking ∧ idMsg.length = 32 ∧ u8 idMsg 0 = 1 ∧ u8 idMsg 4 = 3 ∧ u8 idMsg 1 = pCk.ent.peerPort ∧ u16 idMsg 2 = pCk.ent.peerNode.toNat
    ∧ slice idMsg 8 16 = slice pCk.ent.peerId 0 16 ∧ identCheck pCk (patch idMsg 1 [5#8]) ≠ 0 ∧ (patch idMsg 1 [5#8]).length = 32 ∧ pCk.identSeen = false ∧ pCk.lldpDue = true := by decide +kernel
def pEth : NetPort := { wirePort with fecLast := none }
def pSlp (a b : Bool) : NetPort := { dirPort 0 with sleepReq := a, sleepSent := b }
theorem wit_LinkTraining_c : portUp (dPt (dirPort 0)) 0 = true ∧ isEth pEth = true ∧ portUp (dPt pEth) 0 = true ∧ pEth.fecLast = none ∧ (dirPort 0).adminDrain = none
    ∧ NetPort.adminDrain { dirPort 0 with adminDrain := some c0 } = some c0 ∧ (pSlp true false).ent.mode = .direct ∧ (pSlp true false).st = .up ∧ (pSlp true false).sleepReq = true
    ∧ (dPt (pSlp true false)).pwr.state = .active ∧ linkQuiet (pSlp true false) = true ∧ (pSlp true true).sleepSent = true ∧ (pSlp true true).link.unacked = [] ∧ (nth (pSlp true true).queues 7 {}).frames = [] ∧ (pSlp true true).held7 = []
    ∧ (∃ l : Link, l.unacked ≠ [] ∧ NetPort.sleepSent { pSlp true true with link := l } = true) ∧ NetPort.st { dirPort 0 with st := .sleep } = .sleep ∧ NetPort.st { dirPort 0 with st := .stepping } = .stepping :=
  ⟨rfl, rfl, rfl, rfl, rfl, rfl, rfl, rfl, rfl, rfl, by decide +kernel, rfl, rfl, rfl, rfl, ⟨{ unacked := [(1, ⟨0#64, [], 0#32⟩)] }, nofun, rfl⟩, rfl, rfl⟩

def wst : WidthStep := { cause := .lane, mask := 0x0F#8, reqSent := true, ackOut := true }
def pSt (x : WidthStep) : NetPort := { dirPort 0 with st := .stepping, step := some x }
theorem wit_WidthSteps_a : (dirPort 0).ent.mode = .direct ∧ (dirPort 0).st = .up ∧ (dirPort 0).step = none ∧ tb (dirPort 0).lanesActive.toNat 3 = true ∧ (dirPort 0).recal = none
    ∧ (pSt wst).ent.mode = .direct ∧ (pSt wst).st = .stepping ∧ (pSt wst).step = some wst ∧ wst.reqSent = true ∧ wst.mask = 0x0F#8 ∧ wst.ackIn = false ∧ wst.mask ≠ 0x3C#8 ∧ wst.mask &&& 0x3C#8 ≠ 0#8
    ∧ wst.stateIn = false ∧ (dirPort 0).lanesActive &&& ~~~goodLanes (dirPort 0) = 0#8 ∧ wst.ackOut = true ∧ wst.cause = .lane ∧ goodLanes (pSt wst) &&& 0x0F#8 ≠ 0#8 ∧ goodLanes (pSt wst) &&& 0#8 = 0#8 := by decide +kernel
/-- A message of another mask: the end of the lower identity answers it, and a cap asked for while the port is up, asleep, checked, or down. -/
theorem wit_WidthSteps_b : (dirPort 0).stepAfter = none ∧ (∀ st ∈ [PortState.up, .sleep, .checking, .adminDown],
    let p : NetPort := { dirPort 0 with st := st }
    stepWidth { p with widthCap := 4 } (goodLanes { p with widthCap := 4 }) ≠ laneCount p.lanesActive ∧ p.replayRetrain = false ∧ p.stepAfter = none) := by decide +kernel
def pLr : Bytes := pb [(1, 1, 2)]
def pRc (st : PortState) (act : BitVec 8) (step : Option WidthStep) : NetPort := { dirPort 0 with st := st, lanesActive := act, step := step }
theorem wit_WidthSteps_recal : (∀ x ∈ [(PortState.up, 0xFF#8, (none : Option WidthStep)), (.up, 4#8, none), (.down, 0#8, none)], CmdBegun (withCmd 0x0706 pLr (dPt (pRc x.1 x.2.1 x.2.2))) c0 0x0706 pLr)
    ∧ u8 pLr 0 = 0 ∧ u8 pLr 1 = 2 ∧ zeros pLr 2 6 = true ∧ tb (0xFF#8).toNat 2 = true ∧ tb (4#8).toNat 2 = true ∧ laneCount 4#8 = 1 ∧ laneCount 0xFF#8 ≠ 1 ∧ (pRc .stepping 0xFF#8 (some wst)).step ≠ none :=
  ⟨fun x hx => begun_of (by revert x; decide +kernel), by decide +kernel⟩
theorem wit_WidthSteps_done : NetPort.recal { dirPort 0 with recal := some (2, c0) } = some (2, c0) ∧ NetPort.step { dirPort 0 with recal := some (2, c0) } = none
    ∧ NetPort.replayRetrain { dirPort 0 with recal := some (2, c0) } = false ∧ NetPort.st { dirPort 0 with recal := some (2, c0) } = .up := ⟨rfl, rfl, rfl, rfl⟩
def pLc (a w : Nat) : Bytes := pb [(1, 1, a), (2, 1, w)]
theorem wit_WidthSteps_control : (∀ a ∈ [(0, 0), (1, 0), (2, 0), (3, 4), (3, 3)], ∀ p ∈ [wirePort, dirPort 0, { dirPort 0 with st := .adminDown }, {}, { dirPort 0 with link := lkU }],
    CmdBegun (withCmd 0x0705 (pLc a.1 a.2) (dPt p)) c0 0x0705 (pLc a.1 a.2) ∧ u8 (pLc a.1 a.2) 1 = a.1 ∧ u8 (pLc a.1 a.2) 2 = a.2 ∧ zeros (pLc a.1 a.2) 3 5 = true ∧ p.recal = none ∧ p.recalUp = none ∧ p.step = none) := fun a ha p hp => ⟨begun_of (by revert a p; decide +kernel), by revert a p; decide +kernel⟩
theorem wit_WidthSteps_modes : wirePort.ent.mode ≠ .direct ∧ (dirPort 0).ent.mode = .direct ∧ portUp (dPt { dirPort 0 with link := lkU }) 0 = true ∧ lkU.unacked ≠ []
    ∧ NetPort.st { dirPort 0 with st := .adminDown } = .adminDown ∧ (NetPort.ent {}).mode = .none ∧ NetPort.st { dirPort 0 with st := .adminDown } ≠ .up := by decide +kernel
def pNt : Bytes := pb [(0, 2, 9), (2, 2, 2), (8, 1, 1), (10, 2, 1), (40, 1, 0)]
theorem wit_WidthSteps_nodes : CmdBegun (withCmd 0x0704 pNt (dPt wirePort)) c0 0x0704 pNt ∧ firstBad (nodeTableChk pNt (withCmd 0x0704 pNt (dPt wirePort))) = none := ⟨begun_of (by decide +kernel), by decide +kernel⟩

-- Witnesses: ropes

def parR (m : Nat) : RopeParams :=
  { tenant := 1, ropeId := 0x55#32, tile := 0, members := m, index := 0, priority := 0, mtu := 0, downNode := 5#16, downSlot := 1, downEgress := 0, upNode := 6#16, upSlot := 2,
    upEgress := 0, pieceLog2 := 12, ledges := 4, entropy := 0#14, timeoutUs := 2000, callAddr := 2 ^ 63 + 0x1000, callLog2 := 4, triggerCq := 0, doneCq := 1, maxRate := 0 }
def ropeR (m : Nat) (st : RopeState) (c : Option Call) : Rope := { par := parR m, st := st, mark := 0#32, call := c }
/-- Four completions in the trigger queue, one rope in slot 0, its call ring in device memory. -/
def dRp (r : Rope) : Dev :=
  { base with net := net0, q := { base.q with cqs := [(0, { tenant := 1, log2 := 4, vector := 9#16, addr := BitVec.ofNat 64 (2 ^ 63 + 0x300000), stallMs := 10, count := 40#32 }),
      (1, { tenant := 1, log2 := 4, vector := 9#16, addr := BitVec.ofNat 64 (2 ^ 63 + 0x304000), stallMs := 10 })] }, ropes := { slots := [(0, r)] } }
def ent0 (kind phase len root : Nat) : Bytes := ([(0, 1, kind), (1, 1, phase), (2, 1, 9), (4, 2, root), (0x10, 8, 2 ^ 63 + 0x100000), (0x18, 8, 2 ^ 63 + 0x200000), (0x20, 4, len)] : List (Nat × Nat × Nat)).foldl (fun b (o, n, v) => patch b o (toLE n v)) (zpad 64)
def pRcr (n led pl : Nat) : Bytes := pb [(0, 4, n), (4, 4, 0x55), (8, 1, 3), (0x0A, 2, 1), (0x18, 1, pl), (0x19, 1, led), (0x20, 8, 2 ^ 63 + 0x1000), (0x28, 1, 4), (0x2C, 2, 1)]
def rIdle : Rope := ropeR 3 .idle none
def ten0 : Tenant := { ten1 with par := { tenPar with ropes := 0 } }
def dRq : Dev := { dRp rIdle with ten := { tenants := [(1, ten1), (2, ten0)] }, q := { base.q with cqs := [(0, { tenant := 1, log2 := 4, vector := 9#16, addr := BitVec.ofNat 64 (2 ^ 63 + 0x300000), stallMs := 10, count := 40#32 }), (1, { tenant := 1, log2 := 4, vector := 9#16, addr := BitVec.ofNat 64 (2 ^ 63 + 0x304000), stallMs := 10 }),
  (2, { tenant := 2, log2 := 4, vector := 9#16, addr := BitVec.ofNat 64 (2 ^ 63 + 0x300000), stallMs := 10 }), (3, { tenant := 2, log2 := 4, vector := 9#16, addr := BitVec.ofNat 64 (2 ^ 63 + 0x300000), stallMs := 10 })] } }
def pRc0 : Bytes := patch (patch (pRcr 2 4 12) 0x2A (toLE 2 2)) 0x2C (toLE 2 3)
theorem wit_RopeCommands_create : (∀ x ∈ [(4, 12), (64, 20)], CmdBegun (withCmd 0x0601 (pRcr 1 x.1 x.2) dRq) c0 0x0601 (pRcr 1 x.1 x.2)
    ∧ firstBad (ropeCreateChk (pRcr 1 x.1 x.2) (withCmd 0x0601 (pRcr 1 x.1 x.2) dRq)) = none) ∧ dRq.ten? 1 = some ten1 ∧ mgmtOk c0 ten1 = true ∧ ten1.st = .active
    ∧ ropeCqOk dRq 1 0 0 = true ∧ ropeCqOk dRq 1 0 1 = true ∧ (tenRopes dRq 1).length < ten1.par.ropes ∧ partUnits 4 12 ≤ sramFree dRq 0 ∧ sramFree dRq 0 < partUnits 64 20
    ∧ tileUp dRq 0 = true ∧ (dRq.cq? 0).isSome = true := ⟨fun x hx => ⟨begun_of (by revert x; decide +kernel), by revert x; decide +kernel⟩, by decide +kernel⟩
theorem wit_RopeCommands_quota : CmdBegun (withCmd 0x0601 pRc0 dRq) c0 0x0601 pRc0 ∧ firstBad (ropeCreateChk pRc0 (withCmd 0x0601 pRc0 dRq)) = none ∧ dRq.ten? 2 = some ten0
    ∧ mgmtOk c0 ten0 = true ∧ ten0.st = .active ∧ ropeCqOk dRq 2 0 2 = true ∧ ropeCqOk dRq 2 0 3 = true ∧ ten0.par.ropes ≤ (tenRopes dRq 2).length := ⟨begun_of (by decide +kernel), by decide +kernel⟩
def pRoq (n : Nat) : Bytes := pb [(0, 4, n), (8, 8, 0x2000)]
theorem wit_RopeCommands_query : (∀ n ∈ [1, 2], CmdBegun (withCmd 0x0603 (pRoq n) (dRp rIdle)) c0 0x0603 (pRoq n) ∧ CmdBegun (withCmd 0x0602 (pRoq n) (dRp rIdle)) c0 0x0602 (pRoq n)
    ∧ (dRp rIdle).ten? n = some ten1 ∧ u32 (pRoq n) 0 = n ∧ u8 (pRoq n) 4 = 0 ∧ zeros (pRoq n) 5 3 = true ∧ addrOk c0 (u64 (pRoq n) 8) 64 = true) ∧ mgmtOk c0 ten1 = true ∧ ten1.st = .active
    ∧ (dRp rIdle).rope? 0 = some rIdle ∧ rIdle.par.tenant = 1 ∧ rIdle.st = .idle :=
  ⟨fun x hx => ⟨begun_of (by revert x; decide +kernel), begun_of (by revert x; decide +kernel), by revert x; decide +kernel⟩, by decide +kernel⟩
def rFree : Rope := { rIdle with destroying := some (some c0) }
theorem wit_RopeCommands_freed : (dRp rFree).rope? 0 = some rFree ∧ rFree.destroying = some (some c0) ∧ ropeQueued (dRp rFree) 0 = false ∧ rFree.abortDown = 0 ∧ rFree.abortUp = 0
    ∧ rFree.waiting = [] := by decide +kernel
def rDue (m n : Nat) (st : RopeState) : Rope := { ropeR m st none with nextCall := n }
def dDue (e : Bytes) (m n : Nat) (st : RopeState) : Dev := memWrite 0x1000 e (dRp (rDue m n st))
def dueB (e : Bytes) (m n : Nat) (st : RopeState) : Bool :=
  let d := dDue e m n st
  let r := rDue m n st
  decide (d.rope? 0 = some r) && ropeDue d r && ropeRuns d r && ropeMay d r && decide (r.waiting = []) && doneOpen d r && entryOpen d r && decide (r.refetch = 0 ∧ r.stalled = false) &&
  match readCall (touchRange 0 1 (callEntryAddr r n) 64 false d) r n with
  | .ok b => decide (b = e)
  | _ => false
theorem wit_RopeCommands_due : dueB (ent0 3 1 12288 0) 3 0 .idle = true ∧ dueB (ent0 3 0 12288 0) 3 0 .idle = true ∧ dueB (ent0 7 1 12288 0) 3 0 .idle = true
    ∧ dueB (ent0 2 1 12288 2) 3 0 .idle = true ∧ dueB (ent0 3 1 0x20000000 0) 3 0 .idle = true ∧ dueB (ent0 3 1 12288 0) 3 0 .aborted = true := by decide +kernel
def eAbs : Bytes := patch (ent0 1 1 12288 2) 0x10 (zpad 16)
/-- The device once the call's entry is read. -/
def readAt (e : Bytes) : Dev :=
  (enterRun 0 1 (callEntryAddr (rDue 3 0 .idle) 0) (.calls 0) (touchRange 0 1 (callEntryAddr (rDue 3 0 .idle) 0) 64 false (dDue e 3 0 .idle))).2
def eNo : Bytes := patch (ent0 1 1 12288 2) 0x10 (zpad 8)
theorem wit_RopeCommands_forms : tb (u8 (ent0 3 0 12288 0) 1) 0 ≠ phaseOf (2 ^ 4) 0 ∧ tb (u8 (ent0 3 1 12288 0) 1) 0 = phaseOf (2 ^ 4) 0 ∧ callForm (rDue 3 0 .idle) (ent0 7 1 12288 0) = false
    ∧ callForm (rDue 3 0 .idle) eAbs = true ∧ callAccess (readAt eAbs) (rDue 3 0 .idle) eAbs = false ∧ dueB eAbs 3 0 .idle = true
    ∧ callForm (rDue 3 0 .idle) eNo = true ∧ callAccess (readAt eNo) (rDue 3 0 .idle) eNo = true ∧ (rDue 3 0 .idle).par.members ≠ 1 ∧ dueB eNo 3 0 .idle = true := by decide +kernel
def call0 (e : Bytes) : Call := { num := 0, entry := e, rx := { limit := 4 } }
def rRun (m : Nat) (e : Bytes) : Rope := ropeR m .running (some (call0 e))
def rAb : Rope := { ropeR 3 .aborted none with abortDown := 2 }
theorem wit_RopeCommands_run : (dRp (rRun 3 eNo)).rope? 0 = some (rRun 3 eNo) ∧ (rRun 3 eNo).call = some (call0 eNo) ∧ (call0 eNo).rx.gotFirst = false ∧ (rRun 3 eNo).st = .running
    ∧ (dRp rAb).rope? 0 = some rAb ∧ rAb.abortDown ≠ 0 ∧ rAb.abortUp = 0 := by decide +kernel

def soundB (d : Dev) (port : Nat) (t : BitVec 8) (p : Pkt) : Bool :=
  decide (d.pwr.state = .active ∧ portUp d port = true ∧ tileUp d (portTile port) = true ∧ (d.port port).ent.mode ≠ .direct ∧ ingressFill d port + frameLen p ≤ 1048576
    ∧ pflag p pfAuth = false ∧ p.trailer.length = 4 ∧ p.ver.toNat / 16 = 2 ∧ ropeForm t p = true)
def SoundP (d : Dev) (port : Nat) (t : BitVec 8) (p : Pkt) : Prop :=
  d.pwr.state = .active ∧ portUp d port = true ∧ tileUp d (portTile port) = true ∧ (d.port port).ent.mode ≠ .direct
    ∧ ingressFill d port + frameLen p ≤ 1048576 ∧ pflag p pfAuth = false ∧ p.trailer.length = 4 ∧ p.trailer = toLE 4 (crc32c (coveredBytes t p)).toNat
    ∧ p.ver.toNat / 16 = 2 ∧ ropeForm t p = true
theorem rope_of {d : Dev} {port : Nat} {t : BitVec 8} {p : Pkt} (h : soundB d port t (withCrc t p) = true) : SoundP d port t (withCrc t p) := by
  obtain ⟨a1, a2, a3, a4, a5, a6, a7, a8, a9⟩ := of_decide_eq_true h
  exact ⟨a1, a2, a3, a4, a5, a6, a7, rfl, a8, a9⟩
/-- Big-endian rope head of a call: kind, lap, piece, HPN, flags from the sender's index. -/
def rHead (n kind lap j hpn me root : Nat) (more : List (Nat × Nat × Nat)) : Bytes :=
  px n ([(0, 4, 0x55), (8, 4, j), (0x0C, 1, lap), (0x0D, 1, kind), (0x0E, 1, 9), (0x10, 2, root), (0x13, 1, 12), (0x14, 1, 4), (0x18, 4, 12288), (0x1C, 4, hpn), (0x20, 2, 3), (0x22, 2, me)] ++ more)
def rP (t : BitVec 8) (up : Bool) (ext payload : Bytes) : Pkt :=
  withCrc t { dstNode := 3#16, srcNode := if up then 6#16 else 5#16, dstQpn := 0#32, srcQpn := if up then 2#32 else 1#32, ext := ext, payload := payload }
def eRed : Bytes := ent0 3 1 12288 0
def eRed2 : Bytes := ent0 2 1 12288 1
def pRd (j me : Nat) : Pkt := rP ptRopeData true (rHead 40 3 1 j 0 me 0 []) (List.replicate 1024 1#8)
def pRk : Pkt := rP ptRopeConfirm true (rHead 40 2 2 1 0 2 1 []) []
def pRa : Pkt := rP ptRopeAck false (rHead 96 3 0 0 0 1 0 []) []
def pRb : Pkt := rP ptRopeAbort true (rHead 48 3 0 0 0 2 0 [(40, 2, 1), (42, 1, 0x60)]) []
theorem wit_RopePackets_sound : (SoundP (dRp (rRun 3 eRed)) 0 ptRopeData (pRd 0 2) ∧ SoundP (dRp (rRun 3 eRed)) 0 ptRopeData (pRd 5 2) ∧ SoundP (dRp (rRun 3 eRed)) 0 ptRopeData (pRd 0 1))
    ∧ SoundP (dRp (rRun 3 eRed2)) 0 ptRopeConfirm pRk ∧ SoundP (dRp (rRun 3 eRed)) 0 ptRopeAck pRa ∧ SoundP (dRp (rRun 3 eRed)) 0 ptRopeAbort pRb :=
  ⟨⟨rope_of (by decide +kernel), rope_of (by decide +kernel), rope_of (by decide +kernel)⟩, rope_of (by decide +kernel), rope_of (by decide +kernel), rope_of (by decide +kernel)⟩
def cameB (r : Rope) (p : Pkt) : Bool :=
  let d := dRp r
  decide (d.rope? p.dstQpn.toNat = some r ∧ tileUp d r.par.tile = true ∧ bx p.ext 0 4 = r.par.ropeId.toNat)
    && flowOpen d.fab ⟨.col, portTile 0, r.par.tile⟩ inOwn
    && !(meterRope 0 p 1 (count 0x0402 0 (some 1) 1 (count 0x0403 0 (some 1) (frameLen p) d))).1
def inB (c : Call) (p : Pkt) : Bool :=
  decide (BitVec.ofNat 32 (bx p.ext 4 4) = BitVec.ofNat 32 c.num ∧ sameCall c p = true ∧ (p.psn - c.rx.cum).toNat < 256 ∧ nth c.rx.map (p.psn - c.rx.cum).toNat false = false)
theorem wit_RopePackets_came : cameB (rRun 3 eRed) (pRd 0 2) = true ∧ cameB (rRun 3 eRed) (pRd 5 2) = true ∧ cameB (rRun 3 eRed) (pRd 0 1) = true ∧ cameB (rRun 3 eRed2) pRk = true
    ∧ cameB (rRun 3 eRed) pRa = true ∧ cameB (rRun 3 eRed) pRb = true := by decide +kernel
theorem wit_RopePackets_order : inB (call0 eRed) (pRd 0 2) = true ∧ inB (call0 eRed) (pRd 5 2) = true ∧ inB (call0 eRed2) pRk = true ∧ inB (call0 eRed) pRa = true ∧ inB (call0 eRed) pRb = true := by decide +kernel
theorem wit_RopePackets_data : fromUpstream (rRun 3 eRed) ptRopeData (pRd 0 2) = some true ∧ sameRope (rRun 3 eRed) true (pRd 0 2) = true ∧ sameRope (rRun 3 eRed) true (pRd 0 1) = false
    ∧ (rRun 3 eRed).st ≠ .aborted ∧ callPieces (rRun 3 eRed) eRed = 3 ∧ takes (rRun 3 eRed) eRed 0 1 = true ∧ (call0 eRed).got.contains (0, 1) = false ∧ (call0 eRed).input = []
    ∧ (pRd 0 2).msgOffset.toNat + (pRd 0 2).payload.length ≤ lapBytes (rRun 3 eRed) eRed 0 1 ∧ (pRd 0 2).payload.length ≤ ropeMtu (rRun 3 eRed) ∧ (pRd 0 2).msgOffset.toNat % lapSize eRed 1 = 0
    ∧ (pRd 0 2).payload.length % lapSize eRed 1 = 0 ∧ bx (pRd 0 2).ext 0x1C 4 < (call0 eRed).rx.limit ∧ writesHere eRed 1 = false := by decide +kernel
theorem wit_RopePackets_rest : fromUpstream (rRun 3 eRed2) ptRopeConfirm pRk = some true ∧ sameRope (rRun 3 eRed2) true pRk = true ∧ bx pRk.ext 8 4 < callPieces (rRun 3 eRed2) eRed2
    ∧ bx pRk.ext 0x0C 1 = 2 ∧ takesConfirm (rRun 3 eRed2) eRed2 = true ∧ passesConfirm (rRun 3 eRed2) eRed2 = false ∧ fromUpstream (rRun 3 eRed) ptRopeAck pRa = some false
    ∧ sameRope (rRun 3 eRed) false pRa = true ∧ fromUpstream (rRun 3 eRed) ptRopeAbort pRb = some true ∧ sameRope (rRun 3 eRed) true pRb = true ∧ bx pRb.ext 43 1 = 0 := by decide +kernel
/-- The upstream neighbour's ROPE_ACK of another kind of call. -/
def pRu : Pkt := rP ptRopeAck true (rHead 96 2 0 0 0 2 0 []) []
theorem wit_RopePackets_upstream : SoundP (dRp (rRun 3 eRed)) 0 ptRopeAck pRu ∧ cameB (rRun 3 eRed) pRu = true ∧ fromUpstream (rRun 3 eRed) ptRopeAck pRu = some true
    ∧ sameRope (rRun 3 eRed) true pRu = true ∧ BitVec.ofNat 32 (bx pRu.ext 4 4) = BitVec.ofNat 32 (call0 eRed).num ∧ sameCall (call0 eRed) pRu = false := ⟨rope_of (by decide +kernel), by decide +kernel⟩
def pStr : Pkt := withCrc ptRopeData { dstNode := 3#16, srcNode := 9#16, dstQpn := 0#32, srcQpn := 2#32, ext := rHead 40 3 1 0 0 2 0 [], payload := List.replicate 1024 1#8 }
theorem wit_RopePackets_stranger : SoundP (dRp (rRun 3 eRed)) 0 ptRopeData pStr ∧ cameB (rRun 3 eRed) pStr = true ∧ fromUpstream (rRun 3 eRed) ptRopeData pStr = none := ⟨rope_of (by decide +kernel), by decide +kernel⟩
def dNoR : Dev := { dRp rIdle with ropes := { noRope := [(9, 0)] } }
theorem wit_RopePackets_absent : SoundP dNoR 0 ptRopeData pStr ∧ dNoR.rope? 0 = none ∧ dNoR.ropes.noRope.get? pStr.srcNode.toNat = some 0 ∧ now dNoR < 0 + usTicks 10 := ⟨rope_of (by decide +kernel), by decide +kernel⟩
/-- A rope of one member has one pitch to serve. -/
def dOne : Dev := (dRp (rRun 1 eRed)).onRopes fun q => { q with last := modAt q.last 0 fun _ => 5 }
theorem wit_RopePackets_serve : (dRp (rRun 1 eRed)).ropes.slots = [(0, rRun 1 eRed)] ∧ tileUp (dRp (rRun 1 eRed)) 0 = true ∧ (rRun 1 eRed).call = some (call0 eRed)
    ∧ (eligiblePitches (dRp (rRun 1 eRed)) 0 (rRun 1 eRed)).length = 1
    ∧ (eligiblePitches (dRp (rRun 1 eRed)) 0 (rRun 1 eRed)).all (fun z => (pitchAct ((dRp (rRun 1 eRed)).onRopes fun q => { q with last := modAt q.last 0 fun _ => z.1 * 4 + z.2 }) 0 (rRun 1 eRed) (call0 eRed) z).isSome) = true
    ∧ callFmt eRed = .int32 ∧ callOp eRed = 0 ∧ callKind eRed = 3 ∧ 1 < (rRun 3 eRed).par.members ∧ (rRun 3 eRed).par.index < (rRun 3 eRed).par.members := by decide +kernel
def turns : List PitchTurn := [⟨0, 1, (0, 1), 0⟩, ⟨1, 3, (0, 2), 50001⟩]
theorem wit_RopePackets_turns : ((pickPitch 50000 0 turns).map (·.slot)) = some 0 ∧ ((pickPitch 40000 0 turns).map (·.slot)) = some 1
    ∧ turns.all (fun z => decide (40000 < z.since + usTicks 100)) = true ∧ turns.any (fun z => decide (z.since + usTicks 100 ≤ 50000)) = true := by decide +kernel
/-- The rope's tile is behind a link in reset from the port's tile. -/
def dFar : Dev := (dRp { rRun 3 eRed with par := { parR 3 with tile := 1 } }).onFab fun f => { f with queues := [{ id := ⟨6, .col, 1⟩, resetting := true }] }
theorem wit_RopePackets_crosses : SoundP dFar 0 ptRopeData (pRd 0 2) ∧ (dFar.rope? (pRd 0 2).dstQpn.toNat).map (·.par.tile) = some 1 ∧ tileUp dFar 1 = true ∧ 1 ≠ portTile 0
    ∧ flowOpen dFar.fab ⟨.col, portTile 0, 1⟩ = false := ⟨rope_of (by decide +kernel), by decide +kernel⟩

-- Witnesses: power

def dPw (f : Pwr → Pwr) : Dev := base.onPwr f
def pWl (w : Nat) : Bytes := pb [(0, 2, w)]
def pSp (a b k : Nat) : Bytes := pb [(0, 1, a), (1, 1, b), (2, 1, k)]
theorem wit_PowerCommands_limit : (∀ w ∈ [500, 3000, 499, 3001], CmdBegun (withCmd 0x0105 (pWl w) base) c0 0x0105 (pWl w) ∧ zeros (pWl w) 2 6 = true ∧ u16 (pWl w) 0 = w)
    ∧ (dPw fun p => { p with recordW := some 2500, coolantW := some 2600, setW := some 600 }).pwr.recordW = some 2500 := ⟨fun w hw => ⟨begun_of (by revert w; decide +kernel), by revert w; decide +kernel⟩, by decide +kernel⟩
theorem wit_PowerCommands_state : (∀ a ∈ [(1, 0), (1, 1), (2, 0), (3, 0)], CmdBegun (withCmd 0x0104 (pSp a.1 a.2 0) base) c0 0x0104 (pSp a.1 a.2 0) ∧ u8 (pSp a.1 a.2 0) 0 = a.1 ∧ u8 (pSp a.1 a.2 0) 1 = a.2
    ∧ u8 (pSp a.1 a.2 0) 2 = 0 ∧ zeros (pSp a.1 a.2 0) 3 5 = true) := fun a ha => ⟨begun_of (by revert a; decide +kernel), by revert a; decide +kernel⟩
theorem wit_PowerCommands_conds : (base.stack 0).mode ≠ .offline ∧ base.pwr.inReset.w = false ∧ base.pwr.inReset.e = false ∧ (dPw fun p => { p with inReset := ⟨true, false⟩ }).pwr.inReset.w = true
    ∧ ({ mode := .parked, parkReq := true : Stack }).mode = .parked ∧ ((dPt (dirPort 0)).port 0).ent.mode = .direct ∧ ((dPt (dirPort 0)).port 0).st = .up ∧ (base.port 0).ent.mode ≠ .direct ∧ (base.port 0).st ≠ .up
    ∧ bivouacBusy (dPt (dirPort 0)) = false ∧ bivouacBusy ((dPt (dirPort 0)).onPwr fun p => { p with state := .waking }) = true := by decide +kernel
def pHr (h : Nat) : Bytes := pb [(0, 1, h)]
def dEast : Dev := base.onCtl fun c => { c with dies := ⟨.follower, .leader⟩ }
def dTwo : Dev := (withCmd 0x0103 (pHr 0) base).onRing .west 1 fun r => { r with cmd := some (mkCmd 0x0105 [] .running) }
theorem wit_PowerCommands_half : (∀ h ∈ [0, 1], CmdBegun (withCmd 0x0103 (pHr h) base) c0 0x0103 (pHr h) ∧ u8 (pHr h) 0 ≤ 1 ∧ zeros (pHr h) 1 7 = true ∧ u8 (pHr h) 0 = h)
    ∧ CmdBegun dTwo c0 0x0103 (pHr 0) ∧ leader base = some .west ∧ leader base ≠ some (Side.ofIdx 1) ∧ canHandover base = true ∧ canHandover (base.onCtl fun c => { c with dies := ⟨.leader, .starting⟩ }) = false
    ∧ othersActive dTwo c0 = true ∧ canHandover dTwo = true ∧ leader dTwo = some .west ∧ othersActive (withCmd 0x0103 (pHr 0) base) c0 = false :=
  ⟨fun h hh => ⟨begun_of (by revert h; decide +kernel), by revert h; decide +kernel⟩, begun_of (by decide +kernel), by decide +kernel⟩
theorem wit_PowerCommands_warm : ((base.onCtl fun c => { c with hasps := c.hasps.set 1 { holder := some (.port .west) } }).hasp 1).holder = some (.port .west) ∧ (base.hasp 1).holder ≠ some (.port .west) := by decide +kernel
def dLeg : Dev := dPw fun p => { p with legacy := { p.legacy with live := true, latched := ⟨some (2, 7#32, 0), none⟩ } }
theorem wit_PowerCommands_legacy : (dPw fun p => { p with legacy := { p.legacy with live := false } }).pwr.legacy.live = false ∧ dLeg.pwr.legacy.live = true ∧ 0x110 % 0x10000 = 0x100 + 8 * 2 ∧ someAgree [false, true] = true ∧ someAgree [false] = false
    ∧ dLeg.pwr.legacy.latched.get .west = some (2, 7#32, 0) ∧ now dLeg ≤ 0 + usTicks 1 := by decide +kernel

theorem wit_PowerInput : State.reset.dev.pwr.rails = .off ∧ base.On ∧ vinOk 48000 = true ∧ vinOk 1 = false ∧ (∀ r ∈ [Rails.holdoff, .waitInput, .starting], (dPw fun p => { p with rails := r, pwrEn := true, vin := 48000 }).pwr.rails = r)
    ∧ (dPw fun p => { p with isoDown := true }).pwr.isoDown = true ∧ base.pwr.stages = 4 ∧ (dPw fun p => { p with stages := 3 }).pwr.stages < 4
    ∧ base.svc.bank = .west ∧ State.reset.dev.ctl = {} := ⟨rfl, rfl, by decide +kernel, by decide +kernel, by decide +kernel, by decide +kernel, by decide +kernel, by decide +kernel, by decide +kernel, by decide +kernel⟩

def envOn (puf : List Bytes) (l : List StoreRead) : PowerOnEnv := ⟨0, 0xFFFFFFFF#32, puf, l, []⟩
/-- The reading x reconstructs the seed whose check value the PUF's record holds. -/
def pufOf (x : Bytes) : StoreRead := ⟨rkPuf, Config.pufHelper ++ Config.seedCheck (Config.fuzzyExtract x Config.pufHelper), 0#64, []⟩
theorem wit_PowerInput_seed (x : Bytes) (l : List StoreRead) : seedOf (envOn [x] (pufOf x :: l)) = some (Config.fuzzyExtract x Config.pufHelper) := by
  unfold seedOf
  rw [show (envOn [x] (pufOf x :: l)).store.find? (fun r => r.kind = rkPuf) = some (pufOf x) from rfl]
  show List.find? _ [Config.fuzzyExtract x ((Config.pufHelper ++ Config.seedCheck (Config.fuzzyExtract x Config.pufHelper)).take Config.pufHelper.length)] = _
  rw [List.take_left']
  · simp [pufOf]
  · rfl
theorem wit_PowerInput_noSeed : seedOf (envOn [] []) = none := rfl
/-- The seed that reading x gives, and the PUF's record as the device of that seed writes it. -/
def seedD (x : Bytes) : Dev := (dPw fun p => { p with rails := .starting }).onSvc fun v => { v with seed := Config.fuzzyExtract x Config.pufHelper }
def pufGood (x : Bytes) : StoreRead := { pufOf x with mac := storeMac (seedD x).svc rkPuf 0#64 (pufOf x).data }
theorem passes_own (e : PowerOnEnv) (d : Dev) (k : Nat) (h : (e.store.find? fun r => r.kind = k) = none) : recordPasses e d k = true := by
  simp [recordPasses, storeCopy, h]
theorem wit_PowerInput_records (x : Bytes) : badRecords (envOn [x] [pufGood x]) (seedD x) = [] := by
  unfold badRecords
  rw [List.filter_eq_nil_iff]
  intro k _
  by_cases h : k = 0
  · subst h
    have f : (envOn [x] [pufGood x]).store.find? (fun r => r.kind = 0) = some (pufGood x) := rfl
    have z : nth (seedD x).svc.storeLast 0 0#64 = 0#64 := rfl
    unfold recordPasses
    rw [f, z]
    simp [pufGood, pufOf, rkPuf]
  · have f : (envOn [x] [pufGood x]).store.find? (fun r => r.kind = k) = none := by
      simp [envOn, pufGood, pufOf, rkPuf, Ne.symm h]
    rw [passes_own _ _ _ f]; decide
theorem wit_PowerInput_vital (x : Bytes) : (badRecords (envOn [x] [{ pufGood x with count := 5#64 }]) (seedD x)).contains rkPuf = true := by
  rw [List.contains_iff_mem]
  exact List.mem_filter.mpr ⟨by decide, rfl⟩
/-- Banks without images fail at the first; a bank is sound where each of its images is. The images that the boot ROM's keys signed are open constants (log 11), so none is written out here. -/
theorem wit_PowerInput_banks : bankFault { base.svc with banks := ⟨[], []⟩ } .west = some (1, 1) ∧ bankFault { base.svc with banks := ⟨[], []⟩ } .east = some (1, 1)
    ∧ ∀ v s, (∀ t ∈ [1, 2, 3, 4, 5], imageResult v t (imageAt v s t) = 0) → bankFault v s = none := by
  refine ⟨rfl, rfl, fun v s h => ?_⟩
  simp [bankFault, h]
def hotSens : Sensors := ⟨[20000, 30000], 0, 0, 48000, 10, 1000, 500, 500⟩
theorem wit_PowerEvents : base.On ∧ (dPw fun p => { p with thermal := true }).pwr.thermal = true ∧ base.pwr.thermal = false
    ∧ (let up (v : Sensors) : Bool := ((List.range (sensorLevels base v).length).zip (sensorLevels base v)).any fun (i, b) => nth (sensorLevels base base.pwr.sensors) i 0 < b
       up hotSens = true ∧ up base.pwr.sensors = false)
    ∧ overCurrent (dPw fun p => { p with vin := 39000 }) 3400 = true ∧ overCurrent base 3400 = false
    ∧ (dPw fun p => { p with rails := .clockLost }).pwr.rails = .clockLost ∧ (dPw fun p => { p with state := .entering, bivCmd := some c0 }).pwr.bivCmd = some c0
    ∧ devDrained (dPw fun p => { p with state := .entering, bivCmd := some c0 }) = true ∧ (dPw fun p => { p with state := .bivouac }).pwr.state = .bivouac
    ∧ (dPw fun p => { p with state := .waking, wakeCmd := some c0 }).pwr.wakeCmd = some c0 ∧ base.pwr.bellsHeld = [] ∧ base.pwr.pktsHeld = [] :=
  ⟨rfl, by decide +kernel⟩

theorem wit_SettleRules : base.Quiet := by unfold Dev.Quiet; rfl

/-- A state that reset leaves, with a command in front: what the invariants are stated of. -/
theorem wit_MemoryKept : (State.reset.withFetchWord 0 0).dev.MemOk ∧ ∃ t, step { State.reset with pending := [.pwrEnAssert 48000] } = .next t := ⟨by unfold Dev.MemOk; decide +kernel, _, rfl⟩
theorem wit_LeadKept : base.LeadSound ∧ ∃ t, step { st base with pending := [.leaseExpiry] } = .next t := by
  refine ⟨⟨rfl, ?_, ?_⟩, _, rfl⟩
  · intro x h; cases x <;> first | rfl | exact absurd h (by decide +kernel)
  · intro p; cases p <;> decide +kernel
theorem wit_LimitsKept : base.LimitsOk ∧ ∃ t, step { st base with pending := [.powerSample 4000] } = .next t := ⟨⟨by decide +kernel, fun _ h => (nomatch h), by decide +kernel⟩, _, rfl⟩

-- Worked examples of the spec's arithmetic

/-- The MXFP4 block product of the engine chapter: scales 2^-1 and 4, sum -10 (R75, R78). -/
theorem test_block_product : rowScoreF false false .mxfp4 .mxfp4 32 0 (patch (patch (zpad 32) 0 [0xC3#8, 0x17#8]) 16 [0x7E#8]) (patch (patch (zpad 32) 0 [0x56#8, 0x4A#8]) 16 [0x81#8]) = (0xC1200000#32, {}) := by decide +kernel
/-- Its conversion to MXFP4: scale 0x80, 13.0 saturates to 0x7, 2.6 becomes 0x3 (R81). -/
theorem test_block_conversion : (let b := toBlock .mxfp4 .near (f32Val 0x41500000#32 :: f32Val 0x40266666#32 :: List.replicate 30 (f32Val 0#32))
    (b.1, b.2.1.take 3, b.2.2)) = (0x80, [7, 3, 0], { outSaturated := true }) := by decide +kernel

-- Witnesses: the answers that refuse

def pMod2 : Bytes := pb [(0, 4, 2), (4, 4, 65535)]
def pCqd2 : Bytes := pb [(0, 4, 2)]
def qpUse : Dev := qpD { qp1 with par := { qp1.par with sendCq := 0 } }
theorem wit_QueuePairCommands_g : CmdBegun (withCmd 0x503 pMod2 (qpD qp1)) c0 0x0503 pMod2 ∧ CmdBegun (withCmd 0x503 (pMod 0) (qpD qp1)) c0 0x0503 (pMod 0) ∧ CmdBegun (withCmd 0x505 pCqd2 base) c0 0x0505 pCqd2
    ∧ CmdBegun (withCmd 0x505 pCqd qpUse) c0 0x0505 pCqd := ⟨begun_of (by decide +kernel), begun_of (by decide +kernel), begun_of (by decide +kernel), begun_of (by decide +kernel)⟩
theorem wit_QueuePairCommands_h : (qpD qp1).qp? (u32 pMod2 4) = some qp1 ∧ qp1.par.tenant ≠ u32 pMod2 0 ∧ (qpD qp1).ten? 2 = some ten1 ∧ qp1.par.tenant = u32 (pMod 0) 0 ∧ qp1.st ≠ .reset ∧ qp1.st ≠ .error
    ∧ (base.cq? (u32 pCqd2 4)).map (·.tenant) = some 1 ∧ u32 pCqd2 0 = 2 ∧ cqInUse qpUse (u32 pCqd 4) = true ∧ (qpUse.cq? (u32 pCqd 4)).map (·.tenant) = some (u32 pCqd 0) := by decide +kernel
theorem wit_TenantCommands_thaw : CmdBegun (withCmd 0x207 pT1 base) c0 0x0207 pT1 ∧ base.ten? (u32 pT1 0) = some ten1 ∧ ten1.st ≠ .frozen ∧ ({ ten1st .frozen with carried := true } : Tenant).carried = true :=
  ⟨begun_of (by decide +kernel), by decide +kernel⟩
theorem wit_KeysAndIdentity_e : CmdBegun (withCmd 0xB01 (pb [(0, 8, 8)]) base) c0 0x0B01 (pb [(0, 8, 8)]) ∧ addrOk c0 (u64 (pb [(0, 8, 8)]) 0) 64 = false := ⟨begun_of (by decide +kernel), by decide +kernel⟩
theorem wit_PowerCommands_rsv : CmdBegun (withCmd 0x0105 (pb [(0, 2, 500), (7, 1, 1)]) base) c0 0x0105 (pb [(0, 2, 500), (7, 1, 1)]) ∧ zeros (pb [(0, 2, 500), (7, 1, 1)]) 2 6 = false
    ∧ u16 (pb [(0, 2, 500), (7, 1, 1)]) 0 = 500 := ⟨begun_of (by decide +kernel), by decide +kernel⟩

-- Witnesses: the clauses of a second form

/-- A table of dva0's walk stands in stack 0, and no request reaches the stack from tile 0. -/
def walkD : Dev := (onTab 1 (fun x => { x with extents := [(9, ⟨⟨some { unit := 9 }, some { unit := 9 * 65536 }⟩, [(0, (0, 0))]⟩)] }) preD)
theorem wit_WalksAndFaults_b : walkStacks walkD 0 1 (dva0.toNat - 2 ^ 63) = [0] ∧ stackOpen walkD 0 0 = true
    ∧ walkStacks (shutAt walkD) 0 1 (dva0.toNat - 2 ^ 63) = [0] ∧ stackOpen (shutAt walkD) 0 0 = false := by decide +kernel
theorem wit_StackAccesses_b : (∀ m ∈ [StackMode.online, .parking, .parked, .offline], ((base.onStk 31 fun x => { x with mode := m }).stack 31).mode = m
    ∧ ((base.onStk 31 fun x => { x with mode := m }).stack 31).held = []) ∧ (0xBF8000000 : Nat) ≤ 0xBF8000000 ∧ (0xBF7FFFFFF : Nat) < 0xBF8000000 := by decide +kernel
theorem wit_StackStates_c : ((stk0 fun x => { x with ceUnlogged := 1, ceLogged := some 0 }).stack 0).ceLogged = some 0 ∧ now base ≤ 0 + secTicks 1
    ∧ (moveD.stack 0).ceLogged = none ∧ (moveD.stack 0).held = [] ∧ (⟨5, 0, .correctable, []⟩ : Move).hold = [] := by decide +kernel
theorem wit_MemoryAllocation_i : (zeroD.stack (32767 / 32768)).held = [] ∧ (zeroD.stack (32767 / 32768)).moves = [] ∧ copies0.copies = ⟨some { unit := 9, rebuilding := true }, some { unit := 9 * 65536 }⟩ := by decide +kernel
/-- A job whose blocks the cores have not all taken, and one whose blocks they have. -/
theorem wit_CipherJobs_d : jobServed (jobs0 true [{ jobG with left := 7 }]).ciph 0 = false ∧ jobServed (jobs0 true [jobG]).ciph 0 = true
    ∧ (jobs0 true [{ jobG with left := 7 }]).ciph.jobs.find? (fun j => j.idx = 0 && j.fin.isNone) = some { jobG with left := 7 }
    ∧ leastCore base.ciph.cores [3, 2] = some 3 := by decide +kernel
theorem wit_TraverseAndMicrocode_f : base.mem.stk.length = 32 ∧ base.eng.lastTile.get? 7 = none := by decide +kernel
def dWin : Dev := (revD false).onXlt fun x => { x with windows := [(16383, win0 false)] }
theorem wit_TenantResets_d : tenWindows dWin 1 ≠ [] ∧ dWin.ten? 1 = some ten1 ∧ ten1.st = .active ∧ tenWindows base 1 = [] ∧ tenRopes base 1 = [] := by decide +kernel
/-- A freeze whose FLAGS let it abort a busy rope. -/
def pFz : Bytes := pb [(0, 4, 1), (4, 1, 1)]
theorem wit_FreezeRules_c : CmdBegun (withCmd 0x204 pFz (dRp (rRun 3 eRed))) c0 0x0204 pFz := begun_of (by decide +kernel)
theorem wit_FreezeRules_d : firstBad (tenantFreezeChk pFz (dRp (rRun 3 eRed))) = none ∧ u8 pFz 4 = 1 ∧ u32 pFz 0 = 1 ∧ (dRp (rRun 3 eRed)).ten? 1 = some ten1
    ∧ (tenRopes (dRp (rRun 3 eRed)) 1).filter (fun (_, r) => r.st = .running || (r.st = .idle && ropeDue (dRp (rRun 3 eRed)) r)) ≠ []
    ∧ (tenRopes base 1).filter (fun (_, r) => r.st = .running || (r.st = .idle && ropeDue base r)) = [] := by decide +kernel
/-- Packets that have no path to go on. -/
theorem wit_FramesAndTimers_d : noRoute (wireD { qTx 0 6 with paths := [] }) 0 { qTx 0 6 with paths := [] } = true
    ∧ ({ qTx 0 6 with paths := [] }.conn.unacked.find? fun x => x.sends = 0) = some (tx0 0 6) ∧ (tx0 0 6).sends = 0 := by decide +kernel
/-- The buffer of a port is full. -/
def fullD (b : Bytes) : Dev := { base with net := { net0 with ports := { wirePort with link := { whole := [(0, b)] } } :: List.replicate 15 {} } }
theorem wit_FramesAndTimers_full : portUp (fullD (List.replicate 1048576 0#8)) 0 = true ∧ bufFull (fullD (List.replicate 1048576 0#8)) 0 64 = true := by
  have h : ∀ b : Bytes, portUp (fullD b) 0 = true ∧ ((fullD b).port 0).ent.mode ≠ .direct ∧ ingressFill (fullD b) 0 = b.length := by
    intro b
    refine ⟨rfl, (fun h => nomatch h), ?_⟩
    show 0 + ((0 + (b.length + 0)) : Nat) = b.length
    omega
  obtain ⟨a, m, f⟩ := h (List.replicate 1048576 0#8)
  refine ⟨a, ?_⟩
  unfold bufFull
  rw [f, List.length_replicate, Bool.and_eq_true]
  exact ⟨decide_eq_true m, decide_eq_true (by omega)⟩

end Sys2Proof.Tests
end

section
/-! SUPPORT. What a begun command runs, what QP_DESTROY leaves of the queue pairs and of the tenants, and when the number of a destroyed queue pair is free. -/

namespace Sys2Proof

theorem Tab.get?_eq_none_iff {α : Type} (t : Tab α) (n : Nat) : Tab.get? t n = none ↔ n ∉ t.map Prod.fst := by
  induction t with
  | nil => simp [Tab.get?]
  | cons x r ih =>
    obtain ⟨k, y⟩ := x
    by_cases h : k = n
    · simp [Tab.get?, h]
    · simp [Tab.get?, h, Ne.symm h, ih]

/-- Erasing takes one entry away: the number is gone unless the table holds it twice. -/
theorem Tab.get?_erase_self {α : Type} (t : Tab α) (n : Nat) :
    Tab.get? (Tab.erase t n) n = none ↔ (t.map Prod.fst).count n ≤ 1 := by
  induction t with
  | nil => simp [Tab.erase, Tab.get?]
  | cons x r ih =>
    obtain ⟨k, y⟩ := x
    by_cases h : k = n
    · subst h
      have hr := Tab.get?_eq_none_iff r k
      rw [← List.count_eq_zero] at hr
      simp [Tab.erase, hr]
    · simp [Tab.erase, Tab.get?, h, ih]

namespace Machine

-- Commands that have begun

/-- A row whose command has begun and passes the checks of its fields runs its effect. -/
theorem CmdBegun.runChk_eq {d : Dev} {c : CmdSlot} {op : Nat} {p : Bytes} (h : CmdBegun d c op p) (k : Bytes → Dev → List (Nat × Bool))
    (f : Bytes → Dev → Dev) (hk : firstBad (k p d) = none) : runChk c op k f d = f p d := by
  obtain ⟨hl, m, hm, hb, ho, rfl⟩ := h
  exact runChk_ok c op k f d m hm hb ho hl hk

/-- An ACTIVE tenant that the port manages is no obstacle to a command that names it (R452, R462). -/
theorem withTenant_active {c : CmdSlot} {n : Nat} {d : Dev} {t : Tenant} (ht : d.ten? n = some t) (hm : mgmtOk c t = true) (ha : t.st = .active)
    (busyRule : Bool) (f : Tenant → Dev → Dev) : withTenant c n busyRule f d = f t d := by
  simp [withTenant, withTenantAt, ht, hm, ha]

-- What the parts of a destruction leave alone

@[simp] theorem dropWaiters_q (p : Waiter → Bool) (d : Dev) : (dropWaiters p d).q = d.q := rfl
@[simp] theorem dropWaiters_ten (p : Waiter → Bool) (d : Dev) : (dropWaiters p d).ten = d.ten := rfl
@[simp] theorem drainDown_q (w t : Nat) (d : Dev) : (drainDown w t d).q = d.q := rfl
@[simp] theorem drainDown_ten (w t : Nat) (d : Dev) : (drainDown w t d).ten = d.ten := rfl
@[simp] theorem dropKeys_q (p : Nat → Bool) (d : Dev) : (dropKeys p d).q = d.q := rfl
@[simp] theorem dropKeys_ten (p : Nat → Bool) (d : Dev) : (dropKeys p d).ten = d.ten := rfl

/-- A part of the device that every step of a fold leaves alone is left alone by the fold. -/
theorem foldl_keeps {α β : Type} (g : Dev → β) (f : Dev → α → Dev) (hf : ∀ d a, g (f d a) = g d) (l : List α) (d : Dev) : g (l.foldl f d) = g d :=
  foldl_ind (fun e => g e = g d) f (fun e a h => (hf e a).trans h) l d rfl

/-- Counting the legs of an operation is of the service state, the ports and the engine. -/
@[simp] theorem countLegs_q (o : Op) (d : Dev) : (countLegs o d).q = d.q := foldl_keeps Dev.q _ (fun d l => by split <;> simp) _ d
@[simp] theorem countLegs_ten (o : Op) (d : Dev) : (countLegs o d).ten = d.ten := foldl_keeps Dev.ten _ (fun d l => by split <;> simp) _ d

/-- The held requests of a queue pair end at their windows, and nowhere else. -/
@[simp] theorem dropHeld_q (n : Nat) (d : Dev) : (dropHeld n d).q = d.q := by
  unfold dropHeld
  split
  · rfl
  · exact foldl_keeps Dev.q _ (fun d m => by (repeat' split) <;> simp) _ d
@[simp] theorem dropHeld_ten (n : Nat) (d : Dev) : (dropHeld n d).ten = d.ten := by
  unfold dropHeld
  split
  · rfl
  · exact foldl_keeps Dev.ten _ (fun d m => by (repeat' split) <;> simp) _ d

/-- A part that the end of one operation leaves alone is left alone by the end of many. -/
theorem dropOps_keeps {β : Type} (g : Dev → β) (hc : ∀ o d, g (countLegs o d) = g d) (hd : ∀ w t d, g (drainDown w t d) = g d)
    (hw : ∀ p d, g (dropWaiters p d) = g d) (he : ∀ f (d : Dev), g (d.onEng f) = g d) (p : Op → Bool) (d : Dev) : g (dropOps p d) = g d := by
  have hfold := foldl_keeps g (fun d (x : Nat × Op) =>
    if !p x.2 then d
    else match x.2.src with
      | .message _ _ w _ => drainDown w x.2.tile (countLegs x.2 d)
      | .entry _ _ => countLegs x.2 d) (fun d x => by (repeat' split) <;> simp [hc, hd]) d.eng.ops d
  unfold dropOps
  dsimp only
  split
  · exact hfold
  · rw [hw, he]; exact hfold

@[simp] theorem dropOps_q (p : Op → Bool) (d : Dev) : (dropOps p d).q = d.q :=
  dropOps_keeps Dev.q countLegs_q drainDown_q dropWaiters_q (fun _ _ => rfl) p d
@[simp] theorem dropOps_ten (p : Op → Bool) (d : Dev) : (dropOps p d).ten = d.ten :=
  dropOps_keeps Dev.ten countLegs_ten drainDown_ten dropWaiters_ten (fun _ _ => rfl) p d

-- QP_DESTROY (R222)

@[simp] theorem destroyQp_qps (n : Nat) (cause : TombCause) (d : Dev) : (destroyQp n cause d).q.qps = d.q.qps.erase n := by
  simp only [destroyQp, Dev.onQ_q, dropKeys_q, dropHeld_q, dropWaiters_q, dropOps_q]
  (repeat' split) <;> rfl

@[simp] theorem destroyQp_ten (n : Nat) (cause : TombCause) (d : Dev) : (destroyQp n cause d).ten = d.ten := by
  simp only [destroyQp, Dev.onQ_ten, dropKeys_ten, dropHeld_ten, dropWaiters_ten, dropOps_ten]
  (repeat' split) <;> rfl

/-- The place of a destroyed queue pair is free just where the table named it at most once and no stub stands there. -/
theorem qpFree_destroyQp (n : Nat) (cause : TombCause) (d : Dev) :
    qpFree (destroyQp n cause d) n = true ↔ (d.q.qps.map Prod.fst).count n ≤ 1 ∧ d.ten.stubs.get? n = none := by
  simp [qpFree, Dev.qp?, Tab.get?_erase_self]

/-- The reply of a command leaves every queue-pair place as it was. -/
@[simp] theorem qpFree_finish (c : CmdSlot) (st : Nat) (d : Dev) (n : Nat) : qpFree (finish c st d) n = qpFree d n := by
  simp [qpFree, Dev.qp?, finish]

/-- QP_DESTROY of the tenant's own queue pair, in RESET or ERROR, ends it and is answered DONE (R222). -/
theorem exec_qpDestroy_done {s : State} {c : CmdSlot} {p : Bytes} {t : Tenant} {q : Qp} (hon : s.dev.On) (hb : CmdBegun s.dev c 0x0503 p)
    (ht : s.dev.ten? (u32 p 0) = some t) (hm : mgmtOk c t = true) (ha : t.st = .active) (h0 : u32 p 0 < 256) (h4 : u32 p 4 < 65536)
    (hq : s.dev.qp? (u32 p 4) = some q) (ho : q.par.tenant = u32 p 0) (hst : q.st = .reset ∨ q.st = .error) :
    exec (.qpDestroy c) s = .next { s with dev := finish c stDone (destroyQp (u32 p 4) .other s.dev) } := by
  have hchk : firstBad [(0, decide (u32 p 0 < 256)), (4, decide (u32 p 4 < 65536))] = none := by simp [firstBad, h0, h4]
  have hrun : devQpDestroy c s.dev = finish c stDone (destroyQp (u32 p 4) .other s.dev) := by
    unfold devQpDestroy
    rw [hb.runChk_eq _ _ hchk, withTenant_active ht hm ha]
    simp only [hq, ho, ne_eq, not_true_eq_false, if_false]
    rcases hst with hst | hst <;> simp [hst]
  calc exec (.qpDestroy c) s = onDev s (live (devQpDestroy c)) := rfl
    _ = .next { s with dev := devQpDestroy c s.dev } := by rw [onDev_next, live_on _ _ hon]
    _ = _ := by rw [hrun]

/-- QP_DESTROY frees the number of the queue pair just where the table named it at most once and no stub stands there. -/
theorem exec_qpDestroy_frees_iff {s : State} {c : CmdSlot} {p : Bytes} {t : Tenant} {q : Qp} (hon : s.dev.On) (hb : CmdBegun s.dev c 0x0503 p)
    (ht : s.dev.ten? (u32 p 0) = some t) (hm : mgmtOk c t = true) (ha : t.st = .active) (h0 : u32 p 0 < 256) (h4 : u32 p 4 < 65536)
    (hq : s.dev.qp? (u32 p 4) = some q) (ho : q.par.tenant = u32 p 0) (hst : q.st = .reset ∨ q.st = .error) :
    (Completes (.qpDestroy c) s fun d => qpFree d (u32 p 4) = true)
      ↔ (s.dev.q.qps.map Prod.fst).count (u32 p 4) ≤ 1 ∧ s.dev.ten.stubs.get? (u32 p 4) = none := by
  simp [Completes, exec_qpDestroy_done hon hb ht hm ha h0 h4 hq ho hst, qpFree_destroyQp]

end Machine
end Sys2Proof
end

section
/-! SUPPORT. O39 is refuted: on a table of queue pairs that names a number twice, QP_DESTROY ends the first of the two and leaves the number in use. -/

namespace Sys2Proof.Machine.TwoOfOneNumber

/-- Tenant 1, managed through the West port. -/
def tenant : Tenant :=
  { par := { port := .west, pasid := none, mgmtW := true, mgmtE := false, acceptList := false, accept := [], memUnits := 0, winCount := 0, ropes := 0,
             winSlabs := 0, qpMax := 2, cqMax := 1, msgLimit := 0, fetchWeight := 1, opWeight := 1, opCtxLimit := 0, evqAddr := 0#64, evqLog2 := 8,
             evqVector := 0xFFFF#16, createFrozen := false },
    st := .active }

/-- A queue pair of tenant 1 in RESET. -/
def queuePair : Qp :=
  { par := { tenant := 1, kind := .loc, weight := 1, sqStanding := false, rqStanding := false, noRq := true, sqAddr := 0#64, rqAddr := 0#64, sqLog2 := 4,
             rqLog2 := 0, sendCq := 0, recvCq := 0xFFFF } }

/-- The parameters of QP_DESTROY: tenant 1, queue pair 7. -/
def params : Bytes := toLE 4 1 ++ toLE 4 7

/-- The begun QP_DESTROY. -/
def command : Cmd := { hdr := ⟨0x0503#16, 0#8, 0x80, 0, 1#64, 0, 0#16, 0#32⟩, params := params, idx := 0, stage := .begun, order := 0, visible := 0 }

/-- The West die leads, ring 0 of its port holds the command, and the table names queue pair 7 twice. -/
def dev : Dev :=
  { pwr := { rails := .on }
    ctl := { dies := ⟨.leader, .follower⟩, rings := ⟨[{ cmd := some command }], []⟩ }
    ten := { tenants := [(1, tenant)] }
    q := { qps := [(7, queuePair), (7, queuePair)] } }

/-- No command waits behind the one in the ring. -/
def state : State := { pending := [], dev := dev }

theorem begun : CmdBegun state.dev (.ring .west 0) 0x0503 params := ⟨rfl, command, rfl, rfl, rfl, rfl⟩

end Sys2Proof.Machine.TwoOfOneNumber

namespace Sys2Proof.Machine

/-- Refutes O39: its clause on QP_DESTROY speaks of every state, also of one whose table of queue pairs names a number twice. A `Tab` is meant to have
strictly rising keys (as its definition says), but no hypothesis says so, and `Tab.erase` takes one entry away: queue pair 7 of `TwoOfOneNumber.dev` is
destroyed and its number stays in use. Where the number stands once, the clause holds (`exec_qpDestroy_frees_iff`). -/
theorem not_queuePairCommands : ¬ Obligations.QueuePairCommands := by
  unfold Obligations.QueuePairCommands
  intro h
  obtain ⟨-, -, -, hdestroy, -⟩ := h TwoOfOneNumber.state (.ring .west 0) TwoOfOneNumber.params TwoOfOneNumber.tenant rfl rfl rfl rfl (by decide)
  obtain ⟨t, hexec, hpend, -, -, -, hfree⟩ := hdestroy TwoOfOneNumber.queuePair TwoOfOneNumber.begun (by decide) rfl rfl (.inl rfl)
  obtain ⟨honce, -⟩ := (exec_qpDestroy_frees_iff (s := TwoOfOneNumber.state) rfl TwoOfOneNumber.begun rfl rfl rfl (by decide) (by decide) rfl rfl
    (.inl rfl)).1 ⟨t, hexec, hpend, hfree rfl⟩
  exact absurd honce (by decide)

end Sys2Proof.Machine
end

section
/-! SUPPORT. The receiving sequence as one equation per stage: a plain version 2 packet from its port to what its type asks for, a response to its message, and what RESPONDER_ADMIT runs (R215, R255, R256). -/

namespace Sys2Proof.Machine

/-- A row that releases what is due once it has acted settles on what it makes of the device. -/
theorem Settles.of_liveQ {c : Instr} {s : State} {f : Dev → Dev} {d : Dev} (hon : s.dev.On) (hc : exec c s = onDev s (liveQ f)) (hf : f s.dev = d) :
    Settles c s d := by
  rw [Settles, hc, onDev_next, liveQ_on f s.dev hon, hf]

-- Queue pairs under the operations of the receiving sequence

@[simp] theorem count_qp? (src inst : Nat) (t : Option Nat) (k n : Nat) (d : Dev) : (count src inst t k d).qp? n = d.qp? n := by simp [Dev.qp?]

@[simp] theorem meterPkt_qp? (port : Nat) (t : BitVec 8) (p : Pkt) (ten n : Nat) (d : Dev) : (meterPkt port t p ten d).2.qp? n = d.qp? n := by
  simp only [meterPkt]
  split <;> simp [Dev.qp?]

theorem Dev.onConn_qp?_self {d : Dev} {n : Nat} {q : Qp} (hq : d.qp? n = some q) (f : Conn → Conn) :
    (d.onConn n f).qp? n = some { q with conn := f q.conn } := by
  rw [Dev.qp?] at hq
  simp [Dev.onConn, Dev.onQp, Dev.qp?, Tab.get?_upd_self, hq]

/-- A queue pair judges its packets by its own keys. -/
theorem authOf_qp {d : Dev} {n : Nat} {q : Qp} (hq : d.qp? n = some q) : authOf d n = q.conn.auth := by simp [authOf, hq]

-- From the port to check 1

/-- A frame that finds room in the buffer of its port is counted there, with its length (R565). -/
abbrev frameCounted (port : Nat) (ten : Option Nat) (p : Pkt) (d : Dev) : Dev := count 0x0402 port ten 1 (count 0x0403 port ten (frameLen p) d)

/-- A plain packet that finds room at an Ethernet port of an awake device is counted and goes to check 1 (R255, R300). -/
theorem devPkt_plain {d : Dev} {port : Nat} {t : BitVec 8} {p : Pkt} {q : Qp} (hst : d.pwr.state = .active) (hup : portUp d port = true)
    (htile : tileUp d (portTile port) = true) (hmode : (d.port port).ent.mode ≠ .direct) (hroom : ingressFill d port + frameLen p ≤ 1048576)
    (hplain : pflag p pfAuth = false) (hlen : p.trailer.length = 4) (hq : d.qp? p.dstQpn.toNat = some q) :
    devPkt t port p d = rxTrailer t port p (frameCounted port (some q.par.tenant) p d) := by
  have hfull : bufFull d port (frameLen p) = false := by simp [bufFull, hroom]
  calc devPkt t port p d = recvPkt t port p d := by simp [devPkt, arrive, hst]
    _ = rxWhole t port p none d := by simp [recvPkt, hup, htile, hmode, hfull]
    _ = _ := by simp [rxWhole, needsCore, freePlaces, qpTenant, hplain, hlen, hq]

/-- Check 1 of a plain packet for a queue pair without keys: the CRC decides (R248). -/
theorem rxTrailer_plain {d : Dev} {port : Nat} {t : BitVec 8} {p : Pkt} {q : Qp} (hq : d.qp? p.dstQpn.toNat = some q) (hkey : q.conn.auth = none)
    (hplain : pflag p pfAuth = false) :
    rxTrailer t port p d
      = if p.trailer = toLE 4 (crc32c (coveredBytes t p)).toNat then rxChecked p.dstQpn.toNat port t p d else trailerBad port d := by
  by_cases hcrc : p.trailer = toLE 4 (crc32c (coveredBytes t p)).toNat <;>
    simp [rxTrailer, trailerCheck, authOf_qp hq, hkey, hplain, setAuth, hcrc]

-- Checks 2 to 4 and the meters

/-- A well-formed packet of version 2 for a queue pair in RTS goes to the meters. -/
theorem rxChecked_v2 {d : Dev} {n port : Nat} {t : BitVec 8} {p : Pkt} {q : Qp} (hq : d.qp? n = some q) (hkind : q.par.kind = .v2) (hst : q.st = .rts)
    (hver : p.ver.toNat / 16 = 2) (hform : pktForm false t p = true) : rxChecked n port t p d = rxAccepted n port t p d := by
  simp [rxChecked, versionOk, hq, hkind, hst, hver, hform]

/-- A packet that the meters let pass, from the peer of a queue pair in RTS, marks the queue pair and goes by its type. -/
theorem rxAccepted_peer {d m : Dev} {n port : Nat} {t : BitVec 8} {p : Pkt} {q : Qp} (hq : d.qp? n = some q) (hkind : q.par.kind = .v2)
    (hst : q.st = .rts) (hnode : p.srcNode = q.conn.peerNode) (hqpn : p.srcQpn = q.conn.peerQpn)
    (hmeter : meterPkt port t p q.par.tenant d = (false, m)) :
    let e := m.onConn n fun c => { c with gotValid := true }
    rxAccepted n port t p d =
      if t = ptAck then rxAck n port p e
      else if t = ptNak then rxNak n port p e
      else if t = ptDisconnect then rxDisconnect n port p e
      else if t = ptProbe then rxProbe n p e
      else rxSequenced n port t p e := by
  simp [rxAccepted, hq, hkind, hst, hnode, hqpn, hmeter]

-- Checks 5 to 8 and the service of a packet

/-- A packet that passes checks 5 to 7 is served with the time of its arrival. -/
theorem rxSequenced_inOrder {d : Dev} {n port : Nat} {t : BitVec 8} {p : Pkt} {q : Qp}
    (hq : d.qp? n = some q) (hkind : q.par.kind = .v2) (ho : PktInOrder q t p) :
    rxSequenced n port t p d = rxServe n port t p (d.pwr.tsc.setWidth 32) d := by
  obtain ⟨hfatal, hnew, hwin, hbit, hgrant, hmtu, hsize, hoff⟩ := ho
  have hdup : isDup q.conn p.psn = false := by simp only [isDup, hnew, hbit, Bool.and_false, Bool.or_false]
  have hahead : ¬ 256 ≤ (p.psn - q.conn.cumRx).toNat := by omega
  have hmsn : (isReq t && decide (0 ≤ seqDiff p.msn q.conn.granted)) = false := by
    cases hreq : isReq t
    · rfl
    · simpa using hgrant hreq
  have hform : (decide (q.conn.mtu < p.payload.length) || (decide (t ≠ ptOperateReq) && !pflag p pfLast && decide (p.payload.length ≠ q.conn.mtu))
      || decide (p.msgOffset.toNat % q.conn.mtu ≠ 0)) = false := by
    rcases hsize with h | h | h <;> simp [h, hoff] <;> omega
  simp only [rxSequenced, hq, hkind, hfatal, hdup, hahead, hmsn, hform, Option.isSome_none, Bool.false_eq_true, if_false,
    reduceCtorEq, decide_false, Bool.false_and]

/-- A packet whose places cannot be reached waits for its way across the package (R34). -/
theorem rxServe_crosses {d : Dev} {n port : Nat} {t : BitVec 8} {p : Pkt} {arr : BitVec 32} {q : Qp} {u : Flit} (hq : d.qp? n = some q)
    (hland : landFlow d (portTile port) (targetPlaces d port q t p) = some u) :
    rxServe n port t p arr d = d.onFab fun f => { f with crossings := f.crossings ++ [⟨u, inOwn, none, .accepted n port t p arr⟩] } := by
  simp [rxServe, hq, hland]

/-- A response whose places are in reach meets its open message, and its type says how it is placed (check 8 of R255). -/
theorem rxServe_response {d : Dev} {n port : Nat} {t : BitVec 8} {p : Pkt} {arr : BitVec 32} {q : Qp} {m : TxMsg} (hq : d.qp? n = some q)
    (hland : landFlow d (portTile port) (targetPlaces d port q t p) = none)
    (hm : (q.conn.msgs.find? fun m => m.msn = p.msn && m.opened && m.verb = respVerb t) = some m) (ht : isReq t = false) :
    rxServe n port t p arr d =
      if t = ptReadResp then rxReadResp n port q m p arr d
      else if t = ptAtomicResp then rxAtomicResp n port q m p arr d
      else rxOperateResp n port q m p arr d := by
  simp only [rxServe, rxResponse, hq, hland, hm, ht, Bool.false_eq_true, if_false]

-- A packet that is taken

section
variable {d e : Dev} {port : Nat} {t : BitVec 8} {p : Pkt} {q : Qp}

/-- A taken packet leaves its queue pair as it was, but marked as having heard from its peer. -/
theorem PktTaken.qp?_eq (h : PktTaken d port t p q e) : e.qp? p.dstQpn.toNat = some { q with conn := { q.conn with gotValid := true } } := by
  obtain ⟨-, -, -, -, -, -, -, -, hq, -, -, -, -, -, -, -, m, hmeter, rfl⟩ := h
  refine Dev.onConn_qp?_self ?_ _
  have hm := meterPkt_qp? port t p q.par.tenant p.dstQpn.toNat (frameCounted port (some q.par.tenant) p d)
  rw [hmeter] at hm
  simpa [hq] using hm

/-- A taken packet is served by its type. -/
theorem PktTaken.devPkt_eq (h : PktTaken d port t p q e) : devPkt t port p d =
    if t = ptAck then rxAck p.dstQpn.toNat port p e
    else if t = ptNak then rxNak p.dstQpn.toNat port p e
    else if t = ptDisconnect then rxDisconnect p.dstQpn.toNat port p e
    else if t = ptProbe then rxProbe p.dstQpn.toNat p e
    else rxSequenced p.dstQpn.toNat port t p e := by
  obtain ⟨hact, hup, htile, hmode, hroom, hplain, hlen, hcrc, hq, hkey, hkind, hst, hver, hform, hnode, hqpn, m, hmeter, rfl⟩ := h
  have hq' : (frameCounted port (some q.par.tenant) p d).qp? p.dstQpn.toNat = some q := by simpa using hq
  rw [devPkt_plain hact hup htile hmode hroom hplain hlen hq, rxTrailer_plain hq' hkey hplain, if_pos hcrc, rxChecked_v2 hq' hkind hst hver hform]
  exact rxAccepted_peer hq' hkind hst hnode hqpn hmeter

/-- A taken packet that is no control packet goes to checks 5 to 7. -/
theorem PktTaken.devPkt_sequenced (h : PktTaken d port t p q e) (ht : isCtl t = false) : devPkt t port p d = rxSequenced p.dstQpn.toNat port t p e := by
  have ⟨hack, hnak, hprobe, hdisc⟩ : t ≠ ptAck ∧ t ≠ ptNak ∧ t ≠ ptProbe ∧ t ≠ ptDisconnect := by simpa [isCtl, and_assoc] using ht
  rw [h.devPkt_eq, if_neg hack, if_neg hnak, if_neg hdisc, if_neg hprobe]

/-- A taken packet in order is served, or waits to cross. -/
theorem PktTaken.devPkt_inOrder (h : PktTaken d port t p q e) (ho : PktInOrder q t p) (ht : isCtl t = false) :
    devPkt t port p d = rxServe p.dstQpn.toNat port t p (e.pwr.tsc.setWidth 32) e := by
  have hkind : q.par.kind = .v2 := by obtain ⟨-, -, -, -, -, -, -, -, -, -, hkind, -⟩ := h; exact hkind
  rw [h.devPkt_sequenced ht]
  exact rxSequenced_inOrder h.qp?_eq hkind ho

/-- A taken response in order whose places are in reach is placed by its type. -/
theorem PktTaken.devPkt_response (h : PktTaken d port t p q e) (ho : PktInOrder q t p) {r : Qp} (hr : e.qp? p.dstQpn.toNat = some r) {m : TxMsg}
    (hland : landFlow e (portTile port) (targetPlaces e port r t p) = none)
    (hm : (r.conn.msgs.find? fun m => m.msn = p.msn && m.opened && m.verb = respVerb t) = some m) (hctl : isCtl t = false) (hreq : isReq t = false) :
    devPkt t port p d =
      if t = ptReadResp then rxReadResp p.dstQpn.toNat port r m p (e.pwr.tsc.setWidth 32) e
      else if t = ptAtomicResp then rxAtomicResp p.dstQpn.toNat port r m p (e.pwr.tsc.setWidth 32) e
      else rxOperateResp p.dstQpn.toNat port r m p (e.pwr.tsc.setWidth 32) e := by
  rw [h.devPkt_inOrder ho hctl, rxServe_response hr hland hm hreq]

/-- A DISCONNECT that is taken flushes its queue pair with the peer's reason (R268). -/
theorem PktTaken.rxDisconnect_eq (h : PktTaken d port t p q e) : rxDisconnect p.dstQpn.toNat port p e
    = toFlush p.dstQpn.toNat none (some (bx p.ext 0 1)) (count 0x040F port (some q.par.tenant) 1 e) := by
  have hst : q.st = .rts := by obtain ⟨-, -, -, -, -, -, -, -, -, -, -, hst, -⟩ := h; exact hst
  simp [rxDisconnect, h.qp?_eq, hst]

/-- A taken packet whose PSN has been received is counted and acknowledged again (R256, R260). -/
theorem PktTaken.rxSequenced_dup (h : PktTaken d port t p q e) (hf : q.conn.fatal = none) (hb : psnBefore p.psn q.conn.cumRx = true) :
    rxSequenced p.dstQpn.toNat port t p e = ackNow p.dstQpn.toNat p (count 0x0109 port (some q.par.tenant) 1 e) := by
  simp [rxSequenced, rxDupAck, rxDup, isDup, qpTenant, h.qp?_eq, hf, hb]

end

-- RESPONDER_ADMIT (R215)

/-- What an admitted request runs: a READ or an ATOMIC at once, with its window's drain over, and an OPERATE as an operation of the engine. -/
def admitRun (n : Nat) (w : Window) (m : RxMsg) (y : Pkt) (d : Dev) : Dev :=
  let win := bx y.ext 0 4
  let tile := portTile m.port
  if m.verb = ptReadReq then rxDone n m.msn (drainDown win tile (admitRead n w m y d))
  else if m.verb = ptAtomicReq then drainDown win tile (admitAtomic n w m y d)
  else newOp tile w.tenant (.message n m.msn win (winAddr w 0)) (y.payload.take (dLen y.payload)) d

/-- The next request in message order, its stacks in reach and the engine free for it, is marked admitted, run and committed (R24, R109, R215, R256). -/
theorem devResponderAdmit_admits {d : Dev} {n : Nat} {q : Qp} {m : RxMsg} {y : Pkt} {w : Window} (hq : d.qp? n = some q) (hst : q.st = .rts)
    (hm : nextAdmit q 64 q.conn.rxMsn = some m) (hy : m.request = some y) (hw : d.win? (bx y.ext 0 4) = some w)
    (htile : tileUp d (portTile m.port) = true) (hopen : admitOpen d (portTile m.port) w m.verb y = true)
    (hop : m.verb = ptOperateReq → pendingUsed d (portTile m.port) < 1024 ∧ ucodeBusy d false (portTile m.port) = false) :
    devResponderAdmit n d = commit n y m.arrived (admitRun n w m y
      (d.onConn n fun c => { c with rx := c.rx.map fun x => if x.msn = m.msn then { x with admitted := true } else x })) := by
  have hfree : (decide (m.verb = ptOperateReq) && (decide (1024 ≤ pendingUsed d (portTile m.port)) || ucodeBusy d false (portTile m.port))) = false := by
    by_cases hv : m.verb = ptOperateReq
    · obtain ⟨hused, hucode⟩ := hop hv
      simp [hused, hucode]
    · simp [hv]
  simp [devResponderAdmit, admitRun, hq, hst, hm, hy, hw, htile, hopen, hfree]

-- O45

/-- Settles O45: a packet is led through the stages of R255 to what its type asks for (`PktTaken.devPkt_eq`), a response to its open message
(`PktTaken.devPkt_response`) or to its way across (`rxServe_crosses`), and RESPONDER_ADMIT runs the next request by its verb (`devResponderAdmit_admits`). -/
theorem responsesArrive : Obligations.ResponsesArrive := by
  unfold Obligations.ResponsesArrive
  intro s port p q e r hon
  refine ⟨?readResp, ?atomicResp, ?operateResp, ?crosses, ?ack, ?nak, ?probe, ?disconnect, ?duplicate, ?badCrc, ?responderAdmit⟩
  case readResp =>
    rintro m ⟨h, ho, hr, hland, hm⟩
    exact .of_liveQ hon rfl ((h.devPkt_response ho hr hland hm rfl rfl).trans (if_pos rfl))
  case atomicResp =>
    rintro m ⟨h, ho, hr, hland, hm⟩
    exact .of_liveQ hon rfl ((h.devPkt_response ho hr hland hm rfl rfl).trans ((if_neg (by decide)).trans (if_pos rfl)))
  case operateResp =>
    rintro m ⟨h, ho, hr, hland, hm⟩
    exact .of_liveQ hon rfl ((h.devPkt_response ho hr hland hm rfl rfl).trans ((if_neg (by decide)).trans (if_neg (by decide))))
  case crosses =>
    intro u h ho hr hland
    exact .of_liveQ hon rfl ((h.devPkt_inOrder ho rfl).trans (rxServe_crosses hr hland))
  case ack => exact fun h => .of_liveQ hon rfl h.devPkt_eq
  case nak => exact fun h => .of_liveQ hon rfl h.devPkt_eq
  case probe => exact fun h => .of_liveQ hon rfl h.devPkt_eq
  case disconnect => exact fun h => .of_liveQ hon rfl (h.devPkt_eq.trans h.rxDisconnect_eq)
  case duplicate => exact fun h hf hb => .of_liveQ hon rfl ((h.devPkt_sequenced rfl).trans (h.rxSequenced_dup hf hb))
  case badCrc =>
    intro hact hup htile hmode hroom hplain hq hkey hlen hcrc
    refine .of_liveQ hon rfl ?_
    rw [devPkt_plain hact hup htile hmode hroom hplain hlen hq, rxTrailer_plain (by simpa using hq) hkey hplain, if_neg hcrc]
  case responderAdmit =>
    intro k m y w hq hst hm hy hw win tile htile hopen d
    have runs (hop : m.verb = ptOperateReq → pendingUsed s.dev tile < 1024 ∧ ucodeBusy s.dev false tile = false) :
        Settles (.responderAdmit k) s (commit k y m.arrived (admitRun k w m y d)) :=
      .of_liveQ hon rfl (devResponderAdmit_admits hq hst hm hy hw htile hopen hop)
    refine ⟨fun hv => ?_, fun hv => ?_, fun hv hused hucode => ?_⟩
    · simpa [admitRun, hv] using runs (by simp [hv, ptReadReq, ptOperateReq])
    · simpa [admitRun, hv, ptAtomicReq, ptReadReq] using runs (by simp [hv, ptAtomicReq, ptOperateReq])
    · simpa [admitRun, hv, ptOperateReq, ptReadReq, ptAtomicReq] using runs fun _ => ⟨hused, hucode⟩

end Sys2Proof.Machine
end

section
/-! SUPPORT. What the commands that create, thaw and query a tenant run once their checks have passed (R445 to R447, R463, R470). -/

namespace Sys2Proof.Machine

/-- A row of a running device answers what it makes of the device. -/
theorem Gives.of_live {c : Instr} {s : State} {f : Dev → Dev} {d : Dev} (hon : s.dev.On) (hc : exec c s = onDev s (live f)) (hf : f s.dev = d) :
    Gives c s d := by
  rw [Gives, hc, onDev_next, live_on f s.dev hon, hf]

/-- Without the freeze rule of R462 a command that names a tenant its port manages goes on, whatever the tenant's state (R452). -/
theorem withTenant_managed {c : CmdSlot} {n : Nat} {d : Dev} {t : Tenant} (ht : d.ten? n = some t) (hm : mgmtOk c t = true) (f : Tenant → Dev → Dev) :
    withTenant c n false f d = f t d := by
  simp [withTenant, withTenantAt, ht, hm]

/-- TENANT_CREATE of a named number whose reservations can be met enters the tenant and sends its entry to every copy of the table (R445 to R447). -/
theorem CmdBegun.devTenantCreate_eq {d : Dev} {c : CmdSlot} {p : Bytes} (hb : CmdBegun d c 0x0201 p) (hchk : firstBad (tenantCreateChk c p d) = none)
    (hn : u32 p 0 < 256) (hres : reservable d (parseTenant p) = true) :
    devTenantCreate c d = replFinish c 0x0201 stDone (some (u64 p 0x48, toLE 4 (u32 p 0) ++ zpad 12)) [.tenantEntry (u32 p 0)]
      (leave c [u32 p 0] (d.onTens fun y =>
        { y with tenants := y.tenants.set (u32 p 0) { par := parseTenant p, st := if (parseTenant p).createFrozen then .frozen else .active, since := d.pwr.tsc } })) := by
  have hnamed : u32 p 0 ≠ 0xFFFFFFFF := by omega
  rw [devTenantCreate, hb.runChk_eq _ _ hchk]
  simp only [hnamed, if_false, hres, Bool.not_true, Bool.false_eq_true]

/-- TENANT_THAW of a tenant that its port manages comes down to the tenant's state and to CARRIED (R463). -/
theorem CmdBegun.devTenantThaw_eq {d : Dev} {c : CmdSlot} {p : Bytes} {t : Tenant} (hb : CmdBegun d c 0x0207 p) (hn : u32 p 0 < 256) (h4 : u32 p 4 = 0)
    (ht : d.ten? (u32 p 0) = some t) (hm : mgmtOk c t = true) :
    devTenantThaw c d =
      if t.st ≠ .frozen then finishAt c stBadParam 0 d
      else if t.carried then finish c stNotPermitted d
      else finish c stDone (postEvent (u32 p 0) 0x12 (u32 p 0) 0 0 (tenState (u32 p 0) .active d)) := by
  have hchk : firstBad [(0, decide (u32 p 0 < 256)), (4, decide (u32 p 4 = 0))] = none := by simp [firstBad, hn, h4]
  rw [devTenantThaw, hb.runChk_eq _ _ hchk, withTenant_managed ht hm]

/-- TENANT_QUERY of a tenant that is not FREE answers its record (R470). -/
theorem CmdBegun.devTenantQuery_eq {d : Dev} {c : CmdSlot} {p : Bytes} {t : Tenant} (hb : CmdBegun d c 0x0208 p) (hn : u32 p 0 < 256) (h4 : u32 p 4 = 0)
    (ha : addrOk c (u64 p 8) 64 = true) (ht : d.ten? (u32 p 0) = some t) :
    devTenantQuery c d = finishRes c stDone (u64 p 8) (tenRecord d (u32 p 0) t) d := by
  have hchk : firstBad [(0, decide (u32 p 0 < 256)), (4, decide (u32 p 4 = 0)), (8, addrOk c (u64 p 8) 64)] = none := by simp [firstBad, hn, h4, ha]
  rw [devTenantQuery, hb.runChk_eq _ _ hchk]
  simp only [ht]

-- O25

/-- Settles O25: each row runs its effect once its checks have passed (`CmdBegun.devTenantCreate_eq`, `CmdBegun.devTenantQuery_eq`); the three answers of
TENANT_THAW are the branches of `CmdBegun.devTenantThaw_eq`. -/
theorem tenantCommands : Obligations.TenantCommands := by
  unfold Obligations.TenantCommands
  intro s c p hon
  refine ⟨?create, ?thawDone, ?thawRefused, ?query⟩
  case create => exact fun hb hchk hn hres => .of_live hon rfl (hb.devTenantCreate_eq hchk hn hres)
  case thawDone =>
    intro t hb hn h4 ht hm hfrozen hfree
    refine .of_liveQ hon rfl ((hb.devTenantThaw_eq hn h4 ht hm).trans ?_)
    rw [if_neg (not_not_intro hfrozen), if_neg (by simp [hfree])]
    rfl
  case thawRefused =>
    intro t hb hn h4 ht hm
    have hthaw := hb.devTenantThaw_eq hn h4 ht hm
    refine ⟨fun hst => .of_liveQ hon rfl (hthaw.trans (if_pos hst)), fun hfrozen hcarried => .of_liveQ hon rfl (hthaw.trans ?_)⟩
    rw [if_neg (not_not_intro hfrozen), if_pos hcarried]
    rfl
  case query => exact fun t hb hn h4 ha ht => .of_live hon rfl (hb.devTenantQuery_eq hn h4 ha ht)

end Sys2Proof.Machine
end

section
/-! SUPPORT. What KEY_LOAD, KEY_ERASE and IDENTITY_GET run once their command has begun, what a DRBG's rows make of it, and what an SPDM request is answered (R452, R478 to R482, R496, R499, R503, R504). -/

namespace Sys2Proof.Machine

/-- A row whose command has begun and fails a check of its fields answers BAD_PARAM at the first that fails. -/
theorem CmdBegun.runChk_refused {d : Dev} {c : CmdSlot} {op : Nat} {p : Bytes} (h : CmdBegun d c op p) (k : Bytes → Dev → List (Nat × Bool))
    (f : Bytes → Dev → Dev) {o : Nat} (hk : firstBad (k p d) = some o) : runChk c op k f d = finishAt c stBadParam o d := by
  obtain ⟨hl, m, hm, hb, ho, rfl⟩ := h
  exact runChk_bad c op k f d m hm hb ho hl o hk

/-- A service of the centre die acts with the rails on. -/
theorem Gives.of_powered {c : Instr} {s : State} {f : Dev → Dev} {d : Dev} (hon : s.dev.On) (hc : exec c s = onDev s (powered f)) (hf : f s.dev = d) :
    Gives c s d := by
  have hrun : powered f s.dev = f s.dev := by simp [powered, show s.dev.pwr.rails = .on from hon]
  rw [Gives, hc, onDev_next, hrun, hf]

-- KEY_LOAD (R478 to R481)

/-- A begun KEY_LOAD of a wrapped key keeps the slot of its KEK in use (R481). -/
theorem CmdBegun.slotBusy_kek {d : Dev} {c : CmdSlot} {p : Bytes} (hb : CmdBegun d c 0x0801 p) (hc : c ∈ allSlots) (hwrapped : u8 p 8 = 0) :
    slotBusy d (u8 p 9) = true := by
  obtain ⟨-, m, hm, hbegun, hop, rfl⟩ := hb
  have hnames : loadNames d (u8 m.params 9) = true := List.any_eq_true.2 ⟨c, hc, by simp [hm, hbegun, hop, hwrapped]⟩
  simp [slotBusy, hnames]

/-- A key for a tenant that the port does not manage is not loaded (R452). -/
theorem CmdBegun.devKeyLoad_unmanaged {d : Dev} {c : CmdSlot} {p : Bytes} (hb : CmdBegun d c 0x0801 p) (hchk : firstBad (keyLoadChk p d) = none)
    (hten : keyTenantOk c p d = false) : devKeyLoad c d = finish c stNotPermitted d := by
  simp [devKeyLoad, hb.runChk_eq _ _ hchk, hten]

section
variable {d : Dev} {c : CmdSlot} {p : Bytes} (hb : CmdBegun d c 0x0801 p) (hchk : firstBad (keyLoadChk p d) = none) (hten : keyTenantOk c p d = true)
  (hxts : u8 p 1 = 4)
include hb hchk hten hxts

/-- An XTS key whose KEK is there, or is to be agreed, is not loaded into a slot in use (R480, R481). -/
theorem CmdBegun.devKeyLoad_busy (hkek : u8 p 8 = 0 → ∃ w, d.ciph.slots.get? (u8 p 9) = some w ∧ w.use = .wrap) (hbusy : slotBusy d (u8 p 0) = true) :
    devKeyLoad c d = finish c stKeyBusy d := by
  rw [devKeyLoad, hb.runChk_eq _ _ hchk]
  by_cases hwrapped : u8 p 8 = 0
  · obtain ⟨w, hw, huse⟩ := hkek hwrapped
    simp [hten, hxts, hbusy, hw, huse]
  · simp [hten, hxts, hbusy, hwrapped]

/-- A wrapped XTS key for an empty slot is loaded where it unwraps under its KEK to two keys that differ (R478 to R480). -/
theorem CmdBegun.devKeyLoad_xts {w : KeySlot} (hwrapped : u8 p 8 = 0) (hw : d.ciph.slots.get? (u8 p 9) = some w) (huse : w.use = .wrap)
    (hfree : slotBusy d (u8 p 0) = false) (hempty : d.ciph.slots.get? (u8 p 0) = none) :
    devKeyLoad c d = match keyUnwrap (w.material.take 32) (slice p 0x10 72) with
      | none => finish c stVerifyFailed d
      | some m =>
        if slice m 0 32 = slice m 0x20 32 then finishAt c stBadParam 0x10 d
        else finish c stDone (dropTombKey (u8 p 0) (d.onCiph fun x =>
          { x with slots := x.slots.set (u8 p 0) ⟨.xts, u16 p 2, u16 p 4, BitVec.ofNat 16 (u16 p 6), slice m 0 64⟩ })) := by
  rw [devKeyLoad, hb.runChk_eq _ _ hchk]
  cases hm : keyUnwrap (w.material.take 32) (slice p 0x10 72) with
  | none => simp [hten, hxts, hwrapped, hw, huse, hfree, hm]
  | some m =>
    by_cases htwins : slice m 0 32 = slice m 0x20 32 <;>
      simp [hten, hxts, hwrapped, hw, huse, hfree, hm, hempty, materialOk, keyUse, htwins]

end

-- KEY_ERASE (R482)

/-- KEY_ERASE of an empty slot has nothing to erase; of a slot with a key it ends the jobs and the queue pairs of the key, takes it from every queue pair and
tombstone, and empties the slot. -/
theorem CmdBegun.devKeyErase_eq {d : Dev} {c : CmdSlot} {p : Bytes} (hb : CmdBegun d c 0x0802 p) (hslot : u8 p 0 < 64) (hzero : zeros p 1 7 = true) :
    devKeyErase c d =
      if (d.ciph.slots.get? (u8 p 0)).isNone then finish c stNote d
      else
        let e := failJobs (fun j => jobSlot j = u8 p 0) ccFlushed 0x0C d
        finish c stDone (dropTombKey (u8 p 0) ((dropSlotKeys (u8 p 0) ((slotQps e (u8 p 0)).foldl (fun d n => keyLost n d) e)).onCiph fun x =>
          { x with slots := x.slots.erase (u8 p 0) })) := by
  have hchk : firstBad [(0, decide (u8 p 0 < 64)), (1, zeros p 1 7)] = none := by simp [firstBad, hslot, hzero]
  rw [devKeyErase, hb.runChk_eq _ _ hchk]

-- DRBGs (R496)

/-- A reseed that succeeds restores the DRBG and ends ENTROPY_FAIL. -/
theorem devDrbgReseed_ok {n : Nat} (hn : n < 17) (d : Dev) :
    devDrbgReseed n true d = d.onCiph fun c =>
      { c with entropyFail := false, drbgs := modAt c.drbgs n fun x => { failures := 0, stopped := false, reseeds := x.reseeds + 1, since := now d } } := by
  simp [devDrbgReseed, show ¬ 17 ≤ n by omega]

/-- The sixteenth failure in a row sets ENTROPY_FAIL, and is logged. -/
theorem devDrbgReseed_sixteenth {n : Nat} (hn : n < 17) {d : Dev} (hfail : (nth d.ciph.drbgs n {}).failures = 15) (hset : d.ciph.entropyFail = false) :
    devDrbgReseed n false d = logIt 0x0801 0 0 [] (d := (d.onCiph fun c =>
      { c with drbgs := modAt c.drbgs n fun x => { x with failures := 16 } }).onCiph fun c => { c with entropyFail := true }) := by
  simp [devDrbgReseed, show ¬ 17 ≤ n by omega, hfail, hset]

/-- A DRBG is stopped just where ENTROPY_FAIL stands and its reseed is overdue by 1 s. -/
theorem devDrbgStop_eq (n : Nat) (d : Dev) :
    devDrbgStop n d =
      if d.ciph.entropyFail = true ∧ reseedDue (nth d.ciph.drbgs n {}) + secTicks 1 ≤ now d then
        d.onCiph fun c => { c with drbgs := modAt c.drbgs n fun x => { x with stopped := true } }
      else d := by
  simp [devDrbgStop]

@[simp] theorem drbgDraw_svc (k m : Nat) (d : Dev) : (drbgDraw k m d).svc = d.svc := rfl

/-- A word drawn is eight bytes. -/
@[simp] theorem drawWords_length (n : Nat) (d : Dev) : (drawWords n d).1.length = 8 * n := by
  induction n generalizing d with
  | zero => rfl
  | succ n ih =>
    simp only [drawWords, List.length_append, ih, toLE, List.length_cons, List.length_nil]
    omega

@[simp] theorem drawWords_svc (n : Nat) (d : Dev) : (drawWords n d).2.svc = d.svc := by
  induction n generalizing d with
  | zero => rfl
  | succ n ih => simp [drawWords, ih]

-- IDENTITY_GET (R499)

/-- IDENTITY_GET with a well-formed address writes the record of the device's identity. -/
theorem CmdBegun.devIdentityGet_eq {d : Dev} {c : CmdSlot} {p : Bytes} (hb : CmdBegun d c 0x0B01 p) (haddr : addrOk c (u64 p 0) 64 = true)
    (hzero : u64 p 8 = 0) :
    devIdentityGet c d = finishRes c stDone (u64 p 0) (deviceDigest d.svc ++ slice (identityKey d.svc) 0 133 ++ slice (agreementKey d.svc) 0 133 ++ zpad 2
      ++ toLE 4 (if d.svc.chainOk then Config.certChain.length else 0) ++ d.svc.minSvn.flatMap (fun v => toLE 4 v.toNat) ++ toLE 4 d.svc.rootRevoked.toNat
      ++ zpad 8) d := by
  have hchk : firstBad [(0, addrOk c (u64 p 0) 64), (8, decide (u64 p 8 = 0))] = none := by simp [firstBad, haddr, hzero]
  rw [devIdentityGet, hb.runChk_eq _ _ hchk]

/-- IDENTITY_GET with a misaligned address is refused. -/
theorem CmdBegun.devIdentityGet_misaligned {d : Dev} {c : CmdSlot} {p : Bytes} (hb : CmdBegun d c 0x0B01 p) (haddr : addrOk c (u64 p 0) 64 = false) :
    devIdentityGet c d = finishAt c stBadParam 0 d := by
  have hchk : firstBad [(0, addrOk c (u64 p 0) 64), (8, decide (u64 p 8 = 0))] = some 0 := by simp [firstBad, haddr]
  rw [devIdentityGet, hb.runChk_refused _ _ hchk]

-- SPDM (R503, R504)

/-- Where an answer to a request leaves the device: as a DOE object at the port it came by, or as an MCTP message of its type on the sideband. -/
def spdmOut : SpdmRoute → Bytes → Output
  | .doe k, b => .doe k b
  | .mctp, b => .sideband (0x05#8 :: b)

/-- The route by which a request came is up: the link of its port; the sideband is always there. -/
def spdmRouteUp (d : Dev) : SpdmRoute → Bool
  | .doe k => (d.host.get k).linkUp
  | .mctp => true

/-- While the centre runtime runs and the DRBG gives what the answer needs, a request on a route that is up is answered on that route. -/
theorem devSpdm_answers {route : SpdmRoute} {req : SpdmReq} {d : Dev} (msg : Bytes) (hidle : d.svc.traverse = none)
    (hdraw : spdmDraws req = true → keysFlow d = true) (hup : spdmRouteUp d route = true) :
    devSpdm route req msg d = emit (spdmOut route (spdmAnswer req msg d).1) (spdmAnswer req msg d).2 := by
  have hgo : (spdmDraws req && !keysFlow d) = false := by
    cases hreq : spdmDraws req
    · rfl
    · simp [hdraw hreq]
  cases route with
  | doe k =>
    have hlink : (d.host.get k).linkUp = true := hup
    simp [devSpdm, spdmOut, hidle, hgo, hlink]
  | mctp => simp [devSpdm, spdmOut, hidle, hgo]

/-- Without a certificate chain GET_CERTIFICATE is an error Unspecified. -/
theorem spdmCertificate_noChain {v : Svc} (h : v.chainOk = false) (ver : Nat) (msg : Bytes) : spdmCertificate v ver msg = spdmError ver speUnspecified 0 := by
  simp [spdmCertificate, chain, h]

/-- An unsigned request for one of the nine measurements is answered with its block and a nonce of the DRBG. -/
theorem spdmMeasurements_one {msg : Bytes} {i : Nat} (hpos : 1 ≤ i) (hle : i ≤ 9) (hop : u8 msg 3 = i) (hunsigned : tb (u8 msg 2) 0 = false) (ver : Nat)
    (d : Dev) :
    spdmMeasurements ver msg d = (spdmHdr ver 0x60 0 0 ++ toLE 1 1 ++ toLE 3 (measured d.svc i).length ++ measured d.svc i ++ (drawWords 4 d).1 ++ zpad 2
      ++ spdmContext ver msg 4, (drawWords 4 d).2) := by
  have hone : ¬ 9 < i ∧ i ≠ 0 ∧ i ≠ 0xFF := by omega
  simp [spdmMeasurements, hop, hunsigned, hone]

-- O35

/-- Settles O35: each command runs its effect once its checks have passed, and an own KEK is in use while its KEY_LOAD runs (`CmdBegun.slotBusy_kek`); the
rows of the DRBGs are their equations; an SPDM request is answered on the route it came on (`devSpdm_answers`). -/
theorem keysAndIdentity : Obligations.KeysAndIdentity := by
  unfold Obligations.KeysAndIdentity
  intro s c p hon
  refine ⟨?unmanaged, ?xts, ?busy, ?ownKek, ?erase, ?reseeded, ?sixteenth, ?stops, ?goesOn, ?identity, ?misaligned, ?spdm, ?spdmAnswers⟩
  case unmanaged => exact fun hb hchk hten => .of_live hon rfl (hb.devKeyLoad_unmanaged hchk hten)
  case xts =>
    exact fun w hb hchk hten hxts hwrapped hw huse hfree hempty =>
      .of_live hon rfl (hb.devKeyLoad_xts hchk hten hxts hwrapped hw huse hfree hempty)
  case busy =>
    intro hb hchk hten hagreed hxts hbusy
    exact .of_live hon rfl (hb.devKeyLoad_busy hchk hten hxts (by omega) hbusy)
  case ownKek =>
    intro w hc hb hchk hten hxts hwrapped hown hw huse
    exact .of_live hon rfl (hb.devKeyLoad_busy hchk hten hxts (fun _ => ⟨w, hw, huse⟩) (hown ▸ hb.slotBusy_kek hc hwrapped))
  case erase =>
    intro hb hslot hzero
    have herase := hb.devKeyErase_eq hslot hzero
    exact ⟨fun hempty => .of_liveQ hon rfl (herase.trans (if_pos (by simp [hempty]))),
      fun k hk => .of_liveQ hon rfl (herase.trans (if_neg (by simp [hk])))⟩
  case reseeded => exact fun n hn => .of_live hon rfl (devDrbgReseed_ok hn s.dev)
  case sixteenth => exact fun n hn hfail hset => .of_live hon rfl (devDrbgReseed_sixteenth hn hfail hset)
  case stops => exact fun n hset hdue => .of_live hon rfl ((devDrbgStop_eq n s.dev).trans (if_pos ⟨hset, hdue⟩))
  case goesOn =>
    intro n hgo
    refine .of_live hon rfl ((devDrbgStop_eq n s.dev).trans (if_neg ?_))
    rintro ⟨hset, hdue⟩
    rcases hgo with hclear | hearly
    · simp [hclear] at hset
    · omega
  case identity => exact fun hb haddr hzero => .of_live hon rfl (hb.devIdentityGet_eq haddr hzero)
  case misaligned => exact fun hb haddr => .of_live hon rfl (hb.devIdentityGet_misaligned haddr)
  case spdm =>
    intro req msg hidle hdraw
    exact ⟨.of_powered hon rfl (devSpdm_answers msg hidle hdraw rfl), fun k hup => .of_powered hon rfl (devSpdm_answers msg hidle hdraw hup)⟩
  case spdmAnswers =>
    intro d msg
    refine ⟨rfl, fun hchain => ?_, fun i hpos hle hop hunsigned => ?_⟩
    · rw [spdmAnswer, spdmCertificate_noChain hchain]
      rfl
    · exact ⟨_, _, drawWords_length 4 d, drawWords_svc 4 d, spdmMeasurements_one hpos hle hop hunsigned (u8 msg 0) d⟩

end Sys2Proof.Machine
end

section
/-! SUPPORT. The power state is no matter of what releases, ends, resets or hands over other work: every operation below leaves it as it was. -/

namespace Sys2Proof.Machine

/-- A part of the device that a step leaves alone is left alone by its repetition. -/
theorem iter_keeps {β : Type} (g : Dev → β) (f : Dev → Dev) (hf : ∀ d, g (f d) = g d) (n : Nat) (d : Dev) : g (iter f n d) = g d := by
  induction n generalizing d with
  | zero => rfl
  | succ n ih => exact (ih _).trans (hf d)

/-- The power state of a device that an operation answers beside a result. -/
theorem pwr_of_eq_pair {α : Type} {x : α × Dev} {a : α} {e d : Dev} (h : x = (a, e)) (hx : x.2.pwr = d.pwr) : e.pwr = d.pwr := by rwa [h] at hx

-- Replicated tables, and creations that are undone (R40, R432)
@[simp] theorem replSettle_pwr (d : Dev) : (replSettle d).pwr = d.pwr := foldl_keeps Dev.pwr _ (fun _ _ => by split <;> simp) _ _
@[simp] theorem replSend_pwr (ws : List TableWrite) (reply : Option ReplyDue) (d : Dev) : (replSend ws reply d).pwr = d.pwr := by simp [replSend]
@[simp] theorem freeWindows_pwr (p : Nat → Window → Bool) (reply : Option ReplyDue) (d : Dev) : (freeWindows p reply d).pwr = d.pwr := by simp [freeWindows]

@[simp] theorem undoCreation_pwr (m : Cmd) (d : Dev) : (undoCreation m d).pwr = d.pwr := by
  unfold undoCreation
  (repeat' split)
  · rfl
  · exact foldl_keeps Dev.pwr _ (fun d h => by rfl) _ d
  · simp
  · exact foldl_keeps Dev.pwr _ (fun d n => by simp) _ d
  · rfl

@[simp] theorem dropCommands_pwr (d : Dev) : (dropCommands d).pwr = d.pwr := by
  unfold dropCommands
  rw [Dev.onCtl_pwr]
  exact foldl_keeps Dev.pwr _ (fun d c => by split <;> simp) _ d

-- Device memory (R55 to R65)
@[simp] theorem eccCell_pwr (dpa n : Nat) (d : Dev) : (eccCell dpa n d).2.pwr = d.pwr := by
  unfold eccCell
  dsimp only
  (repeat' split) <;> simp

@[simp] theorem eccCells_pwr (errs : List (Nat × Nat)) (dpa : Nat) (l : List Nat) (d : Dev) : (eccCells errs dpa l d).2.pwr = d.pwr := by
  induction l generalizing d with
  | nil => rfl
  | cons i r ih => exact (ih _).trans (eccCell_pwr ..)

@[simp] theorem accCells_pwr (k : Nat) (a : Access) (d : Dev) : (accCells k a d).2.pwr = d.pwr := by cases a <;> simp [accCells]

@[simp] theorem heldCells_pwr (k : Nat) (l : List Access) (d : Dev) : (heldCells k l d).2.pwr = d.pwr := by
  induction l generalizing d with
  | nil => rfl
  | cons a r ih =>
    simp only [heldCells, ih]
    split <;> simp

@[simp] theorem serveCells_pwr (k : Nat) (d : Dev) : (serveCells k d).pwr = d.pwr := by
  unfold serveCells
  dsimp only
  split <;> simp

@[simp] theorem wakeStack_pwr (k : Nat) (d : Dev) : (wakeStack k d).pwr = d.pwr := by
  unfold wakeStack
  split <;> simp

@[simp] theorem touchStack_pwr (k : Nat) (d : Dev) : (touchStack k d).pwr = d.pwr := by simp [touchStack]

@[simp] theorem writePieces_pwr (l : List (Nat × Nat)) (b : Bytes) (d : Dev) : (writePieces l b d).pwr = d.pwr := by
  induction l generalizing b d with
  | nil => rfl
  | cons x r ih =>
    simp only [writePieces, ih]
    split <;> simp

@[simp] theorem zeroPieces_pwr (l : List (Nat × Nat)) (d : Dev) : (zeroPieces l d).pwr = d.pwr := by simp [zeroPieces]

-- Jobs and the Latch (R477, R490)
@[simp] theorem failJob_pwr (i st detail : Nat) (d : Dev) : (failJob i st detail d).pwr = d.pwr := by
  unfold failJob
  (repeat' split) <;> simp

@[simp] theorem latchSet_pwr (a : Option Agent) (token : BitVec 16) (d : Dev) : (latchSet a token d).pwr = d.pwr := rfl
@[simp] theorem latchDrop_pwr (d : Dev) : (latchDrop d).pwr = d.pwr := by simp [latchDrop, foldl_keeps Dev.pwr]

-- The state of a tenant, and waiters
@[simp] theorem tenState_pwr (n : Nat) (st : TenState) (d : Dev) : (tenState n st d).pwr = d.pwr := rfl
@[simp] theorem dropWaiters_pwr (p : Waiter → Bool) (d : Dev) : (dropWaiters p d).pwr = d.pwr := rfl

-- Frames and packets of the device's own
theorem crossOr_pwr (u : Flit) (what : Arrived) {f : Dev → Dev} (hf : ∀ d, (f d).pwr = d.pwr) (d : Dev) : (crossOr u what f d).pwr = d.pwr := by
  unfold crossOr
  split <;> simp [hf]

@[simp] theorem touchKey_pwr (tile : Nat) (k : Nat × Bool) (d : Dev) : (touchKey tile k d).2.pwr = d.pwr := by
  unfold touchKey
  dsimp only
  split <;> simp

@[simp] theorem chargePacket_pwr (tile : Nat) (k : Nat × Bool) (n : Nat) (d : Dev) : (chargePacket tile k n d).2.pwr = d.pwr := by
  unfold chargePacket
  dsimp only
  split <;> simp

theorem sealedIn_pwr (port : Nat) (t : BitVec 8) (p : Pkt) (f : Frame) {g : Frame → Dev → Dev} (hg : ∀ f d, (g f d).pwr = d.pwr) (d : Dev) :
    (sealedIn port t p f g d).pwr = d.pwr := by
  unfold sealedIn
  split <;> simp [hg]

@[simp] theorem heldDrain_pwr (k port : Nat) (d : Dev) : (heldDrain k port d).pwr = d.pwr := rfl
@[simp] theorem dropAck_pwr (k : Nat) (f : Frame) (d : Dev) : (dropAck k f d).pwr = d.pwr := rfl

@[simp] theorem ownIn_pwr (port k : Nat) (f : Frame) (d : Dev) : (ownIn port k f d).pwr = d.pwr := by
  unfold ownIn
  dsimp only
  (repeat' split) <;> simp

@[simp] theorem outwardLand_pwr (port : Nat) (t : BitVec 8) (p : Pkt) (qpn : Option Nat) (path : Nat) (outer : Bytes) (d : Dev) :
    (outwardLand port t p qpn path outer d).pwr = d.pwr := sealedIn_pwr _ _ _ _ (ownIn_pwr _ _) d

@[simp] theorem outward_pwr (tile port : Nat) (t : BitVec 8) (p : Pkt) (qpn : Option Nat) (path : Nat) (d : Dev) : (outward tile port t p qpn path d).pwr = d.pwr :=
  crossOr_pwr _ _ (outwardLand_pwr _ _ _ _ _ _) d

-- Ropes (R371, R376)
@[simp] theorem sendRope_pwr (slot : Nat) (down : Bool) (t : BitVec 8) (p : Pkt) (d : Dev) : (sendRope slot down t p d).2.pwr = d.pwr := by
  unfold sendRope
  dsimp only
  (repeat' split) <;> simp

@[simp] theorem sendAbort_pwr (slot : Nat) (down : Bool) (d : Dev) : (sendAbort slot down d).pwr = d.pwr := by
  unfold sendAbort
  split <;> simp

@[simp] theorem ropeAbort_pwr (slot origin reason : Nat) (down up : Bool) (d : Dev) : (ropeAbort slot origin reason down up d).pwr = d.pwr := by
  unfold ropeAbort
  (repeat' split) <;> simp

@[simp] theorem ropeAbortLocal_pwr (slot reason : Nat) (d : Dev) : (ropeAbortLocal slot reason d).pwr = d.pwr := by
  unfold ropeAbortLocal
  split <;> simp

@[simp] theorem ropeReset_pwr (slot : Nat) (d : Dev) : (ropeReset slot d).pwr = d.pwr := by simp [ropeReset]

-- Control packets of a queue pair
@[simp] theorem noteSpent_pwr (n : Nat) (d : Dev) : (noteSpent n d).pwr = d.pwr := rfl
@[simp] theorem enqueue_pwr (p k : Nat) (f : Frame) (d : Dev) : (enqueue p k f d).pwr = d.pwr := rfl

@[simp] theorem release_pwr (tile port : Nat) (t : BitVec 8) (p : Pkt) (qpn : Option Nat) (path : Nat) (excess : Bool) (ten : Option Nat) (d : Dev) :
    (release tile port t p qpn path excess ten d).pwr = d.pwr := by
  simp only [release]
  split
  · rw [sealedIn_pwr _ _ _ _ (enqueue_pwr _ _)]
    (repeat' split) <;> simp
  · rw [outward_pwr]
    (repeat' split) <;> simp

@[simp] theorem noteEgress_pwr (n k port : Nat) (q : Qp) (pa : Path) (d : Dev) : (noteEgress n k port q pa d).pwr = d.pwr := by
  unfold noteEgress
  split <;> simp

@[simp] theorem useCsn_pwr (n : Nat) (d : Dev) : (useCsn n d).pwr = d.pwr := rfl

@[simp] theorem sendCtlQ_pwr (n : Nat) (q : Qp) (t : BitVec 8) (ext : Bytes) (path : Nat) (d : Dev) : (sendCtlQ n q t ext path d).pwr = d.pwr := by
  unfold sendCtlQ
  dsimp only
  (repeat' split) <;> simp

@[simp] theorem sendCtl_pwr (n : Nat) (t : BitVec 8) (ext : Bytes) (path : Nat) (d : Dev) : (sendCtl n t ext path d).pwr = d.pwr := by
  unfold sendCtl
  split <;> simp

@[simp] theorem sendDisconnect_pwr (n reason : Nat) (d : Dev) : (sendDisconnect n reason d).pwr = d.pwr := by
  unfold sendDisconnect
  (repeat' split) <;> simp

-- Jobs that end (R490)
@[simp] theorem jobRelease1_pwr (d : Dev) : (jobRelease1 d).pwr = d.pwr := by
  unfold jobRelease1
  (repeat' split) <;> simp

@[simp] theorem jobRelease_pwr (d : Dev) : (jobRelease d).pwr = d.pwr := iter_keeps Dev.pwr _ jobRelease1_pwr _ d
@[simp] theorem failJobs_pwr (p : Job → Bool) (st detail : Nat) (d : Dev) : (failJobs p st detail d).pwr = d.pwr := by simp [failJobs, foldl_keeps Dev.pwr]

-- Queue pairs and completion queues that are destroyed (R222, R234)
@[simp] theorem countLegs_pwr (o : Op) (d : Dev) : (countLegs o d).pwr = d.pwr := foldl_keeps Dev.pwr _ (fun _ _ => by split <;> simp) _ _
@[simp] theorem drainDown_pwr (w tile : Nat) (d : Dev) : (drainDown w tile d).pwr = d.pwr := rfl

@[simp] theorem dropOps_pwr (p : Op → Bool) (d : Dev) : (dropOps p d).pwr = d.pwr :=
  dropOps_keeps Dev.pwr countLegs_pwr drainDown_pwr dropWaiters_pwr (fun _ _ => rfl) p d

@[simp] theorem dropKeys_pwr (p : Nat → Bool) (d : Dev) : (dropKeys p d).pwr = d.pwr := rfl

@[simp] theorem dropHeld_pwr (n : Nat) (d : Dev) : (dropHeld n d).pwr = d.pwr := by
  unfold dropHeld
  split
  · rfl
  · exact foldl_keeps Dev.pwr _ (fun d m => by (repeat' split) <;> simp) _ d

@[simp] theorem destroyQp_pwr (n : Nat) (cause : TombCause) (d : Dev) : (destroyQp n cause d).pwr = d.pwr := by
  unfold destroyQp
  (repeat' split) <;> simp

@[simp] theorem destroyCq_pwr (n : Nat) (d : Dev) : (destroyCq n d).pwr = d.pwr := rfl

-- Tenants that are reset (R457)
@[simp] theorem dropRuns_pwr (n : Nat) (d : Dev) : (dropRuns n d).pwr = d.pwr := rfl
@[simp] theorem restartTenant_pwr (n : Nat) (d : Dev) : (restartTenant n d).pwr = d.pwr := rfl
@[simp] theorem priSend_pwr (p : Side) (d : Dev) : (priSend p d).pwr = d.pwr := foldl_keeps Dev.pwr _ (fun _ _ => by split <;> simp) _ _
@[simp] theorem groupsTidy_pwr (p : Side) (d : Dev) : (groupsTidy p d).pwr = d.pwr := by simp [groupsTidy]

@[simp] theorem tenResetSteps_pwr (n : Nat) (st : TenState) (cause : ResetCause) (d : Dev) : (tenResetSteps n st cause d).pwr = d.pwr := by
  unfold tenResetSteps
  split
  · rfl
  · dsimp only
    rw [Dev.onTen_pwr, restartTenant_pwr, groupsTidy_pwr, foldl_keeps Dev.pwr _ (fun d x => by simp), foldl_keeps Dev.pwr _ (fun d k => by simp),
      failJobs_pwr, dropOps_pwr, foldl_keeps Dev.pwr _ (fun d x => by split <;> simp), Dev.onXlt_pwr, foldl_keeps Dev.pwr _ (fun d x => by simp),
      tenState_pwr, Dev.onTen_pwr]
    split <;> simp

@[simp] theorem warmTenant_pwr (n : Nat) (d : Dev) : (warmTenant n d).pwr = d.pwr := by simp [warmTenant]

-- Ports that send what waits
@[simp] theorem onLink_pwr (port : Nat) (f : Link → Link) (d : Dev) : (onLink port f d).pwr = d.pwr := rfl
@[simp] theorem sendPlain_pwr (port bt seq : Nat) (d : Dev) : (sendPlain port bt seq d).pwr = d.pwr := rfl
@[simp] theorem sendData_pwr (port vc : Nat) (sof eof : Bool) (pl : Bytes) (d : Dev) : (sendData port vc sof eof pl d).pwr = d.pwr := rfl

@[simp] theorem sendBlocks_pwr (port vc : Nat) (first : Bool) (n : Nat) (b : Bytes) (d : Dev) : (sendBlocks port vc first n b d).pwr = d.pwr := by
  induction n generalizing first b d with
  | zero => rfl
  | succ n ih => exact (ih _ _ _).trans (sendData_pwr ..)

@[simp] theorem sendWhole_pwr (port vc : Nat) (taken : Bool) (b : Bytes) (d : Dev) : (sendWhole port vc taken b d).pwr = d.pwr := by
  unfold sendWhole
  split <;> simp

@[simp] theorem startFrame_pwr (port vc : Nat) (taken : Bool) (f : Frame) (d : Dev) : (startFrame port vc taken f d).pwr = d.pwr := by
  unfold startFrame
  dsimp only
  split <;> simp

@[simp] theorem devPortSchedule_pwr (port : Nat) (d : Dev) : (devPortSchedule port d).pwr = d.pwr := by
  unfold devPortSchedule
  dsimp only
  (repeat' split) <;> simp

@[simp] theorem drainPort_pwr (k : Nat) (d : Dev) : (drainPort k d).pwr = d.pwr := iter_keeps Dev.pwr _ (devPortSchedule_pwr k) _ d

-- Stacks (R65)
@[simp] theorem resetStack_pwr (k : Nat) (d : Dev) : (resetStack k d).pwr = d.pwr := rfl

-- Paths and steps of a port that goes down (R340)
@[simp] theorem onPath_pwr (n k : Nat) (f : Path → Path) (d : Dev) : (onPath n k f d).pwr = d.pwr := rfl
@[simp] theorem pathDown_pwr (n k : Nat) (d : Dev) : (pathDown n k d).pwr = d.pwr := rfl

@[simp] theorem dropDeadPaths_pwr (n : Nat) (d : Dev) : (dropDeadPaths n d).pwr = d.pwr := by
  unfold dropDeadPaths
  split
  · rfl
  · extract_lets dead
    split
    · rfl
    · exact foldl_keeps Dev.pwr _ (fun d k => by (repeat' split) <;> simp) _ d

@[simp] theorem dropAllDead_pwr (d : Dev) : (dropAllDead d).pwr = d.pwr := foldl_keeps Dev.pwr _ (fun _ _ => by simp) _ d

@[simp] theorem downPaths_pwr (port : Nat) (d : Dev) : (downPaths port d).pwr = d.pwr :=
  foldl_keeps Dev.pwr _ (fun d _ => foldl_keeps Dev.pwr _ (fun d k => by (repeat' split) <;> simp) _ d) _ d

@[simp] theorem onPkt_pwr (n : Nat) (psn : BitVec 32) (f : TxPkt → TxPkt) (d : Dev) : (onPkt n psn f d).pwr = d.pwr := rfl

@[simp] theorem markResend_pwr (n : Nat) (u : TxPkt) (src : Option Nat) (countTimeout : Bool) (d : Dev) : (markResend n u src countTimeout d).pwr = d.pwr := by
  unfold markResend
  dsimp only
  (repeat' split) <;> simp

@[simp] theorem resendPort_pwr (port : Nat) (d : Dev) : (resendPort port d).pwr = d.pwr := by simp [resendPort, foldl_keeps Dev.pwr]

@[simp] theorem answerStep_pwr (x : Option StepCause) (d : Dev) : (answerStep x d).pwr = d.pwr := by
  unfold answerStep
  split <;> simp

@[simp] theorem endStep_pwr (port : Nat) (d : Dev) : (endStep port d).pwr = d.pwr := by
  unfold endStep
  dsimp only
  (repeat' split) <;> simp

-- Congestion, shaping and gates; the host ports; the Hasps (R309, R394)
@[simp] theorem restartFlow_pwr (tiles : List Nat) (d : Dev) : (restartFlow tiles d).pwr = d.pwr := rfl

@[simp] theorem aerLog_pwr (p : Side) (e : AerError) (d : Dev) : (aerLog p e d).pwr = d.pwr := by
  unfold aerLog
  dsimp only
  split <;> simp

@[simp] theorem warmHost_pwr (p : Side) (d : Dev) : (warmHost p d).pwr = d.pwr := rfl
@[simp] theorem freeHasps_pwr (d : Dev) : (freeHasps d).pwr = d.pwr := rfl

-- The leadership epoch (R39)
theorem toBase_pwr (k : Nat) (what : Arrived) {f : Dev → Dev} (hf : ∀ d, (f d).pwr = d.pwr) (d : Dev) : (toBase k what f d).pwr = d.pwr := by
  unfold toBase
  split <;> simp [hf]

@[simp] theorem epochCast_pwr (d : Dev) : (epochCast d).pwr = d.pwr := by
  unfold epochCast
  refine foldl_keeps Dev.pwr _ (fun d k => ?_) _ _
  split
  · rw [toBase_pwr _ _ fun _ => Dev.onFab_pwr _ _]
  · rfl

@[simp] theorem setHolder_pwr (n : Nat) (a : Option Agent) (token : BitVec 16) (d : Dev) : (setHolder n a token d).pwr = d.pwr := by
  unfold setHolder
  split <;> simp

-- Tenants and windows that end (R183, R459)
@[simp] theorem releaseAlloc_pwr (h : Nat) (d : Dev) : (releaseAlloc h d).pwr = d.pwr := by
  unfold releaseAlloc
  split
  · rfl
  · exact foldl_keeps Dev.pwr _ (fun d r => by dsimp only; split <;> simp) _ d

@[simp] theorem finishDestroy_pwr (n : Nat) (stubs : Tab Stub) (cmd : Option CmdSlot) (d : Dev) : (finishDestroy n stubs cmd d).pwr = d.pwr := by
  unfold finishDestroy
  dsimp only
  rw [replSend_pwr, Dev.onTens_pwr, Dev.onNet_pwr, foldl_keeps Dev.pwr _ (fun d x => by rfl), foldl_keeps Dev.pwr _ (fun d h => by simp),
    dropRuns_pwr, Dev.onXlt_pwr]

@[simp] theorem eventDrain1_pwr (n : Nat) (d : Dev) : (eventDrain1 n d).pwr = d.pwr := by
  unfold eventDrain1
  (repeat' split) <;> simp

@[simp] theorem eventDrain_pwr (n : Nat) (d : Dev) : (eventDrain n d).pwr = d.pwr := iter_keeps Dev.pwr _ (eventDrain1_pwr n) _ d

@[simp] theorem tenResetTry_pwr (n : Nat) (d : Dev) : (tenResetTry n d).pwr = d.pwr := by
  unfold tenResetTry
  (repeat' split) <;> simp

@[simp] theorem windowEnd_pwr (w : Nat) (v : Window) (d : Dev) : (windowEnd w v d).pwr = d.pwr := by
  unfold windowEnd
  split <;> simp

@[simp] theorem windowsEnd_pwr (d : Dev) : (windowsEnd d).pwr = d.pwr :=
  foldl_keeps Dev.pwr _ (fun d x => by dsimp only; split <;> simp) _ d

-- Replicated writes that a new leader carries on (R40)
@[simp] theorem replAck_pwr (u : Nat) (w : TableWrite) (d : Dev) : (replAck u w d).pwr = d.pwr := by simp [replAck]

@[simp] theorem applyWrite_pwr (u : Nat) (w : TableWrite) (d : Dev) : (applyWrite u w d).pwr = d.pwr := by
  unfold applyWrite
  split <;> simp

@[simp] theorem tableWrite_pwr (u : Nat) (epoch : BitVec 32) (w : TableWrite) (d : Dev) : (tableWrite u epoch w d).pwr = d.pwr := by
  unfold tableWrite
  dsimp only
  (repeat' split) <;> simp

@[simp] theorem replCarry_pwr (d : Dev) : (replCarry d).pwr = d.pwr := by simp [replCarry, foldl_keeps Dev.pwr]

@[simp] theorem undoRestore_pwr (m : Cmd) (d : Dev) : (undoRestore m d).pwr = d.pwr := by
  unfold undoRestore
  split <;> simp

-- Fault records that are gathered (R165, R169)
@[simp] theorem postPri_pwr (p : Side) (d : Dev) : (postPri p d).pwr = d.pwr := by
  unfold postPri
  dsimp only
  split <;> simp

@[simp] theorem cairnWrite_pwr (p : Side) (c : Cairn) (d : Dev) : (cairnWrite p c d).pwr = d.pwr := by
  unfold cairnWrite
  dsimp only
  split <;> simp

@[simp] theorem postCairn_pwr (p : Side) (timed : Bool) (d : Dev) : (postCairn p timed d).pwr = d.pwr := by
  unfold postCairn
  dsimp only
  (repeat' split) <;> simp

@[simp] theorem gather_pwr (id : Nat) (d : Dev) : (gather id d).2.pwr = d.pwr := by
  unfold gather
  dsimp only
  (repeat' split) <;> simp

-- Messages that are released, and queue pairs that flush (R224, R251)
@[simp] theorem extendGrant_pwr (n : Nat) (d : Dev) : (extendGrant n d).pwr = d.pwr := by
  unfold extendGrant
  (repeat' split) <;> simp

@[simp] theorem rxRelease1_pwr (n : Nat) (d : Dev) : (rxRelease1 n d).pwr = d.pwr := by
  unfold rxRelease1
  (repeat' split) <;> simp

@[simp] theorem sendAck_pwr (n : Nat) (echoPsn echoTime : BitVec 32) (arrival : Nat) (path : BitVec 8) (d : Dev) :
    (sendAck n echoPsn echoTime arrival path d).pwr = d.pwr := by
  unfold sendAck
  (repeat' split) <;> simp [foldl_keeps Dev.pwr]

@[simp] theorem ackLatest_pwr (n : Nat) (d : Dev) : (ackLatest n d).pwr = d.pwr := by
  unfold ackLatest
  split <;> simp

@[simp] theorem rxAdvance_pwr (n : Nat) (d : Dev) : (rxAdvance n d).pwr = d.pwr := by
  have hrelease (k : Nat) : (iter (rxRelease1 n) k d).pwr = d.pwr := iter_keeps Dev.pwr _ (rxRelease1_pwr n) k d
  unfold rxAdvance
  dsimp only
  (repeat' split) <;> simp [hrelease]

@[simp] theorem flushQp_pwr (n : Nat) (disc : Option Nat) (event : Option Nat) (d : Dev) : (flushQp n disc event d).pwr = d.pwr := by
  unfold flushQp
  (repeat' split) <;> simp

@[simp] theorem toFlush_pwr (n : Nat) (disc : Option Nat) (event : Option Nat) (d : Dev) : (toFlush n disc event d).pwr = d.pwr := by
  unfold toFlush
  (repeat' split) <;> simp

@[simp] theorem endEntry_pwr (n idx : Nat) (e : WorkEnd) (err : Bool) (d : Dev) : (endEntry n idx e err d).pwr = d.pwr := by
  unfold endEntry
  (repeat' split) <;> simp

@[simp] theorem endBad_pwr (n idx code detail : Nat) (d : Dev) : (endBad n idx code detail d).pwr = d.pwr := by simp [endBad]

@[simp] theorem seqEnd_pwr (n : Nat) (d : Dev) : (seqEnd n d).pwr = d.pwr := by
  unfold seqEnd
  (repeat' split) <;> simp

-- Translation of what a completion queue is written by (R160 to R165)
@[simp] theorem addRun_pwr (tile : Nat) (e : RunEntry) (d : Dev) : (addRun tile e d).pwr = d.pwr := rfl
@[simp] theorem addUpper_pwr (tile t dva : Nat) (d : Dev) : (addUpper tile t dva d).pwr = d.pwr := rfl

@[simp] theorem lookupRun_pwr (tile t addr : Nat) (d : Dev) : (lookupRun tile t addr d).2.pwr = d.pwr := by
  unfold lookupRun
  dsimp only
  (repeat' split) <;> simp [foldl_keeps Dev.pwr]

@[simp] theorem trackStream_pwr (tile : Nat) (s : Stream) (d : Dev) : (trackStream tile s d).pwr = d.pwr := rfl

@[simp] theorem sendAts_pwr (tile t addr : Nat) (who : Waiting) (rec : Option Nat) (ahead : Option (Stream × Nat)) (d : Dev) :
    (sendAts tile t addr who rec ahead d).pwr = d.pwr := by
  unfold sendAts
  dsimp only
  (repeat' split) <;> simp

@[simp] theorem prefetchFrom_pwr (tile t : Nat) (s : Stream) (n addr : Nat) (d : Dev) : (prefetchFrom tile t s n addr d).pwr = d.pwr := by
  induction n generalizing addr with
  | zero => rfl
  | succ n ih =>
    unfold prefetchFrom
    (repeat' split) <;> simp [ih]

@[simp] theorem enterRun_pwr (tile t addr : Nat) (s : Stream) (d : Dev) : (enterRun tile t addr s d).2.pwr = d.pwr := by
  have hlook := (lookupRun_pwr tile t addr (trackStream tile s d)).trans (trackStream_pwr tile s d)
  unfold enterRun
  split
  · next he => exact (prefetchFrom_pwr ..).trans (pwr_of_eq_pair he hlook)
  · next he => exact pwr_of_eq_pair he hlook

@[simp] theorem lookup_pwr (tile t addr : Nat) (w : Waiter) (write : Bool) (d : Dev) : (lookup tile t addr w write d).pwr = d.pwr := by
  unfold lookup
  split <;> simp

@[simp] theorem putPieces_pwr (relax : Bool) (l : List (Place × Nat)) (b : Bytes) (d : Dev) : (putPieces relax l b d).pwr = d.pwr := by
  induction l generalizing b d with
  | nil => rfl
  | cons x r ih =>
    obtain ⟨p, n⟩ := x
    cases p <;> simp [putPieces, ih]

@[simp] theorem raiseFault_pwr (tile t addr : Nat) (write again : Bool) (w : Waiter) (d : Dev) : (raiseFault tile t addr write again w d).2.pwr = d.pwr := by
  unfold raiseFault
  split
  · rfl
  · dsimp only
    split
    · simp
    · split
      · simp
      · split
        · simp
        · split
          · next he => exact (pwr_of_eq_pair he (gather_pwr ..)).trans (by simp)
          · next he => exact (pwr_of_eq_pair he (gather_pwr ..)).trans (by simp)

@[simp] theorem askAts_pwr (tile t addr : Nat) (write : Bool) (w : Waiter) (rec : Option Nat) (d : Dev) : (askAts tile t addr write w rec d).pwr = d.pwr := by
  simp [askAts]

@[simp] theorem stallOn_pwr (tile t : Nat) (write : Bool) (w : Waiter) (e : XErr) (d : Dev) : (stallOn tile t write w e d).2.pwr = d.pwr := by
  cases e with
  | access => rfl
  | fault a =>
    have hfault := (raiseFault_pwr tile t a write false w (lookup tile t a w write d)).trans (lookup_pwr ..)
    simp only [stallOn]
    split <;> next he => exact pwr_of_eq_pair he hfault
  | ats a => simp [stallOn]

-- Completions that are released (R216, R227)
@[simp] theorem cqOverflow_pwr (n extra : Nat) (d : Dev) : (cqOverflow n extra d).pwr = d.pwr := by
  unfold cqOverflow
  split
  · rfl
  · split
    · rfl
    · dsimp only
      rw [foldl_keeps Dev.pwr _ (fun d x => by (repeat' split) <;> simp), foldl_keeps Dev.pwr _ (fun d x => by (repeat' split) <;> simp),
        foldl_keeps Dev.pwr _ (fun d x => by (repeat' split) <;> simp)]
      simp

@[simp] theorem cqWrite_pwr (n : Nat) (e : Cqe) (d : Dev) : (cqWrite n e d).pwr = d.pwr := by
  unfold cqWrite
  split
  · rfl
  · dsimp only
    split
    · split <;> simp
    · split
      · next he => exact (Dev.onCq_pwr ..).trans (pwr_of_eq_pair he (stallOn_pwr ..))
      · next he => exact (cqOverflow_pwr ..).trans (pwr_of_eq_pair he (stallOn_pwr ..))

@[simp] theorem cqPush_pwr (n : Nat) (e : Cqe) (written wait : Bool) (d : Dev) : (cqPush n e written wait d).pwr = d.pwr := by
  unfold cqPush
  dsimp only
  (repeat' split) <;> simp

theorem qpRelease_pwr {n : Nat} {q : Qp} {d e : Dev} (h : qpRelease n q d = some e) : e.pwr = d.pwr := by
  unfold qpRelease at h
  dsimp only at h
  split at h
  · cases h
    rw [cqPush_pwr]
    split <;> simp
  · split at h
    · cases h
      rw [cqPush_pwr]
      split <;> simp
    · split at h <;> cases h
      simp

theorem ropeRelease_pwr {k : Nat} {r : Rope} {d e : Dev} (h : ropeRelease k r d = some e) : e.pwr = d.pwr := by
  unfold ropeRelease at h
  split at h
  · split at h <;> cases h
    simp
  · cases h

theorem settle1_pwr {d e : Dev} (h : settle1 d = some e) : e.pwr = d.pwr := by
  unfold settle1 at h
  split at h
  · next he =>
    obtain ⟨x, -, hx⟩ := List.exists_of_findSome?_eq_some he
    cases h
    exact qpRelease_pwr hx
  · obtain ⟨x, -, hx⟩ := List.exists_of_findSome?_eq_some h
    exact ropeRelease_pwr hx

@[simp] theorem settle_pwr (d : Dev) : (settle d).pwr = d.pwr :=
  settle_ind (fun e => e.pwr = d.pwr) (fun e n h => (rxAdvance_pwr n e).trans h) (fun e n h => (seqEnd_pwr n e).trans h)
    (fun _ _ h hs => (settle1_pwr hs).trans h) d rfl

-- Waiters that a fault ends (R168)
@[simp] theorem fetchFail_pwr (n : Nat) (rq : Bool) (code detail : Nat) (d : Dev) : (fetchFail n rq code detail d).pwr = d.pwr := by
  unfold fetchFail
  dsimp only
  (repeat' split) <;> simp

@[simp] theorem noteSent_pwr (row inst : Nat) (d : Dev) : (noteSent row inst d).pwr = d.pwr := rfl

@[simp] theorem placeLegs_pwr (tile : Nat) (d : Dev) : (placeLegs tile d).pwr = d.pwr := by
  unfold placeLegs
  refine foldl_keeps Dev.pwr _ (fun d x => ?_) _ d
  dsimp only
  rw [Dev.onOp_pwr, Dev.onStkEng_pwr, noteSent_pwr]
  (repeat' split) <;> simp

@[simp] theorem opGone_pwr (i : Nat) (d : Dev) : (opGone i d).pwr = d.pwr := by
  unfold opGone
  split <;> simp

@[simp] theorem nakMessage_pwr (n : Nat) (msn : BitVec 32) (code detail : Nat) (d : Dev) : (nakMessage n msn code detail d).pwr = d.pwr := by
  unfold nakMessage
  split <;> simp

@[simp] theorem opFail_pwr (i code detail : Nat) (d : Dev) : (opFail i code detail d).pwr = d.pwr := by
  unfold opFail
  (repeat' split) <;> simp

@[simp] theorem failWaiter_pwr (w : Waiter) (code detail : Nat) (d : Dev) : (failWaiter w code detail d).pwr = d.pwr := by
  unfold failWaiter
  split <;> simp

@[simp] theorem unresolved_pwr (w : Waiter) (d : Dev) : (unresolved w d).pwr = d.pwr := by simp [unresolved]

-- Cairns and the takeover of a leader (R165, R397)
@[simp] theorem dropRec_pwr (id : Nat) (d : Dev) : (dropRec id d).pwr = d.pwr := rfl

@[simp] theorem cairnDrain1_pwr (p : Side) (d : Dev) : (cairnDrain1 p d).pwr = d.pwr := by
  unfold cairnDrain1
  (repeat' split) <;> simp

@[simp] theorem cairnDrain_pwr (p : Side) (d : Dev) : (cairnDrain p d).pwr = d.pwr := iter_keeps Dev.pwr _ (cairnDrain1_pwr p) _ d
@[simp] theorem leaderChanged_pwr (who : Nat) (d : Dev) : (leaderChanged who d).pwr = d.pwr := by simp [leaderChanged]
@[simp] theorem copyTables_pwr (u : Nat) (d : Dev) : (copyTables u d).pwr = d.pwr := rfl
@[simp] theorem copyAll_pwr (d : Dev) : (copyAll d).pwr = d.pwr := foldl_keeps Dev.pwr _ (fun d u => copyTables_pwr u d) _ d

end Sys2Proof.Machine
end

section
/-! SUPPORT. The limit that SET_POWER_LIMIT set is kept through a warm reset and removed by a new record (R518, R532, R557). -/

namespace Sys2Proof.Machine

@[simp] theorem wakeDev_setW (d : Dev) : (wakeDev d).pwr.setW = d.pwr.setW := by
  unfold wakeDev
  split <;> rfl

@[simp] theorem portDown_setW (port : Nat) (d : Dev) : (portDown port d).pwr.setW = d.pwr.setW := by
  unfold portDown
  dsimp only
  (repeat' split) <;> simp

@[simp] theorem resetPort_setW (warm : Bool) (k : Nat) (d : Dev) : (resetPort warm k d).pwr.setW = d.pwr.setW := by simp [resetPort]

@[simp] theorem disownCmds_setW (d : Dev) : (disownCmds d).pwr.setW = d.pwr.setW := rfl

/-- A fault that is gathered again at a takeover, or ends at once, is no matter of the power state. -/
@[simp] theorem takeover_setW (d : Dev) : (takeover d).pwr.setW = d.pwr.setW := by
  unfold takeover
  dsimp only
  rw [foldl_keeps (·.pwr.setW) _ (fun d x => by
    split
    · split
      · next he => rw [pwr_of_eq_pair he (gather_pwr ..)]
      · next he => rw [settle_pwr, foldl_keeps Dev.pwr _ (fun d w => by simp), dropRec_pwr, pwr_of_eq_pair he (gather_pwr ..)]
    · rfl)]
  rw [cairnDrain_pwr, cairnDrain_pwr, Dev.onCtl_pwr, disownCmds_setW, foldl_keeps Dev.pwr _ (fun d x => by (repeat' split) <;> simp)]
  simp

@[simp] theorem acquireLead_setW (s : Side) (d : Dev) : (acquireLead s d).pwr.setW = d.pwr.setW := by simp [acquireLead, acquireWith]

/-- A warm reset keeps the limit that SET_POWER_LIMIT set (R518, R532). -/
theorem warmReset_setW (cause : Nat) (d : Dev) : (warmReset cause d).pwr.setW = d.pwr.setW := by
  unfold warmReset
  extract_lets cleared unlatched tens emptied drained tombs quiet stubless ropeless legless unmapped idle resting active ports flows hosts unheld reset booted
    counted led dies copied logged
  have hunlatched : unlatched.pwr = d.pwr := by
    have hcleared : cleared.pwr = d.pwr := dropCommands_pwr d
    unfold unlatched
    split <;> simp [hcleared]
  have hdrained : drained.pwr = d.pwr := by
    rw [← hunlatched]
    exact (foldl_keeps Dev.pwr _ (fun d k => drainPort_pwr k d) _ emptied).trans (foldl_keeps Dev.pwr _ (fun d n => warmTenant_pwr n d) _ unlatched)
  have hresting : resting.pwr = d.pwr := by
    rw [← hdrained]
    refine (foldl_keeps Dev.pwr _ (fun d k => resetStack_pwr k d) _ idle).trans ?_
    simp only [idle, unmapped, legless, ropeless, stubless, quiet, Dev.onFab_pwr, Dev.onXlt_pwr, Dev.onEng_pwr, Dev.onRopes_pwr, Dev.onTens_pwr, Dev.onQ_pwr]
  have hactive : active.pwr.setW = d.pwr.setW := by simp only [active, Dev.onPwr_pwr, hresting]
  have hports : ports.pwr.setW = d.pwr.setW := (foldl_keeps (·.pwr.setW) _ (fun d k => resetPort_setW true k d) _ active).trans hactive
  have hcounted : counted.pwr.setW = d.pwr.setW := by
    simp only [counted, booted, reset, unheld, hosts, flows, Dev.onPwr_pwr, Dev.onSvc_pwr, Dev.onCtl_pwr, freeHasps_pwr, warmHost_pwr, restartFlow_pwr, hports]
  have hled : led.pwr.setW = d.pwr.setW := by
    simp only [led]
    (repeat' split) <;> simp only [acquireLead_setW, hcounted]
  calc (tens.foldl (fun d n => tenResetTry n d) logged).pwr.setW
    _ = logged.pwr.setW := foldl_keeps (·.pwr.setW) _ (fun d n => by rw [tenResetTry_pwr]) tens logged
    _ = led.pwr.setW := by simp only [logged, copied, dies, logIt_pwr, copyAll_pwr, Dev.onCtl_pwr]
    _ = d.pwr.setW := hled

@[simp] theorem sendMgt_pwr (port : Nat) (m : Bytes) (d : Dev) : (sendMgt port m d).pwr = d.pwr := by simp [sendMgt]

@[simp] theorem hostWidth_pwr (p : Side) (w : Nat) (d : Dev) : (hostWidth p w d).pwr = d.pwr := by
  unfold hostWidth
  dsimp only
  split <;> simp

@[simp] theorem applyEntry_setW (port : Nat) (e : PortEntry) (nodeNew : Bool) (d : Dev) : (applyEntry port e nodeNew d).pwr.setW = d.pwr.setW := by
  unfold applyEntry
  dsimp only
  (repeat' split) <;> simp

/-- A record that is accepted removes the limit that SET_POWER_LIMIT set (R518). -/
theorem acceptRecord_setW (b : Bytes) (d : Dev) : (acceptRecord b d).pwr.setW = none := by
  simp [acceptRecord, applyRecord, foldl_keeps (·.pwr.setW)]

end Sys2Proof.Machine
end

section
/-! SUPPORT. What SET_POWER_LIMIT, POWER_STATE and HALF_RESET run once their checks have passed, and what a read of the legacy window answers (R514, R518, R526
to R535, R540). -/

namespace Sys2Proof.Machine

theorem modAt_congr {α : Type} {l : List α} {i : Nat} {f g : α → α} {x : α} (h : f (nth l i x) = g (nth l i x)) : modAt l i f = modAt l i g := by
  induction l generalizing i with
  | nil => rfl
  | cons y r ih =>
    cases i with
    | zero => exact congrArg (· :: r) h
    | succ i => exact congrArg (y :: ·) (ih h)

/-- A change of a stack is what it makes of the stack as it stands. -/
theorem Dev.onStk_congr {d : Dev} {k : Nat} {f g : Stack → Stack} (h : f (d.stack k) = g (d.stack k)) : d.onStk k f = d.onStk k g := by
  simp only [Dev.onStk, Dev.onMem, modAt_congr h]

-- SET_POWER_LIMIT

section
variable {d : Dev} {c : CmdSlot} {p : Bytes} (hb : CmdBegun d c 0x0105 p)
include hb

/-- SET_POWER_LIMIT in range sets the limit, and answers the note where the other terms' cap stands below it (R514, R518). -/
theorem CmdBegun.devSetPowerLimit_eq (hlo : 500 ≤ u16 p 0) (hhi : u16 p 0 ≤ 3000) (hzero : zeros p 2 6 = true) :
    devSetPowerLimit c d = finish c (if limitCap d < u16 p 0 then stNote else stDone) (d.onPwr fun x => { x with setW := some (u16 p 0) }) := by
  have hchk : firstBad [(0, decide (500 ≤ u16 p 0) && decide (u16 p 0 ≤ 3000)), (2, zeros p 2 6)] = none := by simp [firstBad, hlo, hhi, hzero]
  rw [devSetPowerLimit, hb.runChk_eq _ _ hchk]

/-- Out of range, BAD_PARAM points at LIMIT_W, whatever the reserved bytes hold. -/
theorem CmdBegun.devSetPowerLimit_outOfRange (h : u16 p 0 < 500 ∨ 3000 < u16 p 0) : devSetPowerLimit c d = finishAt c stBadParam 0 d := by
  have hchk : firstBad [(0, decide (500 ≤ u16 p 0) && decide (u16 p 0 ≤ 3000)), (2, zeros p 2 6)] = some 0 := by
    simp [firstBad, show ¬ (500 ≤ u16 p 0 ∧ u16 p 0 ≤ 3000) by omega]
  rw [devSetPowerLimit, hb.runChk_refused _ _ hchk]

theorem CmdBegun.devSetPowerLimit_reserved (hlo : 500 ≤ u16 p 0) (hhi : u16 p 0 ≤ 3000) (hset : zeros p 2 6 = false) :
    devSetPowerLimit c d = finishAt c stBadParam 2 d := by
  have hchk : firstBad [(0, decide (500 ≤ u16 p 0) && decide (u16 p 0 ≤ 3000)), (2, zeros p 2 6)] = some 2 := by simp [firstBad, hlo, hhi, hset]
  rw [devSetPowerLimit, hb.runChk_refused _ _ hchk]

end

/-- The 1 ms step takes the limit in force from its terms and leaves the set one (R514, R518). -/
theorem devLimiterStep_limit (average : Nat) (hottest : Int) (d : Dev) :
    (devLimiterStep average hottest d).pwr.limitW = limitNow d ∧ (devLimiterStep average hottest d).pwr.setW = d.pwr.setW := by
  unfold devLimiterStep
  dsimp only
  (repeat' split) <;> simp

/-- With a record in force and a limit set, the limit is the least of the four terms (R514). -/
theorem limitNow_eq {d : Dev} {r q w : Nat} (hr : d.pwr.recordW = some r) (hq : d.pwr.coolantW = some q) (hw : d.pwr.setW = some w) :
    limitNow d = min w (min (min r q) (stageCap d)) := by
  simp [limitNow, limitCap, hr, hq, hw]

-- POWER_STATE

/-- A POWER_STATE of a stack that is not OFFLINE, or of a port that is there, with its reserved bytes zero passes the checks of its fields. -/
theorem firstBad_powerStateChk {p : Bytes} {d : Dev}
    (hobj : u8 p 0 = 1 ∧ u8 p 2 < 32 ∧ (d.stack (u8 p 2)).mode ≠ .offline ∨ (u8 p 0 = 2 ∨ u8 p 0 = 3) ∧ u8 p 2 < 16) (hback : u8 p 1 ≤ 1)
    (hzero : zeros p 3 5 = true) : firstBad (powerStateChk p d) = none := by
  rcases hobj with ⟨hwhat, hk, hmode⟩ | ⟨hwhat | hwhat, hk⟩ <;> simp [firstBad, powerStateChk, *]

section
variable {d : Dev} {c : CmdSlot} {p : Bytes} (hb : CmdBegun d c 0x0104 p) (hchk : firstBad (powerStateChk p d) = none)
include hb hchk

/-- A port that is not DIRECT does not sleep, in a reset or not (R535). -/
theorem CmdBegun.devPowerState_notDirect (hwhat : u8 p 0 = 2) (hmode : (d.port (u8 p 2)).ent.mode ≠ .direct) :
    devPowerState c d = finish c stNotPermitted d := by
  rw [devPowerState, hb.runChk_eq _ _ hchk]
  simp [hwhat, hmode]

/-- While a half is in reset no stack is parked (R535). -/
theorem CmdBegun.devPowerState_inReset (hwhat : u8 p 0 = 1) (hreset : d.pwr.inReset.w = true) : devPowerState c d = finish c stBusy d := by
  rw [devPowerState, hb.runChk_eq _ _ hchk]
  simp [hwhat, hreset]

variable (hreset : d.pwr.inReset.w = false ∧ d.pwr.inReset.e = false)
include hreset

theorem CmdBegun.devPowerState_stack (hwhat : u8 p 0 = 1) : devPowerState c d = stackPark c (u8 p 2) (decide (u8 p 1 = 1)) d := by
  rw [devPowerState, hb.runChk_eq _ _ hchk]
  simp [hwhat, hreset]

theorem CmdBegun.devPowerState_port (hwhat : u8 p 0 = 2) (hmode : (d.port (u8 p 2)).ent.mode = .direct) :
    devPowerState c d = portSleep c (u8 p 2) (decide (u8 p 1 = 1)) d := by
  rw [devPowerState, hb.runChk_eq _ _ hchk]
  simp [hwhat, hmode, hreset]

theorem CmdBegun.devPowerState_bivouac (hwhat : u8 p 0 = 3) : devPowerState c d = bivouacCmd c (u8 p 2) (decide (u8 p 1 = 1)) d := by
  rw [devPowerState, hb.runChk_eq _ _ hchk]
  simp [hwhat, hreset]

end

/-- A park request withdrawn from a PARKED stack wakes it (R65, R540). -/
theorem stackPark_withdrawn {c : CmdSlot} {k : Nat} {d : Dev} (hmode : (d.stack k).mode = .parked) (hreq : (d.stack k).parkReq = true) :
    stackPark c k true d = finish c stDone (count 0x0608 k none 1 (d.onStk k fun x => { x with parkReq := false, mode := .waking })) := by
  simp only [stackPark, hmode, hreq]
  exact congrArg (fun e => finish c stDone (count 0x0608 k none 1 e)) (Dev.onStk_congr (by simp [hmode]))

theorem portSleep_requested {c : CmdSlot} {k : Nat} {d : Dev} (hmode : (d.port k).ent.mode = .direct) :
    portSleep c k false d = finish c stDone (d.onPort k fun x => { x with sleepReq := true }) := by
  simp [portSleep, hmode]

/-- The device enters the Bivouac while the port it keeps is UP and nothing stands against it (R535). -/
theorem bivouacCmd_enter (c : CmdSlot) (k : Nat) (d : Dev) :
    bivouacCmd c k false d =
      if (d.port k).st ≠ .up then finish c stNotPermitted d
      else if bivouacBusy d = true then finish c stBusy d
      else leave c [] (d.onPwr fun x => { x with state := .entering, keptPort := k, bivCmd := some c }) := by
  simp [bivouacCmd]

-- HALF_RESET

theorem not_inReset {d : Dev} (h : d.pwr.inReset.w = false ∧ d.pwr.inReset.e = false) : ¬ (d.pwr.inReset.w = true ∨ d.pwr.inReset.e = true) := by
  simp [h]

/-- HALF_RESET of the half h: refused where the leader stands there and cannot hand over; BUSY in a reset; put off until the other commands end where a handover
must come first; and else carried out, the handover before the reset (R530, R531; log 79). -/
theorem CmdBegun.devHalfReset_eq {d e : Dev} {c : CmdSlot} {p : Bytes} {h : Side} (hb : CmdBegun d c 0x0103 p) (hhalf : u8 p 0 ≤ 1) (hzero : zeros p 1 7 = true)
    (hh : h = Side.ofIdx (u8 p 0)) (he : e = d.onCtl fun x => { x with handover := none }) :
    devHalfReset c d =
      if leader d = some h ∧ canHandover d = false then finish c stNotPermitted e
      else if d.pwr.inReset.w = true ∨ d.pwr.inReset.e = true then finish c stBusy e
      else if leader d = some h ∧ othersActive d c = true then d.onCtl fun x => { x with handover := some h }
      else finish c stDone (halfReset h (if leader d = some h then handOver e else e)) := by
  have hchk : firstBad [(0, decide (u8 p 0 ≤ 1)), (1, zeros p 1 7)] = none := by simp [firstBad, hhalf, hzero]
  have hlead : leader e = leader d := he ▸ rfl
  have hcan : canHandover e = canHandover d := he ▸ rfl
  have hothers : othersActive e c = othersActive d c := he ▸ rfl
  have hpwr : e.pwr = d.pwr := he ▸ rfl
  have hagain : (e.onCtl fun x => { x with handover := some h }) = d.onCtl fun x => { x with handover := some h } := he ▸ rfl
  rw [devHalfReset, hb.runChk_eq _ _ hchk]
  simp only [← hh, ← he, hlead, hcan, hothers, hpwr, hagain, Bool.and_eq_true, Bool.or_eq_true, decide_eq_true_eq, Bool.not_eq_true']

-- The legacy window

theorem sampleWord_agreed {l : List Bool} (hl : someAgree l = true) (k : Nat) (d : Dev) :
    sampleWord k l d = (BitVec.ofNat 64 (legacyWord d k), onLegacy (fun x => { x with
      agreed := x.agreed.set k (BitVec.ofNat 64 (legacyWord d k)), unstable := x.unstable &&& ~~~BitVec.ofNat 8 (2 ^ k) }) d) := by
  simp [sampleWord, hl]

theorem sampleWord_unstable {l : List Bool} (hl : someAgree l = false) (k : Nat) (d : Dev) :
    sampleWord k l d = (nth d.pwr.legacy.agreed k 0#64, onLegacy (fun x => { x with unstable := x.unstable ||| BitVec.ofNat 8 (2 ^ k) }) d) := by
  simp [sampleWord, hl]

/-- An aligned access of 4 or 8 B is none that ends in a Completer Abort (R4). -/
theorem accessBad_aligned {off size : Nat} (hsize : size = 4 ∨ size = 8) (h : off % size = 0) : accessBad off size = false := by
  rcases hsize with rfl | rfl <;> simp [accessBad, h]

section
variable {d : Dev} {j off : Nat} (hlive : d.pwr.legacy.live = true) (hj : j < 8) (hoff : off % 0x10000 = 0x100 + 8 * j)
include hlive hj hoff

/-- A read of word j, or of its low half, answers its sample; the read of the low half latches the high half of the same sample for its port. -/
theorem devLegacyLiveRead_sampled {size : Nat} (hsize : size = 4 ∨ size = 8) (q : Side) (l : List Bool) :
    devLegacyLiveRead q off size l d =
      if size = 8 then emit (.regRead q (sampleWord j l d).1) (sampleWord j l d).2
      else emit (.regRead q ((sampleWord j l d).1 &&& 0xFFFFFFFF#64)) (onLegacy (fun x => { x with
        latched := x.latched.set q (some (j, ((sampleWord j l d).1 >>> 32).setWidth 32, now d)) }) (sampleWord j l d).2) := by
  have hgood : accessBad off size = false := accessBad_aligned hsize (by rcases hsize with rfl | rfl <;> omega)
  have hin : ¬ (off % 0x10000 < 0x100 ∨ 0x140 ≤ off % 0x10000) := by omega
  have hword : (off % 0x10000 - 0x100) / 8 = j := by omega
  have hlow : ¬ off % 8 = 4 := by omega
  have hnow : now (sampleWord j l d).2 = now d := by
    unfold sampleWord
    split <;> rfl
  simp [devLegacyLiveRead, hgood, hlive, hin, hword, hlow, hnow, halfWord]

/-- A read of the high half of word j within 1 µs answers what the low half's read latched. -/
theorem devLegacyLiveRead_latched {q : Side} {h : BitVec 32} {t : Nat} (hheld : d.pwr.legacy.latched.get q = some (j, h, t)) (hfresh : now d ≤ t + usTicks 1)
    (l : List Bool) : devLegacyLiveRead q (off + 4) 4 l d = emit (.regRead q (h.setWidth 64)) d := by
  have hgood : accessBad (off + 4) 4 = false := accessBad_aligned (.inl rfl) (by omega)
  have hin : ¬ ((off + 4) % 0x10000 < 0x100 ∨ 0x140 ≤ (off + 4) % 0x10000) := by omega
  have hword : ((off + 4) % 0x10000 - 0x100) / 8 = j := by omega
  have hhigh : (off + 4) % 0x10000 % 8 = 4 := by omega
  simp [devLegacyLiveRead, hgood, hlive, hin, hword, hhigh, hheld, hfresh]

end

-- O53

/-- Settles O53: each command runs its effect once its checks have passed (`CmdBegun.devSetPowerLimit_eq`, the `CmdBegun.devPowerState_` lemmas,
`CmdBegun.devHalfReset_eq`); the set limit outlives a warm reset because nothing that a warm reset runs writes it (`warmReset_setW`), and goes with the power and
with a new record (`acceptRecord_setW`); a live read answers its sample, or what its port's low read latched (`devLegacyLiveRead_sampled`). -/
theorem powerCommands : Obligations.PowerCommands := by
  unfold Obligations.PowerCommands
  intro s c p hon reply k asks noReset
  refine ⟨?set, ?reserved, rfl, ?step, ?survives, ?limit, ?park, ?wake, ?sleep, ?bivouac, ?half, ?warm, ?capture, ?legacy⟩
  case set =>
    exact fun hb hzero => ⟨fun hlo hhi => .of_live hon rfl (hb.devSetPowerLimit_eq hlo hhi hzero),
      fun hout => .of_live hon rfl (hb.devSetPowerLimit_outOfRange hout)⟩
  case reserved => exact fun hb hset hlo hhi => .of_live hon rfl (hb.devSetPowerLimit_reserved hlo hhi hset)
  case step =>
    intro average hottest
    refine ⟨_, onDev_next s _, rfl, ?_⟩
    rw [live_on _ _ hon]
    exact devLimiterStep_limit average hottest s.dev
  case survives => exact fun d => ⟨warmReset_setW 2 d, rfl, fun b => acceptRecord_setW b d⟩
  case limit => exact fun d r q w hr hq hw => limitNow_eq hr hq hw
  case park =>
    rintro ⟨hb, hwhat, hback, hzero⟩ hk hmode
    have hchk := firstBad_powerStateChk (.inl ⟨hwhat, hk, hmode⟩) (by omega) hzero
    refine ⟨fun hreset => .of_live hon rfl ?_, fun hreset => .of_live hon rfl (hb.devPowerState_inReset hchk hwhat hreset)⟩
    rw [hb.devPowerState_stack hchk hreset hwhat, hback]
    rfl
  case wake =>
    rintro ⟨hb, hwhat, hback, hzero⟩ hreset hk hmode hreq
    have hchk := firstBad_powerStateChk (d := s.dev) (.inl ⟨hwhat, hk, ne_of_eq_of_ne hmode (by decide)⟩) (by omega) hzero
    refine .of_live hon rfl ?_
    rw [hb.devPowerState_stack hchk hreset hwhat, hback]
    exact stackPark_withdrawn hmode hreq
  case sleep =>
    rintro ⟨hb, hwhat, hback, hzero⟩ hk
    have hchk := firstBad_powerStateChk (d := s.dev) (.inr ⟨.inl hwhat, hk⟩) (by omega) hzero
    refine ⟨fun hmode => .of_live hon rfl (hb.devPowerState_notDirect hchk hwhat hmode), fun hreset hmode => .of_live hon rfl ?_⟩
    rw [hb.devPowerState_port hchk hreset hwhat hmode, hback]
    exact portSleep_requested hmode
  case bivouac =>
    rintro ⟨hb, hwhat, hback, hzero⟩ hreset hk
    have hchk := firstBad_powerStateChk (d := s.dev) (.inr ⟨.inr hwhat, hk⟩) (by omega) hzero
    have henter := hb.devPowerState_bivouac hchk hreset hwhat
    rw [hback] at henter
    replace henter := henter.trans (bivouacCmd_enter c k s.dev)
    refine ⟨fun hdown => .of_live hon rfl (henter.trans (if_pos hdown)), fun hup hbusy => .of_live hon rfl (henter.trans ?_),
      fun hup hfree => .of_live hon rfl (henter.trans ?_)⟩
    · rw [if_neg (not_not_intro hup), if_pos hbusy]
      rfl
    · rw [if_neg (not_not_intro hup), if_neg (by simp [hfree])]
  case half =>
    intro hb hhalf hzero h d
    have heq := hb.devHalfReset_eq hhalf hzero (h := h) (e := d) rfl rfl
    refine ⟨fun hlead hstay => .of_liveQ hon rfl (heq.trans (if_pos ⟨hlead, hstay⟩)), fun hlead hreset => .of_liveQ hon rfl ?_,
      fun hlead hcan hreset hothers => .of_liveQ hon rfl ?_, fun hlead hcan hreset hothers => .of_liveQ hon rfl ?_⟩
    · rw [heq, if_neg (by simp [hlead]), if_neg (not_inReset hreset), if_neg (by simp [hlead]), if_neg hlead]
      rfl
    · rw [heq, if_neg (by simp [hcan]), if_neg (not_inReset hreset), if_pos ⟨hlead, hothers⟩]
    · rw [heq, if_neg (by simp [hcan]), if_neg (not_inReset hreset), if_neg (by simp [hothers]), if_pos hlead]
      rfl
  case warm =>
    intro q
    exact ⟨fun hheld => .of_liveQ hon rfl (if_pos hheld), fun hfree => .of_liveQ hon rfl (if_neg hfree)⟩
  case capture =>
    intro q
    exact ⟨fun hlive => .of_powered hon rfl (if_neg (by simp [hlive])), fun hlive => .of_powered hon rfl (if_pos hlive)⟩
  case legacy =>
    intro q j off l hlive hj hoff bit
    have hwhole := (devLegacyLiveRead_sampled hlive hj hoff (.inr rfl) q l).trans (if_pos rfl)
    have hlow := (devLegacyLiveRead_sampled hlive hj hoff (.inl rfl) q l).trans (if_neg (by decide))
    refine ⟨fun hagree => ?_, fun hagree => ?_, fun h t hheld hfresh => ?_⟩
    · rw [sampleWord_agreed hagree] at hwhole hlow
      exact ⟨.of_powered hon rfl hwhole, .of_powered hon rfl hlow⟩
    · rw [sampleWord_unstable hagree] at hwhole
      exact .of_powered hon rfl hwhole
    · exact .of_powered hon rfl (devLegacyLiveRead_latched hlive hj hoff hheld hfresh l)

end Sys2Proof.Machine
end

section
/-! SUPPORT. What a happening makes of the counters that select its source, what COUNTER_READ runs once its command has begun, and the fields of a counter's word (R566, R567). -/

namespace Sys2Proof

/-- A pass over the values of a table leaves its numbers alone. -/
theorem Tab.get?_map_snd {α β : Type} (t : Tab α) (n : Nat) (f : α → β) : Tab.get? (t.map (Prod.map id f)) n = (Tab.get? t n).map f := by
  induction t with
  | nil => rfl
  | cons x r ih =>
    obtain ⟨k, y⟩ := x
    by_cases h : k = n <;> simp [Tab.get?, h, ih]

namespace Machine

-- The counters of a device

/-- Whichever unit keeps the source's own count, the counters change by `bumpEvc` alone. -/
theorem count_counters (src inst : Nat) (t : Option Nat) (n : Nat) (d : Dev) :
    (count src inst t n d).svc.counters = d.svc.counters.map (Prod.map id (bumpEvc src inst t n)) := by
  unfold count
  split
  case isTrue => rfl
  case isFalse => split <;> rfl

@[simp] theorem count_get?_counters (src inst : Nat) (t : Option Nat) (n : Nat) (d : Dev) (k : Nat) :
    (count src inst t n d).svc.counters.get? k = (d.svc.counters.get? k).map (bumpEvc src inst t n) := by
  rw [count_counters, Tab.get?_map_snd]

-- One counter

theorem bumpEvc_of_disabled {c : Evc} (hoff : c.enable = false) (src inst : Nat) (t : Option Nat) (n : Nat) : bumpEvc src inst t n c = c := by
  simp [bumpEvc, hoff]

section
variable {c : Evc} {src inst : Nat} {t : Option Nat} (n : Nat) (hon : c.enable = true) (hsrc : c.source = BitVec.ofNat 16 src)
  (hinst : c.inst = 0xFF#8 ∨ c.inst = BitVec.ofNat 8 inst) (hten : c.tenant = 0xFFFF#16 ∨ t = some c.tenant.toNat)
include hon hsrc hinst hten

/-- A counter that selects the happening adds it, up to the 48 bits of its count (R566, R567). -/
theorem bumpEvc_of_selected : bumpEvc src inst t n c = if c.count.toNat + n < 2 ^ 48 then { c with count := BitVec.ofNat 48 (c.count.toNat + n) }
    else { c with count := if c.saturate then BitVec.allOnes 48 else BitVec.ofNat 48 (c.count.toNat + n), ovf := true } := by
  simp [bumpEvc, hon, hsrc, hinst, hten]

theorem bumpEvc_fits (hfit : c.count.toNat + n < 2 ^ 48) :
    (bumpEvc src inst t n c).count.toNat = c.count.toNat + n ∧ (bumpEvc src inst t n c).ovf = c.ovf := by
  rw [bumpEvc_of_selected n hon hsrc hinst hten, if_pos hfit]
  exact ⟨Nat.mod_eq_of_lt hfit, rfl⟩

theorem bumpEvc_overflows (hpast : 2 ^ 48 ≤ c.count.toNat + n) : (bumpEvc src inst t n c).ovf = true
    ∧ (bumpEvc src inst t n c).count.toNat = if c.saturate then 2 ^ 48 - 1 else (c.count.toNat + n) % 2 ^ 48 := by
  rw [bumpEvc_of_selected n hon hsrc hinst hten, if_neg (Nat.not_lt.mpr hpast)]
  refine ⟨rfl, ?_⟩
  cases c.saturate
  case false => exact BitVec.toNat_ofNat _ _
  case true => exact BitVec.toNat_allOnes

end

-- COUNTER_READ

/-- COUNTER_READ of 1 to 512 counters that are there answers the header and a word for each (R567). -/
theorem CmdBegun.devCounterRead_eq {d : Dev} {c : CmdSlot} {p : Bytes} (hb : CmdBegun d c 0x0A02 p) (hfirst : u16 p 0 ≤ 511) (hsome : 1 ≤ u16 p 2)
    (hall : u16 p 0 + u16 p 2 ≤ 512) (hzero : u32 p 4 = 0) (haddr : addrOk c (u64 p 8) 64 = true) :
    devCounterRead c d = finishRes c stDone (u64 p 8) (toLE 8 d.pwr.tsc.toNat ++ toLE 4 (u16 p 2) ++ zpad 4
      ++ (List.range (u16 p 2)).flatMap fun i => toLE 8 (evcWord (d.svc.counters.getD (u16 p 0 + i) {}))) d := by
  have hcount : u16 p 2 ≤ 512 := by omega
  rw [devCounterRead, hb.runChk_eq _ _ (by simp [firstBad, *])]

-- The word of a counter

theorem b2n_lt_two (b : Bool) : b2n b < 2 := by cases b <;> decide

theorem decide_b2n_eq_one (b : Bool) : decide (b2n b = 1) = b := by cases b <;> rfl

/-- The fields of a counter's word: the count, ENABLE and OVF, with 0 between (R567). -/
theorem evcWord_fields (c : Evc) :
    evcWord c < 2 ^ 64 ∧ evcWord c % 2 ^ 48 = c.count.toNat ∧ tb (evcWord c) 62 = c.enable ∧ tb (evcWord c) 63 = c.ovf ∧ fld (evcWord c) 48 14 = 0 := by
  have hcount := c.count.isLt
  have henable := b2n_lt_two c.enable
  have hovf := b2n_lt_two c.ovf
  have hbit62 : evcWord c / 2 ^ 62 % 2 = b2n c.enable := by simp only [evcWord]; omega
  have hbit63 : evcWord c / 2 ^ 63 % 2 = b2n c.ovf := by simp only [evcWord]; omega
  refine ⟨?_, ?_, ?_, ?_, ?_⟩
  · simp only [evcWord]; omega
  · simp only [evcWord]; omega
  · rw [tb, hbit62, decide_b2n_eq_one]
  · rw [tb, hbit63, decide_b2n_eq_one]
  · simp only [fld, evcWord]; omega

-- O37

/-- Settles O37: a happening passes every counter through `bumpEvc` and changes no number (`count_get?_counters`), which adds within 48 bits
(`bumpEvc_fits`), wraps or holds past them (`bumpEvc_overflows`) and leaves a counter that is off; COUNTER_READ runs its effect once its checks have passed. -/
theorem countersCount : Obligations.CountersCount := by
  unfold Obligations.CountersCount
  refine ⟨?counts, ?read, evcWord_fields⟩
  case counts =>
    intro d k src inst n t c hk hon hsrc hinst hten e
    have hbump : e.svc.counters.get? k = some (bumpEvc src inst t n c) := by simp [e, hk]
    refine ⟨fun hfit => ⟨_, hbump, bumpEvc_fits n hon hsrc hinst hten hfit⟩, fun hpast => ⟨_, hbump, bumpEvc_overflows n hon hsrc hinst hten hpast⟩, ?_⟩
    intro j x _ hj hoff
    simp [e, hj, bumpEvc_of_disabled hoff]
  case read =>
    intro s c p hon hb hfirst hsome hall hzero haddr
    exact .of_live hon rfl (hb.devCounterRead_eq hfirst hsome hall hzero haddr)

end Machine
end Sys2Proof
end

section
/-! SUPPORT. The block as a whole (O1 to O5, O60): every command is a function of the device, and what a tick changes. -/

namespace Sys2Proof.Machine

/-- exec runs every command as a function of the device alone. -/
theorem exec_onDev (c : Instr) : ∃ f : Dev → Dev, ∀ s, exec c s = onDev s f := by
  cases c <;> exact ⟨_, fun _ => rfl⟩

/-- c' is c but for the cores, jobs, rotation and DRBGs. -/
def Ciph.WorkOnly (c c' : Ciph) : Prop := c' = { c with cores := c'.cores, jobs := c'.jobs, rotate := c'.rotate, drbgs := c'.drbgs }

/-- e is d but for the work of the cipher engine. -/
def Dev.WorkOnly (d e : Dev) : Prop := e = { d with ciph := e.ciph } ∧ d.ciph.WorkOnly e.ciph

theorem Ciph.WorkOnly.trans {a b c : Ciph} (h : a.WorkOnly b) (h' : b.WorkOnly c) : a.WorkOnly c := by
  unfold WorkOnly at *; rw [h', h]

theorem Ciph.WorkOnly.ite {p : Prop} [Decidable p] {c a b : Ciph} (ha : c.WorkOnly a) (hb : c.WorkOnly b) : c.WorkOnly (if p then a else b) := by
  split <;> assumption

theorem Ciph.WorkOnly.foldl {α : Type} {f : Ciph → α → Ciph} (hf : ∀ c a, Ciph.WorkOnly c (f c a)) (l : List α) (c : Ciph) : c.WorkOnly (l.foldl f c) :=
  l.foldlRecOn f rfl fun e he a _ => he.trans (hf e a)

theorem Dev.WorkOnly.refl (d : Dev) : d.WorkOnly d := ⟨rfl, rfl⟩

theorem Dev.WorkOnly.trans {a b c : Dev} (h : a.WorkOnly b) (h' : b.WorkOnly c) : a.WorkOnly c :=
  ⟨by rw [h'.1, h.1], h.2.trans h'.2⟩

theorem Dev.WorkOnly.foldl {α : Type} {f : Dev → α → Dev} (hf : ∀ d a, Dev.WorkOnly d (f d a)) (l : List α) (d : Dev) : d.WorkOnly (l.foldl f d) :=
  foldl_ind (fun e => d.WorkOnly e) f (fun e a he => he.trans (hf e a)) l d (.refl d)

theorem idleCore_workOnly (k : Nat) (d : Dev) : d.WorkOnly (idleCore k d) := by
  unfold idleCore
  dsimp only
  split
  · exact .refl d
  · refine ⟨rfl, ?_⟩
    rw [Dev.onCiph_ciph]
    refine .trans (.ite ?_ ?_) (.foldl (fun c w => ?_) _ _)
    · rfl
    · rfl
    · cases w.job <;> rfl

theorem coreTicks_workOnly (k : Nat) (d : Dev) : d.WorkOnly (coreTicks k d) := by
  unfold coreTicks
  dsimp only
  split
  · exact .refl d
  · split <;> exact ⟨rfl, rfl⟩

theorem dealJob_workOnly (i n : Nat) (d : Dev) : d.WorkOnly (dealJob i n d) := by
  induction n generalizing d with
  | zero => exact .refl d
  | succ n ih =>
    simp only [dealJob]
    split
    · exact .refl d
    · split
      · exact .refl d
      · split
        · exact .refl d
        · exact .trans ⟨rfl, rfl⟩ (ih _)

theorem dealJobs_workOnly (d : Dev) : d.WorkOnly (dealJobs d) := by
  unfold dealJobs
  exact .foldl (fun d (j : Job) => dealJob_workOnly j.idx 2048 d) _ d

theorem coresTick_workOnly (d : Dev) : d.WorkOnly (coresTick d) := by
  unfold coresTick
  split
  · exact .refl d
  · exact (Dev.WorkOnly.foldl (fun d k => idleCore_workOnly k d) _ d).trans
      ((Dev.WorkOnly.foldl (fun d k => coreTicks_workOnly k d) _ _).trans (dealJobs_workOnly _))

/-- The cores do nothing where none has work and no job is left to deal. -/
theorem coresTick_of_idle {d : Dev} (hx : ∀ x ∈ d.ciph.cores, x.load = 0) (hj : ∀ j ∈ d.ciph.jobs, j.left = 0) : coresTick d = d := by
  unfold coresTick
  rw [if_pos]
  simpa using ⟨hx, hj⟩

theorem openedAll_of_nil {d : Dev} (h : d.ciph.opening = []) : openedAll d = d := by
  simp [openedAll, h]

/-- A tick's own work while the clock runs: 2 ns pass, and every 500th takes a microsecond of the lease. -/
def Dev.clocked (d : Dev) : Dev :=
  { d with
    pwr := { d.pwr with tsc := d.pwr.tsc + 1#64 }
    ctl := if (d.pwr.tsc + 1#64).toNat % 500 = 0 then { d.ctl with lease := d.ctl.lease - 1 } else d.ctl }

theorem tick_of_runs {d : Dev} (h : clockRuns d = true) : tick d = openedAll (coresTick d.clocked) := by
  unfold tick; rw [if_pos h]; rfl

theorem tick_of_stopped {d : Dev} (h : clockRuns d = false) : tick d = d := by
  unfold tick; rw [if_neg (by simp [h])]

theorem Dev.clocked_ctl (d : Dev) : d.clocked.ctl = { d.ctl with lease := d.clocked.ctl.lease } ∧ d.clocked.ctl.lease ≤ d.ctl.lease ∧ d.ctl.lease ≤ d.clocked.ctl.lease + 1 := by
  unfold clocked
  dsimp only
  split
  · exact ⟨rfl, Nat.sub_le _ _, (by omega : d.ctl.lease ≤ d.ctl.lease - 1 + 1)⟩
  · exact ⟨rfl, Nat.le_refl _, Nat.le_succ _⟩

/-- Settles O1: step of a queue with a front is exec of the front, by definition. -/
theorem stepRunsFront : Obligations.StepRunsFront := by
  unfold Obligations.StepRunsFront
  intro c rest d
  rfl

/-- Settles O2: a tick is `Dev.clocked`, then the work of the cores (`coresTick_workOnly`), then the packets they have opened. -/
theorem idleStep : Obligations.IdleStep := by
  unfold Obligations.IdleStep
  refine fun d => ⟨fun hon => ?runs, fun hoff => ?stops⟩
  case stops =>
    have hstop : tick d = d := tick_of_stopped (by simp [clockRuns, hoff])
    simp only [step, hstop]
  case runs =>
    have hruns : tick d = openedAll (coresTick d.clocked) := tick_of_runs (by unfold Dev.On at hon; simp [clockRuns, hon])
    obtain ⟨hdev, hciph⟩ := coresTick_workOnly d.clocked
    obtain ⟨hctl, hle, hge⟩ := d.clocked_ctl
    have hctl' : (coresTick d.clocked).ctl = d.clocked.ctl := by rw [hdev]
    refine ⟨coresTick d.clocked, by simp only [step, hruns], by rw [hdev]; rfl, ?_, ?_, ?_, hciph, ?_, by rw [hdev]; rfl, fun ho => ?_⟩
    · rw [hctl']; exact hctl
    · rw [hctl']; exact hle
    · rw [hctl']; exact hge
    · exact fun hx hj => by rw [coresTick_of_idle (d := d.clocked) hx hj]; rfl
    · exact openedAll_of_nil (by rw [hciph]; exact ho)

/-- Settles O3: every command is a function of the device. -/
theorem everyCommandAnswers : Obligations.EveryCommandAnswers := by
  unfold Obligations.EveryCommandAnswers
  intro c s
  obtain ⟨f, hf⟩ := exec_onDev c
  exact ⟨_, (hf s).trans (onDev_next s f), rfl⟩

/-- A device whose rails are off with an undervoltage kept as the input's cause. -/
def offUndervolted : State := { pending := [], dev := { pwr := { vinCause := true } } }

/-- Refutes O4: UNDERVOLTAGE_RECOVERY, which is neither a power pin nor the input's own row, clears the recorded cause of the input without asking for
the rails: from `offUndervolted` it answers another state. -/
theorem not_railsOffInert : ¬ Obligations.RailsOffInert := by
  unfold Obligations.RailsOffInert
  intro h
  have hsame := h .undervoltageRecovery offUndervolted rfl id
  injection (onDev_next _ _).symm.trans hsame with hstate
  exact absurd (congrArg (fun s : State => s.dev.pwr.vinCause) hstate) (by decide)

/-- Settles O5: the nineteen reads evaluate at the reset state. -/
theorem resetRegisters : Obligations.ResetRegisters := by
  unfold Obligations.ResetRegisters
  decide

/-- Settles O60: memory is empty, no die leads and Hasp 0 is free, the limit is 1,000 W, none is set and the level is 0. -/
theorem resetSound : Obligations.ResetSound := by
  unfold Obligations.ResetSound
  refine ⟨rfl, ⟨rfl, fun k hk => ?_, fun k => ?_⟩, by decide, nofun, Nat.zero_le _⟩
  · cases k <;> exact absurd hk (by decide)
  · cases k <;> decide

end Sys2Proof.Machine
end

section
/-! SUPPORT. What a stored stretch reads as (O31). -/

namespace Sys2Proof.Machine

/-- Stored bytes read back in their place, every other byte as before. -/
theorem Memory.read_writes (m : List Host.Cell) (a x : Nat) (b : Bytes) (h : Memory.wf m = true) (hfit : a + b.length ≤ 2 ^ 41) :
    Memory.read (Memory.writes m a b) x = if a ≤ x ∧ x < a + b.length then nth b (x - a) 0#8 else Memory.read m x := by
  induction b generalizing m a with
  | nil => rw [if_neg (by simp only [List.length_nil]; omega)]; rfl
  | cons y r ih =>
    rw [List.length_cons] at hfit ⊢
    have ha : a < 2 ^ 41 := by omega
    rw [Memory.writes, if_pos ha, ih _ _ (Memory.write_wf m a y ha h) (by omega), Memory.read_write m a x y h]
    rcases Nat.lt_trichotomy x a with hlt | rfl | hgt
    · rw [if_neg (by omega), if_neg (by omega), if_neg (by omega)]
    · rw [if_neg (by omega), if_pos rfl, if_pos (by omega)]
      simp [nth]
    · obtain ⟨i, rfl⟩ : ∃ i, x = a + 1 + i := ⟨x - (a + 1), by omega⟩
      have hi : a + 1 + i - a = i + 1 := by omega
      by_cases hin : a + 1 + i < a + 1 + r.length
      · rw [if_pos (by omega), if_pos (by omega), hi, Nat.add_sub_cancel_left]
        rfl
      · rw [if_neg (by omega), if_neg (by omega), if_neg (by omega)]

/-- Settles O31: `Memory.read_writes` inside and outside the stretch, `memWrite_wf` for the form. -/
theorem writtenBytesRead : Obligations.WrittenBytesRead := by
  unfold Obligations.WrittenBytesRead
  intro d dpa b hok hfit
  have hread (x : Nat) := Memory.read_writes d.mem.bytes dpa x b hok hfit
  refine ⟨fun i hi => ?_, fun x hx => ?_, memWrite_wf dpa b d hok⟩
  · have hin := hread (dpa + i)
    rwa [if_pos (by omega), Nat.add_sub_cancel_left] at hin
  · have hout := hread x
    rwa [if_neg (by omega)] at hout

end Sys2Proof.Machine
end

section
/-! SUPPORT. Register accesses (O6 to O8): which register a write of an offset reaches, and what reaches none. -/

namespace Sys2Proof.Machine

theorem Settles.of_powered {c : Instr} {s : State} {f : Dev → Dev} {d : Dev} (hon : s.dev.On) (hc : exec c s = onDev s (powered fun d => settle (f d)))
    (hf : f s.dev = d) : Settles c s d := by
  have hrun : powered (fun d => settle (f d)) s.dev = settle (f s.dev) := by simp [powered, show s.dev.pwr.rails = .on from hon]
  rw [Settles, hc, onDev_next, hrun, hf]

/-- A register write by what it does to the device. -/
theorem Settles.of_registerWrite {w : RegWriter} {s : State} {off size : Nat} {v : BitVec 64} {rq : BitVec 16} {d : Dev} (hon : s.dev.On)
    (h : devRegisterWrite w off size v rq s.dev = d) : Settles (.registerWrite w off size v rq) s d := .of_powered hon rfl h

/-- A register read by what it does to the device. -/
theorem Settles.of_mbxDataRead {a : Agent} {s : State} {r : RegAt} {d : Dev} (hon : s.dev.On) (h : devMbxDataRead a r s.dev = d) :
    Settles (.mbxDataRead a r) s d := .of_powered hon rfl h

-- The way of a BAR0 write

theorem accessBad_iff {off size : Nat} : accessBad off size = true ↔ size ≠ 4 ∧ size ≠ 8 ∨ off % size ≠ 0 := by
  simp [accessBad]

theorem accessBad_of_aligned {off size : Nat} (hsize : size = 4 ∨ size = 8) (halign : off % size = 0) : accessBad off size = false := by
  rcases hsize with rfl | rfl <;> simp [accessBad, halign]

theorem barWrite_bad {p : Side} {off size : Nat} {v : BitVec 64} {rq : BitVec 16} {d : Dev} (hoff : off < 0x4000000) (hbad : accessBad off size = true) :
    barWrite p off size v rq d = badAccess p d := by
  rw [barWrite, if_neg (by omega), if_pos hbad]

theorem barWrite_unassigned {p : Side} {off size : Nat} {v : BitVec 64} {rq : BitVec 16} {d : Dev} (hoff : off < 0x4000000)
    (hgood : accessBad off size = false) (hun : assigned off = false) : barWrite p off size v rq d = unmapped p off d := by
  rw [barWrite, if_neg (by omega), hgood, if_neg (by decide), hun, if_pos (by decide)]

theorem barWrite_assigned {p : Side} {off size : Nat} {v : BitVec 64} {rq : BitVec 16} {d : Dev} (hoff : off < 0xB0000)
    (hgood : accessBad off size = false) (hdie : dieOf off = none) : barWrite p off size v rq d = writeBytes p rq off size v d := by
  rw [barWrite, if_neg (by omega), hgood, if_neg (by decide), if_neg (by simp [assigned, hoff]), hdie]

/-- A write to a base die that can be reached is made at once. -/
theorem barWrite_dieFree {p : Side} {off size : Nat} {v : BitVec 64} {rq : BitVec 16} {d : Dev} (hlo : 0x1000 ≤ off) (hhi : off < 0x1400)
    (hgood : accessBad off size = false) (hfree : DieFree d ((off - 0x1000) / 32)) : barWrite p off size v rq d = writeBytes p rq off size v d := by
  have hdie : dieOf off = some ((off - 0x1000) / 32) := by simp [dieOf, hlo, hhi]
  have hopen : (mgtOpen d ((off - 0x1000) / 32) && !(d.fab.crossings.any fun c => c.base = some ((off - 0x1000) / 32))) = true := by
    obtain ⟨hmgt, hnone⟩ := hfree
    simpa [hmgt] using hnone
  rw [barWrite, if_neg (by omega), hgood, if_neg (by decide), if_neg (by simp [assigned]; omega), hdie]
  exact if_pos hopen

/-- A write to a base die that cannot be reached waits to cross. -/
theorem barWrite_dieHeld {p : Side} {off size : Nat} {v : BitVec 64} {rq : BitVec 16} {d : Dev} (hlo : 0x1000 ≤ off) (hhi : off < 0x1400)
    (hgood : accessBad off size = false) (hheld : ¬ DieFree d ((off - 0x1000) / 32)) :
    barWrite p off size v rq d = d.onFab fun x => { x with crossings := x.crossings ++ [⟨⟨.mgt, stackTile ((off - 0x1000) / 32), stackTile ((off - 0x1000) / 32)⟩,
      inMgt, some ((off - 0x1000) / 32), .register ⟨p, off, size, some (v, rq)⟩⟩] } := by
  have hdie : dieOf off = some ((off - 0x1000) / 32) := by simp [dieOf, hlo, hhi]
  have hshut : ¬ (mgtOpen d ((off - 0x1000) / 32) && !(d.fab.crossings.any fun c => c.base = some ((off - 0x1000) / 32))) = true := by
    simpa [DieFree] using hheld
  rw [barWrite, if_neg (by omega), hgood, if_neg (by decide), if_neg (by simp [assigned]; omega), hdie]
  exact if_neg hshut

-- Words of an aligned 8 B

/-- The lower 4 B of an aligned 8 B, written alone. -/
def RegWrite.lower (v : BitVec 64) : RegWrite := ⟨0xFFFFFFFF#64, v &&& 0xFFFFFFFF#64⟩

/-- The upper 4 B of an aligned 8 B, written alone. -/
def RegWrite.upper (v : BitVec 64) : RegWrite := ⟨0xFFFFFFFF00000000#64, (v &&& 0xFFFFFFFF#64) <<< 32⟩

theorem writeBytes_lower {p : Side} {rq : BitVec 16} {off : Nat} {v : BitVec 64} {d : Dev} (h : off % 8 = 0) :
    writeBytes p rq off 4 v d = writeBlock p rq off (.lower v) d := by
  rw [writeBytes, if_neg (by decide)]
  exact if_pos h

theorem writeBytes_upper {p : Side} {rq : BitVec 16} {off : Nat} {v : BitVec 64} {d : Dev} (h : off % 8 ≠ 0) :
    writeBytes p rq off 4 v d = writeBlock p rq (off - 4) (.upper v) d := by
  rw [writeBytes, if_neg (by decide)]
  exact if_neg h

theorem RegWrite.both_lower (v : BitVec 64) (f : Nat → BitVec 32 → Dev → Dev) (d : Dev) : (RegWrite.lower v).both f d = f 0 (v.extractLsb' 0 32) d := by
  have hlo : (RegWrite.lower v).word false = some (v.extractLsb' 0 32) := by
    have hv : (v &&& 0xFFFFFFFF#64).extractLsb' 0 32 = v.extractLsb' 0 32 := by
      rw [BitVec.extractLsb'_and, show (0xFFFFFFFF#64).extractLsb' 0 32 = BitVec.allOnes 32 from rfl, BitVec.and_allOnes]
    simp [RegWrite.lower, word, hv]
  have hhi : (RegWrite.lower v).word true = none := by simp [RegWrite.lower, word]
  simp only [both, hlo, hhi]

theorem RegWrite.both_upper (v : BitVec 64) (f : Nat → BitVec 32 → Dev → Dev) (d : Dev) : (RegWrite.upper v).both f d = f 4 (v.extractLsb' 0 32) d := by
  have hlo : (RegWrite.upper v).word false = none := by simp [RegWrite.upper, word]
  have hhi : (RegWrite.upper v).word true = some (v.extractLsb' 0 32) := by
    have hv : ((v &&& 0xFFFFFFFF#64) <<< 32).extractLsb' 32 32 = v.extractLsb' 0 32 := by
      have hones : ∀ i < 32, (0xFFFFFFFF#64).getLsbD i = true := by decide
      ext i hi
      have hi' : i < 64 := by omega
      have hone : (0xFFFFFFFF#64)[i] = true := hones i hi
      simp [show 32 + i < 64 by omega, hone, BitVec.getLsbD_eq_getElem hi']
    simp [RegWrite.upper, word, hv]
  simp only [both, hlo, hhi]

/-- Writing both words does nothing where neither of the two registers takes a write. -/
theorem RegWrite.both_of_readOnly {w : RegWrite} {f : Nat → BitVec 32 → Dev → Dev} {d : Dev} (h0 : ∀ v, f 0 v d = d) (h4 : ∀ v, f 4 v d = d) :
    w.both f d = d := by
  unfold both
  cases w.word false <;> cases w.word true <;> simp only [h0, h4]

-- The blocks whose registers take no write

theorem writeDev_of_readOnly {off : Nat} {v : BitVec 32} {d : Dev} (h : 0x1400 ≤ off ∨ 0x1000 ≤ off ∧ off % 32 ≠ 0) : writeDev off v d = d := by
  rw [writeDev, if_neg (by omega), if_neg (by omega), if_neg (by simp; omega)]

/-- An offset in the CLK, LOG or LNK block, in the counts and selections of EVC, or in a group of DEV past a base die's first register. -/
def ReadOnlyAt (off : Nat) : Prop :=
  0x44000 ≤ off ∧ off < 0x48000 ∨ 0x60000 ≤ off ∧ off < 0x70000 ∨ 0x90000 ≤ off ∧ off < 0xA0000 ∨ 0x50000 ≤ off ∧ off < 0x52000
    ∨ 0x2000 ≤ off ∧ off < 0x10000 ∨ 0x1000 ≤ off ∧ off < 0x1400 ∧ 8 ≤ off % 32

theorem writeBlock_of_readOnly {p : Side} {rq : BitVec 16} {off : Nat} {w : RegWrite} {d : Dev} (halign : off % 8 = 0)
    (h : ReadOnlyAt off) : writeBlock p rq off w d = d := by
  unfold writeBlock
  unfold ReadOnlyAt at h
  rcases h with h | h | h | h | h | h
  · simp (disch := omega) only [if_neg, if_pos]
  · simp (disch := omega) only [if_neg, if_pos]
  · simp (disch := omega) only [if_neg, if_pos]
  · simp (disch := omega) only [if_neg, if_pos]
    exact if_pos (by simp; omega)
  · rw [if_pos (by omega)]
    exact RegWrite.both_of_readOnly (fun _ => writeDev_of_readOnly (by omega)) fun _ => writeDev_of_readOnly (by omega)
  · rw [if_pos (by omega)]
    exact RegWrite.both_of_readOnly (fun _ => writeDev_of_readOnly (by omega)) fun _ => writeDev_of_readOnly (by omega)

theorem writeBytes_of_readOnly {p : Side} {rq : BitVec 16} {off size : Nat} {v : BitVec 64} {d : Dev} (hsize : size = 4 ∨ size = 8) (halign : off % size = 0)
    (h : ReadOnlyAt off) : writeBytes p rq off size v d = d := by
  rcases hsize with rfl | rfl
  · by_cases h8 : off % 8 = 0
    · rw [writeBytes_lower h8, writeBlock_of_readOnly h8 h]
    · rw [writeBytes_upper h8, writeBlock_of_readOnly (by omega) (by unfold ReadOnlyAt at *; omega)]
  · rw [writeBytes, if_pos rfl, writeBlock_of_readOnly halign h]

-- Reads

theorem devMbxDataRead_port {p : Side} {r : RegAt} {d : Dev} (h : accessBad r.off r.size = true ∨ dieOf r.off = none) :
    devMbxDataRead (.port p) r d = busRead (.port p) r.off r.size d := by
  unfold devMbxDataRead
  split
  · next hp hdie =>
    injection hp with hp
    subst hp
    rw [if_pos (h.resolve_right (by simp [hdie]))]
  · rfl

theorem dieOf_of_unassigned {off : Nat} (h : assigned off = false) : dieOf off = none := by
  simp only [assigned, Bool.or_eq_false_iff, decide_eq_false_iff_not] at h
  simp only [dieOf]
  rw [if_neg (by simp; omega)]

theorem busRead_bad {p : Side} {off size : Nat} {d : Dev} (hoff : off < 0x4000000) (hbad : accessBad off size = true) :
    busRead (.port p) off size d = emit (.completerAbort p) (badAccess p d) := by
  simp only [busRead, hbad, if_neg (show ¬ 0x4000000 ≤ off by omega), if_true]

theorem busRead_unassigned {p : Side} {off size : Nat} {d : Dev} (hoff : off < 0x4000000) (hgood : accessBad off size = false) (hun : assigned off = false) :
    busRead (.port p) off size d = emit (.regRead p 0#64) (unmapped p off d) := by
  simp [busRead, hgood, hun, show ¬ 0x4000000 ≤ off by omega, answerRead]

theorem busRead_register {p : Side} {off size : Nat} {d : Dev} (hoff : off < 0x4000000) (hgood : accessBad off size = false) (has : assigned off = true)
    (hmbx : mbxAt off = none) :
    busRead (.port p) off size d = emit (.regRead p (BitVec.ofNat 64 (if size = 8 then readPair d p off else readWord d p off))) d := by
  simp [busRead, hgood, has, show ¬ 0x4000000 ≤ off by omega, answerRead, regRead, hmbx]

/-- AER counts the error and keeps a header of its own or the new one. -/
theorem aerLog_host (d : Dev) (p : Side) (e : AerError) : ∃ h, (aerLog p e d).host.get p =
    { d.host.get p with aer := { (d.host.get p).aer with counts := aerAdd e (d.host.get p).aer.counts, header := h } } := by
  unfold aerLog
  dsimp only
  split
  · exact ⟨(d.host.get p).aer.header, by simp [Dev.onHost]⟩
  · exact ⟨_, by simp [Dev.onHost]; rfl⟩

/-- Settles O6: the way of a write (`barWrite`) and of a read (`busRead`) by the offset, and the blocks that take no write (`writeBlock_of_readOnly`). -/
theorem badRegisterWrites : Obligations.BadRegisterWrites := by
  unfold Obligations.BadRegisterWrites
  refine ⟨?bad, ?readOnly, fun d p => aerLog_host d p .completerAbort, ?reads⟩
  case bad =>
    intro s p off size v rq hon hoff
    refine ⟨fun hbad => .of_registerWrite hon (barWrite_bad hoff (accessBad_iff.2 hbad)), fun hsize halign hun => ?_⟩
    exact .of_registerWrite hon (barWrite_unassigned hoff (accessBad_of_aligned hsize halign) (by simp [assigned]; omega))
  case readOnly =>
    intro s p off size v rq hon hsize halign h
    have hgood := accessBad_of_aligned hsize halign
    refine .of_registerWrite hon ?_
    by_cases hdie : 0x1000 ≤ off ∧ off < 0x1400
    · obtain ⟨h8, hfree⟩ : 8 ≤ off % 32 ∧ DieFree s.dev ((off - 0x1000) / 32) := by
        rcases h with h | h | h | h | h | h
        case inr.inr.inr.inr.inr => exact ⟨h.2.2.1, h.2.2.2⟩
        all_goals exact absurd h (by omega)
      exact (barWrite_dieFree hdie.1 hdie.2 hgood hfree).trans (writeBytes_of_readOnly hsize halign (by unfold ReadOnlyAt; omega))
    · exact (barWrite_assigned (by omega) hgood (by simp [dieOf]; omega)).trans (writeBytes_of_readOnly hsize halign (by unfold ReadOnlyAt; omega))
  case reads =>
    intro s p off size hon hoff
    refine ⟨fun hbad => ?_, fun hsize halign hun => ?_, fun halign has hdie hmbx => ⟨?_, ?_⟩⟩
    · have hbad := accessBad_iff.2 hbad
      exact .of_mbxDataRead hon ((devMbxDataRead_port (.inl hbad)).trans (busRead_bad hoff hbad))
    · exact .of_mbxDataRead hon ((devMbxDataRead_port (.inr (dieOf_of_unassigned hun))).trans (busRead_unassigned hoff (accessBad_of_aligned hsize halign) hun))
    · rintro rfl
      exact .of_mbxDataRead hon ((devMbxDataRead_port (.inr hdie)).trans (busRead_register hoff (accessBad_of_aligned (.inl rfl) halign) has hmbx))
    · rintro rfl
      exact .of_mbxDataRead hon ((devMbxDataRead_port (.inr hdie)).trans (busRead_register hoff (accessBad_of_aligned (.inr rfl) halign) has hmbx))

-- Fields that take a write

theorem w1c_extract (v : BitVec 64) {i : Nat} (hi : i < 32) (b : Bool) : w1c (v.extractLsb' 0 32) i b = (b && !v.getLsbD i) := by
  simp [w1c, hi]

theorem barWrite_lower {p : Side} {off : Nat} {v : BitVec 64} {rq : BitVec 16} {d : Dev} (hoff : off < 0xB0000) (h8 : off % 8 = 0)
    (hdie : off < 0x1000 ∨ 0x1400 ≤ off) : barWrite p off 4 v rq d = writeBlock p rq off (.lower v) d :=
  (barWrite_assigned hoff (accessBad_of_aligned (.inl rfl) (by omega)) (by simp [dieOf]; omega)).trans (writeBytes_lower h8)

theorem extract_low_half (v : BitVec 64) {i n : Nat} (h : i + n ≤ 32) : (v.extractLsb' 0 32).extractLsb' i n = v.extractLsb' i n := by
  ext j hj
  simp [show i + j < 32 by omega]

/-- FAULT_LIMIT of the writer's own group (R191). -/
theorem barWrite_faultLimit (p : Side) (v : BitVec 64) (rq : BitVec 16) (d : Dev) :
    barWrite p (0xA001C + 0x100 * p.idx) 4 v rq d = d.onXPort p fun x => { x with limitMs := v.extractLsb' 0 16 } := by
  have hv : (v.extractLsb' 0 32).extractLsb' 0 16 = v.extractLsb' 0 16 := extract_low_half v (by decide)
  have hword (g : Side) : writeXlt g g 0x18 (.upper v) d = d.onXPort g fun x => { x with limitMs := v.extractLsb' 0 16 } := by
    simp only [writeXlt, RegWrite.both_upper]
    rw [← hv]
    simp
  have hbytes := (barWrite_assigned (p := p) (off := 0xA001C + 0x100 * p.idx) (v := v) (rq := rq) (d := d) (by cases p <;> decide)
    (accessBad_of_aligned (.inl rfl) (by cases p <;> decide)) (by cases p <;> decide)).trans (writeBytes_upper (by cases p <;> decide))
  rw [hbytes]
  cases p
  · exact hword .west
  · exact hword .east

/-- The two flags of DEV_STACK_STATUS are W1C (R67). -/
theorem writeDev_stackStatus (k : Nat) (hk : k < 32) (v : BitVec 64) (d : Dev) : writeDev (0x1000 + 32 * k) (v.extractLsb' 0 32) d =
    d.onStk k fun x => { x with ueSeen := x.ueSeen && !v.getLsbD 9, ceSeen := x.ceSeen && !v.getLsbD 8 } := by
  have hcond : (0x1000 ≤ 0x1000 + 32 * k && 0x1000 + 32 * k < 0x1400 && (0x1000 + 32 * k) % 32 = 0) = true := by simp; omega
  have hstack : (0x1000 + 32 * k - 0x1000) / 32 = k := by omega
  rw [writeDev, if_neg (by omega), if_neg (by omega), if_pos hcond, hstack]
  simp only [w1c_extract v (show 9 < 32 by decide), w1c_extract v (show 8 < 32 by decide)]

theorem writeBlock_stackStatus {p : Side} {rq : BitVec 16} (k : Nat) (hk : k < 32) (v : BitVec 64) (d : Dev) :
    writeBlock p rq (0x1000 + 32 * k) (.lower v) d = d.onStk k fun x => { x with ueSeen := x.ueSeen && !v.getLsbD 9, ceSeen := x.ceSeen && !v.getLsbD 8 } := by
  rw [writeBlock, if_pos (by omega), RegWrite.both_lower]
  exact writeDev_stackStatus k hk v d

/-- MODE of LEGACY_CTRL, in a write that asks for no capture (R525). -/
theorem writeLegacy_mode (v : BitVec 64) (d : Dev) : writeLegacy 0 ((v &&& 2#64).extractLsb' 0 32) d =
    d.onPwr fun w => { w with legacy := { w.legacy with live := v.getLsbD 1 } } := by
  have hmode : ((v &&& 2#64).extractLsb' 0 32).getLsbD 1 = v.getLsbD 1 := by simp
  have hcapture : ((v &&& 2#64).extractLsb' 0 32).getLsbD 0 = false := by simp
  simp only [writeLegacy, hmode, hcapture, if_true]
  rfl

/-- CIPH_SCHED is written by the holder of Hasp 4 (R434, R508). -/
theorem barWrite_ciphSched (p : Side) (v : BitVec 64) (rq : BitVec 16) (d : Dev) : barWrite p 0x80028 4 v rq d =
    needHasp p 4 0x80028 (fun d => d.onCiph fun c => { c with jobWeight := v.extractLsb' 0 4, transportWeight := v.extractLsb' 8 4 }) d := by
  have hjob : (v.extractLsb' 0 32).extractLsb' 0 4 = v.extractLsb' 0 4 := extract_low_half v (by decide)
  have htransport : (v.extractLsb' 0 32).extractLsb' 8 4 = v.extractLsb' 8 4 := extract_low_half v (by decide)
  rw [barWrite_lower (by decide) (by decide) (by decide)]
  show writeCiph p 0x28 (.lower v) d = _
  rw [writeCiph, if_neg (by decide), RegWrite.both_lower, hjob, htransport]
  rfl

-- The control dies

theorem dieMbxWrite_notLeader {s : Side} {off : Nat} {v : BitVec 32} {d : Dev} (h : leader d ≠ some s) : dieMbxWrite s off v d = d := by
  simp [dieMbxWrite, h]

theorem dieMbxWrite_status {s : Side} {k : Nat} {v : BitVec 32} {d : Dev} (h : leader d = some s) (hk : k < 6) :
    dieMbxWrite s (0x20008 + 32 * k) v d = mbxClear (mbxSender k = none) (mbxReceiver k = none) v k d := by
  have hbox : (0x20008 + 32 * k - 0x20000) / 32 = k := by omega
  simp only [dieMbxWrite, hbox]
  rw [if_neg (by simp [h]; omega), if_pos (by omega)]

-- Configuration

theorem cplRange_isSome (n : Nat) : (CplRange.of n).isSome = true ↔ 50 ≤ n ∧ n ≤ 64000000 := by
  have hmem (r : CplRange) : r ∈ [CplRange.a, .b, .c, .d] := by cases r <;> decide
  have hin (r : CplRange) : (r.bounds.1 ≤ n && n ≤ r.bounds.2) = true ↔ r.bounds.1 ≤ n ∧ n ≤ r.bounds.2 := by simp
  rw [CplRange.of, List.find?_isSome]
  constructor
  · rintro ⟨r, -, h⟩
    have hr := (hin r).1 h
    cases r <;> simp only [CplRange.bounds] at hr <;> omega
  · rintro ⟨hlo, hhi⟩
    have hsome : ∃ r : CplRange, r.bounds.1 ≤ n ∧ n ≤ r.bounds.2 := by
      rcases Nat.le_total n 10000 with ha | ha
      · exact ⟨.a, hlo, ha⟩
      · rcases Nat.le_total n 250000 with hb | hb
        · exact ⟨.b, ha, hb⟩
        · rcases Nat.le_total n 4000000 with hc | hc
          · exact ⟨.c, hb, hc⟩
          · exact ⟨.d, hc, hhi⟩
    obtain ⟨r, hr⟩ := hsome
    exact ⟨r, hmem r, (hin r).2 hr⟩

/-- Settles O7: each write is followed through its block (`barWrite_faultLimit`, `writeBlock_stackStatus`, `writeLegacy_mode`, `barWrite_ciphSched`), its
mailbox (`dieMbxWrite_status`), the configuration space or AER. -/
theorem registerWriteFields : Obligations.RegisterWriteFields := by
  unfold Obligations.RegisterWriteFields
  refine ⟨?bar, ?ciphers, ?dies, ?config⟩
  case bar =>
    intro s p v rq hon
    have hbase (k : Nat) : (0x1000 + 32 * k - 0x1000) / 32 = k := by omega
    refine ⟨.of_registerWrite hon (barWrite_faultLimit p v rq s.dev), fun k hk hfree => ?_, fun k hk hheld => ?_, ?_⟩
    · refine .of_registerWrite hon ((barWrite_dieFree (by omega) (by omega) (accessBad_of_aligned (.inl rfl) (by omega)) ?_).trans
        ((writeBytes_lower (by omega)).trans (writeBlock_stackStatus k hk v _)))
      rwa [hbase]
    · refine .of_registerWrite hon ((barWrite_dieHeld (by omega) (by omega) (accessBad_of_aligned (.inl rfl) (by omega)) ?_).trans ?_)
      · rwa [hbase]
      · rw [hbase]
    · refine .of_registerWrite hon ((barWrite_lower (by decide) (by decide) (by decide)).trans ?_)
      show RegWrite.both _ _ _ = _
      rw [RegWrite.both_lower]
      exact writeLegacy_mode v s.dev
  case ciphers =>
    intro s p v rq hon
    refine ⟨fun hno => ?_, fun hyes => ?_⟩
    · exact .of_registerWrite hon ((barWrite_ciphSched p v rq s.dev).trans (if_neg hno))
    · exact .of_registerWrite hon ((barWrite_ciphSched p v rq s.dev).trans (if_pos hyes))
  case dies =>
    intro s x k size v rq hon hk
    refine ⟨fun hno off => .of_registerWrite hon (dieMbxWrite_notLeader hno), fun hl hk' => ?_, fun hl hk' => ?_, fun hl hk' => ?_⟩
    · refine .of_registerWrite hon ((dieMbxWrite_status hl hk).trans ?_)
      rcases hk' with rfl | rfl <;> simp [mbxClear, mbxSender, mbxReceiver, w1c]
    · refine .of_registerWrite hon ((dieMbxWrite_status hl hk).trans ?_)
      rcases hk' with rfl | rfl <;> simp [mbxClear, mbxSender, mbxReceiver, w1c]
    · refine .of_registerWrite hon ((dieMbxWrite_status hl hk).trans ?_)
      rcases hk' with rfl | rfl <;> rfl
  case config =>
    intro s p off size v rq e hon
    refine ⟨fun hlo hhi => ?_, fun hout => ?_, fun hmask => ?_, fun hmask => ?_⟩
    · refine .of_registerWrite hon (if_pos ((cplRange_isSome v.toNat).2 ⟨hlo, hhi⟩))
    · refine .of_registerWrite hon (if_neg fun h => ?_)
      have := (cplRange_isSome v.toNat).1 h
      omega
    · exact .of_registerWrite hon (if_pos (List.contains_iff_mem.2 hmask))
    · exact .of_registerWrite hon (if_neg fun h => hmask (List.contains_iff_mem.1 h))

-- Command rings

/-- Settles O8: each register of the ring's own port by its definition, and a PROD write of the other port. -/
theorem commandRingRegisters : Obligations.CommandRingRegisters := by
  unfold Obligations.CommandRingRegisters
  intro s p k v hon r n i
  have hprod : devCmdRingProdWrite p p k v s.dev = s.dev.onRing p k fun x =>
      if r.enable && i < 2 * n && ringSub n i r.cons.toNat ≤ n && ringSub n r.prod.toNat r.cons.toNat ≤ ringSub n i r.cons.toNat then
        { x with prod := BitVec.ofNat 16 i, visible := if i = x.prod.toNat then x.visible else x.visible ++ [(i, now s.dev)] }
      else { x with prodInvalid := true } := if_neg (not_not.2 rfl)
  refine ⟨fun hen hin hroom hfwd => ?_, fun hbad => ?_, .of_live hon rfl (if_neg (not_not.2 rfl)), .of_live hon rfl (if_neg (not_not.2 rfl)), ?_⟩
  · refine .of_live hon rfl (hprod.trans ?_)
    simp only [hen, hin, hroom, hfwd, decide_true, Bool.and_self, if_true]
  · refine .of_live hon rfl (hprod.trans ?_)
    have hno : (r.enable && i < 2 * n && ringSub n i r.cons.toNat ≤ n && ringSub n r.prod.toNat r.cons.toNat ≤ ringSub n i r.cons.toNat) = false := by
      rcases hbad with h | h | h | h
      · simp [h]
      · simp [Nat.not_lt.2 h]
      · simp [Nat.not_le.2 h]
      · simp [Nat.not_le.2 h]
    simp only [hno, Bool.false_eq_true, if_false]
  · exact .of_live hon rfl (if_pos (by cases p <;> decide))

end Sys2Proof.Machine
end

section
/-! SUPPORT. Command slots (O9, O10): the command of a slot under the operations that touch it, and what an answer does. -/

namespace Sys2Proof.Machine

-- The command rings and slots

theorem cmdAt_congr {d e : Dev} (h : e.ctl = d.ctl) (c : CmdSlot) : cmdAt e c = cmdAt d c := by cases c <;> simp [cmdAt, Dev.ring, h]

theorem leader_congr {d e : Dev} (h : e.ctl = d.ctl) : leader e = leader d := by simp [leader, h]

theorem ring_congr {d e : Dev} (h : e.ctl = d.ctl) (p : Side) (k : Nat) : e.ring p k = d.ring p k := by simp [Dev.ring, h]

theorem hasp_congr {d e : Dev} (h : e.ctl = d.ctl) (n : Nat) : e.hasp n = d.hasp n := by simp [Dev.hasp, h]

theorem Dev.ring_onRing {p : Side} {k : Nat} {d : Dev} (hk : k < (d.ctl.rings.get p).length) (f : CmdRing → CmdRing) :
    (d.onRing p k f).ring p k = f (d.ring p k) := by
  simp only [Dev.ring, Dev.onRing, Dev.onCtl_ctl, Pair.upd, Pair.get_set_self]
  exact nth_modAt_self _ _ _ _ hk

theorem Dev.onRing_rings_length (d : Dev) (p : Side) (k : Nat) (f : CmdRing → CmdRing) :
    ((d.onRing p k f).ctl.rings.get p).length = (d.ctl.rings.get p).length := by
  simp [Dev.onRing, Pair.upd]

theorem cmdAt_setCmd_ring {p : Side} {k : Nat} {d : Dev} (hk : k < (d.ctl.rings.get p).length) (m : Option Cmd) :
    cmdAt (setCmd (.ring p k) m d) (.ring p k) = m := by
  simp only [cmdAt, setCmd, Dev.ring_onRing hk]

@[simp] theorem cmdAt_setCmd_sideband (m : Option Cmd) (d : Dev) : cmdAt (setCmd .sideband m d) .sideband = m := rfl

/-- A slot that holds a command can be written. -/
theorem slot_exists {d : Dev} {c : CmdSlot} {m : Cmd} (h : cmdAt d c = some m) (x : Option Cmd) : cmdAt (setCmd c x d) c = x := by
  cases c with
  | sideband => rfl
  | ring p k =>
    refine cmdAt_setCmd_ring (Nat.lt_of_not_le fun hle => ?_) x
    have hnone : cmdAt d (.ring p k) = none := by simp only [cmdAt, Dev.ring, nth, List.getElem?_eq_none hle]; rfl
    simp [hnone] at h

@[simp] theorem setCmd_leader (c : CmdSlot) (m : Option Cmd) (d : Dev) : leader (setCmd c m d) = leader d := by cases c <;> rfl
@[simp] theorem setCmd_hasps (c : CmdSlot) (m : Option Cmd) (d : Dev) : (setCmd c m d).ctl.hasps = d.ctl.hasps := by cases c <;> rfl
@[simp] theorem setCmd_mbx (c : CmdSlot) (m : Option Cmd) (d : Dev) : (setCmd c m d).ctl.mbx = d.ctl.mbx := by cases c <;> rfl
@[simp] theorem setCmd_turn (c : CmdSlot) (m : Option Cmd) (d : Dev) : (setCmd c m d).ctl.turn = d.ctl.turn := by cases c <;> rfl
@[simp] theorem setCmd_handover (c : CmdSlot) (m : Option Cmd) (d : Dev) : (setCmd c m d).ctl.handover = d.ctl.handover := by cases c <;> rfl

theorem setCmd_setCmd_ring (p : Side) (k : Nat) (a b : Option Cmd) (d : Dev) :
    setCmd (.ring p k) b (setCmd (.ring p k) a d) = setCmd (.ring p k) b d := by
  have hmod (l : List CmdRing) (i : Nat) : modAt (modAt l i fun r => { r with cmd := a }) i (fun r => { r with cmd := b }) = modAt l i fun r => { r with cmd := b } := by
    induction l generalizing i with
    | nil => rfl
    | cons x r ih => cases i <;> simp [modAt, ih]
  cases p <;> simp [setCmd, Dev.onRing, Dev.onCtl, Pair.upd, Pair.get, Pair.set, hmod]

-- What counting leaves of a port

@[simp] theorem Dev.onHost_get_self (d : Dev) (p : Side) (f : HostPort → HostPort) : (d.onHost p f).host.get p = f (d.host.get p) := by
  simp [Dev.onHost, Pair.upd]

theorem Dev.onHost_get_ne {p q : Side} (h : q ≠ p) (d : Dev) (f : HostPort → HostPort) : (d.onHost p f).host.get q = d.host.get q := by
  obtain rfl : p = q.other := by cases p <;> cases q <;> simp_all [Side.other]
  simp [Dev.onHost, Pair.upd]

theorem count_host_get (src inst : Nat) (t : Option Nat) (n : Nat) (d : Dev) (p : Side) :
    ∃ c, (count src inst t n d).host.get p = { d.host.get p with counts := c } := by
  unfold count
  dsimp only
  split
  · exact ⟨_, rfl⟩
  · split
    · by_cases hp : p = .ofIdx inst
      · subst hp
        exact ⟨_, by rw [Dev.onHost_get_self]; rfl⟩
      · exact ⟨_, by rw [Dev.onHost_get_ne hp]; rfl⟩
    · exact ⟨_, rfl⟩

@[simp] theorem canIssue_count (src inst : Nat) (t : Option Nat) (n : Nat) (d : Dev) (p : Side) : canIssue (count src inst t n d) p = canIssue d p := by
  obtain ⟨c, hc⟩ := count_host_get src inst t n d p
  simp [canIssue, hc]

@[simp] theorem heldWrites_count (src inst : Nat) (t : Option Nat) (n : Nat) (d : Dev) (p : Side) :
    ((count src inst t n d).host.get p).heldWrites = (d.host.get p).heldWrites := by
  obtain ⟨c, hc⟩ := count_host_get src inst t n d p
  simp [hc]

@[simp] theorem config_count (src inst : Nat) (t : Option Nat) (n : Nat) (d : Dev) (p : Side) :
    ((count src inst t n d).host.get p).config = (d.host.get p).config := by
  obtain ⟨c, hc⟩ := count_host_get src inst t n d p
  simp [hc]

theorem replyBytes_congr {d e : Dev} (hc : e.ctl = d.ctl) (hp : e.pwr = d.pwr) (m : Cmd) (st detail value idx : Nat) (phase : Bool) :
    replyBytes e m st detail value idx phase = replyBytes d m st detail value idx phase := by
  simp [replyBytes, now, leadEpoch, hasp_congr hc, hp]

-- Answers

/-- A write by a port that can issue and holds none leaves at once. -/
theorem hostWrite_ready {p : Side} {d : Dev} (hissue : canIssue d p = true) (hheld : (d.host.get p).heldWrites = []) (a : Nat) (b : Bytes) :
    hostWrite p none a b d = emit (.hostWrite ⟨p, none, a, b, (d.host.get p).config.maxPayload, false⟩) (count 0x030E p.idx none b.length d) := by
  simp [hostWrite, hostPut, hissue, hheld, sendWrite]

/-- The reply that leaves for a ring's command. -/
def ringReply (d : Dev) (p : Side) (k : Nat) (m : Cmd) (st detail : Nat) : HostWrite :=
  ⟨p, none, (d.ring p k).replyBase.toNat + m.idx % ringSlots (d.ring p k) * 32,
    replyBytes d m st detail 0 m.idx (phaseOf (ringSlots (d.ring p k)) m.idx), (d.host.get p).config.maxPayload, false⟩

/-- The reply has been counted and has left. -/
def Dev.replied (d : Dev) (p : Side) (k : Nat) (m : Cmd) (st detail : Nat) : Dev :=
  emit (.hostWrite (ringReply d p k m st detail))
    (count 0x030E p.idx none (ringReply d p k m st detail).data.length (count (if isDone st then 0x0B01 else 0x0B02) 0xFF none 1 d))

/-- An answer on a ring whose port can issue: counted, the reply written, the slot retired (R424 to R426). -/
theorem answer_ring {d : Dev} {p : Side} {k : Nat} {m : Cmd} (st detail : Nat) (hm : cmdAt d (.ring p k) = some m) (horphan : m.orphan = false)
    (hissue : canIssue d p = true) (hlead : (leader d).isSome) (hheld : (d.host.get p).heldWrites = []) :
    answer (.ring p k) st detail none none d = retire p k m (d.replied p k m st detail) := by
  obtain ⟨l, hl⟩ := Option.isSome_iff_exists.1 hlead
  have hring (src : Nat) : (count src 0xFF none 1 d).ring p k = d.ring p k := ring_congr (by simp) p k
  have hreply (src : Nat) := replyBytes_congr (e := count src 0xFF none 1 d) (d := d) (by simp) (by simp) m st detail 0 m.idx (phaseOf (ringSlots (d.ring p k)) m.idx)
  simp only [answer, hm, hl, horphan, hring, hreply, Bool.false_eq_true, if_false]
  rw [hostWrite_ready (by simpa using hissue) (by simpa using hheld), if_pos (by simp [hissue, hheld])]
  simp [ringReply, Dev.replied]

/-- An answer on the sideband of a command that holds no Hasp: a response message leaves (R435). -/
theorem answer_sideband {d : Dev} {m : Cmd} (st detail : Nat) (hm : cmdAt d .sideband = some m) (hlead : (leader d).isSome) (hhasp : m.hdr.hasp = 0) :
    answer .sideband st detail none none d =
      emit (.sideband ([0x7E#8, 0x1D#8, 0x5A#8, 0x02#8, 0x00#8] ++ replyBytes d m st detail 0 0 true))
        (setCmd .sideband none (count (if isDone st then 0x0B01 else 0x0B02) 0xFF none 1 d)) := by
  obtain ⟨l, hl⟩ := Option.isSome_iff_exists.1 hlead
  have hreply (src : Nat) := replyBytes_congr (e := count src 0xFF none 1 d) (d := d) (by simp) (by simp) m st detail 0 0 true
  simp [answer, hm, hl, hhasp, hreply]

theorem answer_unled {d : Dev} (h : leader d = none) (c : CmdSlot) (st detail : Nat) (res : Option (Nat × Bytes)) (val : Option Nat) :
    answer c st detail res val d = d := by
  unfold answer
  rw [h]
  cases cmdAt d c <;> rfl

theorem answer_empty {d : Dev} {c : CmdSlot} (h : cmdAt d c = none) (st detail : Nat) (res : Option (Nat × Bytes)) (val : Option Nat) :
    answer c st detail res val d = d := by
  unfold answer
  rw [h]

/-- What a retired slot's ring becomes: without its command, CONS past it. -/
theorem retire_ring {p : Side} {k : Nat} {d : Dev} (hk : k < (d.ctl.rings.get p).length) (hstop : (d.ring p k).stopping = false) (m : Cmd) :
    cmdAt (retire p k m d) (.ring p k) = none ∧ ((retire p k m d).ring p k).cons = BitVec.ofNat 16 (ringAdd (ringSlots (d.ring p k)) m.idx 1) := by
  have hctl : (retire p k m d).ring p k = consTo (ringAdd (ringSlots (d.ring p k)) m.idx 1) { d.ring p k with cmd := none, refetch := 0, stopping := false } := by
    simp only [retire, hstop, Bool.and_false, Bool.false_eq_true, if_false]
    split
    · exact Dev.ring_onRing hk _
    · exact (ring_congr (msix_ctl _ _ _) p k).trans (Dev.ring_onRing hk _)
  exact ⟨by simp only [cmdAt, hctl]; rfl, by rw [hctl]; rfl⟩

@[simp] theorem retire_hasps (p : Side) (k : Nat) (m : Cmd) (d : Dev) : (retire p k m d).ctl.hasps = d.ctl.hasps := by
  unfold retire; dsimp only; split <;> simp [Dev.onRing]

@[simp] theorem retire_mbx (p : Side) (k : Nat) (m : Cmd) (d : Dev) : (retire p k m d).ctl.mbx = d.ctl.mbx := by
  unfold retire; dsimp only; split <;> simp [Dev.onRing]

@[simp] theorem retire_turn (p : Side) (k : Nat) (m : Cmd) (d : Dev) : (retire p k m d).ctl.turn = d.ctl.turn := by
  unfold retire; dsimp only; split <;> simp [Dev.onRing]

/-- A command that wants no message retires without one. -/
theorem retire_out_quiet {m : Cmd} (h : tb m.hdr.hflags.toNat 1 = true) (p : Side) (k : Nat) (d : Dev) : (retire p k m d).out = d.out := by
  simp [retire, h]

theorem msix_out (p : Side) (v : Nat) (d : Dev) : ∃ l, (msix p v d).out = d.out ++ l := by
  unfold msix
  dsimp only
  split
  · exact ⟨[], by simp [Dev.onHost]⟩
  · exact ⟨[_], rfl⟩

theorem retire_out (p : Side) (k : Nat) (m : Cmd) (d : Dev) : ∃ l, (retire p k m d).out = d.out ++ l := by
  unfold retire
  dsimp only
  split
  · exact ⟨[], by simp⟩
  · exact msix_out _ _ _

theorem count_ports {src : Nat} (h : src / 256 ≠ 1) (h' : src / 256 ≠ 2) (inst : Nat) (t : Option Nat) (n : Nat) (d : Dev) :
    (count src inst t n d).net = d.net := by
  unfold count
  dsimp only
  rw [if_neg (by simp [h, h'])]
  split <;> rfl

section
variable (d : Dev) (p : Side) (k : Nat) (m : Cmd) (st detail : Nat)
@[simp] theorem Dev.replied_ctl : (d.replied p k m st detail).ctl = d.ctl := by simp [replied]
@[simp] theorem Dev.replied_mem : (d.replied p k m st detail).mem = d.mem := by simp [replied]
@[simp] theorem Dev.replied_q : (d.replied p k m st detail).q = d.q := by simp [replied]
@[simp] theorem Dev.replied_ten : (d.replied p k m st detail).ten = d.ten := by simp [replied]
@[simp] theorem Dev.replied_pwr : (d.replied p k m st detail).pwr = d.pwr := by simp [replied]
@[simp] theorem Dev.replied_out : (d.replied p k m st detail).out = d.out ++ [.hostWrite (ringReply d p k m st detail)] := by simp [replied]
@[simp] theorem Dev.replied_net : (d.replied p k m st detail).net = d.net := by
  rw [replied, emit_net, count_ports (by decide) (by decide), count_ports] <;> split <;> decide
end

/-- The slot of an answered command is free and CONS is past its index. -/
theorem answer_ring_frees {d : Dev} {p : Side} {k : Nat} {m : Cmd} (st detail : Nat) (hm : cmdAt d (.ring p k) = some m) (horphan : m.orphan = false)
    (hissue : canIssue d p = true) (hlead : (leader d).isSome) (hheld : (d.host.get p).heldWrites = []) (hk : k < (d.ctl.rings.get p).length)
    (hstop : (d.ring p k).stopping = false) :
    cmdAt (answer (.ring p k) st detail none none d) (.ring p k) = none
      ∧ ((answer (.ring p k) st detail none none d).ring p k).cons = BitVec.ofNat 16 (ringAdd (ringSlots (d.ring p k)) m.idx 1) := by
  have hring : (d.replied p k m st detail).ring p k = d.ring p k := ring_congr (by simp) p k
  have hretire := retire_ring (d := d.replied p k m st detail) (p := p) (k := k) (by simpa using hk) (by rwa [hring]) m
  rwa [hring, ← answer_ring st detail hm horphan hissue hlead hheld] at hretire

/-- Settles O10: `answer_ring` and `retire_ring` on a ring, `answer_sideband` on the sideband, `answer_unled` while no die leads. -/
theorem replyWritten : Obligations.ReplyWritten := by
  unfold Obligations.ReplyWritten
  refine ⟨?ring, ?sideband, fun d c st detail h => answer_unled h c st detail none none⟩
  case ring =>
    intro d p k st detail m hm horphan hissue hlead hheld hk hquiet hstop r g e
    have he : e = _ := answer_ring st detail hm horphan hissue hlead hheld
    obtain ⟨hcmd, hcons⟩ := answer_ring_frees st detail hm horphan hissue hlead hheld hk hstop
    refine ⟨?_, hcmd, hcons, by simp [he], by simp [he], by simp [he], by simp [he], by simp [he]⟩
    rw [he, retire_out_quiet hquiet]
    simp [ringReply, r, g]
  case sideband =>
    intro d st detail m hm hlead hhasp e
    have he : e = _ := answer_sideband st detail hm hlead hhasp
    rw [he]
    refine ⟨by simp, rfl, by simp, by simp, by simp, by simp, ?_⟩
    rw [emit_net, setCmd_net, count_ports] <;> split <;> decide

-- Fetching (R421, R428, R429)

theorem Completes.of_live {c : Instr} {s : State} {f : Dev → Dev} {Q : Dev → Prop} (hon : s.dev.On) (hc : exec c s = onDev s (live f)) (hQ : Q (f s.dev)) :
    Completes c s Q := ⟨_, Gives.of_live hon hc rfl, rfl, hQ⟩

/-- What a fetch that serves slot i leaves alone. -/
def Dev.FetchKept (d : Dev) (i : Nat) (e : Dev) : Prop :=
  e.ctl.turn = i ∧ e.ctl.hasps = d.ctl.hasps ∧ e.mem = d.mem ∧ e.q = d.q ∧ e.ten = d.ten ∧ e.pwr = d.pwr

/-- The command that a packet gives its slot, before its holds are known. -/
def fetchedCmd (d : Dev) (idx vis : Nat) (late : Bool) (b : Bytes) : Cmd :=
  { hdr := parseHdr b, params := (b.drop 64).take ((parseHdr b).length - 64), idx := idx, stage := .fetched, order := d.ctl.nextOrder, visible := vis, late := late }

/-- A slot takes a command, which takes its place in the order of fetches. -/
def Dev.slotTakes (d : Dev) (c : CmdSlot) (m : Cmd) : Dev := setCmd c (some m) (d.onCtl fun x => { x with nextOrder := x.nextOrder + 1 })

theorem takePacket_good {c : CmdSlot} {b : Bytes} (idx vis : Nat) (late : Bool) {d : Dev} (hc : packetCheck c b = none) (hdl : (parseHdr b).deadline = 0) :
    takePacket c idx vis late b d = setCmd c (some { fetchedCmd d idx vis late b with
        holds := holdsOf (parseHdr b).opcode.toNat (fetchedCmd d idx vis late b).params }) (d.slotTakes c (fetchedCmd d idx vis late b)) := by
  simp only [takePacket, hc, deadlineOver, hdl, ne_eq, not_true_eq_false, decide_false, Bool.false_and, Bool.false_eq_true, if_false]
  rfl

theorem takePacket_bad {c : CmdSlot} {b : Bytes} (idx vis : Nat) (late : Bool) {d : Dev} {st o : Nat} (hc : packetCheck c b = some (st, o)) :
    takePacket c idx vis late b d = finishAt c st o (d.slotTakes c (fetchedCmd d idx vis late b)) := by
  simp only [takePacket, hc]
  rfl

section
variable (p : Side) (k i : Nat) (b : Option Bytes) (d : Dev)
@[simp] theorem slotReads_ctl : (slotReads p k i b d).ctl = d.ctl := by unfold slotReads; dsimp only; split <;> rfl
@[simp] theorem slotReads_mem : (slotReads p k i b d).mem = d.mem := by unfold slotReads; dsimp only; split <;> rfl
@[simp] theorem slotReads_q : (slotReads p k i b d).q = d.q := by unfold slotReads; dsimp only; split <;> rfl
@[simp] theorem slotReads_ten : (slotReads p k i b d).ten = d.ten := by unfold slotReads; dsimp only; split <;> rfl
@[simp] theorem slotReads_pwr : (slotReads p k i b d).pwr = d.pwr := by unfold slotReads; dsimp only; split <;> rfl
@[simp] theorem slotReads_host : (slotReads p k i b d).host = d.host := by unfold slotReads; dsimp only; split <;> rfl

theorem slotReads_out : ∃ l, (slotReads p k i b d).out = d.out ++ .slotRead p ((d.ring p k).base.toNat + i % ringSlots (d.ring p k) * 4096) 64 :: l := by
  unfold slotReads
  dsimp only
  split
  · exact ⟨[_], List.append_assoc _ _ _⟩
  · exact ⟨[], rfl⟩
end

/-- The device as slot i is served: the turn is its, no re-read is due, and the reads have left. -/
def Dev.slotRead (d : Dev) (i : Nat) (p : Side) (k : Nat) (b : Option Bytes) : Dev :=
  slotReads p k (d.ring p k).cons.toNat b ((d.onCtl fun c => { c with turn := i }).onRing p k fun r => { r with refetch := 0 })

/-- The first read of the slot of ring k has left, after all that was out before. -/
def Dev.SlotReadOut (d : Dev) (p : Side) (k : Nat) (e : Dev) : Prop :=
  ∃ l, e.out = d.out ++ .slotRead p ((d.ring p k).base.toNat + (d.ring p k).cons.toNat % ringSlots (d.ring p k) * 4096) 64 :: l

/-- e is d as slot i, of ring k, is served, with m in the slot. -/
def Dev.Served (d : Dev) (i : Nat) (p : Side) (k : Nat) (m : Option Cmd) (e : Dev) : Prop :=
  d.FetchKept i e ∧ e.ring p k = { d.ring p k with refetch := 0, cmd := m } ∧ k < (e.ctl.rings.get p).length ∧ leader e = leader d ∧ e.host = d.host
    ∧ d.SlotReadOut p k e

section
variable {d e : Dev} {i : Nat} {p : Side} {k : Nat} {m : Option Cmd}

theorem Dev.slotRead_served (hk : k < (d.ctl.rings.get p).length) (hnone : (d.ring p k).cmd = none) (b : Option Bytes) :
    d.Served i p k none (d.slotRead i p k b) := by
  have hturn : (d.onCtl fun c => { c with turn := i }).ring p k = d.ring p k := rfl
  have hring : ((d.onCtl fun c => { c with turn := i }).onRing p k fun r => { r with refetch := 0 }).ring p k = { d.ring p k with refetch := 0, cmd := none } := by
    rw [Dev.ring_onRing (by exact hk), hturn, ← hnone]
  refine ⟨by simp [FetchKept, slotRead, Dev.onRing], ?_, ?_, ?_, by simp [slotRead], ?_⟩
  · rw [slotRead, ring_congr (slotReads_ctl _ _ _ _ _), hring]
  · rw [slotRead, slotReads_ctl, Dev.onRing_rings_length]; exact hk
  · rw [slotRead, leader_congr (slotReads_ctl _ _ _ _ _)]; rfl
  · have hout := slotReads_out p k (d.ring p k).cons.toNat b ((d.onCtl fun c => { c with turn := i }).onRing p k fun r => { r with refetch := 0 })
    rw [hring] at hout
    exact hout

theorem Dev.Served.setCmd (h : d.Served i p k m e) (x : Option Cmd) : d.Served i p k x (setCmd (.ring p k) x e) := by
  obtain ⟨⟨ht, hh, hm, hq, hn, hw⟩, hring, hk, hlead, hhost, hout⟩ := h
  refine ⟨⟨by simpa using ht, by simpa using hh, hm, hq, hn, hw⟩, ?_, ?_, ?_, hhost, hout⟩
  · exact (Dev.ring_onRing hk _).trans (by rw [hring])
  · exact (Dev.onRing_rings_length e p k _).symm ▸ hk
  · rw [setCmd_leader, hlead]

theorem Dev.Served.slotTakes (h : d.Served i p k m e) (x : Cmd) : d.Served i p k (some x) (e.slotTakes (.ring p k) x) :=
  Dev.Served.setCmd (e := e.onCtl fun c => { c with nextOrder := c.nextOrder + 1 }) h _

/-- The command of the served slot is answered at once: the slot is free, CONS past it, and nothing else changes. -/
theorem Dev.Served.answered {x : Cmd} (h : d.Served i p k (some x) e) (st o : Nat) (hidx : x.idx = (d.ring p k).cons.toNat) (horphan : x.orphan = false)
    (hlead : (leader d).isSome) (hstop : (d.ring p k).stopping = false) (hissue : canIssue d p = true) (hheld : (d.host.get p).heldWrites = []) :
    d.FetchKept i (finishAt (.ring p k) st o e)
      ∧ (cmdAt (finishAt (.ring p k) st o e) (.ring p k) = none
        ∧ ((finishAt (.ring p k) st o e).ring p k).cons = BitVec.ofNat 16 (ringAdd (ringSlots (d.ring p k)) (d.ring p k).cons.toNat 1))
      ∧ d.SlotReadOut p k (finishAt (.ring p k) st o e) := by
  obtain ⟨⟨ht, hh, hm, hq, hn, hw⟩, hring, hk, hleads, hhost, l, hout⟩ := h
  have hcmd : cmdAt e (.ring p k) = some x := by rw [cmdAt, hring]
  have hissue' : canIssue e p = true := by rwa [canIssue, hhost]
  have hheld' : (e.host.get p).heldWrites = [] := by rwa [hhost]
  have hlead' : (leader e).isSome := by rwa [hleads]
  have heq := answer_ring st o hcmd horphan hissue' hlead' hheld'
  have hfree := answer_ring_frees st o hcmd horphan hissue' hlead' hheld' hk (by rw [hring]; exact hstop)
  rw [hring, hidx] at hfree
  refine ⟨⟨?_, ?_, ?_, ?_, ?_, ?_⟩, hfree, ?_⟩
  · rw [finishAt, heq]; simpa using ht
  · rw [finishAt, heq]; simpa using hh
  · rw [finishAt, heq]; simpa using hm
  · rw [finishAt, heq]; simpa using hq
  · rw [finishAt, heq]; simpa using hn
  · rw [finishAt, heq]; simpa using hw
  · obtain ⟨l', hl'⟩ := retire_out p k x (e.replied p k x st o)
    rw [Dev.replied_out, hout] at hl'
    exact ⟨l ++ .hostWrite (ringReply e p k x st o) :: l', by rw [finishAt, heq, hl']; simp⟩
end

/-- What a slot of a ring that is ready to fetch has. -/
theorem fetchReady_ring {d : Dev} {p : Side} {k : Nat} (h : fetchReady d (.ring p k) = true) :
    (d.ring p k).stopping = false ∧ (d.ring p k).cmd = none ∧ canIssue d p = true := by
  simp only [fetchReady, Bool.and_eq_true] at h
  obtain ⟨⟨⟨⟨⟨-, hstop⟩, hcmd⟩, -⟩, -⟩, hissue⟩ := h
  exact ⟨by simpa using hstop, by simpa using hcmd, hissue⟩

/-- The slots in the order in which the leader looks, from the one after that last served. -/
def fetchOrder (d : Dev) : List Nat := (List.range 9).map fun j => (d.ctl.turn + 1 + j) % 9

theorem devCommandFetch_ring {d : Dev} {i : Nat} {p : Side} {k : Nat} (hlead : (leader d).isSome) (hhand : d.ctl.handover = none)
    (hfind : (fetchOrder d).find? (fun j => fetchReady d (slotOf j)) = some i) (hslot : slotOf i = .ring p k) (b : Option Bytes) :
    devCommandFetch b d = ringPacket p k 0 b (d.onCtl fun c => { c with turn := i }) := by
  unfold fetchOrder at hfind
  simp only [devCommandFetch, hhand, hfind, hslot]
  rw [if_neg (by simpa using Option.isSome_iff_ne_none.1 hlead)]

/-- The packet of a ring's slot as it is read. -/
theorem ringPacket_some {d : Dev} {i : Nat} {p : Side} {k : Nat} (b : Bytes) : ∃ vis late,
    ringPacket p k 0 (some b) (d.onCtl fun c => { c with turn := i }) =
      if tb (u8 b 2) 0 = phaseOf (ringSlots (d.ring p k)) (d.ring p k).cons.toNat then
        takePacket (.ring p k) (d.ring p k).cons.toNat vis late b (d.slotRead i p k (some b))
      else (d.slotRead i p k (some b)).onRing p k fun r => { r with refetch := 1 } := ⟨_, _, rfl⟩

theorem ringPacket_none {d : Dev} {i : Nat} {p : Side} {k : Nat} : ∃ m : Cmd, m.idx = (d.ring p k).cons.toNat ∧ m.orphan = false ∧
    ringPacket p k 0 none (d.onCtl fun c => { c with turn := i }) = finishAt (.ring p k) stBadParam 0xFFFF (setCmd (.ring p k) (some m) (d.slotRead i p k none)) :=
  ⟨_, rfl, rfl, rfl⟩

theorem devCommandFetch_sideband {d : Dev} {i : Nat} {b : Bytes} (hlead : (leader d).isSome) (hhand : d.ctl.handover = none)
    (hfind : (fetchOrder d).find? (fun j => fetchReady d (slotOf j)) = some i) (hslot : slotOf i = .sideband) (hreq : d.ctl.side.request = some b)
    (hlen : 64 ≤ b.length) (hphase : tb (u8 b 2) 0 = true) (x : Option Bytes) :
    devCommandFetch x d = takePacket .sideband 0 d.ctl.side.reqTime d.ctl.side.late b
      ((d.onCtl fun c => { c with turn := i }).onSide fun s => { s with request := none, late := false }) := by
  have hreq' : (d.onCtl fun c => { c with turn := i }).ctl.side.request = some b := hreq
  unfold fetchOrder at hfind
  simp only [devCommandFetch, hhand, hfind, hslot, hreq', Option.getD_some, hphase]
  rw [if_neg (by simpa using Option.isSome_iff_ne_none.1 hlead), if_neg (by omega), if_pos trivial]
  rfl

@[simp] theorem setCmd_sideband_request (m : Option Cmd) (d : Dev) : (setCmd .sideband m d).ctl.side.request = d.ctl.side.request := rfl

theorem devCommandFetch_idle {d : Dev} (b : Option Bytes)
    (h : leader d = none ∨ d.ctl.handover.isSome = true ∨ ∀ j < 9, fetchReady d (slotOf j) = false) : devCommandFetch b d = d := by
  by_cases hno : (leader d).isNone || d.ctl.handover.isSome
  · rw [devCommandFetch, if_pos hno]
  · have hall : ∀ j < 9, fetchReady d (slotOf j) = false := by
      simp only [Bool.or_eq_true, not_or] at hno
      rcases h with h | h | h
      · simp [h] at hno
      · exact absurd h hno.2
      · exact h
    have hfind : ((List.range 9).map fun i => (d.ctl.turn + 1 + i) % 9).find? (fun i => fetchReady d (slotOf i)) = none := by
      refine List.find?_eq_none.2 fun j hj => ?_
      obtain ⟨n, -, rfl⟩ := List.mem_map.1 hj
      simp [hall _ (Nat.mod_lt _ (by decide))]
    rw [devCommandFetch, if_neg hno]
    simp only [hfind]

-- Beginning (R430, R433, R435)

/-- The command as it begins. -/
def Dev.begins (d : Dev) (c : CmdSlot) (m : Cmd) : Dev :=
  setCmd c (some { m with stage := .begun, ran := true, began := now d, epoch := leadEpoch d }) d

/-- The leader has taken the Hasp that a command of the sideband needs. -/
def Dev.haspTaken (d : Dev) (l : Side) (m : Cmd) (need : Nat) : Dev :=
  count 0x0B06 0xFF none 1 (setHolder need (some (.die l)) 1#16 (d.begins .sideband m))

theorem hasp_setCmd (c : CmdSlot) (m : Option Cmd) (d : Dev) (n : Nat) : (setCmd c m d).hasp n = d.hasp n := by simp [Dev.hasp]

theorem Dev.hasp_begins (d : Dev) (c : CmdSlot) (m : Cmd) (n : Nat) : (d.begins c m).hasp n = d.hasp n := hasp_setCmd _ _ _ _

section
variable {d : Dev} {m : Cmd} {l : Side}

/-- A fetched command of a ring whose holds are free, in a device that is awake: it begins, or is answered with what checks 9 to 11 find. -/
theorem devCommandBegin_ring {p : Side} {k : Nat} (hm : cmdAt d (.ring p k) = some m) (hst : m.stage = .fetched) (hl : leader d = some l)
    (hhand : d.ctl.handover = none) (hact : d.pwr.state = .active) (hten : tenantHeld d m = false) (hfree : holdsFree d (.ring p k) m = true) :
    (haspCheck d p m = none → devCommandBegin (.ring p k) d = d.begins (.ring p k) m)
      ∧ ∀ st o, haspCheck d p m = some (st, o) → devCommandBegin (.ring p k) d = finishAt (.ring p k) st o (d.begins (.ring p k) m) := by
  have hcheck : haspCheck (d.begins (.ring p k) m) p { m with stage := .begun, ran := true, began := now d, epoch := leadEpoch d } = haspCheck d p m := by
    simp only [haspCheck, Dev.hasp_begins]
  simp only [devCommandBegin, hm, hl, hst, hhand, hact, hten, hfree]
  simp only [Dev.begins] at hcheck ⊢
  exact ⟨fun h => by simp [hcheck, h], fun st o h => by simp [hcheck, h]⟩

theorem devCommandBegin_sideband {need : Nat} (hneed : haspNeeded m.hdr.opcode.toNat m.params = need) (hm : cmdAt d .sideband = some m)
    (hst : m.stage = .fetched) (hl : leader d = some l) (hhand : d.ctl.handover = none) (hact : d.pwr.state = .active) (hten : tenantHeld d m = false)
    (hfree : holdsFree d .sideband m = true) :
    devCommandBegin .sideband d =
      if need = 0 || (d.hasp need).holder = some (.die l) then d.begins .sideband m
      else if (d.hasp need).holder.isSome then finish .sideband stBusy (d.begins .sideband m)
      else onCmd .sideband (fun x => { x with hdr := { x.hdr with hasp := need, epoch := ((d.haspTaken l m need).hasp need).epoch } }) (d.haspTaken l m need) := by
  have hhasp := d.hasp_begins .sideband m
  simp only [Dev.haspTaken, Dev.begins] at hhasp ⊢
  simp only [devCommandBegin, hneed, hm, hl, hst, hhand, hact, hten, hfree, hhasp]
  simp

theorem devCommandBegin_wakes {c : CmdSlot} (hm : cmdAt d c = some m) (hst : m.stage = .fetched) (hl : leader d = some l)
    (hhand : d.ctl.handover = none) (hbiv : d.pwr.state = .bivouac) (hten : tenantHeld d m = false) (hfree : holdsFree d c m = true)
    (hasleep : asleepOk m.hdr.opcode.toNat = false) (hwith : withdraws m = false) : devCommandBegin c d = wakeDev d := by
  simp [devCommandBegin, hm, hl, hst, hhand, hbiv, hten, hfree, hasleep, hwith]

theorem devCommandBegin_idle {c : CmdSlot} (h : leader d = none ∨ cmdAt d c = none) : devCommandBegin c d = d := by
  unfold devCommandBegin
  rcases h with h | h
  · rw [h]; cases cmdAt d c <;> rfl
  · rw [h]

theorem devCommandDeadline_idle {c : CmdSlot} (h : leader d = none ∨ cmdAt d c = none) : devCommandDeadline c d = d := by
  unfold devCommandDeadline
  rcases h with h | h
  · rw [h]; cases cmdAt d c <;> rfl
  · rw [h]

theorem devCommandDeadline_over {c : CmdSlot} (hm : cmdAt d c = some m) (hst : m.stage = .fetched) (hl : leader d = some l) (hdl : m.hdr.deadline ≠ 0) :
    devCommandDeadline c d = answer c stTimeout 0 none none d := by
  simp only [devCommandDeadline, hm, hl, hst, ne_eq, hdl, not_false_eq_true, decide_true, Bool.and_self, if_true]
  rfl
end

/-- A Hasp that its number reaches, taken. -/
theorem setHolder_hasp {n : Nat} {d : Dev} (hn : n < d.ctl.hasps.length) (h0 : n ≠ 0) (a : Option Agent) (t : BitVec 16) :
    (setHolder n a t d).hasp n = { epoch := (d.hasp n).epoch + 1#32, token := t, holder := a } := by
  simp only [setHolder, if_neg h0]
  exact nth_modAt_self _ _ _ _ hn

theorem onCmd_at {c : CmdSlot} {m : Cmd} {d : Dev} (h : cmdAt d c = some m) (f : Cmd → Cmd) : onCmd c f d = setCmd c (some (f m)) d := by
  simp only [onCmd, h]

/-- Settles O9: a fetch serves a slot (`Dev.Served`) whose packet waits, is read again or is answered (`Dev.Served.answered`); a begun command by
`devCommandBegin_ring`, `devCommandBegin_sideband`, `devCommandBegin_wakes`; a deadline by `devCommandDeadline_over`. -/
theorem commandFetchedAndBegun : Obligations.CommandFetchedAndBegun := by
  unfold Obligations.CommandFetchedAndBegun
  refine ⟨?fetch, ?begin, fun s c hon h => ⟨.of_live hon rfl (devCommandBegin_idle h), .of_live hon rfl (devCommandDeadline_idle h)⟩,
    fun s b hon h => .of_live hon rfl (devCommandFetch_idle b h)⟩
  case fetch =>
    intro s i hon hlead hhand hi hfind kept waits
    have hready := List.find?_some hfind
    refine ⟨?ring, fun b hslot hreq hlen hphase hcheck hdl x => ?sideband⟩
    case ring =>
      intro p k hslot hk r answered read
      rw [hslot] at hready
      obtain ⟨hstop, hnone, hissue⟩ := fetchReady_ring hready
      have hfetch (b : Option Bytes) := devCommandFetch_ring hlead hhand hfind hslot b
      have hserved (b : Option Bytes) : s.dev.Served i p k none (s.dev.slotRead i p k b) := Dev.slotRead_served hk hnone b
      refine ⟨fun hheld => ?_, fun b => ⟨fun hphase hcheck hdl => ?_, fun hphase => ?_, fun hphase hcheck hheld => ?_⟩⟩
      · obtain ⟨m, hidx, horphan, hm⟩ := ringPacket_none (d := s.dev) (i := i) (p := p) (k := k)
        refine .of_live hon rfl ?_
        rw [hfetch, hm]
        exact ((hserved none).setCmd (some m)).answered _ _ hidx horphan hlead hstop hissue hheld
      · obtain ⟨vis, late, hb⟩ := ringPacket_some (d := s.dev) (i := i) (p := p) (k := k) b
        refine .of_live hon rfl ?_
        rw [hfetch, hb, if_pos hphase, takePacket_good _ _ _ hcheck hdl]
        obtain ⟨hkept, hring, -, -, -, hout⟩ := ((hserved (some b)).slotTakes (fetchedCmd (s.dev.slotRead i p k (some b)) r.cons.toNat vis late b)).setCmd
          (some { fetchedCmd (s.dev.slotRead i p k (some b)) r.cons.toNat vis late b with
            holds := holdsOf (parseHdr b).opcode.toNat (fetchedCmd (s.dev.slotRead i p k (some b)) r.cons.toNat vis late b).params })
        have hcmd := congrArg CmdRing.cmd hring
        refine ⟨hkept, ⟨_, hcmd, rfl, rfl, rfl, rfl, rfl⟩, fun m hm => ?_, hout⟩
        rw [← Option.some.inj (hcmd.symm.trans hm)]
        rfl
      · obtain ⟨vis, late, hb⟩ := ringPacket_some (d := s.dev) (i := i) (p := p) (k := k) b
        refine .of_live hon rfl ?_
        rw [hfetch, hb, if_neg hphase]
        obtain ⟨hkept, hring, hlen, -, -, hout⟩ := hserved (some b)
        have hagain := Dev.ring_onRing hlen fun r => { r with refetch := 1 }
        rw [hring] at hagain
        exact ⟨⟨hkept.1, hkept.2⟩, congrArg CmdRing.cmd hagain, congrArg CmdRing.refetch hagain, hout⟩
      · obtain ⟨vis, late, hb⟩ := ringPacket_some (d := s.dev) (i := i) (p := p) (k := k) b
        obtain ⟨⟨st, o⟩, hbad⟩ := Option.ne_none_iff_exists'.1 hcheck
        refine .of_live hon rfl ?_
        rw [hfetch, hb, if_pos hphase, takePacket_bad _ _ _ hbad]
        exact ((hserved (some b)).slotTakes _).answered _ _ rfl rfl hlead hstop hissue hheld
    case sideband =>
      refine .of_live hon rfl ?_
      rw [devCommandFetch_sideband hlead hhand hfind hslot hreq hlen hphase x, takePacket_good _ _ _ hcheck hdl]
      refine ⟨⟨by simp [Dev.slotTakes]; rfl, by simp [Dev.slotTakes]; rfl, by simp [Dev.slotTakes], by simp [Dev.slotTakes], by simp [Dev.slotTakes],
        by simp [Dev.slotTakes]⟩, ⟨_, cmdAt_setCmd_sideband _ _, rfl, rfl, rfl, rfl, rfl⟩, by simp [Dev.slotTakes, Dev.onSide]⟩
  case begin =>
    intro s c m l hon hm hst hl go
    refine ⟨?awake, fun hhand hbiv hten hfree hasleep hwith => ?wakes, fun hdl => ?deadline⟩
    case awake =>
      intro hhand hact hten hfree
      refine ⟨?ring, ?sideband⟩
      case ring =>
        rintro p k rfl
        obtain ⟨hgood, hbad⟩ := devCommandBegin_ring hm hst hl hhand hact hten hfree
        exact ⟨fun h => .of_live hon rfl (hgood h), fun st o h => .of_live hon rfl (hbad st o h)⟩
      case sideband =>
        rintro rfl need
        have hbegin := devCommandBegin_sideband (need := need) rfl hm hst hl hhand hact hten hfree
        refine ⟨fun hneed => .of_live hon rfl ?_, fun hpos hlt hnone => .of_live hon rfl ?_, fun a hpos ha hne => .of_live hon rfl ?_⟩
        · rw [hbegin, if_pos (by simpa using hneed)]; rfl
        · rw [hbegin, if_neg (by simp [hnone, Nat.ne_of_gt hpos]), if_neg (by simp [hnone])]
          have hlt' : need < (s.dev.begins .sideband m).ctl.hasps.length := by simpa [Dev.begins] using hlt
          have hholder := setHolder_hasp hlt' (by omega : need ≠ 0) (some (.die l)) 1#16
          have hcmd : cmdAt (s.dev.haspTaken l m need) .sideband
              = some { m with stage := .begun, ran := true, began := now s.dev, epoch := leadEpoch s.dev } := by
            rw [Dev.haspTaken, cmdAt_congr (count_ctl _ _ _ _ _), setHolder, if_neg (by omega)]
            rfl
          rw [onCmd_at hcmd]
          refine ⟨?_, _, cmdAt_setCmd_sideband _ _, rfl, rfl, rfl⟩
          rw [hasp_setCmd, Dev.haspTaken, hasp_congr (count_ctl _ _ _ _ _), hholder]
        · rw [hbegin, if_neg (by simp [ha, hne, Nat.ne_of_gt hpos]), if_pos (by simp [ha])]; rfl
    case wakes => exact .of_live hon rfl (devCommandBegin_wakes hm hst hl hhand hbiv hten hfree hasleep hwith)
    case deadline => exact .of_live hon rfl (devCommandDeadline_over hm hst hl hdl)

end Sys2Proof.Machine
end

section
/-! SUPPORT. Hasps, the Latch and mailboxes (O12, O13). -/

namespace Sys2Proof.Machine

-- Hasps

theorem setHolder_other {n : Nat} (hn : n ≠ 0) (a : Option Agent) (t : BitVec 16) (d : Dev) {m : Nat} (hm : m ≠ n) :
    (setHolder n a t d).hasp m = d.hasp m := by
  simp only [setHolder, if_neg hn]
  exact nth_modAt_other _ n m _ _ hm

section
variable {n : Nat} {a : Agent} {t : BitVec 16} {d : Dev} {p : Side}

theorem devHaspAcquire_free (hn : 0 < n) (hlt : n < 64) (ht : t ≠ 0#16) (hfree : (d.hasp n).holder = none) :
    devHaspAcquire (.port p) n t d = count 0x0B06 0xFF none 1 (setHolder n (some (.port p)) t d) := by
  simp [devHaspAcquire, Nat.not_le.2 hlt, Nat.ne_of_gt hn, ht, hfree]

theorem devHaspAcquire_held (hn : 0 < n) (hlt : n < 64) (ht : t ≠ 0#16) (hheld : (d.hasp n).holder ≠ none) : devHaspAcquire (.port p) n t d = d := by
  simp [devHaspAcquire, Nat.not_le.2 hlt, Nat.ne_of_gt hn, ht, hheld]

theorem devHaspRelease_mine (hn : 0 < n) (hlt : n < 64) (ht : t ≠ 0#16) (hheld : (d.hasp n).holder = some (.port p)) (htok : (d.hasp n).token = t) :
    devHaspRelease (.port p) n t d = setHolder n none 0#16 d := by
  simp [devHaspRelease, Nat.not_le.2 hlt, Nat.ne_of_gt hn, ht, hheld, htok]

theorem devHaspRelease_other (hlt : n < 64) (h : (d.hasp n).holder ≠ some (.port p) ∨ (d.hasp n).token ≠ t) :
    devHaspRelease (.port p) n t d = count 0x0305 p.idx none 1 d := by
  have hmine : ((d.hasp n).holder = some (.port p) && (d.hasp n).token = t) = false := by
    rcases h with h | h <;> simp [h]
  simp [devHaspRelease, Nat.not_le.2 hlt, hmine, haspMisuse]

/-- A Hasp past Hasp 0 changes holder: the memory, the queue pairs, the mailboxes and the power state stay. -/
theorem setHolder_parts (hn : n ≠ 0) (a : Option Agent) (t : BitVec 16) (d : Dev) : (setHolder n a t d).mem = d.mem ∧ (setHolder n a t d).q = d.q
    ∧ (setHolder n a t d).ctl.mbx = d.ctl.mbx ∧ (setHolder n a t d).pwr = d.pwr := by
  simp only [setHolder, if_neg hn]
  exact ⟨rfl, rfl, rfl, rfl⟩
end

/-- Settles O12: a Hasp by `devHaspAcquire_free`, `devHaspAcquire_held`, `devHaspRelease_mine` and `devHaspRelease_other`, the Latch by its definition. -/
theorem haspAndLatch : Obligations.HaspAndLatch := by
  unfold Obligations.HaspAndLatch
  refine ⟨?hasps, ?latch⟩
  case hasps =>
    intro s p n t hon hn hlt ht hlen a others
    have hn0 : n ≠ 0 := Nat.ne_of_gt hn
    have hset (b : Option Agent) (u : BitVec 16) := setHolder_hasp (d := s.dev) (hlen ▸ hlt) hn0 b u
    have hothers (b : Option Agent) (u : BitVec 16) : others (setHolder n b u s.dev) :=
      ⟨fun m hm => setHolder_other hn0 b u s.dev hm, setHolder_parts hn0 b u s.dev⟩
    refine ⟨fun hfree => .of_live hon rfl ?_, fun hheld => .of_live hon rfl (devHaspAcquire_held hn hlt ht hheld),
      fun hheld htok => .of_live hon rfl ?_, fun h => .of_live hon rfl (devHaspRelease_other hlt h)⟩
    · rw [devHaspAcquire_free hn hlt ht hfree]
      obtain ⟨hmem, hq, hmbx, hpwr⟩ := setHolder_parts hn0 (some a) t s.dev
      refine ⟨(hasp_congr (count_ctl _ _ _ _ _) n).trans (hset _ _), fun m hm => ?_, by simpa using hmem, by simpa using hq, by simpa using hmbx,
        by simp⟩
      exact (hasp_congr (count_ctl _ _ _ _ _) m).trans (setHolder_other hn0 _ _ _ hm)
    · rw [devHaspRelease_mine hn hlt ht hheld htok]
      exact ⟨hset none 0#16, hothers none 0#16⟩
  case latch =>
    intro s p t hon ht a
    refine ⟨fun hfree => .of_live hon rfl ?_, fun hheld => .of_live hon rfl ?_, fun hheld htok hoff => .of_live hon rfl ?_, fun hen => .of_live hon rfl ?_⟩
    · simp [devLatchAcquire, ht, a, agentUp, hfree, latchSet]
    · simp [devLatchAcquire, ht, a, agentUp, hheld]
    · simp [devLatchRelease, ht, a, hheld, htok, hoff, latchSet]
    · simp [devLatchRelease, hen, a, haspMisuse]

-- Mailboxes

theorem Dev.mbx_onMbx {k : Nat} {d : Dev} (hk : k < d.ctl.mbx.length) (f : Mailbox → Mailbox) : (d.onMbx k f).mbx k = f (d.mbx k) :=
  nth_modAt_self _ _ _ _ hk

theorem Dev.mbx_onMbx_other {k j : Nat} (h : j ≠ k) (d : Dev) (f : Mailbox → Mailbox) : (d.onMbx k f).mbx j = d.mbx j :=
  nth_modAt_other _ _ _ _ _ h

theorem Dev.onMbx_congr {k : Nat} {d : Dev} {f g : Mailbox → Mailbox} (hk : k < d.ctl.mbx.length) (h : f (d.mbx k) = g (d.mbx k)) :
    d.onMbx k f = d.onMbx k g := by
  have hmod (l : List Mailbox) (i : Nat) (hi : i < l.length) (hfg : f (nth l i {}) = g (nth l i {})) : modAt l i f = modAt l i g := by
    induction l generalizing i with
    | nil => rfl
    | cons x r ih =>
      cases i with
      | zero => simp only [modAt]; exact congrArg (· :: r) hfg
      | succ i => simp only [modAt]; exact congrArg (x :: ·) (ih i (Nat.lt_of_succ_lt_succ hi) hfg)
  have heq := hmod d.ctl.mbx k hk h
  simp only [onMbx, onCtl, heq]

theorem mbx_congr {d e : Dev} (h : e.ctl.mbx = d.ctl.mbx) (k : Nat) : e.mbx k = d.mbx k := by simp [Dev.mbx, h]

section
variable (x : Option Side) (v : Nat) (d : Dev)
@[simp] theorem signalParty_ctl : (signalParty x v d).ctl = d.ctl := by cases x <;> simp [signalParty]
@[simp] theorem signalParty_mem : (signalParty x v d).mem = d.mem := by cases x <;> simp [signalParty]
@[simp] theorem signalParty_q : (signalParty x v d).q = d.q := by cases x <;> simp [signalParty]
end

section
variable (p : Side) (e : AerError) (d : Dev)
@[simp] theorem aerLog_ctl : (aerLog p e d).ctl = d.ctl := by unfold aerLog; dsimp only; split <;> rfl
@[simp] theorem aerLog_mem : (aerLog p e d).mem = d.mem := by unfold aerLog; dsimp only; split <;> rfl
@[simp] theorem aerLog_q : (aerLog p e d).q = d.q := by unfold aerLog; dsimp only; split <;> rfl
end

/-- A mailbox after an operation that leaves the mailboxes as one change of it made them. -/
theorem mbx_of_onMbx {d e : Dev} {k : Nat} {f : Mailbox → Mailbox} (hk : k < d.ctl.mbx.length) (h : e.ctl = (d.onMbx k f).ctl) : e.mbx k = f (d.mbx k) :=
  (mbx_congr (congrArg Ctl.mbx h) k).trans (Dev.mbx_onMbx hk f)

/-- A mailbox changed alone: the other mailboxes, the Hasps, memory and the queue pairs stay. -/
def Dev.MbxAlone (d : Dev) (k : Nat) (e : Dev) : Prop :=
  (∀ j, j ≠ k → e.mbx j = d.mbx j) ∧ e.ctl.hasps = d.ctl.hasps ∧ e.mem = d.mem ∧ e.q = d.q

theorem Dev.MbxAlone.of_onMbx {d e : Dev} {k : Nat} {f : Mailbox → Mailbox} (hc : e.ctl = (d.onMbx k f).ctl) (hm : e.mem = d.mem) (hq : e.q = d.q) :
    d.MbxAlone k e :=
  ⟨fun _ hj => (mbx_congr (by rw [hc]) _).trans (Dev.mbx_onMbx_other hj d f), by rw [hc]; rfl, hm, hq⟩

section
variable {d : Dev} {k : Nat} {a : Agent} (hk : k < 6)
include hk

theorem devMbxDataWrite_empty (hparty : isParty d a (mbxSender k) = true) (hempty : (d.mbx k).full = false) (w : BitVec 64) :
    devMbxDataWrite a k w d = signalParty (mbxReceiver k) 1 (d.onMbx k fun m => { m with word := w, full := true }) := by
  simp [devMbxDataWrite, Nat.not_le.2 hk, hparty, hempty]

theorem devMbxDataWrite_port_full {p : Side} (hparty : isParty d (.port p) (mbxSender k) = true) (hfull : (d.mbx k).full = true) (w : BitVec 64) :
    devMbxDataWrite (.port p) k w d = aerLog p .completerAbort (count 0x0304 p.idx none 1 (d.onMbx k fun m => { m with reject := true })) := by
  simp [devMbxDataWrite, Nat.not_le.2 hk, hparty, hfull]

theorem devMbxDataWrite_die_full {x : Side} (hparty : isParty d (.die x) (mbxSender k) = true) (hfull : (d.mbx k).full = true) (w : BitVec 64) :
    devMbxDataWrite (.die x) k w d = emit (.dieBusError x) d := by
  simp [devMbxDataWrite, Nat.not_le.2 hk, hparty, hfull]

theorem mbxTake_full (hparty : isParty d a (mbxReceiver k) = true) (hfull : (d.mbx k).full = true) :
    mbxTake a k d = ((d.mbx k).word, signalParty (mbxSender k) 2 (d.onMbx k fun m => { m with word := 0#64, full := false, taken := true })) := by
  simp [mbxTake, hk, hparty, hfull]

theorem devWithdraw_full (hlen : k < d.ctl.mbx.length) (hparty : isParty d a (mbxSender k) = true) (hfull : (d.mbx k).full = true) :
    devWithdraw a k d = d.onMbx k fun m => { m with word := 0#64, full := false } := by
  simp only [devWithdraw, Nat.not_le.2 hk, hparty, if_false, Bool.not_true, Bool.false_eq_true]
  exact Dev.onMbx_congr hlen (by simp [hfull])

theorem mbxAt_data {h : Nat} (hh : h < 8) : mbxAt (0x20000 + 32 * k + h) = some k := by
  have hdiv : (0x20000 + 32 * k + h - 0x20000) / 32 = k := by omega
  simp only [mbxAt, hdiv]
  rw [if_pos (by simp; omega)]

/-- A read of a mailbox's word by a host port. -/
theorem devMbxDataRead_mailbox {p : Side} {h size : Nat} (hh : h < 8) (hgood : accessBad (0x20000 + 32 * k + h) size = false) {v : BitVec 64} {e : Dev}
    (htake : mbxTake (.port p) k d = (v, e)) :
    devMbxDataRead (.port p) ⟨0x20000 + 32 * k + h, size⟩ d =
      emit (.regRead p (if size = 8 then v else halfWord v ((0x20000 + 32 * k + h) % 8 = 4))) e := by
  have hdie : dieOf (0x20000 + 32 * k + h) = none := by simp only [dieOf]; rw [if_neg (by simp; omega)]
  have has : assigned (0x20000 + 32 * k + h) = true := by simp only [assigned]; simp; omega
  rw [devMbxDataRead_port (.inr hdie)]
  simp only [busRead, hgood, has, regRead, mbxAt_data hk hh, htake, answerRead]
  rw [if_neg (by omega)]
  simp

/-- A read of a mailbox's word by a control die. -/
theorem devMbxDataRead_die {x : Side} {v : BitVec 64} {e : Dev} (htake : mbxTake (.die x) k d = (v, e)) :
    devMbxDataRead (.die x) ⟨0x20000 + 32 * k, 8⟩ d = emit (.dieRead x v) e := by
  have hgood : accessBad (0x20000 + 32 * k) 8 = false := accessBad_of_aligned (.inr rfl) (by omega)
  have hat := mbxAt_data (h := 0) hk (by decide)
  rw [Nat.add_zero] at hat
  simp only [devMbxDataRead, busRead, hgood, regRead, hat, htake, answerRead]
  rw [if_neg (by simp; omega)]
  simp
end

theorem mbxTake_nothing {d : Dev} {a : Agent} {k : Nat} (h : isParty d a (mbxReceiver k) = false ∨ (d.mbx k).full = false) : mbxTake a k d = (0#64, d) := by
  rcases h with h | h <;> simp [mbxTake, h]

/-- Settles O13: each access by what it does to an empty or a full mailbox. -/
theorem mailboxRules : Obligations.MailboxRules := by
  unfold Obligations.MailboxRules
  intro s k w hon hk hlen rest at_ taken word
  have hk' : k < s.dev.ctl.mbx.length := hlen ▸ hk
  have hport {p : Side} {x : Option Side} (h : x = some p) : isParty s.dev (.port p) x = true := by simp [isParty, h]
  have hdie {y : Side} {x : Option Side} (hl : leader s.dev = some y) (h : x = none) : isParty s.dev (.die y) x = true := by simp [isParty, h, hl]
  have hsent {a : Agent} (hparty : isParty s.dev a (mbxSender k) = true) (hempty : (s.dev.mbx k).full = false) :
      Completes (.mbxDataWrite a k w) s fun d => d.mbx k = { s.dev.mbx k with word := w, full := true } ∧ rest d := by
    refine .of_live hon rfl ?_
    rw [devMbxDataWrite_empty hk hparty hempty]
    exact ⟨mbx_of_onMbx hk' (signalParty_ctl _ _ _), Dev.MbxAlone.of_onMbx (signalParty_ctl _ _ _) (by simp) (by simp)⟩
  refine ⟨fun p hp hempty => hsent (hport hp) hempty, fun p hp hfull => ?_, fun p hp hfull => ?_, fun p h => ?_, fun p hp hfull => ?_, fun hfull => ?_, ?dies⟩
  · refine .of_live hon rfl ?_
    rw [devMbxDataWrite_port_full hk (hport hp) hfull]
    exact ⟨mbx_of_onMbx (f := fun m => { m with reject := true }) hk' (by simp),
      Dev.MbxAlone.of_onMbx (f := fun m => { m with reject := true }) (by simp) (by simp) (by simp)⟩
  · have htake : mbxTake (.port p) k s.dev = (word, taken) := mbxTake_full hk (hport hp) hfull
    have hread (h size : Nat) (hh : h < 8) (hgood : accessBad (0x20000 + 32 * k + h) size = false) :=
      Settles.of_mbxDataRead (s := s) hon (devMbxDataRead_mailbox hk hh hgood htake)
    have hmod (h : Nat) : (0x20000 + 32 * k + h) % 8 = h % 8 := by omega
    refine ⟨?_, ?_, ?_⟩
    · exact hread 0 8 (by decide) (accessBad_of_aligned (.inr rfl) (by omega))
    · have := hread 0 4 (by decide) (accessBad_of_aligned (.inl rfl) (by omega))
      rw [hmod] at this
      exact this
    · have := hread 4 4 (by decide) (accessBad_of_aligned (.inl rfl) (by omega))
      rw [hmod] at this
      exact this
  · have htake : mbxTake (.port p) k s.dev = (0#64, s.dev) := by
      refine mbxTake_nothing (h.imp_left fun h => ?_)
      cases hr : mbxReceiver k with
      | none => rfl
      | some q => simpa [isParty, hr, eq_comm] using h
    exact .of_mbxDataRead hon (devMbxDataRead_mailbox (h := 0) hk (by decide) (accessBad_of_aligned (.inr rfl) (by omega)) htake)
  · exact .of_live hon rfl (devWithdraw_full hk hk' (hport hp) hfull)
  · refine .of_live hon rfl ?_
    rw [devMbxTimeout, if_pos hfull]
    exact ⟨mbx_of_onMbx (f := fun m => { m with timeout := true }) hk' (by simp),
      Dev.MbxAlone.of_onMbx (f := fun m => { m with timeout := true }) (by simp) (by simp) (by simp)⟩
  case dies =>
    intro x hl
    refine ⟨fun hs hempty => hsent (hdie hl hs) hempty, fun hs hfull => ⟨.of_live hon rfl ?_, .of_live hon rfl ?_⟩, fun hr hfull => ?_, fun hr hempty => ?_⟩
    · exact devMbxDataWrite_die_full hk (hdie hl hs) hfull w
    · exact devWithdraw_full hk hk' (hdie hl hs) hfull
    · exact .of_mbxDataRead hon (devMbxDataRead_die hk (mbxTake_full hk (hdie hl hr) hfull))
    · exact .of_mbxDataRead hon (devMbxDataRead_die hk (mbxTake_nothing (.inr hempty)))

end Sys2Proof.Machine
end

section
/-! SUPPORT. Doorbells of the tenant page (O14). -/

namespace Sys2Proof.Machine

theorem crossOr_open {u : Flit} {what : Arrived} {f : Dev → Dev} {d : Dev} {entry : Nat} (h : Crosses d u entry) : crossOr u what f d entry = f d := by
  unfold Crosses at h
  simp [crossOr, h]

theorem crossOr_shut {u : Flit} {what : Arrived} {f : Dev → Dev} {d : Dev} {entry : Nat} (h : ¬ Crosses d u entry) :
    crossOr u what f d entry = d.onFab fun x => { x with crossings := x.crossings ++ [⟨u, entry, none, what⟩] } := by
  unfold Crosses at h
  simp [crossOr, h]

theorem bivAbort_active {d : Dev} (h : d.pwr.state = .active) : bivAbort d = d := by
  simp [bivAbort, h]

section
variable {d : Dev} {p : Side} {rq : BitVec 16} {n : Nat} {t : Tenant} (hact : d.pwr.state = .active) (hpage : pageTenant d p rq n = some t) (ht : t.st = .active)
include hact hpage ht

/-- A doorbell whose ring's tile can be reached takes effect there. -/
theorem devBell_lands {kind : Nat} {num i : BitVec 16} {arm : Bool} {o : Nat} (htile : bellTile kind num.toNat = some o)
    (hcross : Crosses d (bellFlow p o) inHost) : devBell p rq n kind num i arm d = bellLand p n kind num.toNat i.toNat arm d := by
  simp only [devBell, hpage, ht, hact, bivAbort_active hact, htile]
  simp [crossOr_open hcross]

theorem devBell_waits {kind : Nat} {num i : BitVec 16} {arm : Bool} {o : Nat} (htile : bellTile kind num.toNat = some o)
    (hcross : ¬ Crosses d (bellFlow p o) inHost) : devBell p rq n kind num i arm d =
      d.onFab fun x => { x with crossings := x.crossings ++ [⟨bellFlow p o, inHost, none, .bell p rq n kind num i arm⟩] } := by
  simp only [devBell, hpage, ht, hact, bivAbort_active hact, htile]
  simp [crossOr_shut hcross]

/-- A doorbell of an event ring lands at the host interface. -/
theorem devBell_event {num i : BitVec 16} {arm : Bool} : devBell p rq n 3 num i arm d = bellLand p n 3 num.toNat i.toNat arm d := by
  simp only [devBell, hpage, ht, hact, bivAbort_active hact, bellTile]
  simp
end

theorem devBell_wrongPort {d : Dev} {p : Side} {rq : BitVec 16} {n : Nat} (h : pageTenant d p rq n = none) (kind : Nat) (num i : BitVec 16) (arm : Bool) :
    devBell p rq n kind num i arm d = hostWrongPort p d := by
  simp only [devBell, h]

theorem bellLand_taken {d e : Dev} {n kind num i : Nat} {arm : Bool} (h : bellApply n kind num i arm d = some e) (p : Side) :
    bellLand p n kind num i arm d = count 0x030F p.idx (some n) 1 e := by
  simp only [bellLand, h]

theorem bellLand_rejected {d : Dev} {n kind num i : Nat} {arm : Bool} (h : bellApply n kind num i arm d = none) (p : Side) :
    bellLand p n kind num i arm d = bellReject n d := by
  simp only [bellLand, h]

/-- A ring that does not stand takes an index that it admits. -/
theorem bellRing_ok {dead : Bool} {s i : Nat} {r : WorkRing} (h : prodOk s r.p r.c i = true) : bellRing false dead s i r = some { r with p := i } := by
  simp [bellRing, h]

theorem bellRing_bad {dead : Bool} {s i : Nat} {r : WorkRing} (h : prodOk s r.p r.c i = false) : bellRing false dead s i r = none := by
  simp [bellRing, h]

section
variable {d : Dev} {n num i : Nat}

/-- A send doorbell of the tenant's RTS queue pair, by what its ring says. -/
theorem bellApply_sq {q : Qp} (hq : d.qp? num = some q) (hten : q.par.tenant = n) (hst : q.st = .rts) :
    bellApply n 0 num i false d = (bellRing q.par.sqStanding false (sqSize q) i q.sq).map fun r => d.onQp num fun q => { q with sq := r } := by
  simp [bellApply, hq, hten, hst]

theorem bellApply_rq {q : Qp} (hq : d.qp? num = some q) (hten : q.par.tenant = n) (hst : q.st = .rts) (hrq : q.par.noRq = false) :
    bellApply n 1 num i false d = (bellRing q.par.rqStanding false (rqSize q) i q.rq).map fun r => d.onQp num fun q => { q with rq := r } := by
  simp [bellApply, hq, hten, hst, hrq]

/-- A consumer index of a completion queue takes effect: held entries are written. -/
theorem bellApply_cq {c : Cq} (hc : d.cq? num = some c) (hten : c.tenant = n) (hok : consOk (cqSize c) c.p c.c i = true) :
    bellApply n 2 num i false d = some (cqDrain num (d.onCq num fun x => { x with c := i, timer := x.timer && x.c = i })) := by
  simp [bellApply, hc, hten, hok]

/-- An arm applies its index first. -/
theorem bellApply_armCq {c : Cq} (hc : d.cq? num = some c) (hten : c.tenant = n) (hok : consOk (cqSize c) c.p c.c i = true) :
    bellApply n 2 num i true d = some (armCq num (cqDrain num (d.onCq num fun x => { x with c := i, timer := x.timer && x.c = i }))) := by
  simp [bellApply, hc, hten, hok]

theorem bellApply_event {t : Tenant} (ht : d.ten? n = some t) (hok : consOk (evSize t) t.ev.p t.ev.c i = true) :
    bellApply n 3 0 i false d = some (eventDrain n (d.onTen n fun x => { x with ev := { x.ev with c := i } })) := by
  simp [bellApply, ht, hok]

theorem bellApply_armEv {t : Tenant} (ht : d.ten? n = some t) (hok : consOk (evSize t) t.ev.p t.ev.c i = true) :
    bellApply n 3 0 i true d = some (armEv n (eventDrain n (d.onTen n fun x => { x with ev := { x.ev with c := i } }))) := by
  simp [bellApply, ht, hok]
end

/-- Settles O14: a doorbell that lands (`devBell_lands`, `devBell_event`) takes effect as its ring admits (`bellApply_sq` and the others); one that
cannot cross waits, and one from a wrong port is discarded. -/
theorem doorbellsTake : Obligations.DoorbellsTake := by
  unfold Obligations.DoorbellsTake
  refine ⟨?taken, fun d n c hc hv => ?arm, fun s p rq n num i a hon hnone => ?wrong⟩
  case taken =>
    intro s p rq n num i t hon hact hpage ht
    refine ⟨fun q hcross hq hten hst => ⟨fun hstand hok => ?_, fun hrq hstand hok => ?_, fun hstand hbad => ?_⟩, ?cq, fun hshut a => ?_, ?ev, ?arms⟩
    · refine .of_liveQ hon rfl ((devBell_lands hact hpage ht rfl hcross).trans (bellLand_taken ?_ p))
      rw [bellApply_sq hq hten hst, hstand, bellRing_ok hok]
      rfl
    · refine .of_liveQ hon rfl ((devBell_lands hact hpage ht rfl hcross).trans (bellLand_taken ?_ p))
      rw [bellApply_rq hq hten hst hrq, hstand, bellRing_ok hok]
      rfl
    · refine .of_liveQ hon rfl ((devBell_lands hact hpage ht rfl hcross).trans (bellLand_rejected ?_ p))
      rw [bellApply_sq hq hten hst, hstand, bellRing_bad hbad]
      rfl
    case cq =>
      intro c hcross hc hten hok moved
      have hland (arm : Bool) := devBell_lands (i := i) (arm := arm) hact hpage ht (kind := 2) rfl hcross
      exact ⟨.of_liveQ (f := devBell p rq n 2 num i false) hon rfl ((hland false).trans (bellLand_taken (bellApply_cq hc hten hok) p)),
        .of_liveQ (f := devBell p rq n 2 num i true) hon rfl ((hland true).trans (bellLand_taken (bellApply_armCq hc hten hok) p))⟩
    · exact .of_liveQ (f := devBell p rq n 0 num i a) hon rfl (devBell_waits hact hpage ht rfl hshut)
    case ev =>
      exact fun hten hok => .of_liveQ (f := devBell p rq n 3 0#16 i false) hon rfl
        ((devBell_event hact hpage ht).trans (bellLand_taken (bellApply_event hten hok) p))
    case arms =>
      exact fun hten hok => .of_liveQ (f := devBell p rq n 3 0#16 i true) hon rfl
        ((devBell_event hact hpage ht).trans (bellLand_taken (bellApply_armEv hten hok) p))
  case arm =>
    refine ⟨fun heq => ?_, fun hne => ?_⟩
    · simp [armCq, hc, hv, heq]
    · simp [armCq, hc, hv, hne]
  case wrong => exact ⟨.of_liveQ hon rfl (devBell_wrongPort hnone 0 num i a), .of_liveQ hon rfl (devBell_wrongPort hnone 2 num i false)⟩

end Sys2Proof.Machine
end

section
/-! SUPPORT. Completions of device reads: where their data go, how a request fails, and what a violation leaves as it was (R386, R415). -/

namespace Sys2Proof.Machine

@[simp] theorem violate_q {p : Side} {src : Nat} {esc : Bool} {d : Dev} : (violate p src esc d).q = d.q := by
  unfold violate
  dsimp only
  (repeat' split) <;> simp [Dev.onHost]

@[simp] theorem violate_fab {p : Side} {src : Nat} {esc : Bool} {d : Dev} : (violate p src esc d).fab = d.fab := by
  unfold violate
  dsimp only
  (repeat' split) <;> simp [Dev.onHost]

@[simp] theorem aerLog_fab {p : Side} {e : AerError} {d : Dev} : (aerLog p e d).fab = d.fab := by
  unfold aerLog
  dsimp only
  split <;> rfl

/-- An error without a header is only counted. -/
theorem aerLog_counted {p : Side} {e : AerError} {d : Dev} (he : aerHeader e = false) :
    aerLog p e d = d.onHost p fun h => { h with aer := { h.aer with counts := aerAdd e h.aer.counts } } := by simp [aerLog, he]

section
variable {d : Dev} {tag x l : Nat} {r : HostReq} {t : Xfer}

/-- Where a host read is served and what asks for it depend on the queue pairs and the fabric alone. -/
theorem hostOwner_congr {e : Dev} (hq : e.q = d.q) (u : HostUse) : hostOwner e u = hostOwner d u := by simp [hostOwner, hq]

/-- The way from the host tile back to the tile that asked for the leg. -/
abbrev hostFlow (d : Dev) (r : HostReq) (x l : Nat) : Flit :=
  ⟨.rsp, (hostTile d r.port (hostOwner d (.leg x l))).getD (hostOwner d (.leg x l)), hostOwner d (.leg x l)⟩

/-- Data that can cross reach their tile. -/
theorem hostDelivers_open (hr : d.q.hostReqs.get? tag = some r) (hu : r.use = .leg x l) (b : Bytes) (bad : Option (List Nat))
    (hc : Crosses d (hostFlow d r x l) inHost) : hostDelivers tag b bad d = hostArrived tag b bad r d := by
  simp only [hostDelivers, hr, hu]
  exact crossOr_open hc

/-- Data that cannot cross yet wait in order. -/
theorem hostDelivers_shut (hr : d.q.hostReqs.get? tag = some r) (hu : r.use = .leg x l) (b : Bytes) (bad : Option (List Nat))
    (hc : ¬ Crosses d (hostFlow d r x l) inHost) :
    hostDelivers tag b bad d = d.onFab fun f => { f with crossings := f.crossings ++ [⟨hostFlow d r x l, inHost, none, .completion tag b bad⟩] } := by
  simp only [hostDelivers, hr, hu]
  exact crossOr_shut hc

/-- The transfer whose leg was refused ends LOCAL_ACCESS. -/
theorem hostWorkFail_leg (ht : d.q.xfers.get? x = some t) :
    hostWorkFail (.leg x l) ccLocalAccess 0x10 d = endBad t.qpn t.idx ccLocalAccess 0x10 (d.onQ fun q => { q with xfers := q.xfers.erase x }) := by
  simp [hostWorkFail, ht]

/-- A leg's request that failed is counted, its transfer ends and its place is free (R21, R386, R415). -/
theorem hostFailed_leg {src : Nat} {aer : Side → Dev → Dev} (hr : d.q.hostReqs.get? tag = some r) (hs : r.sent = true) (hu : r.use = .leg x l)
    (ht : d.q.xfers.get? x = some t) (haer : ∀ p e, (aer p e).q = e.q) :
    hostFailed (.req tag) src aer d = placeFreed (endBad t.qpn t.idx ccLocalAccess 0x10
      ((aer r.port (violate r.port src true (takeReq tag d))).onQ fun q => { q with xfers := q.xfers.erase x })) := by
  have hkeep : (aer r.port (violate r.port src true (takeReq tag d))).q.xfers.get? x = some t := by simpa [haer, takeReq, Dev.onQ] using ht
  simp only [hostFailed, hr, hs, if_true, hu, hostWorkFail_leg hkeep]

end

/-- Settles O17: the data's way (`hostDelivers_open`, `hostDelivers_shut`), the failure of a request (`hostFailed_leg`) and AER (`aerLog_host`). -/
theorem hostCompletions : Obligations.HostCompletions := by
  unfold Obligations.HostCompletions
  refine ⟨?legs, ?violations⟩
  case legs =>
    intro s tag x l b g r t hon hr hs hu ht
    refine ⟨fun hc => ?_, fun hc => ?_, ?_, fun hdue => ?_, fun hc => ?_⟩
    · refine .of_liveQ hon rfl ?_
      simp only [devHostCompletion, hr, hs, if_true, hostDelivers_open hr hu b none hc]
      simp [hostArrived, hu, hostData, takeReq]
    · refine .of_liveQ hon rfl ?_
      simp only [devHostCompletion, hr, hs, if_true, hostDelivers_shut hr hu b none hc]
    · exact .of_liveQ hon rfl (hostFailed_leg hr hs hu ht fun _ _ => rfl)
    · refine .of_liveQ hon rfl ?_
      have hdue' : timedOut s.dev (.req tag) = true := by simpa [timedOut, hr] using hdue
      rw [devCompletionTimeout, if_pos hdue', hostFailed_leg hr hs hu ht fun p e => aerLog_q p _ e, aerLog_counted rfl]
      rfl
    · refine .of_liveQ hon rfl ?_
      have hq : (aerLog r.port .poisonedTlp (violate r.port 0x0306 true s.dev)).q = s.dev.q := by simp
      have hflow : hostFlow (aerLog r.port .poisonedTlp (violate r.port 0x0306 true s.dev)) r x l = hostFlow s.dev r x l := by
        simp [hostFlow, hostOwner_congr hq, hostTile]
      have hcross : Crosses (aerLog r.port .poisonedTlp (violate r.port 0x0306 true s.dev))
          (hostFlow (aerLog r.port .poisonedTlp (violate r.port 0x0306 true s.dev)) r x l) inHost := by
        rw [hflow]
        simpa [Crosses] using hc
      simp only [devPoisonedCompletion, hr, hs, Bool.not_true, Bool.false_eq_true, if_false, hostDelivers_open (hq ▸ hr) hu b (some g) hcross]
      simp [hostArrived, hu, hostData, takeReq]
  case violations =>
    intro s p hon
    refine ⟨.of_live hon rfl rfl, .of_live hon rfl rfl, fun d => ?_⟩
    obtain ⟨h, hh⟩ := aerLog_host d p .unexpectedCompletion
    obtain ⟨g, hg⟩ := aerLog_host d p .poisonedTlp
    exact ⟨h, g, hh, hg⟩

end Sys2Proof.Machine
end

section
/-! SUPPORT. The management sideband (R413, R414, R435, R581). -/

namespace Sys2Proof.Machine

/-- A service of the centre die completes with the rails on. -/
theorem Completes.of_powered {c : Instr} {s : State} {f : Dev → Dev} {Q : Dev → Prop} (hon : s.dev.On) (hc : exec c s = onDev s (powered f)) (hQ : Q (f s.dev)) :
    Completes c s Q := ⟨_, Gives.of_powered hon hc rfl, rfl, hQ⟩

/-- A reason of ALERT_N that is dropped is gone. -/
theorem dropAlert_gone (n : Nat) (d : Dev) : n ∉ (dropAlert n d).ctl.alerts := by simp [dropAlert, Dev.onCtl]

theorem devMctpControl_asked {msg : Bytes} (he : eidSet msg = none) (d : Dev) :
    devMctpControl msg d = emit (.sideband (0x00#8 :: Config.dmtfAnswer 0 (toLE 1 d.ctl.side.eid.toNat ++ msg))) d := by simp [devMctpControl, he]

theorem devMctpControl_set {msg : Bytes} {e : BitVec 8} (he : eidSet msg = some e) (d : Dev) :
    devMctpControl msg d = emit (.sideband (0x00#8 :: Config.dmtfAnswer 0 (toLE 1 e.toNat ++ msg))) (d.onSide fun x => { x with eid := e }) := by
  simp [devMctpControl, he, Dev.onSide, Dev.onCtl]

/-- The head of the queue leaves as an In-Band Interrupt, and the reason ends with the last. -/
theorem devIbiAccept_head {d : Dev} {v : Nat} {rest : List Nat} (hv : d.ctl.side.ibi = v :: rest) :
    (devIbiAccept d).ctl.side.ibi = rest ∧ .ibi v ∈ (devIbiAccept d).out ∧ (rest = [] → alIbi ∉ (devIbiAccept d).ctl.alerts) := by
  simp only [devIbiAccept, hv]
  split
  · exact ⟨rfl, by simp [emit, dropAlert, Dev.onCtl], fun _ => dropAlert_gone _ _⟩
  · exact ⟨rfl, by simp [emit], fun h => absurd h ‹_›⟩

/-- Settles O18: each row's own branch. -/
theorem sidebandRules : Obligations.SidebandRules := by
  unfold Obligations.SidebandRules
  refine ⟨fun s a msg hon => ⟨?entdaa, ?static, ?foreign, ?asked, ?set, ?pldm, ?ibi⟩, ?request⟩
  case entdaa => exact .of_powered hon rfl rfl
  case static => exact .of_powered hon rfl (by simp [devEntdaa])
  case foreign => exact fun b hb => .of_powered hon rfl (by simp [devEntdaa, hb])
  case asked => exact fun he => .of_powered hon rfl (devMctpControl_asked he _)
  case set => exact fun e he => .of_powered hon rfl (devMctpControl_set he _)
  case pldm => exact .of_powered hon rfl rfl
  case ibi =>
    intro v rest hv
    have hsome : s.dev.ctl.side.ibi ≠ [] := by simp [hv]
    refine ⟨.of_powered hon rfl (devIbiAccept_head hv), .of_powered hon rfl ?_⟩
    rw [devIbiDisabledTimeout, if_neg hsome]
    exact ⟨dropAlert_gone _ _, rfl⟩
  case request =>
    intro s body hon hcmd hreq
    refine .of_live hon rfl ?_
    simp [devSidebandRequest, slice, hcmd, hreq]

end Sys2Proof.Machine
end

section
/-! SUPPORT. The cairn ring's registers and the epoch rule of a replicated-table write (R39, R40, R182, R186 to R189). -/

namespace Sys2Proof.Machine

/-- A change of one port's translation state may use what that state is. -/
theorem Dev.onXPort_congr {d : Dev} {p : Side} {f g : XltPort → XltPort} (h : f (d.xlt.ports.get p) = g (d.xlt.ports.get p)) : d.onXPort p f = d.onXPort p g := by
  simp [Dev.onXPort, Dev.onXlt, Pair.upd, h]

section
variable {d : Dev} {tile : Nat} {e : BitVec 32} {x : TableWrite}

theorem unitsOf_gt (htile : tile < 8) (x : TableWrite) : ¬ unitsOf x ≤ tile := by
  cases x <;> simp [unitsOf] <;> omega

theorem tableWrite_stale (hup : tileUp d tile = true) (htile : tile < 8) (hlow : seqDiff e (nth d.fab.tileEpoch tile 0#32) < 0) :
    tableWrite tile e x d = emit (.staleEpoch tile (nth d.fab.tileEpoch tile 0#32)) (d.onFab fun f => { f with staleCount := modAt f.staleCount tile (· + 1) }) := by
  simp [tableWrite, unitUp, hup, htile, unitsOf_gt htile x, hlow]

theorem tableWrite_unheld (hup : tileUp d tile = true) (htile : tile < 8) (hhigh : 0 < seqDiff e (nth d.fab.tileEpoch tile 0#32)) (he : e ≠ leadEpoch d) :
    tableWrite tile e x d = d := by
  have hne : seqDiff e (nth d.fab.tileEpoch tile 0#32) ≠ 0 := by omega
  have hlow : ¬ seqDiff e (nth d.fab.tileEpoch tile 0#32) < 0 := by omega
  simp [tableWrite, unitUp, hup, htile, unitsOf_gt htile x, hlow, hne, he]

theorem tableWrite_applies (hup : tileUp d tile = true) (htile : tile < 8)
    (he : e = nth d.fab.tileEpoch tile 0#32 ∨ 0 < seqDiff e (nth d.fab.tileEpoch tile 0#32) ∧ e = leadEpoch d) :
    tableWrite tile e x d = replAck tile x (applyWrite tile x (d.onFab fun f => { f with tileEpoch := modAt f.tileEpoch tile fun _ => e })) := by
  have hlow : ¬ seqDiff e (nth d.fab.tileEpoch tile 0#32) < 0 := by
    rcases he with rfl | ⟨hpos, -⟩
    · simp [seqDiff]
    · omega
  have hheld : ¬ (seqDiff e (nth d.fab.tileEpoch tile 0#32) ≠ 0 ∧ e ≠ leadEpoch d) := by
    rcases he with rfl | ⟨-, hlead⟩
    · simp [seqDiff]
    · exact fun h => h.2 hlead
  simp only [tableWrite, unitUp, hup, htile, unitsOf_gt htile x]
  rw [if_neg (by simp), if_neg hlow, if_neg (by simpa using hheld)]

end

/-- Settles O19: the registers by their own branch, a table write by its epoch (`tableWrite_stale`, `tableWrite_unheld`, `tableWrite_applies`). -/
theorem cairnRegisters : Obligations.CairnRegisters := by
  unfold Obligations.CairnRegisters
  refine ⟨?registers, ?writes⟩
  case registers =>
    intro s p v hon
    refine ⟨fun hoff => ?_, fun hen => ?_, fun hlt hle => ?_, fun hbad => ?_, ?_⟩
    · refine .of_live hon rfl ?_
      rw [devXltCairnEnable, if_neg (by simp)]
      exact congrArg _ (Dev.onXPort_congr (by simp [hoff]))
    · refine .of_live hon rfl ?_
      rw [devXltCairnDisable, if_neg (by simp)]
      exact Dev.onXPort_congr (by simp [hen])
    · refine .of_live hon rfl ?_
      simp [devXltCairnConsWrite, hlt, hle]
    · refine .of_live hon rfl ?_
      rw [devXltCairnConsWrite, if_neg (by simp)]
      exact if_neg (by simp; omega)
    · refine .of_live hon rfl ?_
      rw [devXltCairnConsWrite, if_pos (by cases p <;> simp [Side.other])]
  case writes =>
    intro s tile w e x hon hup htile
    refine ⟨fun hlow => .of_live hon rfl (congrArg windowsEnd (tableWrite_stale hup htile hlow)),
      fun hhigh he => .of_live hon rfl (congrArg windowsEnd (tableWrite_unheld hup htile hhigh he)), fun he => ?_⟩
    have happly (x : TableWrite) := congrArg windowsEnd (tableWrite_applies (x := x) hup htile he)
    exact ⟨.of_live hon rfl (happly _), .of_live hon rfl (happly _), fun n b => .of_live hon rfl (happly _)⟩

end Sys2Proof.Machine
end

section
/-! SUPPORT. The counterexample to the cairn timer's answer while no die leads (R161, R164, R165). -/

namespace Sys2Proof.Machine

/-- A local queue pair that has flushed all it held. -/
def flushedQp : Qp := { par := ⟨0, .loc, 0, false, false, true, 0#64, 0#64, 4, 4, 0, 0⟩, st := .flushing }

/-- A running device without a leader, with one queue pair that has flushed all it held. -/
def unledFlushed : State := { pending := [], dev := { pwr := { rails := .on }, q := { qps := [(0, flushedQp)] } } }

/-- Refutes O20: while no die leads CAIRN_TIMER answers the device as it is, releasing nothing, where the statement asks for what releasing makes of it:
from `unledFlushed` the queue pair stays FLUSHING, and releasing takes it to ERROR. -/
theorem not_walksAndFaults : ¬ Obligations.WalksAndFaults := by
  unfold Obligations.WalksAndFaults
  intro h
  obtain ⟨-, -, -, hunled, -⟩ := h unledFlushed 0 0 0#64 (.sqFetch 0) .west rfl
  have hstays : exec (.cairnTimer .west) unledFlushed = .next unledFlushed := rfl
  injection hstays.symm.trans (hunled rfl) with hstate
  exact absurd (congrArg (fun s : State => (s.dev.qp? 0).map (·.st)) hstate) (by decide)

end Sys2Proof.Machine
end

section
/-! SUPPORT. Host translations: ATS, its invalidations, and PRI (R163, R171, R175). -/

namespace Sys2Proof.Machine

section
variable {d : Dev} {p : Side}

/-- A whole translation with the right that was asked for becomes one run entry, and its stream goes on (R163). -/
theorem devAtsCompletion_granted {tag : Nat} {r : AtsReq} {c : AtsCpl} (hr : d.xlt.ats.get? tag = some r) (hp : r.port = p) (hs : r.sent = true)
    (hrec : r.record = none) (hpre : r.prefetch = none) (hpow : isPow2 c.size = true) (hsize : 4096 ≤ c.size) (hpres : c.present = true)
    (hright : (if r.who.write then c.write else c.read) = true) :
    devAtsCompletion p tag c d = resume r.who.who (addRun r.who.tile ⟨r.tenant, r.addr / c.size * c.size, c.size, c.addr / c.size * c.size, true, c.read, c.write⟩
        ((d.onXlt fun x => { x with ats := x.ats.erase tag }).onTile r.who.tile fun x =>
          { x with runs := x.runs.filter fun e => !(e.host && e.tenant = r.tenant && meets e.addr e.len (r.addr / c.size * c.size) c.size) })) := by
  simp [devAtsCompletion, hr, hp, hs, hrec, hpre, hpow, hsize, hpres, hostRetry, hright]

/-- A response to a group of one record asks the translation again for its first waiter (R171). -/
theorem devPriResponse_success {i k : Nat} {g : PriGroup} {r : FaultRec} {w : Waiting} {ws : List Waiting}
    (hg : (d.xlt.ports.get p).groups.find? (fun g => g.index = i && g.sent) = some g) (hk : g.recs = [k]) (hr : d.xlt.recs.get? k = some r)
    (hw : r.waiters = w :: ws) :
    devPriResponse p i .success d = priSend p (askAts w.tile r.tenant (r.page * 4096) r.write w.who (some k)
      (d.onXPort p fun x => { x with groups := x.groups.filter fun h => h.index ≠ i })) := by
  simp [devPriResponse, hg, hk, hr, hw, Dev.onXPort, Dev.onXlt]

/-- A PASID that no tenant has holds no translation (R175). -/
theorem devAtsInvalidation_foreign {pasid a n : Nat} (h : ∀ k t, (k, t) ∈ d.ten.tenants → ¬ (t.par.port = p ∧ t.par.pasid = some pasid)) :
    devAtsInvalidation p pasid a n d = emit (.invalDone p) d := by
  have hnone : d.ten.tenants.find? (fun (_, t) => t.par.port = p && t.par.pasid = some pasid) = none :=
    List.find?_eq_none.2 fun ⟨k, t⟩ hmem => by simpa using h k t hmem
  simp only [devAtsInvalidation, hnone]

end

/-- Settles O21: each row's own branch. -/
theorem hostTranslations : Obligations.HostTranslations := by
  unfold Obligations.HostTranslations
  intro s p hon
  refine ⟨?completion, ?invalidation, ?response, .of_live hon rfl rfl⟩
  case completion =>
    exact fun tag r c hr hp hs hrec hpre hpow hsize hpres hright =>
      .of_liveQ hon rfl (devAtsCompletion_granted hr hp hs hrec hpre hpow hsize hpres hright)
  case invalidation => exact fun pasid a n h => .of_live hon rfl (devAtsInvalidation_foreign h)
  case response => exact fun i g k r w ws hg hk hr hw => .of_liveQ hon rfl (devPriResponse_success hg hk hr hw)

end Sys2Proof.Machine
end

section
/-! SUPPORT. MAP_RANGE and UNMAP_RANGE (R158, R159, R172, R173). -/

namespace Sys2Proof.Machine

/-- A command that is in its slot runs on after it leaves it to other rows. -/
theorem CmdBegun.runs_leave {d e : Dev} {c : CmdSlot} {op : Nat} {p : Bytes} (hb : CmdBegun d c op p) (he : e.ctl = d.ctl) (work : List Nat) :
    CmdRuns (leave c work e) c op := by
  obtain ⟨hl, m, hm, -, hop, -⟩ := hb
  have hm' : cmdAt e c = some m := (cmdAt_congr he c).trans hm
  have hl' : (leader e).isSome = true := by rwa [leader_congr he]
  rw [leave, onCmd_at hm']
  refine ⟨?_, _, slot_exists hm' _, rfl, hop⟩
  simpa using hl'

-- MAP_RANGE

/-- MAP_RANGE of a range that nothing meets, of an allocation that holds it, within the tenant's quota, adds its mapping. -/
theorem CmdBegun.devMapRange_eq {d e : Dev} {c : CmdSlot} {p : Bytes} {ten : Tenant} {a : Alloc} (hb : CmdBegun d c 0x0303 p)
    (hchk : firstBad (mapChk p d) = none) (ht : d.ten? (u32 p 0) = some ten) (hm : mgmtOk c ten = true) (hst : ten.st = .active)
    (ha : d.alloc? (u32 p 4) = some a) (hz : a.zeroing = false) (hown : a.tenant = u32 p 0) (hfits : u64 p 0x10 + u64 p 0x18 ≤ allocUnits a * unitBytes)
    (hpage : pageOf (u8 p 0x20) = 30 → a.huge = true)
    (hfree : (tabOf d (u32 p 0)).maps.any (fun x => meets x.dva x.len (u64 p 8 % 2 ^ 48) (u64 p 0x18)) = false)
    (hunmap : unmapOver d (u32 p 0) (u64 p 8 % 2 ^ 48 + 2 ^ 63) (u64 p 0x18) = false) :
    let m : Mapping := { dva := u64 p 8 % 2 ^ 48, len := u64 p 0x18, handle := u32 p 4, off := u64 p 0x10, page := pageOf (u8 p 0x20),
                         read := tb (u8 p 0x21) 0, write := tb (u8 p 0x21) 1 }
    let need := (tablesOf m).filter fun n => !(tablesHeld (tabOf d (u32 p 0))).contains n
    memUsed d (u32 p 0) + 2 * newExtents (tabOf d (u32 p 0)) need.length ≤ ten.par.memUnits → placeTables (u32 p 0) need d = some e →
      devMapRange c d = answer c stDone 0 none none (onTab (u32 p 0) (fun x => { x with maps := insMap x.maps m }) e) := by
  intro m need hquota hplace
  rw [devMapRange, hb.runChk_eq _ _ hchk]
  dsimp only
  rw [withTenant_active ht hm hst]
  simp only [ha, hz, hown, hfree, hunmap, Bool.false_eq_true, if_false, not_lt.2 hfits, ne_eq, not_true_eq_false]
  rw [if_neg (by simpa using hpage)]
  refine (if_neg (not_lt.2 hquota)).trans ?_
  rw [show placeTables (u32 p 0) ((tablesOf m).filter fun n => !(tablesHeld (tabOf d (u32 p 0))).contains n) d = some e from hplace]
  rfl

-- UNMAP_RANGE

/-- What a cut leaves of a mapping meets nothing of the cut range. -/
theorem cutMapping_apart (m x : Mapping) (a n : Nat) (hx : x ∈ cutMapping m a (a + n)) : meets x.dva x.len a n = false := by
  unfold cutMapping at hx
  split at hx
  case isTrue hapart =>
    rw [List.mem_singleton] at hx
    subst hx
    simp only [Bool.or_eq_true, decide_eq_true_eq] at hapart
    simp only [meets, Bool.and_eq_false_iff, decide_eq_false_iff_not]
    omega
  case isFalse =>
    rcases List.mem_append.1 hx with hx | hx <;> split at hx <;> simp only [List.mem_singleton, List.not_mem_nil] at hx <;> subst hx <;>
      simp only [meets, Bool.and_eq_false_iff, decide_eq_false_iff_not] <;> omega

/-- The run entries that an invalidation leaves in one tile. -/
def runsKept (t a n : Nat) (x : TileXlt) : TileXlt := { x with runs := x.runs.filter fun e => !(e.tenant = t && meets e.addr e.len a n) }

/-- The invalidation at one tile, counted. -/
def invalAt (t a n : Nat) (d : Dev) (k : Nat) : Dev := count 0x0807 k (some t) 1 (d.onTile k (runsKept t a n))

theorem invalAt_tables (t a n : Nat) (d : Dev) (k : Nat) : (invalAt t a n d k).xlt.tables = d.xlt.tables := by simp [invalAt, Dev.onTile, Dev.onXlt]
theorem invalAt_ctl (t a n : Nat) (d : Dev) (k : Nat) : (invalAt t a n d k).ctl = d.ctl := by simp [invalAt, Dev.onTile, Dev.onXlt]

theorem invalAt_tile (t a n : Nat) (d : Dev) (k j : Nat) :
    (invalAt t a n d k).tile j = if j = k ∧ k < d.xlt.tiles.length then runsKept t a n (d.tile j) else d.tile j := by
  have hx : (invalAt t a n d k).xlt.tiles = modAt d.xlt.tiles k (runsKept t a n) := by simp [invalAt, Dev.onTile, Dev.onXlt]
  simp only [Dev.tile, hx]
  split
  case isTrue h => rw [h.1, nth_modAt_self _ _ _ _ h.2]
  case isFalse h =>
    by_cases hj : j = k
    · subst hj
      have hlen : d.xlt.tiles.length ≤ j := Nat.le_of_not_lt fun hlt => h ⟨rfl, hlt⟩
      simp [nth, List.getElem?_eq_none hlen, List.getElem?_eq_none (show (modAt d.xlt.tiles j (runsKept t a n)).length ≤ j by simpa using hlen)]
    · exact nth_modAt_other _ _ _ _ _ hj

/-- No run entry of the tenant in the range is left in the tile. -/
def Dev.NoRuns (t a n k : Nat) (d : Dev) : Prop := ∀ e ∈ (d.tile k).runs, ¬ (e.tenant = t ∧ meets e.addr e.len a n = true)

theorem invalAt_noRuns_self (t a n k : Nat) (d : Dev) : (invalAt t a n d k).NoRuns t a n k := by
  intro e he
  rw [invalAt_tile] at he
  split at he
  case isTrue => simpa [runsKept, not_and, or_iff_not_imp_left] using (List.mem_filter.1 he).2
  case isFalse h =>
    have hlen : d.xlt.tiles.length ≤ k := by simpa using h
    simp [Dev.tile, nth, List.getElem?_eq_none hlen] at he

theorem Dev.NoRuns.invalAt {t a n k : Nat} {d : Dev} (h : d.NoRuns t a n k) (j : Nat) : (invalAt t a n d j).NoRuns t a n k := by
  intro e he
  rw [invalAt_tile] at he
  split at he
  · exact h e (List.mem_filter.1 he).1
  · exact h e he

theorem invals_noRuns {t a n k : Nat} {l : List Nat} (hk : k ∈ l) (d : Dev) : (l.foldl (invalAt t a n) d).NoRuns t a n k := by
  induction l generalizing d with
  | nil => cases hk
  | cons j l ih =>
    rcases List.mem_cons.1 hk with rfl | hk
    · exact foldl_ind (Dev.NoRuns t a n k) _ (fun d j h => h.invalAt j) l _ (invalAt_noRuns_self t a n k d)
    · exact ih hk _

section
variable {t a n : Nat} {ats : Option Side} {cmd : Option CmdSlot} {hs : List Nat} {nothing : Bool} {d : Dev}

/-- An invalidation takes the run entries out of every live tile. -/
theorem startInval_noRuns {k : Nat} (hk : tileUp d k = true) (hlt : k < 8) : (startInval t a n ats cmd hs nothing d).NoRuns t a n k :=
  invals_noRuns (List.mem_filter.2 ⟨List.mem_range.2 hlt, hk⟩) d

theorem startInval_tables : (startInval t a n ats cmd hs nothing d).xlt.tables = d.xlt.tables :=
  foldl_keeps (fun d : Dev => d.xlt.tables) _ (invalAt_tables t a n) _ d

theorem startInval_ctl : (startInval t a n ats cmd hs nothing d).ctl = d.ctl := foldl_keeps Dev.ctl _ (invalAt_ctl t a n) _ d

end

/-- What UNMAP_RANGE makes of a tenant's tables: the mappings cut, the tables that none needs dropped. -/
def rangeCut (t a n : Nat) (d : Dev) : Dev :=
  dropTables t (onTab t (fun x => { x with maps := x.maps.flatMap (cutMapping · a (a + n)), lost := cutLost x.lost a (a + n) }) d)

theorem rangeCut_maps (t a n : Nat) (d : Dev) : (tabOf (rangeCut t a n d) t).maps = (tabOf d t).maps.flatMap (cutMapping · a (a + n)) := by
  simp [rangeCut, dropTables, tabOf, onTab, Dev.onXlt, Tab.getD, Tab.get?_set_self]

theorem rangeCut_ctl (t a n : Nat) (d : Dev) : (rangeCut t a n d).ctl = d.ctl := rfl
theorem rangeCut_fab (t a n : Nat) (d : Dev) : (rangeCut t a n d).fab = d.fab := rfl
theorem rangeCut_pwr (t a n : Nat) (d : Dev) : (rangeCut t a n d).pwr = d.pwr := rfl

/-- UNMAP_RANGE of a range that splits no page and meets no window and no other unmap cuts the mappings and begins the invalidation. -/
theorem CmdBegun.devUnmapRange_eq {d : Dev} {c : CmdSlot} {p : Bytes} {ten : Tenant} (hb : CmdBegun d c 0x0304 p) (hdva : isDva (u64 p 8) = true)
    (hform : fld (u64 p 8) 48 15 = 0) (haddr : u64 p 8 % 4096 = 0) (hlen : u64 p 0x10 % 4096 = 0) (hend : u64 p 8 % 2 ^ 48 + u64 p 0x10 ≤ 2 ^ 48)
    (hn : u32 p 0 < 256) (h4 : u32 p 4 = 0) (ht : d.ten? (u32 p 0) = some ten) (hm : mgmtOk c ten = true) (hst : ten.st = .active)
    (hfirst : splitsPage d (u32 p 0) (u64 p 8 % 2 ^ 48) = false) (hlast : splitsPage d (u32 p 0) (u64 p 8 % 2 ^ 48 + u64 p 0x10) = false)
    (hunmap : unmapOver d (u32 p 0) (u64 p 8 % 2 ^ 48 + 2 ^ 63) (u64 p 0x10) = false)
    (hwin : d.xlt.windows.any (fun (_, w) => w.tenant = u32 p 0 && meets w.dva w.len (u64 p 8 % 2 ^ 48) (u64 p 0x10)) = false) :
    let hit := (tabOf d (u32 p 0)).maps.filter fun m => meets m.dva m.len (u64 p 8 % 2 ^ 48) (u64 p 0x10)
    devUnmapRange c d = leave c [] (startInval (u32 p 0) (u64 p 8 % 2 ^ 48 + 2 ^ 63) (u64 p 0x10) none (some c) (hit.map (·.handle)).dedup hit.isEmpty
      (rangeCut (u32 p 0) (u64 p 8 % 2 ^ 48) (u64 p 0x10) d)) := by
  intro hit
  rw [devUnmapRange, hb.runChk_eq _ _ (by simpa [firstBad, hdva, hform, haddr, hlen, hn, h4] using hend)]
  dsimp only
  rw [withTenant_active ht hm hst]
  simp only [hfirst, hlast, hunmap, hwin, Bool.false_eq_true, if_false]
  rfl

/-- Settles O22: `CmdBegun.devMapRange_eq`, and of `CmdBegun.devUnmapRange_eq` that a cut mapping lies apart (`cutMapping_apart`) and that every live tile has
dropped its runs (`startInval_noRuns`). -/
theorem mappingCommands : Obligations.MappingCommands := by
  unfold Obligations.MappingCommands
  intro s c p ten hon ht hm hst
  refine ⟨?map, ?unmap⟩
  case map =>
    intro hb hchk m a e ha hz hown hfits hpage hfree hunmap need hquota hplace
    exact .of_live hon rfl (hb.devMapRange_eq hchk ht hm hst ha hz hown hfits hpage hfree hunmap hquota hplace)
  case unmap =>
    intro hb hdva hform haddr hlen hend hn h4 a n hfirst hlast hunmap hwin
    refine .of_live hon rfl ?_
    rw [hb.devUnmapRange_eq hdva hform haddr hlen hend hn h4 ht hm hst hfirst hlast hunmap hwin]
    refine ⟨fun m hmem hmeets => ?_, fun k hk _ hlt => ?_, hb.runs_leave (startInval_ctl.trans (rangeCut_ctl _ _ _ _)) _⟩
    · rw [tabOf, leave_xlt, startInval_tables] at hmem
      obtain ⟨x, -, hx⟩ := List.mem_flatMap.1 ((rangeCut_maps _ _ _ s.dev) ▸ hmem)
      exact absurd ((cutMapping_apart x m a n hx).symm.trans hmeets) nofun
    · have hup : tileUp (rangeCut (u32 p 0) a n s.dev) k = true := by simpa only [tileUp, Dev.tileLive, rangeCut_fab, rangeCut_pwr] using hk
      rw [Dev.tile, leave_xlt]
      exact startInval_noRuns hup hlt

end Sys2Proof.Machine
end

section
/-! SUPPORT. CAIRN_RESOLVE and the end of invalidations (R169, R172 to R174). -/

namespace Sys2Proof.Machine

/-- Checks of which none is wrong have no first wrong one. -/
theorem firstBad_of_all {l : List (Nat × Bool)} (h : ∀ x ∈ l, x.2 = true) : firstBad l = none := by
  induction l with
  | nil => rfl
  | cons x l ih => rw [firstBad, if_pos (h x List.mem_cons_self), ih fun y hy => h y (List.mem_cons_of_mem _ hy)]

/-- Of a list whose records are of device addresses and of the submitting port, CAIRN_RESOLVE resolves each (R169). -/
theorem CmdBegun.devCairnResolve_eq {d e : Dev} {c : CmdSlot} {p : Bytes} {l : List (Nat × Bool)} (hb : CmdBegun d c 0x0305 p) (h4 : u32 p 4 = 0)
    (hform : ∀ k < u32 p 0, u8 p (12 + 8 * k) ≤ 1 ∧ zeros p (13 + 8 * k) 3 = true)
    (hl : l = (List.range (u32 p 0)).map fun k => (u32 p (8 + 8 * k), decide (u8 p (12 + 8 * k) = 1)))
    (hown : ∀ x ∈ l, ∀ r, d.xlt.recs.get? x.1 = some r → r.host = false ∧ some r.port = slotPort c) (he : resolveAll l false d = (false, e)) :
    devCairnResolve c d = answer c stDone 0 none none e := by
  have hchk : firstBad ((4, decide (u32 p 4 = 0)) :: (List.range (u32 p 0)).flatMap fun k =>
      [(12 + 8 * k, decide (u8 p (12 + 8 * k) ≤ 1)), (13 + 8 * k, zeros p (13 + 8 * k) 3)]) = none := by
    refine firstBad_of_all fun x hx => ?_
    rcases List.mem_cons.1 hx with rfl | hx
    · simpa using h4
    · obtain ⟨k, hk, hx⟩ := List.mem_flatMap.1 hx
      obtain ⟨hlow, hzero⟩ := hform k (List.mem_range.1 hk)
      rcases List.mem_pair.1 hx with rfl | rfl
      · simpa using hlow
      · exact hzero
  have hown' : l.any (fun (i, _) => match d.xlt.recs.get? i with
      | some r => !r.host && some r.port ≠ slotPort c
      | none => false) = false := by
    refine List.any_eq_false.2 fun x hx => ?_
    cases hr : d.xlt.recs.get? x.1 with
    | none => simp [hr]
    | some r => simp [hr, (hown x hx r hr).2]
  rw [devCairnResolve, hb.runChk_eq _ _ hchk]
  dsimp only
  rw [← hl, he]
  exact if_neg (by simp only [Bool.not_eq_true]; exact hown')

section
variable {d : Dev} {i tile : Nat} {v : Invalidation} {c : CmdSlot} (hv : d.xlt.invs.get? i = some v) (htiles : v.tiles = [tile])
include hv htiles

/-- The last tile's acknowledgement ends an invalidation and answers its command (R172, R173). -/
theorem ackTile_last (hats : v.ats = none) (hcmd : v.cmd = some c) :
    ackTile tile i d = answerIf c 0x0304 (if v.aborted || v.nothing then stNote else stDone) none ((d.onXlt fun x => { x with invs := x.invs.upd i fun v =>
        { v with tiles := v.tiles.filter (· ≠ tile), marked := v.marked.filter fun m => m.tile ≠ tile } }).onXlt fun x => { x with invs := x.invs.erase i }) := by
  simp [ackTile, invalDone, Dev.onXlt, Tab.get?_upd_self, hv, htiles, hats, hcmd]

theorem devInvalidationAck_done (hjobs : d.ciph.jobs.any (jobMeets v.tenant v.addr v.len) = false)
    (hmarks : (v.marked.filter fun m => m.tile = tile).all (markDone d v) = true) : devInvalidationAck tile i d = ackTile tile i d := by
  simp only [devInvalidationAck, hv, htiles, hjobs, hmarks]
  rw [if_pos (by simp)]

/-- An abort ends a marked entry that still runs and marks the invalidation (R174). -/
theorem devUnmapAbort_entry {n j : Nat} (hmarked : v.marked = [⟨tile, .entry n j, 0, []⟩]) (hruns : markDone d v ⟨tile, .entry n j, 0, []⟩ = false) :
    devUnmapAbort tile i d = ackTile tile i ((failJobs (jobMeets v.tenant v.addr v.len) ccLocalAccess 0
      (failWaiter (.entry n j) ccLocalAccess 0x12 (d.onQ fun q => { q with xfers := q.xfers.filter fun (_, t) => !(t.qpn = n && t.idx = j) }))).onXlt fun x =>
        { x with invs := x.invs.upd i fun v => { v with aborted := true } }) := by
  simp [devUnmapAbort, hv, htiles, hmarked, hruns, abortMarked]

end

/-- Settles O23: `CmdBegun.devCairnResolve_eq`, `ackTile_last` and `devUnmapAbort_entry`. -/
theorem faultsAndInvalidations : Obligations.FaultsAndInvalidations := by
  unfold Obligations.FaultsAndInvalidations
  intro s c hon
  refine ⟨fun p l e hb h4 hform hl hown he => .of_liveQ hon rfl (hb.devCairnResolve_eq h4 hform hl hown he), fun i v tile hv htiles hats hcmd => ⟨?ack, ?abort⟩⟩
  case ack =>
    exact fun hjobs hmarks => .of_liveQ hon rfl ((devInvalidationAck_done hv htiles hjobs hmarks).trans (ackTile_last hv htiles hats hcmd))
  case abort => exact fun n j hmarked hruns => .of_liveQ hon rfl (devUnmapAbort_entry hv htiles hmarked hruns)

end Sys2Proof.Machine
end

section
/-! SUPPORT. Windows: opening, revoking, the drain and the query (R40, R176 to R185). -/

namespace Sys2Proof.Machine

-- The number and the key of a new window

theorem findFrom_holds {p : Nat → Bool} {n k w : Nat} (h : findFrom p n k = some w) : p w = true := by
  induction n generalizing k with
  | zero => cases h
  | succ n ih =>
    simp only [findFrom] at h
    split at h
    · rwa [← Option.some.inj h]
    · exact ih h

theorem freeWindow_free {d : Dev} {w : Nat} (h : freeWindow d = some w) : d.win? w = none := by simpa using findFrom_holds h

/-- Of three keys in a row at most two are 0 or the last key. -/
theorem freshKey_fresh (last : BitVec 32) (v : BitVec 64) : freshKey last v ≠ 0#32 ∧ freshKey last v ≠ last := by
  unfold freshKey
  simp only [Bool.not_eq_true', Bool.or_eq_false_iff, decide_eq_false_iff_not]
  split
  · assumption
  · split
    · assumption
    · constructor <;> bv_omega

-- The stretch that a window covers

theorem coverN_mono {d : Dev} {t : Nat} {f g : Mapping → Bool} (hfg : ∀ m, f m = true → g m = true) {k a n : Nat} (h : coverN d t f k a n = true) :
    coverN d t g k a n = true := by
  induction k generalizing a n with
  | zero => exact h
  | succ k ih =>
    simp only [coverN] at h ⊢
    split
    · rfl
    · rw [if_neg ‹_›] at h
      split at h
      · cases h
      · obtain ⟨hm, hrest⟩ := Bool.and_eq_true_iff.1 h
        exact Bool.and_eq_true_iff.2 ⟨hfg _ hm, ih hrest⟩

theorem covered_mono {d : Dev} {t a n : Nat} {f g : Mapping → Bool} (hfg : ∀ m, f m = true → g m = true) (h : covered d t a n f = true) :
    covered d t a n g = true := coverN_mono hfg h

-- What the answer to a replicated write leaves alone

@[simp] theorem replSettle_xlt (d : Dev) : (replSettle d).xlt = d.xlt :=
  foldl_keeps Dev.xlt _ (fun d r => by cases r.reply <;> simp) _ _

@[simp] theorem replSend_xlt (ws : List TableWrite) (reply : Option ReplyDue) (d : Dev) : (replSend ws reply d).xlt = d.xlt := by simp [replSend]

@[simp] theorem replFinish_xlt (c : CmdSlot) (op st : Nat) (res : Option (Nat × Bytes)) (ws : List TableWrite) (d : Dev) :
    (replFinish c op st res ws d).xlt = d.xlt := by simp [replFinish]

/-- Windows and their last keys depend on the translation state alone. -/
theorem Dev.win?_congr {d e : Dev} (h : e.xlt = d.xlt) (w : Nat) : e.win? w = d.win? w := by simp [Dev.win?, h]

section
variable {d : Dev} {c : CmdSlot} {p : Bytes}

theorem nth_replicate_self {α : Type} (n k : Nat) (x : α) : nth (List.replicate n x) k x = x := by
  rw [nth, List.getElem?_replicate]
  split <;> rfl

/-- A window opens with the range and rights given, a fresh key, and no tile's view. -/
theorem openWindow_spec (w t dva len rights mode peer : Nat) (d : Dev) :
    (∃ x, (openWindow w t dva len rights mode peer d).win? w = some x ∧ x.tenant = t ∧ x.dva = dva ∧ x.len = len ∧ x.closing = false
      ∧ x.rights = BitVec.ofNat 4 rights ∧ x.key ≠ 0#32 ∧ x.key ≠ d.xlt.lastKey.getD w 0#32 ∧ ∀ k, nth x.views k .free = .free)
    ∧ ∀ v, v ≠ w → (openWindow w t dva len rights mode peer d).win? v = d.win? v := by
  obtain ⟨hzero, hlast⟩ := freshKey_fresh (d.xlt.lastKey.getD w 0#32) (takeFree (drbgDraw 16 1 d)).1
  refine ⟨⟨_, Tab.get?_set_self _ _ _, rfl, rfl, rfl, rfl, rfl, hzero, hlast, fun k => ?_⟩, fun v hv => Tab.get?_set_other _ _ _ _ hv⟩
  exact nth_replicate_self 8 k _

/-- What WINDOW_OPEN that passes its checks and quotas makes of the windows: it opens the lowest free number. -/
theorem CmdBegun.devWindowOpen_xlt {ten : Tenant} {w : Nat} (hb : CmdBegun d c 0x0401 p) (hkeys : keysFlow d = true) (hchk : firstBad (windowOpenChk c p d) = none)
    (ht : d.ten? (u32 p 0) = some ten) (hm : mgmtOk c ten = true) (hst : ten.st = .active)
    (hunmap : unmapOver d (u32 p 0) (u64 p 8 % 2 ^ 48 + 2 ^ 63) (u64 p 0x10) = false)
    (hcov : covered d (u32 p 0) (u64 p 8 % 2 ^ 48) (u64 p 0x10) (fun m => m.read && m.write) = true)
    (hcount : (tenWindows d (u32 p 0)).length < ten.par.winCount) (hslabs : slabsUsed d (u32 p 0) + ceilDiv (u64 p 0x10) (2 ^ 30) ≤ ten.par.winSlabs)
    (hw : freeWindow d = some w) :
    (devWindowOpen c d).xlt = (openWindow w (u32 p 0) (u64 p 8 % 2 ^ 48) (u64 p 0x10) (u8 p 0x18) (u8 p 0x19) (u16 p 0x1A) d).xlt := by
  have hmapped : covered d (u32 p 0) (u64 p 8 % 2 ^ 48) (u64 p 0x10) (fun _ => true) = true := covered_mono (fun _ _ => rfl) hcov
  have hrights : covered d (u32 p 0) (u64 p 8 % 2 ^ 48) (u64 p 0x10) (fun m =>
      (!(tb (u8 p 0x18) 0 || tb (u8 p 0x18) 3 || tb (u8 p 0x18) 2) || m.read) && (!(tb (u8 p 0x18) 1 || tb (u8 p 0x18) 2) || m.write)) = true := by
    refine covered_mono (fun m h => ?_) hcov
    obtain ⟨hr, hwr⟩ := Bool.and_eq_true_iff.1 h
    simp [hr, hwr]
  rw [devWindowOpen, if_pos hkeys, hb.runChk_eq _ _ hchk]
  dsimp only
  rw [withTenant_active ht hm hst, if_neg (by rw [hunmap]; decide), if_neg (by rw [hmapped]; decide), if_neg (by rw [hrights]; decide), if_neg (by omega),
    if_neg (by omega), hw]
  simp

/-- WINDOW_REVOKE makes an open window CLOSING and waits for its drain. -/
theorem CmdBegun.devWindowRevoke_eq {ten : Tenant} {v : Window} (hb : CmdBegun d c 0x0402 p) (hn : u32 p 0 < 256) (hw : u32 p 4 < 16384)
    (ht : d.ten? (u32 p 0) = some ten) (hm : mgmtOk c ten = true) (hv : d.win? (u32 p 4) = some v) (hown : v.tenant = u32 p 0) (hopen : v.closing = false) :
    devWindowRevoke c d = leave c [u32 p 4] (d.onXlt fun x =>
      { x with windows := x.windows.upd (u32 p 4) fun v => { v with closing := true, cmd := some c } }) := by
  rw [devWindowRevoke, hb.runChk_eq _ _ (by simp [firstBad, hn, hw])]
  dsimp only
  rw [withTenant_managed ht hm]
  simp [hv, hown, hopen]

theorem devWindowDrained_idle {w : Nat} {v : Window} (hv : d.win? w = some v) (hc : v.closing = true) (hf : v.freeing = false) (hidle : windowIdle d v = true)
    (hl : (leader d).isSome) : devWindowDrained w d = windowsEnd (freeWindows (fun n _ => n = w) none d) := by
  simp [devWindowDrained, hv, hc, hf, hidle, Option.isNone_eq_false_iff.2 hl]

/-- WINDOW_QUERY of every tenant writes the windows from START on. -/
theorem CmdBegun.devWindowQuery_all (hb : CmdBegun d c 0x0403 p) (hn : u32 p 0 = 0xFFFFFFFF) (ha : addrOk c (u64 p 8) 64 = true) (hlo : 1 ≤ u32 p 0x10)
    (hhi : u32 p 0x10 ≤ 16384) :
    let sel := (d.xlt.windows.filter fun (w, _) => u32 p 4 ≤ w).take (u32 p 0x10)
    devWindowQuery c d = answer c stDone 0 (some (u64 p 8, toLE 4 d.xlt.windows.length ++ toLE 4 sel.length ++ zpad 8 ++ sel.flatMap windowEntry)) none d := by
  rw [devWindowQuery, hb.runChk_eq _ _ (by simp [firstBad, hn, ha, hlo, hhi])]
  simp [hn, finishRes]

end

-- Windows that every live tile holds FREE

/-- Where the last window alone may be free, releasing ends it or does nothing. -/
theorem windowsEnd_last {d : Dev} {l : Tab Window} {w : Nat} {v : Window} (hl : d.xlt.windows = l ++ [(w, v)]) (hkept : ∀ x ∈ l, windowFreed d x.2 = false) :
    windowsEnd d = if windowFreed d v then windowEnd w v d else d := by
  have hskip : l.foldl (fun d (x : Nat × Window) => if windowFreed d x.2 then windowEnd x.1 x.2 d else d) d = d := by
    clear hl
    induction l with
    | nil => rfl
    | cons x l ih =>
      rw [List.foldl_cons, if_neg (by simp [hkept x List.mem_cons_self])]
      exact ih fun y hy => hkept y (List.mem_cons_of_mem _ hy)
  rw [windowsEnd, hl, List.foldl_append]
  exact congrArg (fun e : Dev => if windowFreed e v then windowEnd w v e else e) hskip

/-- Settles O24: `CmdBegun.devWindowOpen_xlt` with `openWindow_spec`, `CmdBegun.devWindowRevoke_eq`, `devWindowDrained_idle`, `CmdBegun.devWindowQuery_all`
and `windowsEnd_last`. -/
theorem windowRules : Obligations.WindowRules := by
  unfold Obligations.WindowRules
  refine ⟨?opens, ?others, ?ends, ?freed⟩
  case opens =>
    intro s c p ten hon hkeys hb hchk ht hm hst t a n hunmap hcov hcount hslabs w hw
    refine .of_live hon rfl ?_
    have hwin := Dev.win?_congr (hb.devWindowOpen_xlt hkeys hchk ht hm hst hunmap hcov hcount hslabs hw)
    obtain ⟨⟨x, hx, hspec⟩, hothers⟩ := openWindow_spec w (u32 p 0) (u64 p 8 % 2 ^ 48) (u64 p 0x10) (u8 p 0x18) (u8 p 0x19) (u16 p 0x1A) s.dev
    obtain ⟨hten, hdva, hlen, hclosing, hrights, hzero, hlast, hviews⟩ := hspec
    exact ⟨freeWindow_free hw, x, (hwin w).trans hx, hten, hdva, hlen, hclosing, hrights, hzero, hlast, hviews, fun v hv => (hwin v).trans (hothers v hv)⟩
  case others =>
    intro s c p hon
    refine ⟨fun ten v hb hn hw ht hm hv hown hopen => .of_live hon rfl (hb.devWindowRevoke_eq hn hw ht hm hv hown hopen),
      fun w v hv hc hf hidle hl => .of_liveQ hon rfl (devWindowDrained_idle hv hc hf hidle hl),
      fun hb hn ha hlo hhi => .of_live hon rfl (hb.devWindowQuery_all hn ha hlo hhi)⟩
  case ends =>
    intro d l w v hl hkept
    refine ⟨fun hf => ?_, fun hf => ?_⟩
    · rw [windowsEnd_last hl hkept, if_pos hf, windowEnd]
      cases v.cmd <;> rfl
    · rw [windowsEnd_last hl hkept, if_neg (by simp [hf])]
  case freed =>
    intro d v
    simp [windowFreed, or_iff_not_imp_left]

end Sys2Proof.Machine
end

section
/-! SUPPORT. The queues between the dies: a queue's record under a change, sending, returning credits, paths and segments (R14 to R22, R27, R28). -/

namespace Sys2Proof.Machine

-- A queue's record

theorem queueAt_id (f : Fab) (q : QueueId) : (queueAt f q).id = q := by
  unfold queueAt
  cases h : f.queues.find? fun c => c.id = q with
  | none => rfl
  | some c => simpa using List.find?_some h

/-- A record that says something is the queue's record from then on. -/
theorem queueAt_setQueue {f : Fab} {c : CreditQ} (hkept : c.units ≠ [] ∨ c.logged ≠ none) : queueAt (setQueue f c) c.id = c := by
  have hrest : (f.queues.filter fun x => x.id ≠ c.id).find? (fun x => x.id = c.id) = none := by
    simp [List.find?_eq_none]
  have hset : (setQueue f c).queues = (f.queues.filter fun x => x.id ≠ c.id) ++ [c] := by
    have hcond : (c.units = [] && c.held = 0 && !c.resetting && c.logged.isNone) = false := by
      rcases hkept with h | h
      · simp [h]
      · cases hl : c.logged <;> simp_all
    simp only [setQueue, hcond, Bool.false_eq_true, if_false]
  rw [queueAt, hset, List.find?_append, hrest]
  simp

theorem queueAt_congr {f g : Fab} (h : g.queues = f.queues) (q : QueueId) : queueAt g q = queueAt f q := by simp [queueAt, h]

-- CREDIT_QUEUE_SEND

/-- A queue that ends in a base die, a switch or a pool is the path of no flow. -/
theorem sendFlow_inner {q : QueueId} (hb : isBridge q = false) (hl : isLink q = false) : sendFlow q = none := by
  simp only [isBridge, isLink, Bool.or_eq_false_iff, decide_eq_false_iff_not] at hb hl
  obtain ⟨h8, h9⟩ := hb
  obtain ⟨h6, h7⟩ := hl
  simp only [sendFlow]
  rw [if_neg]
  simp only [Bool.and_eq_true, decide_eq_true_eq, not_and]
  intro _
  unfold bridgeRow linkRow
  (repeat' split) <;> assumption

section
variable {d : Dev} {q : QueueId} {depth : Nat} (hdepth : queueDepth q = some depth) (hb : isBridge q = false) (hl : isLink q = false)
include hdepth hb hl

theorem devCreditQueueSend_out (hr : (queueAt d.fab q).resetting = false) (hh : (queueAt d.fab q).held = 0) (hout : unitsOut d q < depth)
    (hroom : ∀ r, rspQueue q = some r → rspRoom d r = true) :
    devCreditQueueSend q d = d.onFab fun f =>
      let f := setQueue f { queueAt d.fab q with units := (queueAt d.fab q).units ++ [⟨⟨q.cls, 0, 0⟩, none⟩], since := now d, logged := none }
      { f with rsp := f.rsp ++ (rspQueue q).toList } := by
  have hout' : ¬ depth ≤ unitsOut d q := Nat.not_le.2 hout
  cases hrsp : rspQueue q with
  | none => simp [devCreditQueueSend, sendFlow_inner hb hl, hdepth, hb, hl, hh, unitOut, hr, hout', hrsp, pushUnit, Dev.onFab]
  | some r => simp [devCreditQueueSend, sendFlow_inner hb hl, hdepth, hb, hl, hh, unitOut, hr, hout', hrsp, hroom r hrsp, pushUnit, Dev.onFab]

theorem devCreditQueueSend_held (hno : (queueAt d.fab q).resetting = true ∨ (queueAt d.fab q).held ≠ 0 ∨ depth ≤ unitsOut d q) :
    devCreditQueueSend q d = d.onFab fun f => setQueue f { queueAt d.fab q with
      held := (queueAt d.fab q).held + 1, since := if (queueAt d.fab q).held = 0 then now d else (queueAt d.fab q).since } := by
  by_cases hh : (queueAt d.fab q).held = 0
  · have hstay : (queueAt d.fab q).resetting = true ∨ depth ≤ unitsOut d q := by
      rcases hno with h | h | h
      · exact .inl h
      · exact absurd hh h
      · exact .inr h
    have hout : unitOut q d = none := by rcases hstay with h | h <;> simp [unitOut, hdepth, h]
    simp [devCreditQueueSend, sendFlow_inner hb hl, hdepth, hb, hl, hh, hout]
  · simp [devCreditQueueSend, sendFlow_inner hb hl, hdepth, hb, hl, hh]

end

/-- Between tiles a unit goes by the path of its flow. -/
theorem devCreditQueueSend_flow {d : Dev} {q : QueueId} {u : Flit} (hu : sendFlow q = some u) (hs : d.tileLive u.src = true) (hd : d.tileLive u.dst = true) :
    devCreditQueueSend q d = d.onFab fun f => flowSend1 (now d) f ⟨u, now d⟩ := by simp [devCreditQueueSend, hu, hs, hd]

-- Credits that come back

section
variable {d : Dev} {q : QueueId}

theorem devCreditReturn_ignored (h : (queueAt d.fab q).resetting = true ∨ (queueAt d.fab q).units = [] ∨ reqWithheld d q = true) : devCreditReturn q d = d := by
  simp only [devCreditReturn]
  split
  · rfl
  · rcases h with h | h | h <;> simp_all

theorem devCreditStall_logs (hd : (queueDepth q).isSome = true) (hh : heldUnits d q ≠ 0) (hl : (queueAt d.fab q).logged = none) :
    (queueAt (devCreditStall q d).fab q).logged = some (now d) ∧ (devCreditStall q d).q = d.q ∧ (devCreditStall q d).mem = d.mem
      ∧ (devCreditStall q d).eng = d.eng := by
  have hrec := queueAt_setQueue (f := d.fab) (c := { queueAt d.fab q with logged := some (now d) }) (.inr (by simp))
  rw [queueAt_id] at hrec
  dsimp only at hrec
  simp only [devCreditStall, hl, hh, Option.isNone_eq_false_iff.2 hd]
  simpa [Dev.onFab, now] using congrArg CreditQ.logged hrec

end

-- Paths

theorem nextHop_link {f : Fab} {q : QueueId} (u : Sent) (h : isLink q = true ∨ isBridge q = true) :
    ∃ e, queueEnd q = some e ∧ nextHop f q u = some (some (switchIn q.cls e (inPort q))) := by
  obtain ⟨e, he⟩ : ∃ e, queueEnd q = some e := Option.isSome_iff_exists.1 (by rcases h with h | h <;> by_cases hl : isLink q = true <;> simp [queueEnd, h, hl])
  have hsw : isSwitch q = false := by
    simp only [isLink, isBridge, isSwitch, Bool.or_eq_true, Bool.or_eq_false_iff, decide_eq_true_eq, decide_eq_false_iff_not] at h ⊢
    omega
  exact ⟨e, he, by simp [nextHop, he, hsw]⟩

section
variable {t : Nat} {f : Fab} {u : Flit} {q : QueueId} {path : List QueueId} (hroute : route f u = some (q :: path))
include hroute

theorem flowSend1_out (hfirst : ∀ w ∈ f.waiting, w.flit ≠ u) (hstray : strayUnit f u (q :: path) = false) (hc : hasCredit f q = true)
    (hroom : u.cls = .req → rspCount f (flowRsp u) < rspDepth (flowRsp u)) :
    (queueAt (flowSend1 t f ⟨u, t⟩) q).units = (queueAt f q).units ++ [aim f u] := by
  have hnone : (f.waiting.any fun x => x.flit = u) = false := by simpa using hfirst
  have hrsp : (u.cls = .req && rspDepth (flowRsp u) ≤ rspCount f (flowRsp u)) = false := by
    by_cases hu : u.cls = .req
    · simp [hu, hroom hu]
    · simp [hu]
  have hrec := queueAt_setQueue (f := f) (c := pushUnit t (aim f u) (queueAt f q)) (.inl (by simp [pushUnit]))
  rw [show (pushUnit t (aim f u) (queueAt f q)).id = q from queueAt_id f q] at hrec
  simp only [flowSend1, hnone, hroute, hstray, hc, hrsp, Bool.false_eq_true, if_false, Bool.not_true, Bool.or_self]
  split
  · exact congrArg CreditQ.units ((queueAt_congr (f := setQueue f (pushUnit t (aim f u) (queueAt f q))) rfl q).trans hrec)
  · exact congrArg CreditQ.units hrec

theorem flowSend1_waits (hc : hasCredit f q = false) : flowSend1 t f ⟨u, t⟩ = { f with waiting := f.waiting ++ [⟨u, t⟩] } := by
  simp [flowSend1, hroute, hc]

end

-- Segments and links

theorem segmentFor_spec {f : Fab} {src dst k : Nat} (h : segmentFor f src dst = some k) :
    nth f.segUp k false = true ∧ (nth f.segUp (src % 4) false = true → k = src % 4)
      ∧ (nth f.segUp (src % 4) false = false → nth f.segUp (dst % 4) false = true → k = dst % 4)
      ∧ (nth f.segUp (src % 4) false = false → nth f.segUp (dst % 4) false = false → ∀ j < k, nth f.segUp j false = false) := by
  simp only [segmentFor] at h
  split at h
  case isTrue hs =>
    obtain rfl := Option.some.inj h
    simp [hs]
  case isFalse hs =>
    split at h
    case isTrue hd =>
      obtain rfl := Option.some.inj h
      simp [hs, hd]
    case isFalse hd =>
      obtain ⟨hk, hrange, hlow⟩ := List.find?_range_eq_some.1 h
      exact ⟨hk, fun hs' => absurd hs' hs, fun _ hd' => absurd hd' hd, fun _ _ j hj => by simpa using hlow j hj⟩

theorem linkOf_intraHalf {a b : Nat} (h : linkOf (.tile a) (.tile b) = some .intraHalf) : b ≠ a ∧ tileHalf b = tileHalf a := by
  simp only [linkOf] at h
  split at h
  case isTrue => cases h
  case isFalse hin =>
    simp only [Bool.or_eq_true, decide_eq_true_eq, not_or] at hin
    split at h
    case isTrue hhalf => exact ⟨Ne.symm hin.2, hhalf.symm⟩
    case isFalse => split at h <;> cases h

theorem linkHop_around {f : Fab} {a b c : Nat} (h : linkHop f a b = some c) (hc : c ≠ b) :
    linkUp f a b = false ∧ c ≠ a ∧ tileHalf c = tileHalf a ∧ nth f.tileLive c false = true ∧ linkUp f a c = true ∧ linkUp f c b = true := by
  simp only [linkHop] at h
  split at h
  · exact absurd (Option.some.inj h).symm hc
  · have hfound := List.find?_some h
    simp only [Bool.and_eq_true, decide_eq_true_eq] at hfound
    obtain ⟨⟨⟨⟨hac, -⟩, hlive⟩, hup⟩, hdown⟩ := hfound
    obtain ⟨hne, hhalf⟩ := linkOf_intraHalf hac
    exact ⟨by simpa using ‹¬ linkUp f a b = true›, hne, hhalf, hlive, hup, hdown⟩

/-- Settles O28: the rows of the queues by their branches, and what the paths' own functions say. -/
theorem creditQueues : Obligations.CreditQueues := by
  unfold Obligations.CreditQueues
  refine ⟨?send, ?back, fun f q u h => nextHop_link u h, ?flow, ?segments, fun f src dst k => segmentFor_spec, ?keeps, fun f a b c => linkHop_around⟩
  case send =>
    intro s q depth hon hdepth hb hl
    exact ⟨fun hr hh hout hroom => .of_live hon rfl (devCreditQueueSend_out hdepth hb hl hr hh hout hroom),
      fun hno => .of_live hon rfl (devCreditQueueSend_held hdepth hb hl hno)⟩
  case back =>
    intro s q hon
    refine ⟨fun u r hr hw hu => ?_, fun u hu hs hd => .of_live hon rfl (devCreditQueueSend_flow hu hs hd), fun h => .of_live hon rfl (devCreditReturn_ignored h),
      fun hr => .of_live hon rfl (by simp [devCreditQueueReady, hr]), fun hd hh hl => .of_live hon rfl (devCreditStall_logs hd hh hl)⟩
    refine ⟨fun hn => .of_live hon rfl (by simp [devCreditReturn, hu, hn]), fun hn hcls => .of_live hon rfl ?_, fun hn hcls => .of_live hon rfl ?_, fun q' hn => ⟨fun hr' => .of_live hon rfl ?_,
      fun hr' hc => .of_live hon rfl ?_, fun hr' hc => .of_live hon rfl ?_⟩⟩
    · simp [devCreditReturn, hu, hr, hw, hn, hcls]
    · simp [devCreditReturn, hu, hr, hw, hn, hcls]
    · simp [devCreditReturn, hu, hr, hw, hn, hr']
    · simp [devCreditReturn, hu, hr, hw, hn, hr', hc]
    · simp [devCreditReturn, hu, hr, hw, hn, hr', hc]
  case flow => exact fun t f u q path hroute => ⟨flowSend1_out hroute, flowSend1_waits hroute⟩
  case segments =>
    intro s hon
    refine ⟨fun n hn hup => .of_live hon rfl (by simp [segmentDown, hn, hup]), fun n hn => .of_live hon rfl (if_pos hn), fun a b hab hb hhalf hup => .of_live hon rfl ?_⟩
    have ha : a < 8 := by omega
    have hcond : (a < 8 && b < 8 && a ≠ b && tileHalf a = tileHalf b && linkUp s.dev.fab a b) = true := by
      simp [ha, hb, hhalf, linkUp, Nat.min_eq_left hab.le, Nat.max_eq_right hab.le, hab.ne, -List.contains_eq_mem, hup]
    rw [devIntraHalfLinkDown, if_pos hcond, Nat.min_eq_left hab.le, Nat.max_eq_right hab.le]
  case keeps =>
    intro f u k hk
    simp [segOf, hk]

end Sys2Proof.Machine
end

section
/-! SUPPORT. Allocation, zeroing, freeing, retirement records and rebuilt table copies (R49 to R54, R64, R157). -/

namespace Sys2Proof.Machine

section
variable {d : Dev} {c : CmdSlot} {p : Bytes} {ten : Tenant}

/-- MEM_ALLOC within quota takes the runs placed for it and wakes their stacks. -/
theorem CmdBegun.devMemAlloc_eq {runs : List Run} (hb : CmdBegun d c 0x0301 p) (hchk : firstBad (memAllocChk c p d) = none)
    (ht : d.ten? (u32 p 0) = some ten) (hm : mgmtOk c ten = true) (hst : ten.st = .active) (hquota : memUsed d (u32 p 0) + u32 p 4 ≤ ten.par.memUnits)
    (hplace : place d (u32 p 4) (u32 p 8) (u8 p 0xC) (u16 p 0xE) = some runs) (hroom : runs.length ≤ u32 p 0x18) :
    devMemAlloc c d = leave c [newHandle d] (runs.foldl (fun d r => wakeStack (r.unit / 32768) d) (d.onMem fun m =>
      { m with nextHandle := (newHandle d + 1) % 2 ^ 32, allocs := m.allocs.set (newHandle d) ⟨u32 p 0, runs, u8 p 0xC = 2, true⟩ })) := by
  rw [devMemAlloc, hb.runChk_eq _ _ hchk]
  dsimp only
  rw [withTenant_active ht hm hst, if_neg (by omega), hplace]
  exact if_neg (by omega)

theorem CmdBegun.devMemFree_eq {a : Alloc} (hb : CmdBegun d c 0x0302 p) (hn : u32 p 0 < 256) (ht : d.ten? (u32 p 0) = some ten) (hm : mgmtOk c ten = true)
    (hst : ten.st = .active) (ha : d.alloc? (u32 p 4) = some a) (hz : a.zeroing = false) (hown : a.tenant = u32 p 0) :
    devMemFree c d = if allocCovered d (u32 p 4) then finish c stBusy d else finish c stDone (releaseAlloc (u32 p 4) d) := by
  rw [devMemFree, hb.runChk_eq _ _ (by simp [firstBad, hn])]
  dsimp only
  rw [withTenant_active ht hm hst]
  simp [ha, hz, hown]

/-- RETIRE_QUERY of one stack writes its records from START on. -/
theorem CmdBegun.devRetireQuery_eq (hb : CmdBegun d c 0x0306 p) (hk : u8 p 0 < 32) (hzero : zeros p 1 3 = true) (ha : addrOk c (u64 p 8) 64 = true)
    (hlo : 1 ≤ u32 p 0x10) (hhi : u32 p 0x10 ≤ 16384) :
    let all := (d.stack (u8 p 0)).retired.map (retiredEntry (u8 p 0))
    let sel := (all.drop (u32 p 4)).take (u32 p 0x10)
    devRetireQuery c d = answer c stDone 0 (some (u64 p 8, toLE 4 all.length ++ toLE 4 sel.length ++ zpad 8 ++ sel.flatten)) none d := by
  rw [devRetireQuery, hb.runChk_eq _ _ (by simp [firstBad, hk, hzero, ha, hlo, hhi])]
  simp [show u8 p 0 ≠ 0xFF by omega, finishRes]

end

/-- An entry is updated with what the function makes of it. -/
theorem Tab.upd_congr {α : Type} {t : Tab α} {n : Nat} {x : α} {f g : α → α} (hx : Tab.get? t n = some x) (h : f x = g x) : Tab.upd t n f = Tab.upd t n g := by
  induction t with
  | nil => cases hx
  | cons y r ih =>
    simp only [Tab.get?] at hx
    simp only [Tab.upd]
    split
    case isTrue hk =>
      rw [if_pos hk, Option.some.injEq] at hx
      rw [hx, h]
    case isFalse hk => rw [ih (by simpa [hk] using hx)]

/-- A change of a tenant's tables may use what they are. -/
theorem onTab_congr {d : Dev} {t : Nat} {f g : PageTables → PageTables} (h : f (tabOf d t) = g (tabOf d t)) : onTab t f d = onTab t g d := by
  simp only [tabOf] at h
  simp only [onTab, Dev.onXlt, h]

/-- A rebuilt copy of sound contents is sound again. -/
theorem devTableCopyRebuilt_sound {d : Dev} {t n : Nat} {e : TabExtent} {w v : TabCopy} (he : (tabOf d t).extents.get? n = some e)
    (hcopies : e.copies = ⟨some w, some v⟩) (hw : w.bad = []) (hv : v.bad = []) :
    devTableCopyRebuilt t n d = onTab t (fun x => { x with extents := x.extents.upd n fun e =>
        { e with copies := ⟨some { w with rebuilding := false }, some { v with rebuilding := false }⟩ } }) d := by
  simp only [devTableCopyRebuilt, he, hcopies, hw, hv, List.foldl_nil]
  refine onTab_congr ?_
  exact congrArg (fun x => ({ tabOf d t with extents := x } : PageTables)) (Tab.upd_congr he (by simp [hcopies]))

-- Zeroing

/-- A stretch of whole codewords that is zeroed holds no poison. -/
theorem memZero_poison {dpa len : Nat} (hdpa : dpa % 32 = 0) (hlen : len % 32 = 0) (d : Dev) : poisonIn (memZero dpa len d) dpa len = false := by
  refine List.any_eq_false.2 fun c hc => ?_
  have hkept := (List.mem_filter.1 hc).2
  simp only [Bool.not_eq_true', Bool.and_eq_false_iff, decide_eq_false_iff_not, Bool.and_eq_true, decide_eq_true_eq] at hkept ⊢
  omega

section
variable {d : Dev} {k : Nat}

/-- A stack out of reach is as at reset and stays so. -/
theorem Dev.stack_onStk (d : Dev) (k : Nat) (f : Stack → Stack) :
    (d.onStk k f).stack k = f (d.stack k) ∨ d.stack k = {} ∧ (d.onStk k f).stack k = {} := by
  by_cases hk : k < d.mem.stk.length
  · exact .inl (nth_modAt_self _ _ _ _ hk)
  · have hlen : d.mem.stk.length ≤ k := Nat.le_of_not_lt hk
    refine .inr ⟨by simp [Dev.stack, nth, List.getElem?_eq_none hlen], ?_⟩
    simp only [Dev.stack, nth, Dev.onStk, Dev.onMem]
    rw [List.getElem?_eq_none (by simpa using hlen)]
    rfl

/-- Waking changes the mode of a stack alone. -/
theorem wakeStack_stack (k : Nat) (d : Dev) : ((wakeStack k d).stack k).held = (d.stack k).held ∧ ((wakeStack k d).stack k).moves = (d.stack k).moves := by
  unfold wakeStack
  split
  · rcases Dev.stack_onStk d k (fun s => { s with mode := .online }) with h | ⟨h, h'⟩
    · rw [h]; exact ⟨rfl, rfl⟩
    · rw [h, h']; exact ⟨rfl, rfl⟩
  · have hmem (e : Dev) : (count 0x0608 k none 1 e).stack k = e.stack k := by simp [Dev.stack]
    rw [hmem]
    rcases Dev.stack_onStk d k (fun s => { s with mode := .waking }) with h | ⟨h, h'⟩
    · rw [h]; exact ⟨rfl, rfl⟩
    · rw [h, h']; exact ⟨rfl, rfl⟩
  · exact ⟨rfl, rfl⟩

/-- The device apart from the states of its stacks and the counts. -/
def Dev.SameCells (d e : Dev) : Prop :=
  e.mem.bytes = d.mem.bytes ∧ e.mem.poison = d.mem.poison ∧ e.mem.allocs = d.mem.allocs ∧ e.q = d.q ∧ e.ten = d.ten

theorem wakeStack_sameCells (k : Nat) (d : Dev) : d.SameCells (wakeStack k d) := by
  unfold wakeStack
  split
  · exact ⟨rfl, rfl, rfl, rfl, rfl⟩
  · simp [Dev.SameCells, Dev.onStk, Dev.onMem]
  · exact ⟨rfl, rfl, rfl, rfl, rfl⟩

/-- Touching a stack at which nothing waits changes its state alone. -/
theorem touchStack_sameCells (hheld : (d.stack k).held = []) (hmoves : (d.stack k).moves = []) : d.SameCells (touchStack k d) := by
  obtain ⟨hh, hm⟩ := wakeStack_stack k d
  have hserve : serveCells k (wakeStack k d) = wakeStack k d := by simp [serveCells, hh, hm, hheld, hmoves]
  rw [touchStack, hserve]
  exact wakeStack_sameCells k d

/-- The end of zeroing of an allocation of one run: its bytes read as unlisted, it holds no poison, and nothing else of memory changes. -/
theorem devZeroingDone_spec {h : Nat} {a : Alloc} {r : Run} (ha : d.alloc? h = some a) (hz : a.zeroing = true) (hr : a.runs = [r])
    (hheld : (d.stack (r.unit / 32768)).held = []) (hmoves : (d.stack (r.unit / 32768)).moves = []) :
    ((devZeroingDone h d).alloc? h).map (·.zeroing) = some false ∧ (devZeroingDone h d).q = d.q ∧ (devZeroingDone h d).ten = d.ten
      ∧ (devZeroingDone h d).mem.bytes = Memory.clear d.mem.bytes (r.unit * unitBytes) (r.unit * unitBytes + r.len * unitBytes)
      ∧ poisonIn (devZeroingDone h d) (r.unit * unitBytes) (r.len * unitBytes) = false := by
  obtain ⟨hbytes, hpoison, hallocs, hq, hten⟩ := touchStack_sameCells hheld hmoves
  set z := memZero (r.unit * unitBytes) (r.len * unitBytes) (touchStack (r.unit / 32768) d) with hzdef
  set y := (count 0x0609 (r.unit / 32768) none (r.len * unitBytes) z).onMem fun m => { m with allocs := m.allocs.upd h fun a => { a with zeroing := false } } with hydef
  have hend : (devZeroingDone h d).mem = y.mem ∧ (devZeroingDone h d).q = y.q ∧ (devZeroingDone h d).ten = y.ten := by
    simp only [devZeroingDone, ha, hz, hr, Bool.not_true, Bool.false_eq_true, if_false, List.foldl_cons, List.foldl_nil, ← hzdef, ← hydef]
    (repeat' split) <;> simp
  obtain ⟨hmem, hendq, hendten⟩ := hend
  have hymem : y.mem = { z.mem with allocs := d.mem.allocs.upd h fun a => { a with zeroing := false } } := by
    simp [hydef, Dev.onMem, hzdef, memZero, hallocs]
  refine ⟨?_, hendq.trans ?_, hendten.trans ?_, ?_, ?_⟩
  · rw [Dev.alloc?, hmem, hymem, Tab.get?_upd_self, show d.mem.allocs.get? h = some a from ha]
    rfl
  · simp [hydef, Dev.onMem, hzdef, memZero, hq]
  · simp [hydef, Dev.onMem, hzdef, memZero, hten]
  · rw [hmem, hymem]
    simp [hzdef, memZero, Dev.onMem, hbytes]
  · have hp := memZero_poison (dpa := r.unit * unitBytes) (len := r.len * unitBytes) (by simp only [unitBytes]; omega) (by simp only [unitBytes]; omega)
      (touchStack (r.unit / 32768) d)
    simpa only [poisonIn, hmem, hymem] using hp

end

/-- Settles O29: MEM_ALLOC, MEM_FREE, RETIRE_QUERY and a rebuilt copy by their equations, the end of zeroing by `devZeroingDone_spec` and `Memory.read_clear`. -/
theorem memoryAllocation : Obligations.MemoryAllocation := by
  unfold Obligations.MemoryAllocation
  intro s c p hon
  refine ⟨?alloc, ?zeroed, ?free, ?query, ?rebuilt⟩
  case alloc =>
    exact fun ten runs hb hchk ht hm hst hquota hplace hroom => .of_live hon rfl (hb.devMemAlloc_eq hchk ht hm hst hquota hplace hroom)
  case zeroed =>
    intro h a r ha hz hr hheld hmoves _ _
    obtain ⟨hdone, hq, hten, hbytes, hpoison⟩ := devZeroingDone_spec ha hz hr hheld hmoves
    refine .of_live hon rfl ⟨hdone, hq, hten, fun x hlo hhi => ?_, fun x hx => ?_, hpoison⟩
    · rw [hbytes, Memory.read_clear, if_pos ⟨hlo, by rwa [← Nat.add_mul]⟩]
    · rw [hbytes, Memory.read_clear, if_neg (by rwa [← Nat.add_mul])]
  case free =>
    intro ten a hb hn ht hm hst ha hz hown
    have heq := hb.devMemFree_eq hn ht hm hst ha hz hown
    exact ⟨fun hc => .of_live hon rfl (by rw [heq, hc]; rfl), fun hc => .of_live hon rfl (by rw [heq, hc]; rfl)⟩
  case query => exact fun hb hk hzero ha hlo hhi => .of_live hon rfl (hb.devRetireQuery_eq hk hzero ha hlo hhi)
  case rebuilt => exact fun t n e w v he hcopies hw hv => .of_live hon rfl (devTableCopyRebuilt_sound he hcopies hw hv)

end Sys2Proof.Machine
end

section
/-! SUPPORT. Accesses at a base die: the states of the stack, a read of one codeword, a write of whole codewords (R12, R18, R21, R44, R47, R55 to R58, R65, R66). -/

namespace Sys2Proof.Machine

section
variable {d : Dev} {k off : Nat}

theorem serveAccess_parked (h : (d.stack k).mode = .parked) (a : Access) :
    serveAccess k a d = (wakeStack k d).onStk k fun x => { x with held := x.held ++ [a] } := by simp [serveAccess, h]

theorem serveAccess_offline (h : (d.stack k).mode = .offline) (a : Access) : serveAccess k a d = accFail (accWho a) ccUncorrectable 0x15 d := by
  simp [serveAccess, h]

/-- The stack is ONLINE for what reaches it. -/
abbrev Dev.served (d : Dev) (k : Nat) : Dev := d.onStk k fun x => { x with mode := .online }

section
variable (hmode : (d.stack k).mode = .online ∨ (d.stack k).mode = .parking) (hheld : (d.stack k).held = [])
include hmode hheld

section
variable {a : Access} (ha : accServed a = false)
include ha

/-- At a stack that is on and holds nothing, an access waits for its way. -/
theorem serveAccess_shut (ho : accOpen (d.served k) k (accWho a) = false) :
    serveAccess k a d = (d.served k).onStk k fun x => { x with held := x.held ++ [a] } := by
  rcases hmode with h | h <;> simp [serveAccess, h, hheld, ha, ho]

section
variable (ho : accOpen (d.served k) k (accWho a) = true)
include ho

/-- One whose way is open fails beyond the end of the offsets. -/
theorem serveAccess_beyond (hend : offEnd < (accRange a).1 + (accRange a).2) :
    serveAccess k a d = accFail (accWho a) ccLocalAccess 0x10 (logIt 0x0106 1 k [(accRange a).1] (d := d.served k)) := by
  rcases hmode with h | h <;> simp [serveAccess, h, hheld, ha, ho, hend]

/-- Another one is served, unless a move holds it. -/
theorem serveAccess_applies (hend : (accRange a).1 + (accRange a).2 ≤ offEnd) (hmoves : (d.stack k).moves = []) :
    serveAccess k a d = applyAccess k a (d.served k) := by
  rcases hmode with h | h <;> simp [serveAccess, h, hheld, ha, ho, Nat.not_lt.2 hend, moveOver, hmoves]

end
end
end

/-- A read of one codeword: what its check finds is noted and leaves with the answer. -/
theorem applyAccess_codeword {e : Dev} {f : Found} (hoff : off % 32 = 0) (errs : List (Nat × Nat))
    (hf : eccCell (k * 2 ^ 36 + off) (symbolsOf errs 0) d = (f, e)) :
    applyAccess k (.read off 1 .other errs) d = emit (.legRead .other [f.bytes]) (noteFound k (k * 2 ^ 36 + off) f (count 0x0604 k none 32 e)) := by
  have hdpa : k * 2 ^ 36 + off / 32 * 32 = k * 2 ^ 36 + off := by omega
  simp only [applyAccess, accCells, List.range_one, eccCells, hdpa, Nat.mul_zero, Nat.add_zero, hf, List.map_cons, List.map_nil, accAnswer, List.length_singleton,
    List.zip_cons_cons, List.zip_nil_left, noteAll, List.foldl_cons, List.foldl_nil]
  cases hb : f.bytes <;> simp

/-- What the check of a codeword finds, by the symbols in error (R55, R57). -/
theorem eccCell_poison {dpa n : Nat} (h : poisonIn d dpa 32 = true) : eccCell dpa n d = (.poison, d) := by simp [eccCell, h]

section
variable {dpa : Nat} (h : poisonIn d dpa 32 = false)
include h
theorem eccCell_clean : eccCell dpa 0 d = (.clean (memBytes d dpa 32), d) := by simp [eccCell, h]
theorem eccCell_fixed : eccCell dpa 1 d = (.fixed (memBytes d dpa 32), d) := by simp [eccCell, h]
theorem eccCell_lost {n : Nat} (hlo : 2 ≤ n) (hhi : n < 4) : eccCell dpa n d = (.lost, memPoison dpa 32 d) := by
  simp [eccCell, h, show n ≠ 0 by omega, show n ≠ 1 by omega, hhi]
end

/-- Whole codewords have nothing to merge and no poison in part. -/
theorem mergedCells_whole {n : Nat} (hoff : off % 32 = 0) (hn : n % 32 = 0) : mergedCells off n = [] := by
  unfold mergedCells
  split
  · rfl
  · have hlen : ¬ n < 32 := by omega
    have hend : (off + n) % 32 = 0 := by omega
    simp [hoff, hlen, hend]

theorem partPoison_whole {dpa n : Nat} (hdpa : dpa % 32 = 0) (hn : n % 32 = 0) : partPoison d dpa n = false := by
  refine List.any_eq_false.2 fun c _ => ?_
  simp only [Bool.and_eq_true, decide_eq_true_eq, Bool.not_eq_true', Bool.and_eq_false_iff, decide_eq_false_iff_not]
  omega

theorem applyAccess_writeWhole {b : Bytes} (w : Requester) (errs : List (Nat × Nat)) (hoff : off % 32 = 0) (hb : b.length % 32 = 0) :
    applyAccess k (.write off b w errs) d = count 0x0605 k none b.length (memWrite (k * 2 ^ 36 + off) b d) := by
  have hdpa : (k * 2 ^ 36 + off) % 32 = 0 := by omega
  have hend : (k * 2 ^ 36 + off + b.length) % 32 = 0 := by rw [Nat.add_mod, hdpa, hb]
  simp only [applyAccess, accCells, mergedCells_whole hoff hb, eccCells, partPoison_whole hdpa hb, accAnswer, noteAll, List.foldl_nil, hdpa, hend, ne_eq, not_true_eq_false, decide_false, Bool.or_self, Bool.false_eq_true, if_false]

end

/-- Settles O30: what a stack's state makes of an access (`serveAccess_shut`, `serveAccess_beyond`, `serveAccess_applies`), what a codeword's check finds (`eccCell`) and whole codewords
(`applyAccess_writeWhole`). -/
theorem stackAccesses : Obligations.StackAccesses := by
  unfold Obligations.StackAccesses
  refine ⟨fun s k off n w errs hon hk => ⟨fun hm => .of_liveQ hon rfl ?_, fun hm => .of_liveQ hon rfl ?_⟩, fun s k off hon hk hmode hheld hoff => ?_⟩
  · rw [devStackRead, if_pos hk, serveAccess_parked hm]
  · rw [devStackRead, if_pos hk, serveAccess_offline hm]; rfl
  intro on dpa rd
  have hread (w : Requester) (errs : List (Nat × Nat)) : devStackRead k off 1 w errs s.dev = serveAccess k (.read off 1 w errs) s.dev := if_pos hk
  have hrange (w : Requester) (errs : List (Nat × Nat)) : accRange (.read off 1 w errs) = (off, 32) := by
    rw [accRange, Nat.div_mul_cancel (Nat.dvd_of_mod_eq_zero hoff)]
  have hcell {f : Found} {e : Dev} {n : Nat} (errs : List (Nat × Nat)) (ho : accOpen on k .other = true) (hmoves : (s.dev.stack k).moves = []) (hend : off < 0xBF8000000)
      (hn : symbolsOf errs 0 = n) (hf : eccCell dpa n on = (f, e)) :
      devStackRead k off 1 .other errs s.dev = emit (.legRead .other [f.bytes]) (noteFound k dpa f (count 0x0604 k none 32 e)) := by
    rw [hread, serveAccess_applies (a := .read off 1 .other errs) hmode hheld rfl ho (by rw [hrange]; simp only [offEnd]; omega) hmoves, applyAccess_codeword hoff errs (hn ▸ hf)]
  refine ⟨fun w ho => .of_liveQ hon rfl ?shut, fun ho hmoves hend hp => ?sound, fun ho hmoves hend hp => .of_liveQ hon rfl ?poison, fun w ho hend => .of_liveQ hon rfl ?beyond,
    fun w b errs ho hmoves hb hend => .of_liveQ hon rfl ?write⟩
  case shut => rw [hread, serveAccess_shut (a := .read off 1 w []) hmode hheld rfl ho]
  case sound =>
    have hp' : poisonIn on dpa 32 = false := hp
    have hclean := hcell [] ho hmoves hend rfl (eccCell_clean hp')
    have hfixed := hcell [(0, 1)] ho hmoves hend rfl (eccCell_fixed hp')
    have htwo := hcell [(0, 2)] ho hmoves hend rfl (eccCell_lost hp' (by decide) (by decide))
    have hthree := hcell [(0, 3)] ho hmoves hend rfl (eccCell_lost hp' (by decide) (by decide))
    exact ⟨.of_liveQ hon rfl hclean, .of_liveQ hon rfl hfixed, .of_liveQ hon rfl htwo, .of_liveQ hon rfl hthree⟩
  case poison => exact hcell [] ho hmoves hend rfl (eccCell_poison hp)
  case beyond =>
    rw [hread, serveAccess_beyond (a := .read off 1 w []) hmode hheld rfl ho (by rw [hrange]; simp only [offEnd]; omega), hrange]
    rfl
  case write =>
    rw [devStackWrite, if_pos hk, serveAccess_applies (a := .write off b w errs) hmode hheld rfl ho hend hmoves, applyAccess_writeWhole w errs hoff hb]

end Sys2Proof.Machine
end

section
/-! SUPPORT. The counterexample to what the end of a retirement move leaves (R61, R62). -/

namespace Sys2Proof.Machine

/-- A running device in which stack 0 moves row group 0 to the first spare, and nothing waits. -/
def movingStack : State :=
  { pending := [], dev := { pwr := { rails := .on }, mem := { stk := { moves := [⟨0, reserveGroup, .correctable, []⟩] } :: List.replicate 31 {} } } }

/-- Refutes O32: the end of a retirement move writes the retirement record to the boot store (`storeWrite`), and the statement's device leaves that write out:
from `movingStack` the row counts one write of the store, and the statement none. -/
theorem not_stackStates : ¬ Obligations.StackStates := by
  unfold Obligations.StackStates
  intro h
  obtain ⟨-, -, -, -, hmove, -⟩ := h.2 movingStack 0 rfl (by decide)
  have hstated := hmove _ rfl rfl rfl rfl (by decide) rfl
  have hruns : exec (.retirementMoveDone ⟨0, []⟩) movingStack = .next { movingStack with dev := settle (devRetirementMoveDone 0 [] movingStack.dev) } := rfl
  injection hruns.symm.trans hstated with hstate
  exact absurd (congrArg (fun s : State => s.dev.svc.storeCount) hstate) (by decide)

end Sys2Proof.Machine
end

section
/-! SUPPORT. TENANT_SAVE and TENANT_RESTORE (R40, R464 to R469). -/

namespace Sys2Proof.Machine

section
variable {d : Dev} {c : CmdSlot} {p : Bytes} {t : Tenant}

section
variable (hb : CmdBegun d c 0x0205 p) (ht : d.ten? (u32 p 0) = some t) (hm : mgmtOk c t = true) (hst : t.st = .frozen) (hn : u32 p 0 < 256)
  (hcarried : t.carried = false) (haddr : addrOk c (u64 p 8) 64 = true) (hzero : u32 p 0x14 = 0) (hroom : snapLen d (u32 p 0) ≤ u32 p 0x10)
include hb ht hm hst hn hcarried haddr hzero hroom

/-- Without a carrier the snapshot alone is written. -/
theorem CmdBegun.devTenantSave_alone (hcar : u32 p 4 = 0xFFFFFFFF) :
    devTenantSave c d = answer c stDone 0 (some (u64 p 8, snapshot d (u32 p 0) t 0xFFFFFFFF)) none d := by
  have hne : (0xFFFFFFFF : Nat) ≠ u32 p 0 := by omega
  rw [devTenantSave, hb.runChk_eq _ _ (by simp [firstBad, hn, haddr, hzero, hcar, hne])]
  dsimp only
  rw [withTenant_managed ht hm, hcar]
  simp [hst, hcarried, Nat.not_lt.2 hroom, finishRes]

/-- An ACTIVE carrier with enough quota takes the memory. -/
theorem CmdBegun.devTenantSave_carried {x : Tenant} (hcar : u32 p 4 < 256) (hother : u32 p 4 ≠ u32 p 0) (hx : d.ten? (u32 p 4) = some x)
    (hxm : mgmtOk c x = true) (hxst : x.st = .active)
    (hquota : memUsed d (u32 p 4) + ((tenAllocs d (u32 p 0)).map fun (_, a) => allocUnits a).sum ≤ x.par.memUnits) :
    devTenantSave c d = passAllocs (u32 p 0) (u32 p 4) ⟨c, 0x0205, stDone, some (u64 p 8, snapshot d (u32 p 0) t (u32 p 4))⟩ (leave c [] d) := by
  rw [devTenantSave, hb.runChk_eq _ _ (by simp [firstBad, hn, haddr, hzero, hcar, hother])]
  dsimp only
  rw [withTenant_managed ht hm]
  simp only [hst, hcarried, Nat.not_le.2 hcar, hx, hxm, hxst, Nat.not_lt.2 hroom, Nat.not_lt.2 hquota, hcar]
  rfl

end

/-- TENANT_RESTORE of a bare tenant goes on with a snapshot whose head and fields are sound. -/
theorem CmdBegun.devTenantRestore_eq {snap hs : Bytes} {don : Tenant} (hb : CmdBegun d c 0x0206 p) (hkeys : keysFlow d = true)
    (hchk : firstBad (tenantRestoreChk c p d) = none) (ht : d.ten? (u32 p 0) = some t) (hm : mgmtOk c t = true) (hst : t.st = .frozen)
    (hdon : d.ten? (u32 p 4) = some don) (hdm : mgmtOk c don = true) (hallocs : tenAllocs d (u32 p 0) = []) (hwins : tenWindows d (u32 p 0) = [])
    (hqps : tenQps d (u32 p 0) = []) (hcqs : tenCqs d (u32 p 0) = []) (hropes : tenRopes d (u32 p 0) = []) :
    devTenantRestore c snap hs d = if snapHeadOk snap (u32 p 0xC) && snapFieldsOk (parseSnap snap) then
        restoreChecked c p t (parseSnap snap) ((List.range (parseSnap snap).allocs.length).map fun i => u32 hs (4 * i)) d
      else answer c stVerifyFailed 0 none none d := by
  rw [devTenantRestore, if_pos hkeys, hb.runChk_eq _ _ hchk]
  dsimp only
  rw [withTenant_managed ht hm]
  simp only [hdon, hdm, hst, hallocs, hwins, hqps, hcqs, hropes]
  cases snapHeadOk snap (u32 p 0xC) <;> cases snapFieldsOk (parseSnap snap) <;> rfl

/-- A snapshot without allocations is restored under the numbers that are found. -/
theorem restoreChecked_bare {e : Dev} {x : Snap} {cqs qps wins : List Nat} (hallocs : x.allocs = []) (hmaps : x.maps = []) (hhost : hostRing x = false)
    (hwins : x.wins.length ≤ t.par.winCount) (hslabs : (x.wins.map fun w => ceilDiv (u64 w 8) (2 ^ 30)).sum ≤ t.par.winSlabs)
    (hqps : x.qps.length ≤ t.par.qpMax) (hcqs : x.cqs.length ≤ t.par.cqMax) (hcn : restoreCqNumbers d x = some cqs) (hqn : restoreQpNumbers d x = some qps)
    (hwn : restoreWinNumbers d x = some wins) (he : placeTables (u32 p 0) [] d = some e) (hnew : tb (u8 p 8) 0 = false)
    (hroom : 16 + 8 * (qps.length + cqs.length) + 16 * wins.length ≤ u32 p 0x28) :
    let r := restoreAll (u32 p 0) x [] cqs qps wins e
    restoreChecked c p t x [] d = replFinish c 0x0206 stDone (some (u64 p 0x20, restoreResult r x cqs qps wins)) (wins.map .windowOpen)
      (postEvent (u32 p 0) 0x13 (u32 p 0) qps.length wins.length r) := by
  intro r
  simp only [restoreChecked, hallocs, hmaps, hhost, List.map_nil, List.flatMap_nil, List.dedup_nil, List.filterMap_nil, List.sum_nil, List.length_nil, List.all_nil,
    List.any_nil, List.zip_nil_left, Nat.not_lt.2 hwins, Nat.not_lt.2 hslabs, Nat.not_lt.2 hqps, Nat.not_lt.2 hcqs, hcn, hqn, hwn, he, hnew, Nat.not_lt.2 hroom]
  simp [ceilDiv]
  rfl

end

/-- Settles O33: `CmdBegun.devTenantSave_alone`, `CmdBegun.devTenantSave_carried`, `CmdBegun.devTenantRestore_eq`, `restoreChecked_bare`. -/
theorem snapshots : Obligations.Snapshots := by
  unfold Obligations.Snapshots
  intro s c p t hon ht hm hst hn
  refine ⟨?save, fun d x r => rfl, ?restore, ?bare⟩
  case save =>
    intro hb hcarried haddr hzero hroom
    exact ⟨fun hcar => .of_live hon rfl (hb.devTenantSave_alone ht hm hst hn hcarried haddr hzero hroom hcar),
      fun x hcar hother hx hxm hxst hquota => .of_live hon rfl (hb.devTenantSave_carried ht hm hst hn hcarried haddr hzero hroom hcar hother hx hxm hxst hquota)⟩
  case restore =>
    exact fun snap hs don hb hkeys hchk hdon hdm hallocs hwins hqps hcqs hropes =>
      .of_live hon rfl (hb.devTenantRestore_eq hkeys hchk ht hm hst hdon hdm hallocs hwins hqps hcqs hropes)
  case bare =>
    exact fun d e x cqs qps wins hallocs hmaps hhost hwins hslabs hqps hcqs hcn hqn hwn he hnew hroom =>
      restoreChecked_bare hallocs hmaps hhost hwins hslabs hqps hcqs hcn hqn hwn he hnew hroom

end Sys2Proof.Machine
end

section
/-! SUPPORT. Cipher jobs, the cores that work on them, and the job ring's registers (R473, R475, R476, R490 to R493, R507). -/

namespace Sys2Proof.Machine

/-- A change of the ciphers may use what they are. -/
theorem Dev.onCiph_congr {d : Dev} {f g : Ciph → Ciph} (h : f d.ciph = g d.ciph) : d.onCiph f = d.onCiph g := by simp only [Dev.onCiph, h]

section
variable {d : Dev} {b : Bytes}

section
variable (hready : jobReady d = true) (hfirst : d.ciph.refetch = 0) (hphase : tb (u8 b 1) 0 = phaseOf (jobSlots d.ciph) d.ciph.next)
include hready hfirst hphase

/-- A job that fails a check is held as ended. -/
theorem devCipherJobBegin_refused {st at_ : Nat} (hchk : jobCheck d b = some (st, at_)) :
    devCipherJobBegin b d = jobRelease (d.onCiph fun c => { c with
      jobs := c.jobs ++ [{ idx := d.ciph.next, entry := b, fin := some (st, at_, 0, d.pwr.tsc) }],
      next := ringAdd (jobSlots d.ciph) d.ciph.next 1, refetch := 0 }) := by
  simp [devCipherJobBegin, hready, hfirst, jobTake, hphase, hchk]

/-- An XTS job that passes begins on its pieces and is dealt. -/
theorem devCipherJobBegin_xts (hchk : jobCheck d b = none) (hop : 2 < u8 b 0) :
    devCipherJobBegin b d = dealJobs (d.onCiph fun c => { c with
      jobs := c.jobs ++ [{ idx := d.ciph.next, entry := b,
                           src := jobPieces d (u16 b 4) (u64 b 8) (u32 b 0x18) false, dst := jobPieces d (u16 b 4) (u64 b 0x10) (u32 b 0x18) true,
                           left := blocks16 (u32 b 0x1C) + blocks16 (u32 b 0x18) }],
      next := ringAdd (jobSlots d.ciph) d.ciph.next 1, refetch := 0 }) := by
  simp [devCipherJobBegin, hready, hfirst, jobTake, hphase, hchk, Nat.not_le.2 hop]

end

section
variable {i : Nat} {j : Job} (hj : d.ciph.jobs.find? (fun j => j.idx = i && j.fin.isNone) = some j)
include hj

/-- A job that is not served, or whose data have no way, does not finish. -/
theorem devCipherJobDone_waits (h : jobServed d.ciph i = false ∨ jobOpen d j = false) : devCipherJobDone i .finished d = jobRelease d := by
  rcases h with h | h <;> simp [devCipherJobDone, hj, h]

/-- A served GCM encryption writes its output and its tag. -/
theorem devCipherJobDone_sealed {k : KeySlot} {src aad : Bytes} (hserved : jobServed d.ciph i = true) (hop : jobOp j = 1) (hopen : jobOpen d j = true)
    (hk : (touchPlaces (jobPlaces j) d).ciph.slots.get? (jobSlot j) = some k) (hsrc : readPieces (touchPlaces (jobPlaces j) d) j.src = some src)
    (haad : readPieces (touchPlaces (jobPlaces j) d) j.aad = some aad) (hdst : writeBad (touchPlaces (jobPlaces j) d) j.dst = false)
    (htag : writeBad (touchPlaces (jobPlaces j) d) j.tag = false) :
    let e := touchPlaces (jobPlaces j) d
    let r := gcmSeal (k.material.take (k.bits / 8)) (slice j.entry 0x28 12) aad src
    devCipherJobDone i .finished d = jobRelease ((count 0x0A01 (jobTile j) none (jobLen j) (count 0x0A02 (jobTile j) none 1
          (writePieces j.tag r.2 (writePieces j.dst r.1 e)))).onCiph fun c => { c with jobs := c.jobs.map fun x =>
            if x.idx = j.idx && x.fin.isNone then { x with fin := some (ccOk, 0, jobLen j, e.pwr.tsc) } else x }) := by
  have hxts : jobIsXts j = false := by
    have h1 : u8 j.entry 0 = 1 := hop
    simp [jobIsXts, h1]
  simp [devCipherJobDone, hj, hserved, hopen, finishJob, hk, hsrc, haad, hop, hdst, htag, jobData, jobShares, hxts]
  exact congrArg jobRelease (Dev.onCiph_congr (by simp [onJob]))

/-- A job of XTS encryption ended by a tenant reset zeroes its output. -/
theorem devCipherJobDone_flushed (hop : jobOp j = 3) :
    devCipherJobDone i .tenantReset d = jobRelease ((zeroPieces j.dst d).onCiph fun c => dropWork (· = i) { c with jobs := c.jobs.map fun x =>
          if x.idx = i && x.fin.isNone then { x with left := 0, fin := some (ccFlushed, 0, 0, d.pwr.tsc) } else x }) := by
  simp [devCipherJobDone, hj, failJob, hop, onJob, zeroPieces]

end
end

-- The cores

theorem AesCore.load_setDeficit (c : AesCore) (k : CoreClass) (n : Nat) : (c.setDeficit k n).load = c.load := by cases k <;> rfl
theorem AesCore.now_setDeficit (c : AesCore) (k : CoreClass) (n : Nat) : (c.setDeficit k n).now = c.now := by cases k <;> rfl

/-- The turn passes between the classes and moves no work. -/
theorem AesCore.passTurn_work (x : Ciph) (c : AesCore) : (c.passTurn x).load = c.load ∧ (c.passTurn x).now = c.now := by
  have hturn (c : AesCore) (k : CoreClass) : ({ c with turn := k } : AesCore).load = c.load := rfl
  unfold AesCore.passTurn
  dsimp only
  rw [hturn, load_setDeficit, now_setDeficit]
  split
  · exact ⟨load_setDeficit _ _ _, now_setDeficit _ _ _⟩
  · exact ⟨rfl, rfl⟩

/-- The head of a class, taken in hand by an idle core, is work as before. -/
theorem AesCore.load_take {c : AesCore} {k : CoreClass} {w : CoreWork} {r : List CoreWork} (hidle : c.now = none) (hq : c.queue k = w :: r) (n : Nat) :
    ({ (c.dropHead k).setDeficit k n with now := some w } : AesCore).load = c.load := by
  cases k with
  | transport =>
    have hq' : c.transport = w :: r := hq
    simp only [load, dropHead, setDeficit, hq', hidle, coreBytes, List.tail_cons, List.map_cons, List.sum_cons, Option.toList_some, Option.toList_none, List.map_nil,
      List.sum_nil]
    omega
  | jobs =>
    have hq' : c.jobs = w :: r := hq
    simp only [load, dropHead, setDeficit, hq', hidle, coreBytes, List.tail_cons, List.map_cons, List.sum_cons, Option.toList_some, Option.toList_none, List.map_nil,
      List.sum_nil]
    omega

/-- An idle core's next work leaves its queue for its hands. -/
theorem coreTake_load (x : Ciph) (n : Nat) (c : AesCore) (hidle : c.now = none) : (coreTake x n c).load = c.load := by
  induction n generalizing c with
  | zero => rfl
  | succ n ih =>
    obtain ⟨hload, hnow⟩ := c.passTurn_work x
    have hpass := (ih _ (hnow.trans hidle)).trans hload
    simp only [coreTake]
    split
    · rfl
    · split
      · exact hpass
      · split
        · exact AesCore.load_take hidle ‹_› _
        · exact hpass

/-- A core works through at most 16 B at once. -/
theorem coreBlock_load (x : Ciph) (c : AesCore) : (coreBlock x c).load ≤ c.load ∧ c.load ≤ (coreBlock x c).load + 16 := by
  have hwork (c : AesCore) (w : CoreWork) (hw : c.now = some w) :
      ({ c with now := if w.len ≤ 16 then none else some { w with len := w.len - 16 } } : AesCore).load ≤ c.load
        ∧ c.load ≤ ({ c with now := if w.len ≤ 16 then none else some { w with len := w.len - 16 } } : AesCore).load + 16 := by
    split <;> simp [AesCore.load, hw, coreBytes] <;> omega
  have htaken : (if c.now.isNone then coreTake x 256 c else c).load = c.load := by
    split
    · exact coreTake_load x 256 c (by simpa using ‹c.now.isNone = true›)
    · rfl
  unfold coreBlock
  dsimp only
  rw [← htaken]
  split
  · exact ⟨Nat.le_refl _, Nat.le_add_right _ _⟩
  · exact hwork _ _ ‹_›

/-- A core kept so far yields only to one with less. -/
theorem leastCore_from {cs : List AesCore} {l : List Nat} {b k : Nat} (h : l.foldl (fun a k => match a with
    | none => some k
    | some b => if (nth cs k {}).load < (nth cs b {}).load then some k else some b) (some b) = some k) :
    k ∈ b :: l ∧ ∀ j ∈ b :: l, (nth cs k {}).load ≤ (nth cs j {}).load := by
  induction l generalizing b with
  | nil =>
    obtain rfl := Option.some.inj h
    simp
  | cons a l ih =>
    rw [List.foldl_cons] at h
    dsimp only at h
    split at h
    case isTrue hless =>
      obtain ⟨hk, hleast⟩ := ih h
      refine ⟨List.mem_cons_of_mem _ hk, fun j hj => ?_⟩
      rcases List.mem_cons.1 hj with rfl | hj
      · exact (hleast a List.mem_cons_self).trans hless.le
      · exact hleast j hj
    case isFalse hless =>
      obtain ⟨hk, hleast⟩ := ih h
      have hb := hleast b List.mem_cons_self
      refine ⟨?_, fun j hj => ?_⟩
      · rcases List.mem_cons.1 hk with rfl | hk <;> simp [*]
      · rcases List.mem_cons.1 hj with rfl | hj
        · exact hb
        · rcases List.mem_cons.1 hj with rfl | hj
          · omega
          · exact hleast j (List.mem_cons_of_mem _ hj)

/-- The core with the least queued work is one of the list, and no other has less. -/
theorem leastCore_least {cs : List AesCore} {l : List Nat} {k : Nat} (h : leastCore cs l = some k) : k ∈ l ∧ ∀ j ∈ l, (nth cs k {}).load ≤ (nth cs j {}).load := by
  cases l with
  | nil => cases h
  | cons b l => exact leastCore_from h

/-- Settles O34: a job's row by the check or the state it meets, the cores by `coreBlock_load` and `leastCore_least`, the registers by their own branches. -/
theorem cipherJobs : Obligations.CipherJobs := by
  unfold Obligations.CipherJobs
  refine ⟨fun s hon => ⟨?begins, ?unserved, ?sealed, ?shut, ?flushed⟩, coreBlock_load, fun cs l k => leastCore_least, ?registers⟩
  case begins =>
    intro b hready hfirst hphase
    exact ⟨fun st at_ hchk => .of_live hon rfl (devCipherJobBegin_refused hready hfirst hphase hchk),
      fun hchk hop => .of_live hon rfl (devCipherJobBegin_xts hready hfirst hphase hchk hop)⟩
  case unserved => exact fun i j hj h => .of_live hon rfl (devCipherJobDone_waits hj (.inl h))
  case sealed =>
    exact fun i j k src aad hj hserved hop hopen hk hsrc haad hdst htag =>
      .of_live hon rfl (devCipherJobDone_sealed hj hserved hop hopen hk hsrc haad hdst htag)
  case shut => exact fun i j hj h => .of_live hon rfl (devCipherJobDone_waits hj (.inr h))
  case flushed => exact fun i j hj hop => .of_live hon rfl (devCipherJobDone_flushed hj hop)
  case registers =>
    intro s a v hon ha
    refine ⟨fun hoff => .of_live hon rfl ?_, fun hen => .of_live hon rfl ?_, fun hen hlt hroom hfwd => .of_live hon rfl ?_, fun hoff => .of_live hon rfl ?_⟩
    · rw [devCiphJobEnable, if_neg (by simp [ha])]
      exact Dev.onCiph_congr (by simp [hoff])
    · rw [devCiphJobDisable, if_neg (by simp [ha])]
      exact Dev.onCiph_congr (by simp [hen])
    · rw [devCiphJobProdWrite, if_neg (by simp [ha])]
      exact Dev.onCiph_congr (by simp [hen, hlt, hroom, hfwd])
    · rw [devCiphJobProdWrite, if_neg (by simp [ha])]
      exact Dev.onCiph_congr (by simp [hoff])

end Sys2Proof.Machine
end

section
/-! SUPPORT. The commands of the service state: records, images, logs, counter selection (R439, R546, R557, R558, R560 to R567). -/

namespace Sys2Proof.Machine

section
variable {d : Dev} {c : CmdSlot} {p : Bytes}

theorem CmdBegun.devDeviceInfo_eq (hb : CmdBegun d c 0x0101 p) (ha : addrOk c (u64 p 0) 64 = true) (h8 : u64 p 8 = 0) :
    devDeviceInfo c d = answer c stDone 0 (some (u64 p 0, deviceRecord d)) none d := by
  rw [devDeviceInfo, hb.runChk_eq _ _ (by simp [firstBad, ha, h8])]
  rfl

/-- Without a record of its own the check is against the one that is held. -/
theorem CmdBegun.devEnvCheck_held {r b : Bytes} (hb : CmdBegun d c 0x0102 p) (hchk : firstBad (envChk c p d) = none) (h0 : u64 p 0 = 0)
    (hheld : d.svc.record = some b) : devEnvCheck c r d = answer c stDone 0 (some (u64 p 0x10, envResult d b)) none d := by
  rw [devEnvCheck, hb.runChk_eq _ _ hchk]
  simp [h0, hheld, finishRes]

theorem recordBad_of_sound {v : Svc} {b : Bytes} {n : Nat} (hfault : recordFault b n = none) :
    recordBad v b n = if ecdsaVerify (recordKey v b) (b.take (n - 132)) (slice b (n - 132) 132) && slice b 0x10 16 = deviceDigest v
      && recordSerial v < u32 b 8 then none else some .verify := by
  rw [recordBad, hfault]

section
variable {r : Bytes} (hb : CmdBegun d c 0x0B02 p) (hside : isSideband c = false) (haddr : u64 p 0 % 64 = 0) (hzero : u32 p 0xC = 0)
include hb hside haddr hzero

theorem CmdBegun.devRecordLoad_layout {o : Nat} (hfault : recordFault (slice r 0 (u32 p 8)) (u32 p 8) = some o) :
    devRecordLoad c r d = answer c stBadParam 0 none (some o) d := by
  rw [devRecordLoad, hb.runChk_eq _ _ (by simp [firstBad, haddr, hzero])]
  simp [hside, recordBad, hfault]

/-- A record of a sound layout is accepted where its signature, digest and serial are right. -/
theorem CmdBegun.devRecordLoad_judged (hfault : recordFault (slice r 0 (u32 p 8)) (u32 p 8) = none) :
    let b := slice r 0 (u32 p 8)
    devRecordLoad c r d =
      if ecdsaVerify (recordKey d.svc b) (b.take (u32 p 8 - 132)) (slice b (u32 p 8 - 132) 132) && slice b 0x10 16 = deviceDigest d.svc
          && recordSerial d.svc < u32 b 8 then replFinish c 0x0B02 stDone none (nodeWrites d.net.nodes (recordNodes b)) (acceptRecord b d)
      else answer c stVerifyFailed 0 none none d := by
  intro b
  rw [devRecordLoad, hb.runChk_eq _ _ (by simp [firstBad, haddr, hzero])]
  dsimp only
  rw [if_neg (by simp [hside])]
  have hbad := recordBad_of_sound (v := d.svc) hfault
  split at hbad
  case isTrue hok => rw [if_pos hok, hbad]
  case isFalse hok => rw [if_neg hok, hbad]; rfl

end

theorem CmdBegun.devImageStage_eq {data : Bytes} (hb : CmdBegun d c 0x0901 p) (hchk : firstBad (stageChk p d) = none) :
    devImageStage c data d = if d.svc.trav ≠ .idle then finish c stBusy d
      else finish c stDone (storeWrite [rkBank (candidate d.svc)] (d.onSvc (stageImage p data))) := by
  rw [devImageStage, hb.runChk_eq _ _ hchk]

theorem CmdBegun.devImageVerify_eq (hb : CmdBegun d c 0x0902 p) (hlt : u8 p 0 < 64) (heven : u8 p 0 % 2 = 0) (hzero : zeros p 1 7 = true)
    (haddr : addrOk c (u64 p 8) 64 = true) :
    devImageVerify c d = answer c (if (verifyTypes (bitsOf 6 (u8 p 0)) d).1 then stDone else stVerifyFailed) 0
      (some (u64 p 8, (verifyTypes (bitsOf 6 (u8 p 0)) d).2.1)) none (verifyTypes (bitsOf 6 (u8 p 0)) d).2.2 := by
  rw [devImageVerify, hb.runChk_eq _ _ (by simp [firstBad, hlt, heven, hzero, haddr])]
  rfl

theorem CmdBegun.devLogRead_eq (hb : CmdBegun d c 0x0A03 p) (hchk : firstBad (logReadChk c p d) = none) :
    let g := d.svc.logs.get (.ofIdx (u8 p 0))
    let l := (g.entries.filter fun e => u32 p 4 ≤ e.seq.toNat).take (u32 p 0x10)
    devLogRead c d = answer c stDone 0 (some (u64 p 8, toLE 4 ((g.entries.head?.map (·.seq)).getD g.nextSeq).toNat ++ toLE 4 g.nextSeq.toNat
        ++ toLE 4 l.length ++ zpad 4 ++ l.flatMap (logBytes (u8 p 0)))) none d := by
  rw [devLogRead, hb.runChk_eq _ _ hchk]
  rfl

theorem CmdBegun.devLogClear_west (hb : CmdBegun d c 0x0A04 p) (hw : u8 p 0 = 1) (hzero : zeros p 1 7 = true) :
    devLogClear c d = answer c stDone 0 none none (clearLog .west d) := by
  have h0 : tb 1 0 = true := by decide
  have h1 : tb 1 1 = false := by decide
  rw [devLogClear, hb.runChk_eq _ _ (by simp [firstBad, hw, hzero])]
  simp [hw, h0, h1, finish]

theorem CmdBegun.devCounterSelect_one (hb : CmdBegun d c 0x0A01 p) (hchk : firstBad (selectChk p d) = none) (hone : u16 p 2 = 1) :
    devCounterSelect c d = answer c stDone 0 none none (d.onSvc fun v =>
      { v with counters := v.counters.set (u16 p 0) (selectEvc (v.counters.getD (u16 p 0) {}) (slice p 8 8)) }) := by
  rw [devCounterSelect, hb.runChk_eq _ _ hchk]
  simp [hone, finish]

end

/-- An absent image fails its verification with result 1, and no header is read. -/
theorem verifyType_absent {d : Dev} {t : Nat} (habsent : imageAt d.svc (candidate d.svc) t = none) :
    verifyType t d = (1, toLE 1 t ++ toLE 1 1 ++ zpad 2 ++ toLE 4 0 ++ toLE 4 0 ++ zpad 4, storeWrite [rkBank (candidate d.svc)]
      (d.onSvc fun v => { v with banks := v.banks.upd (candidate d.svc) fun x => x.upd t fun i => { i with verified := false } })) := by
  simp only [verifyType, habsent]
  rfl

/-- Settles O36: each command by what it runs once its checks have passed. -/
theorem serviceCommands : Obligations.ServiceCommands := by
  unfold Obligations.ServiceCommands
  intro s c p hon
  refine ⟨fun hb ha h8 => .of_live hon rfl (hb.devDeviceInfo_eq ha h8), fun r b hb hchk h0 hheld => .of_live hon rfl (hb.devEnvCheck_held hchk h0 hheld),
    fun r o hb hside haddr hzero hfault => .of_liveQ hon rfl (hb.devRecordLoad_layout hside haddr hzero hfault),
    fun r hb hside haddr hzero hfault => .of_liveQ hon rfl (hb.devRecordLoad_judged hside haddr hzero hfault), ?stage, ?absent,
    fun hb hlt heven hzero haddr => .of_live hon rfl (hb.devImageVerify_eq hlt heven hzero haddr), fun hb hchk => .of_live hon rfl (hb.devLogRead_eq hchk),
    fun hb hw hzero => .of_live hon rfl (hb.devLogClear_west hw hzero), fun hb hchk hone => .of_live hon rfl (hb.devCounterSelect_one hchk hone)⟩
  case stage =>
    intro data hb hchk
    have heq := hb.devImageStage_eq (data := data) hchk
    exact ⟨fun hidle => .of_live hon rfl (by rw [heq, if_neg (not_not_intro hidle)]; rfl), fun hbusy => .of_live hon rfl (by rw [heq, if_pos hbusy]; rfl)⟩
  case absent =>
    intro hb htype hzero haddr habsent
    refine .of_live hon rfl ?_
    rw [hb.devImageVerify_eq (by omega) (by omega) hzero haddr, htype]
    rw [show bitsOf 6 2 = [1] from rfl, verifyTypes, verifyType_absent habsent]
    rfl

end Sys2Proof.Machine
end

section
/-! SUPPORT. The counterexample to the turn of a fetch unit (R200). -/

namespace Sys2Proof.Machine

/-- Tenant 0 with a fetch weight of 1 and no PASID. -/
def bareParams : TenParams :=
  { port := .west, pasid := none, mgmtW := true, mgmtE := true, acceptList := false, accept := [], memUnits := 0, winCount := 0, ropes := 0, winSlabs := 0,
    qpMax := 1, cqMax := 1, msgLimit := 1, fetchWeight := 1, opWeight := 1, opCtxLimit := 1, evqAddr := 0#64, evqLog2 := 0, evqVector := 0#16,
    createFrozen := false }

/-- A local queue pair with one entry, in a ring at a host address. -/
def oneEntryQp : Qp :=
  { par := { tenant := 0, kind := .loc, weight := 1, sqStanding := false, rqStanding := false, noRq := true, sqAddr := 0#64, rqAddr := 0#64, sqLog2 := 4,
             rqLog2 := 4, sendCq := 0, recvCq := 0 },
    st := .rts, sq := { p := 1 } }

/-- A running device whose only work is one entry of tenant 0 on tile 0. -/
def fetchingState : State :=
  { pending := [],
    dev := { pwr := { rails := .on, state := .active }, q := { qps := [(0, oneEntryQp)] },
             ten := { tenants := [(0, { par := bareParams, st := .active })], copies := List.replicate 10 [(0, bareParams)] } } }

theorem fetchingState_cands : fetchCands fetchingState.dev 0 = [⟨0, 0, 1, 0⟩] := by decide

/-- Refutes O40: a turn of a fetch unit does not store the credit the tenant has left. The model's row filters a table to a list and writes that list
at the position of the tenant's number, so an empty table of deficits stays empty, and the statement has the tenant's 7 there. -/
theorem not_workEntries : ¬ Obligations.WorkEntries := by
  unfold Obligations.WorkEntries
  intro h
  obtain ⟨hfetch, -⟩ := h fetchingState 0 1 oneEntryQp { par := bareParams, st := .active } [] rfl rfl rfl rfl
  have hstated := hfetch (by decide) fetchingState_cands (by decide) rfl rfl rfl
  have hruns : exec (.workFetch 0 []) fetchingState = .next { fetchingState with dev := settle (devWorkFetch 0 [] fetchingState.dev) } := rfl
  injection hruns.symm.trans hstated with hstate
  exact absurd (congrArg (fun s : State => nth s.dev.q.deficits 0 []) hstate) (by decide)

end Sys2Proof.Machine
end

section
/-! SUPPORT. The counterexample to the grant of a leg (R92). -/

namespace Sys2Proof.Machine

/-- An operation of tenant 0 with one leg, which waits for stack 0. -/
def waitingOp : Op := { tile := 0, tenant := 0, src := .entry 0 0, desc := [], legs := [{ stack := 0, runs := [], blocks := 0, stage := .placed }] }

/-- A running device in which the one leg waits, for a tenant of operation weight 4. -/
def grantingDev : Dev :=
  { pwr := { rails := .on, state := .active },
    ten := { tenants := [(0, { par := { bareParams with opWeight := 4 }, st := .active })] },
    eng := { ops := [(0, waitingOp)], stk := { queue := [(0, 0)] } :: List.replicate 31 {} } }

theorem grantingDev_heads : legHeads grantingDev 0 = [(0, 0, 0, waitingOp)] := by decide

/-- Refutes O43: a grant does not store the credit the tenant has left. The model's row filters a table to a list and writes that list at the position
of the tenant's number, so an empty table of deficits stays empty, and the statement has the tenant's 3 there. -/
theorem not_engineRules : ¬ Obligations.EngineRules := by
  unfold Obligations.EngineRules
  intro h
  obtain ⟨-, -, -, -, hgrant, -⟩ := h { pending := [], dev := grantingDev } rfl
  have hstated := hgrant grantingDev 0 0 0 0 waitingOp _ grantingDev_heads (by decide) (by decide) rfl rfl
  exact absurd (congrArg (fun d : Dev => (nth d.eng.stk 0 {}).deficit) hstated) (by decide)

end Sys2Proof.Machine
end

section
/-! SUPPORT. Legs of transfers, waits, the stall limit, and the COUNT of a completion queue (R12, R18, R30, R58, R210, R211, R218, R227). -/

namespace Sys2Proof.Machine

/-! ### Touching an online stack -/

theorem modAt_of_fix {α : Type} {l : List α} {i : Nat} {f : α → α} {x : α} (h : f (nth l i x) = nth l i x) : modAt l i f = l := by
  refine List.ext_getElem? fun j => ?_
  rw [modAt_getElem?]
  by_cases hj : j = i
  · subst hj
    cases hi : l[j]? with
    | none => simp
    | some y => simpa [nth, hi] using h
  · simp [hj]

/-- An online stack at which nothing waits is not changed by an access. -/
theorem touchStack_online {d : Dev} {k : Nat} (hmode : (d.stack k).mode = .online) (hheld : (d.stack k).held = []) (hmoves : (d.stack k).moves = []) :
    touchStack k d = d := by
  have hwake : wakeStack k d = d := by simp [wakeStack, hmode]
  have hserve : serveCells k d = d := by simp [serveCells, hheld, hmoves]
  have hfix : modAt d.mem.stk k (fun s => if s.mode = .waking then { s with mode := .online } else s) = d.mem.stk :=
    modAt_of_fix (x := ({} : Stack)) (by rw [if_neg]; rw [show (nth d.mem.stk k {}).mode = .online from hmode]; decide)
  rw [touchStack, hwake, hserve, Dev.onStk, Dev.onMem]
  simp only [hfix]

/-! ### Transfers and waits -/

section
variable {d e : Dev} {x l n : Nat} {t : Xfer} {g : XLeg} {bad : Bool}

/-- A leg from device memory that moves is marked as done, and its poison marks the transfer. -/
theorem devLegDone_moved (ht : d.q.xfers.get? x = some t) (hg : t.legs[l]? = some g) (hnew : g.done = false) (hsrc : ∃ p, g.src = .dev p)
    (hopen : legOpen d t.tile g = true) (hverb : weVerb t.entry ≠ vbAtomic) (hmove : moveLeg g d = some (bad, e)) :
    devLegDone x l d = xferEnd x 0#64 (e.onQ fun q => { q with xfers := q.xfers.upd x fun t =>
      { t with legs := modAt t.legs l fun g => { g with done := true }, poisoned := t.poisoned || bad, fail := t.fail.orElse fun _ => none } }) := by
  obtain ⟨p, hp⟩ := hsrc
  simp [devLegDone, ht, hg, hnew, hp, hopen, hverb, hmove]

theorem devLegDone_closed (ht : d.q.xfers.get? x = some t) (hg : t.legs[l]? = some g) (hclosed : legOpen d t.tile g = false) : devLegDone x l d = d := by
  simp [devLegDone, ht, hg, hclosed]

/-- Without poison, what moves between online stacks is what the source reads. -/
theorem moveLeg_online {a b : Nat}
    (hat : ∀ p ∈ [a, b], (d.stack (dpaStack p)).mode = .online ∧ (d.stack (dpaStack p)).held = [] ∧ (d.stack (dpaStack p)).moves = [])
    (hclean : d.mem.poison = []) :
    moveLeg { src := .dev a, dst := .dev b, len := n } d = some (false, memWrite b (memBytes d a n) d) := by
  obtain ⟨hma, hha, hva⟩ := hat a (by simp)
  obtain ⟨hmb, hhb, hvb⟩ := hat b (by simp)
  simp [moveLeg, touchStack_online hma hha hva, touchStack_online hmb hhb hvb, stackOffline, hma, hmb, placeDev, badWords, partPoison, hclean]

variable {q : Qp} {w : WaitSt} {c : Cq}

theorem devWaitSatisfied_eq (hq : d.qp? n = some q) (hw : q.wait = some w) (hnew : w.satisfied = false) (hc : d.cq? w.cq = some c)
    (hst : c.st ≠ .overflow) (hreached : 0 ≤ seqDiff c.count w.target) :
    let v := { w with satisfied := true, count := c.count }
    let e := d.onQp n fun q => { q with wait := some v }
    devWaitSatisfied n d = if weItems (waitEntry q w) = 0 then waitEnd n v e else e := by
  have hitems : waitEntry q { w with satisfied := true, count := c.count } = waitEntry q w := rfl
  simp only [devWaitSatisfied, hq, hw, hc, hnew, hst, not_lt.mpr hreached, hitems]
  rfl

end

/-- Settles O41: each row by the branch it takes. -/
theorem transfersAndWaits : Obligations.TransfersAndWaits := by
  unfold Obligations.TransfersAndWaits
  intro s hon
  refine ⟨fun x l t g bad d ht hg hnew hsrc hopen hverb hmove => .of_liveQ hon rfl (devLegDone_moved ht hg hnew hsrc hopen hverb hmove),
    fun x l t g ht hg hclosed => .of_liveQ hon rfl (devLegDone_closed ht hg hclosed), fun d a b n hat hclean => moveLeg_online hat hclean, ?wait,
    fun n q w hq hw hsat hflow => .of_liveQ hon rfl (by simp [devWaitPatchDone, hq, hw, hsat, hflow]), ?stall⟩
  case wait =>
    intro n q w c hq hw hnew hc hst hreached
    have heq := devWaitSatisfied_eq hq hw hnew hc hst hreached
    exact ⟨fun hnone => .of_liveQ hon rfl (heq.trans (if_pos hnone)), fun hsome => .of_liveQ hon rfl (heq.trans (if_neg hsome))⟩
  case stall =>
    intro n c hc hst
    exact ⟨fun ht => .of_liveQ hon rfl (by simp [devCqStallLimit, hc, hst, ht]), fun ht => .of_liveQ hon rfl (by simp [devCqStallLimit, hc, ht])⟩

/-! ### COUNT of a completion queue -/

section
variable {d : Dev} {n : Nat} {c : Cq} {e : Cqe}

theorem Tab.upd_upd {α : Type} (t : Tab α) (n : Nat) (f g : α → α) : Tab.upd (Tab.upd t n f) n g = Tab.upd t n fun x => g (f x) := by
  induction t with
  | nil => rfl
  | cons a t ih =>
    obtain ⟨k, y⟩ := a
    by_cases h : k = n <;> simp [Tab.upd, h, ih]

theorem Dev.cq?_onCq (hc : d.cq? n = some c) (f : Cq → Cq) : (d.onCq n f).cq? n = some (f c) := by
  rw [Dev.cq?, Dev.onCq, Dev.onQ, Tab.get?_upd_self, show d.q.cqs.get? n = some c from hc]
  rfl

theorem heldNote_cq? (p : Side) (w : HeldWork) (d : Dev) (n : Nat) : (heldNote p w d).cq? n = d.cq? n := by
  unfold heldNote
  split <;> rfl

/-- A released completion without an entry is counted, and nothing else of its queue changes. -/
theorem cqPush_unwritten (hc : d.cq? n = some c) (hopen : c.st = .open) (hok : e.code = ccOk) :
    cqPush n e false false d = d.onCq n fun c => { c with count := c.count + 1#32 } := by
  simp [cqPush, hc, hopen, hok]

theorem cqPush_wait_unwritten (hc : d.cq? n = some c) (hopen : c.st = .open) (hok : e.code = ccOk) : cqPush n e false true d = d := by
  simp [cqPush, hc, hopen, hok]

/-- An entry that finds the ring full is counted and held. -/
theorem cqPush_full (hc : d.cq? n = some c) (hopen : c.st = .open) (hnone : c.held = []) (hfull : ringSub (cqSize c) c.p c.c = cqSize c) :
    ∃ x, (cqPush n e true false d).cq? n = some x ∧ x.count = c.count + 1#32 ∧ x.held = [e] ∧ x.st = if 64 ≤ 1 + poolUnits d 13 n then .stalled else .holding := by
  have hno (d : Dev) : cqCanWrite d n c = false := by simp [cqCanWrite, hfull]
  simp only [cqPush, hc, hopen, hnone, hno, reduceCtorEq, if_false, Bool.not_true, Bool.false_and, Bool.false_eq_true, Bool.and_false, heldNote_cq?]
  rw [Dev.cq?_onCq (Dev.cq?_onCq hc _)]
  exact ⟨_, rfl, rfl, by simp [hnone], by simp⟩

theorem cqPush_overflow (hc : d.cq? n = some c) :
    cqPush n e true false (d.onCq n fun c => { c with st := .overflow }) = d.onCq n fun c => { c with st := .overflow, discarded := c.discarded + 1 } := by
  rw [cqPush, Dev.cq?_onCq hc]
  simp only [if_true, Dev.onCq, Dev.onQ, Tab.upd_upd]

end

/-- Settles O42: `cqPush` by the state of the queue. -/
theorem completionsCounted : Obligations.CompletionsCounted := by
  unfold Obligations.CompletionsCounted
  intro d n c e hc hopen
  refine ⟨fun hok => ?_, cqPush_wait_unwritten hc hopen, cqPush_full hc hopen, cqPush_overflow hc⟩
  rw [cqPush_unwritten hc hopen hok, Dev.cq?_onCq hc]
  exact ⟨_, rfl, rfl, rfl, rfl⟩

end Sys2Proof.Machine
end

section
/-! SUPPORT. Requests of a peer that pass every check (R33, R34, R179 to R181, R255 to R257). -/

namespace Sys2Proof.Machine

section
variable {e : Dev} {n port : Nat} {t : BitVec 8} {p : Pkt} {arr : BitVec 32} {q : Qp}

/-- A request that runs now goes to its type. -/
theorem rxServe_request (hq : e.qp? n = some q) (hland : landFlow e (portTile port) (targetPlaces e port q t p) = none) (ht : isReq t = true)
    (hruns : ReqRuns e q t p) : rxServe n port t p arr e =
      if t = ptSend then rxSend n port p arr e else if t = ptWrite then rxWrite n port p arr e else rxHold n port t p arr e := by
  obtain ⟨hready, hfresh⟩ := hruns
  simp only [rxServe, rxRequest, hq, hland, ht, hready, if_true, Bool.false_eq_true, if_false, not_lt.mpr hfresh]

theorem windowGate_ok {w : Window} (hw : winCheck e (portTile port) p (reqNeed t p) (reqRanges t p) = .ok w) :
    windowGate n port t p e = (some w, count 0x0808 (portTile port) (some w.tenant) 1 e) := by
  simp only [windowGate, hw]

theorem windowGate_error {c : Nat} (hw : winCheck e (portTile port) p (reqNeed t p) (reqRanges t p) = .error c) :
    windowGate n port t p e = (none, nakFatal n c (winDetail c) p (count 0x0809 (portTile port) (qpTenant e n) 1 e)) := by
  simp only [windowGate, hw]

/-- The first packet of a WRITE without an immediate is placed through its window. -/
theorem rxWrite_placed {w : Window} (hq : e.qp? n = some q) (hnew : rxMsg? q p.msn = none) (himm : pflag p pfImm = false)
    (hw : winCheck e (portTile port) p 2 (reqRanges ptWrite p) = .ok w) :
    let a := winAddr w (bx p.ext 8 8 + p.msgOffset.toNat)
    let d := lookupRange (portTile port) w.tenant a p.payload.length (.placing n p.msn) (count 0x0808 (portTile port) (some w.tenant) 1 e)
    rxWrite n port p arr e = placePkt n port ptWrite p arr none none (xrange d (portTile port) w.tenant a p.payload.length true).toOption d := by
  have hfits : conflicts { msn := p.msn, verb := ptWrite, len := none, ssn := none } ptWrite p none none = false := by simp [conflicts]
  simp only [rxWrite, windowGate_ok (n := n) (t := ptWrite) hw, count_qp?, hq, hnew, himm, Bool.false_eq_true, if_false, Option.getD_none, hfits]

/-- The first packet of a SEND is placed where its receive entry was translated to. -/
theorem rxSend_placed {r : Recv} (hq : e.qp? n = some q) (hnew : rxMsg? q p.msn = none)
    (hfits : conflicts { msn := p.msn, verb := ptSend, len := some (bx p.ext 4 4), ssn := some (BitVec.ofNat 32 (bx p.ext 0 4)) } ptSend p
      (some (BitVec.ofNat 32 (bx p.ext 0 4))) (some (bx p.ext 4 4)) = false)
    (hrecv : recvFor q p.msn (BitVec.ofNat 32 (bx p.ext 0 4)) = .some_ r) (hlen : bx p.ext 4 4 ≤ weLen r.bytes)
    (hissue : hostShut (e.onQp n fun q => { q with recvs := q.recvs.map fun x => if x.ord = r.ord && x.fin.isNone then { x with msn := some p.msn } else x })
      (placesAt r.runs p.msgOffset.toNat p.payload.length) = false) :
    rxSend n port p arr e = placePkt n port ptSend p arr (some (BitVec.ofNat 32 (bx p.ext 0 4))) (some (bx p.ext 4 4))
      (some (placesAt r.runs p.msgOffset.toNat p.payload.length))
      (e.onQp n fun q => { q with recvs := q.recvs.map fun x => if x.ord = r.ord && x.fin.isNone then { x with msn := some p.msn } else x }) := by
  simp only [rxSend, withRecv, hq, hnew, Option.getD_none, hfits, hrecv, not_lt.mpr hlen, hissue, Bool.false_eq_true, if_false]

section
variable {w : Window} (hq : e.qp? n = some q) (hnew : rxMsg? q p.msn = none)
  (hform : (t = ptOperateReq && (p.payload.length % 64 ≠ 0 || 512 < p.payload.length || p.payload = [] || !pflag p pfFirst || !pflag p pfLast)) = false)
include hq hnew hform

/-- A READ, ATOMIC or OPERATE past its checks is held, with its window's drain count raised. -/
theorem rxHold_held (hw : winCheck e (portTile port) p (reqNeed t p) (reqRanges t p) = .ok w)
    (hdesc : (if t = ptOperateReq then descCheck false p.payload.length p.payload else none) = none) :
    rxHold n port t p arr e = upRx n { msn := p.msn, verb := t, len := none, port := port, request := some p, psn := p.psn, path := p.path, arrived := arr } id
      (drainUp (bx p.ext 0 4) (portTile port) (count 0x0808 (portTile port) (some w.tenant) 1 e)) := by
  simp only [rxHold, hq, hnew, hform, windowGate_ok hw, hdesc, Bool.false_eq_true, if_false]

theorem rxHold_refused {c : Nat} (hw : winCheck e (portTile port) p (reqNeed t p) (reqRanges t p) = .error c) :
    rxHold n port t p arr e = nakFatal n c (winDetail c) p (count 0x0809 (portTile port) (some q.par.tenant) 1 e) := by
  simp only [rxHold, hq, hnew, hform, windowGate_error hw, qpTenant, Bool.false_eq_true, if_false, Option.map_some]

end

/-- A taken request in order that runs goes to its type. -/
theorem PktTaken.devPkt_request {d : Dev} (h : PktTaken d port t p q e) (ho : PktInOrder q t p) (hctl : isCtl t = false) (ht : isReq t = true)
    (hland : landFlow e (portTile port) (targetPlaces e port q t p) = none) (hruns : ReqRuns e q t p) :
    devPkt t port p d = if t = ptSend then rxSend p.dstQpn.toNat port p (e.pwr.tsc.setWidth 32) e
      else if t = ptWrite then rxWrite p.dstQpn.toNat port p (e.pwr.tsc.setWidth 32) e
      else rxHold p.dstQpn.toNat port t p (e.pwr.tsc.setWidth 32) e := by
  rw [h.devPkt_inOrder ho hctl]
  exact rxServe_request h.qp?_eq hland ht hruns

end

/-- Settles O44: a request past its checks is led to its type (`PktTaken.devPkt_request`), and from there it is placed, held or refused. -/
theorem requestsArrive : Obligations.RequestsArrive := by
  unfold Obligations.RequestsArrive
  intro s port p q e hon
  refine ⟨?write, ?send, ?crosses, ?read, ?atomic, ?operate, ?refused⟩
  case write =>
    rintro w ⟨⟨h, ho⟩, hland, hruns, hnew⟩ himm hw
    exact .of_liveQ hon rfl ((h.devPkt_request ho rfl rfl hland hruns).trans
      ((if_neg (by decide)).trans ((if_pos rfl).trans (rxWrite_placed h.qp?_eq hnew himm hw))))
  case send =>
    rintro r ⟨⟨h, ho⟩, hland, hruns, hnew⟩ ssn len places d hfits hrecv hlen hissue
    exact .of_liveQ hon rfl ((h.devPkt_request ho rfl rfl hland hruns).trans
      ((if_pos rfl).trans (rxSend_placed h.qp?_eq hnew hfits hrecv hlen hissue)))
  case crosses =>
    rintro t u (⟨rfl, -⟩ | rfl) ⟨h, ho⟩ hland
    · exact .of_liveQ hon rfl ((h.devPkt_inOrder ho rfl).trans (rxServe_crosses h.qp?_eq hland))
    · exact .of_liveQ hon rfl ((h.devPkt_inOrder ho rfl).trans (rxServe_crosses h.qp?_eq hland))
  case read =>
    rintro w ⟨⟨h, ho⟩, hland, hruns, hnew⟩ hw
    exact .of_liveQ hon rfl ((h.devPkt_request ho rfl rfl hland hruns).trans
      ((if_neg (by decide)).trans ((if_neg (by decide)).trans (rxHold_held h.qp?_eq hnew rfl hw rfl))))
  case atomic =>
    rintro w ⟨⟨h, ho⟩, hland, hruns, hnew⟩ hw
    exact .of_liveQ hon rfl ((h.devPkt_request ho rfl rfl hland hruns).trans
      ((if_neg (by decide)).trans ((if_neg (by decide)).trans (rxHold_held h.qp?_eq hnew rfl hw rfl))))
  case operate =>
    rintro w ⟨⟨h, ho⟩, hland, hruns, hnew⟩ hmod hmax hsome hfirst hlast hw hdesc
    exact .of_liveQ hon rfl ((h.devPkt_request ho rfl rfl hland hruns).trans
      ((if_neg (by decide)).trans ((if_neg (by decide)).trans (rxHold_held h.qp?_eq hnew (by simp [hmod, hmax, hsome, hfirst, hlast]) hw ((if_pos rfl).trans hdesc)))))
  case refused =>
    rintro c ⟨⟨h, ho⟩, hland, hruns, hnew⟩ hw
    exact .of_liveQ hon rfl ((h.devPkt_request ho rfl rfl hland hruns).trans
      ((if_neg (by decide)).trans ((if_neg (by decide)).trans (rxHold_refused h.qp?_eq hnew rfl hw))))

end Sys2Proof.Machine
end

section
/-! SUPPORT. Other frames, address requests, PACKET_SEND and the delivery timers (R238, R251, R260, R263 to R269, R272, R300, R312, R339). -/

namespace Sys2Proof.Machine

section
variable {d : Dev} {port : Nat} {h : FrameHdr}

/-! ### Frames -/

section
variable (hup : portUp d port = true) (hmode : (d.port port).ent.mode ≠ .direct) (hroom : bufFull d port 64 = false)
include hup hmode hroom

/-- A frame that finds room at an Ethernet port is judged by its FCS, its addresses and then as an odd packet. -/
theorem devNonEwewaFrame_room : devNonEwewaFrame port h d
    = if !h.fcsOk then count 0x0100 port none 1 d else if !ewewaFrame d h then count 0x0101 port none 1 d else oddFrame port h d := by
  simp [devNonEwewaFrame, hup, hroom, frameIn, hmode]

theorem devNonEwewaFrame_odd (hfcs : h.fcsOk = true) (hmine : ewewaFrame d h = true) : devNonEwewaFrame port h d = oddFrame port h d := by
  simp [devNonEwewaFrame_room hup hmode hroom, hfcs, hmine]

/-- A request for one of the device's addresses is answered through EQ7. -/
theorem ownQuery_own {n : Nat} {addr : PortEntry → Bytes} {ip : Bytes} {f : Bytes → FrameKind × Nat} (hlen : ip.length = n)
    (hown : ∃ p ∈ d.net.ports, ownIp (addr p.ent) ip n = true) :
    let me := ownMac (d.port port) (addr (d.port port).ent) ip n
    ownQuery port n addr ip f d = ownIn port 7 { len := (f me).2, excess := false, entered := now d, kind := (f me).1 } d := by
  have hany : d.net.ports.any (fun p => ownIp (addr p.ent) ip n) = true := List.any_eq_true.mpr hown
  simp [ownQuery, hup, hroom, frameIn, hmode, hlen, hany]

end

/-- A packet of an unknown type and without keys is judged by its trailer, then its version, and is malformed. -/
theorem oddFrame_unknown (hlen : 36 ≤ h.udpLen) (hknown : ptKnown h.ptype = false) (hplain : pflag h.p pfAuth = false) (hkey : authOf d h.p.dstQpn.toNat = none) :
    oddFrame port h d = if h.p.trailer = toLE 4 (crc32c (coveredBytes h.ptype h.p)).toNat then
        if versionOk d h.p.dstQpn.toNat h.p = true then malformed port h.p d else versionBad port h.p d
      else trailerBad port d := by
  have hlong : ¬ h.udpLen < 32 + (if pflag h.p pfAuth then 16 else 4) := by simp [hplain, hlen]
  have hform : pktForm (decide (h.p.ver.toNat / 16 = 1)) h.ptype h.p = false := by simp [pktForm, hknown]
  have hodd : oddFrame port h d = rxTrailer h.ptype port h.p d := by
    rw [oddFrame, if_neg hlong]
    simp only [hknown, needsCore, hplain, Bool.false_and, Bool.false_eq_true, if_false]
  rw [hodd]
  by_cases hcrc : h.p.trailer = toLE 4 (crc32c (coveredBytes h.ptype h.p)).toNat
  · by_cases hver : versionOk d h.p.dstQpn.toNat h.p = true <;>
      simp [rxTrailer, trailerCheck, hkey, hplain, hcrc, setAuth, rxChecked, hver, hform]
  · simp [rxTrailer, trailerCheck, hkey, hplain, hcrc]

/-- The LLDPDU of the partner that was expected brings the port up. -/
theorem devLldpdu_expected (hport : port < d.net.ports.length) (hroom : bufFull d port 64 = false) (hst : (d.port port).st = .checking)
    (hdue : (d.port port).lldpDue = true) : devLldpdu port (d.port port).ent.chassis (d.port port).ent.portId d
      = portUpNow port (d.onPort port fun p => { p with lldpSeen := some ((d.port port).ent.chassis, (d.port port).ent.portId) }) := by
  have hself (f : NetPort → NetPort) : (d.onPort port f).port port = f (d.port port) := nth_modAt_self _ _ _ _ hport
  simp [devLldpdu, hroom, hself, hst, hdue]

/-! ### PACKET_SEND and the timers -/

variable {n : Nat} {q : Qp}

/-- The next packet of a queue pair without keys goes on the path that is chosen for it. -/
theorem devPacketSend_sent {u : TxPkt} {ext data : Bytes} {r : Qp} {k : Nat} {pa : Path} (hq : d.qp? n = some q) (hst : q.st = .rtr ∨ q.st = .rts)
    (htile : tileUp d (qpTile n) = true) (hkey : q.conn.auth = none) (hu : nextPkt q = some u)
    (hdata : payloadOf (touchPlaces (payloadPlaces d n q u) d) n q u = .ok ext data)
    (hshape : (tenantShaper d q.par.tenant (qpTile n)).enable = false ∨ 0 < (tenantShaper d q.par.tenant (qpTile n)).peak)
    (hr : (dropDeadPaths n d).qp? n = some r)
    (hpath : choosePath u (eligible (dropDeadPaths n d) n r u.ptype (plannedLen (dropDeadPaths n d) n r ext data)) = some (k, pa, port)) :
    devPacketSend n d = sendOn n r u ext data k pa port (dropDeadPaths n (touchPlaces (payloadPlaces d n q u) d)) := by
  have hstate : (!(decide (q.st = .rtr) || decide (q.st = .rts)) || !tileUp d (qpTile n)) = false := by rcases hst with h | h <;> simp [h, htile]
  have hopen : ((tenantShaper d q.par.tenant (qpTile n)).enable && decide ((tenantShaper d q.par.tenant (qpTile n)).peak ≤ 0)) = false := by
    rcases hshape with h | h
    · simp [h]
    · simp [not_le.mpr h]
  simp only [devPacketSend, hq, hstate, hu, seqSpent, hkey, hdata, hopen, hr, hpath, Bool.false_eq_true, if_false, Option.isSome_none, Bool.and_false, Bool.false_and]

/-- The retransmission timer of a packet that has been sent, or that is the next and has no route, resends it until the seventh time. -/
theorem devTimer_runs {u : TxPkt} (hq : d.qp? n = some q) (hu : pkt? q u.psn = some u) (hfree : suspended q u = false)
    (hruns : u.sends ≠ 0 ∨ (q.conn.unacked.find? fun x => x.sends = 0) = some u ∧ noRoute d n q = true) :
    devTimer (.qp n) u.psn d = if 7 ≤ u.retx then noAck n u d else markResend n u (some 0x0404) true d := by
  have hon : ((decide (u.sends ≠ 0) || (decide (((q.conn.unacked.find? fun x => x.sends = 0).map (·.psn)) = some u.psn) && noRoute d n q)) && !suspended q u) = true := by
    rcases hruns with h | ⟨h, hno⟩
    · simp [h, hfree]
    · simp [h, hno, hfree]
  simp only [devTimer, devRetransmitTimer, hq, hu, hon, Bool.not_true, Bool.false_eq_true, if_false]

theorem devMsnProbe_eq {m : TxMsg} (hq : d.qp? n = some q) (hm : (q.conn.msgs.find? fun m => !m.opened) = some m) (hkind : q.par.kind ≠ .v1) (hst : q.st = .rts) :
    devMsnProbe n d = if 7 ≤ m.probes then msgFail n m ccRetryExceeded 0x47 d
      else sendProbe n (((List.range q.paths.length).find? fun k => (q.paths[k]?).any (·.up)).getD 0)
        (d.onConn n fun c => { c with msgs := c.msgs.map fun x => if x.msn = m.msn then { x with probes := x.probes + 1 } else x }) := by
  simp [devMsnProbe, hq, hm, hkind, hst]

theorem devNotReadyBackoff_eq {msn : BitVec 32} (hq : d.qp? n = some q) (hm : ∃ m ∈ q.conn.msgs, m.msn = msn ∧ m.suspended = true) :
    devNotReadyBackoff n msn d = d.onConn n fun c => { c with
      msgs := c.msgs.map fun m => if m.msn = msn then { m with suspended := false } else m
      unacked := c.unacked.map fun u => if isReq u.ptype && u.msn = msn then { u with due := true } else u } := by
  have hany : (q.conn.msgs.any fun m => m.msn = msn && m.suspended) = true := by simpa [List.any_eq_true] using hm
  simp only [devNotReadyBackoff, hq, hany, Bool.not_true, Bool.false_eq_true, if_false]

end

/-- Settles O46: each frame and each timer by the branch it takes. -/
theorem framesAndTimers : Obligations.FramesAndTimers := by
  unfold Obligations.FramesAndTimers
  intro s hon
  refine ⟨?frames, fun port h hup hfull => .of_liveQ hon rfl (by simp [devNonEwewaFrame, hup, hfull]), ?pause, ?lldp, ?send, ?resend,
    fun n q hq hsome hst => .of_liveQ hon rfl (by simp [devAckDue, devAckTimer, hq, hsome, hst]),
    fun n q msn hq hm => .of_liveQ hon rfl (devNotReadyBackoff_eq hq hm), ?probe,
    fun n q hq hst hno => .of_liveQ hon rfl (by simp [devGrantAnnounce, hq, hst, hno]),
    fun n q hq hleft => .of_liveQ hon rfl (by simp [devDisconnectRepeat, hq, hleft]), fun n hnone => .of_live hon rfl (by simp [devTombstoneExpiry, hnone])⟩
  case frames =>
    intro port hup hmode hroom
    refine ⟨fun h hfcs => .of_liveQ hon rfl (by simp [devNonEwewaFrame_room hup hmode hroom, hfcs]),
      fun h hfcs hmine => .of_liveQ hon rfl (by simp [devNonEwewaFrame_room hup hmode hroom, hfcs, hmine]),
      fun h hfcs hmine hshort => .of_liveQ hon rfl (by rw [devNonEwewaFrame_odd hup hmode hroom hfcs hmine, oddFrame, if_pos hshort]), ?odd,
      fun mac src ip hlen hown => .of_live hon rfl (ownQuery_own hup hmode hroom hlen hown),
      fun mac src ip hlen hown => .of_live hon rfl (ownQuery_own hup hmode hroom hlen hown)⟩
    case odd =>
      intro h hfcs hmine hlen hknown hplain hkey sound
      have heq := (devNonEwewaFrame_odd hup hmode hroom hfcs hmine).trans (oddFrame_unknown hlen hknown hplain hkey)
      exact ⟨fun hbad => .of_liveQ hon rfl (heq.trans (if_neg hbad)),
        fun hok hver => .of_liveQ hon rfl (heq.trans ((if_pos hok).trans (if_neg (by simp [hver])))),
        fun hok hver => .of_liveQ hon rfl (heq.trans ((if_pos hok).trans (if_pos hver)))⟩
  case pause =>
    intro port
    exact ⟨fun hruns hroom => .of_live hon rfl (by simp [devPauseFrame, hruns, hroom]), fun hdown => .of_live hon rfl (by simp [devPauseFrame, hdown])⟩
  case lldp =>
    rintro port a b hport hroom hst hdue rfl rfl
    exact .of_live hon rfl (devLldpdu_expected hport hroom hst hdue)
  case send =>
    intro n q u ext data r k pa port hq hst htile hkey hu e hdata hshape d hr hpath
    exact .of_liveQ hon rfl (devPacketSend_sent hq hst htile hkey hu hdata hshape hr hpath)
  case resend =>
    intro n q u hq hu hfree hruns
    have heq := devTimer_runs hq hu hfree hruns
    exact ⟨fun hfew => .of_liveQ hon rfl (heq.trans (if_neg (by omega))), fun hmany => .of_liveQ hon rfl (heq.trans (if_pos hmany))⟩
  case probe =>
    intro n q m hq hm hkind hst
    have heq := devMsnProbe_eq hq hm hkind hst
    exact ⟨fun hfew => .of_liveQ hon rfl (heq.trans (if_neg (by omega))), fun hmany => .of_liveQ hon rfl (heq.trans (if_pos hmany))⟩

end Sys2Proof.Machine
end

section
/-! SUPPORT. Profiles, shapers, meters, gate lists and the timers that run them (R281, R284, R288 to R293, R296, R298, R301 to R304). -/

namespace Sys2Proof.Machine

/-! ### The commands -/

section
variable {d : Dev} {c : CmdSlot} {p : Bytes}

theorem CmdBegun.devCcProfileSet_entry (hb : CmdBegun d c 0x0507 p) (hchk : firstBad (ccProfileChk p d) = none) (h0 : u8 p 0 = 0) :
    devCcProfileSet c d = replFinish c 0x0507 stDone none [.profileEntry (u8 p 1)]
      (d.onNet fun n => { n with profiles := modAt n.profiles (u8 p 1) fun _ => parseProfile p, defined := insNat n.defined (u8 p 1) }) := by
  rw [devCcProfileSet, hb.runChk_eq _ _ hchk, if_pos h0]

theorem CmdBegun.devShaperSet_port (hb : CmdBegun d c 0x0701 p) (hchk : firstBad (shaperChk p d) = none) (h0 : u8 p 0 = 0) :
    devShaperSet c d = answer c stDone 0 none none (d.onPort (u8 p 1) fun x =>
      { x with queues := modAt x.queues (u8 p 2) fun q => { q with shaper := { q.shaper with next := some (parseShaper p) } } }) := by
  rw [devShaperSet, hb.runChk_eq _ _ hchk]
  exact if_pos h0

theorem CmdBegun.devMeterSet_port (hb : CmdBegun d c 0x0702 p) (hchk : firstBad (meterChk p d) = none) (h0 : u8 p 0 = 0) :
    devMeterSet c d = answer c stDone 0 none none (d.onPort (u8 p 1) fun x => { x with meter := { x.meter with next := some (parseMeter p) } }) := by
  rw [devMeterSet, hb.runChk_eq _ _ hchk]
  exact if_pos h0

theorem CmdBegun.devGateListSet_enabled (hb : CmdBegun d c 0x0703 p) (hchk : firstBad (gateChk p d) = none) (hnone : (d.port (u8 p 0)).gatePending = none)
    (h1 : u8 p 1 = 1) :
    let l : GateList := ⟨u64 p 8, u32 p 0x10, gateEntries p⟩
    devGateListSet c d = (leave c [u8 p 0] d).onPort (u8 p 0) fun x => { x with gatePending := some ⟨some l, c, cycleStart l.base l.cycle (now d + usTicks 10)⟩ } := by
  rw [devGateListSet, hb.runChk_eq _ _ hchk]
  simp only [hnone, h1, Option.isSome_none, Bool.false_eq_true, if_false]
  rfl

end

/-! ### Cycles and fills -/

/-- A cycle starts at the first instant from `t` that is congruent to its base. -/
theorem cycleStart_spec (base t : Nat) {cycle : Nat} (hpos : 0 < cycle) :
    t ≤ cycleStart base cycle t ∧ cycleStart base cycle t < t + cycle ∧ (cycleStart base cycle t : Int) % cycle = (base : Int) % cycle := by
  rw [cycleStart, if_neg (Nat.ne_of_gt hpos)]
  split
  next h =>
    have hdiv := Nat.div_add_mod (t - base + cycle - 1) cycle
    have hmod := Nat.mod_lt (t - base + cycle - 1) hpos
    rw [Nat.mul_comm] at hdiv
    refine ⟨?_, ?_, ?_⟩
    · rw [ceilDiv]; omega
    · rw [ceilDiv]; omega
    · push_cast
      exact Int.add_mul_emod_self_right _ _ _
  next h =>
    have hdiv := Nat.div_add_mod (base - t) cycle
    have hmod := Nat.mod_lt (base - t) hpos
    rw [Nat.mul_comm] at hdiv
    refine ⟨by omega, by omega, ?_⟩
    rw [Nat.cast_sub (by omega)]
    push_cast
    exact Int.sub_mul_emod_self_right _ _ _

/-- What the first fills of a rate add up to. -/
theorem fillOf_sum (rate n : Nat) : ((List.range n).map (fillOf rate)).sum = 8192 * rate * n / 1000 := by
  induction n with
  | zero => simp
  | succ n ih =>
    have hmono : 8192 * rate * n / 1000 ≤ 8192 * rate * (n + 1) / 1000 := Nat.div_le_div_right (Nat.mul_le_mul_left _ (Nat.le_succ n))
    rw [List.range_succ, List.map_append, List.sum_append, ih]
    simp only [List.map_cons, List.map_nil, List.sum_cons, List.sum_nil, fillOf]
    omega

/-- The fills repeat after 125 periods, in which they add the rate exactly. -/
theorem fillOf_period (rate k : Nat) : fillOf rate (k + 125) = fillOf rate k ∧ ((List.range 125).map (fillOf rate)).sum = 1024 * rate := by
  have hshift (n : Nat) : 8192 * rate * (n + 125) / 1000 = 8192 * rate * n / 1000 + 1024 * rate := by
    rw [show 8192 * rate * (n + 125) = 8192 * rate * n + 1024 * rate * 1000 by ring, Nat.add_mul_div_right _ _ (by decide)]
  constructor
  · have hnext := hshift (k + 1)
    rw [show k + 1 + 125 = k + 125 + 1 by omega] at hnext
    rw [fillOf, fillOf, hnext, hshift k]
    omega
  · rw [fillOf_sum]
    omega

/-! ### The timers -/

section
variable {d : Dev} {n k port : Nat}

theorem devPathHoldExpiry_eq {q : Qp} {x : Path} (hq : d.qp? n = some q) (hx : q.paths[k]? = some x) (hdown : x.up = false) (hst : q.st = .rts)
    (hkind : q.par.kind = .v2) :
    devPathHoldExpiry n k d = if x.probe ≠ [] then onPath n k (fun p => { p with probe := [], holdStart := now d }) d else sendProbe n k d := by
  simp [devPathHoldExpiry, hq, hx, hdown, hst, hkind]

theorem devBaseWinRotate_eq : devBaseWinRotate n k d
    = onPath n k (fun p => { p with basePrev := p.baseCur, baseCur := none, base := p.baseCur.orElse fun _ => p.base }) d := by
  refine congrArg (fun f => onPath n k f d) (funext fun p => ?_)
  cases p.baseCur <;> rfl

theorem Dev.onPort_congr {f g : NetPort → NetPort} (h : f (d.port port) = g (d.port port)) : d.onPort port f = d.onPort port g :=
  congrArg (fun l => d.onNet fun n => { n with ports := l }) (modAt_congr (x := ({} : NetPort)) h)

theorem devGateEntryAdvance_on {g : GateList} (hg : (d.port port).gate = some g) (hon : (d.port port).gateOn = true) :
    devGateEntryAdvance port d = d.onPort port fun x => enterGate ((x.gateIdx + 1) % max 1 g.entries.length) x (now d) :=
  Dev.onPort_congr (by simp only [hg, hon, if_true])

theorem devGateListTakeover_removes {g : GatePending} (hg : (d.port port).gatePending = some g) (hnone : g.list = none) :
    devGateListTakeover port d = answerIf g.cmd 0x0703 stDone none (d.onPort port fun x =>
      { x with gate := none, gateOn := false, gateIdx := 0, gatePending := none, queues := x.queues.map fun e => { e with headWaited := false } }) := by
  simp only [devGateListTakeover, hg, hnone]

theorem foldl_fix {α : Type} {f : Dev → α → Dev} {l : List α} (d : Dev) (h : ∀ x ∈ l, f d x = d) : l.foldl f d = d := by
  induction l with
  | nil => rfl
  | cons x l ih => rw [List.foldl_cons, h x List.mem_cons_self]; exact ih fun y hy => h y (List.mem_cons_of_mem _ hy)

theorem devBucketFill_eq (h : ∀ y ∈ d.net.pace, y.2.egressNext = none) :
    let e := d.onRopes fun r => { r with slots := r.slots.map fun (i, x) => (i, fillRope d d.net.fills x) }
    devBucketFill d = e.onNet fun n => { n with
      fills := (n.fills + 1) % 125, ports := n.ports.map (fillPort n.fills), pace := n.pace.map fun (t, y) => (t, fillPace e n.fills t y) } := by
  rw [devBucketFill, foldl_fix d fun y hy => by simp only [h y hy]]
  rfl

/-- A frame that is to start on a sleeping port wakes it. -/
theorem devPortSchedule_sleep (hgate : gateHeld d (d.port port) = false) (hst : (d.port port).st = .sleep)
    (hpick : (pickFrame d { d.port port with st := .up }).1 ≠ .nothing) : devPortSchedule port d = d.onPort port fun x => { x with st := .up } := by
  rw [devPortSchedule]
  simp only [hgate, hst, Bool.false_eq_true, if_false, if_true]
  split
  next h => exact absurd (congrArg Prod.fst h) hpick
  next => rfl

/-- The head of EQ7, a frame of management where the port takes no others, is the next frame of a port that is up. -/
theorem pickFrame_eq7 {x : NetPort} {f : Frame} {rest : List Frame} (hst : x.st = .up) (hhold : x.holding = false)
    (hf : (nth x.queues 7 {}).frames = f :: rest) (htakes : linkTakes d x f false = true) : pickFrame d x = (.egress 7 f false, []) := by
  have hpick : pickCtl d x = some f := by
    have hall : mgtOnly x = false := by simp [mgtOnly, hst, hhold]
    simp [pickCtl, hall, hf, htakes]
  simp only [pickFrame, hpick]

/-- What the start of a frame of EQ7 leaves of its port. -/
def eq7Sent (d : Dev) (f : Frame) (x : NetPort) : NetPort :=
  { x with
    sleepSent := x.sleepSent && isMgt f
    queues := ((List.range 8).zip x.queues).map fun (i, q) => if i ≠ 7 then q else { q with
      frames := q.frames.erase f
      shaper := shaperCharge q.shaper f.len
      sent := q.sent + BitVec.ofNat 48 (f.len + 20)
      maxSojourn := max q.maxSojourn (now d - f.entered)
      headWaited := false
      deficit := if q.frames.length ≤ 1 then 0 else q.deficit } }

theorem devPortSchedule_eq7 {f : Frame} {rest : List Frame} (hgate : gateHeld d (d.port port) = false) (hst : (d.port port).st = .up)
    (hhold : (d.port port).holding = false) (hf : (nth (d.port port).queues 7 {}).frames = f :: rest) (htakes : linkTakes d (d.port port) f false = true) :
    devPortSchedule port d = startFrame port (ownChannel d (d.port port) f) false f
      (heldDrain 7 port (count 0x0504 port none 1 (count 0x0505 port none (f.len + 20) (d.onPort port (eq7Sent d f))))) := by
  rw [devPortSchedule]
  simp only [hgate, hst, Bool.false_eq_true, if_false, reduceCtorEq, pickFrame_eq7 hst hhold hf htakes]
  refine congrArg (fun e => startFrame port (ownChannel d (d.port port) f) false f (heldDrain 7 port (count 0x0504 port none 1
    (count 0x0505 port none (f.len + 20) e)))) (Dev.onPort_congr ?_)
  simp [eq7Sent, hf, Tab.get?]

end

/-- Settles O47: each command and each timer by what it makes of the device, and the two facts on cycles and fills. -/
theorem congestionRules : Obligations.CongestionRules := by
  unfold Obligations.CongestionRules
  intro s c p hon
  refine ⟨fun hb hchk h0 => .of_live hon rfl (hb.devCcProfileSet_entry hchk h0), fun hb hchk h0 => .of_live hon rfl (hb.devShaperSet_port hchk h0),
    fun hb hchk h0 => .of_live hon rfl (hb.devMeterSet_port hchk h0), fun hb hchk hnone h1 => .of_live hon rfl (hb.devGateListSet_enabled hchk hnone h1),
    fun base cycle t hpos => cycleStart_spec base t hpos, ?hold, fun n k => .of_live hon rfl devBaseWinRotate_eq,
    fun port g _ hg hgate => .of_live hon rfl (devGateEntryAdvance_on hg hgate), fun port g hg hnone => .of_live hon rfl (devGateListTakeover_removes hg hnone),
    .of_live hon rfl rfl, fun h => .of_live hon rfl (devBucketFill_eq h), fillOf_period,
    fun port hgate hst hpick => .of_live hon rfl (devPortSchedule_sleep hgate hst hpick),
    fun port f rest hgate hst hhold hf htakes => .of_live hon rfl (devPortSchedule_eq7 hgate hst hhold hf htakes)⟩
  case hold =>
    intro n k q x hq hx hdown hst hkind
    have heq := devPathHoldExpiry_eq hq hx hdown hst hkind
    exact ⟨fun hnone => .of_liveQ hon rfl (heq.trans (if_neg (not_not_intro hnone))), fun hsome => .of_liveQ hon rfl (heq.trans (if_pos hsome))⟩

end Sys2Proof.Machine
end

section
/-! SUPPORT. Blocks of the direct link layer (R315 to R320, R329, R343). -/

namespace Sys2Proof.Machine

section
variable {d : Dev} {port : Nat} {b : Block}

/-! ### What a block passes -/

theorem onLink_congr {f g : Link → Link} (h : f (d.port port).link = g (d.port port).link) : onLink port f d = onLink port g d :=
  Dev.onPort_congr (by rw [h])

/-- A link that carries blocks belongs to a port of the device. -/
theorem port_lt_of_linkLive (hlive : linkLive (d.port port) = true) : port < d.net.ports.length := by
  by_contra hout
  have hnone : d.port port = {} := by simp [Dev.port, nth, List.getElem?_eq_none (Nat.le_of_not_lt hout)]
  exact absurd hlive (by rw [hnone]; decide)

theorem Dev.port_onPort (hport : port < d.net.ports.length) (f : NetPort → NetPort) : (d.onPort port f).port port = f (d.port port) :=
  nth_modAt_self _ _ _ _ hport

theorem Dev.port_onLink (hport : port < d.net.ports.length) (f : Link → Link) : (onLink port f d).port port = { d.port port with link := f (d.port port).link } :=
  Dev.port_onPort hport _

/-- A count touches the counts of a port alone. -/
theorem count_port (src inst : Nat) (t : Option Nat) (n : Nat) (d : Dev) (port : Nat) :
    ∃ m, (count src inst t n d).port port = { d.port port with counts := m } := by
  have hput (e : Dev) (he : e.net = d.net) (f : Tab Nat → Tab Nat) :
      ∃ m, (e.onPort inst fun p => { p with counts := f p.counts }).port port = { d.port port with counts := m } := by
    have hnet : e.port port = d.port port := by rw [Dev.port, he]; rfl
    by_cases hp : port = inst
    · subst hp
      by_cases hlt : port < e.net.ports.length
      · exact ⟨_, by rw [Dev.port_onPort hlt, hnet]⟩
      · refine ⟨(d.port port).counts, ?_⟩
        have hsame : (e.onPort port fun p => { p with counts := f p.counts }).port port = e.port port := by
          simp only [Dev.port, nth, Dev.onPort, Dev.onNet, modAt_getElem?, List.getElem?_eq_none (Nat.le_of_not_lt hlt), Option.map_none, ite_self]
        rw [hsame, hnet]
    · exact ⟨(d.port port).counts, (nth_modAt_other _ _ _ _ _ hp).trans hnet⟩
  unfold count
  split
  · exact hput (d.onSvc _) rfl fun c => c.set src (c.getD src 0 + n)
  · split <;> exact ⟨(d.port port).counts, rfl⟩

@[simp] theorem count_ports_length (src inst : Nat) (t : Option Nat) (n : Nat) (d : Dev) : (count src inst t n d).net.ports.length = d.net.ports.length := by
  unfold count
  split
  · simp [Dev.onPort, Dev.onNet, Dev.onSvc]
  · split <;> rfl

/-- A bad block is counted against its port and leaves what its link has asked for. -/
theorem badBlock_link (hport : port < d.net.ports.length) (src : Nat) :
    ((badBlock port src d).port port).link.reqOut = (d.port port).link.reqOut ∧ ((badBlock port src d).port port).link.rxSeq = (d.port port).link.rxSeq := by
  have hlt : port < (count src port none 1 d).net.ports.length := by simpa using hport
  obtain ⟨m, hcount⟩ := count_port src port none 1 d port
  simp only [badBlock, Dev.port_onPort hlt, hcount, and_self]

theorem askReplay_badBlock (hport : port < d.net.ports.length) (src : Nat) : askReplay port (badBlock port src d)
    = if (d.port port).link.reqOut then badBlock port src d
      else sendPlain port btReplay (d.port port).link.rxSeq (onLink port (fun l => { l with reqOut := true }) (badBlock port src d)) := by
  obtain ⟨hreq, hseq⟩ := badBlock_link hport src
  rw [askReplay, hreq, hseq]

/-- Where nothing is unacknowledged an ACK_SEQ frees nothing. -/
theorem linkAck_none (ack : Nat) (hnone : (d.port port).link.unacked = []) : linkAck port ack d = d := by simp [linkAck, hnone]

theorem linkCredits_zero (vc : Nat) : linkCredits port vc 0 d = d := by simp [linkCredits]

/-- The index of the first block with a sequence number. -/
theorem findIdx_first {l : List (Nat × Block)} {i seq : Nat} {x : Nat × Block} (hx : l[i]? = some x) (hseq : x.1 = seq)
    (hfirst : ∀ k y, k < i → l[k]? = some y → y.1 ≠ seq) : (l.findIdx fun (s, _) => s = seq) = i := by
  obtain ⟨hi, rfl⟩ := List.getElem?_eq_some_iff.mp hx
  rw [List.findIdx_eq hi]
  exact ⟨by simpa using hseq, fun j hj => by simpa using hfirst j _ hj (List.getElem?_eq_getElem (hj.trans hi))⟩

/-- A block of sound form and CRC that acknowledges nothing and returns no credits goes to its type. -/
theorem rxBlock_plain (hlive : linkLive (d.port port) = true) (hcrc : blkCrcOk b = true) (hform : blkFormOk b = true) (hnone : (d.port port).link.unacked = [])
    (hcred : blkCredits b = 0) (f : Dev → Dev) :
    (blkType b ≠ btData → rxBlock port b f d = f d)
    ∧ (blkType b = btData → blkSeq b = (d.port port).link.rxSeq →
      rxBlock port b f d = f (onLink port (fun l => { l with rxSeq := (l.rxSeq + 1) % 4096, reqOut := false }) d)) := by
  constructor
  · intro htype
    simp [rxBlock, hlive, hcrc, hform, htype, hcred, linkCredits_zero, linkAck_none _ hnone]
  · intro htype hseq
    have hnext : ((onLink port (fun l => { l with rxSeq := (l.rxSeq + 1) % 4096, reqOut := false }) d).port port).link.unacked = [] := by
      rw [Dev.port_onLink (port_lt_of_linkLive hlive)]
      exact hnone
    simp [rxBlock, hlive, hcrc, hform, htype, hseq, hcred, linkCredits_zero, linkAck_none _ hnext]

/-- A block other than DATA of sound form and CRC acknowledges, returns credits and goes to its type. -/
theorem rxBlock_control (hlive : linkLive (d.port port) = true) (hcrc : blkCrcOk b = true) (hform : blkFormOk b = true) (htype : blkType b ≠ btData) (f : Dev → Dev) :
    rxBlock port b f d = f (linkCredits port (blkCreditVc b) (blkCredits b) (linkAck port (blkAck b) d)) := by
  simp [rxBlock, hlive, hcrc, hform, htype]

/-! ### DATA -/

section
variable (hlive : linkLive (d.port port) = true)
include hlive

theorem devData_badCrc (hcrc : blkCrcOk b = false) : devData port b d = askReplay port (badBlock port 0x0200 d) := by
  simp [devData, rxBlock, hlive, hcrc]

theorem devData_badSeq (hcrc : blkCrcOk b = true) (htype : blkType b = btData) (hseq : blkSeq b ≠ (d.port port).link.rxSeq) :
    devData port b d = askReplay port (badBlock port 0x0201 d) := by
  simp [devData, rxBlock, hlive, hcrc, htype, hseq]

end

section
variable {l : Link} (hl : (d.port port).link = l)
include hl

/-- A block without a place is a violation, and the frame open on its channel is discarded. -/
theorem takeData_noPlace (hplace : nth l.rxCredits (blkVc b) 0 = 0) :
    takeData port b d = linkViolation port 0x0204 true (dropOpen port (blkVc b) (!blkEof b) d) := by
  simp only [takeData, hl, hplace, if_true]

/-- A block in order extends or ends the frame of its channel. -/
theorem takeData_frame (hvc : blkVc b < 6) (hplace : nth l.rxCredits (blkVc b) 0 ≠ 0) (hdrop : nth l.dropping (blkVc b) false = false)
    (hlen : (nth l.openBlocks (blkVc b) []).length < 35) (hsof : blkSof b = decide (nth l.openBlocks (blkVc b) [] = [])) :
    let opened := nth l.openBlocks (blkVc b) []
    let body := slice b.payload 0 (blkLen b)
    let took := onLink port (fun l => { l with rxCredits := modAt l.rxCredits (blkVc b) (· - 1) }) d
    takeData port b d = if blkEof b then wholeFrame port (blkVc b) (opened.length + 1) (opened.flatten ++ body)
        (onLink port (fun l => { l with openBlocks := modAt l.openBlocks (blkVc b) fun _ => [] }) took)
      else onLink port (fun l => { l with openBlocks := modAt l.openBlocks (blkVc b) fun x => x ++ [body] }) took := by
  have hsix : blkVc b ≠ 6 := by omega
  have hfew : ¬ 35 ≤ (nth l.openBlocks (blkVc b) []).length := not_le.mpr hlen
  by_cases hnone : nth l.openBlocks (blkVc b) [] = []
  · simp [takeData, hl, hplace, hsix, hdrop, hsof, hnone]
  · simp [takeData, hl, hplace, hsix, hdrop, hsof, hnone, hfew]

/-- A link-management message frees its place, and one of an unknown type is counted. -/
theorem takeData_mgt (hvc : blkVc b = 6) (hplace : nth l.rxCredits (blkVc b) 0 ≠ 0) (hsof : blkSof b = true) (heof : blkEof b = true) :
    let owed := oweBack port 6 1 (onLink port (fun l => { l with rxCredits := modAt l.rxCredits (blkVc b) (· - 1) }) d)
    takeData port b d = if 1 ≤ u8 b.payload 0 ∧ u8 b.payload 0 ≤ 6 then owed else count 0x0209 port none 1 owed := by
  rw [hvc] at hplace
  simp [takeData, mgtBlock, hl, hplace, hvc, hsof, heof]

end

/-! ### IDLE and REPLAY_REQ -/

theorem devIdle_acks {i : Nat} {x : Nat × Block} (hlive : linkLive (d.port port) = true) (hcrc : blkCrcOk b = true) (hform : blkFormOk b = true)
    (htype : blkType b = btIdle) (hcred : blkCredits b = 0) (hhold : (d.port port).holding = false) (hsleep : (d.port port).sleepDue = false)
    (hx : (d.port port).link.unacked[i]? = some x) (hack : x.1 = blkAck b) (hpos : 0 < i)
    (hfirst : ∀ k y, k < i → (d.port port).link.unacked[k]? = some y → y.1 ≠ blkAck b) :
    devIdle port b d = onLink port (fun l => { l with unacked := l.unacked.drop i, replayCount := 0 }) d := by
  have hport := port_lt_of_linkLive hlive
  have hlt : i < (d.port port).link.unacked.length := (List.getElem?_eq_some_iff.mp hx).1
  rw [devIdle, rxBlock_control hlive hcrc hform (by rw [htype]; decide), hcred, linkCredits_zero]
  simp only [linkAck, findIdx_first hx hack hfirst, hlt, if_true, if_neg (Nat.ne_of_gt hpos), holdWhenDrained, sleepWhenDrained, Dev.port_onLink hport, hhold, hsleep,
    Bool.false_and, Bool.and_false, Bool.false_eq_true, if_false]

theorem devIdle_credits (hlive : linkLive (d.port port) = true) (hcrc : blkCrcOk b = true) (hform : blkFormOk b = true)
    (htype : blkType b = btIdle) (hnone : (d.port port).link.unacked = []) (hvc : blkCreditVc b < 7) (hcred : blkCredits b ≠ 0) :
    let top := nth linkDepth (blkCreditVc b) 0
    let e := onLink port (fun l => { l with credits := modAt l.credits (blkCreditVc b) fun x => min top (x + blkCredits b) }) d
    devIdle port b d = if top < nth (d.port port).link.credits (blkCreditVc b) 0 + blkCredits b then linkViolation port 0x0205 true e else e := by
  rw [devIdle, rxBlock_control hlive hcrc hform (by rw [htype]; decide), linkAck_none _ hnone]
  simp only [linkCredits, hcred, not_le.mpr hvc, decide_false, Bool.or_self, Bool.false_eq_true, if_false]

/-- A REPLAY_REQ that frees nothing asks for the blocks from its sequence number on. -/
theorem devReplayReq_from (hlive : linkLive (d.port port) = true) (hcrc : blkCrcOk b = true) (hform : blkFormOk b = true) (htype : blkType b = btReplay)
    (hcred : blkCredits b = 0) (hack : blkAck b ≠ (d.port port).link.txSeq)
    (hnone : ∀ k y, 0 < k → (d.port port).link.unacked[k]? = some y → y.1 ≠ blkAck b) : devReplayReq port b d = replayFrom port (blkSeq b) d := by
  have hfree : linkAck port (blkAck b) d = d := by
    set l := (d.port port).link.unacked with hl
    have hgone : (if (l.findIdx fun x => decide (x.1 = blkAck b)) < l.length then l.findIdx fun x => decide (x.1 = blkAck b)
        else if blkAck b = (d.port port).link.txSeq then l.length else 0) = 0 := by
      rw [if_neg hack]
      split
      next hlt =>
        by_contra hpos
        have hget := List.findIdx_getElem (p := fun x : Nat × Block => decide (x.1 = blkAck b)) (w := hlt)
        exact hnone _ _ (Nat.pos_of_ne_zero hpos) (List.getElem?_eq_getElem hlt) (by simpa using hget)
      next => rfl
    rw [linkAck]
    exact if_pos hgone
  rw [devReplayReq, rxBlock_control hlive hcrc hform (by rw [htype]; decide), hfree, hcred, linkCredits_zero, if_pos htype]

theorem replayFrom_found {i seq : Nat} {x : Nat × Block} (hx : (d.port port).link.unacked[i]? = some x) (hseq : x.1 = seq)
    (hfirst : ∀ k y, k < i → (d.port port).link.unacked[k]? = some y → y.1 ≠ seq) :
    ((d.port port).link.replaySeq ≠ seq → replayFrom port seq d = ((d.port port).link.unacked.drop i).foldl (fun d (_, b) => emit (.block port b) d)
      (count 0x020D port none 1 ((onLink port (fun l => { l with replaySeq := seq, replayCount := 1 }) d).onPort port fun p =>
        { p with replays := satAdd p.replays 1 })))
    ∧ ((d.port port).link.replaySeq = seq → 8 ≤ (d.port port).link.replayCount → replayFrom port seq d = replayRetrain port d) := by
  have hlt : i ≠ (d.port port).link.unacked.length := Nat.ne_of_lt (List.getElem?_eq_some_iff.mp hx).1
  constructor
  · intro hnew
    simp [replayFrom, findIdx_first hx hseq hfirst, hlt, hnew]
  · intro hsame hmany
    simp [replayFrom, findIdx_first hx hseq hfirst, hlt, hsame, hmany]

theorem replayFrom_none (seq : Nat) (hnone : (d.port port).link.unacked = []) :
    replayFrom port seq d = replayRetrain port (logLink port 0x0202 (count 0x0202 port none 1 d)) := by
  simp [replayFrom, hnone]

/-! ### Forwarding -/

theorem heads_single {w : Nat} (hw : w < 6) (x : Bytes) : ((List.range 6).filterMap fun vc => [(w, x)].find? fun y => y.1 = vc) = [(w, x)] := by
  interval_cases w <;> rfl

theorem devFrameForward_one {w e c : Nat} {x : Bytes} (hwhole : (d.port port).link.whole = [(w, x)]) (hw : w < 6)
    (hto : forwardTo d (d.port port) w x = some (e, c)) :
    (tileOpen d (vcClass w) (portTile port) (portTile e) = false → devFrameForward port d = d)
    ∧ (tileOpen d (vcClass w) (portTile port) (portTile e) = true → devFrameForward port d =
      count 0x020F port none 1 ((onLink e (fun l => { l with credits := modAt l.credits c (· - blocksOf x.length) })
        (oweBack port w (blocksOf x.length) (onLink port (fun l => { l with whole := [] }) d))).onPort e fun p =>
          { p with forward := modAt p.forward c (· ++ [{ len := x.length, excess := false, entered := now d, kind := .transit x }]) })) := by
  have herase : onLink port (fun l => { l with whole := l.whole.erase (w, x) }) d = onLink port (fun l => { l with whole := [] }) d :=
    onLink_congr (by simp [hwhole])
  have hheads : ((List.range 6).filterMap fun vc => (d.port port).link.whole.find? fun y => y.1 = vc) = [(w, x)] := by rw [hwhole]; exact heads_single hw x
  rw [devFrameForward]
  constructor
  · intro hshut
    simp only [hheads, List.findSome?_cons, hto, Option.bind_some, hshut, Bool.false_eq_true, if_false, List.findSome?_nil]
  · intro hopen
    simp only [hheads, List.findSome?_cons, hto, Option.bind_some, hopen, if_true, herase]
    rfl

end

/-- Settles O48: each block by what it carries. -/
theorem linkBlocks : Obligations.LinkBlocks := by
  unfold Obligations.LinkBlocks
  intro s port b hon hlive l ask vc next took opened body plain
  have hport := port_lt_of_linkLive hlive
  have hnextLink : (next.port port).link = { l with rxSeq := (l.rxSeq + 1) % 4096, reqOut := false } := by rw [Dev.port_onLink hport]
  have hdata (hp : plain) (htype : blkType b = btData) (hseq : blkSeq b = l.rxSeq) : devData port b s.dev = takeData port b next := by
    obtain ⟨hcrc, hform, hnone, hcred⟩ := hp
    rw [devData, (rxBlock_plain hlive hcrc hform hnone hcred _).2 htype hseq, if_pos htype]
  refine ⟨fun hcrc => .of_liveQ hon rfl ((devData_badCrc hlive hcrc).trans (askReplay_badBlock hport _)),
    fun hcrc htype hseq => .of_liveQ hon rfl ((devData_badSeq hlive hcrc htype hseq).trans (askReplay_badBlock hport _)), ?frame,
    fun hp htype hseq hplace => .of_liveQ hon rfl ((hdata hp htype hseq).trans (takeData_noPlace hnextLink hplace)), ?mgt,
    fun i x hcrc hform htype hcred hhold hsleep hx hack hpos hfirst =>
      .of_liveQ hon rfl (devIdle_acks hlive hcrc hform htype hcred hhold hsleep hx hack hpos hfirst), ?credits, ?replay, ?unheld, ?forward⟩
  case frame =>
    intro hp htype hseq hvc hplace hdrop hlen hsof
    have heq := (hdata hp htype hseq).trans (takeData_frame hnextLink hvc hplace hdrop hlen hsof)
    exact ⟨fun heof => .of_liveQ hon rfl (heq.trans (if_pos heof)), fun heof => .of_liveQ hon rfl (heq.trans (if_neg (by simp [heof])))⟩
  case mgt =>
    intro hp htype hseq hvc hplace hsof heof
    have heq := (hdata hp htype hseq).trans (takeData_mgt hnextLink hvc hplace hsof heof)
    exact ⟨fun h1 h6 => .of_liveQ hon rfl (heq.trans (if_pos ⟨h1, h6⟩)), fun h6 => .of_liveQ hon rfl (heq.trans (if_neg (by omega)))⟩
  case credits =>
    intro hcrc hform htype hnone hvc hcred top d
    have heq := devIdle_credits hlive hcrc hform htype hnone hvc hcred
    exact ⟨fun hfits => .of_liveQ hon rfl (heq.trans (if_neg (not_lt.mpr hfits))), fun hover => .of_liveQ hon rfl (heq.trans (if_pos hover))⟩
  case replay =>
    intro i x hcrc hform htype hcred hack hnone hx hseq hfirst
    have heq := devReplayReq_from hlive hcrc hform htype hcred hack hnone
    obtain ⟨hnew, hsame⟩ := replayFrom_found hx hseq hfirst
    exact ⟨fun h => .of_liveQ hon rfl (heq.trans (hnew h)), fun h hmany => .of_liveQ hon rfl (heq.trans (hsame h hmany))⟩
  case unheld =>
    rintro ⟨hcrc, hform, hnone, hcred⟩ htype
    refine .of_liveQ hon rfl ?_
    rw [devReplayReq, (rxBlock_plain hlive hcrc hform hnone hcred _).1 (by rw [htype]; decide), if_pos htype, replayFrom_none _ hnone]
  case forward =>
    intro w x e c hwhole hw hto
    obtain ⟨hshut, hopen⟩ := devFrameForward_one hwhole hw hto
    exact ⟨fun h => .of_live hon rfl (hshut h), fun h => .of_live hon rfl (hopen h)⟩

end Sys2Proof.Machine
end

section
/-! SUPPORT. What leaves the ports alone: answers, log entries, the paths of queue pairs. -/

namespace Sys2Proof.Machine

theorem foldl_net {α : Type} {f : Dev → α → Dev} (h : ∀ d x, (f d x).net = d.net) (l : List α) (d : Dev) : (l.foldl f d).net = d.net := by
  induction l generalizing d with
  | nil => rfl
  | cons x l ih => exact (ih _).trans (h d x)

@[simp] theorem hostWrite_net (p : Side) (x : Option Nat) (a : Nat) (b : Bytes) (d : Dev) : (hostWrite p x a b d).net = d.net := by
  have hcount : (count 0x030E p.idx none b.length d).net = d.net := count_ports (by decide) (by decide) _ _ _ _
  rw [hostWrite, hostPut]
  split <;> exact hcount

@[simp] theorem logIt_net (code kind unit : Nat) (args : List Nat) (t : Nat) (d : Dev) : (logIt code kind unit args t d).net = d.net := by
  unfold logIt
  dsimp only
  (repeat' split) <;> simp [count_ports (src := 0x0B03)]

@[simp] theorem answer_net (c : CmdSlot) (st detail : Nat) (res : Option (Nat × Bytes)) (val : Option Nat) (d : Dev) : (answer c st detail res val d).net = d.net := by
  unfold answer
  dsimp only
  split
  · rfl
  · rfl
  · have hcount : (count (if isDone st = true then 0x0B01 else 0x0B02) 0xFF none 1 d).net = d.net := by rw [count_ports] <;> split <;> decide
    generalize count (if isDone st = true then 0x0B01 else 0x0B02) 0xFF none 1 d = e at hcount ⊢
    (repeat' split) <;> simp [hcount]

@[simp] theorem answerIf_net (c : CmdSlot) (op st : Nat) (res : Option (Nat × Bytes)) (d : Dev) : (answerIf c op st res d).net = d.net := by
  unfold answerIf
  split
  · split
    · exact answer_net _ _ _ _ _ _
    · rfl
  · rfl

@[simp] theorem answerStep_net (x : Option StepCause) (d : Dev) : (answerStep x d).net = d.net := by
  unfold answerStep
  split <;> simp

@[simp] theorem onPath_net (n k : Nat) (f : Path → Path) (d : Dev) : (onPath n k f d).net = d.net := rfl

@[simp] theorem pathDown_net (n k : Nat) (d : Dev) : (pathDown n k d).net = d.net := count_ports (by decide) (by decide) _ _ _ _

@[simp] theorem dropDeadPaths_net (n : Nat) (d : Dev) : (dropDeadPaths n d).net = d.net := by
  unfold dropDeadPaths
  split
  · rfl
  · dsimp only
    have hkeep (c : Prop) [Decidable c] {e : Dev} (h : e.net = d.net) : (if c then d else e).net = d.net := by split; exacts [rfl, h]
    refine hkeep _ (foldl_net (fun d k => ?_) _ _)
    split
    · split
      · exact pathDown_net _ _ _
      · rfl
    · rfl

@[simp] theorem dropAllDead_net (d : Dev) : (dropAllDead d).net = d.net := foldl_net (fun d _ => dropDeadPaths_net _ d) _ _

@[simp] theorem downPaths_net (port : Nat) (d : Dev) : (downPaths port d).net = d.net := by
  refine foldl_net (fun d x => foldl_net (fun d k => ?_) _ _) _ _
  split
  · split
    · exact pathDown_net _ _ _
    · rfl
  · rfl

/-- Marking a packet to be sent again touches its queue pair and the counts of its port's egress alone. -/
@[simp] theorem markResend_net (n : Nat) (u : TxPkt) (late : Bool) (d : Dev) : (markResend n u none late d).net = d.net := by
  unfold markResend
  split
  · rfl
  · have hcount (e : Dev) (t : Option Nat) : (count 0x040D u.port t 1 e).net = e.net := count_ports (by decide) (by decide) _ _ _ _
    have hsent (q : Qp) (e : Dev) (f : Path → Path) :
        (if u.sends = 0 then e else count 0x040D u.port (some q.par.tenant) 1 (onPath n u.path f e)).net = e.net := by
      split
      · rfl
      · exact hcount _ _
    have hpkt (f : TxPkt → TxPkt) (e : Dev) : (onPkt n u.psn f e).net = e.net := rfl
    dsimp only
    split
    · split
      · rw [pathDown_net, hpkt, hsent]
      · rw [hpkt, hsent]
    · rw [hpkt, hsent]

@[simp] theorem resendPort_net (port : Nat) (d : Dev) : (resendPort port d).net = d.net :=
  foldl_net (fun _ _ => foldl_net (fun d u => markResend_net _ u _ d) _ _) _ _

@[simp] theorem wakeDev_net (d : Dev) : (wakeDev d).net = d.net := by
  unfold wakeDev
  split <;> rfl

@[simp] theorem endStep_net (port : Nat) (d : Dev) : (endStep port d).net
    = (d.onPort port fun p => { p with step := none, stepAfter := none, recal := none, recalUp := none, recalDone := none }).net := by
  unfold endStep
  dsimp only
  (repeat' split) <;> simp

end Sys2Proof.Machine
end

section
/-! SUPPORT. States of a port: training, checks, retrains, loss of signal, sleep (R320, R339, R340, R343, R536). -/

namespace Sys2Proof.Machine

/-- A port that goes down: its frames, its link state and its lanes are gone. -/
def portLost (p : NetPort) : NetPort :=
  { dropFrames p with
    st := .down, lanesActive := 0#8, replayRetrain := false, sublinkA := false, sublinkB := false, sleepSent := false, sleepDue := false, stepUpDue := false,
    laneCheck := 0#8, identSeen := false, recheck := false, holding := false, lldpDue := false, link := {}, forward := List.replicate 7 [],
    step := none, stepAfter := none, recal := none, recalUp := none, recalDone := none }

section
variable {d : Dev} {port : Nat}

theorem Dev.port_congr {d e : Dev} (h : d.net = e.net) (port : Nat) : d.port port = e.port port := by rw [Dev.port, h]; rfl

/-- The device once a port has lost its link, before what waits for the port is answered. -/
def downed (port : Nat) (d : Dev) : Dev :=
  dropAllDead (downPaths port (resendPort port (endStep port
    ((d.onPort port fun p => { dropFrames p with
      st := .down, lanesActive := 0#8, replayRetrain := false, sublinkA := false, sublinkB := false, sleepSent := false, sleepDue := false, stepUpDue := false,
      laneCheck := 0#8, identSeen := false, recheck := false, holding := false, lldpDue := false, link := {}, forward := List.replicate 7 [] }).onCiph
        fun c => { c with opening := c.opening.map fun o => if o.port = port then { o with places := none } else o }))))

theorem downed_net (port : Nat) (d : Dev) : (downed port d).net = (d.onPort port portLost).net := by
  rw [downed, dropAllDead_net, downPaths_net, resendPort_net, endStep_net]
  simp only [Dev.onPort, Dev.onNet, Dev.onCiph, modAt_modAt]
  rfl

/-- A port that was to go down administratively is down so, and its command is answered. -/
def adminDowned (port : Nat) (d : Dev) : Dev :=
  match (d.port port).adminDrain with
  | some c => answerIf c 0x0705 stDone none (d.onPort port fun p => { p with adminDrain := none, st := .adminDown })
  | none => d

theorem portDown_eq (port : Nat) (d : Dev) : portDown port d
    = if port = (adminDowned port (downed port d)).pwr.keptPort then wakeDev (adminDowned port (downed port d)) else adminDowned port (downed port d) := rfl

theorem adminDowned_port (hport : port < d.net.ports.length) : (adminDowned port d).port port
    = if (d.port port).adminDrain.isSome then { d.port port with adminDrain := none, st := .adminDown } else d.port port := by
  unfold adminDowned
  cases h : (d.port port).adminDrain with
  | none => rfl
  | some c => exact (Dev.port_congr (answerIf_net _ _ _ _ _) port).trans (Dev.port_onPort hport _)

/-- What a port is after it has gone down: lost, and administratively down where that was asked for. -/
theorem portDown_port (hport : port < d.net.ports.length) : (portDown port d).port port
    = if (d.port port).adminDrain.isSome then { portLost (d.port port) with adminDrain := none, st := .adminDown } else portLost (d.port port) := by
  have hwake (e : Dev) : (if port = e.pwr.keptPort then wakeDev e else e).net = e.net := by split; exacts [wakeDev_net e, rfl]
  have hself : (downed port d).port port = portLost (d.port port) := (Dev.port_congr (downed_net port d) port).trans (Dev.port_onPort hport _)
  have hlen : port < (downed port d).net.ports.length := by rw [downed_net]; simpa [Dev.onPort, Dev.onNet] using hport
  rw [portDown_eq, Dev.port_congr (hwake _) port, adminDowned_port hlen, hself]
  rfl

theorem portDown_lost (hport : port < d.net.ports.length) (hnone : (d.port port).adminDrain = none) : (portDown port d).port port = portLost (d.port port) := by
  rw [portDown_port hport, hnone]; rfl

theorem portLost_frames (p : NetPort) : ∀ q ∈ (portLost p).queues, q.frames = [] := by
  simp [portLost, dropFrames]

/-! ### Training and the partner -/

/-- The receivers of the port's pair of lanes are locked. -/
def lockedSerdes (port : Nat) (d : Dev) : Dev := d.onPwr fun x => { x with serdesLock := modAt x.serdesLock (port / 2) fun _ => true }

section
variable {lanes : BitVec 8} (hst : (d.port port).st = .training) (hlanes : lanes ≠ 0#8) (hrecal : (d.port port).recal = none)
  (hawake : asleepPort d port = false)
include hst hlanes hrecal hawake

/-- A DIRECT port that has trained sends IDENT. -/
theorem devTrainingDone_direct (hfresh : (d.port port).replayRetrain = false) (hdirect : (d.port port).ent.mode = .direct) :
    let e := (lockedSerdes port d).onPort port fun p => { p with st := .checking, link := {}, identSeen := false, lanesHealthy := lanes, lanesActive := lowLanes lanes (widthOf p.widthCap lanes) }
    devTrainingDone port lanes d = sendMgt port (identMsg e port) e := by
  simp [devTrainingDone, hst, hlanes, hrecal, hawake, hfresh, hdirect, lockedSerdes]

/-- A port of eight Ethernet lanes that has trained is held without all of them, waits for its partner's LLDPDU, or is up. -/
theorem devTrainingDone_dr8 (hfresh : (d.port port).replayRetrain = false) (hdr8 : (d.port port).ent.mode = .dr8) (hfull : (d.port port).fallbackActive = false) :
    let e := (lockedSerdes port d).onPort port fun p =>
      { p with st := .checking, lanesActive := if lanes = 0xFF#8 then lanes else 0#8, lanesHealthy := lanes, sublinkA := false, sublinkB := false }
    devTrainingDone port lanes d = if lanes = 0xFF#8 then
        (if (d.port port).ent.chassis ≠ [] ∨ (d.port port).ent.portId ≠ [] then e.onPort port fun p => { p with lldpDue := true } else portUpNow port e)
      else holdPort port 2 e := by
  have hact : ethTrained (d.port port) lanes = if lanes = 0xFF#8 then lanes else 0#8 := by simp [ethTrained, hdr8, hfull]
  have hlock : (lockedSerdes port d).port port = d.port port := rfl
  have hput (f : NetPort → BitVec 8) (hf : f (d.port port) = lanes) :
      (lockedSerdes port d).onPort port (fun p =>
        { p with st := .checking, lanesActive := if lanes = 0xFF#8 then lanes else 0#8, lanesHealthy := f p, sublinkA := false, sublinkB := false })
        = (lockedSerdes port d).onPort port fun p =>
        { p with st := .checking, lanesActive := if lanes = 0xFF#8 then lanes else 0#8, lanesHealthy := lanes, sublinkA := false, sublinkB := false } :=
    Dev.onPort_congr (by rw [hlock, hf])
  have hput' := hput (fun p => if p.fallbackActive then p.lanesHealthy &&& (lanes ||| ~~~(if lanes = 0xFF#8 then lanes else 0#8)) else lanes) (by simp [hfull])
  intro e
  rw [devTrainingDone]
  simp only [hst, hlanes, hrecal, hawake, hfresh, hdr8, hact, reduceCtorEq, decide_false, decide_true, Bool.false_and, Bool.true_or, Bool.not_true, Bool.or_self,
    Bool.false_eq_true, if_false, Option.isSome_none]
  rw [lockedSerdes] at hput'
  rw [hput']
  by_cases hall : lanes = 0xFF#8
  · subst hall
    rw [if_pos rfl, if_neg (by decide), if_pos rfl]
    simp only [Bool.or_eq_true, decide_eq_true_eq]
    rfl
  · exact (if_pos (if_neg hall)).trans (if_neg hall).symm

/-- A replay retrain ends when every lane of the port's width is back. -/
theorem devTrainingDone_replay (hreplay : (d.port port).replayRetrain = true) (hdirect : (d.port port).ent.mode = .direct) :
    devTrainingDone port lanes d = if (d.port port).lanesActive &&& lanes = (d.port port).lanesActive then
      stepAgain port ((lockedSerdes port d).onPort port fun p => { p with st := .up, replayRetrain := false }) else d := by
  by_cases hall : (d.port port).lanesActive &&& lanes = (d.port port).lanesActive <;>
    simp [devTrainingDone, hst, hlanes, hrecal, hawake, hreplay, hdirect, hall, lockedSerdes]

end

/-- What an IDENT that a checking port takes makes of it. -/
theorem devIdent_checking {msg : Bytes} (hdirect : (d.port port).ent.mode = .direct) (hst : (d.port port).st = .checking) (hlen : msg.length = 32) (hid : u8 msg 0 = 1) :
    let e := d.onPort port fun p => { p with identSeen := true, peerNode := BitVec.ofNat 16 (u16 msg 2), peerPort := u8 msg 1 % 16, peerId := slice msg 8 16 }
    devIdent port msg d = if identCheck (d.port port) msg = 0 then stepAgain port (portUpNow port e) else holdPort port (identCheck (d.port port) msg) e := by
  simp [devIdent, linkLive, hdirect, hst, hlen, hid]

/-- The first uncorrectable FEC error is counted and logged, and the port trains afresh. -/
theorem devEthFec_first {lane : Nat} (heth : isEth (d.port port) = true) (hup : portUp d port = true) (hfirst : (d.port port).fecLast = none) :
    devEthFecUncorrectableRetrain port lane d = trainAfresh port
      (logLink port 0x020C (count 0x020C port none 1 (d.onPort port fun p => { p with fecLast := some (now d) }))) := by
  simp [devEthFecUncorrectableRetrain, heth, hup, hfirst]

/-! ### Sleep -/

theorem devSleepAck_eq (hport : port < d.net.ports.length) (hst : (d.port port).st = .up) (hsent : (d.port port).sleepSent = true) :
    let e := d.onPort port fun p => { p with sleepDue := true }
    devSleepAck port d = if (d.port port).link.unacked = [] ∧ (nth (d.port port).queues 7 {}).frames = [] ∧ (d.port port).held7 = [] then
      (sendPlain port btIdle (d.port port).link.txSeq e).onPort port fun p => { p with st := .sleep, sleepSent := false, sleepDue := false } else e := by
  intro e
  by_cases h : (d.port port).link.unacked = [] ∧ (nth (d.port port).queues 7 {}).frames = [] ∧ (d.port port).held7 = []
  · obtain ⟨hun, hfr, hheld⟩ := h
    simp [e, devSleepAck, sleepWhenDrained, Dev.port_onPort hport, hst, hsent, hun, hfr, hheld]
  · rw [if_neg h]
    simp only [devSleepAck, sleepWhenDrained, Dev.port_onPort hport, hst, hsent, Bool.and_true, decide_true, if_true]
    rw [if_neg (by simpa [and_assoc] using h)]

theorem devLinkWake_asleep (hst : (d.port port).st = .sleep) : devLinkWake port d = stepAgain port (d.onPort port fun p => { p with st := .up }) :=
  congrArg (stepAgain port) (Dev.onPort_congr (if_pos hst))

end

/-- Settles O49: each row by the branch it takes, and `portDown_port` for what going down leaves of a port. -/
theorem linkTraining : Obligations.LinkTraining := by
  unfold Obligations.LinkTraining
  intro s port hon hport p lock trains
  refine ⟨?direct, ?dr8, ?replay, fun hst hmode hfresh hawake => .of_live hon rfl (by simp [devTrainingTimeout, p, hst, hmode, hfresh, hawake]),
    fun hst hreplay => .of_liveQ hon rfl (by simp [devRetrainTimeout, p, hst, hreplay]), ?ident,
    fun hdirect hst hunseen => .of_liveQ hon rfl (by simp [devIdentTimeout, p, hdirect, hst, hunseen]),
    fun hst hdue => .of_live hon rfl (by simp [devLldpTimeout, p, hst, hdue]), fun hst => .of_liveQ hon rfl (if_pos (by simpa using hst)),
    fun hst => .of_liveQ hon rfl (by simp [devLossOfSignal, p, hst]), fun heth hup hfirst => .of_liveQ hon rfl (devEthFec_first heth hup hfirst), ?lost, ?admin,
    fun hdirect hst hreq hact hquiet => .of_live hon rfl (by simp [devSleepIdleTimer, p, hdirect, hst, hreq, hact, hquiet]),
    fun hdirect hst hquiet => .of_live hon rfl (by simp [devSleepReq, p, hdirect, hst, hquiet]), ?ack, fun hst => .of_live hon rfl (devLinkWake_asleep hst), .of_live hon rfl rfl⟩
  case direct =>
    rintro lanes ⟨hst, -, hlanes, hrecal, hawake⟩ hfresh hdirect
    exact .of_live hon rfl (devTrainingDone_direct hst hlanes hrecal hawake hfresh hdirect)
  case dr8 =>
    rintro lanes ⟨hst, -, hlanes, hrecal, hawake⟩ hfresh hdr8 hfull
    have heq := devTrainingDone_dr8 hst hlanes hrecal hawake hfresh hdr8 hfull
    exact ⟨fun hfew => .of_live hon rfl (heq.trans (if_neg hfew)),
      fun hall hch hid => .of_live hon rfl (heq.trans ((if_pos hall).trans (if_neg (by simp [hch, hid, p])))),
      fun hall hch => .of_live hon rfl (heq.trans ((if_pos hall).trans (if_pos (.inl hch))))⟩
  case replay =>
    rintro lanes ⟨hst, -, hlanes, hrecal, hawake⟩ hreplay hdirect
    have heq := devTrainingDone_replay hst hlanes hrecal hawake hreplay hdirect
    exact ⟨fun hall => .of_live hon rfl (heq.trans (if_pos hall)), fun hfew => .of_live hon rfl (heq.trans (if_neg hfew))⟩
  case ident =>
    intro msg hdirect hst hlen hid d
    have heq := devIdent_checking hdirect hst hlen hid
    exact ⟨fun h4 h1 h2 h8 => .of_liveQ hon rfl (heq.trans (if_pos (by simp [identCheck, h4, h1, h2, h8, p]))),
      fun hbad => .of_liveQ hon rfl (heq.trans (if_neg hbad))⟩
  case lost =>
    intro hnone x
    have hx : x = portLost p := portDown_lost hport hnone
    rw [hx]
    exact ⟨rfl, rfl, rfl, rfl, portLost_frames p, rfl, rfl⟩
  case admin =>
    intro c hc
    exact ⟨.of_liveQ hon rfl (by simp [devAdminDownDrainEnd, p, hc]), by rw [portDown_port hport, show (s.dev.port port).adminDrain = some c from hc]; rfl⟩
  case ack =>
    intro hst hsent d
    have heq := devSleepAck_eq hport hst hsent
    exact ⟨fun hun => .of_live hon rfl (heq.trans (if_neg fun h => hun h.1)), fun hun hfr hheld => .of_live hon rfl (heq.trans (if_pos ⟨hun, hfr, hheld⟩))⟩

end Sys2Proof.Machine
end

section
/-! SUPPORT. Width steps and their messages, LANE_RECAL, LINK_CONTROL, the node table (R325, R333 to R337, R341). -/

namespace Sys2Proof.Machine

section
variable {d : Dev} {port : Nat}

/-! ### Masks of lanes -/

/-- The lowest lanes of a mask, as many as the largest width that fits, are so many lanes of the mask. -/
theorem lowLanes_widthOf (m : BitVec 8) : laneCount (lowLanes m (widthOf 8 m)) = widthOf 8 m ∧ lowLanes m (widthOf 8 m) &&& m = lowLanes m (widthOf 8 m) := by
  revert m
  decide

/-! ### Messages leave the step as it is -/

theorem Dev.onPort_step (d : Dev) (i port : Nat) {f : NetPort → NetPort} (hf : ∀ p, (f p).step = p.step) :
    ((d.onPort i f).port port).step = (d.port port).step := by
  simp only [Dev.port, nth, Dev.onPort, Dev.onNet, modAt_getElem?]
  split
  · cases d.net.ports[port]? <;> simp [hf]
  · rfl

theorem Dev.mapPorts_step (d : Dev) (port : Nat) {f : NetPort → NetPort} (hf : ∀ p, (f p).step = p.step) :
    ((d.onNet fun n => { n with ports := n.ports.map f }).port port).step = (d.port port).step := by
  simp only [Dev.port, nth, Dev.onNet, List.getElem?_map]
  cases d.net.ports[port]? <;> simp [hf]

@[simp] theorem setHeld_step (p : NetPort) (k : Nat) (l : List Frame) : (setHeld p k l).step = p.step := by
  unfold setHeld
  split <;> rfl

theorem heldMove_step (k t : Nat) (p : NetPort) : (heldMove k t p).step = p.step := by
  unfold heldMove
  split
  · rfl
  · split
    · exact setHeld_step _ _ _
    · rfl

theorem iter_heldMove_step (k t n : Nat) (p : NetPort) : (iter (heldMove k t) n p).step = p.step := by
  induction n generalizing p with
  | zero => rfl
  | succ n ih => exact (ih _).trans (heldMove_step k t p)

/-- A frame for EQ7 leaves the step of every port as it is. -/
theorem ownIn_step (i k : Nat) (f : Frame) (d : Dev) : ((ownIn i k f d).port port).step = (d.port port).step := by
  unfold ownIn
  dsimp only
  split
  · exact Dev.onPort_step d i port fun _ => rfl
  · split
    · exact Dev.onPort_step d i port fun _ => setHeld_step _ _ _
    · rw [heldDrain, Dev.onPort_step _ _ _ fun p => iter_heldMove_step _ _ _ p, Dev.onPort_step _ _ _ fun _ => setHeld_step _ _ _]
      exact Dev.mapPorts_step d port fun _ => setHeld_step _ _ _

theorem Dev.onPort_ports_length (d : Dev) (i : Nat) (f : NetPort → NetPort) : (d.onPort i f).net.ports.length = d.net.ports.length := by
  simp [Dev.onPort, Dev.onNet]

theorem ownIn_ports_length (i k : Nat) (f : Frame) (d : Dev) : (ownIn i k f d).net.ports.length = d.net.ports.length := by
  unfold ownIn
  dsimp only
  split
  · exact Dev.onPort_ports_length _ _ _
  · split
    · exact Dev.onPort_ports_length _ _ _
    · rw [heldDrain, Dev.onPort_ports_length, Dev.onPort_ports_length]
      simp [dropAck, Dev.onNet]

/-! ### Lanes -/

section
variable (hdirect : (d.port port).ent.mode = .direct)
include hdirect

/-- A lane in use that is not healthy starts a step, and the last good lane takes the port down. -/
theorem devLaneUnhealthy_active {lane : Nat} (hport : port < d.net.ports.length) (hst : (d.port port).st = .up) (hstep : (d.port port).step = none)
    (hin : tb (d.port port).lanesActive.toNat lane = true) :
    let e := d.onPort port fun p => { p with lanesHealthy := setLane lane false p.lanesHealthy, laneCheck := setLane lane false p.laneCheck }
    devLaneUnhealthy port lane d = if goodLanes (e.port port) = 0#8 then portDown port e else startStep port .lane e := by
  simp [devLaneUnhealthy, portUp, isEth, Dev.port_onPort hport, hst, hdirect, hstep, hin]

/-- A lane that has recovered starts a step up where the port's width grows by it. -/
theorem devLaneStepUp_direct {lane : Nat} (hport : port < d.net.ports.length) (hst : (d.port port).st = .up) (hstep : (d.port port).step = none)
    (hrecal : (d.port port).recal = none) (hafter : (d.port port).stepAfter = none) :
    let e := d.onPort port fun p => { p with lanesHealthy := setLane lane true p.lanesHealthy, stepUpDue := false }
    (d.port port).lanesActive &&& ~~~goodLanes (e.port port) = 0#8 →
    devLaneStepUp port lane d = if laneCount (d.port port).lanesActive < stepWidth (d.port port) (goodLanes (e.port port)) then startStep port .up e else e := by
  intro e hgood
  have hlen (f : NetPort → NetPort) : port < (d.onPort port f).net.ports.length := by simpa [Dev.onPort, Dev.onNet] using hport
  have htwice : ((d.onPort port fun p => { p with lanesHealthy := setLane lane true p.lanesHealthy, stepUpDue := p.ent.mode = .direct && (p.st = .up || p.st = .stepping || p.st = .sleep || p.replayRetrain) }).onPort port
      fun p => { p with stepUpDue := false }) = e := by
    simp only [e, Dev.onPort, Dev.onNet, modAt_modAt]
  simp only [e, Dev.port_onPort hport, goodLanes, hrecal] at hgood
  rw [devLaneStepUp, stepAgain]
  simp only [Dev.port_onPort hport, hdirect, hst, hstep, hafter, hrecal, goodLanes, hgood, htwice]
  rw [if_neg (by simp), if_neg (by simp), if_neg (by simp)]
  simp only [e, Dev.port_onPort hport, hrecal]
  rfl

/-- The partner's LANE_STATE: no lane good at both ends takes the port down, else the common lanes are proposed. -/
theorem devLaneState_first {mask : BitVec 8} {x : WidthStep} (hst : (d.port port).st = .stepping) (hstep : (d.port port).step = some x) (hnew : x.stateIn = false) :
    let m := goodLanes (d.port port) &&& mask
    devLaneState port mask d = if m = 0#8 then portDown port d else sendWidthReq port m (d.onPort port fun p => { p with step := some { x with stateIn := true } }) := by
  have hput : (d.onPort port fun p => { p with step := p.step.map fun s => { s with stateIn := true } })
      = d.onPort port fun p => { p with step := some { x with stateIn := true } } := Dev.onPort_congr (by rw [hstep]; rfl)
  simp [devLaneState, hdirect, hst, hstep, hnew, hput]

section
variable {mask : BitVec 8} {w : Nat} {x : WidthStep} (hst : (d.port port).st = .stepping) (hstep : (d.port port).step = some x) (hsent : x.reqSent = true)
include hst hstep hsent

/-- A proposal that agrees with this end's is acknowledged. -/
theorem devWidthReq_agreed (hport : port < d.net.ports.length) (hmask : x.mask = mask) (hwait : x.ackIn = false) :
    devWidthReq port mask w d = (sendMgt port [0x04#8, mask, BitVec.ofNat 8 w] d).onPort port fun p =>
      { p with step := some { x with mask := mask, ackOut := true, peerWidth := w } } := by
  subst hmask
  have hsame (e : Dev) (he : (e.port port).step = some x) : (e.onPort port fun p => { p with step := p.step.map fun s => { s with mask := x.mask, ackOut := true, peerWidth := w } })
      = e.onPort port fun p => { p with step := some { x with mask := x.mask, ackOut := true, peerWidth := w } } := Dev.onPort_congr (by rw [he]; rfl)
  have hmsg : ((sendMgt port [0x04#8, x.mask, BitVec.ofNat 8 w] d).port port).step = some x := (ownIn_step _ _ _ _).trans hstep
  have hdone (e : Dev) (he : ∃ y, (e.port port).step = some y ∧ y.ackIn = false) : finishStep port e = e := by
    obtain ⟨y, hy, hin⟩ := he
    simp [finishStep, hy, hin]
  have heq : devWidthReq port x.mask w d = finishStep port ((sendMgt port [0x04#8, x.mask, BitVec.ofNat 8 w] d).onPort port fun p =>
      { p with step := p.step.map fun s => { s with mask := x.mask, ackOut := true, peerWidth := w } }) := by
    simp [devWidthReq, hdirect, hst, hstep, hsent]
  rw [heq, hsame _ hmsg]
  have hlen : port < (sendMgt port [0x04#8, x.mask, BitVec.ofNat 8 w] d).net.ports.length := hport.trans_eq (ownIn_ports_length _ _ _ _).symm
  exact hdone _ ⟨_, congrArg NetPort.step (Dev.port_onPort hlen _), hwait⟩

/-- A proposal that differs is narrowed to the common lanes, which the end of the lower identity proposes again. -/
theorem devWidthReq_narrowed (hmask : x.mask ≠ mask) (hsome : x.mask &&& mask ≠ 0#8) :
    let e := d.onPort port fun p => { p with step := some { x with mask := x.mask &&& mask, reqSent := false, ackIn := false, ackOut := false } }
    devWidthReq port mask w d = if lowerId d (d.port port) then sendWidthReq port (x.mask &&& mask) e else e := by
  have hput : (d.onPort port fun p => { p with step := p.step.map fun s => { s with mask := x.mask &&& mask, reqSent := false, ackIn := false, ackOut := false } })
      = d.onPort port fun p => { p with step := some { x with mask := x.mask &&& mask, reqSent := false, ackIn := false, ackOut := false } } :=
    Dev.onPort_congr (by rw [hstep]; rfl)
  have hid (f : NetPort → NetPort) : lowerId (d.onPort port f) (d.port port) = lowerId d (d.port port) := rfl
  simp [devWidthReq, hdirect, hst, hstep, hsent, hmask, hsome, hput, hid]

end

end

/-- The acknowledgement that completes a step for a lane: the agreed lanes, as many as both ends have. -/
theorem devWidthAck_lane {mask : BitVec 8} {x : WidthStep} (hport : port < d.net.ports.length) (hst : (d.port port).st = .stepping) (hstep : (d.port port).step = some x)
    (hsent : x.reqSent = true) (hmask : x.mask = mask) (hout : x.ackOut = true) (hcause : x.cause = .lane) :
    let lanes := lowLanes mask (min x.peerWidth (stepWidth (d.port port) mask))
    devWidthAck port mask (stepWidth (d.port port) mask) d = stepAgain port (logIt 0x0302 3 port [(d.port port).lanesActive.toNat, lanes.toNat]
      (d := count 0x020E port none 1 (d.onPort port fun p => { p with st := .up, step := none, lanesActive := lanes, steps := satAdd p.steps 1 }))) := by
  subst hmask
  intro lanes
  rw [devWidthAck]
  simp only [hst, hstep, hsent, Bool.not_true]
  rw [if_neg (by simp), finishStep]
  simp only [Dev.port_onPort hport, hstep, Option.map_some, hout, hcause, Bool.and_self, Bool.not_true, Bool.false_eq_true, if_false]
  simp only [Dev.onPort, Dev.onNet, modAt_modAt]
  rfl

/-! ### LANE_RECAL, LINK_CONTROL and the node table -/

theorem CmdBegun.runChk_bad {c : CmdSlot} {op : Nat} {p : Bytes} (h : CmdBegun d c op p) (k : Bytes → Dev → List (Nat × Bool)) (f : Bytes → Dev → Dev) {o : Nat}
    (hk : firstBad (k p d) = some o) : runChk c op k f d = finishAt c stBadParam o d := by
  obtain ⟨hl, m, hm, hb, ho, rfl⟩ := h
  exact Machine.runChk_bad c op k f d m hm hb ho hl o hk

section
variable {c : CmdSlot} {q : Bytes} (hb : CmdBegun d c 0x0706 q) (hname : u8 q 0 = port) (h16 : port < 16) (hlane : u8 q 1 < 8) (hzero : zeros q 2 6 = true)
include hb hname h16 hlane hzero

theorem CmdBegun.devLaneRecal_busy (hstep : (d.port port).step ≠ none) : devLaneRecal c d = answer c stBusy 0 none none d := by
  subst hname
  rw [devLaneRecal, hb.runChk_eq _ _ (by simp [firstBad, h16, hlane, hzero])]
  simp [Option.isSome_iff_ne_none.mpr hstep, finish]

/-- With no step and no recalibration on a lane in use is led out by a step; the last lane is not, and a port that is not UP is refused. -/
theorem CmdBegun.devLaneRecal_eq (hrecal : (d.port port).recal = none) (hup : (d.port port).recalUp = none) (hstep : (d.port port).step = none)
    (hafter : (d.port port).stepAfter = none) :
    ((d.port port).st ≠ .up → devLaneRecal c d = answer c stBadParam 0 none none d)
    ∧ ((d.port port).st = .up → (d.port port).ent.mode = .direct → tb (d.port port).lanesActive.toNat (u8 q 1) = true →
      devLaneRecal c d = if laneCount (d.port port).lanesActive = 1 then answer c stNotPermitted 0 none none d
        else startStep port (.recalDown (u8 q 1) c) ((leave c [port, u8 q 1] d).onPort port fun p => { p with recal := some (u8 q 1, c) })) := by
  subst hname
  have hidle : recalActive (d.port (u8 q 0)) = false := by simp [recalActive, hrecal, hup, hstep, hafter]
  rw [devLaneRecal, hb.runChk_eq _ _ (by simp [firstBad, h16, hlane, hzero])]
  constructor
  · intro hdown
    simp [hidle, hstep, hdown, finishAt]
  · intro hst hdirect hin
    by_cases hone : laneCount (d.port (u8 q 0)).lanesActive = 1 <;> simp [hidle, hstep, hst, hdirect, hin, hone, finish]

end

theorem devLaneRecalDone_direct {lane : Nat} {k : CmdSlot} (hport : port < d.net.ports.length) (hrecal : (d.port port).recal = some (lane, k))
    (hstep : (d.port port).step = none) (hreplay : (d.port port).replayRetrain = false) (hdirect : (d.port port).ent.mode = .direct) (hst : (d.port port).st = .up) (ok : Bool) :
    let e := d.onPort port fun p => { p with recal := none, recalDone := none, lanesHealthy := setLane lane ok p.lanesHealthy }
    devLaneRecalDone port ok d = if ok then startStep port (.recalUp lane k) e else answerIf k 0x0706 stNote none e := by
  cases ok <;> simp [devLaneRecalDone, recalEnd, Dev.port_onPort hport, hrecal, hstep, hreplay, hdirect, hst]

section
variable {c : CmdSlot} {q : Bytes} (hb : CmdBegun d c 0x0705 q) (hname : u8 q 0 = port) (h16 : port < 16)
include hb hname h16

theorem CmdBegun.devLinkControl_badWidth (h1 : u8 q 1 = 3) (h2 : u8 q 2 = 3) (hdirect : (d.port port).ent.mode = .direct) :
    devLinkControl c d = answer c stBadParam 2 none none d := by
  subst hname
  have hbad : firstBad (linkControlChk q d) = some 2 := by simp [linkControlChk, firstBad, h16, h1, h2, hdirect]
  rw [devLinkControl, hb.runChk_bad _ _ hbad]
  rfl

section
variable (hzero : zeros q 3 5 = true) (hrecal : (d.port port).recal = none) (hup : (d.port port).recalUp = none) (hstep : (d.port port).step = none) (hafter : (d.port port).stepAfter = none)
include hzero hrecal hup hstep hafter

/-- What LINK_CONTROL runs on a port with no step: its action. -/
theorem CmdBegun.devLinkControl_down (h1 : u8 q 1 = 0) (h2 : u8 q 2 = 0) :
    devLinkControl c d = if (d.port port).ent.mode = .direct ∧ portUp d port = true ∧ (d.port port).link.unacked ≠ [] then
        downPaths port (resendPort port ((leave c [port] d).onPort port fun p => { dropFrames p with adminDrain := some c }))
      else answer c stDone 0 none none ((portDown port d).onPort port fun p => { p with st := .adminDown }) := by
  subst hname
  have hidle : recalActive (d.port (u8 q 0)) = false := by simp [recalActive, hrecal, hup, hstep, hafter]
  rw [devLinkControl, hb.runChk_eq _ _ (by simp [linkControlChk, firstBad, h16, h1, h2, hzero])]
  simp [hidle, hstep, hafter, h1, finish, and_assoc]

theorem CmdBegun.devLinkControl_none (h1 : u8 q 1 = 1 ∨ u8 q 1 = 2) (h2 : u8 q 2 = 0) (hnone : (d.port port).ent.mode = .none) :
    devLinkControl c d = answer c stNotPermitted 0 none none d := by
  subst hname
  have hidle : recalActive (d.port (u8 q 0)) = false := by simp [recalActive, hrecal, hup, hstep, hafter]
  have hchk : firstBad (linkControlChk q d) = none := by rcases h1 with h1 | h1 <;> simp [linkControlChk, firstBad, h16, h1, h2, hzero]
  rw [devLinkControl, hb.runChk_eq _ _ hchk]
  simp [hidle, hstep, hafter, h1, hnone, finish]

theorem CmdBegun.devLinkControl_up (h1 : u8 q 1 = 1) (h2 : u8 q 2 = 0) (hmode : (d.port port).ent.mode ≠ .none) (hst : (d.port port).st = .adminDown) :
    devLinkControl c d = answer c stDone 0 none none (d.onPort port fun p => { p with st := .down }) := by
  subst hname
  have hidle : recalActive (d.port (u8 q 0)) = false := by simp [recalActive, hrecal, hup, hstep, hafter]
  have hput : (d.onPort (u8 q 0) fun p => if p.st = .adminDown then { p with st := .down } else p) = d.onPort (u8 q 0) fun p => { p with st := .down } :=
    Dev.onPort_congr (if_pos hst)
  rw [devLinkControl, hb.runChk_eq _ _ (by simp [linkControlChk, firstBad, h16, h1, h2, hzero])]
  simp [hidle, hstep, hafter, h1, hmode, hput, finish]

theorem CmdBegun.devLinkControl_afresh (h1 : u8 q 1 = 2) (h2 : u8 q 2 = 0) (hmode : (d.port port).ent.mode ≠ .none) :
    devLinkControl c d = answer c stDone 0 none none ((trainAfresh port d).onPort port fun p => { p with fallbackActive := false }) := by
  subst hname
  have hidle : recalActive (d.port (u8 q 0)) = false := by simp [recalActive, hrecal, hup, hstep, hafter]
  rw [devLinkControl, hb.runChk_eq _ _ (by simp [linkControlChk, firstBad, h16, h1, h2, hzero])]
  simp [hidle, hstep, hafter, h1, hmode, finish]

/-- A width cap of four lanes starts a step, now or after the check, where the width of the port changes by it. -/
theorem CmdBegun.devLinkControl_cap (hport : port < d.net.ports.length) (h1 : u8 q 1 = 3) (h2 : u8 q 2 = 4) (hdirect : (d.port port).ent.mode = .direct) :
    let x : NetPort := { d.port port with widthCap := 4 }
    let e := d.onPort port fun p => { p with widthCap := 4 }
    devLinkControl c d = if stepWidth x (goodLanes x) = laneCount (d.port port).lanesActive then answer c stDone 0 none none e
      else if (d.port port).st = .up ∨ (d.port port).st = .sleep then startStep port (.cap c) (leave c [port] e)
      else if (d.port port).st = .checking ∨ (d.port port).replayRetrain = true then (leave c [port] e).onPort port fun p => { p with stepAfter := some (.cap c) }
      else answer c stDone 0 none none e := by
  subst hname
  have hidle : recalActive (d.port (u8 q 0)) = false := by simp [recalActive, hrecal, hup, hstep, hafter]
  rw [devLinkControl, hb.runChk_eq _ _ (by simp [linkControlChk, firstBad, h16, h1, h2, hzero, hdirect])]
  simp [hidle, hstep, hafter, h1, h2, finish, Dev.port_onPort hport]

end

end

end

/-- Settles O50: each row by the branch it takes, and `lowLanes_widthOf` on masks. -/
theorem widthSteps : Obligations.WidthSteps := by
  unfold Obligations.WidthSteps
  intro s port c q hon hport p named
  refine ⟨fun lane hdirect hst hstep hin => .of_liveQ hon rfl (devLaneUnhealthy_active hdirect hport hst hstep hin),
    ?stepUp, ?state, ?request,
    fun mask x hst hstep hsent hmask hout hcause => .of_live hon rfl (devWidthAck_lane hport hst hstep hsent hmask hout hcause), lowLanes_widthOf, ?recal, ?recalDone,
    ?control, ?nodes⟩
  case stepUp =>
    intro lane hdirect hst hstep hrecal hafter d hgood
    exact .of_live hon rfl (devLaneStepUp_direct hdirect hport hst hstep hrecal hafter hgood)
  case state =>
    intro mask x hdirect hst hstep hnew m
    have heq := devLaneState_first hdirect (mask := mask) hst hstep hnew
    exact ⟨fun hnone => .of_liveQ hon rfl (heq.trans (if_pos hnone)), fun hsome => .of_liveQ hon rfl (heq.trans (if_neg hsome))⟩
  case request =>
    intro mask w x hdirect hst hstep hsent
    exact ⟨fun hmask hwait => .of_liveQ hon rfl (devWidthReq_agreed hdirect hst hstep hsent hport hmask hwait),
      fun hmask hsome => .of_liveQ hon rfl (devWidthReq_narrowed hdirect hst hstep hsent hmask hsome)⟩
  case recal =>
    rintro ⟨hname, h16⟩ hb hlane hzero
    refine ⟨fun hstep => .of_liveQ hon rfl (hb.devLaneRecal_busy hname h16 hlane hzero hstep), fun hrecal hup hstep hafter => ?_⟩
    obtain ⟨hdown, hin⟩ := hb.devLaneRecal_eq hname h16 hlane hzero hrecal hup hstep hafter
    refine ⟨fun hst => .of_liveQ hon rfl (hdown hst), fun hst hdirect hact => ?_⟩
    exact ⟨fun hone => .of_liveQ hon rfl ((hin hst hdirect hact).trans (if_pos hone)), fun hmore => .of_liveQ hon rfl ((hin hst hdirect hact).trans (if_neg hmore))⟩
  case recalDone =>
    intro lane k hrecal hstep hreplay hdirect hst d
    have heq := devLaneRecalDone_direct hport hrecal hstep hreplay hdirect hst
    exact ⟨.of_live hon rfl (heq true), .of_live hon rfl (heq false)⟩
  case control =>
    rintro ⟨hname, h16⟩ hb hzero hrecal hup hstep hafter
    refine ⟨fun h1 h2 hmode => .of_liveQ hon rfl ?_, fun h1 h2 hdirect hlive hun => .of_liveQ hon rfl ?_,
      fun h1 h2 hmode hst => .of_liveQ hon rfl (hb.devLinkControl_up hname h16 hzero hrecal hup hstep hafter h1 h2 hmode hst),
      fun h1 h2 hnone => .of_liveQ hon rfl (hb.devLinkControl_none hname h16 hzero hrecal hup hstep hafter h1 h2 hnone),
      fun h1 h2 hmode => .of_liveQ hon rfl (hb.devLinkControl_afresh hname h16 hzero hrecal hup hstep hafter h1 h2 hmode), ?cap, ?capKept,
      fun h1 h2 hdirect => .of_liveQ hon rfl (hb.devLinkControl_badWidth hname h16 h1 h2 hdirect)⟩
    · exact (hb.devLinkControl_down hname h16 hzero hrecal hup hstep hafter h1 h2).trans (if_neg fun h => hmode h.1)
    · exact (hb.devLinkControl_down hname h16 hzero hrecal hup hstep hafter h1 h2).trans (if_pos ⟨hdirect, hlive, hun⟩)
    case cap =>
      intro h1 h2 hdirect x d hnew
      have heq := (hb.devLinkControl_cap hname h16 hzero hrecal hup hstep hafter hport h1 h2 hdirect).trans (if_neg hnew)
      exact ⟨fun hst => .of_liveQ hon rfl (heq.trans (if_pos hst)),
        fun hst => .of_liveQ hon rfl (heq.trans ((if_neg (by rw [show (s.dev.port port).st = .checking from hst]; decide)).trans (if_pos (.inl hst))))⟩
    case capKept =>
      intro h1 h2 hdirect hup' hsleep hcheck hreplay
      refine .of_liveQ hon rfl ((hb.devLinkControl_cap hname h16 hzero hrecal hup hstep hafter hport h1 h2 hdirect).trans ?_)
      have hrest : ¬((s.dev.port port).st = .up ∨ (s.dev.port port).st = .sleep) := not_or.mpr ⟨hup', hsleep⟩
      have hlater : ¬((s.dev.port port).st = .checking ∨ (s.dev.port port).replayRetrain = true) := not_or.mpr ⟨hcheck, by rw [hreplay]; decide⟩
      rw [if_neg hrest, if_neg hlater, ite_self]
  case nodes =>
    intro hb hchk es
    refine .of_live hon rfl ?_
    rw [devNodeTableWrite, hb.runChk_eq _ _ hchk]

end Sys2Proof.Machine
end

section
/-! SUPPORT. Ropes: their commands, due calls, timeouts and aborts (R348, R349, R354, R371 to R373, R376 to R378). -/

namespace Sys2Proof.Machine

/-! ### What leaves the ropes alone -/

theorem ropes_of_eq_pair {α : Type} {x : α × Dev} {a : α} {e d : Dev} (h : x = (a, e)) (hx : x.2.ropes = d.ropes) : e.ropes = d.ropes := by rwa [h] at hx

@[simp] theorem eccCell_ropes (dpa n : Nat) (d : Dev) : (eccCell dpa n d).2.ropes = d.ropes := by
  unfold eccCell
  dsimp only
  (repeat' split) <;> simp

@[simp] theorem eccCells_ropes (errs : List (Nat × Nat)) (dpa : Nat) (l : List Nat) (d : Dev) : (eccCells errs dpa l d).2.ropes = d.ropes := by
  induction l generalizing d with
  | nil => rfl
  | cons i r ih => exact (ih _).trans (eccCell_ropes ..)

@[simp] theorem accCells_ropes (k : Nat) (a : Access) (d : Dev) : (accCells k a d).2.ropes = d.ropes := by cases a <;> simp [accCells]

@[simp] theorem heldCells_ropes (k : Nat) (l : List Access) (d : Dev) : (heldCells k l d).2.ropes = d.ropes := by
  induction l generalizing d with
  | nil => rfl
  | cons a r ih =>
    simp only [heldCells, ih]
    split <;> simp

@[simp] theorem serveCells_ropes (k : Nat) (d : Dev) : (serveCells k d).ropes = d.ropes := by
  unfold serveCells
  dsimp only
  split <;> simp

@[simp] theorem wakeStack_ropes (k : Nat) (d : Dev) : (wakeStack k d).ropes = d.ropes := by
  unfold wakeStack
  split <;> simp

@[simp] theorem touchStack_ropes (k : Nat) (d : Dev) : (touchStack k d).ropes = d.ropes := by simp [touchStack]

theorem crossOr_ropes (u : Flit) (what : Arrived) {f : Dev → Dev} (hf : ∀ d, (f d).ropes = d.ropes) (d : Dev) : (crossOr u what f d).ropes = d.ropes := by
  unfold crossOr
  split <;> simp [hf]

@[simp] theorem touchKey_ropes (tile : Nat) (k : Nat × Bool) (d : Dev) : (touchKey tile k d).2.ropes = d.ropes := by
  unfold touchKey
  dsimp only
  split <;> simp

@[simp] theorem chargePacket_ropes (tile : Nat) (k : Nat × Bool) (n : Nat) (d : Dev) : (chargePacket tile k n d).2.ropes = d.ropes := by
  unfold chargePacket
  dsimp only
  split <;> simp

theorem sealedIn_ropes (port : Nat) (t : BitVec 8) (p : Pkt) (f : Frame) {g : Frame → Dev → Dev} (hg : ∀ f d, (g f d).ropes = d.ropes) (d : Dev) :
    (sealedIn port t p f g d).ropes = d.ropes := by
  unfold sealedIn
  split <;> simp [hg]

@[simp] theorem heldDrain_ropes (k port : Nat) (d : Dev) : (heldDrain k port d).ropes = d.ropes := rfl

@[simp] theorem dropAck_ropes (k : Nat) (f : Frame) (d : Dev) : (dropAck k f d).ropes = d.ropes := rfl

@[simp] theorem ownIn_ropes (port k : Nat) (f : Frame) (d : Dev) : (ownIn port k f d).ropes = d.ropes := by
  unfold ownIn
  dsimp only
  (repeat' split) <;> simp

@[simp] theorem outwardLand_ropes (port : Nat) (t : BitVec 8) (p : Pkt) (qpn : Option Nat) (path : Nat) (outer : Bytes) (d : Dev) :
    (outwardLand port t p qpn path outer d).ropes = d.ropes := sealedIn_ropes _ _ _ _ (ownIn_ropes _ _) d

@[simp] theorem outward_ropes (tile port : Nat) (t : BitVec 8) (p : Pkt) (qpn : Option Nat) (path : Nat) (d : Dev) : (outward tile port t p qpn path d).ropes = d.ropes :=
  crossOr_ropes _ _ (outwardLand_ropes _ _ _ _ _ _) d

@[simp] theorem sendRope_ropes (slot : Nat) (down : Bool) (t : BitVec 8) (p : Pkt) (d : Dev) : (sendRope slot down t p d).2.ropes = d.ropes := by
  unfold sendRope
  dsimp only
  (repeat' split) <;> simp

@[simp] theorem sendAbort_ropes (slot : Nat) (down : Bool) (d : Dev) : (sendAbort slot down d).ropes = d.ropes := by
  unfold sendAbort
  split <;> simp

@[simp] theorem dropWaiters_ropes (p : Waiter → Bool) (d : Dev) : (dropWaiters p d).ropes = d.ropes := rfl

@[simp] theorem addRun_ropes (tile : Nat) (e : RunEntry) (d : Dev) : (addRun tile e d).ropes = d.ropes := rfl

@[simp] theorem addUpper_ropes (tile t dva : Nat) (d : Dev) : (addUpper tile t dva d).ropes = d.ropes := rfl

@[simp] theorem lookupRun_ropes (tile t addr : Nat) (d : Dev) : (lookupRun tile t addr d).2.ropes = d.ropes := by
  unfold lookupRun
  dsimp only
  (repeat' split) <;> simp [foldl_keeps Dev.ropes]

@[simp] theorem trackStream_ropes (tile : Nat) (s : Stream) (d : Dev) : (trackStream tile s d).ropes = d.ropes := rfl

@[simp] theorem sendAts_ropes (tile t addr : Nat) (who : Waiting) (rec : Option Nat) (ahead : Option (Stream × Nat)) (d : Dev) :
    (sendAts tile t addr who rec ahead d).ropes = d.ropes := by
  unfold sendAts
  dsimp only
  (repeat' split) <;> simp

@[simp] theorem prefetchFrom_ropes (tile t : Nat) (s : Stream) (n addr : Nat) (d : Dev) : (prefetchFrom tile t s n addr d).ropes = d.ropes := by
  induction n generalizing addr with
  | zero => rfl
  | succ n ih =>
    unfold prefetchFrom
    (repeat' split) <;> simp [ih]

@[simp] theorem enterRun_ropes (tile t addr : Nat) (s : Stream) (d : Dev) : (enterRun tile t addr s d).2.ropes = d.ropes := by
  have hlook := (lookupRun_ropes tile t addr (trackStream tile s d)).trans (trackStream_ropes tile s d)
  unfold enterRun
  split
  · next he => exact (prefetchFrom_ropes ..).trans (ropes_of_eq_pair he hlook)
  · next he => exact ropes_of_eq_pair he hlook

theorem touchPlaces_ropes (l : List (Place × Nat)) (d : Dev) : (touchPlaces l d).ropes = d.ropes :=
  foldl_keeps Dev.ropes _ (fun d x => by obtain ⟨p, n⟩ := x; cases p <;> simp) l d

@[simp] theorem touchRange_ropes (tile t addr len : Nat) (write : Bool) (d : Dev) : (touchRange tile t addr len write d).ropes = d.ropes := touchPlaces_ropes _ d

/-! ### A rope and its updates -/

theorem Dev.rope?_congr {d e : Dev} (h : d.ropes = e.ropes) (k : Nat) : d.rope? k = e.rope? k := by rw [Dev.rope?, Dev.rope?, h]

theorem Dev.rope?_onRope {d : Dev} {k : Nat} {r : Rope} (hr : d.rope? k = some r) (f : Rope → Rope) : (d.onRope k f).rope? k = some (f r) := by
  rw [Dev.rope?, Dev.onRope, Dev.onRopes_ropes, Tab.get?_upd_self, show d.ropes.slots.get? k = some r from hr]
  rfl

theorem Dev.onRope_congr {d : Dev} {k : Nat} {r : Rope} (hr : d.rope? k = some r) {f g : Rope → Rope} (h : f r = g r) : d.onRope k f = d.onRope k g := by
  simp only [Dev.onRope, Dev.onRopes, Tab.upd_congr hr h]

/-! ### The commands -/

section
variable {d : Dev} {c : CmdSlot} {p : Bytes} {t : Tenant}

section
variable (hb : CmdBegun d c 0x0601 p) (ht : d.ten? (u32 p 0) = some t) (hm : mgmtOk c t = true) (hst : t.st = .active)
  (hchk : firstBad (ropeCreateChk p d) = none) (htrig : ropeCqOk d (u32 p 0) (u8 p 9) (u16 p 0x2A) = true) (hdone : ropeCqOk d (u32 p 0) (u8 p 9) (u16 p 0x2C) = true)
include hb ht hm hst hchk htrig hdone

/-- A ROPE_CREATE that the tenant's quota of ropes refuses. -/
theorem devRopeCreate_quota (hfull : t.par.ropes ≤ (tenRopes d (u32 p 0)).length) : devRopeCreate c d = quotaHit c (u32 p 0) 6 d := by
  rw [devRopeCreate, hb.runChk_eq _ _ hchk]
  simp only [withTenant_active ht hm hst, htrig, hdone]
  exact if_pos hfull

section
variable (hroom : (tenRopes d (u32 p 0)).length < t.par.ropes)
include hroom

/-- A ROPE_CREATE whose ledges do not fit the tile's SRAM. -/
theorem devRopeCreate_sram (hsram : sramFree d (u8 p 9) < partUnits (u8 p 0x19) (u8 p 0x18)) : devRopeCreate c d = answer c stNoResource 0 none none d := by
  rw [devRopeCreate, hb.runChk_eq _ _ hchk]
  simp [withTenant_active ht hm hst, htrig, hdone, hroom, hsram, finish]

/-- A ROPE_CREATE that finds quota and SRAM takes its slot. -/
theorem devRopeCreate_taken {q : Cq} (hsram : partUnits (u8 p 0x19) (u8 p 0x18) ≤ sramFree d (u8 p 9)) (hup : tileUp d (u8 p 9) = true) (hq : d.cq? (u16 p 0x2A) = some q) :
    let r := parseRope p q.count
    devRopeCreate c d = answer c stDone 0 none none (d.onRopes fun x => { x with
      slots := x.slots.set (u8 p 8) { r with bucket := if r.par.maxRate = 0 then 0 else 1024 * (ropeBurst d r : Int) } }) := by
  intro r
  rw [devRopeCreate, hb.runChk_eq _ _ hchk]
  simp only [withTenant_active ht hm hst, htrig, hdone, hup, hq, Bool.not_true, Bool.false_eq_true, if_false, Bool.or_false, decide_eq_true_eq,
    Option.map_some, Option.getD_some, if_neg (not_le.2 hroom), if_neg (not_lt.2 hsram), finish, r]

end
end

/-- A command that names a rope of a tenant that is ACTIVE. -/
theorem withRope_active {r : Rope} (ht : d.ten? (u32 p 0) = some t) (hm : mgmtOk c t = true) (hst : t.st = .active) (hr : d.rope? (u8 p 4) = some r)
    (busyRule : Bool) (f : Rope → Dev → Dev) : withRope c p busyRule f d = if r.par.tenant ≠ u32 p 0 then finishAt c stNotOwner 4 d else f r d := by
  rw [withRope, withTenant_active ht hm hst]
  simp only [hr]

section
variable (ht : d.ten? (u32 p 0) = some t) (hm : mgmtOk c t = true) (hst : t.st = .active) (hn : u32 p 0 < 256) (hk : u8 p 4 < 64) (hz : zeros p 5 3 = true)
include ht hm hst hn hk hz

theorem devRopeQuery_eq {r : Rope} (hb : CmdBegun d c 0x0603 p) (ha : addrOk c (u64 p 8) 64 = true) (hr : d.rope? (u8 p 4) = some r) :
    devRopeQuery c d = if r.par.tenant ≠ u32 p 0 then answer c stNotOwner 4 none none d else answer c stDone 0 (some (u64 p 8, ropeRecord r)) none d := by
  rw [devRopeQuery, hb.runChk_eq _ _ (by simp [firstBad, hn, hk, hz, ha])]
  exact withRope_active ht hm hst hr _ _

/-- ROPE_DESTROY of an idle rope completes its due calls as aborted. -/
theorem devRopeDestroy_idle {r : Rope} (hb : CmdBegun d c 0x0602 p) (hr : d.rope? (u8 p 4) = some r) (hown : r.par.tenant = u32 p 0) (hidle : r.st = .idle) :
    devRopeDestroy c d = (iter (dueAborted (u8 p 4) r.par.index 0x6A) (dueCount d r) (leave c [u8 p 4] d)).onRope (u8 p 4)
      fun r => { r with refetch := 0, destroying := some (some c) } := by
  have hcount : dueCount (leave c [u8 p 4] d) r = dueCount d r := by simp [dueCount, Dev.cq?]
  rw [devRopeDestroy, hb.runChk_eq _ _ (by simp [firstBad, hn, hk, hz])]
  dsimp only
  rw [withRope_active ht hm hst hr, if_neg (not_not.2 hown)]
  simp only [hidle, Dev.rope?_congr (leave_ropes c [u8 p 4] d), hr, reduceCtorEq, if_false, Option.map_some, Option.getD_some, hcount]

end
end

/-! ### The rows of a rope -/

/-- A rope whose abort is noted. -/
def ropeNoted (num origin reason : Nat) (r : Rope) : Rope :=
  { r with abortCall := num, abortOrigin := origin, abortReason := reason, abortEntry := (r.call.map (·.entry)).getD [] }

section
variable {d : Dev} {k : Nat} {r : Rope} (hr : d.rope? k = some r)
include hr

theorem devRopeSlotFreed_eq {q : CmdSlot} (hd : r.destroying = some (some q)) (hq : ropeQueued d k = false) (hdown : r.abortDown = 0) (hup : r.abortUp = 0)
    (hw : r.waiting = []) :
    devRopeSlotFreed k d = tenResetTry r.par.tenant (answerIf q 0x0602 stDone none
      (dropWaiters (fun w => w = .rope k) (d.onRopes fun x => { x with slots := x.slots.erase k }))) := by
  simp [devRopeSlotFreed, hr, hd, hq, hdown, hup, hw]

/-- A local abort of a running rope completes its call with the reason. -/
theorem ropeAbortLocal_running {x : Call} {reason : Nat} (hx : r.call = some x) (hst : r.st = .running) :
    ∃ y, (ropeAbortLocal k reason d).rope? k = some y ∧ y.st = .aborted ∧ y.call = none ∧ y.nextCall = x.num + 1 ∧ y.callsDone = r.callsDone + 1#32
      ∧ y.waiting = r.waiting ++ [(ropeCqe k r x.num x.entry ccRopeAbort reason r.par.index 0, true)] := by
  have hring : ropeAbortLocal k reason d = ropeAbort k r.par.index reason true true d := by simp only [ropeAbortLocal, hr]
  rw [hring, ropeAbort]
  simp only [hr]
  rw [if_neg (by simp [hst])]
  simp only [Dev.rope?_congr (postEvent_ropes _ _ _ _ _ _)]
  refine ⟨_, Dev.rope?_onRope (r := ropeNoted x.num r.par.index reason r) ?_ _, rfl, rfl, ?_, ?_, ?_⟩
  · refine (Dev.rope?_congr (e := (dropWaiters (fun w => w = .rope k) (count 0x0902 r.par.tile (some r.par.tenant) 1 d)).onRope k
      (ropeNoted x.num r.par.index reason)) ?_ k).trans (Dev.rope?_onRope ((Dev.rope?_congr (by simp) k).trans hr) _)
    simp only [hx]
    cases ropeSpeaks r
    · rfl
    · exact (sendAbort_ropes _ _ _).trans (sendAbort_ropes _ _ _)
  all_goals simp [ropeNoted, hx, ropeCqe]

theorem devPitchTimeout_eq {x : Call} (hx : r.call = some x) (hst : r.st = .running) : devPitchTimeout k d = ropeAbortLocal k 0x60 d := by
  simp [devPitchTimeout, hr, hst, hx]

theorem devRopeAckRepeat_eq {x : Call} (hx : r.call = some x) (hfirst : x.rx.gotFirst = false) : devRopeAckRepeat k d = sendRopeAck k d := by
  simp [devRopeAckRepeat, hr, hx, hfirst]

/-- Only the abort sent down is due again. -/
theorem devRopeAbortRepeat_down (hdown : r.abortDown ≠ 0) (hup : r.abortUp = 0) :
    devRopeAbortRepeat k d = (sendAbort k true d).onRope k fun r => { r with abortDown := r.abortDown - 1, abortUp := 0 } := by
  have hsame := (Dev.rope?_congr (sendAbort_ropes k true d) k).trans hr
  simp only [devRopeAbortRepeat, hr, if_neg hdown, if_pos hup]
  exact Dev.onRope_congr hsame (by simp [hup])

section
variable {e : Bytes}

omit hr in
/-- The entry of a due call, as its tile reads it. -/
theorem takeCall_ok : let a := callEntryAddr r r.nextCall
    let u := touchRange r.par.tile r.par.tenant a 64 false d
    readCall u r r.nextCall = .ok e → takeCall k r d = (.ok e, (enterRun r.par.tile r.par.tenant a (.calls k) u).2) := by
  intro a u he
  rw [takeCall, show readCall (touchRange r.par.tile r.par.tenant (callEntryAddr r r.nextCall) 64 false d) r r.nextCall = .ok e from he]

theorem callRead_ok : let a := callEntryAddr r r.nextCall
    let u := touchRange r.par.tile r.par.tenant a 64 false d
    readCall u r r.nextCall = .ok e → callRead k 0 d = callBegin k 0 e (enterRun r.par.tile r.par.tenant a (.calls k) u).2 := by
  intro a u he
  simp only [callRead, hr, takeCall_ok he]
  rfl

/-- A due call of an aborted rope is completed at once. -/
theorem dueAborted_ok {origin reason : Nat} (hw : r.waiting = []) : let a := callEntryAddr r r.nextCall
    let u := touchRange r.par.tile r.par.tenant a 64 false d
    readCall u r r.nextCall = .ok e → dueAborted k origin reason d = (enterRun r.par.tile r.par.tenant a (.calls k) u).2.onRope k fun r => { r with
      nextCall := r.nextCall + 1, callsDone := r.callsDone + 1#32, waiting := [(ropeCqe k r r.nextCall e ccRopeAbort reason origin 0, true)] } := by
  intro a u he
  have hsame : (enterRun r.par.tile r.par.tenant a (.calls k) u).2.rope? k = some r := (Dev.rope?_congr (by simp [u]) k).trans hr
  simp only [dueAborted, hr, takeCall_ok he]
  exact Dev.onRope_congr hsame (by simp [hw])

end

/-- The row of a call that is due, by the state of its rope. -/
theorem devRopeCallDue_eq (hdue : ropeDue d r = true) (hruns : ropeRuns d r = true) (hw : r.waiting = []) (hopen : entryOpen d r = true) :
    devRopeCallDue k d = match r.st with
      | .aborted => dueAborted k r.abortOrigin r.abortReason d
      | .idle => if ropeMay d r && doneOpen d r && r.refetch = 0 && !r.stalled then callRead k 0 d else d
      | .running => d := by
  simp only [devRopeCallDue, hr, hdue, hruns, hw, hopen]
  rfl

/-! A call that begins, by its phase, its form and its buffers. -/

section
variable {e : Bytes} {c : Call}

/-- A rope whose call begins. -/
def ropeBegins (k : Nat) (c : Call) (d : Dev) : Dev := d.onRope k fun r => { r with st := .running, call := some c, refetch := 0 }

/-- An entry of a later phase is read again. -/
theorem callBegin_late (hphase : tb (u8 e 1) 0 ≠ phaseOf (2 ^ r.par.callLog2) r.nextCall) : callBegin k 0 e d = d.onRope k fun r => { r with refetch := 1 } := by
  simp [callBegin, hr, hphase]

section
variable (hphase : tb (u8 e 1) 0 = phaseOf (2 ^ r.par.callLog2) r.nextCall)
include hphase

theorem callBegin_form (hform : callForm r e = false) :
    callBegin k 0 e d = ropeAbortLocal k 0x66 (ropeBegins k { num := r.nextCall, entry := e, rx := { limit := r.par.ledges } } d) := by
  rw [callBegin]
  simp only [hr]
  rw [if_neg (not_not.2 hphase), if_pos (by simp [hform])]
  rfl

theorem callBegin_access (hform : callForm r e = true) (hacc : callAccess d r e = false) :
    callBegin k 0 e d = ropeAbortLocal k 0x64 (ropeBegins k { num := r.nextCall, entry := e, rx := { limit := r.par.ledges } } d) := by
  rw [callBegin]
  simp only [hr]
  rw [if_neg (not_not.2 hphase), if_neg (by simp [hform]), if_pos (by simp [hacc])]
  rfl

theorem callBegin_sound (hform : callForm r e = true) (hacc : callAccess d r e = true) (hmembers : r.par.members ≠ 1) :
    callBegin k 0 e d = sendRopeAck k (ropeBegins k { num := r.nextCall, entry := e, rx := { limit := r.par.ledges } } d) := by
  rw [callBegin]
  simp only [hr]
  rw [if_neg (not_not.2 hphase), if_neg (by simp [hform]), if_neg (by simp [hacc]), if_neg hmembers]
  rfl

end
end
end

/-! ### O51 -/

/-- Settles O51: each clause is one row; what a due call reads leaves its rope as it is. -/
theorem ropeCommands : Obligations.RopeCommands := by
  unfold Obligations.RopeCommands
  intro s c p t hon n k may named
  refine ⟨?create, ?query, ?destroy, ?freed, ?due, ?run, ?again⟩
  case create =>
    rintro ⟨hb, ht, hm, hst⟩ hchk htrig hdone
    refine ⟨fun hfull => .of_live hon rfl (devRopeCreate_quota hb ht hm hst hchk htrig hdone hfull),
      fun hroom hsram => .of_live hon rfl (devRopeCreate_sram hb ht hm hst hchk htrig hdone hroom hsram), ?_⟩
    intro q hroom hsram hup hq r
    exact .of_live hon rfl (devRopeCreate_taken hb ht hm hst hchk htrig hdone hroom hsram hup hq)
  case query =>
    rintro r ⟨hb, ht, hm, hst⟩ ⟨hn, hk, hz⟩ ha hr
    have heq := devRopeQuery_eq ht hm hst hn hk hz hb ha hr
    exact ⟨fun hown => .of_live hon rfl (heq.trans (if_neg (not_not.2 hown))), fun hother => .of_live hon rfl (heq.trans (if_pos hother))⟩
  case destroy =>
    rintro r ⟨hb, ht, hm, hst⟩ ⟨hn, hk, hz⟩ hr hown hidle
    exact .of_liveQ hon rfl (devRopeDestroy_idle ht hm hst hn hk hz hb hr hown hidle)
  case freed =>
    intro k r q hr hd hq hdown hup hw
    exact .of_liveQ hon rfl (devRopeSlotFreed_eq hr hd hq hdown hup hw)
  case due =>
    intro k r e hr hdue hruns hw hopen a u he d start
    have hsame : d.rope? k = some r := (Dev.rope?_congr (by simp [d, u]) k).trans hr
    have heq := devRopeCallDue_eq hr hdue hruns hw hopen
    have hstart : ropeBegins k { num := r.nextCall, entry := e, rx := { limit := r.par.ledges } } d = start := Dev.onRope_congr hsame rfl
    constructor
    · intro hidle hmay hdone hrefetch hstalled
      have hread : devRopeCallDue k s.dev = callBegin k 0 e d := by
        rw [heq, hidle]
        exact (if_pos (by simp [hmay, hdone, hrefetch, hstalled])).trans (callRead_ok hr he)
      refine ⟨fun hphase => .of_liveQ hon rfl (hread.trans (callBegin_late hsame hphase)), fun hphase => ⟨?_, ?_, ?_⟩⟩
      · exact fun hform => .of_liveQ hon rfl (hread.trans (hstart ▸ callBegin_form hsame hphase hform))
      · exact fun hform hacc => .of_liveQ hon rfl (hread.trans (hstart ▸ callBegin_access hsame hphase hform hacc))
      · exact fun hform hacc hmembers => .of_liveQ hon rfl (hread.trans (hstart ▸ callBegin_sound hsame hphase hform hacc hmembers))
    · intro haborted
      refine .of_liveQ hon rfl ?_
      rw [heq, haborted]
      exact (dueAborted_ok hr hw he).trans (Dev.onRope_congr hsame rfl)
  case run =>
    intro k r x hr hx
    exact ⟨fun hfirst => .of_live hon rfl (devRopeAckRepeat_eq hr hx hfirst),
      fun hst => ⟨.of_liveQ hon rfl (devPitchTimeout_eq hr hx hst), ropeAbortLocal_running hr hx hst⟩⟩
  case again =>
    intro k r hr hdown hup
    exact .of_live hon rfl (devRopeAbortRepeat_down hr hdown hup)

end Sys2Proof.Machine
end

section
/-! SUPPORT. Rope packets, the service of pitches, and what copy-free calls sum to (R360 to R369, R373, R375). -/

namespace Sys2Proof.Machine

/-! ### A rope packet reaches its rope -/

/-- A rope packet that a device takes from a port: the checks of R255 before the rope is looked at. -/
def RopePktSound (d : Dev) (port : Nat) (p : Pkt) (t : BitVec 8) : Prop :=
  d.pwr.state = .active ∧ portUp d port = true ∧ tileUp d (portTile port) = true ∧ (d.port port).ent.mode ≠ .direct
    ∧ ingressFill d port + frameLen p ≤ 1048576 ∧ pflag p pfAuth = false ∧ p.trailer.length = 4 ∧ p.trailer = toLE 4 (crc32c (coveredBytes t p)).toNat
    ∧ p.ver.toNat / 16 = 2 ∧ ropeForm t p = true

/-- The device after a rope packet is counted. -/
def ropeCounted (d : Dev) (port : Nat) (p : Pkt) (ten : Option Nat) : Dev := count 0x0402 port ten 1 (count 0x0403 port ten (frameLen p) d)

/-- A rope packet that has come to the tile of its rope and passed the meter of its port, which leaves `e`. -/
def RopePktCame (d : Dev) (port : Nat) (p : Pkt) (r : Rope) (e : Dev) (t : BitVec 8) : Prop :=
  RopePktSound d port p t ∧ d.rope? p.dstQpn.toNat = some r ∧ tileUp d r.par.tile = true ∧ bx p.ext 0 4 = r.par.ropeId.toNat
    ∧ Crosses (ropeCounted d port p (some r.par.tenant)) ⟨.col, portTile port, r.par.tile⟩ inOwn
    ∧ meterRope port p r.par.tenant (ropeCounted d port p (some r.par.tenant)) = (false, e)

section
variable {d e : Dev} {port : Nat} {p : Pkt} {r : Rope} {t : BitVec 8}

@[simp] theorem ropeCounted_rope? (ten : Option Nat) (k : Nat) : (ropeCounted d port p ten).rope? k = d.rope? k := by simp [ropeCounted, Dev.rope?]

@[simp] theorem ropeCounted_tileUp (ten : Option Nat) (k : Nat) : tileUp (ropeCounted d port p ten) k = tileUp d k := by
  simp [ropeCounted, tileUp, Dev.tileLive]

/-- A packet that is taken is counted, and its rope, where the device has it, is looked at on the rope's tile. -/
theorem RopePktSound.devRopePkt_eq (h : RopePktSound d port p t) :
    let c := ropeCounted d port p ((d.rope? p.dstQpn.toNat).map (·.par.tenant))
    devRopePkt t port p d = (d.rope? p.dstQpn.toNat).elim (ropeChecked port t p c) fun r =>
      if tileUp d r.par.tile then crossOr ⟨.col, portTile port, r.par.tile⟩ (.rope port t p) (ropeLand port t p) c else c := by
  intro c
  obtain ⟨hst, hup, htile, hmode, hroom, hauth, hlen, hcrc, hver, hform⟩ := h
  have hfull : bufFull d port (frameLen p) = false := by simp [bufFull, hroom]
  have hcheck : trailerCheck none t p = .ok p none := by
    simp only [trailerCheck, hauth]
    exact if_pos hcrc
  have hrope : c.rope? p.dstQpn.toNat = d.rope? p.dstQpn.toNat := ropeCounted_rope? _ _
  have hlive (k : Nat) : tileUp c k = tileUp d k := ropeCounted_tileUp _ _
  have htake : recvRope t port p d = (c.rope? p.dstQpn.toNat).elim (ropeChecked port t p c) fun r =>
      if tileUp c r.par.tile then crossOr ⟨.col, portTile port, r.par.tile⟩ (.rope port t p) (ropeLand port t p) c else c := by
    simp only [recvRope, frameIn]
    rw [if_neg (by simp [hup, htile, hmode]), if_neg (by simp [hfull]), if_pos hmode, if_neg (by simp [hlen, hauth]), if_neg (by simp [hauth]), hcheck]
    dsimp only
    rw [if_neg (not_not.2 hver), if_neg (by simp [hform])]
    change (match c.rope? p.dstQpn.toNat with | some r => _ | none => _) = _
    cases c.rope? p.dstQpn.toNat <;> rfl
  rw [devRopePkt, arrive, if_neg (by simp [hst]), htake, hrope]
  simp only [hlive]

theorem RopePktSound.devRopePkt_absent (h : RopePktSound d port p t) (hr : d.rope? p.dstQpn.toNat = none) :
    devRopePkt t port p d = noRope port t p (ropeCounted d port p none) := by
  have hnone : (ropeCounted d port p none).rope? p.dstQpn.toNat = none := by simp [hr]
  rw [h.devRopePkt_eq]
  simp only [hr, Option.elim_none, Option.map_none, ropeChecked, hnone]

theorem RopePktSound.devRopePkt_crosses (h : RopePktSound d port p t) (hr : d.rope? p.dstQpn.toNat = some r) (hup : tileUp d r.par.tile = true)
    (hshut : flowOpen (ropeCounted d port p (some r.par.tenant)).fab ⟨.col, portTile port, r.par.tile⟩ inOwn = false) :
    devRopePkt t port p d = (ropeCounted d port p (some r.par.tenant)).onFab fun f =>
      { f with crossings := f.crossings ++ [⟨⟨.col, portTile port, r.par.tile⟩, inOwn, none, .rope port t p⟩] } := by
  rw [h.devRopePkt_eq]
  simp only [hr, Option.elim_some, Option.map_some, hup, if_true]
  exact crossOr_shut (by simp [Crosses, hshut])

/-- A packet that has come to its rope is judged by its sender, the rope's state and its geometry (R367). -/
theorem RopePktCame.devRopePkt_eq (h : RopePktCame d port p r e t) : devRopePkt t port p d = (fromUpstream r t p).elim (count 0x0905 port none 1 e) fun up =>
    if r.st = .aborted then (if t = ptRopeAbort || t = ptRopeAck then e else ropePayload port p.dstQpn.toNat r t p e)
    else if !sameRope r up p then ropeAbortLocal p.dstQpn.toNat 0x67 e
    else if t = ptRopeAbort then
      if (r.call.all fun c => BitVec.ofNat 32 (bx p.ext 4 4) ≠ BitVec.ofNat 32 c.num || bx p.ext 0x0D 1 = 0 || sameCall c p) then ropeAborted p.dstQpn.toNat r p e
      else ropeAbortLocal p.dstQpn.toNat 0x67 e
    else if t = ptRopeAck then
      if !up then ropeAcked port p.dstQpn.toNat r p e
      else if (r.call.any fun c => BitVec.ofNat 32 (bx p.ext 4 4) = BitVec.ofNat 32 c.num && !sameCall c p) then ropeAbortLocal p.dstQpn.toNat 0x67 e else e
    else ropePayload port p.dstQpn.toNat r t p e := by
  obtain ⟨hsound, hr, hup, hid, hcross, hmeter⟩ := h
  have hrope : (ropeCounted d port p (some r.par.tenant)).rope? p.dstQpn.toNat = some r := (ropeCounted_rope? _ _).trans hr
  rw [hsound.devRopePkt_eq]
  simp only [hr, Option.elim_some, Option.map_some, hup, if_true]
  rw [crossOr_open hcross, ropeLand]
  simp only [hrope, ropeCounted_tileUp, hup, if_true]
  rw [ropeChecked]
  simp only [hrope, if_neg (not_not.2 hid), hmeter]
  cases fromUpstream r t p with
  | none => rfl
  | some up => cases r.call <;> rfl

/-- A packet of a running rope that agrees with it, by its type. -/
theorem RopePktCame.devRopePkt_agrees {up : Bool} (h : RopePktCame d port p r e t) (hfrom : fromUpstream r t p = some up) (hsame : sameRope r up p = true)
    (hst : r.st = .running) : devRopePkt t port p d =
      if t = ptRopeAbort then
        if (r.call.all fun c => BitVec.ofNat 32 (bx p.ext 4 4) ≠ BitVec.ofNat 32 c.num || bx p.ext 0x0D 1 = 0 || sameCall c p) then ropeAborted p.dstQpn.toNat r p e
        else ropeAbortLocal p.dstQpn.toNat 0x67 e
      else if t = ptRopeAck then
        if !up then ropeAcked port p.dstQpn.toNat r p e
        else if (r.call.any fun c => BitVec.ofNat 32 (bx p.ext 4 4) = BitVec.ofNat 32 c.num && !sameCall c p) then ropeAbortLocal p.dstQpn.toNat 0x67 e else e
      else ropePayload port p.dstQpn.toNat r t p e := by
  rw [h.devRopePkt_eq, hfrom, Option.elim_some, if_neg (by simp [hst]), if_neg (by simp [hsame])]

/-! ### A packet within its call -/

section
variable {c : Call} (hc : r.call = some c) (hnum : BitVec.ofNat 32 (bx p.ext 4 4) = BitVec.ofNat 32 c.num) (hsame : sameCall c p = true)
include hc hnum hsame

/-- A packet in order of the current call is taken by its type. -/
theorem ropePayload_inOrder {slot : Nat} (hahead : (p.psn - c.rx.cum).toNat < 256) (hnew : nth c.rx.map (p.psn - c.rx.cum).toNat false = false) :
    ropePayload port slot r t p e = if t = ptRopeData then takeRopeData slot r c p e else takeConfirm slot r c p e := by
  have hat : seqDiff (BitVec.ofNat 32 (bx p.ext 4 4)) (BitVec.ofNat 32 c.num) = 0 := by simp [seqDiff, hnum]
  have hin : ¬ (decide (2 ^ 31 ≤ (p.psn - c.rx.cum).toNat) || decide ((p.psn - c.rx.cum).toNat < 256) && false) = true := by
    generalize (p.psn - c.rx.cum).toNat = k at hahead
    simp
    omega
  rw [ropePayload]
  simp only [hc, hat, hsame, hnew]
  rw [if_neg (by decide), if_neg (by decide), if_neg (by decide), if_neg hin, if_neg (by omega)]

end

theorem takeRopeData_beyond {slot : Nat} {c : Call} (hj : callPieces r c.entry ≤ bx p.ext 8 4) : takeRopeData slot r c p e = ropeAbortLocal slot 0x6E e := by
  simp only [takeRopeData]
  exact if_pos (by simp [hj])

/-- A sound data packet of a piece that is new to the call enters a ledge and is committed. -/
theorem takeRopeData_new {slot : Nat} {c : Call} (hj : bx p.ext 8 4 < callPieces r c.entry) (htakes : takes r c.entry (bx p.ext 8 4) (bx p.ext 0x0C 1) = true)
    (hgot : c.got.contains (bx p.ext 8 4, bx p.ext 0x0C 1) = false)
    (hold : ∀ i ∈ c.input, ¬ (i.piece = bx p.ext 8 4 ∧ i.lap = bx p.ext 0x0C 1) ∧ i.hpn ≠ bx p.ext 0x1C 4)
    (hfits : p.msgOffset.toNat + p.payload.length ≤ lapBytes r c.entry (bx p.ext 8 4) (bx p.ext 0x0C 1)) (hmtu : p.payload.length ≤ ropeMtu r)
    (hoff : p.msgOffset.toNat % lapSize c.entry (bx p.ext 0x0C 1) = 0) (hlen : p.payload.length % lapSize c.entry (bx p.ext 0x0C 1) = 0)
    (hlimit : bx p.ext 0x1C 4 < c.rx.limit) (hplain : writesHere c.entry (bx p.ext 0x0C 1) = false) :
    takeRopeData slot r c p e = ropeTidy slot (commitRope slot p (tenCount r.par.tenant 5 p.payload.length (onCall slot (fun c => { c with input := c.input ++
      [{ piece := bx p.ext 8 4, lap := bx p.ext 0x0C 1, hpn := bx p.ext 0x1C 4, chunks := [{ off := p.msgOffset.toNat, data := p.payload }], flags := bx p.ext 0x12 1 / 4 }] }) e))) := by
  have hnone : (c.input.find? fun i => i.piece = bx p.ext 8 4 && i.lap = bx p.ext 0x0C 1) = none := by
    simpa using fun i hi hp hl => (hold i hi).1 ⟨hp, hl⟩
  have hhpn : (c.input.any fun i => i.hpn = bx p.ext 0x1C 4) = false := by simpa using fun i hi => (hold i hi).2
  simp only [takeRopeData, hnone, hhpn, hplain]
  rw [if_neg (by simp [hj, htakes, hoff, hlen]; simpa using ⟨⟨⟨by simpa using hgot, hfits⟩, hmtu⟩, hlimit⟩)]
  rfl

theorem takeConfirm_kept {slot : Nat} {c : Call} (hj : bx p.ext 8 4 < callPieces r c.entry) (hlap : bx p.ext 0x0C 1 = 2)
    (htakes : takesConfirm r c.entry = true) (hpass : passesConfirm r c.entry = false) :
    takeConfirm slot r c p e = ropeTidy slot (commitRope slot p
      (onCall slot (fun c => { c with confIn := max c.confIn (bx p.ext 8 4 + 1), flags := c.flags ||| bx p.ext 0x12 1 / 4 }) e)) := by
  simp [takeConfirm, hj, hlap, htakes, hpass]

end

/-! ### The service of pitches (R375) -/

/-- Of turns the one taken is one of least measure, and there is one where there is a turn. -/
theorem leastTurn_eq (f : PitchTurn → Nat) (l : List PitchTurn) :
    (l = [] ∧ leastTurn f l = none) ∨ ∃ y ∈ l, leastTurn f l = some y ∧ ∀ z ∈ l, f y ≤ f z := by
  induction l using List.reverseRecOn with
  | nil => exact .inl ⟨rfl, rfl⟩
  | append_singleton l x ih =>
    right
    rw [leastTurn, List.foldl_append]
    obtain ⟨rfl, -⟩ | ⟨y, hy, hleast, hmin⟩ := ih
    · exact ⟨x, by simp, rfl, by simp⟩
    · rw [leastTurn] at hleast
      rw [hleast]
      by_cases hx : f x < f y
      · refine ⟨x, by simp, if_pos hx, fun z hz => ?_⟩
        obtain hz | hz := List.mem_append.1 hz
        · exact hx.le.trans (hmin z hz)
        · rw [List.mem_singleton.1 hz]
      · refine ⟨y, by simp [hy], if_neg hx, fun z hz => ?_⟩
        obtain hz | hz := List.mem_append.1 hz
        · exact hmin z hz
        · rw [List.mem_singleton.1 hz]
          exact not_lt.1 hx

theorem leastTurn_mem {f : PitchTurn → Nat} {l : List PitchTurn} {y : PitchTurn} (h : leastTurn f l = some y) : y ∈ l ∧ ∀ z ∈ l, f y ≤ f z := by
  obtain ⟨-, hnone⟩ | ⟨x, hx, hsome, hmin⟩ := leastTurn_eq f l
  · simp [hnone] at h
  · obtain rfl := Option.some.inj (hsome.symm.trans h)
    exact ⟨hx, hmin⟩

/-- A priority of a turn is at most the highest one of a list that holds it. -/
theorem le_topPriority {l : List PitchTurn} {z : PitchTurn} (hz : z ∈ l) (n : Nat) : z.priority ≤ l.foldl (fun n x => max n x.priority) n := by
  have hstart : ∀ (l : List PitchTurn) n, n ≤ l.foldl (fun n x => max n x.priority) n := fun l => by
    induction l with
    | nil => exact fun n => le_rfl
    | cons x l ih => exact fun n => (le_max_left n _).trans (ih _)
  induction l generalizing n with
  | nil => simp at hz
  | cons x l ih =>
    obtain rfl | hz := List.mem_cons.1 hz
    · exact (le_max_right n _).trans (hstart l _)
    · exact ih hz _

/-- The pitch that is picked: the oldest of those that have waited for 100 µs, else one of the highest priority. -/
theorem pickPitch_eq {t last : Nat} {l : List PitchTurn} {y : PitchTurn} (h : pickPitch t last l = some y) :
    y ∈ l ∧ (∀ z ∈ l, z.since + usTicks 100 ≤ t → y.since + usTicks 100 ≤ t ∧ y.since ≤ z.since)
      ∧ ((∀ z ∈ l, t < z.since + usTicks 100) → ∀ z ∈ l, z.priority ≤ y.priority) := by
  rw [pickPitch] at h
  obtain ⟨hempty, hnone⟩ | ⟨x, hx, hsome, hmin⟩ := leastTurn_eq (·.since) (l.filter fun x => x.since + usTicks 100 ≤ t)
  · rw [hnone] at h
    have hyoung : ∀ z ∈ l, t < z.since + usTicks 100 := by simpa using hempty
    have htop : y ∈ l ∧ y.priority = l.foldl (fun n x => max n x.priority) 0 := by
      have hmem : y ∈ l.filter fun x => x.priority = l.foldl (fun n x => max n x.priority) 0 := by
        dsimp only at h
        split at h
        · next hlater =>
          obtain rfl := Option.some.inj h
          exact List.mem_of_mem_filter (leastTurn_mem hlater).1
        · exact (leastTurn_mem h).1
      simpa using hmem
    refine ⟨htop.1, fun z hz hold => absurd (hyoung z hz) (not_lt.2 hold), fun _ z hz => ?_⟩
    rw [htop.2]
    exact le_topPriority hz 0
  · rw [hsome] at h
    obtain rfl := Option.some.inj h
    simp only [List.mem_filter, decide_eq_true_eq] at hx hmin
    exact ⟨hx.1, fun z hz hold => ⟨hx.2, hmin z ⟨hz, hold⟩⟩, fun hyoung => absurd (hyoung x hx.1) (not_lt.2 hx.2)⟩

theorem pickPitch_singleton (t last : Nat) (x : PitchTurn) : pickPitch t last [x] = some x := by
  simp only [pickPitch]
  by_cases hold : x.since + usTicks 100 ≤ t
  · simp [hold, leastTurn]
  · by_cases hlast : last < x.key <;> simp [hold, hlast, leastTurn]

/-- The engine of a tile whose only eligible pitch is `z` serves it. -/
theorem devRopePitchServe_only {d y : Dev} {m : Nat} {r : Rope} {c : Call} {z : Nat × Nat} (hslots : d.ropes.slots = [(m, r)]) (hup : tileUp d r.par.tile = true)
    (hc : r.call = some c) (hel : eligiblePitches d m r = [z]) :
    let r' := { r with since := [] }
    let e := d.onRopes fun q => { q with slots := [(m, r')], last := modAt q.last r.par.tile fun _ => m * 2 ^ 34 + z.1 * 4 + z.2 }
    pitchAct e m r' c z = some y → devRopePitchServe r.par.tile d = y := by
  intro r' e hact
  have hage : (d.onRopes fun x => { x with slots := x.slots.map fun (k, y) =>
      (k, if y.par.tile = r.par.tile then agePitches (now d) (eligiblePitches d k y) y else y) }) = d.onRopes fun x =>
        { x with slots := [(m, { r with since := [(z, ((r.since.find? fun y => y.1 = z).map Prod.snd).getD (now d))] })] } := by
    simp [Dev.onRopes, hslots, hel, agePitches]
  rw [devRopePitchServe, if_neg (by simp [hup])]
  dsimp only
  rw [hage]
  simp only [Dev.onRopes_ropes, List.flatMap_cons, List.flatMap_nil, if_true, List.map_cons, List.map_nil, List.append_nil,
    pickPitch_singleton]
  have hserved : e.rope? m = some r' := by simp [e, Dev.rope?, Tab.get?, Dev.onRopes]
  have hrow (since : Nat) : ((d.onRopes fun x => { x with slots := [(m, { r with since := [(z, since)] })] }).onRopes fun y =>
      { y with last := modAt y.last r.par.tile fun _ => m * 2 ^ 34 + z.1 * 4 + z.2 }).onRope m (fun r => { r with since := r.since.filter fun y => y.1 ≠ z }) = e := by
    simp [e, r', Dev.onRope, Dev.onRopes, Tab.upd]
  simp only [PitchTurn.key, hrow, hserved, Option.bind_some, show r'.call = some c from hc, Option.map_some, hact, Option.getD_some]

/-! ### What members contribute to copy-free calls (R360, R363) -/

/-- The contributions of the members to a word of a copy-free call sum to what the receivers check. -/
theorem sum_patternAt (M n w : Nat) :
    ((List.range M).map fun m => patternAt m n w).sum % 2 ^ 32 = ((n + 1) * (M * (M + 1) / 2) + M * w) % 2 ^ 32 := by
  have htri (M : Nat) : (M + 1) * (M + 2) / 2 = M * (M + 1) / 2 + (M + 1) := by
    rw [show (M + 1) * (M + 2) = M * (M + 1) + (M + 1) * 2 by ring, Nat.add_mul_div_right _ _ (by decide)]
  induction M with
  | zero => simp
  | succ M ih =>
    rw [List.range_succ, List.map_append, List.sum_append, Nat.add_mod, ih, htri M]
    simp only [List.map_cons, List.map_nil, List.sum_cons, List.sum_nil, patternAt, Nat.add_zero, Nat.mod_mod, ← Nat.add_mod]
    congr 1
    ring

theorem combine_comm {c : Bytes} (hfmt : callFmt c = .int32) (hop : callOp c = 0) (a b : Nat) : combine c a b = combine c b a := by
  simp only [combine, hop, hfmt, if_true, Nat.add_comm]

theorem sext_toNat (a : BitVec 32) : sext 32 a.toNat = a.toInt := by
  rw [sext, BitVec.toInt_eq_toNat_cond]
  split <;> split <;> omega

theorem pickOf_int32 (mx : Bool) (a b : BitVec 32) : sext 32 (pickOf .int32 mx a.toNat b.toNat).1 = if mx then max a.toInt b.toInt else min a.toInt b.toInt := by
  simp only [pickOf, Fmt.isInt, Fmt.bits, if_true, sext_toNat]
  cases mx
  · by_cases h : b.toInt < a.toInt
    · simp [h, sext_toNat, min_eq_right h.le]
    · simp [h, sext_toNat, min_eq_left (not_lt.1 h)]
  · by_cases h : a.toInt < b.toInt
    · simp [h, sext_toNat, max_eq_right h.le]
    · simp [h, sext_toNat, max_eq_left (not_lt.1 h)]

/-- Of the first `p` pieces those of one residue of the members. -/
theorem countP_mod (p m a : Nat) (hm : 0 < m) (ha : a < m) : (List.range p).countP (fun j => j % m = a) = (p + m - 1 - a) / m := by
  have hcount := Nat.count_modEq_card p hm a
  rw [Nat.mod_eq_of_lt ha] at hcount
  have hcongr : (List.range p).countP (fun j => j % m = a) = Nat.count (· ≡ a [MOD m]) p := List.countP_congr fun j _ => by simp [Nat.ModEq, Nat.mod_eq_of_lt ha]
  rw [hcongr, hcount]
  have hp := Nat.div_add_mod p m
  have hs := Nat.mod_lt p hm
  generalize p / m = q at hp ⊢
  generalize p % m = s at hp hs ⊢
  rw [← hp, show m * q + s + m - 1 - a = (s + m - 1 - a) + m * q by omega, Nat.add_mul_div_left _ _ hm]
  split
  · rw [Nat.div_eq_sub_div hm (by omega), Nat.div_eq_of_lt (by omega)]
    omega
  · rw [Nat.div_eq_of_lt (by omega)]
    omega

/-- A number below twice the modulus. -/
theorem mod_below_twice {k m : Nat} (hk : k < 2 * m) : k % m = if k < m then k else k - m := by
  split
  · exact Nat.mod_eq_of_lt ‹_›
  · rw [Nat.mod_eq_sub_mod (by omega), Nat.mod_eq_of_lt (by omega)]

theorem needTakes_eq {r : Rope} {c : Bytes} (hkind : callKind c = 3) (hm : 1 < r.par.members) (hi : r.par.index < r.par.members) :
    needTakes r c = (((List.range (callPieces r c)).flatMap fun j => [(j, 1), (j, 2)]).filter fun x => takes r c x.1 x.2).length := by
  have hroot (x : Nat) (hx : x ≤ 1) : (List.range (callPieces r c)).countP (fun j => delta r c j = x) = piecesAt r c x := by
    rw [piecesAt, if_pos hkind, ← countP_mod _ _ _ (by omega) (Nat.mod_lt _ (by omega))]
    refine List.countP_congr fun j _ => ?_
    have hj := Nat.mod_lt j (show 0 < r.par.members by omega)
    simp only [delta, pieceRoot, hkind, if_true, decide_eq_true_eq]
    rw [mod_below_twice (k := r.par.index + r.par.members - j % r.par.members) (by omega), mod_below_twice (k := r.par.index + r.par.members - x) (by omega)]
    split <;> split <;> omega
  have hlap (l : List Nat) : ((l.flatMap fun j => [(j, 1), (j, 2)]).filter fun x => takes r c x.1 x.2).length
      = l.countP (fun j => takes r c j 1) + l.countP (fun j => takes r c j 2) := by
    induction l with
    | nil => rfl
    | cons j l ih =>
      rw [List.flatMap_cons, List.filter_append, List.length_append, ih, List.countP_cons, List.countP_cons]
      cases h1 : takes r c j 1 <;> cases h2 : takes r c j 2 <;> simp [h1, h2] <;> omega
  have hlen (x : Nat) := (List.range (callPieces r c)).length_eq_countP_add_countP (fun j => delta r c j = x)
  have h0 := hroot 0 (by omega)
  have h1 := hroot 1 le_rfl
  have hl0 := hlen 0
  have hl1 := hlen 1
  simp only [List.length_range] at hl0 hl1
  rw [hlap, needTakes, if_neg (by omega), if_neg (by omega), ← h0, ← h1]
  simp only [takes, hkind]
  simp at hl0 hl1 ⊢
  omega

/-! ### O52 -/

/-- Settles O52: a packet that has come to its rope is judged once (`RopePktCame.devRopePkt_eq`), and what is in order of the current call is taken by its type;
the turn of a pitch is a least element, and the sums are arithmetic. -/
theorem ropePackets : Obligations.RopePackets := by
  unfold Obligations.RopePackets
  intro s port p r e hon k x counted sound came ofCall inOrder
  refine ⟨?stranger, ?disagree, ?data, ?confirm, ?ack, ?ackUp, ?abort, ?absent, ?often, ?serve, ?pick, ?crosses, ?pattern, ?sums, ?extremes, ?takes⟩
  case stranger =>
    intro (h : RopePktCame s.dev port p r e ptRopeData) hfrom
    exact .of_liveQ hon rfl (by rw [h.devRopePkt_eq, hfrom, Option.elim_none])
  case disagree =>
    intro (h : RopePktCame s.dev port p r e ptRopeData) hst hfrom hsame
    exact .of_liveQ hon rfl (by rw [h.devRopePkt_eq, hfrom, Option.elim_some, if_neg hst, if_pos (by simp [hsame])])
  case data =>
    rintro c (h : RopePktCame s.dev port p r e ptRopeData) hfrom hsame ⟨hst, hc, hnum, hcall⟩ ⟨hahead, hnew⟩ j lap
    have heq := (h.devRopePkt_agrees hfrom hsame hst).trans ((ropePayload_inOrder hc hnum hcall hahead hnew).trans (if_pos rfl))
    refine ⟨fun hj => .of_liveQ hon rfl (heq.trans (takeRopeData_beyond hj)), ?_⟩
    intro hj htakes hgot hold hfits hmtu hoff hlen hlimit hplain
    exact .of_liveQ hon rfl (heq.trans (takeRopeData_new hj htakes hgot hold hfits hmtu hoff hlen hlimit hplain))
  case confirm =>
    rintro c (h : RopePktCame s.dev port p r e ptRopeConfirm) hfrom hsame ⟨hst, hc, hnum, hcall⟩ ⟨hahead, hnew⟩ hj hlap htakes hpass
    have heq := (h.devRopePkt_agrees hfrom hsame hst).trans ((ropePayload_inOrder hc hnum hcall hahead hnew).trans (if_neg (by decide)))
    exact .of_liveQ hon rfl (heq.trans (takeConfirm_kept hj hlap htakes hpass))
  case ack =>
    rintro c (h : RopePktCame s.dev port p r e ptRopeAck) hfrom hsame ⟨hst, -, -, -⟩
    exact .of_liveQ hon rfl (h.devRopePkt_agrees hfrom hsame hst)
  case ackUp =>
    intro c (h : RopePktCame s.dev port p r e ptRopeAck) hfrom hsame hst hc hnum hcall
    refine .of_liveQ hon rfl ((h.devRopePkt_agrees hfrom hsame hst).trans ?_)
    exact (if_neg (by decide)).trans ((if_pos rfl).trans ((if_neg (by decide)).trans (if_pos (by simpa [hc, hcall] using hnum))))
  case abort =>
    rintro c (h : RopePktCame s.dev port p r e ptRopeAbort) hfrom hsame ⟨hst, hc, hnum, hcall⟩ hdown
    refine .of_liveQ hon rfl ((h.devRopePkt_agrees hfrom hsame hst).trans ((if_pos rfl).trans ((if_pos (by simp [hc, hcall])).trans ?_)))
    simp [ropeAborted, x, k, show bx p.ext 43 1 = 0 from hdown]
  case absent =>
    intro (h : RopePktSound s.dev port p ptRopeData) hr
    exact .of_liveQ hon rfl (h.devRopePkt_absent hr)
  case often =>
    intro d a ha hrecent
    have hnow : now (count 0x0904 port none 1 d) = now d := by simp [now]
    simp only [noRope, count_ropes, ha, hnow]
    exact if_pos (by simpa using hrecent)
  case serve =>
    intro m z c y hslots hup hc hel r' d hact
    exact .of_liveQ hon rfl (devRopePitchServe_only hslots hup hc hel hact)
  case pick => exact fun t last l y h => pickPitch_eq h
  case crosses =>
    intro (h : RopePktSound s.dev port p ptRopeData) hr hup _ hshut
    exact .of_liveQ hon rfl (h.devRopePkt_crosses hr hup hshut)
  case pattern => exact fun M n w _ => sum_patternAt M n w
  case sums =>
    intro c a b hfmt hop
    exact ⟨combine_comm hfmt hop a b, by rw [combine_comm hfmt hop a b, combine_comm hfmt hop _ a]⟩
  case extremes => exact pickOf_int32
  case takes => exact fun r c hkind hm hi => needTakes_eq hkind hm hi

end Sys2Proof.Machine
end

section
/-! SUPPORT. The limiter, the sensors, clock loss and the Bivouac (R515 to R517, R519 to R522, R536, R537, R539, R544). -/

namespace Sys2Proof.Machine

/-! ### Accesses to a stack leave the power state alone -/

@[simp] theorem onTab_pwr (t : Nat) (f : PageTables → PageTables) (d : Dev) : (onTab t f d).pwr = d.pwr := rfl

@[simp] theorem storeWrite_pwr (l : List Nat) (d : Dev) : (storeWrite l d).pwr = d.pwr := rfl

@[simp] theorem reserveFull_pwr (k : Nat) (d : Dev) : (reserveFull k d).pwr = d.pwr := by
  unfold reserveFull
  split <;> simp

@[simp] theorem tableLost_pwr (t : Nat) (l : List (Nat × Nat)) (d : Dev) : (tableLost t l d).pwr = d.pwr := by
  unfold tableLost
  dsimp only
  split <;> simp

@[simp] theorem tableUe_pwr (u : Nat) (l : List Nat) (d : Dev) : (tableUe u l d).pwr = d.pwr :=
  foldl_keeps Dev.pwr _ (fun _ _ => foldl_keeps Dev.pwr _ (fun _ x => by
    obtain ⟨key, e⟩ := x
    dsimp only
    split <;> simp) _ _) _ _

@[simp] theorem copiesLost_pwr (k t : Nat) (s : Side) (d : Dev) : (copiesLost k t s d).1.pwr = d.pwr := by
  refine List.foldlRecOn (motive := fun x : Dev × List (Nat × Nat) => x.1.pwr = d.pwr) _ _ rfl ?_
  rintro ⟨e, lost⟩ he ⟨key, x⟩ -
  dsimp only
  (repeat' split) <;> simpa using he

@[simp] theorem tableStackLost_pwr (k : Nat) (d : Dev) : (tableStackLost k d).pwr = d.pwr :=
  foldl_keeps Dev.pwr _ (fun _ _ => by simp) _ _

@[simp] theorem zeroingLost_pwr (k : Nat) (d : Dev) : (zeroingLost k d).pwr = d.pwr :=
  foldl_keeps Dev.pwr _ (fun _ _ => by dsimp only; (repeat' split) <;> simp) _ _

@[simp] theorem accFail_pwr (w : Requester) (code detail : Nat) (d : Dev) : (accFail w code detail d).pwr = d.pwr := by cases w <;> simp [accFail]

@[simp] theorem stackLost_pwr (k cause : Nat) (d : Dev) : (stackLost k cause d).pwr = d.pwr := by
  unfold stackLost
  dsimp only
  split <;> simp [foldl_keeps Dev.pwr]

@[simp] theorem retireGroup_pwr (k g : Nat) (cause : RetireCause) (d : Dev) : (retireGroup k g cause d).pwr = d.pwr := by
  unfold retireGroup
  dsimp only
  (repeat' split) <;> simp

@[simp] theorem setAside_pwr (k g : Nat) (cause : RetireCause) (d : Dev) : (setAside k g cause d).pwr = d.pwr := by
  unfold setAside
  dsimp only
  (repeat' split) <;> simp

@[simp] theorem retireAt_pwr (k dpa : Nat) (cause : RetireCause) (d : Dev) : (retireAt k dpa cause d).pwr = d.pwr := by
  unfold retireAt
  dsimp only
  split <;> simp

@[simp] theorem ceFound_pwr (k dpa : Nat) (d : Dev) : (ceFound k dpa d).pwr = d.pwr := by
  unfold ceFound
  dsimp only
  split <;> simp

@[simp] theorem ueFound_pwr (k dpa : Nat) (d : Dev) : (ueFound k dpa d).pwr = d.pwr := by
  unfold ueFound
  dsimp only
  (repeat' split) <;> simp

@[simp] theorem noteFound_pwr (k dpa : Nat) (f : Found) (d : Dev) : (noteFound k dpa f d).pwr = d.pwr := by cases f <;> simp [noteFound]

@[simp] theorem noteAll_pwr (k dpa : Nat) (l : List (Nat × Found)) (d : Dev) : (noteAll k dpa l d).pwr = d.pwr := by simp [noteAll, foldl_keeps Dev.pwr]

@[simp] theorem accAnswer_pwr (k : Nat) (a : Access) (d : Dev) : (accAnswer k a d).pwr = d.pwr := by
  unfold accAnswer
  dsimp only
  (repeat' split) <;> simp

@[simp] theorem applyAccess_pwr (k : Nat) (a : Access) (d : Dev) : (applyAccess k a d).pwr = d.pwr := by simp [applyAccess]

@[simp] theorem serveAccess_pwr (k : Nat) (a : Access) (d : Dev) : (serveAccess k a d).pwr = d.pwr := by
  unfold serveAccess
  dsimp only
  (repeat' split) <;> simp

@[simp] theorem serveWaiting_pwr (k : Nat) (d : Dev) : (serveWaiting k d).pwr = d.pwr := by simp [serveWaiting, foldl_keeps Dev.pwr]

@[simp] theorem stacksRise_pwr (d : Dev) : (stacksRise d).pwr = d.pwr :=
  foldl_keeps Dev.pwr _ (fun _ _ => by split <;> simp) _ _

/-- A port that goes down wakes the device from its Bivouac alone. -/
theorem portDown_pwr {port : Nat} {d : Dev} (hst : d.pwr.state ≠ .bivouac) : (portDown port d).pwr = d.pwr := by
  unfold portDown
  dsimp only
  have hwake (e : Dev) (he : e.pwr = d.pwr) : (wakeDev e).pwr = d.pwr := by rw [wakeDev, if_neg (by rwa [he]), he]
  (repeat' split) <;> first | exact hwake _ (by simp) | simp

/-! ### The limiter and the sensors -/

section
variable {limit average level : Nat}

theorem limitStep_le (hlevel : level ≤ 15) : limitStep limit average level ≤ 15 := by
  unfold limitStep
  (repeat' split) <;> omega

/-- Above the limit the level does not fall. -/
theorem le_limitStep (hlevel : level ≤ 15) (h : limit < average) : level ≤ limitStep limit average level := by
  unfold limitStep
  (repeat' split) <;> omega

/-- At or below the limit the level does not rise. -/
theorem limitStep_le_self (h : average ≤ limit) : limitStep limit average level ≤ level := by
  unfold limitStep
  (repeat' split) <;> omega

/-- More than 3% below the limit a level that is not 0 falls. -/
theorem limitStep_lt_self (h : average * 100 < limit * 97) (hlevel : level ≠ 0) : limitStep limit average level < level := by
  unfold limitStep
  (repeat' split) <;> omega

end

theorem Dev.onPwr_congr {d : Dev} {f g : Pwr → Pwr} (h : f d.pwr = g d.pwr) : d.onPwr f = d.onPwr g := by simp only [Dev.onPwr, h]

/-- The time of a throttled device, counted. -/
def limiterTimed (d : Dev) : Dev := if throttleNow d = 0 then d else count 0x0B04 0xFF none 1000 d

/-- What a limiter step leaves, by whether the hottest die is above its threshold and the level it sets. -/
def limiterSet (d : Dev) (average : Nat) (hot : Bool) (l : Nat) : Dev := (limiterTimed d).onPwr fun p => { p with
  limitW := limitNow d, pinReg := BitVec.ofNat 16 (min average 65535), throttle := l, thermal := hot
  thermalEvent := p.thermalEvent || (hot && !p.thermal), limited := l ≠ 0 && (p.limited || limitNow d < average), peak := l ≠ 0 && p.peak }

section
variable {d : Dev} {average : Nat} {hottest : Int}

theorem limiterTimed_pwr : (limiterTimed d).pwr = d.pwr := by
  unfold limiterTimed
  split <;> simp

theorem devLimiterStep_cool (h : hottest ≤ 23552) : devLimiterStep average hottest d = limiterSet d average false (limitStep (limitNow d) average d.pwr.throttle) := by
  have hlow : ¬ 24320 ≤ hottest := by omega
  simp [devLimiterStep, limiterSet, limiterTimed, hlow, h]

/-- Above 95 °C for the first time the step is logged too. -/
theorem devLimiterStep_hot (h : 24320 ≤ hottest) :
    let e := limiterSet d average true (min 15 (limitStep (limitNow d) average d.pwr.throttle + 1))
    devLimiterStep average hottest d = if d.pwr.thermal then e
      else logIt 0x0702 0 0 [(takeFree e).1.toNat % 256, (BitVec.ofInt 64 hottest).toNat] (d := (takeFree e).2) := by
  intro e
  have hset (l : Nat) : ((limiterTimed d).onPwr fun p => { p with
      limitW := limitNow d, pinReg := BitVec.ofNat 16 (min average 65535), throttle := l, thermal := true
      thermalEvent := p.thermalEvent || !d.pwr.thermal, limited := l ≠ 0 && (p.limited || limitNow d < average), peak := l ≠ 0 && p.peak })
      = limiterSet d average true l := Dev.onPwr_congr (by simp [limiterTimed_pwr])
  simp only [limiterTimed] at hset
  simp only [devLimiterStep, h, decide_true, if_true, Bool.true_and, hset, e]
  cases d.pwr.thermal <;> rfl

end

/-! ### Entering and leaving the Bivouac -/

/-- The ports that go down as the Bivouac is entered: all but the kept one and those that are down by command. -/
def bivouacPorts (d : Dev) : Dev :=
  (List.range 16).foldl (fun e k => if k = d.pwr.keptPort ∨ (e.port k).st = .adminDown then e else portDown k e) d

section
variable {d : Dev}

/-- While the ports go down the kept port stays the one it was. -/
theorem bivouacPorts_eq (hst : d.pwr.state = .entering) :
    ((List.range 16).foldl (fun e k => if k = e.pwr.keptPort || (e.port k).st = .adminDown then e else portDown k e) d) = bivouacPorts d
      ∧ (bivouacPorts d).pwr = d.pwr := by
  have hall (l : List Nat) : ∀ e : Dev, e.pwr = d.pwr →
      l.foldl (fun e k => if k = e.pwr.keptPort || (e.port k).st = .adminDown then e else portDown k e) e
        = l.foldl (fun e k => if k = d.pwr.keptPort ∨ (e.port k).st = .adminDown then e else portDown k e) e
      ∧ (l.foldl (fun e k => if k = d.pwr.keptPort ∨ (e.port k).st = .adminDown then e else portDown k e) e).pwr = d.pwr := by
    induction l with
    | nil => exact fun e he => ⟨rfl, he⟩
    | cons k l ih =>
      intro e he
      have hnext : (if k = d.pwr.keptPort ∨ (e.port k).st = .adminDown then e else portDown k e).pwr = d.pwr := by
        split
        · exact he
        · exact (portDown_pwr (by simp [he, hst])).trans he
      simp only [List.foldl_cons, he, Bool.or_eq_true, decide_eq_true_eq] at ih ⊢
      exact ih _ hnext
  exact hall _ d rfl

theorem devBivouacDrained_eq {q : CmdSlot} (hst : d.pwr.state = .entering) (hdrained : devDrained d = true) (hq : d.pwr.bivCmd = some q) :
    devBivouacDrained d = answerIf q 0x0104 stDone none ((stacksRest (bivouacPorts d)).onPwr fun p => { p with state := .bivouac, bivCmd := none }) := by
  obtain ⟨hports, hpwr⟩ := bivouacPorts_eq hst
  rw [devBivouacDrained, if_neg (by simp [hst, hdrained])]
  dsimp only
  rw [hports]
  simp only [hpwr, hq]

/-- A port that comes back with the device, which is `d` again. -/
def portBack (d : Dev) (k : Nat) (p : NetPort) : NetPort :=
  if k ≠ d.pwr.keptPort && p.st = .down && p.ent.mode ≠ .none && (!asleepPort d k) then { p with st := .training } else p

theorem devBivouacExitDone_eq {e : Dev} {q : CmdSlot} (hst : d.pwr.state = .waking) (hbells : d.pwr.bellsHeld = []) (hpkts : d.pwr.pktsHeld = [])
    (hq : d.pwr.wakeCmd = some q)
    (he : (restartFlow (List.range 8) (stacksRise (d.onXlt fun x =>
      { x with tiles := x.tiles.map fun t => { t with runs := [], upper := [], prefetch := [], streams := [] } }))).onPwr
        (fun p => { p with state := .active, wakeCmd := none }) = e) :
    devBivouacExitDone d = answerIf q 0x0104 stDone none (e.onNet fun n => { n with ports := ((List.range 16).zip n.ports).map fun (k, p) => portBack e k p }) := by
  generalize hx : (d.onXlt fun x => { x with tiles := x.tiles.map fun t => { t with runs := [], upper := [], prefetch := [], streams := [] } }) = x at he
  have hpwr : (restartFlow (List.range 8) (stacksRise x)).pwr = d.pwr := by simp [← hx]
  have hclear : ((restartFlow (List.range 8) (stacksRise x)).onPwr fun p => { p with state := .active, bellsHeld := [], pktsHeld := [], wakeCmd := none }) = e :=
    (Dev.onPwr_congr (by rw [hpwr, hbells, hpkts])).trans he
  simp only [devBivouacExitDone, hst, hbells, hpkts, hq, hx]
  rw [if_neg (by simp)]
  simp only [List.foldl_nil]
  rw [hclear]
  rfl

end

/-! ### O55 -/

/-- A row that runs whatever the rails are. -/
theorem Gives.of_onDev {c : Instr} {s : State} {f : Dev → Dev} {d : Dev} (hc : exec c s = onDev s f) (hf : f s.dev = d) : Gives c s d := by
  rw [Gives, hc, onDev, hf]

/-- Settles O55: each clause is one row; no port that goes down and no access that is served touches the power state. -/
theorem powerEvents : Obligations.PowerEvents := by
  unfold Obligations.PowerEvents
  intro s pwr step moved timed
  refine ⟨?limiter, ?levels, ?sample, ?sensors, ?clockLoss, ?clockBack, ?serdes, ?pcie, ?entering, ?wake, ?exit⟩
  case limiter =>
    intro average hottest hon
    refine ⟨fun h => .of_live hon rfl (devLimiterStep_cool h), ?_, ?_⟩
    · exact fun h hthermal => .of_live hon rfl ((devLimiterStep_hot h).trans (if_pos hthermal))
    · exact fun h hthermal => .of_live hon rfl ((devLimiterStep_hot h).trans (if_neg (by simp [hthermal])))
  case levels =>
    exact fun limit average level hlevel => ⟨limitStep_le hlevel, le_limitStep hlevel, limitStep_le_self, limitStep_lt_self⟩
  case sample => exact fun watts hon => .of_live hon rfl rfl
  case sensors =>
    intro v hon d new up a
    exact ⟨fun hup => .of_powered hon rfl (if_neg (by simpa [up] using hup)), fun hup => .of_powered hon rfl (if_pos hup)⟩
  case clockLoss => exact fun hon => .of_onDev rfl (if_pos hon)
  case clockBack =>
    intro hlost
    exact ⟨Gives.of_onDev rfl (if_pos hlost), .of_onDev rfl (if_pos hlost)⟩
  case serdes =>
    intro n hon hn
    exact .of_liveQ hon rfl (if_neg (not_le.2 hn))
  case pcie => exact fun q hon => .of_liveQ hon rfl rfl
  case entering =>
    intro q hon hst hq
    refine ⟨.of_liveQ hon rfl (by simp [bivAbort, hst, hq, pwr]), ?_⟩
    intro hdrained d
    exact .of_liveQ hon rfl (devBivouacDrained_eq hst hdrained hq)
  case wake =>
    intro cause hon hst
    refine .of_live hon rfl ?_
    cases cause <;> exact if_pos hst
  case exit =>
    intro q hon hst hbells hpkts hq x d back
    have hback : back = portBack d := rfl
    refine .of_liveQ hon rfl ((devBivouacExitDone_eq (e := d) hst hbells hpkts hq rfl).trans ?_)
    rw [hback]

end Sys2Proof.Machine
end

section
/-! SUPPORT. Traverse and microcode (R547 to R553). -/

namespace Sys2Proof.Machine

theorem Dev.onSvc_congr {d : Dev} {f g : Svc → Svc} (h : f d.svc = g d.svc) : d.onSvc f = d.onSvc g := by simp only [Dev.onSvc, h]

/-! ### Traverse -/

section
variable {d : Dev} {c : CmdSlot} {p : Bytes} {k : Side} {t : Traverse}

theorem devTraverseBegin_eq (hb : CmdBegun d c 0x0903 p) (hcentre : u8 p 0 < 2) (hz : zeros p 1 7 = true) (hok : types5.all (candidateOk d.svc) = true)
    (hw : dieDown d.ctl.dies.w = false) (he : dieDown d.ctl.dies.e = false)
    (hmajor : (imageVersion d.svc (candidate d.svc) 3).toNat % 256 = (imageVersion d.svc d.svc.bank 3).toNat % 256) (hidle : d.svc.trav = .idle)
    (hreset : d.pwr.inReset = ⟨false, false⟩) :
    devTraverseBegin c d = restartDie ((leader d).getD .west).other (logIt 0x0901 0 0 [1] (d := leave c [] (d.onSvc fun v =>
      { v with trav := .traversing, traverse := some { cmd := c, centre := u8 p 0 = 1, restarting := some ((leader d).getD .west).other, left := [(leader d).getD .west] } }))) := by
  rw [devTraverseBegin, hb.runChk_eq _ _ (by simp [firstBad, hcentre, hz])]
  simp only [hok, hw, he, hmajor, hidle, hreset]
  exact (if_neg (by simp)).trans (if_neg (by simp))

section
variable (ht : d.svc.traverse = some t) (hrestart : t.restarting = some k) (hstart : d.ctl.dies.get k = .starting)
include ht hrestart hstart

theorem devTraverseDieFollower_starting : devTraverseDieFollower k d = travGo (d.onCtl fun c => { c with dies := c.dies.set k .follower }) := by
  simp [devTraverseDieFollower, ht, hrestart, hstart]

/-- The last die is a follower again, and the Traverse ends. -/
theorem devTraverseDieFollower_ends (hleft : t.left = []) (hcentre : t.centre = false) (hfailed : t.failed = false) (htrav : d.svc.trav = .traversing) :
    devTraverseDieFollower k d = answerIf t.cmd 0x0903 stDone none (((d.onCtl fun c => { c with dies := c.dies.set k .follower }).onSvc fun v =>
      { v with traverse := none, trav := .traversed }).onCtl fun c => { c with handover := none }) := by
  rw [devTraverseDieFollower_starting ht hrestart hstart]
  simp [travGo, travEnd, ht, hleft, hcentre, hfailed, htrav]

/-- The last die is a follower again, and the centre's restart is left. -/
theorem devTraverseDieFollower_centre (hleft : t.left = []) (hcentre : t.centre = true) (hfailed : t.failed = false) (hbusy : t.centreBusy = false)
    (htrav : d.svc.trav = .traversing) :
    devTraverseDieFollower k d = (d.onCtl fun c => { c with dies := c.dies.set k .follower }).onSvc fun v =>
      { v with traverse := some { t with restarting := none, centreBusy := true } } := by
  rw [devTraverseDieFollower_starting ht hrestart hstart]
  simp only [travGo, travNext, onTraverse, Dev.onCtl_svc, ht, hleft, hcentre, hfailed, hbusy, htrav]
  simp [Dev.onSvc, ht]

  exact ⟨hcentre, hleft, hfailed⟩

/-- A die that does not come back goes back to the running bank. -/
theorem devTraverseRestartTimeout_eq (hfailed : t.failed = false) (htrav : d.svc.trav = .traversing) (hbank : d.svc.dieBank.get k.other = d.svc.bank) :
    devTraverseRestartTimeout k d = restartDie k (d.onSvc fun v => { v with traverse := some { t with failed := true, left := [] } }) := by
  have hnote : onTraverse (fun t => { t with failed := true, left := [] }) d = d.onSvc fun v => { v with traverse := some { t with failed := true, left := [] } } :=
    Dev.onSvc_congr (by rw [ht]; rfl)
  simp [devTraverseRestartTimeout, ht, hrestart, hstart, hfailed, htrav, hbank, hnote]

end

theorem devCentreRuntimeRestartDone_eq (ht : d.svc.traverse = some t) (hbusy : t.centreBusy = true) (hfailed : t.failed = false) (htrav : d.svc.trav = .traversing) :
    devCentreRuntimeRestartDone d = answerIf t.cmd 0x0903 stDone none ((d.onSvc fun v =>
      { runCentre (candidate v) v with traverse := none, trav := .traversed }).onCtl fun c => { c with handover := none }) := by
  have hbank : restartBank d.svc = candidate d.svc := by simp [restartBank, ht, hfailed, htrav]
  simp [devCentreRuntimeRestartDone, ht, hbusy, hbank, onTraverse, travEnd, runCentre, hfailed, htrav]
  rfl

theorem devTraverseCommit_eq (hb : CmdBegun d c 0x0904 p) (hflags : u8 p 0 < 2) (hrevoke : u8 p 1 = 0) (hz : zeros p 2 6 = true) (htrav : d.svc.trav = .traversed)
    (hroots : d.svc.rootRevoked ≠ 0xF#4) :
    devTraverseCommit c d = answer c stDone 0 none none (logIt 0x0901 0 0 [2] (d := storeWrite [rkSvn, rkSelector] (d.onSvc (commitBank (tb (u8 p 0) 0) 0)))) := by
  have hbit : tb (u8 p 0) 1 = false := by
    obtain h | h : u8 p 0 = 0 ∨ u8 p 0 = 1 := by omega
    all_goals simp [h, tb]
  have hnone : ((bankRoots d.svc (candidate d.svc)).any fun r => tb 0 r) = false := by simp [tb]
  rw [devTraverseCommit, hb.runChk_eq _ _ (by simp [firstBad, hrevoke, hz]; omega)]
  simp only [hbit, hrevoke, htrav, hnone]
  exact (if_neg (by simp)).trans (if_neg (by simpa using hroots))

theorem devTraverseAbort_eq (hb : CmdBegun d c 0x0905 p) (hz : zeros p 0 8 = true) (htrav : d.svc.trav = .traversed) (ht : d.svc.traverse = none)
    (hcentre : d.svc.centreBank = d.svc.bank) (hw : dieDown d.ctl.dies.w = false) (he : dieDown d.ctl.dies.e = false) :
    devTraverseAbort c d = travGo (logIt 0x0901 0 0 [3] (d := leave c [] (d.onSvc fun v => { v with
      trav := .aborting, traverse := some { cmd := c, centre := false, restarting := none, left := [((leader d).getD .west).other, (leader d).getD .west] } }))) := by
  have hdown (s : Side) : dieDown (d.ctl.dies.get s) = false := by cases s <;> assumption
  rw [devTraverseAbort, hb.runChk_eq _ _ (by simp [firstBad, hz])]
  simp [htrav, ht, hcentre, hdown]

/-! ### Microcode -/

theorem devMicrocodeLoad_eq (hb : CmdBegun d c 0x0906 p) (hchk : firstBad (microcodeChk c p d) = none) (hok : candidateOk d.svc (u8 p 0) = true) :
    devMicrocodeLoad c d = microcodeNext (leave c [] (d.onSvc fun v =>
      { v with microcode := some { cmd := c, base := u8 p 0 = 5, units := bitsOf 32 (u32 p 4) } })) := by
  rw [devMicrocodeLoad, hb.runChk_eq _ _ hchk]
  simp [hok]

section
variable {m : Microcode} {u : Nat} {rest : List Nat} (hm : d.svc.microcode = some m) (hu : m.units = u :: rest)
include hm hu

/-- A stack that has drained takes its microcode. -/
theorem devMicrocodeUnitDrained_stack (hdrained : unitDrained d m.base u = true) (hbase : m.base = true) :
    devMicrocodeUnitDrained u d = microcodeNext (d.onSvc fun v => { v with
      stackUcode := v.stackUcode.set u (imageVersion v (candidate v) 5), stackDigest := v.stackDigest.set u (imageDigest v (candidate v) 5),
      microcode := some { m with units := rest, loaded := m.loaded ||| BitVec.ofNat 32 (2 ^ u) } }) := by
  rw [hbase] at hdrained
  simp only [devMicrocodeUnitDrained, hm, hu, hdrained, hbase]
  exact (if_neg (by simp)).trans rfl

theorem devMicrocodeDrainTimeout_eq :
    devMicrocodeDrainTimeout u d = microcodeNext (d.onSvc fun v => { v with microcode := some { m with units := rest, skipped := m.skipped ||| BitVec.ofNat 32 (2 ^ u) } }) := by
  simp [devMicrocodeDrainTimeout, hm, hu]

end
end

end Sys2Proof.Machine
end

section
/-! SUPPORT. What a device can only lose: tiles, queue pairs and completion queues, stacks and ports that are gone stay gone (R559). -/

namespace Sys2Proof.Machine

/-- Nothing that is gone in `e` has come back in `d`; the tiles that live and the last values of lost tiles are the same. -/
structure Dev.WornTo (e d : Dev) : Prop where
  live : d.fab.tileLive = e.fab.tileLive
  last : d.eng.lastTile = e.eng.lastTile
  qps : ∀ n, e.qp? n = none → d.qp? n = none
  cqs : ∀ n, e.cq? n = none → d.cq? n = none
  stk : d.mem.stk.length = e.mem.stk.length ∧ ∀ k, (e.stack k).mode = .offline → (d.stack k).mode = .offline
  ports : ∀ k, (e.port k).st ≠ .up → (d.port k).st ≠ .up

section
variable {e d : Dev}

theorem Dev.WornTo.refl (d : Dev) : d.WornTo d := ⟨rfl, rfl, fun _ h => h, fun _ h => h, ⟨rfl, fun _ h => h⟩, fun _ h => h⟩

theorem Dev.WornTo.trans {a b c : Dev} (h : a.WornTo b) (h' : b.WornTo c) : a.WornTo c :=
  ⟨h'.live.trans h.live, h'.last.trans h.last, fun n hn => h'.qps n (h.qps n hn), fun n hn => h'.cqs n (h.cqs n hn),
    ⟨h'.stk.1.trans h.stk.1, fun k hk => h'.stk.2 k (h.stk.2 k hk)⟩, fun k hk => h'.ports k (h.ports k hk)⟩

theorem Dev.WornTo.of_pair {α : Type} {x : α × Dev} {a : α} {b : Dev} (hx : x = (a, b)) (h : e.WornTo x.2) : e.WornTo b := by rwa [hx] at h

theorem Dev.WornTo.paired {α : Type} {a : α} {b : Dev} (h : e.WornTo b) : e.WornTo (a, b).2 := h

theorem worn_ite {p : Prop} [Decidable p] {x y : Dev} (hx : e.WornTo x) (hy : e.WornTo y) : e.WornTo (if p then x else y) := by
  split <;> assumption

theorem foldl_worn {α : Type} {f : Dev → α → Dev} {l : List α} (h : e.WornTo d) (hf : ∀ d a, e.WornTo d → e.WornTo (f d a)) :
    e.WornTo (l.foldl f d) := foldl_ind (fun d => e.WornTo d) f hf l d h

theorem iter_worn {f : Dev → Dev} {n : Nat} (h : e.WornTo d) (hf : ∀ d, e.WornTo d → e.WornTo (f d)) : e.WornTo (iter f n d) := by
  induction n generalizing d with
  | zero => exact h
  | succ n ih => exact ih (hf d h)

/-! Parts whose change loses nothing. -/

theorem Dev.onCtl_worn {f : Ctl → Ctl} (h : e.WornTo d) : e.WornTo (d.onCtl f) := ⟨h.live, h.last, h.qps, h.cqs, h.stk, h.ports⟩
theorem Dev.onXlt_worn {f : Xlt → Xlt} (h : e.WornTo d) : e.WornTo (d.onXlt f) := ⟨h.live, h.last, h.qps, h.cqs, h.stk, h.ports⟩
theorem Dev.onRopes_worn {f : Ropes → Ropes} (h : e.WornTo d) : e.WornTo (d.onRopes f) := ⟨h.live, h.last, h.qps, h.cqs, h.stk, h.ports⟩
theorem Dev.onHost_worn {p : Side} {f : HostPort → HostPort} (h : e.WornTo d) : e.WornTo (d.onHost p f) := ⟨h.live, h.last, h.qps, h.cqs, h.stk, h.ports⟩
theorem Dev.onTens_worn {f : Tens → Tens} (h : e.WornTo d) : e.WornTo (d.onTens f) := ⟨h.live, h.last, h.qps, h.cqs, h.stk, h.ports⟩
theorem Dev.onSvc_worn {f : Svc → Svc} (h : e.WornTo d) : e.WornTo (d.onSvc f) := ⟨h.live, h.last, h.qps, h.cqs, h.stk, h.ports⟩
theorem Dev.onCiph_worn {f : Ciph → Ciph} (h : e.WornTo d) : e.WornTo (d.onCiph f) := ⟨h.live, h.last, h.qps, h.cqs, h.stk, h.ports⟩
theorem Dev.onPwr_worn {f : Pwr → Pwr} (h : e.WornTo d) : e.WornTo (d.onPwr f) := ⟨h.live, h.last, h.qps, h.cqs, h.stk, h.ports⟩
theorem emit_worn (x : Output) (h : e.WornTo d) : e.WornTo (emit x d) := ⟨h.live, h.last, h.qps, h.cqs, h.stk, h.ports⟩
theorem takeFree_worn (h : e.WornTo d) : e.WornTo (takeFree d).2 := ⟨h.live, h.last, h.qps, h.cqs, h.stk, h.ports⟩

theorem Dev.onFab_worn {f : Fab → Fab} (h : e.WornTo d) (hf : (f d.fab).tileLive = d.fab.tileLive) : e.WornTo (d.onFab f) :=
  ⟨hf.trans h.live, h.last, h.qps, h.cqs, h.stk, h.ports⟩

theorem Dev.onEng_worn {f : Eng → Eng} (h : e.WornTo d) (hf : (f d.eng).lastTile = d.eng.lastTile) : e.WornTo (d.onEng f) :=
  ⟨h.live, hf.trans h.last, h.qps, h.cqs, h.stk, h.ports⟩

/-- The queue pairs and completion queues that are there are among those that were. -/
theorem Dev.onQ_worn {f : Qps → Qps} (h : e.WornTo d) (hq : ∀ n, d.q.qps.get? n = none → (f d.q).qps.get? n = none)
    (hc : ∀ n, d.q.cqs.get? n = none → (f d.q).cqs.get? n = none) : e.WornTo (d.onQ f) :=
  ⟨h.live, h.last, fun n hn => hq n (h.qps n hn), fun n hn => hc n (h.cqs n hn), h.stk, h.ports⟩

theorem Tab.get?_upd_none {α : Type} {t : Tab α} {n k : Nat} {f : α → α} (h : Tab.get? t k = none) : Tab.get? (Tab.upd t n f) k = none := by
  by_cases hk : k = n
  · subst hk
    rw [Tab.get?_upd_self, h]
    rfl
  · rw [Tab.get?_upd_other _ _ _ _ hk, h]

theorem Tab.get?_erase_none {α : Type} {t : Tab α} {n k : Nat} (h : Tab.get? t k = none) : Tab.get? (Tab.erase t n) k = none := by
  rw [Tab.get?_eq_none_iff] at h ⊢
  induction t with
  | nil => exact h
  | cons x t ih =>
    obtain ⟨i, y⟩ := x
    simp only [List.map_cons, List.mem_cons, not_or] at h
    simp only [Tab.erase]
    split
    · exact h.2
    · rw [List.map_cons, List.mem_cons, not_or]
      exact ⟨h.1, ih h.2⟩

theorem Dev.onQp_worn {k : Nat} {f : Qp → Qp} (h : e.WornTo d) : e.WornTo (d.onQp k f) :=
  Dev.onQ_worn h (fun _ hn => Tab.get?_upd_none hn) fun _ hn => hn

theorem Dev.onCq_worn {k : Nat} {f : Cq → Cq} (h : e.WornTo d) : e.WornTo (d.onCq k f) :=
  Dev.onQ_worn h (fun _ hn => hn) fun _ hn => Tab.get?_upd_none hn

theorem Dev.onMem_worn {f : Mem → Mem} (h : e.WornTo d) (hf : (f d.mem).stk = d.mem.stk) : e.WornTo (d.onMem f) :=
  ⟨h.live, h.last, h.qps, h.cqs, by simpa only [Dev.stack, Dev.onMem, hf] using h.stk, h.ports⟩

/-- A stack that is offline stays so. -/
theorem Dev.onStk_worn {k : Nat} {f : Stack → Stack} (h : e.WornTo d) (hf : (d.stack k).mode = .offline → (f (d.stack k)).mode = .offline) :
    e.WornTo (d.onStk k f) := by
  refine ⟨h.live, h.last, h.qps, h.cqs, ⟨by simpa [Dev.onStk, Dev.onMem] using h.stk.1, fun i hi => ?_⟩, h.ports⟩
  have hoff := h.stk.2 i hi
  by_cases hik : i = k
  · subst hik
    by_cases hlen : i < d.mem.stk.length
    · rw [Dev.stack, Dev.onStk, Dev.onMem, nth_modAt_self _ _ _ _ hlen]
      exact hf hoff
    · simp [Dev.stack, nth, List.getElem?_eq_none (not_lt.1 hlen)] at hoff
  · rwa [Dev.stack, Dev.onStk, Dev.onMem, nth_modAt_other _ _ _ _ _ hik]

theorem Dev.onNet_worn {f : Net → Net} (h : e.WornTo d) (hf : (f d.net).ports = d.net.ports) : e.WornTo (d.onNet f) :=
  ⟨h.live, h.last, h.qps, h.cqs, h.stk, by simpa only [Dev.port, Dev.onNet, hf] using h.ports⟩

/-- A port that is not up stays so. -/
theorem Dev.onPort_worn {k : Nat} {f : NetPort → NetPort} (h : e.WornTo d) (hf : (d.port k).st ≠ .up → (f (d.port k)).st ≠ .up) :
    e.WornTo (d.onPort k f) := by
  refine ⟨h.live, h.last, h.qps, h.cqs, h.stk, fun i hi => ?_⟩
  have hdown := h.ports i hi
  by_cases hik : i = k
  · subst hik
    by_cases hlen : i < d.net.ports.length
    · rw [Dev.port, Dev.onPort, Dev.onNet, nth_modAt_self _ _ _ _ hlen]
      exact hf hdown
    · simp [Dev.port, Dev.onPort, Dev.onNet, nth, modAt_getElem?, List.getElem?_eq_none (not_lt.1 hlen)]
  · rwa [Dev.port, Dev.onPort, Dev.onNet, nth_modAt_other _ _ _ _ _ hik]

/-- A map over the ports that leaves the state of each. -/
theorem Dev.mapPorts_worn {f : NetPort → NetPort} (h : e.WornTo d) (hf : ∀ p, (f p).st = p.st) :
    e.WornTo (d.onNet fun n => { n with ports := n.ports.map f }) := by
  refine ⟨h.live, h.last, h.qps, h.cqs, h.stk, fun k hk => ?_⟩
  have hdown := h.ports k hk
  simp only [Dev.port, nth, Dev.onNet, List.getElem?_map] at hdown ⊢
  cases hp : d.net.ports[k]? with
  | none => simp
  | some p => simpa [hp, hf] using hdown

/-- Parts that are the same have lost the same. -/
theorem Dev.WornTo.of_parts {x : Dev} (h : e.WornTo d) (hfab : x.fab = d.fab) (heng : x.eng = d.eng) (hq : x.q = d.q) (hmem : x.mem = d.mem)
    (hnet : x.net = d.net) : e.WornTo x :=
  ⟨by rw [hfab, h.live], by rw [heng, h.last], by simpa only [Dev.qp?, hq] using h.qps, by simpa only [Dev.cq?, hq] using h.cqs,
    by simpa only [Dev.stack, hmem] using h.stk, by simpa only [Dev.port, hnet] using h.ports⟩

end
end Sys2Proof.Machine
end

section
/-! SUPPORT. Every operation that the loss of a tile, or releasing what is due, can lead to loses nothing that it does not name (R559). -/

namespace Sys2Proof.Machine

theorem memWrite_worn {e0 : Dev} (dpa : Nat) (data : Bytes) (d : Dev) (hm : e0.WornTo d) : e0.WornTo (memWrite dpa data d) := by
  unfold memWrite
  apply_rules [Dev.onMem_worn]

theorem memPoison_worn {e0 : Dev} (dpa : Nat) (len : Nat) (d : Dev) (hm : e0.WornTo d) : e0.WornTo (memPoison dpa len d) := by
  unfold memPoison
  apply_rules [Dev.onMem_worn, worn_ite]

theorem memZero_worn {e0 : Dev} (dpa : Nat) (len : Nat) (d : Dev) (hm : e0.WornTo d) : e0.WornTo (memZero dpa len d) := by
  unfold memZero
  apply_rules [Dev.onMem_worn]

theorem Dev.onConn_worn {e0 : Dev} (d : Dev) (n : Nat) (f : Conn → Conn) (hm : e0.WornTo d) : e0.WornTo (Dev.onConn d n f) := by
  unfold Dev.onConn
  apply_rules [Dev.onQp_worn]

theorem Dev.onStkEng_worn {e0 : Dev} (d : Dev) (k : Nat) (f : StackEng → StackEng) (hm : e0.WornTo d) : e0.WornTo (Dev.onStkEng d k f) := by
  unfold Dev.onStkEng
  apply_rules [Dev.onEng_worn]

theorem Dev.onOp_worn {e0 : Dev} (d : Dev) (n : Nat) (f : Op → Op) (hm : e0.WornTo d) : e0.WornTo (Dev.onOp d n f) := by
  unfold Dev.onOp
  apply_rules [Dev.onEng_worn]

theorem Dev.onRope_worn {e0 : Dev} (d : Dev) (k : Nat) (f : Rope → Rope) (hm : e0.WornTo d) : e0.WornTo (Dev.onRope d k f) := by
  unfold Dev.onRope
  apply_rules [Dev.onRopes_worn]

theorem Dev.onTen_worn {e0 : Dev} (d : Dev) (n : Nat) (f : Tenant → Tenant) (hm : e0.WornTo d) : e0.WornTo (Dev.onTen d n f) := by
  unfold Dev.onTen
  apply_rules [Dev.onTens_worn]

theorem Dev.onXPort_worn {e0 : Dev} (d : Dev) (p : Side) (f : XltPort → XltPort) (hm : e0.WornTo d) : e0.WornTo (Dev.onXPort d p f) := by
  unfold Dev.onXPort
  apply_rules [Dev.onXlt_worn]

theorem Dev.onTile_worn {e0 : Dev} (d : Dev) (t : Nat) (f : TileXlt → TileXlt) (hm : e0.WornTo d) : e0.WornTo (Dev.onTile d t f) := by
  unfold Dev.onTile
  apply_rules [Dev.onXlt_worn]

theorem Dev.onRing_worn {e0 : Dev} (d : Dev) (p : Side) (k : Nat) (f : CmdRing → CmdRing) (hm : e0.WornTo d) : e0.WornTo (Dev.onRing d p k f) := by
  unfold Dev.onRing
  apply_rules [Dev.onCtl_worn]

theorem Dev.onSide_worn {e0 : Dev} (d : Dev) (f : Sideband → Sideband) (hm : e0.WornTo d) : e0.WornTo (Dev.onSide d f) := by
  unfold Dev.onSide
  apply_rules [Dev.onCtl_worn]

theorem Dev.onHasp_worn {e0 : Dev} (d : Dev) (n : Nat) (f : Hasp → Hasp) (hm : e0.WornTo d) : e0.WornTo (Dev.onHasp d n f) := by
  unfold Dev.onHasp
  apply_rules [Dev.onCtl_worn]

theorem count_worn {e0 : Dev} (src : Nat) (inst : Nat) (ten : Option Nat) (n : Nat) (d : Dev) (hm : e0.WornTo d) : e0.WornTo (count src inst ten n d) := by
  unfold count
  repeat' first | apply_rules [Dev.onSvc_worn, Dev.onPort_worn, Dev.onHost_worn, worn_ite] | intro _

theorem msix_worn {e0 : Dev} (p : Side) (v : Nat) (d : Dev) (hm : e0.WornTo d) : e0.WornTo (msix p v d) := by
  unfold msix
  apply_rules [Dev.onHost_worn, emit_worn, worn_ite]

theorem raiseAlert_worn {e0 : Dev} (n : Nat) (d : Dev) (hm : e0.WornTo d) : e0.WornTo (raiseAlert n d) := by
  unfold raiseAlert
  apply_rules [Dev.onCtl_worn]

theorem raiseIbi_worn {e0 : Dev} (v : Nat) (d : Dev) (hm : e0.WornTo d) : e0.WornTo (raiseIbi v d) := by
  unfold raiseIbi
  apply_rules [raiseAlert_worn, Dev.onSide_worn]

theorem signalBoth_worn {e0 : Dev} (v : Nat) (d : Dev) (hm : e0.WornTo d) : e0.WornTo (signalBoth v d) := by
  unfold signalBoth
  apply_rules [raiseIbi_worn, msix_worn]

theorem heldNote_worn {e0 : Dev} (p : Side) (w : HeldWork) (d : Dev) (hm : e0.WornTo d) : e0.WornTo (heldNote p w d) := by
  unfold heldNote
  apply_rules [Dev.onHost_worn, worn_ite]

theorem sendWrite_worn {e0 : Dev} (p : Side) (pasid : Option Nat) (addr : Nat) (data : Bytes) (relax : Bool) (d : Dev) (hm : e0.WornTo d) : e0.WornTo (sendWrite p pasid addr data relax d) := by
  unfold sendWrite
  apply_rules [emit_worn]

theorem hostPut_worn {e0 : Dev} (relax : Bool) (p : Side) (pasid : Option Nat) (addr : Nat) (data : Bytes) (d : Dev) (hm : e0.WornTo d) : e0.WornTo (hostPut relax p pasid addr data d) := by
  unfold hostPut
  apply_rules [count_worn, sendWrite_worn, Dev.onHost_worn, worn_ite]

theorem hostWrite_worn {e0 : Dev} (p : Side) (pasid : Option Nat) (addr : Nat) (data : Bytes) (d : Dev) (hm : e0.WornTo d) : e0.WornTo (hostWrite p pasid addr data d) := by
  unfold hostWrite
  apply_rules [hostPut_worn]

theorem logIt_worn {e0 : Dev} (code : Nat) (kind : Nat) (unit : Nat) (args : List Nat) (ten : Nat) (d : Dev) (hm : e0.WornTo d) : e0.WornTo (logIt code kind unit args ten d) := by
  unfold logIt
  apply_rules [Dev.onSvc_worn, signalBoth_worn, count_worn, worn_ite]

theorem tenCount_worn {e0 : Dev} (t : Nat) (k : Nat) (n : Nat) (d : Dev) (hm : e0.WornTo d) : e0.WornTo (tenCount t k n d) := by
  unfold tenCount
  apply_rules [Dev.onTen_worn]

theorem eventWrite_worn {e0 : Dev} (n : Nat) (e : Event) (d : Dev) (hm : e0.WornTo d) : e0.WornTo (eventWrite n e d) := by
  unfold eventWrite
  split <;> apply_rules [hostWrite_worn, Dev.onTen_worn, msix_worn, worn_ite]

theorem postEvent_worn {e0 : Dev} (n : Nat) (code : Nat) (obj : Nat) (arg0 : Nat) (arg1 : Nat) (d : Dev) (hm : e0.WornTo d) : e0.WornTo (postEvent n code obj arg0 arg1 d) := by
  unfold postEvent
  split <;> apply_rules [eventWrite_worn, heldNote_worn, Dev.onTen_worn, count_worn, tenCount_worn, worn_ite]

theorem eventDrain1_worn {e0 : Dev} (n : Nat) (d : Dev) (hm : e0.WornTo d) : e0.WornTo (eventDrain1 n d) := by
  unfold eventDrain1
  repeat' first | apply_rules [eventWrite_worn, Dev.onTen_worn, worn_ite] | split

theorem eventDrain_worn {e0 : Dev} (n : Nat) (d : Dev) (hm : e0.WornTo d) : e0.WornTo (eventDrain n d) := by grind [eventDrain, iter_worn, eventDrain1_worn]

theorem eccCell_worn {e0 : Dev} (dpa n : Nat) (d : Dev) (hm : e0.WornTo d) : e0.WornTo (eccCell dpa n d).2 := by
  have hdrawn : e0.WornTo { d with free := d.free + 1 } := takeFree_worn hm
  simp only [eccCell]
  split
  · exact hm
  · split
    · exact hm
    · split
      · exact hm
      · split
        · exact (memPoison_worn _ _ _ hm).paired
        · split
          · exact (memWrite_worn _ _ _ hdrawn).paired
          · exact (memPoison_worn _ _ _ hdrawn).paired


theorem eccCells_worn {e0 : Dev} (errs : List (Nat × Nat)) (dpa : Nat) (l : List Nat) (d : Dev) (hm : e0.WornTo d) : e0.WornTo (eccCells errs dpa l d).2 := by
  induction l generalizing d with
  | nil => exact hm
  | cons i r ih => exact ih _ (eccCell_worn _ _ _ hm)

theorem accCells_worn {e0 : Dev} (k : Nat) (a : Access) (d : Dev) (hm : e0.WornTo d) : e0.WornTo (accCells k a d).2 := by
  unfold accCells
  split <;> apply_rules [eccCells_worn, memWrite_worn]

theorem heldCells_worn {e0 : Dev} (k : Nat) (l : List Access) (d : Dev) (hm : e0.WornTo d) : e0.WornTo (heldCells k l d).2 := by
  induction l generalizing d with
  | nil => exact hm
  | cons a r ih =>
    simp only [heldCells]
    split
    · exact ih _ hm
    · exact ih _ (accCells_worn _ _ _ hm)

theorem serveCells_worn {e0 : Dev} (k : Nat) (d : Dev) (hm : e0.WornTo d) : e0.WornTo (serveCells k d) := by
  unfold serveCells
  repeat' first | apply_rules [heldCells_worn, Dev.onStk_worn, worn_ite] | extract_lets | intro _ | split | refine Dev.WornTo.of_pair (by assumption) ?_
  all_goals simp_all

theorem wakeStack_worn {e0 : Dev} (k : Nat) (d : Dev) (hm : e0.WornTo d) : e0.WornTo (wakeStack k d) := by grind [wakeStack, Dev.onStk_worn, count_worn]

theorem touchStack_worn {e0 : Dev} (k : Nat) (d : Dev) (hm : e0.WornTo d) : e0.WornTo (touchStack k d) := by grind [touchStack, Dev.onStk_worn, serveCells_worn, wakeStack_worn]

theorem noteSent_worn {e0 : Dev} (row : Nat) (inst : Nat) (d : Dev) (hm : e0.WornTo d) : e0.WornTo (noteSent row inst d) := by
  unfold noteSent
  apply_rules [Dev.onFab_worn]

theorem flowSend1_tileLive (t : Nat) (f : Fab) (w : WaitingFlit) : (flowSend1 t f w).tileLive = f.tileLive := by
  unfold flowSend1
  dsimp only
  (repeat' split) <;> rfl

theorem flowsSend_tileLive (t : Nat) (f : Fab) : (flowsSend t f).tileLive = f.tileLive := by
  have hall (l : List WaitingFlit) : ∀ f : Fab, (l.foldl (flowSend1 t) f).tileLive = f.tileLive := by
    induction l with
    | nil => exact fun _ => rfl
    | cons w l ih => exact fun f => (ih _).trans (flowSend1_tileLive t f w)
  exact hall _ _

theorem segmentDown_worn {e0 : Dev} (n : Nat) (d : Dev) (hm : e0.WornTo d) : e0.WornTo (segmentDown n d) := by
  unfold segmentDown
  split
  · exact logIt_worn _ _ _ _ _ _ (Dev.onFab_worn hm (flowsSend_tileLive _ _))
  · exact hm

theorem crossOr_worn {e0 : Dev} (u : Flit) (what : Arrived) (f : Dev → Dev) (hf : ∀ a0, e0.WornTo a0 → e0.WornTo (f a0)) (d : Dev) (entry : Nat) (hm : e0.WornTo d) : e0.WornTo (crossOr u what f d entry) := by
  unfold crossOr
  apply_rules [Dev.onFab_worn, worn_ite]

theorem touchKey_worn {e0 : Dev} (tile : Nat) (k : Nat × Bool) (d : Dev) (hm : e0.WornTo d) : e0.WornTo (touchKey tile k d).2 := by
  unfold touchKey
  apply_rules [Dev.onCiph_worn, count_worn, worn_ite]

theorem dropKeys_worn {e0 : Dev} (p : Nat → Bool) (d : Dev) (hm : e0.WornTo d) : e0.WornTo (dropKeys p d) := by
  unfold dropKeys
  apply_rules [Dev.onCiph_worn]

theorem chargePacket_worn {e0 : Dev} (tile : Nat) (k : Nat × Bool) (n : Nat) (d : Dev) (hm : e0.WornTo d) : e0.WornTo (chargePacket tile k n d).2 := by grind [chargePacket, touchKey_worn, Dev.onCiph_worn, count_worn]

theorem setCmd_worn {e0 : Dev} (c : CmdSlot) (m : Option Cmd) (d : Dev) (hm : e0.WornTo d) : e0.WornTo (setCmd c m d) := by
  unfold setCmd
  split <;> apply_rules [Dev.onRing_worn, Dev.onSide_worn]

theorem retire_worn {e0 : Dev} (p : Side) (k : Nat) (m : Cmd) (d : Dev) (hm : e0.WornTo d) : e0.WornTo (retire p k m d) := by
  unfold retire
  apply_rules [Dev.onRing_worn, msix_worn, worn_ite]

theorem answer_worn {e0 : Dev} (c : CmdSlot) (st : Nat) (detail : Nat) (res : Option (Nat × Bytes)) (val : Option Nat) (d : Dev) (hm : e0.WornTo d) :
    e0.WornTo (answer c st detail res val d) :=
  hm.of_parts (answer_fab ..) (answer_eng ..) (answer_q ..) (answer_mem ..) (answer_net ..)

theorem answerIf_worn {e0 : Dev} (c : CmdSlot) (op : Nat) (st : Nat) (res : Option (Nat × Bytes)) (d : Dev) (hm : e0.WornTo d) : e0.WornTo (answerIf c op st res d) := by
  unfold answerIf
  split <;> apply_rules [answer_worn, worn_ite]

theorem onTab_worn {e0 : Dev} (t : Nat) (f : PageTables → PageTables) (d : Dev) (hm : e0.WornTo d) : e0.WornTo (onTab t f d) := by
  unfold onTab
  apply_rules [Dev.onXlt_worn]

theorem writePieces_worn {e0 : Dev} (l : List (Nat × Nat)) (b : Bytes) (d : Dev) (hm : e0.WornTo d) : e0.WornTo (writePieces l b d) := by
  induction l generalizing b d with
  | nil => exact hm
  | cons x r ih => exact ih _ _ (worn_ite (touchStack_worn _ _ hm) (memWrite_worn _ _ _ (touchStack_worn _ _ hm)))

theorem putPieces_worn {e0 : Dev} (relax : Bool) (l : List (Place × Nat)) (b : Bytes) (d : Dev) (hm : e0.WornTo d) : e0.WornTo (putPieces relax l b d) := by
  induction l generalizing b d with
  | nil => exact hm
  | cons x r ih =>
    obtain ⟨p, n⟩ := x
    cases p with
    | dev p => exact ih _ _ (writePieces_worn _ _ _ hm)
    | host s pasid a => exact ih _ _ (hostPut_worn _ _ _ _ _ _ hm)

theorem addRun_worn {e0 : Dev} (tile : Nat) (e : RunEntry) (d : Dev) (hm : e0.WornTo d) : e0.WornTo (addRun tile e d) := by
  unfold addRun
  apply_rules [Dev.onTile_worn]

theorem addUpper_worn {e0 : Dev} (tile : Nat) (t : Nat) (dva : Nat) (d : Dev) (hm : e0.WornTo d) : e0.WornTo (addUpper tile t dva d) := by
  unfold addUpper
  apply_rules [Dev.onTile_worn]

theorem trackStream_worn {e0 : Dev} (tile : Nat) (s : Stream) (d : Dev) (hm : e0.WornTo d) : e0.WornTo (trackStream tile s d) := by
  unfold trackStream
  apply_rules [Dev.onTile_worn]

theorem sendAts_worn {e0 : Dev} (tile : Nat) (t : Nat) (addr : Nat) (who : Waiting) (rec : Option Nat) (ahead : Option (Stream × Nat)) (d : Dev) (hm : e0.WornTo d) : e0.WornTo (sendAts tile t addr who rec ahead d) := by
  unfold sendAts
  split <;> apply_rules [Dev.onXlt_worn, emit_worn, heldNote_worn, worn_ite]

theorem askAts_worn {e0 : Dev} (tile : Nat) (t : Nat) (addr : Nat) (write : Bool) (w : Waiter) (rec : Option Nat) (d : Dev) (hm : e0.WornTo d) : e0.WornTo (askAts tile t addr write w rec d) := by
  unfold askAts
  apply_rules [sendAts_worn]

theorem prefetchFrom_worn {e0 : Dev} (tile t : Nat) (s : Stream) (n addr : Nat) (d : Dev) (hm : e0.WornTo d) : e0.WornTo (prefetchFrom tile t s n addr d) := by
  induction n generalizing addr d with
  | zero => exact hm
  | succ n ih =>
    simp only [prefetchFrom]
    split
    · exact ih _ _ hm
    · apply_rules [worn_ite, Dev.onTile_worn, sendAts_worn]

theorem lookupRun_worn {e0 : Dev} (tile t addr : Nat) (d : Dev) (hm : e0.WornTo d) : e0.WornTo (lookupRun tile t addr d).2 := by
  have hcount (src : Nat) (d : Dev) (hm : e0.WornTo d) : e0.WornTo (count src tile (some t) 1 d) := count_worn _ _ _ _ _ hm
  unfold lookupRun
  dsimp only
  split
  · exact hcount 0x0801 _ (addRun_worn _ _ _ (hcount 0x0800 _ hm))
  · split
    · have hwalk := foldl_worn (l := walkStacks (count 0x0800 tile (some t) 1 d) tile t (addr - 2 ^ 63))
        (hcount 0x0802 _ (addUpper_worn tile t (addr - 2 ^ 63) _ (hcount 0x0800 _ hm))) fun d k h => touchStack_worn k d h
      split
      · exact addRun_worn _ _ _ hwalk
      · exact hwalk
    · exact hcount 0x0800 _ hm

theorem enterRun_worn {e0 : Dev} (tile : Nat) (t : Nat) (addr : Nat) (s : Stream) (d : Dev) (hm : e0.WornTo d) : e0.WornTo (enterRun tile t addr s d).2 := by
  unfold enterRun
  repeat' first | apply_rules [lookupRun_worn, trackStream_worn, prefetchFrom_worn] | extract_lets | intro _ | split | refine Dev.WornTo.of_pair (by assumption) ?_

theorem lookup_worn {e0 : Dev} (tile : Nat) (t : Nat) (addr : Nat) (w : Waiter) (write : Bool) (d : Dev) (hm : e0.WornTo d) : e0.WornTo (lookup tile t addr w write d) := by
  unfold lookup
  split <;> apply_rules [enterRun_worn, lookupRun_worn]

theorem cairnWrite_worn {e0 : Dev} (p : Side) (c : Cairn) (d : Dev) (hm : e0.WornTo d) : e0.WornTo (cairnWrite p c d) := by
  unfold cairnWrite
  apply_rules [hostWrite_worn, Dev.onXlt_worn, Dev.onXPort_worn, msix_worn, worn_ite]

theorem postCairn_worn {e0 : Dev} (p : Side) (timed : Bool) (d : Dev) (hm : e0.WornTo d) : e0.WornTo (postCairn p timed d) := by
  unfold postCairn
  split <;> apply_rules [count_worn, Dev.onXPort_worn, cairnWrite_worn, Dev.onXlt_worn, heldNote_worn, worn_ite]

theorem priSend_worn {e0 : Dev} (p : Side) (d : Dev) (hm : e0.WornTo d) : e0.WornTo (priSend p d) := by grind [priSend, emit_worn, Dev.onXPort_worn, foldl_worn]

theorem postPri_worn {e0 : Dev} (p : Side) (d : Dev) (hm : e0.WornTo d) : e0.WornTo (postPri p d) := by
  unfold postPri
  apply_rules [count_worn, Dev.onXlt_worn, priSend_worn, heldNote_worn, Dev.onXPort_worn, worn_ite]

theorem gather_worn {e0 : Dev} (id : Nat) (d : Dev) (hm : e0.WornTo d) : e0.WornTo (gather id d).2 := by grind [gather, Dev.onXlt_worn, Dev.onXPort_worn, postPri_worn, postCairn_worn]

theorem raiseFault_worn {e0 : Dev} (tile t addr : Nat) (write again : Bool) (w : Waiter) (d : Dev) (hm : e0.WornTo d) :
    e0.WornTo (raiseFault tile t addr write again w d).2 := by
  unfold raiseFault
  split
  · exact hm
  · have hcounted := tenCount_worn t 7 1 _ (count_worn 0x0804 tile (some t) 1 _ hm)
    dsimp only
    split
    · exact hcounted
    · split
      · exact (Dev.onXlt_worn hcounted).paired
      · split
        · exact (Dev.onXlt_worn hcounted).paired
        · split
          · next he => exact Dev.WornTo.of_pair he (gather_worn _ _ (Dev.onXlt_worn hcounted))
          · next he => exact (Dev.onXlt_worn (Dev.WornTo.of_pair he (gather_worn _ _ (Dev.onXlt_worn hcounted)))).paired

theorem stallOn_worn {e0 : Dev} (tile : Nat) (t : Nat) (write : Bool) (w : Waiter) (e : XErr) (d : Dev) (hm : e0.WornTo d) : e0.WornTo (stallOn tile t write w e d).2 := by
  unfold stallOn
  repeat' first | apply_rules [raiseFault_worn, lookup_worn, askAts_worn] | extract_lets | intro _ | split | refine Dev.WornTo.of_pair (by assumption) ?_

theorem enqueue_worn {e0 : Dev} (p : Nat) (k : Nat) (f : Frame) (d : Dev) (hm : e0.WornTo d) : e0.WornTo (enqueue p k f d) := by
  unfold enqueue
  repeat' first | apply_rules [Dev.onPort_worn] | intro _

@[simp] theorem setHeld_st (p : NetPort) (k : Nat) (l : List Frame) : (setHeld p k l).st = p.st := by
  unfold setHeld
  split <;> rfl

theorem dropAck_worn {e0 : Dev} (k : Nat) (f : Frame) (d : Dev) (hm : e0.WornTo d) : e0.WornTo (dropAck k f d) :=
  Dev.mapPorts_worn hm fun _ => setHeld_st _ _ _

theorem heldMove_st (k t : Nat) (p : NetPort) : (heldMove k t p).st = p.st := by
  unfold heldMove
  split
  · rfl
  · split
    · exact setHeld_st _ _ _
    · rfl

theorem iter_heldMove_st (k t n : Nat) (p : NetPort) : (iter (heldMove k t) n p).st = p.st := by
  induction n generalizing p with
  | zero => rfl
  | succ n ih => exact (ih _).trans (heldMove_st k t p)

theorem heldDrain_worn {e0 : Dev} (k : Nat) (port : Nat) (d : Dev) (hm : e0.WornTo d) : e0.WornTo (heldDrain k port d) :=
  Dev.onPort_worn hm fun hst => by rwa [iter_heldMove_st]

theorem ownIn_worn {e0 : Dev} (port : Nat) (k : Nat) (f : Frame) (d : Dev) (hm : e0.WornTo d) : e0.WornTo (ownIn port k f d) := by
  unfold ownIn
  dsimp only
  split
  · exact Dev.onPort_worn hm id
  · split
    · exact Dev.onPort_worn hm fun hst => by rwa [setHeld_st]
    · exact heldDrain_worn _ _ _ (Dev.onPort_worn (dropAck_worn _ _ _ hm) fun hst => by rwa [setHeld_st])

theorem sealedIn_worn {e0 : Dev} (port : Nat) (t : BitVec 8) (p : Pkt) (f : Frame) (g : Frame → Dev → Dev) (hg : ∀ a0 a1, e0.WornTo a1 → e0.WornTo (g a0 a1)) (d : Dev) (hm : e0.WornTo d) : e0.WornTo (sealedIn port t p f g d) := by
  unfold sealedIn
  apply_rules [chargePacket_worn, worn_ite]

theorem outwardLand_worn {e0 : Dev} (port : Nat) (t : BitVec 8) (p : Pkt) (qpn : Option Nat) (path : Nat) (outer : Bytes) (d : Dev) (hm : e0.WornTo d) : e0.WornTo (outwardLand port t p qpn path outer d) := by
  unfold outwardLand
  apply_rules [sealedIn_worn, ownIn_worn, worn_ite]

theorem outward_worn {e0 : Dev} (tile : Nat) (port : Nat) (t : BitVec 8) (p : Pkt) (qpn : Option Nat) (path : Nat) (d : Dev) (hm : e0.WornTo d) : e0.WornTo (outward tile port t p qpn path d) := by
  unfold outward
  apply_rules [crossOr_worn, outwardLand_worn]

theorem release_worn {e0 : Dev} (tile : Nat) (port : Nat) (t : BitVec 8) (p : Pkt) (qpn : Option Nat) (path : Nat) (excess : Bool) (ten : Option Nat) (d : Dev) (hm : e0.WornTo d) : e0.WornTo (release tile port t p qpn path excess ten d) := by grind [release, count_worn, sealedIn_worn, enqueue_worn, outward_worn]

theorem useCsn_worn {e0 : Dev} (n : Nat) (d : Dev) (hm : e0.WornTo d) : e0.WornTo (useCsn n d) := by
  unfold useCsn
  apply_rules [Dev.onConn_worn, worn_ite]

theorem noteEgress_worn {e0 : Dev} (n : Nat) (k : Nat) (port : Nat) (q : Qp) (pa : Path) (d : Dev) (hm : e0.WornTo d) : e0.WornTo (noteEgress n k port q pa d) := by
  unfold noteEgress
  apply_rules [count_worn, Dev.onQp_worn, worn_ite]

theorem noteSpent_worn {e0 : Dev} (n : Nat) (d : Dev) (hm : e0.WornTo d) : e0.WornTo (noteSpent n d) := by
  unfold noteSpent
  apply_rules [Dev.onConn_worn, worn_ite]

theorem sendCtlQ_worn {e0 : Dev} (n : Nat) (q : Qp) (t : BitVec 8) (ext : Bytes) (path : Nat) (d : Dev) (hm : e0.WornTo d) : e0.WornTo (sendCtlQ n q t ext path d) := by
  unfold sendCtlQ
  repeat' first | apply_rules [noteSpent_worn, release_worn, noteEgress_worn, useCsn_worn, worn_ite] | extract_lets | intro _ | split

theorem sendCtl_worn {e0 : Dev} (n : Nat) (t : BitVec 8) (ext : Bytes) (path : Nat) (d : Dev) (hm : e0.WornTo d) : e0.WornTo (sendCtl n t ext path d) := by
  unfold sendCtl
  split <;> apply_rules [sendCtlQ_worn]

theorem dropWaiters_worn {e0 : Dev} (p : Waiter → Bool) (d : Dev) (hm : e0.WornTo d) : e0.WornTo (dropWaiters p d) := by
  unfold dropWaiters
  apply_rules [Dev.onXlt_worn, worn_ite]

theorem drainDown_worn {e0 : Dev} (w : Nat) (tile : Nat) (d : Dev) (hm : e0.WornTo d) : e0.WornTo (drainDown w tile d) := by
  unfold drainDown
  apply_rules [Dev.onXlt_worn]

theorem countLegs_worn {e0 : Dev} (o : Op) (d : Dev) (hm : e0.WornTo d) : e0.WornTo (countLegs o d) := by grind [countLegs, count_worn, Dev.onStkEng_worn, foldl_worn]

theorem dropOps_worn {e0 : Dev} (p : Op → Bool) (d : Dev) (hm : e0.WornTo d) : e0.WornTo (dropOps p d) := by
  unfold dropOps
  repeat' first | apply_rules [countLegs_worn, drainDown_worn, dropWaiters_worn, Dev.onEng_worn, foldl_worn, worn_ite] | intro _ | split

theorem sendDisconnect_worn {e0 : Dev} (n : Nat) (reason : Nat) (d : Dev) (hm : e0.WornTo d) : e0.WornTo (sendDisconnect n reason d) := by
  unfold sendDisconnect
  split <;> apply_rules [sendCtl_worn, Dev.onConn_worn, worn_ite]

theorem dropHeld_worn {e0 : Dev} (n : Nat) (d : Dev) (hm : e0.WornTo d) : e0.WornTo (dropHeld n d) := by
  unfold dropHeld
  repeat' first | apply_rules [drainDown_worn, foldl_worn, worn_ite] | intro _ | split

theorem flushQp_worn {e0 : Dev} (n : Nat) (disc : Option Nat) (event : Option Nat) (d : Dev) (hm : e0.WornTo d) : e0.WornTo (flushQp n disc event d) := by
  unfold flushQp
  split
  · exact hm
  · dsimp only
    split
    · refine postEvent_worn _ _ _ _ _ _ (dropWaiters_worn _ _ (Dev.onQp_worn (dropHeld_worn _ _ (Dev.onQ_worn (dropWaiters_worn _ _ (dropOps_worn _ _ ?_)) (fun _ h => h) fun _ h => h))))
      repeat' first | apply_rules [sendDisconnect_worn, worn_ite] | split
    · refine dropWaiters_worn _ _ (Dev.onQp_worn (dropHeld_worn _ _ (Dev.onQ_worn (dropWaiters_worn _ _ (dropOps_worn _ _ ?_)) (fun _ h => h) fun _ h => h)))
      repeat' first | apply_rules [sendDisconnect_worn, worn_ite] | split

theorem toFlush_worn {e0 : Dev} (n : Nat) (disc : Option Nat) (event : Option Nat) (d : Dev) (hm : e0.WornTo d) : e0.WornTo (toFlush n disc event d) := by
  unfold toFlush
  split <;> apply_rules [flushQp_worn, worn_ite]

theorem endEntry_worn {e0 : Dev} (n : Nat) (idx : Nat) (e : WorkEnd) (err : Bool) (d : Dev) (hm : e0.WornTo d) : e0.WornTo (endEntry n idx e err d) := by
  unfold endEntry
  split <;> apply_rules [Dev.onQp_worn, toFlush_worn, count_worn, worn_ite]

theorem endBad_worn {e0 : Dev} (n : Nat) (idx : Nat) (code : Nat) (detail : Nat) (d : Dev) (hm : e0.WornTo d) : e0.WornTo (endBad n idx code detail d) := by
  unfold endBad
  apply_rules [endEntry_worn]

theorem sendRope_worn {e0 : Dev} (slot : Nat) (down : Bool) (t : BitVec 8) (p : Pkt) (d : Dev) (hm : e0.WornTo d) : e0.WornTo (sendRope slot down t p d).2 := by
  unfold sendRope
  repeat' first | apply_rules [count_worn, outward_worn, worn_ite] | extract_lets | intro _ | split

theorem sendAbort_worn {e0 : Dev} (slot : Nat) (down : Bool) (d : Dev) (hm : e0.WornTo d) : e0.WornTo (sendAbort slot down d) := by
  unfold sendAbort
  split <;> apply_rules [sendRope_worn, worn_ite]

theorem ropeAbort_worn {e0 : Dev} (slot : Nat) (origin : Nat) (reason : Nat) (down : Bool) (up : Bool) (d : Dev) (hm : e0.WornTo d) : e0.WornTo (ropeAbort slot origin reason down up d) := by
  unfold ropeAbort
  split <;> apply_rules [count_worn, dropWaiters_worn, Dev.onRope_worn, sendAbort_worn, postEvent_worn, worn_ite]

theorem ropeAbortLocal_worn {e0 : Dev} (slot : Nat) (reason : Nat) (d : Dev) (hm : e0.WornTo d) : e0.WornTo (ropeAbortLocal slot reason d) := by
  unfold ropeAbortLocal
  split <;> apply_rules [ropeAbort_worn]

theorem cqOverflow_worn {e0 : Dev} (n extra : Nat) (d : Dev) (hm : e0.WornTo d) : e0.WornTo (cqOverflow n extra d) := by
  unfold cqOverflow
  split
  · exact hm
  · next c hc =>
    refine worn_ite hm ?_
    extract_lets lost d₁ d₂ d₃ d₄ d₅
    have h₃ : e0.WornTo d₃ := by
      apply_rules [count_worn, postEvent_worn, dropWaiters_worn, Dev.onCq_worn]
    have h₄ : e0.WornTo d₄ := foldl_worn h₃ fun d x h =>
      worn_ite h (worn_ite (Dev.onQp_worn (flushQp_worn _ _ _ _ h)) (flushQp_worn _ _ _ _ h))
    have h₅ : e0.WornTo d₅ := foldl_worn h₄ fun d x h => by
      dsimp only
      split <;> [exact worn_ite (endEntry_worn _ _ _ _ _ (Dev.onQp_worn h)) h; exact h]
    exact foldl_worn h₅ fun d x h => worn_ite (ropeAbortLocal_worn _ _ _ h) (worn_ite (ropeAbortLocal_worn _ _ _ h) h)

theorem cqWrite_worn {e0 : Dev} (n : Nat) (e : Cqe) (d : Dev) (hm : e0.WornTo d) : e0.WornTo (cqWrite n e d) := by
  unfold cqWrite
  split
  · exact hm
  · next c hc =>
    extract_lets s addr
    split
    · have hput := Dev.onCq_worn (k := n) (f := fun c => { c with p := ringAdd s c.p 1, armed := false }) (putPieces_worn false ‹_› (cqeBytes e (phaseOf s c.p)) _ (lookup_worn (cqTile n) c.tenant addr (.cqWrite n) true d hm))
      exact worn_ite (msix_worn _ _ _ hput) hput
    · next x hx =>
      have hstall := stallOn_worn (cqTile n) c.tenant true (.cqWrite n) x d hm
      split
      · next he => exact Dev.onCq_worn (Dev.WornTo.of_pair he hstall)
      · next he => exact cqOverflow_worn _ _ _ (hm := Dev.WornTo.of_pair he hstall)

theorem cqPush_worn {e0 : Dev} (n : Nat) (e : Cqe) (written : Bool) (wait : Bool) (d : Dev) (hm : e0.WornTo d) : e0.WornTo (cqPush n e written wait d) := by
  unfold cqPush
  split <;> apply_rules [Dev.onCq_worn, cqWrite_worn, heldNote_worn, worn_ite]

theorem extendGrant_worn {e0 : Dev} (n : Nat) (d : Dev) (hm : e0.WornTo d) : e0.WornTo (extendGrant n d) := by
  unfold extendGrant
  split <;> apply_rules [Dev.onConn_worn, worn_ite]

theorem sendAck_worn {e0 : Dev} (n : Nat) (echoPsn : BitVec 32) (echoTime : BitVec 32) (arrival : Nat) (path : BitVec 8) (d : Dev) (hm : e0.WornTo d) : e0.WornTo (sendAck n echoPsn echoTime arrival path d) := by
  unfold sendAck
  repeat' first | apply_rules [sendCtl_worn, Dev.onConn_worn, foldl_worn] | intro _ | split

theorem ackLatest_worn {e0 : Dev} (n : Nat) (d : Dev) (hm : e0.WornTo d) : e0.WornTo (ackLatest n d) := by
  unfold ackLatest
  split <;> apply_rules [sendAck_worn, worn_ite]

theorem rxRelease1_worn {e0 : Dev} (n : Nat) (d : Dev) (hm : e0.WornTo d) : e0.WornTo (rxRelease1 n d) := by
  unfold rxRelease1
  repeat' first | apply_rules [Dev.onQp_worn, tenCount_worn, worn_ite] | split

theorem rxAdvance_worn {e0 : Dev} (n : Nat) (d : Dev) (hm : e0.WornTo d) : e0.WornTo (rxAdvance n d) := by
  unfold rxAdvance
  repeat' first | apply_rules [extendGrant_worn, iter_worn, rxRelease1_worn, ackLatest_worn, worn_ite] | extract_lets | intro _ | split

theorem seqEnd_worn {e0 : Dev} (n : Nat) (d : Dev) (hm : e0.WornTo d) : e0.WornTo (seqEnd n d) := by
  unfold seqEnd
  repeat' first | apply_rules [endBad_worn, toFlush_worn, count_worn] | split

theorem qpRelease_worn {e0 : Dev} {n : Nat} {q : Qp} {d x : Dev} (hm : e0.WornTo d) (h : qpRelease n q d = some x) : e0.WornTo x := by
  unfold qpRelease at h
  dsimp only at h
  split at h
  · cases h
    exact cqPush_worn _ _ _ _ _ (worn_ite (Dev.onQp_worn (Dev.onQp_worn hm)) (Dev.onQp_worn hm))
  · split at h
    · cases h
      exact cqPush_worn _ _ _ _ _ (worn_ite (Dev.onQp_worn (Dev.onQp_worn hm)) (Dev.onQp_worn hm))
    · split at h <;> cases h
      exact Dev.onQp_worn hm

theorem ropeRelease_worn {e0 : Dev} {k : Nat} {r : Rope} {d x : Dev} (hm : e0.WornTo d) (h : ropeRelease k r d = some x) : e0.WornTo x := by
  unfold ropeRelease at h
  split at h
  · split at h <;> cases h
    exact cqPush_worn _ _ _ _ _ (Dev.onRope_worn _ _ _ hm)
  · cases h

theorem settle1_worn {e0 d x : Dev} (hm : e0.WornTo d) (h : settle1 d = some x) : e0.WornTo x := by
  unfold settle1 at h
  split at h
  · next he =>
    obtain ⟨y, -, hy⟩ := List.exists_of_findSome?_eq_some he
    cases h
    exact qpRelease_worn hm hy
  · obtain ⟨y, -, hy⟩ := List.exists_of_findSome?_eq_some h
    exact ropeRelease_worn hm hy

theorem settleN_worn {e0 : Dev} (n : Nat) (d : Dev) (hm : e0.WornTo d) : e0.WornTo (settleN n d) :=
  settleN_ind (fun d => e0.WornTo d) (fun _ _ hd hs => settle1_worn hd hs) n d hm

theorem settle_worn {e0 : Dev} (d : Dev) (hm : e0.WornTo d) : e0.WornTo (settle d) := by grind [settle, rxAdvance_worn, seqEnd_worn, settleN_worn, foldl_worn]

theorem destroyQp_worn {e0 : Dev} (n : Nat) (cause : TombCause) (d : Dev) (hm : e0.WornTo d) : e0.WornTo (destroyQp n cause d) := by
  unfold destroyQp
  refine Dev.onQ_worn (dropKeys_worn _ _ (dropHeld_worn _ _ (dropWaiters_worn _ _ (dropOps_worn _ _ ?_)))) (fun _ hn => Tab.get?_erase_none hn) fun _ hn => hn
  split
  · exact worn_ite hm (Dev.onQ_worn hm (fun _ hn => hn) fun _ hn => hn)
  · exact hm

theorem destroyCq_worn {e0 : Dev} (n : Nat) (d : Dev) (hm : e0.WornTo d) : e0.WornTo (destroyCq n d) :=
  dropWaiters_worn _ _ (Dev.onQ_worn hm (fun _ hn => hn) fun _ hn => Tab.get?_erase_none hn)

theorem placeLegs_worn {e0 : Dev} (tile : Nat) (d : Dev) (hm : e0.WornTo d) : e0.WornTo (placeLegs tile d) := by grind [placeLegs, count_worn, Dev.onOp_worn, Dev.onStkEng_worn, noteSent_worn, foldl_worn]

theorem opGone_worn {e0 : Dev} (i : Nat) (d : Dev) (hm : e0.WornTo d) : e0.WornTo (opGone i d) := by
  unfold opGone
  split <;> apply_rules [count_worn, tenCount_worn, Dev.onEng_worn, placeLegs_worn, dropOps_worn]

theorem nakMessage_worn {e0 : Dev} (n : Nat) (msn : BitVec 32) (code : Nat) (detail : Nat) (d : Dev) (hm : e0.WornTo d) : e0.WornTo (nakMessage n msn code detail d) := by
  unfold nakMessage
  split <;> apply_rules [sendCtl_worn]

theorem opFail_worn {e0 : Dev} (i : Nat) (code : Nat) (detail : Nat) (d : Dev) (hm : e0.WornTo d) : e0.WornTo (opFail i code detail d) := by
  unfold opFail
  repeat' first | apply_rules [count_worn, opGone_worn, endBad_worn, nakMessage_worn, Dev.onConn_worn, worn_ite] | split

theorem replSettle_worn {e0 : Dev} (d : Dev) (hm : e0.WornTo d) : e0.WornTo (replSettle d) := by
  unfold replSettle
  repeat' first | apply_rules [Dev.onCtl_worn, answerIf_worn, foldl_worn] | intro _ | split

theorem replSend_worn {e0 : Dev} (ws : List TableWrite) (reply : Option ReplyDue) (d : Dev) (hm : e0.WornTo d) : e0.WornTo (replSend ws reply d) := by
  unfold replSend
  apply_rules [replSettle_worn, Dev.onCtl_worn]

theorem zeroPieces_worn {e0 : Dev} (l : List (Nat × Nat)) (d : Dev) (hm : e0.WornTo d) : e0.WornTo (zeroPieces l d) := by
  unfold zeroPieces
  apply_rules [writePieces_worn]

theorem wakeDev_worn {e0 : Dev} (d : Dev) (hm : e0.WornTo d) : e0.WornTo (wakeDev d) := by
  unfold wakeDev
  apply_rules [Dev.onPwr_worn, worn_ite]

theorem releaseAlloc_worn {e0 : Dev} (h : Nat) (d : Dev) (hm : e0.WornTo d) : e0.WornTo (releaseAlloc h d) := by grind [releaseAlloc, Dev.onStk_worn, Dev.onMem_worn, foldl_worn]

theorem tableLost_worn {e0 : Dev} (t : Nat) (spans : List (Nat × Nat)) (d : Dev) (hm : e0.WornTo d) : e0.WornTo (tableLost t spans d) := by
  dsimp only [tableLost]
  repeat' first | apply_rules [postEvent_worn, onTab_worn] | intro _ | split

theorem copiesLost_worn {e0 : Dev} (k : Nat) (t : Nat) (side : Side) (d : Dev) (hm : e0.WornTo d) : e0.WornTo (copiesLost k t side d).1 := by
  unfold copiesLost
  refine List.foldlRecOn (motive := fun x : Dev × List (Nat × Nat) => e0.WornTo x.1) _ _ hm ?_
  rintro ⟨d, lost⟩ (hd : e0.WornTo d) ⟨key, x⟩ -
  have htab (f : PageTables → PageTables) {d : Dev} (h : e0.WornTo d) : e0.WornTo (onTab t f d) := onTab_worn t f d h
  dsimp only
  rw [apply_ite Prod.fst]
  refine worn_ite hd ?_
  rw [apply_ite Prod.fst]
  dsimp only
  refine worn_ite (htab _ hd) ?_
  split
  · exact htab _ (htab _ (htab _ hd))
  · exact logIt_worn _ _ _ _ _ _ (htab _ (htab _ hd))

theorem tableStackLost_worn {e0 : Dev} (k : Nat) (d : Dev) (hm : e0.WornTo d) : e0.WornTo (tableStackLost k d) := by
  unfold tableStackLost
  repeat' first | apply_rules [copiesLost_worn, tableLost_worn, foldl_worn] | intro _

theorem accFail_worn {e0 : Dev} (who : Requester) (code : Nat) (detail : Nat) (d : Dev) (hm : e0.WornTo d) : e0.WornTo (accFail who code detail d) := by
  unfold accFail
  repeat' first | apply_rules [Dev.onQ_worn, opFail_worn, ropeAbortLocal_worn, worn_ite] | extract_lets | intro _ | split | refine Dev.WornTo.of_pair (by assumption) ?_
  all_goals simp_all

theorem zeroingLost_worn {e0 : Dev} (k : Nat) (d : Dev) (hm : e0.WornTo d) : e0.WornTo (zeroingLost k d) := by grind [zeroingLost, releaseAlloc_worn, answerIf_worn, foldl_worn]

theorem stackLost_worn {e0 : Dev} (k : Nat) (cause : Nat) (d : Dev) (hm : e0.WornTo d) : e0.WornTo (stackLost k cause d) := by
  unfold stackLost
  repeat' first | apply_rules [Dev.onStk_worn, Dev.onStkEng_worn, logIt_worn, accFail_worn, opFail_worn, zeroingLost_worn, postEvent_worn, tableStackLost_worn, foldl_worn, worn_ite] | intro _

theorem startInval_worn {e0 : Dev} (t : Nat) (a : Nat) (n : Nat) (ats : Option Side) (cmd : Option CmdSlot) (handles : List Nat) (nothing : Bool) (d : Dev) (hm : e0.WornTo d) : e0.WornTo (startInval t a n ats cmd handles nothing d) := by
  unfold startInval
  repeat' first | apply_rules [count_worn, Dev.onTile_worn, Dev.onXlt_worn, foldl_worn] | intro _

theorem invalDone_worn {e0 : Dev} (id : Nat) (d : Dev) (hm : e0.WornTo d) : e0.WornTo (invalDone id d) := by
  unfold invalDone
  repeat' first | apply_rules [Dev.onXlt_worn, emit_worn, Dev.onHost_worn, startInval_worn, answerIf_worn, worn_ite] | extract_lets | intro _ | split

theorem ackTile_worn {e0 : Dev} (tile : Nat) (id : Nat) (d : Dev) (hm : e0.WornTo d) : e0.WornTo (ackTile tile id d) := by
  unfold ackTile
  apply_rules [invalDone_worn, Dev.onXlt_worn]

theorem tenState_worn {e0 : Dev} (n : Nat) (st : TenState) (d : Dev) (hm : e0.WornTo d) : e0.WornTo (tenState n st d) := by
  unfold tenState
  apply_rules [Dev.onTen_worn]

theorem dropRuns_worn {e0 : Dev} (n : Nat) (d : Dev) (hm : e0.WornTo d) : e0.WornTo (dropRuns n d) := by
  unfold dropRuns
  apply_rules [Dev.onXlt_worn]

theorem finishDestroy_worn {e0 : Dev} (n : Nat) (stubs : Tab Stub) (cmd : Option CmdSlot) (d : Dev) (hm : e0.WornTo d) : e0.WornTo (finishDestroy n stubs cmd d) := by
  unfold finishDestroy
  repeat' first | apply_rules [dropRuns_worn, Dev.onXlt_worn, releaseAlloc_worn, Dev.onTens_worn, Dev.onNet_worn, replSend_worn, foldl_worn] | intro _

theorem tenResetTry_worn {e0 : Dev} (n : Nat) (d : Dev) (hm : e0.WornTo d) : e0.WornTo (tenResetTry n d) := by
  unfold tenResetTry
  split
  · exact hm
  · have hpost (t : Tenant) := postEvent_worn n 0x10 n t.resetCause.code t.resetQps d hm
    split
    · exact hm
    · dsimp only
      split
      · exact finishDestroy_worn _ _ _ _ (hpost _)
      · have hdrain (t : Tenant) := eventDrain_worn n _ (tenState_worn n .active _ (Dev.onTen_worn _ n (fun t => { t with resetCmd := none }) (hpost t)))
        split
        · exact answerIf_worn _ _ _ _ _ (hdrain _)
        · exact hdrain _

theorem windowEnd_worn {e0 : Dev} (w : Nat) (v : Window) (d : Dev) (hm : e0.WornTo d) : e0.WornTo (windowEnd w v d) := by
  unfold windowEnd
  split <;> apply_rules [Dev.onXlt_worn, answerIf_worn, tenResetTry_worn]

theorem windowsEnd_worn {e0 : Dev} (d : Dev) (hm : e0.WornTo d) : e0.WornTo (windowsEnd d) := by grind [windowsEnd, windowEnd_worn, foldl_worn]

theorem onPath_worn {e0 : Dev} (n : Nat) (k : Nat) (f : Path → Path) (d : Dev) (hm : e0.WornTo d) : e0.WornTo (onPath n k f d) := by
  unfold onPath
  apply_rules [Dev.onQp_worn]

theorem onPkt_worn {e0 : Dev} (n : Nat) (psn : BitVec 32) (f : TxPkt → TxPkt) (d : Dev) (hm : e0.WornTo d) : e0.WornTo (onPkt n psn f d) := by
  unfold onPkt
  apply_rules [Dev.onConn_worn, worn_ite]

theorem pathDown_worn {e0 : Dev} (n : Nat) (k : Nat) (d : Dev) (hm : e0.WornTo d) : e0.WornTo (pathDown n k d) := by
  unfold pathDown
  apply_rules [count_worn, onPath_worn]

theorem dropDeadPaths_worn {e0 : Dev} (n : Nat) (d : Dev) (hm : e0.WornTo d) : e0.WornTo (dropDeadPaths n d) := by
  unfold dropDeadPaths
  repeat' first | apply_rules [pathDown_worn, foldl_worn, worn_ite] | intro _ | split

theorem markResend_worn {e0 : Dev} (n : Nat) (u : TxPkt) (src : Option Nat) (countTimeout : Bool) (d : Dev) (hm : e0.WornTo d) : e0.WornTo (markResend n u src countTimeout d) := by
  dsimp only [markResend]
  repeat' first | apply_rules [count_worn, onPath_worn, onPkt_worn, pathDown_worn, worn_ite] | intro _ | split

theorem answerStep_worn {e0 : Dev} (x0 : Option StepCause) (d : Dev) (hm : e0.WornTo d) : e0.WornTo (answerStep x0 d) := by
  unfold answerStep
  split <;> apply_rules [answerIf_worn]

theorem endStep_worn {e0 : Dev} (port : Nat) (d : Dev) (hm : e0.WornTo d) : e0.WornTo (endStep port d) := by
  dsimp only [endStep]
  repeat' first | apply_rules [Dev.onPort_worn, answerStep_worn, answerIf_worn] | intro _ | split

theorem resendPort_worn {e0 : Dev} (port : Nat) (d : Dev) (hm : e0.WornTo d) : e0.WornTo (resendPort port d) := by
  unfold resendPort
  repeat' first | apply_rules [markResend_worn, foldl_worn] | intro _

theorem downPaths_worn {e0 : Dev} (port : Nat) (d : Dev) (hm : e0.WornTo d) : e0.WornTo (downPaths port d) := by
  unfold downPaths
  repeat' first | apply_rules [pathDown_worn, foldl_worn, worn_ite] | intro _ | split

theorem dropAllDead_worn {e0 : Dev} (d : Dev) (hm : e0.WornTo d) : e0.WornTo (dropAllDead d) := by
  unfold dropAllDead
  repeat' first | apply_rules [dropDeadPaths_worn, foldl_worn] | intro _

theorem downed_worn {e0 : Dev} (port : Nat) (d : Dev) (hm : e0.WornTo d) : e0.WornTo (downed port d) :=
  dropAllDead_worn _ (downPaths_worn _ _ (resendPort_worn _ _ (endStep_worn _ _ (Dev.onCiph_worn (Dev.onPort_worn hm fun _ => by simp)))))

theorem adminDowned_worn {e0 : Dev} (port : Nat) (d : Dev) (hm : e0.WornTo d) : e0.WornTo (adminDowned port d) := by
  unfold adminDowned
  split
  · exact answerIf_worn _ _ _ _ _ (Dev.onPort_worn hm fun _ => by simp)
  · exact hm

theorem portDown_worn {e0 : Dev} (port : Nat) (d : Dev) (hm : e0.WornTo d) : e0.WornTo (portDown port d) := by
  have hdown := adminDowned_worn port _ (downed_worn port d hm)
  rw [portDown_eq]
  exact worn_ite (wakeDev_worn _ hdown) hdown

theorem resetRopes_worn {e0 : Dev} (t : Nat) (d : Dev) (hm : e0.WornTo d) : e0.WornTo (resetRopes t d) := by
  unfold resetRopes
  repeat' first | apply_rules [Dev.onRope_worn, ropeAbortLocal_worn, foldl_worn] | intro _

theorem lostObjects_worn {e0 : Dev} (t : Nat) (d : Dev) (hm : e0.WornTo d) : e0.WornTo (lostObjects t d) := by
  unfold lostObjects
  repeat' first | apply_rules [destroyQp_worn, destroyCq_worn, Dev.onQ_worn, postEvent_worn, foldl_worn, worn_ite] | extract_lets | intro _ | split | refine Dev.WornTo.of_pair (by assumption) ?_
  all_goals simp_all

theorem lostOps_worn {e0 : Dev} (t : Nat) (d : Dev) (hm : e0.WornTo d) : e0.WornTo (lostOps t d) := by
  unfold lostOps
  repeat' first | apply_rules [opFail_worn, foldl_worn] | intro _





















end Sys2Proof.Machine
end

section
/-! SUPPORT. A lost tile takes its objects, its stacks and its ports with it (R559). -/

namespace Sys2Proof.Machine

/-! ### Every entry of a key is erased -/

theorem Tab.erase_keys {α : Type} (t : Tab α) (n : Nat) : (Tab.erase t n).map Prod.fst = (t.map Prod.fst).erase n := by
  induction t with
  | nil => rfl
  | cons x t ih =>
    obtain ⟨k, y⟩ := x
    by_cases hk : k = n
    · simp [Tab.erase, hk]
    · simp [Tab.erase, hk, ih, List.erase_cons_tail]

/-- Once as many entries of a key have been erased as the table had, the key is gone. -/
theorem Tab.get?_none_of_keys {α : Type} {t : Tab α} {ks l : List Nat} {n : Nat} (ht : t.map Prod.fst = ks.diff l) (h : ks.count n ≤ l.count n) : Tab.get? t n = none := by
  rw [Tab.get?_eq_none_iff, ht, ← List.count_eq_zero, List.count_diff]
  omega

/-- A key of the filtered entries is there as often as in the table. -/
theorem count_filter_keys {α : Type} (t : Tab α) (p : Nat → Bool) {n : Nat} (hn : p n = true) :
    ((t.filter fun x => p x.1).map Prod.fst).count n = (t.map Prod.fst).count n := by
  induction t with
  | nil => rfl
  | cons x t ih =>
    by_cases hx : p x.1
    · simp [hx, ih, List.count_cons]
    · have hne : x.1 ≠ n := fun h => hx (h ▸ hn)
      simp [hx, ih, hne]

section
variable {d : Dev}

theorem foldl_destroyQp_keys {α : Type} (l : Tab α) (cause : TombCause) (d : Dev) :
    (l.foldl (fun d x => destroyQp x.1 cause d) d).q.qps.map Prod.fst = (d.q.qps.map Prod.fst).diff (l.map Prod.fst) := by
  induction l generalizing d with
  | nil => rfl
  | cons x l ih => rw [List.foldl_cons, ih, destroyQp_qps, Tab.erase_keys, List.map_cons, List.diff_cons]

@[simp] theorem destroyCq_q_cqs (n : Nat) (d : Dev) : (destroyCq n d).q.cqs = d.q.cqs.erase n := rfl

theorem foldl_destroyCq_keys {α : Type} (l : Tab α) (d : Dev) :
    (l.foldl (fun d x => destroyCq x.1 d) d).q.cqs.map Prod.fst = (d.q.cqs.map Prod.fst).diff (l.map Prod.fst) := by
  induction l generalizing d with
  | nil => rfl
  | cons x l ih => rw [List.foldl_cons, ih, destroyCq_q_cqs, Tab.erase_keys, List.map_cons, List.diff_cons]

@[simp] theorem destroyQp_q_cqs (n : Nat) (cause : TombCause) (d : Dev) : (destroyQp n cause d).q.cqs = d.q.cqs := by
  simp only [destroyQp, Dev.onQ_q, dropKeys_q, dropHeld_q, dropWaiters_q, dropOps_q]
  (repeat' split) <;> rfl

/-- The queue pairs and completion queues of a lost tile are gone. -/
theorem lostObjects_gone (t : Nat) (d : Dev) :
    (∀ n, qpTile n = t → (lostObjects t d).qp? n = none) ∧ ∀ n, cqTile n = t → (lostObjects t d).cq? n = none := by
  have hq : (lostObjects t d).q.qps.map Prod.fst = (d.q.qps.map Prod.fst).diff ((d.q.qps.filter fun x => qpTile x.1 = t).map Prod.fst) := by
    rw [← foldl_destroyQp_keys, lostObjects]
    dsimp only
    rw [foldl_keeps (fun d => d.q.qps.map Prod.fst) _ (fun d x => by split <;> simp)]
    exact foldl_keeps (fun d => d.q.qps.map Prod.fst) (fun d (x : Nat × Cq) => destroyCq x.1 d) (fun d x => rfl) _ _
  have hc : (lostObjects t d).q.cqs.map Prod.fst = (d.q.cqs.map Prod.fst).diff ((d.q.cqs.filter fun x => cqTile x.1 = t).map Prod.fst) := by
    rw [lostObjects]
    dsimp only
    rw [foldl_keeps (fun d => d.q.cqs.map Prod.fst) _ (fun d x => by split <;> simp)]
    refine (foldl_destroyCq_keys _ _).trans ?_
    rw [foldl_keeps (fun d => d.q.cqs) _ (fun d x => destroyQp_q_cqs _ _ d)]
  exact ⟨fun n hn => Tab.get?_none_of_keys hq (count_filter_keys _ (fun k => qpTile k = t) (decide_eq_true hn)).ge,
    fun n hn => Tab.get?_none_of_keys hc (count_filter_keys _ (fun k => cqTile k = t) (decide_eq_true hn)).ge⟩

/-! ### The loss of a tile -/

/-- The first part of the loss: what the registers of the tile still read is kept, and the tile no longer lives. -/
def tileDead (t : Nat) (d : Dev) : Dev :=
  (d.onEng fun e => { e with lastTile := e.lastTile.set t (pendingUsed d t, 2048 - mergeUsed d t, nth e.opsDone t 0#48) }).onFab
    fun f => flushTile t { f with tileLive := f.tileLive.set t false }

/-- The objects of the tile go with it. -/
def tileEmptied (t : Nat) (d : Dev) : Dev := lostObjects t (resetRopes t (lostOps t (logIt 0x0202 2 t [] (d := tileDead t d))))

/-- Its stacks and its ports go too. -/
def tileBare (t : Nat) (d : Dev) : Dev :=
  portDown (2 * t + 1) (portDown (2 * t) ((List.range 4).foldl (fun d i => stackLost (4 * t + i) 3 d) (tileEmptied t d)))

theorem devTileLost_eq {t : Nat} (ht : t < 8) (hlive : d.tileLive t = true) :
    devTileLost t d = segmentDown (t % 4) (windowsEnd (replSettle
      ((((tileBare t d).onCiph fun c => { c with opening := c.opening.filter fun o => portTile o.port ≠ t }).xlt.invs.map Prod.fst).foldl (fun d i => ackTile t i d)
        ((tileBare t d).onCiph fun c => { c with opening := c.opening.filter fun o => portTile o.port ≠ t }) |>.onXlt fun x =>
          { x with windows := x.windows.map fun (w, v) => (w, { v with drain := v.drain.set t 0, views := v.views.set t .free }) }))) := by
  rw [devTileLost, if_neg (by simp [hlive, ht])]
  rfl

/-- What follows loses nothing more. -/
theorem devTileLost_worn {t : Nat} (ht : t < 8) (hlive : d.tileLive t = true) : (tileBare t d).WornTo (settle (devTileLost t d)) := by
  rw [devTileLost_eq ht hlive]
  refine settle_worn _ (segmentDown_worn _ _ (windowsEnd_worn _ (replSettle_worn _ (Dev.onXlt_worn (foldl_worn (Dev.onCiph_worn (.refl _)) fun _ _ h => ackTile_worn _ _ _ h)))))



theorem tileDead_live (t : Nat) (d : Dev) : (tileDead t d).tileLive t = false := by
  simp only [tileDead, Dev.tileLive, Dev.onFab, flushTile, nth, List.getElem?_set]
  split
  · split <;> rfl
  · simp_all

theorem tileDead_last (t : Nat) (d : Dev) :
    (tileDead t d).eng.lastTile.get? t = some (pendingUsed d t, 2048 - mergeUsed d t, nth d.eng.opsDone t 0#48) := Tab.get?_set_self _ _ _

theorem tileEmptied_worn (t : Nat) (d : Dev) : (tileDead t d).WornTo (tileEmptied t d) :=
  lostObjects_worn _ _ (resetRopes_worn _ _ (lostOps_worn _ _ (logIt_worn _ _ _ _ _ _ (.refl _))))

theorem tileBare_worn (t : Nat) (d : Dev) : (tileEmptied t d).WornTo (tileBare t d) :=
  portDown_worn _ _ (portDown_worn _ _ (foldl_worn (.refl _) fun d i h => stackLost_worn _ _ _ h))

/-! ### Its stacks, its ports and its register -/

/-- Once a stack is offline, the rest of its loss brings nothing back. -/
theorem stackLost_rest {k cause : Nat} {e0 off : Dev} (hmode : (d.stack k).mode ≠ .offline)
    (hoff : (d.onStk k fun s => { s with mode := .offline, parkReq := false, held := [], moves := [], track := [], ues := [] }) = off)
    (hm : e0.WornTo off) : e0.WornTo (stackLost k cause d) := by
  unfold stackLost
  dsimp only
  rw [if_neg hmode, hoff]
  clear hoff hmode
  refine tableStackLost_worn _ _ (foldl_worn (zeroingLost_worn _ _ (foldl_worn (foldl_worn (logIt_worn _ _ _ _ _ _ (Dev.onStkEng_worn _ _ _ hm)) ?_) ?_)) ?_)
  · exact fun d a h => accFail_worn _ _ _ _ h
  · exact fun d i h => opFail_worn _ _ _ _ h
  · exact fun d x h => foldl_worn h fun d y h => postEvent_worn _ _ _ _ _ _ h

/-- A stack that is lost is offline. -/
theorem stackLost_offline {k : Nat} (cause : Nat) (hk : k < d.mem.stk.length) : ((stackLost k cause d).stack k).mode = .offline := by
  by_cases hmode : (d.stack k).mode = .offline
  · exact (stackLost_worn k cause d (.refl d)).stk.2 k hmode
  · refine (stackLost_rest hmode rfl (.refl _)).stk.2 k ?_
    simp only [Dev.stack, Dev.onStk, Dev.onMem]
    rw [nth_modAt_self _ _ _ _ hk]

theorem foldl_stackLost_offline (cause : Nat) (l : List Nat) : ∀ d : Dev, ∀ k ∈ l, k < d.mem.stk.length →
    ((l.foldl (fun d k => stackLost k cause d) d).stack k).mode = .offline := by
  induction l with
  | nil => simp
  | cons k l ih =>
    intro d i hi hlen
    have hworn : d.WornTo (stackLost k cause d) := stackLost_worn _ _ _ (.refl d)
    obtain rfl | hi := List.mem_cons.1 hi
    · exact (foldl_worn (.refl (stackLost i cause d)) fun d k h => stackLost_worn _ _ _ h).stk.2 i (stackLost_offline cause hlen)
    · exact ih _ i hi (hworn.stk.1 ▸ hlen)

/-- A port that goes down is not up. -/
theorem portDown_not_up (port : Nat) (d : Dev) : ((portDown port d).port port).st ≠ .up := by
  by_cases hport : port < d.net.ports.length
  · rw [portDown_port hport]
    split <;> simp [portLost]
  · exact (portDown_worn port d (.refl d)).ports port (by simp [Dev.port, nth, List.getElem?_eq_none (not_lt.1 hport)])

/-- The register of a tile's engine reads what is kept of a lost tile, else what the tile holds. -/
theorem devReg_tile {t : Nat} (ht : t < 8) (d : Dev) :
    let x := d.eng.lastTile.getD t (pendingUsed d t, 2048 - mergeUsed d t, nth d.eng.opsDone t 0#48)
    devReg d .west (0x2200 + 16 * t) = fields [(11, x.1), (5, 0), (12, x.2.1)] := by
  have hidx : (0x2200 + 16 * t - 0x2200) / 16 = t := by omega
  simp only [devReg, hidx]
  rw [if_neg (by omega), if_neg (by omega), if_neg (by omega), if_neg (by simp; omega), if_neg (by simp), if_pos (by simp; omega)]
  exact if_pos (by omega)

theorem tileLost_completes {s : State} (hon : s.dev.On) {t : Nat} (ht : t < 8) (hlive : s.dev.tileLive t = true) (hlen : s.dev.mem.stk.length = 32)
    (hlast : s.dev.eng.lastTile.get? t = none) : Completes (.tileLost t) s fun d =>
      d.tileLive t = false ∧ (∀ n q, d.qp? n = some q → qpTile n ≠ t) ∧ (∀ n x, d.cq? n = some x → cqTile n ≠ t)
        ∧ (∀ i, i < 4 → (d.stack (4 * t + i)).mode = .offline) ∧ (d.port (2 * t)).st ≠ .up ∧ (d.port (2 * t + 1)).st ≠ .up
        ∧ devReg d .west (0x2200 + 16 * t) = devReg s.dev .west (0x2200 + 16 * t) := by
  have hempty := tileEmptied_worn t s.dev
  have hbare := tileBare_worn t s.dev
  have hend := devTileLost_worn (d := s.dev) ht hlive
  have hall := hempty.trans (hbare.trans hend)
  obtain ⟨hqps, hcqs⟩ := lostObjects_gone t (resetRopes t (lostOps t (logIt 0x0202 2 t [] (d := tileDead t s.dev))))
  have hrun : Settles (.tileLost t) s (devTileLost t s.dev) := .of_liveQ hon rfl rfl
  have hoff : ∀ i, i < 4 → ((tileBare t s.dev).stack (4 * t + i)).mode = .offline := fun i hi => by
    have hstacks := foldl_stackLost_offline 3 ((List.range 4).map (4 * t + ·)) (tileEmptied t s.dev) (4 * t + i) (by simpa using hi)
      (by rw [hempty.stk.1]; change 4 * t + i < s.dev.mem.stk.length; omega)
    rw [List.foldl_map] at hstacks
    exact (portDown_worn _ _ (portDown_worn _ _ (.refl _))).stk.2 _ hstacks
  refine ⟨_, hrun, rfl, ?_, ?_, ?_, fun i hi => hend.stk.2 _ (hoff i hi), hend.ports _ ?_, hend.ports _ (portDown_not_up _ _), ?_⟩
  · rw [Dev.tileLive, hall.live]
    exact tileDead_live t s.dev
  · rintro n q hq hn
    rw [hend.qps n (hbare.qps n (hqps n hn))] at hq
    cases hq
  · rintro n x hx hn
    rw [hend.cqs n (hbare.cqs n (hcqs n hn))] at hx
    cases hx
  · exact (portDown_worn _ _ (.refl _)).ports _ (portDown_not_up _ _)
  · rw [devReg_tile ht, devReg_tile ht, hall.last, Tab.getD, tileDead_last, Tab.getD, hlast]
    rfl

end

/-! ### O38 -/

/-- Settles O38: each clause but the last is one row; what the loss of a tile takes does not come back (`Dev.WornTo`). -/
theorem traverseAndMicrocode : Obligations.TraverseAndMicrocode := by
  unfold Obligations.TraverseAndMicrocode
  intro s c p k hon v lead
  refine ⟨?begin, ?restart, ?centre, ?commit, ?abort, ?load, ?units, fun t ht hlive hlen hlast => tileLost_completes hon ht hlive hlen hlast⟩
  case begin =>
    intro hb hcentre hz hok hw he hmajor hidle hreset
    exact .of_live hon rfl (devTraverseBegin_eq hb hcentre hz hok hw he hmajor hidle hreset)
  case restart =>
    intro t ht hrestart hstart
    refine ⟨?_, ?_, ?_⟩
    · exact fun hleft hcentre hfailed htrav => .of_live hon rfl (devTraverseDieFollower_ends ht hrestart hstart hleft hcentre hfailed htrav)
    · exact fun hleft hcentre hfailed hbusy htrav => .of_live hon rfl (devTraverseDieFollower_centre ht hrestart hstart hleft hcentre hfailed hbusy htrav)
    · exact fun hfailed htrav hbank => .of_live hon rfl (devTraverseRestartTimeout_eq ht hrestart hstart hfailed htrav hbank)
  case centre => exact fun t ht hbusy hfailed htrav => .of_live hon rfl (devCentreRuntimeRestartDone_eq ht hbusy hfailed htrav)
  case commit => exact fun hb hflags hrevoke hz htrav hroots => .of_live hon rfl (devTraverseCommit_eq hb hflags hrevoke hz htrav hroots)
  case abort => exact fun hb hz htrav ht hcentre hw he => .of_live hon rfl (devTraverseAbort_eq hb hz htrav ht hcentre hw he)
  case load => exact fun hb hchk hok => .of_live hon rfl (devMicrocodeLoad_eq hb hchk hok)
  case units =>
    intro m u rest hm hu
    exact ⟨fun hdrained hbase => .of_live hon rfl (devMicrocodeUnitDrained_stack hm hu hdrained hbase), .of_live hon rfl (devMicrocodeDrainTimeout_eq hm hu)⟩

end Sys2Proof.Machine
end

section
/-! SUPPORT. The counterexamples to the rules of resets and freezes (R459, R461): a state with two queue pairs under one number. -/

namespace Sys2Proof.Machine

/-! ### A number held twice

`Tab` looks up, updates and erases the first entry of a key. In a state that holds two queue pairs under one number, an operation by number on the
queue pair of one tenant meets the other one. No run of the device comes to such a state, but the statements quantify over every state. -/

/-- A local queue pair of a tenant with one entry fetched. -/
def fetchedQp (tenant : Nat) : Qp :=
  { oneEntryQp with par := { oneEntryQp.par with tenant := tenant }, fetched := [⟨0, [], none⟩] }

/-- Parameters that are all 0, which name tenant 0. -/
def zeroParams : Bytes := zpad 64

/-- Tenants 0 and 1 are ACTIVE, each has a queue pair numbered 5, the West die leads, and West ring 0 has begun a command on tenant 0. -/
def sharedNumber (opcode : Nat) : State :=
  { pending := [],
    dev := { pwr := { rails := .on, state := .active },
             ctl := { dies := ⟨.leader, .follower⟩,
                      rings := ⟨[{ cmd := some { hdr := ⟨BitVec.ofNat 16 opcode, 2#8, 0x80, 0, 1#64, 0, 0#16, 0#32⟩, params := zeroParams, idx := 0,
                                                 stage := .begun, order := 0, visible := 0 } }], []⟩ },
             q := { qps := [(5, fetchedQp 1), (5, fetchedQp 0)] },
             ten := { tenants := [(0, { par := bareParams, st := .active }), (1, { par := bareParams, st := .active })] } } }

theorem sharedNumber_begun (opcode : Nat) : CmdBegun (sharedNumber opcode).dev (.ring .west 0) opcode zeroParams :=
  ⟨rfl, _, rfl, rfl, rfl, rfl⟩

theorem sharedNumber_reset : tenQps (settle (devTenantReset (.ring .west 0) (sharedNumber 0x0203).dev)) 0 ≠ [] := by decide +kernel

/-- A queue pair of tenant 0 still has its entry fetched. -/
theorem sharedNumber_freeze :
    ((tenQps (settle (devTenantFreeze (.ring .west 0) (sharedNumber 0x0204).dev)) 0).all
      fun (_, q) => q.fetched = [] || q.st = .flushing || q.st = .error) = false := by
  decide +kernel

/-- Refutes O26: after a TENANT_RESET the tenant may still have a queue pair. In `sharedNumber` the reset destroys the queue pairs of tenant 0 by
their number 5, and erasing 5 takes the queue pair of tenant 1, which stands first. -/
theorem not_tenantResets : ¬ Obligations.TenantResets := by
  unfold Obligations.TenantResets
  intro h
  obtain ⟨hreset, -⟩ := h (sharedNumber 0x0203) (.ring .west 0) zeroParams { par := bareParams, st := .active } rfl rfl rfl (by decide)
  obtain ⟨t, hexec, -, y, -, -, hnone, -⟩ := hreset (sharedNumber_begun _) rfl rfl
  have hruns : exec (.tenantReset (.ring .west 0)) (sharedNumber 0x0203)
    = .next { sharedNumber 0x0203 with dev := settle (devTenantReset (.ring .west 0) (sharedNumber 0x0203).dev) } := rfl
  injection hruns.symm.trans hexec with hstate
  subst hstate
  exact absurd hnone sharedNumber_reset

/-- Refutes O27: after a TENANT_FREEZE a queue pair of the tenant may still have an entry fetched. In `sharedNumber` the freeze updates number 5, and
the first queue pair of that number is the one of tenant 1. -/
theorem not_freezeRules : ¬ Obligations.FreezeRules := by
  unfold Obligations.FreezeRules
  rintro ⟨h, -⟩
  obtain ⟨hfreeze, -⟩ := h (sharedNumber 0x0204) 0 { par := bareParams, st := .active } rfl rfl
  obtain ⟨t, hexec, -, -, hfetched⟩ := hfreeze (.ring .west 0) zeroParams (sharedNumber_begun _) rfl rfl rfl rfl (.inr rfl)
  have hruns : exec (.tenantFreeze (.ring .west 0)) (sharedNumber 0x0204)
    = .next { sharedNumber 0x0204 with dev := settle (devTenantFreeze (.ring .west 0) (sharedNumber 0x0204).dev) } := rfl
  injection hruns.symm.trans hexec with hstate
  subst hstate
  have hall := List.all_eq_true.mpr fun x (hx : x ∈ tenQps _ 0) => show (decide _ || decide _ || decide _) = true by
    simpa [or_assoc] using hfetched x.1 x.2 hx
  exact absurd (hall.symm.trans sharedNumber_freeze) (by decide)

end Sys2Proof.Machine
end

section
/-! SUPPORT. Claims about a device that an operation may keep, and the primitives that keep them. -/

namespace Sys2Proof.Machine

/-- The link and power condition of a host port. -/
def HostPort.cond (h : HostPort) : Bool × Nat × Nat × Bool × Bool × Bool × Bool := (h.linkUp, h.width, h.gen, h.flit, h.belowRecord, h.busMaster, h.d3hot)

/-- The conditions of both ports. -/
def portConds (h : Pair HostPort) : Pair (Bool × Nat × Nat × Bool × Bool × Bool × Bool) := ⟨h.w.cond, h.e.cond⟩

/-- What an operation may keep: one of two invariants of memory and power, the parts that releasing leaves as they are in e, the conditions of the host ports as they are
in h, that a port holds no Hasp from 1 to 63, who leads and since when the device runs, as in e, that leadership is sound. -/
inductive Claim where
  | memory
  | limits
  | same (e : Dev)
  | ports (h : Pair HostPort)
  | unheld (p : Side)
  | seat (e : Dev)
  | lead

/-- The device satisfies the claim. -/
def Dev.Meets : Claim → Dev → Prop
  | .memory, d => d.MemOk
  | .limits, d => d.LimitsOk
  | .same e, d => d.pwr = e.pwr ∧ d.fab.queues = e.fab.queues ∧ d.ciph.slots = e.ciph.slots ∧ d.ciph.latch = e.ciph.latch
      ∧ d.ctl.rings = e.ctl.rings ∧ d.ctl.dies = e.ctl.dies ∧ d.ctl.hasps = e.ctl.hasps ∧ d.ctl.lease = e.ctl.lease
  | .ports h, d => portConds d.host = portConds h
  | .unheld p, d => ∀ n, 0 < n → n < 64 → (d.hasp n).holder ≠ some (.port p)
  | .seat e, d => d.ctl.dies = e.ctl.dies ∧ d.hasp 0 = e.hasp 0 ∧ d.ctl.lease = e.ctl.lease ∧ d.pwr.rails = e.pwr.rails ∧ d.pwr.tsc = e.pwr.tsc
      ∧ d.svc.bank = e.svc.bank
  | .lead, d => d.LeadSound

/-- The claim does not name the parts that releasing leaves. -/
def Claim.Wide : Claim → Prop
  | .same _ => False
  | _ => True

/-- The claim is one of the two invariants that speak of memory and power alone. -/
def Claim.Plain : Claim → Prop
  | .memory => True
  | .limits => True
  | _ => False

/-- The claim is one of the three invariants. -/
def Claim.Inv (c : Claim) : Prop := c.Plain ∨ c = .lead

theorem Claim.Inv.wide {c : Claim} (h : c.Inv) : c.Wide := by
  obtain h | rfl := h
  · cases c with
    | same => exact h.elim
    | _ => trivial
  · trivial

theorem Claim.Plain.inv {c : Claim} (h : c.Plain) : c.Inv := .inl h

theorem Claim.Plain.not_lead {c : Claim} (h : c.Plain) {p : Prop} (hc : c = .lead) : p := by
  subst hc
  exact h.elim

/-- A die that leads after a change led before it, and the Hasps are as before: leadership stays sound. -/
theorem Dev.LeadSound.of_ctl {d e : Dev} (h : d.LeadSound) (hd : ∀ k, e.ctl.dies.get k = .leader → d.ctl.dies.get k = .leader)
    (hh : e.ctl.hasps = d.ctl.hasps) : e.LeadSound := by
  obtain ⟨hlen, hlead, hown⟩ := h
  refine ⟨by rw [hh, hlen], fun k hk => ?_, fun p => ?_⟩
  · rw [Dev.hasp, hh]
    exact hlead k (hd k hk)
  · rw [Dev.hasp, hh]
    exact hown p

theorem upd_leader {p : Pair DieState} {s k : Side} {f : DieState → DieState} (hf : ∀ x, f x = .leader → x = .leader)
    (h : (p.upd s f).get k = .leader) : p.get k = .leader := by
  cases s <;> cases k <;> first | exact h | exact hf _ h

/-- A die that is set to another state than leader does not lead. -/
theorem set_leader {p : Pair DieState} {s k : Side} {x : DieState} (hx : x ≠ .leader) (h : (p.set s x).get k = .leader) : p.get k = .leader :=
  upd_leader (f := fun _ => x) (fun _ hf => absurd hf hx) h

section
variable {c : Claim} {d e : Dev}

/-- A claim that does not name the released parts speaks of the bytes of memory, the dies, the Hasps, the three power bounds and the ports' conditions alone. -/
theorem Dev.Meets.of_core (h : d.Meets c) (hw : c.Wide) (hb : e.mem.bytes = d.mem.bytes) (hd : e.ctl.dies = d.ctl.dies) (hh : e.ctl.hasps = d.ctl.hasps)
    (hl : e.pwr.limitW = d.pwr.limitW) (hs : e.pwr.setW = d.pwr.setW) (ht : e.pwr.throttle = d.pwr.throttle)
    (hp : portConds e.host = portConds d.host) (hle : e.ctl.lease = d.ctl.lease) (hra : e.pwr.rails = d.pwr.rails)
    (hts : e.pwr.tsc = d.pwr.tsc) (hbk : e.svc.bank = d.svc.bank) : e.Meets c := by
  cases c with
  | memory => simpa only [Meets, MemOk, hb] using h
  | limits => simpa only [Meets, LimitsOk, hl, hs, ht] using h
  | same => exact hw.elim
  | ports => exact hp.trans h
  | unheld => simpa only [Meets, Dev.hasp, hh] using h
  | lead => exact LeadSound.of_ctl h (fun _ hk => by rwa [hd] at hk) hh
  | seat => simpa only [Meets, Dev.hasp, hd, hh, hle, hra, hts, hbk] using h

/-- The two plain invariants speak of the bytes of memory and the power bounds alone. -/
theorem Dev.Meets.of_plain (h : d.Meets c) (hi : c.Plain) (hb : e.mem.bytes = d.mem.bytes) (hl : e.pwr.limitW = d.pwr.limitW)
    (hs : e.pwr.setW = d.pwr.setW) (ht : e.pwr.throttle = d.pwr.throttle) : e.Meets c := by
  cases c with
  | memory => simpa only [Meets, MemOk, hb] using h
  | limits => simpa only [Meets, LimitsOk, hl, hs, ht] using h
  | _ => exact hi.elim

/-- An invariant, of the plain ones or of leadership. -/
theorem Dev.Meets.or_lead (hi : c.Inv) (hp : c.Plain → e.Meets c) (hl : c = .lead → e.LeadSound) : e.Meets c := by
  obtain hi | rfl := hi
  · exact hp hi
  · exact hl rfl

theorem Dev.Meets.leadSound (h : d.Meets c) (hc : c = .lead) : d.LeadSound := by
  subst hc
  exact h

/-- The three invariants speak of the bytes of memory, the power bounds, who leads and the Hasps alone. -/
theorem Dev.Meets.of_inv (h : d.Meets c) (hi : c.Inv) (hb : e.mem.bytes = d.mem.bytes) (hl : e.pwr.limitW = d.pwr.limitW)
    (hs : e.pwr.setW = d.pwr.setW) (ht : e.pwr.throttle = d.pwr.throttle)
    (hd : ∀ k, e.ctl.dies.get k = .leader → d.ctl.dies.get k = .leader) (hh : e.ctl.hasps = d.ctl.hasps) : e.Meets c :=
  .or_lead hi (fun hp => h.of_plain hp hb hl hs ht) fun hc => (h.leadSound hc).of_ctl hd hh

/-- A claim speaks of these parts alone. -/
theorem Dev.Meets.of_parts (h : d.Meets c) (hb : e.mem.bytes = d.mem.bytes) (hp : e.pwr = d.pwr) (hq : e.fab.queues = d.fab.queues)
    (hs : e.ciph.slots = d.ciph.slots) (hl : e.ciph.latch = d.ciph.latch) (hr : e.ctl.rings = d.ctl.rings) (hd : e.ctl.dies = d.ctl.dies)
    (hh : e.ctl.hasps = d.ctl.hasps) (hle : e.ctl.lease = d.ctl.lease) (hc : portConds e.host = portConds d.host)
    (hbk : e.svc.bank = d.svc.bank) : e.Meets c := by
  by_cases hw : c.Wide
  · exact h.of_core hw hb hd hh (by rw [hp]) (by rw [hp]) (by rw [hp]) hc hle (by rw [hp]) (by rw [hp]) hbk
  · cases c with
    | same => simpa only [Meets, hp, hq, hs, hl, hr, hd, hh, hle] using h
    | _ => exact absurd trivial hw

theorem meets_ite {p : Prop} [Decidable p] {x y : Dev} (hx : x.Meets c) (hy : y.Meets c) : (if p then x else y).Meets c := by
  split <;> assumption

/-- `meets_ite` with the condition at hand in each branch. -/
theorem meets_cases {p : Prop} [Decidable p] {x y : Dev} (hx : p → x.Meets c) (hy : ¬ p → y.Meets c) : (if p then x else y).Meets c := by
  split <;> [exact hx ‹_›; exact hy ‹_›]

theorem Dev.Meets.paired {α : Type} {a : α} (h : e.Meets c) : (a, e).2.Meets c := h

theorem Dev.Meets.of_pair {α : Type} {x : α × Dev} {a : α} (hx : x = (a, e)) (h : x.2.Meets c) : e.Meets c := by rwa [hx] at h

theorem Dev.Meets.of_pair_left {α : Type} {x : Dev × α} {a : α} (hx : x = (e, a)) (h : x.1.Meets c) : e.Meets c := by rwa [hx] at h

theorem Dev.Meets.of_triple {α β : Type} {x : α × β × Dev} {a : α} {b : β} (hx : x = (a, b, e)) (h : x.2.2.Meets c) : e.Meets c := by rwa [hx] at h

theorem foldl_meets {α : Type} {f : Dev → α → Dev} {l : List α} (h : d.Meets c) (hf : ∀ d a, d.Meets c → (f d a).Meets c) :
    (l.foldl f d).Meets c := foldl_ind (fun e => e.Meets c) f hf l d h

theorem foldl_meets_snd {α β : Type} {f : β × Dev → α → β × Dev} {l : List α} {x : β × Dev} (h : x.2.Meets c)
    (hf : ∀ x a, x.2.Meets c → (f x a).2.Meets c) : (l.foldl f x).2.Meets c := by
  induction l generalizing x with
  | nil => exact h
  | cons a l ih => exact ih (hf x a h)

theorem foldl_meets_fst {α β : Type} {f : Dev × β → α → Dev × β} {l : List α} {x : Dev × β} (h : x.1.Meets c)
    (hf : ∀ x a, x.1.Meets c → (f x a).1.Meets c) : (l.foldl f x).1.Meets c := by
  induction l generalizing x with
  | nil => exact h
  | cons a l ih => exact ih (hf x a h)

theorem iter_meets {f : Dev → Dev} {n : Nat} (h : d.Meets c) (hf : ∀ d, d.Meets c → (f d).Meets c) : (iter f n d).Meets c := by
  induction n generalizing d with
  | zero => exact h
  | succ n ih => exact ih (hf d h)

theorem Dev.onFab_meets {f : Fab → Fab} (h : d.Meets c) (hf : (f d.fab).queues = d.fab.queues) : (d.onFab f).Meets c :=
  h.of_parts rfl rfl hf rfl rfl rfl rfl rfl rfl rfl rfl
theorem Dev.onFab_wide {f : Fab → Fab} (hw : c.Wide) (h : d.Meets c) : (d.onFab f).Meets c := h.of_core hw rfl rfl rfl rfl rfl rfl rfl rfl rfl rfl rfl
theorem Dev.onMem_meets {f : Mem → Mem} (h : d.Meets c) (hf : (f d.mem).bytes = d.mem.bytes) : (d.onMem f).Meets c :=
  h.of_parts hf rfl rfl rfl rfl rfl rfl rfl rfl rfl rfl
theorem Dev.onXlt_meets {f : Xlt → Xlt} (h : d.Meets c) : (d.onXlt f).Meets c := h.of_parts rfl rfl rfl rfl rfl rfl rfl rfl rfl rfl rfl
theorem Dev.onEng_meets {f : Eng → Eng} (h : d.Meets c) : (d.onEng f).Meets c := h.of_parts rfl rfl rfl rfl rfl rfl rfl rfl rfl rfl rfl
theorem Dev.onQ_meets {f : Qps → Qps} (h : d.Meets c) : (d.onQ f).Meets c := h.of_parts rfl rfl rfl rfl rfl rfl rfl rfl rfl rfl rfl
theorem Dev.onNet_meets {f : Net → Net} (h : d.Meets c) : (d.onNet f).Meets c := h.of_parts rfl rfl rfl rfl rfl rfl rfl rfl rfl rfl rfl
theorem Dev.onRopes_meets {f : Ropes → Ropes} (h : d.Meets c) : (d.onRopes f).Meets c := h.of_parts rfl rfl rfl rfl rfl rfl rfl rfl rfl rfl rfl
theorem portConds_upd {h : Pair HostPort} {p : Side} {f : HostPort → HostPort} (hf : (f (h.get p)).cond = (h.get p).cond) : portConds (h.upd p f) = portConds h := by
  cases p <;> simp only [Pair.get] at hf <;> simp [portConds, Pair.upd, Pair.set, Pair.get, hf]

theorem Dev.onHost_meets {p : Side} {f : HostPort → HostPort} (h : d.Meets c) (hf : (f (d.host.get p)).cond = (d.host.get p).cond) :
    (d.onHost p f).Meets c := h.of_parts rfl rfl rfl rfl rfl rfl rfl rfl rfl (portConds_upd hf) rfl
theorem Dev.onHost_inv {p : Side} {f : HostPort → HostPort} (hi : c.Inv) (h : d.Meets c) : (d.onHost p f).Meets c :=
  h.of_inv hi rfl rfl rfl rfl (fun _ => id) rfl
theorem Dev.onTens_meets {f : Tens → Tens} (h : d.Meets c) : (d.onTens f).Meets c := h.of_parts rfl rfl rfl rfl rfl rfl rfl rfl rfl rfl rfl
theorem Dev.onSvc_meets {f : Svc → Svc} (h : d.Meets c) (hb : (f d.svc).bank = d.svc.bank) : (d.onSvc f).Meets c :=
  h.of_parts rfl rfl rfl rfl rfl rfl rfl rfl rfl rfl hb
theorem Dev.onSvc_inv {f : Svc → Svc} (hi : c.Inv) (h : d.Meets c) : (d.onSvc f).Meets c := h.of_inv hi rfl rfl rfl rfl (fun _ => id) rfl
theorem Dev.onCiph_meets {f : Ciph → Ciph} (h : d.Meets c) (hs : (f d.ciph).slots = d.ciph.slots) (hl : (f d.ciph).latch = d.ciph.latch) :
    (d.onCiph f).Meets c := h.of_parts rfl rfl rfl hs hl rfl rfl rfl rfl rfl rfl
theorem Dev.onCiph_wide {f : Ciph → Ciph} (hw : c.Wide) (h : d.Meets c) : (d.onCiph f).Meets c := h.of_core hw rfl rfl rfl rfl rfl rfl rfl rfl rfl rfl rfl
theorem Dev.onCtl_meets {f : Ctl → Ctl} (h : d.Meets c) (hr : (f d.ctl).rings = d.ctl.rings) (hd : (f d.ctl).dies = d.ctl.dies)
    (hh : (f d.ctl).hasps = d.ctl.hasps) (hle : (f d.ctl).lease = d.ctl.lease) : (d.onCtl f).Meets c := h.of_parts rfl rfl rfl rfl rfl hr hd hh hle rfl rfl
theorem Dev.onCtl_wide {f : Ctl → Ctl} (hw : c.Wide) (h : d.Meets c) (hd : (f d.ctl).dies = d.ctl.dies) (hh : (f d.ctl).hasps = d.ctl.hasps)
    (hle : (f d.ctl).lease = d.ctl.lease) : (d.onCtl f).Meets c := h.of_core hw rfl hd hh rfl rfl rfl rfl hle rfl rfl rfl
theorem Dev.onCtl_inv {f : Ctl → Ctl} (hi : c.Inv) (h : d.Meets c) (hh : (f d.ctl).hasps = d.ctl.hasps)
    (hd : ∀ k, (f d.ctl).dies.get k = .leader → d.ctl.dies.get k = .leader) : (d.onCtl f).Meets c := h.of_inv hi rfl rfl rfl rfl hd hh
theorem Dev.onCtl_plain {f : Ctl → Ctl} (hi : c.Plain) (h : d.Meets c) : (d.onCtl f).Meets c := h.of_plain hi rfl rfl rfl rfl
theorem Dev.onPwr_wide {f : Pwr → Pwr} (hw : c.Wide) (h : d.Meets c) (hl : (f d.pwr).limitW = d.pwr.limitW) (hs : (f d.pwr).setW = d.pwr.setW)
    (ht : (f d.pwr).throttle = d.pwr.throttle) (hr : (f d.pwr).rails = d.pwr.rails) (hts : (f d.pwr).tsc = d.pwr.tsc) : (d.onPwr f).Meets c :=
  h.of_core hw rfl rfl rfl hl hs ht rfl rfl hr hts rfl
theorem Dev.onPwr_inv {f : Pwr → Pwr} (hi : c.Inv) (h : d.Meets c) (hl : (f d.pwr).limitW = d.pwr.limitW) (hs : (f d.pwr).setW = d.pwr.setW)
    (ht : (f d.pwr).throttle = d.pwr.throttle) : (d.onPwr f).Meets c := h.of_inv hi rfl hl hs ht (fun _ => id) rfl

theorem memWrite_meets {dpa : Nat} {b : Bytes} (h : d.Meets c) : (memWrite dpa b d).Meets c := by
  cases c with
  | memory => exact memWrite_wf dpa b d h
  | _ => exact h

theorem memZero_meets {dpa len : Nat} (h : d.Meets c) : (memZero dpa len d).Meets c := by
  cases c with
  | memory => exact memZero_wf dpa len d h
  | _ => exact h

end
end Sys2Proof.Machine
end

section
/-! SUPPORT. Claims that operations keep: what every part offers the others. -/

namespace Sys2Proof.Machine

/-! ### Operations of Ops -/

theorem live_meets {C : Claim} (f : Dev → Dev) (hf : ∀ a₀, a₀.Meets C → (f a₀).Meets C) (d : Dev) (hm : d.Meets C) : (live f d).Meets C := by
  unfold live
  exact meets_ite (hf _ hm) hm

theorem Dev.onQp_meets {C : Claim} (d : Dev) (n : Nat) (f : Qp → Qp) (hm : d.Meets C) : (Dev.onQp d n f).Meets C := by
  unfold Dev.onQp
  exact Dev.onQ_meets hm

theorem Dev.onConn_meets {C : Claim} (d : Dev) (n : Nat) (f : Conn → Conn) (hm : d.Meets C) : (Dev.onConn d n f).Meets C := by
  unfold Dev.onConn
  exact Dev.onQp_meets _ _ _ hm

theorem Dev.onCq_meets {C : Claim} (d : Dev) (n : Nat) (f : Cq → Cq) (hm : d.Meets C) : (Dev.onCq d n f).Meets C := by
  unfold Dev.onCq
  exact Dev.onQ_meets hm

theorem Dev.onStk_meets {C : Claim} (d : Dev) (k : Nat) (f : Stack → Stack) (hm : d.Meets C) : (Dev.onStk d k f).Meets C := by
  unfold Dev.onStk
  exact Dev.onMem_meets hm rfl

theorem Dev.onStkEng_meets {C : Claim} (d : Dev) (k : Nat) (f : StackEng → StackEng) (hm : d.Meets C) : (Dev.onStkEng d k f).Meets C := by
  unfold Dev.onStkEng
  exact Dev.onEng_meets hm

theorem Dev.onOp_meets {C : Claim} (d : Dev) (n : Nat) (f : Op → Op) (hm : d.Meets C) : (Dev.onOp d n f).Meets C := by
  unfold Dev.onOp
  exact Dev.onEng_meets hm

theorem Dev.onPort_meets {C : Claim} (d : Dev) (p : Nat) (f : NetPort → NetPort) (hm : d.Meets C) : (Dev.onPort d p f).Meets C := by
  unfold Dev.onPort
  exact Dev.onNet_meets hm

theorem Dev.onRope_meets {C : Claim} (d : Dev) (k : Nat) (f : Rope → Rope) (hm : d.Meets C) : (Dev.onRope d k f).Meets C := by
  unfold Dev.onRope
  exact Dev.onRopes_meets hm

theorem Dev.onTen_meets {C : Claim} (d : Dev) (n : Nat) (f : Tenant → Tenant) (hm : d.Meets C) : (Dev.onTen d n f).Meets C := by
  unfold Dev.onTen
  exact Dev.onTens_meets hm

theorem Dev.onXPort_meets {C : Claim} (d : Dev) (p : Side) (f : XltPort → XltPort) (hm : d.Meets C) : (Dev.onXPort d p f).Meets C := by
  unfold Dev.onXPort
  exact Dev.onXlt_meets hm

theorem Dev.onTile_meets {C : Claim} (d : Dev) (t : Nat) (f : TileXlt → TileXlt) (hm : d.Meets C) : (Dev.onTile d t f).Meets C := by
  unfold Dev.onTile
  exact Dev.onXlt_meets hm

theorem Dev.onRing_meets {C : Claim} (d : Dev) (p : Side) (k : Nat) (f : CmdRing → CmdRing)
    (hC : C.Wide) (hm : d.Meets C) : (Dev.onRing d p k f).Meets C := by
  unfold Dev.onRing
  exact Dev.onCtl_wide hC hm rfl rfl rfl

theorem Dev.onSide_meets {C : Claim} (d : Dev) (f : Sideband → Sideband) (hm : d.Meets C) : (Dev.onSide d f).Meets C := by
  unfold Dev.onSide
  exact Dev.onCtl_meets hm rfl rfl rfl rfl

theorem Dev.onHasp_plain {C : Claim} (d : Dev) (n : Nat) (f : Hasp → Hasp) (hC : C.Plain) (hm : d.Meets C) : (d.onHasp n f).Meets C :=
  Dev.onCtl_plain hC hm

theorem Dev.LeadSound.onHasp {d : Dev} (h : d.LeadSound) {n : Nat} (hn : n ≠ 0) (f : Hasp → Hasp) : (d.onHasp n f).LeadSound := by
  obtain ⟨hlen, hlead, hown⟩ := h
  have hzero : (d.onHasp n f).hasp 0 = d.hasp 0 := nth_modAt_other _ n 0 f _ (Ne.symm hn)
  exact ⟨(modAt_length ..).trans hlen, fun k hk => hzero ▸ hlead k hk, fun p => hzero ▸ hown p⟩

/-- A change of another Hasp than Hasp 0 keeps the three invariants. -/
theorem Dev.onHasp_inv {C : Claim} (d : Dev) {n : Nat} (f : Hasp → Hasp) (hC : C.Inv) (hn : n ≠ 0) (hm : d.Meets C) : (d.onHasp n f).Meets C :=
  .or_lead hC (fun hp => Dev.onHasp_plain d n f hp hm) fun hc => (hm.leadSound hc).onHasp hn f

theorem Dev.onHasp_meets {C : Claim} (d : Dev) (n : Nat) (f : Hasp → Hasp) (hC : C.Wide) (hn : n ≠ 0) (hf : ∀ p h, (f h).holder ≠ some (.port p))
    (hm : d.Meets C) : (d.onHasp n f).Meets C := by
  cases C with
  | ports => exact hm
  | same => exact hC.elim
  | seat e =>
    obtain ⟨hdies, h0, hrest⟩ := hm
    exact ⟨hdies, (nth_modAt_other _ n 0 f _ (Ne.symm hn)).trans h0, hrest⟩
  | unheld p =>
    intro m hpos hlt
    by_cases hmn : m = n
    · subst hmn
      by_cases hlen : m < d.ctl.hasps.length
      · have hself : (d.onHasp m f).hasp m = f (d.hasp m) := nth_modAt_self _ m f _ hlen
        rw [hself]; exact hf p _
      · have hnone : (d.onHasp m f).hasp m = {} := by
          simp only [Dev.hasp, nth, Dev.onHasp, Dev.onCtl]
          rw [List.getElem?_eq_none (by simpa using Nat.le_of_not_lt hlen)]; rfl
        rw [hnone]; exact nofun
    · have hother : (d.onHasp n f).hasp m = d.hasp m := nth_modAt_other _ n m f _ hmn
      rw [hother]; exact hm m hpos hlt
  | lead => exact hm.onHasp hn f
  | _ => exact Dev.onHasp_plain d n f trivial hm

theorem Dev.onMbx_meets {C : Claim} (d : Dev) (k : Nat) (f : Mailbox → Mailbox) (hm : d.Meets C) : (Dev.onMbx d k f).Meets C := by
  unfold Dev.onMbx
  exact Dev.onCtl_meets hm rfl rfl rfl rfl

theorem emit_meets {C : Claim} (o : Output) (d : Dev) (hm : d.Meets C) : (emit o d).Meets C :=
  hm.of_parts rfl rfl rfl rfl rfl rfl rfl rfl rfl rfl rfl

theorem storeWrite_meets {C : Claim} (ks : List Nat) (d : Dev) (hm : d.Meets C) : (storeWrite ks d).Meets C := by
  unfold storeWrite
  exact Dev.onSvc_meets hm rfl

theorem takeFree_meets {C : Claim} (d : Dev) (hm : d.Meets C) : (takeFree d).2.Meets C := hm.of_parts rfl rfl rfl rfl rfl rfl rfl rfl rfl rfl rfl

theorem count_meets {C : Claim} (src : Nat) (inst : Nat) (ten : Option Nat) (n : Nat) (d : Dev)
    (hm : d.Meets C) : (count src inst ten n d).Meets C := by
  unfold count
  extract_lets +onlyGivenNames d₁
  have h₁ : d₁.Meets C := Dev.onSvc_meets hm rfl
  exact meets_ite (Dev.onPort_meets _ _ _ h₁) (meets_ite (Dev.onHost_meets h₁ rfl) h₁)

theorem msix_meets {C : Claim} (p : Side) (v : Nat) (d : Dev) (hm : d.Meets C) : (msix p v d).Meets C := by
  unfold msix
  extract_lets +onlyGivenNames e
  exact meets_ite (Dev.onHost_meets hm rfl) (emit_meets _ _ hm)

theorem msixSend_meets {C : Claim} (p : Side) (v : Nat) (d : Dev) (hm : d.Meets C) : (msixSend p v d).Meets C := by
  unfold msixSend
  extract_lets +onlyGivenNames e
  exact meets_ite (emit_meets _ _ (Dev.onHost_meets hm rfl)) hm

theorem msixFlush_meets {C : Claim} (p : Side) (d : Dev) (hm : d.Meets C) : (msixFlush p d).Meets C := by
  unfold msixFlush
  refine foldl_meets hm (fun _ _ h₁ => ?_)
  split
  · exact msixSend_meets _ _ _ h₁

theorem raiseAlert_meets {C : Claim} (n : Nat) (d : Dev) (hm : d.Meets C) : (raiseAlert n d).Meets C := by
  unfold raiseAlert
  exact Dev.onCtl_meets hm rfl rfl rfl rfl

theorem dropAlert_meets {C : Claim} (n : Nat) (d : Dev) (hm : d.Meets C) : (dropAlert n d).Meets C := by
  unfold dropAlert
  exact Dev.onCtl_meets hm rfl rfl rfl rfl

theorem raiseIbi_meets {C : Claim} (v : Nat) (d : Dev) (hm : d.Meets C) : (raiseIbi v d).Meets C := by
  unfold raiseIbi
  exact raiseAlert_meets _ _ (Dev.onSide_meets _ _ hm)

theorem signalBoth_meets {C : Claim} (v : Nat) (d : Dev) (hm : d.Meets C) : (signalBoth v d).Meets C := by
  unfold signalBoth
  exact raiseIbi_meets _ _ (msix_meets _ _ _ (msix_meets _ _ _ hm))

theorem heldNote_meets {C : Claim} (p : Side) (w : HeldWork) (d : Dev) (hm : d.Meets C) : (heldNote p w d).Meets C := by
  unfold heldNote
  exact meets_ite hm (Dev.onHost_meets hm rfl)

theorem sendWrite_meets {C : Claim} (p : Side) (pasid : Option Nat) (addr : Nat) (data : Bytes) (relax : Bool) (d : Dev)
    (hm : d.Meets C) : (sendWrite p pasid addr data relax d).Meets C := by
  unfold sendWrite
  extract_lets +onlyGivenNames c
  exact emit_meets _ _ hm

theorem hostPut_meets {C : Claim} (relax : Bool) (p : Side) (pasid : Option Nat) (addr : Nat) (data : Bytes) (d : Dev)
    (hm : d.Meets C) : (hostPut relax p pasid addr data d).Meets C := by
  unfold hostPut
  extract_lets +onlyGivenNames d₁
  have h₁ : d₁.Meets C := count_meets _ _ _ _ _ hm
  exact meets_ite (sendWrite_meets _ _ _ _ _ _ h₁) (Dev.onHost_meets h₁ rfl)

theorem hostWrite_meets {C : Claim} (p : Side) (pasid : Option Nat) (addr : Nat) (data : Bytes) (d : Dev)
    (hm : d.Meets C) : (hostWrite p pasid addr data d).Meets C := by
  unfold hostWrite
  exact hostPut_meets _ _ _ _ _ _ hm

theorem aerLog_meets {C : Claim} (p : Side) (e : AerError) (d : Dev) (hm : d.Meets C) : (aerLog p e d).Meets C := by
  unfold aerLog
  extract_lets +onlyGivenNames d₁
  have h₁ : d₁.Meets C := Dev.onHost_meets hm rfl
  clear_value d₁
  refine meets_ite h₁ ?_
  split
  · split
    · exact Dev.onHost_meets (.of_pair (by assumption) (takeFree_meets _ (.of_pair (by assumption) (takeFree_meets _ h₁)))) rfl

theorem logIt_meets {C : Claim} (code : Nat) (kind : Nat) (unit : Nat) (args : List Nat) (ten : Nat) (d : Dev)
    (hm : d.Meets C) : (logIt code kind unit args ten d).Meets C := by
  unfold logIt
  extract_lets +onlyGivenNames die g fold
  clear_value die g fold
  refine meets_ite (Dev.onSvc_meets hm rfl) ?_
  extract_lets +onlyGivenNames e full d₁
  have h₁ : d₁.Meets C := Dev.onSvc_meets hm rfl
  exact signalBoth_meets _ _ (count_meets _ _ _ _ _ h₁)

theorem logFirst60_meets {C : Claim} (key : Nat) (obj : Nat) (code : Nat) (kind : Nat) (unit : Nat) (args : List Nat) (d : Dev)
    (hm : d.Meets C) : (logFirst60 key obj code kind unit args d).Meets C := by
  unfold logFirst60
  extract_lets +onlyGivenNames recent
  exact meets_ite hm (logIt_meets _ _ _ _ _ _ (Dev.onNet_meets hm))

theorem tenCount_meets {C : Claim} (t : Nat) (k : Nat) (n : Nat) (d : Dev) (hm : d.Meets C) : (tenCount t k n d).Meets C := by
  unfold tenCount
  exact Dev.onTen_meets _ _ _ hm

theorem eventWrite_meets {C : Claim} (n : Nat) (e : Event) (d : Dev) (hm : d.Meets C) : (eventWrite n e d).Meets C := by
  unfold eventWrite
  split
  · exact hm
  · extract_lets +onlyGivenNames s d₁ d₂
    have h₁ : d₁.Meets C := hostWrite_meets _ _ _ _ _ hm
    have h₂ : d₂.Meets C := Dev.onTen_meets _ _ _ h₁
    exact meets_ite (msix_meets _ _ _ h₂) h₂

theorem postEvent_meets {C : Claim} (n : Nat) (code : Nat) (obj : Nat) (arg0 : Nat) (arg1 : Nat) (d : Dev)
    (hm : d.Meets C) : (postEvent n code obj arg0 arg1 d).Meets C := by
  unfold postEvent
  split
  · exact hm
  · extract_lets +onlyGivenNames e first
    exact meets_ite (eventWrite_meets _ _ _ hm) (meets_ite (heldNote_meets _ _ _ (Dev.onTen_meets _ _ _ hm)) (count_meets _ _ _ _ _
          (tenCount_meets _ _ _ _ (Dev.onTen_meets _ _ _ hm))))

theorem eventDrain1_meets {C : Claim} (n : Nat) (d : Dev) (hm : d.Meets C) : (eventDrain1 n d).Meets C := by
  unfold eventDrain1
  split
  · exact hm
  · split
    · exact hm
    · exact meets_ite (eventWrite_meets _ _ _ (Dev.onTen_meets _ _ _ hm)) hm

theorem eventDrain_meets {C : Claim} (n : Nat) (d : Dev) (hm : d.Meets C) : (eventDrain n d).Meets C := by
  unfold eventDrain
  exact iter_meets hm (fun _ h₁ => eventDrain1_meets _ _ h₁)

theorem memPoison_meets {C : Claim} (dpa : Nat) (len : Nat) (d : Dev) (hm : d.Meets C) : (memPoison dpa len d).Meets C := by
  unfold memPoison
  refine meets_ite hm ?_
  extract_lets +onlyGivenNames lo hi
  exact Dev.onMem_meets hm rfl

theorem eccCell_meets {C : Claim} (dpa n : Nat) (d : Dev) (hm : d.Meets C) : (eccCell dpa n d).2.Meets C := by
  unfold eccCell
  repeat' split
  · exact hm
  · exact hm
  · exact hm
  · exact (memPoison_meets _ _ _ hm).paired
  · have hfree : ({ d with free := d.free + 1 } : Dev).Meets C := hm.of_parts rfl rfl rfl rfl rfl rfl rfl rfl rfl rfl rfl
    dsimp only
    split
    · exact (memWrite_meets hfree).paired
    · exact (memPoison_meets _ _ _ hfree).paired

theorem eccCells_meets {C : Claim} (errs : List (Nat × Nat)) (dpa : Nat) (l : List Nat) (d : Dev)
    (hm : d.Meets C) : (eccCells errs dpa l d).2.Meets C := by
  induction l generalizing d with
  | nil => exact hm
  | cons i r ih => exact ih _ (eccCell_meets _ _ _ hm)

theorem accCells_meets {C : Claim} (k : Nat) (a : Access) (d : Dev) (hm : d.Meets C) : (accCells k a d).2.Meets C := by
  unfold accCells
  split
  · split
    · exact Dev.Meets.paired (.of_pair (by assumption) (eccCells_meets _ _ _ _ hm))
  · extract_lets +onlyGivenNames dpa
    clear_value dpa
    split
    · exact Dev.Meets.paired (memWrite_meets (.of_pair (by assumption) (eccCells_meets _ _ _ _ hm)))
  · exact hm

theorem heldCells_meets {C : Claim} (k : Nat) (l : List Access) (d : Dev) (hm : d.Meets C) : (heldCells k l d).2.Meets C := by
  induction l generalizing d with
  | nil => exact hm
  | cons a r ih =>
    simp only [heldCells]
    split
    · exact ih _ hm
    · exact ih _ (accCells_meets _ _ _ hm)

theorem serveCells_meets {C : Claim} (k : Nat) (d : Dev) (hm : d.Meets C) : (serveCells k d).Meets C := by
  unfold serveCells
  extract_lets +onlyGivenNames s m
  clear_value s m
  refine meets_ite hm ?_
  split
  · split
    · exact Dev.onStk_meets _ _ _ (.of_pair (by assumption) (heldCells_meets _ _ _ (.of_pair (by assumption) (heldCells_meets _ _ _ hm))))

theorem wakeStack_meets {C : Claim} (k : Nat) (d : Dev) (hm : d.Meets C) : (wakeStack k d).Meets C := by
  unfold wakeStack
  split
  · exact Dev.onStk_meets _ _ _ hm
  · exact count_meets _ _ _ _ _ (Dev.onStk_meets _ _ _ hm)
  · exact hm

theorem touchStack_meets {C : Claim} (k : Nat) (d : Dev) (hm : d.Meets C) : (touchStack k d).Meets C := by
  unfold touchStack
  exact Dev.onStk_meets _ _ _ (serveCells_meets _ _ (wakeStack_meets _ _ hm))

/-! ### Operations of FabOps -/

theorem noteSent_meets {C : Claim} (row : Nat) (inst : Nat) (d : Dev) (hC : C.Wide) (hm : d.Meets C) : (noteSent row inst d).Meets C := by
  unfold noteSent
  exact Dev.onFab_wide hC hm

theorem segmentDown_meets {C : Claim} (n : Nat) (d : Dev) (hC : C.Wide) (hm : d.Meets C) : (segmentDown n d).Meets C := by
  unfold segmentDown
  exact meets_ite (logIt_meets _ _ _ _ _ _ (Dev.onFab_wide hC hm)) hm

theorem toBase_meets {C : Claim} (k : Nat) (what : Arrived) (f : Dev → Dev) (hf : ∀ a₀, a₀.Meets C → (f a₀).Meets C) (d : Dev)
    (hm : d.Meets C) : (toBase k what f d).Meets C := by
  unfold toBase
  exact meets_ite (hf _ hm) (Dev.onFab_meets hm rfl)

theorem sendRead_meets {C : Claim} (p : Side) (pasid : Option Nat) (addr : Nat) (len : Nat) (tag : Nat) (d : Dev)
    (hm : d.Meets C) : (sendRead p pasid addr len tag d).Meets C := by
  unfold sendRead
  extract_lets +onlyGivenNames c
  exact emit_meets _ _ (count_meets _ _ _ _ _ hm)

theorem hostRead_meets {C : Claim} (p : Side) (pasid : Option Nat) (addr : Nat) (len : Nat) (use : HostUse) (d : Dev)
    (hm : d.Meets C) : (hostRead p pasid addr len use d).2.Meets C := by
  unfold hostRead
  extract_lets +onlyGivenNames tag go d₁
  have h₁ : d₁.Meets C := Dev.onQ_meets hm
  exact Dev.Meets.paired (meets_ite (sendRead_meets _ _ _ _ _ _ h₁) (heldNote_meets _ _ _ h₁))

theorem crossOr_meets {C : Claim} (u : Flit) (what : Arrived) (f : Dev → Dev) (hf : ∀ a₀, a₀.Meets C → (f a₀).Meets C) (d : Dev) (entry : Nat)
    (hm : d.Meets C) : (crossOr u what f d entry).Meets C := by
  unfold crossOr
  exact meets_ite (hf _ hm) (Dev.onFab_meets hm rfl)

theorem epochCast_meets {C : Claim} (d : Dev) (hm : d.Meets C) : (epochCast d).Meets C := by
  unfold epochCast
  extract_lets +onlyGivenNames e d₁
  have h₁ : d₁.Meets C := Dev.onFab_meets hm rfl
  exact foldl_meets h₁ (fun _ _ h₄ => meets_ite (toBase_meets _ _ _ (fun _ h₅ => Dev.onFab_meets h₅ rfl) _ h₄) h₄)

/-! ### Operations of CoreOps -/

theorem touchKey_meets {C : Claim} (tile : Nat) (k : Nat × Bool) (d : Dev) (hm : d.Meets C) : (touchKey tile k d).2.Meets C := by
  unfold touchKey
  extract_lets +onlyGivenNames l hit d₁
  have h₁ : d₁.Meets C := Dev.onCiph_meets hm rfl rfl
  exact Dev.Meets.paired (meets_ite h₁ (count_meets _ _ _ _ _ h₁))

theorem dropKeys_meets {C : Claim} (p : Nat → Bool) (d : Dev) (hm : d.Meets C) : (dropKeys p d).Meets C := by
  unfold dropKeys
  exact Dev.onCiph_meets hm rfl rfl

theorem chargePacket_meets {C : Claim} (tile : Nat) (k : Nat × Bool) (n : Nat) (d : Dev)
    (hm : d.Meets C) : (chargePacket tile k n d).2.Meets C := by
  grind [chargePacket, touchKey_meets, Dev.onCiph_meets, count_meets]

theorem dealJob_meets {C : Claim} (i n : Nat) (d : Dev) (hm : d.Meets C) : (dealJob i n d).Meets C := by
  induction n generalizing d with
  | zero => exact hm
  | succ n ih =>
    simp only [dealJob]
    (repeat' split) <;> first | exact hm | exact ih _ (Dev.onCiph_meets hm rfl rfl)

theorem dealJobs_meets {C : Claim} (d : Dev) (hm : d.Meets C) : (dealJobs d).Meets C := by
  unfold dealJobs
  exact foldl_meets hm (fun _ _ h₁ => dealJob_meets _ _ _ h₁)

theorem idleCore_meets {C : Claim} (k : Nat) (d : Dev) (hC : C.Wide) (hm : d.Meets C) : (idleCore k d).Meets C := by
  unfold idleCore
  extract_lets +onlyGivenNames x o pkts up
  exact meets_ite hm (Dev.onCiph_wide hC hm)

theorem drbgDraw_meets {C : Claim} (k : Nat) (m : Nat) (d : Dev) (hm : d.Meets C) : (drbgDraw k m d).Meets C := by
  unfold drbgDraw
  exact Dev.onCiph_meets hm rfl rfl

theorem coreTicks_meets {C : Claim} (k : Nat) (d : Dev) (hm : d.Meets C) : (coreTicks k d).Meets C := by
  unfold coreTicks
  refine meets_ite hm ?_
  extract_lets +onlyGivenNames x y d₁
  have h₁ : d₁.Meets C := Dev.onCiph_meets hm rfl rfl
  exact meets_ite h₁ (drbgDraw_meets _ _ _ h₁)

theorem coresTick_meets {C : Claim} (d : Dev) (hC : C.Wide) (hm : d.Meets C) : (coresTick d).Meets C := by
  unfold coresTick
  refine meets_ite hm ?_
  extract_lets +onlyGivenNames d₁
  have h₁ : d₁.Meets C := foldl_meets hm (fun _ _ h₂ => idleCore_meets _ _ hC h₂)
  exact dealJobs_meets _ (foldl_meets h₁ (fun _ _ h₄ => coreTicks_meets _ _ h₄))

/-! ### Operations of Operands -/

theorem setCmd_meets {C : Claim} (c : CmdSlot) (m : Option Cmd) (d : Dev) (hC : C.Wide) (hm : d.Meets C) : (setCmd c m d).Meets C := by
  unfold setCmd
  split
  · exact Dev.onRing_meets _ _ _ _ hC hm
  · exact Dev.onSide_meets _ _ hm

theorem onCmd_meets {C : Claim} (c : CmdSlot) (f : Cmd → Cmd) (d : Dev) (hC : C.Wide) (hm : d.Meets C) : (onCmd c f d).Meets C := by
  unfold onCmd
  split
  · exact setCmd_meets _ _ _ hC hm
  · exact hm

theorem leave_meets {C : Claim} (c : CmdSlot) (work : List Nat) (d : Dev) (hC : C.Wide) (hm : d.Meets C) : (leave c work d).Meets C := by
  unfold leave
  exact onCmd_meets _ _ _ hC hm

theorem retire_meets {C : Claim} (p : Side) (k : Nat) (m : Cmd) (d : Dev) (hC : C.Wide) (hm : d.Meets C) : (retire p k m d).Meets C := by
  unfold retire
  extract_lets +onlyGivenNames r d₁
  have h₁ : d₁.Meets C := Dev.onRing_meets _ _ _ _ hC hm
  exact meets_ite h₁ (msix_meets _ _ _ h₁)

theorem answer_meets {C : Claim} (c : CmdSlot) (st detail : Nat) (res : Option (Nat × Bytes)) (val : Option Nat) (d : Dev)
    (hC : C.Wide) (hm : d.Meets C) :
    (answer c st detail res val d).Meets C := by
  cases hs : cmdAt d c with
  | none => simpa only [answer, hs] using hm
  | some m =>
    cases hl : leader d with
    | none => simpa only [answer, hs, hl] using hm
    | some l =>
      have hd (x : Nat) : (count x 0xFF none 1 d).Meets C := count_meets _ _ _ _ _ hm
      cases c with
      | sideband =>
        simp only [answer, hs, hl]
        refine emit_meets _ _ ?_
        exact meets_cases (fun _ => setCmd_meets _ _ _ hC (hd _))
          fun hn => Dev.onHasp_meets _ _ _ hC (fun h0 => hn (by simp [h0])) nofun (setCmd_meets _ _ _ hC (hd _))
      | ring p k =>
        have hres (e : Dev) (he : e.Meets C) : (match res with | some (a, b) => if m.resultLost then e else hostWrite p none a b e | none => e).Meets C := by
          split <;> [exact meets_ite he (hostWrite_meets _ _ _ _ _ he); exact he]
        have hwrite (a : Nat) (b : Bytes) (x : Nat) := hostWrite_meets p none a b _ (hres _ (hd x))
        simp only [answer, hs, hl]
        exact meets_ite (logIt_meets _ _ _ _ _ _ (Dev.onRing_meets _ _ _ _ hC (setCmd_meets _ _ _ hC (hd _))))
          (meets_ite (retire_meets _ _ _ _ hC (hwrite _ _ _)) (heldNote_meets _ _ _ (setCmd_meets _ _ _ hC (hwrite _ _ _))))

theorem answerIf_meets {C : Claim} (c : CmdSlot) (op : Nat) (st : Nat) (res : Option (Nat × Bytes)) (d : Dev)
    (hC : C.Wide) (hm : d.Meets C) : (answerIf c op st res d).Meets C := by
  unfold answerIf
  split
  · exact meets_ite (answer_meets _ _ _ _ _ _ hC hm) hm
  · exact hm

theorem finish_meets {C : Claim} (c : CmdSlot) (st : Nat) (d : Dev) (hC : C.Wide) (hm : d.Meets C) : (finish c st d).Meets C := by
  unfold finish
  exact answer_meets _ _ _ _ _ _ hC hm

theorem finishAt_meets {C : Claim} (c : CmdSlot) (st : Nat) (detail : Nat) (d : Dev)
    (hC : C.Wide) (hm : d.Meets C) : (finishAt c st detail d).Meets C := by
  unfold finishAt
  exact answer_meets _ _ _ _ _ _ hC hm

theorem finishRes_meets {C : Claim} (c : CmdSlot) (st : Nat) (addr : Nat) (res : Bytes) (d : Dev)
    (hC : C.Wide) (hm : d.Meets C) : (finishRes c st addr res d).Meets C := by
  unfold finishRes
  exact answer_meets _ _ _ _ _ _ hC hm

theorem retireHeld_meets {C : Claim} (p : Side) (k : Nat) (d : Dev) (hC : C.Wide) (hm : d.Meets C) : (retireHeld p k d).Meets C := by
  unfold retireHeld
  split
  · exact meets_ite (retire_meets _ _ _ _ hC hm) hm
  · exact hm

theorem retireReplied_meets {C : Claim} (p : Side) (d : Dev) (hC : C.Wide) (hm : d.Meets C) : (retireReplied p d).Meets C := by
  unfold retireReplied
  exact foldl_meets hm (fun _ _ h₁ => retireHeld_meets _ _ _ hC h₁)

theorem runCmd_meets {C : Claim} (c : CmdSlot) (op : Nat) (f : Bytes → Dev → Dev) (hf : ∀ a₀ a₁, a₁.Meets C → (f a₀ a₁).Meets C) (d : Dev)
    (hm : d.Meets C) : (runCmd c op f d).Meets C := by
  unfold runCmd
  split
  · exact meets_ite (hf _ _ hm) hm
  · exact hm

theorem runChk_meets {C : Claim} (c : CmdSlot) (op : Nat) (chk : Bytes → Dev → List (Nat × Bool)) (f : Bytes → Dev → Dev)
    (hf : ∀ a₀ a₁, a₁.Meets C → (f a₀ a₁).Meets C) (d : Dev) (hC : C.Wide) (hm : d.Meets C) : (runChk c op chk f d).Meets C := by
  unfold runChk
  refine runCmd_meets _ _ _ (fun _ _ h₁ => ?_) _ hm
  split
  · exact finishAt_meets _ _ _ _ hC h₁
  · exact hf _ _ h₁

theorem withTenantAt_meets {C : Claim} (off : Nat) (c : CmdSlot) (n : Nat) (busyRule : Bool) (f : Tenant → Dev → Dev)
    (hf : ∀ a₀ a₁, a₁.Meets C → (f a₀ a₁).Meets C) (d : Dev) (hC : C.Wide) (hm : d.Meets C) : (withTenantAt off c n busyRule f d).Meets C := by
  unfold withTenantAt
  split
  · exact finishAt_meets _ _ _ _ hC hm
  · exact meets_ite (finishAt_meets _ _ _ _ hC hm) (meets_ite (finish_meets _ _ _ hC hm) (hf _ _ hm))

theorem withTenant_meets {C : Claim} (c : CmdSlot) (n : Nat) (busyRule : Bool) (f : Tenant → Dev → Dev)
    (hf : ∀ a₀ a₁, a₁.Meets C → (f a₀ a₁).Meets C) (d : Dev) (hC : C.Wide) (hm : d.Meets C) : (withTenant c n busyRule f d).Meets C := by
  unfold withTenant
  exact withTenantAt_meets _ _ _ _ _ (fun _ _ h₁ => hf _ _ h₁) _ hC hm

theorem quotaHit_meets {C : Claim} (c : CmdSlot) (n : Nat) (which : Nat) (d : Dev)
    (hC : C.Wide) (hm : d.Meets C) : (quotaHit c n which d).Meets C := by
  unfold quotaHit
  extract_lets +onlyGivenNames was d₁
  have h₁ : d₁.Meets C := Dev.onTen_meets _ _ _ hm
  exact finish_meets _ _ _ hC (meets_ite h₁ (postEvent_meets _ _ _ _ _ _ h₁))

/-! ### Operations of XltOps -/

theorem onTab_meets {C : Claim} (t : Nat) (f : PageTables → PageTables) (d : Dev) (hm : d.Meets C) : (onTab t f d).Meets C := by
  unfold onTab
  exact Dev.onXlt_meets hm

theorem placeTables_meets {C : Claim} (t : Nat) (l : List (Nat × Nat)) {d e : Dev} (he : placeTables t l d = some e)
    (hm : d.Meets C) : e.Meets C := by
  induction l generalizing d with
  | nil =>
    obtain rfl : d = e := by simpa only [placeTables, Option.some.injEq] using he
    exact hm
  | cons n r ih =>
    simp only [placeTables] at he
    split at he
    · exact ih he (onTab_meets _ _ _ hm)
    · split at he
      · exact ih he (onTab_meets _ _ _ hm)
      · cases he

theorem dropTables_meets {C : Claim} (t : Nat) (d : Dev) (hm : d.Meets C) : (dropTables t d).Meets C := by
  unfold dropTables
  exact onTab_meets _ _ _ hm

theorem touchPlaces_meets {C : Claim} (l : List (Place × Nat)) (d : Dev) (hm : d.Meets C) : (touchPlaces l d).Meets C := by
  unfold touchPlaces
  refine foldl_meets hm (fun _ _ h₁ => ?_)
  split
  · split
    · exact touchStack_meets _ _ h₁
    · exact h₁

theorem touchRange_meets {C : Claim} (tile : Nat) (t : Nat) (addr : Nat) (len : Nat) (write : Bool) (d : Dev)
    (hm : d.Meets C) : (touchRange tile t addr len write d).Meets C := by
  unfold touchRange
  exact touchPlaces_meets _ _ hm

theorem writePieces_meets {C : Claim} (l : List (Nat × Nat)) (b : Bytes) (d : Dev) (hm : d.Meets C) : (writePieces l b d).Meets C := by
  induction l generalizing b d with
  | nil => exact hm
  | cons x r ih => exact ih _ _ (meets_ite (touchStack_meets _ _ hm) (memWrite_meets (touchStack_meets _ _ hm)))

theorem putPieces_meets {C : Claim} (relax : Bool) (l : List (Place × Nat)) (b : Bytes) (d : Dev)
    (hm : d.Meets C) : (putPieces relax l b d).Meets C := by
  induction l generalizing b d with
  | nil => exact hm
  | cons x r ih =>
    obtain ⟨p, n⟩ := x
    cases p with
    | dev p => exact ih _ _ (writePieces_meets _ _ _ hm)
    | host s pasid a => exact ih _ _ (hostPut_meets _ _ _ _ _ _ hm)

theorem addRun_meets {C : Claim} (tile : Nat) (e : RunEntry) (d : Dev) (hm : d.Meets C) : (addRun tile e d).Meets C := by
  unfold addRun
  exact Dev.onTile_meets _ _ _ hm

theorem addUpper_meets {C : Claim} (tile : Nat) (t : Nat) (dva : Nat) (d : Dev) (hm : d.Meets C) : (addUpper tile t dva d).Meets C := by
  unfold addUpper
  exact Dev.onTile_meets _ _ _ hm

theorem trackStream_meets {C : Claim} (tile : Nat) (s : Stream) (d : Dev) (hm : d.Meets C) : (trackStream tile s d).Meets C := by
  unfold trackStream
  exact Dev.onTile_meets _ _ _ hm

theorem sendAts_meets {C : Claim} (tile : Nat) (t : Nat) (addr : Nat) (who : Waiting) (rec : Option Nat) (ahead : Option (Stream × Nat)) (d : Dev)
    (hm : d.Meets C) : (sendAts tile t addr who rec ahead d).Meets C := by
  unfold sendAts
  split
  · exact hm
  · extract_lets +onlyGivenNames p tag go d₁
    have h₁ : d₁.Meets C := Dev.onXlt_meets hm
    exact meets_ite (emit_meets _ _ h₁) (heldNote_meets _ _ _ h₁)

theorem askAts_meets {C : Claim} (tile : Nat) (t : Nat) (addr : Nat) (write : Bool) (w : Waiter) (rec : Option Nat) (d : Dev)
    (hm : d.Meets C) : (askAts tile t addr write w rec d).Meets C := by
  unfold askAts
  exact sendAts_meets _ _ _ _ _ _ _ hm

theorem prefetchFrom_meets {C : Claim} (tile t : Nat) (s : Stream) (n addr : Nat) (d : Dev)
    (hm : d.Meets C) : (prefetchFrom tile t s n addr d).Meets C := by
  induction n generalizing addr d with
  | zero => exact hm
  | succ n ih =>
    simp only [prefetchFrom]
    split
    · exact ih _ _ hm
    · apply_rules [meets_ite, Dev.onTile_meets, sendAts_meets]

theorem lookupRun_meets {C : Claim} (tile t addr : Nat) (d : Dev) (hm : d.Meets C) : (lookupRun tile t addr d).2.Meets C := by
  have hcount (src : Nat) (d : Dev) (hm : d.Meets C) : (count src tile (some t) 1 d).Meets C := count_meets _ _ _ _ _ hm
  unfold lookupRun
  dsimp only
  split
  · exact hcount 0x0801 _ (addRun_meets _ _ _ (hcount 0x0800 _ hm))
  · split
    · have hwalk := foldl_meets (l := walkStacks (count 0x0800 tile (some t) 1 d) tile t (addr - 2 ^ 63))
        (hcount 0x0802 _ (addUpper_meets tile t (addr - 2 ^ 63) _ (hcount 0x0800 _ hm))) fun d k h => touchStack_meets k d h
      split
      · exact addRun_meets _ _ _ hwalk
      · exact hwalk
    · exact hcount 0x0800 _ hm

theorem enterRun_meets {C : Claim} (tile : Nat) (t : Nat) (addr : Nat) (s : Stream) (d : Dev)
    (hm : d.Meets C) : (enterRun tile t addr s d).2.Meets C := by
  unfold enterRun
  split
  · exact Dev.Meets.paired (prefetchFrom_meets _ _ _ _ _ _ (.of_pair (by assumption) (lookupRun_meets _ _ _ _ (trackStream_meets _ _ _ hm))))
  · exact Dev.Meets.paired (.of_pair (by assumption) (lookupRun_meets _ _ _ _ (trackStream_meets _ _ _ hm)))

theorem streamOver_meets {C : Claim} (tile t : Nat) (s : Stream) (n addr len : Nat) (d : Dev)
    (hm : d.Meets C) : (streamOver tile t s n addr len d).Meets C := by
  induction n generalizing addr len d with
  | zero => exact hm
  | succ n ih =>
    have hrun := enterRun_meets tile t addr s d hm
    simp only [streamOver]
    split
    · next he => exact meets_ite (ih _ _ _ (.of_pair he hrun)) (.of_pair he hrun)
    · next he => exact .of_pair he hrun

theorem lookupRange_meets {C : Claim} (tile : Nat) (t : Nat) (addr : Nat) (len : Nat) (s : Stream) (d : Dev)
    (hm : d.Meets C) : (lookupRange tile t addr len s d).Meets C := by
  unfold lookupRange
  exact streamOver_meets _ _ _ _ _ _ _ hm

theorem lookup_meets {C : Claim} (tile : Nat) (t : Nat) (addr : Nat) (w : Waiter) (write : Bool) (d : Dev)
    (hm : d.Meets C) : (lookup tile t addr w write d).Meets C := by
  unfold lookup
  split
  · exact enterRun_meets _ _ _ _ _ hm
  · exact lookupRun_meets _ _ _ _ hm

theorem cairnWrite_meets {C : Claim} (p : Side) (c : Cairn) (d : Dev) (hm : d.Meets C) : (cairnWrite p c d).Meets C := by
  unfold cairnWrite
  extract_lets +onlyGivenNames x s slot recs
  clear_value x s slot recs
  refine meets_ite hm ?_
  extract_lets +onlyGivenNames head d₁ d₂ d₃ d₄
  have h₁ : d₁.Meets C := hostWrite_meets _ _ _ _ _ hm
  have h₂ : d₂.Meets C := hostWrite_meets _ _ _ _ _ h₁
  have h₃ : d₃.Meets C := Dev.onXlt_meets h₂
  have h₄ : d₄.Meets C := Dev.onXPort_meets _ _ _ h₃
  exact msix_meets _ _ _ h₄

theorem postCairn_meets {C : Claim} (p : Side) (timed : Bool) (d : Dev) (hm : d.Meets C) : (postCairn p timed d).Meets C := by
  unfold postCairn
  split
  · exact hm
  · extract_lets +onlyGivenNames c tile d₁
    have h₁ : d₁.Meets C := count_meets _ _ _ _ _ (Dev.onXPort_meets _ _ _ hm)
    clear_value c tile d₁
    refine meets_ite (cairnWrite_meets _ _ _ h₁) ?_
    extract_lets +onlyGivenNames d₂
    have h₂ : d₂.Meets C := Dev.onXlt_meets h₁
    exact heldNote_meets _ _ _ (Dev.onXPort_meets _ _ _ h₂)

theorem cairnDrain1_meets {C : Claim} (p : Side) (d : Dev) (hm : d.Meets C) : (cairnDrain1 p d).Meets C := by
  unfold cairnDrain1
  split
  · exact hm
  · exact meets_ite (cairnWrite_meets _ _ _ (Dev.onXPort_meets _ _ _ hm)) hm

theorem cairnDrain_meets {C : Claim} (p : Side) (d : Dev) (hm : d.Meets C) : (cairnDrain p d).Meets C := by
  unfold cairnDrain
  exact iter_meets hm (fun _ h₁ => cairnDrain1_meets _ _ h₁)

theorem priSend_meets {C : Claim} (p : Side) (d : Dev) (hm : d.Meets C) : (priSend p d).Meets C := by
  unfold priSend
  refine foldl_meets hm (fun _ _ h₁ => meets_ite ?_ h₁)
  extract_lets +onlyGivenNames pages
  exact emit_meets _ _ (Dev.onXPort_meets _ _ _ h₁)

theorem postPri_meets {C : Claim} (p : Side) (d : Dev) (hm : d.Meets C) : (postPri p d).Meets C := by
  unfold postPri
  extract_lets +onlyGivenNames x
  clear_value x
  refine meets_ite hm ?_
  extract_lets +onlyGivenNames used idx tile d₁ d₂
  have h₁ : d₁.Meets C := count_meets _ _ _ _ _ hm
  have h₂ : d₂.Meets C := Dev.onXlt_meets h₁
  exact priSend_meets _ _ (heldNote_meets _ _ _ (Dev.onXPort_meets _ _ _ h₂))

theorem gather_meets {C : Claim} (id : Nat) (d : Dev) (hm : d.Meets C) : (gather id d).2.Meets C := by
  unfold gather
  split
  · exact hm
  · extract_lets +onlyGivenNames p setOpen
    have h₃ : ∀ a₁, Dev.Meets C a₁ → Dev.Meets C (setOpen a₁) := fun _ h₂ => Dev.onXlt_meets h₂
    clear_value p setOpen
    split
    · extract_lets +onlyGivenNames d₄
      have h₄ : d₄.Meets C := h₃ _ (Dev.onXPort_meets _ _ _ hm)
      exact Dev.Meets.paired (meets_ite (postPri_meets _ _ h₄) h₄)
    · split
      · extract_lets +onlyGivenNames d₅ n
        have h₅ : d₅.Meets C := h₃ _ (Dev.onXPort_meets _ _ _ hm)
        exact Dev.Meets.paired (meets_ite (postCairn_meets _ _ _ h₅) h₅)
      · split
        · exact Dev.Meets.paired (Dev.onXPort_meets _ _ _ hm)
        · extract_lets +onlyGivenNames c d₆
          have h₆ : d₆.Meets C := Dev.onXlt_meets hm
          exact Dev.Meets.paired (h₃ _ (Dev.onXPort_meets _ _ _ h₆))

theorem raiseFault_meets {C : Claim} (tile t addr : Nat) (write again : Bool) (w : Waiter) (d : Dev) (hm : d.Meets C) :
    (raiseFault tile t addr write again w d).2.Meets C := by
  unfold raiseFault
  split
  · exact hm
  · have hcounted := tenCount_meets t 7 1 _ (count_meets 0x0804 tile (some t) 1 _ hm)
    dsimp only
    split
    · exact hcounted
    · split
      · exact (Dev.onXlt_meets hcounted).paired
      · split
        · exact (Dev.onXlt_meets hcounted).paired
        · split
          · next he => exact .of_pair he (gather_meets _ _ (Dev.onXlt_meets hcounted))
          · next he => exact (Dev.onXlt_meets (.of_pair he (gather_meets _ _ (Dev.onXlt_meets hcounted)))).paired

theorem stallOn_meets {C : Claim} (tile t : Nat) (write : Bool) (w : Waiter) (e : XErr) (d : Dev) (hm : d.Meets C) :
    (stallOn tile t write w e d).2.Meets C := by
  cases e with
  | access => exact hm
  | fault a =>
    have hfault := raiseFault_meets tile t a write false w _ (lookup_meets tile t a w write d hm)
    simp only [stallOn]
    split
    · next he => exact .of_pair he hfault
    · next he => exact .of_pair he hfault
  | ats a => exact askAts_meets _ _ _ _ _ _ _ (lookup_meets _ _ _ _ _ _ hm)

/-! ### Operations of NetOps -/

theorem enqueue_meets {C : Claim} (p : Nat) (k : Nat) (f : Frame) (d : Dev) (hm : d.Meets C) : (enqueue p k f d).Meets C := by
  unfold enqueue
  exact Dev.onPort_meets _ _ _ hm

theorem dropAck_meets {C : Claim} (k : Nat) (f : Frame) (d : Dev) (hm : d.Meets C) : (dropAck k f d).Meets C := by
  unfold dropAck
  extract_lets +onlyGivenNames keep port
  exact Dev.onNet_meets hm

theorem heldDrain_meets {C : Claim} (k : Nat) (port : Nat) (d : Dev) (hm : d.Meets C) : (heldDrain k port d).Meets C := by
  unfold heldDrain
  exact Dev.onPort_meets _ _ _ hm

theorem ownIn_meets {C : Claim} (port : Nat) (k : Nat) (f : Frame) (d : Dev) (hm : d.Meets C) : (ownIn port k f d).Meets C := by
  unfold ownIn
  extract_lets +onlyGivenNames np q held
  clear_value np q held
  split
  · exact Dev.onPort_meets _ _ _ hm
  · split
    · exact Dev.onPort_meets _ _ _ hm
    · exact heldDrain_meets _ _ _ (Dev.onPort_meets _ _ _ (dropAck_meets _ _ _ hm))

theorem sealedIn_meets {C : Claim} (port : Nat) (t : BitVec 8) (p : Pkt) (f : Frame) (g : Frame → Dev → Dev)
    (hg : ∀ a₀ a₁, a₁.Meets C → (g a₀ a₁).Meets C) (d : Dev) (hm : d.Meets C) : (sealedIn port t p f g d).Meets C := by
  unfold sealedIn
  refine meets_ite ?_ (hg _ _ hm)
  split
  · exact hg _ _ (.of_pair (by assumption) (chargePacket_meets _ _ _ _ hm))

theorem outwardLand_meets {C : Claim} (port : Nat) (t : BitVec 8) (p : Pkt) (qpn : Option Nat) (path : Nat) (outer : Bytes) (d : Dev)
    (hm : d.Meets C) : (outwardLand port t p qpn path outer d).Meets C := by
  unfold outwardLand
  exact sealedIn_meets _ _ _ _ _ (fun _ _ h₁ => ownIn_meets _ _ _ _ h₁) _ hm

theorem outward_meets {C : Claim} (tile : Nat) (port : Nat) (t : BitVec 8) (p : Pkt) (qpn : Option Nat) (path : Nat) (d : Dev)
    (hm : d.Meets C) : (outward tile port t p qpn path d).Meets C := by
  unfold outward
  extract_lets +onlyGivenNames outer
  exact crossOr_meets _ _ _ (fun _ h₂ => outwardLand_meets _ _ _ _ _ _ _ h₂) _ _ hm

theorem release_meets {C : Claim} (tile : Nat) (port : Nat) (t : BitVec 8) (p : Pkt) (qpn : Option Nat) (path : Nat) (excess : Bool)
    (ten : Option Nat) (d : Dev) (hm : d.Meets C) : (release tile port t p qpn path excess ten d).Meets C := by
  unfold release
  extract_lets +onlyGivenNames k d₁ d₂
  have h₁ : d₁.Meets C := count_meets _ _ _ _ _ (count_meets _ _ _ _ _ hm)
  have h₂ : d₂.Meets C := meets_ite (count_meets _ _ _ _ _ h₁) (meets_ite (count_meets _ _ _ _ _ h₁) h₁)
  exact meets_ite (sealedIn_meets _ _ _ _ _ (fun _ _ h₄ => enqueue_meets _ _ _ _ h₄) _ h₂) (outward_meets _ _ _ _ _ _ _ h₂)

theorem useCsn_meets {C : Claim} (n : Nat) (d : Dev) (hm : d.Meets C) : (useCsn n d).Meets C := by
  unfold useCsn
  exact Dev.onConn_meets _ _ _ hm

theorem noteEgress_meets {C : Claim} (n : Nat) (k : Nat) (port : Nat) (q : Qp) (pa : Path) (d : Dev)
    (hm : d.Meets C) : (noteEgress n k port q pa d).Meets C := by
  unfold noteEgress
  exact meets_ite (count_meets _ _ _ _ _ (Dev.onQp_meets _ _ _ hm)) hm

theorem noteSpent_meets {C : Claim} (n : Nat) (d : Dev) (hm : d.Meets C) : (noteSpent n d).Meets C := by
  unfold noteSpent
  exact Dev.onConn_meets _ _ _ hm

theorem sendCtlQ_meets {C : Claim} (n : Nat) (q : Qp) (t : BitVec 8) (ext : Bytes) (path : Nat) (d : Dev)
    (hm : d.Meets C) : (sendCtlQ n q t ext path d).Meets C := by
  unfold sendCtlQ
  extract_lets +onlyGivenNames k
  clear_value k
  split
  · exact hm
  · extract_lets +onlyGivenNames d₁
    have h₁ : d₁.Meets C := noteSpent_meets _ _ hm
    clear_value d₁
    split
    · exact h₁
    · extract_lets +onlyGivenNames p
      exact release_meets _ _ _ _ _ _ _ _ _ (noteEgress_meets _ _ _ _ _ _ (useCsn_meets _ _ h₁))

theorem sendCtl_meets {C : Claim} (n : Nat) (t : BitVec 8) (ext : Bytes) (path : Nat) (d : Dev)
    (hm : d.Meets C) : (sendCtl n t ext path d).Meets C := by
  unfold sendCtl
  split
  · exact hm
  · exact sendCtlQ_meets _ _ _ _ _ _ hm

theorem answerStray_meets {C : Claim} (port : Nat) (t : BitVec 8) (ext : Bytes) (p : Pkt) (d : Dev)
    (hm : d.Meets C) : (answerStray port t ext p d).Meets C := by
  unfold answerStray
  extract_lets +onlyGivenNames tile
  clear_value tile
  refine meets_ite hm ?_
  extract_lets +onlyGivenNames r r₁
  exact release_meets _ _ _ _ _ _ _ _ _ hm

end Sys2Proof.Machine
end

section
/-! SUPPORT. Claims that operations keep: queue pairs, engines, replication, ciphers and host ports. -/

namespace Sys2Proof.Machine

/-! ### Operations of QpOps -/

theorem dropWaiters_meets {C : Claim} (p : Waiter → Bool) (d : Dev) (hm : d.Meets C) : (dropWaiters p d).Meets C := by
  unfold dropWaiters
  extract_lets +onlyGivenNames recs gone keep port
  exact Dev.onXlt_meets hm

theorem drainDown_meets {C : Claim} (w : Nat) (tile : Nat) (d : Dev) (hm : d.Meets C) : (drainDown w tile d).Meets C := by
  unfold drainDown
  exact Dev.onXlt_meets hm

theorem countLegs_meets {C : Claim} (o : Op) (d : Dev) (hm : d.Meets C) : (countLegs o d).Meets C := by
  unfold countLegs
  exact foldl_meets hm (fun _ _ h₁ => meets_ite (count_meets _ _ _ _ _ (Dev.onStkEng_meets _ _ _ h₁)) h₁)

theorem dropOps_meets {C : Claim} (p : Op → Bool) (d : Dev) (hm : d.Meets C) : (dropOps p d).Meets C := by
  unfold dropOps
  extract_lets +onlyGivenNames gone d₁
  clear_value gone
  have h₁ : d₁.Meets C := by
    dsimp -zeta -iota -proj only [d₁]
    refine foldl_meets hm (fun _ _ h₃ => ?_)
    split
    · refine meets_ite h₃ ?_
      extract_lets +onlyGivenNames d₄
      have h₄ : d₄.Meets C := countLegs_meets _ _ h₃
      clear_value d₄
      split
      · exact drainDown_meets _ _ _ h₄
      · exact h₄
  exact meets_ite h₁ (dropWaiters_meets _ _ (Dev.onEng_meets h₁))

theorem sendDisconnect_meets {C : Claim} (n : Nat) (reason : Nat) (d : Dev) (hm : d.Meets C) : (sendDisconnect n reason d).Meets C := by
  unfold sendDisconnect
  split
  · exact hm
  · exact meets_ite hm (sendCtl_meets _ _ _ _ _ (Dev.onConn_meets _ _ _ hm))

theorem dropHeld_meets {C : Claim} (n : Nat) (d : Dev) (hm : d.Meets C) : (dropHeld n d).Meets C := by
  unfold dropHeld
  split
  · exact hm
  · refine foldl_meets hm (fun _ _ h₁ => ?_)
    split
    · exact meets_ite h₁ (drainDown_meets _ _ _ h₁)
    · exact h₁

theorem flushQp_meets {C : Claim} (n : Nat) (disc event : Option Nat) (d : Dev) (hm : d.Meets C) : (flushQp n disc event d).Meets C := by
  unfold flushQp
  split
  · exact hm
  · next q hq =>
    extract_lets d₁ d₂ d₃ d₄ flushed d₅ d₆
    have h₁ : d₁.Meets C := by
      dsimp only [d₁]
      split <;> [exact meets_ite hm (sendDisconnect_meets _ _ _ hm); exact hm]
    have h₆ : d₆.Meets C := by
      apply_rules [dropWaiters_meets, Dev.onQp_meets, dropHeld_meets, Dev.onQ_meets, dropOps_meets]
    split <;> [exact postEvent_meets _ _ _ _ _ _ h₆; exact h₆]

theorem toFlush_meets {C : Claim} (n : Nat) (disc : Option Nat) (event : Option Nat) (d : Dev)
    (hm : d.Meets C) : (toFlush n disc event d).Meets C := by
  unfold toFlush
  split
  · exact hm
  · exact meets_ite hm (flushQp_meets _ _ _ _ hm)

theorem endEntry_meets {C : Claim} (n : Nat) (idx : Nat) (e : WorkEnd) (err : Bool) (d : Dev)
    (hm : d.Meets C) : (endEntry n idx e err d).Meets C := by
  unfold endEntry
  split
  · exact hm
  · extract_lets +onlyGivenNames d₁
    have h₁ : d₁.Meets C := Dev.onQp_meets _ _ _ hm
    exact meets_ite (toFlush_meets _ _ _ _ (count_meets _ _ _ _ _ h₁)) h₁

theorem endOk_meets {C : Claim} (n : Nat) (idx : Nat) (count : Nat) (aux : BitVec 64) (d : Dev)
    (hm : d.Meets C) : (endOk n idx count aux d).Meets C := by
  unfold endOk
  exact endEntry_meets _ _ _ _ _ hm

theorem endBad_meets {C : Claim} (n : Nat) (idx : Nat) (code : Nat) (detail : Nat) (d : Dev)
    (hm : d.Meets C) : (endBad n idx code detail d).Meets C := by
  unfold endBad
  exact endEntry_meets _ _ _ _ _ hm

theorem sendRope_meets {C : Claim} (slot : Nat) (down : Bool) (t : BitVec 8) (p : Pkt) (d : Dev)
    (hm : d.Meets C) : (sendRope slot down t p d).2.Meets C := by
  unfold sendRope
  split
  · exact hm
  · split
    · exact hm
    · extract_lets +onlyGivenNames p₁ len waits
      clear_value p₁ len waits
      split
      · exact hm
      · extract_lets +onlyGivenNames d₂
        have h₂ : d₂.Meets C := count_meets _ _ _ _ _ (count_meets _ _ _ _ _ hm)
        exact Dev.Meets.paired (outward_meets _ _ _ _ _ _ _ h₂)

theorem sendAbort_meets {C : Claim} (slot : Nat) (down : Bool) (d : Dev) (hm : d.Meets C) : (sendAbort slot down d).Meets C := by
  unfold sendAbort
  split
  · exact hm
  · exact sendRope_meets _ _ _ _ _ hm

theorem ropeAbort_meets {C : Claim} (slot : Nat) (origin : Nat) (reason : Nat) (down : Bool) (up : Bool) (d : Dev)
    (hm : d.Meets C) : (ropeAbort slot origin reason down up d).Meets C := by
  unfold ropeAbort
  split
  · exact hm
  · refine meets_ite hm ?_
    extract_lets +onlyGivenNames num d₁ d₂ d₃ d₄ d₅ d₆
    have h₁ : d₁.Meets C := count_meets _ _ _ _ _ hm
    have h₂ : d₂.Meets C := dropWaiters_meets _ _ h₁
    have h₃ : d₃.Meets C := Dev.onRope_meets _ _ _ h₂
    have h₄ : d₄.Meets C := meets_ite (sendAbort_meets _ _ _ h₃) h₃
    have h₅ : d₅.Meets C := meets_ite (sendAbort_meets _ _ _ h₄) h₄
    have h₆ : d₆.Meets C := Dev.onRope_meets _ _ _ h₅
    exact postEvent_meets _ _ _ _ _ _ h₆

theorem ropeAbortLocal_meets {C : Claim} (slot : Nat) (reason : Nat) (d : Dev) (hm : d.Meets C) : (ropeAbortLocal slot reason d).Meets C := by
  unfold ropeAbortLocal
  split
  · exact hm
  · exact ropeAbort_meets _ _ _ _ _ _ hm

theorem cqOverflow_meets {C : Claim} (n extra : Nat) (d : Dev) (hm : d.Meets C) : (cqOverflow n extra d).Meets C := by
  unfold cqOverflow
  split
  · exact hm
  · next c hc =>
    refine meets_ite hm ?_
    extract_lets lost d₁ d₂ d₃ d₄ d₅
    have h₃ : d₃.Meets C := by
      apply_rules [count_meets, postEvent_meets, dropWaiters_meets, Dev.onCq_meets]
    have h₄ : d₄.Meets C := foldl_meets h₃ fun d x h =>
      meets_ite h (meets_ite (Dev.onQp_meets _ _ _ (flushQp_meets _ _ _ _ h)) (flushQp_meets _ _ _ _ h))
    have h₅ : d₅.Meets C := foldl_meets h₄ fun d x h => by
      dsimp only
      split <;> [exact meets_ite (endEntry_meets _ _ _ _ _ (Dev.onQp_meets _ _ _ h)) h; exact h]
    exact foldl_meets h₅ fun d x h => meets_ite (ropeAbortLocal_meets _ _ _ h) (meets_ite (ropeAbortLocal_meets _ _ _ h) h)

theorem cqWrite_meets {C : Claim} (n : Nat) (e : Cqe) (d : Dev) (hm : d.Meets C) : (cqWrite n e d).Meets C := by
  unfold cqWrite
  split
  · exact hm
  · next c hc =>
    extract_lets s addr
    split
    · have hput := Dev.onCq_meets _ n (fun c => { c with p := ringAdd s c.p 1, armed := false }) (putPieces_meets false ‹_› (cqeBytes e
          (phaseOf s c.p)) _ (lookup_meets (cqTile n) c.tenant addr (.cqWrite n) true d hm))
      exact meets_ite (msix_meets _ _ _ hput) hput
    · next x hx =>
      have hstall := stallOn_meets (cqTile n) c.tenant true (.cqWrite n) x d hm
      split
      · next he => exact Dev.onCq_meets _ _ _ (hm := .of_pair he hstall)
      · next he => exact cqOverflow_meets _ _ _ (hm := .of_pair he hstall)

theorem cqPush_meets {C : Claim} (n : Nat) (e : Cqe) (written : Bool) (wait : Bool) (d : Dev)
    (hm : d.Meets C) : (cqPush n e written wait d).Meets C := by
  unfold cqPush
  split
  · exact hm
  · extract_lets +onlyGivenNames cqFull
    clear_value cqFull
    refine meets_ite (Dev.onCq_meets _ _ _ hm) ?_
    extract_lets +onlyGivenNames d₁
    have h₁ : d₁.Meets C := meets_ite hm (Dev.onCq_meets _ _ _ hm)
    exact meets_ite h₁ (meets_ite (cqWrite_meets _ _ _ h₁) (heldNote_meets _ _ _ (Dev.onCq_meets _ _ _ h₁)))

theorem cqDrain1_meets {C : Claim} (n : Nat) (d : Dev) (hC : C.Wide) (hm : d.Meets C) : (cqDrain1 n d).Meets C := by
  unfold cqDrain1
  split
  · exact hm
  · split
    · exact hm
    · exact meets_ite (cqWrite_meets _ _ _ (noteSent_meets _ _ _ hC (Dev.onCq_meets _ _ _ hm))) hm

theorem cqDrain_meets {C : Claim} (n : Nat) (d : Dev) (hC : C.Wide) (hm : d.Meets C) : (cqDrain n d).Meets C := by
  unfold cqDrain
  extract_lets +onlyGivenNames d₁
  have h₁ : d₁.Meets C := iter_meets hm (fun _ h₂ => cqDrain1_meets _ _ hC h₂)
  exact Dev.onCq_meets _ _ _ h₁

theorem qpRelease_meets {C : Claim} {n : Nat} {q : Qp} {d e : Dev} (he : qpRelease n q d = some e) (hm : d.Meets C) : e.Meets C := by
  have hclear (b : Bool) (f : Qp → Qp) : (if q.overflowNote = some b then
        (d.onQp n f).onQp n fun q => { q with overflowNote := none } else d.onQp n f).Meets C :=
    meets_ite (Dev.onQp_meets _ _ _ (Dev.onQp_meets _ _ _ hm)) (Dev.onQp_meets _ _ _ hm)
  unfold qpRelease at he
  dsimp only at he
  split at he
  · cases he
    exact cqPush_meets _ _ _ _ _ (hclear false _)
  · split at he
    · cases he
      exact cqPush_meets _ _ _ _ _ (hclear true _)
    · split at he <;> cases he
      exact Dev.onQp_meets _ _ _ hm

theorem ropeRelease_meets {C : Claim} {k : Nat} {r : Rope} {d e : Dev} (he : ropeRelease k r d = some e) (hm : d.Meets C) : e.Meets C := by
  unfold ropeRelease at he
  split at he
  · split at he <;> cases he
    exact cqPush_meets _ _ _ _ _ (Dev.onRope_meets _ _ _ hm)
  · cases he

theorem extendGrant_meets {C : Claim} (n : Nat) (d : Dev) (hm : d.Meets C) : (extendGrant n d).Meets C := by
  unfold extendGrant
  split
  · exact hm
  · refine meets_ite hm ?_
    extract_lets +onlyGivenNames want more free quota k
    exact Dev.onConn_meets _ _ _ hm

theorem sendAck_meets {C : Claim} (n : Nat) (echoPsn : BitVec 32) (echoTime : BitVec 32) (arrival : Nat) (path : BitVec 8) (d : Dev)
    (hm : d.Meets C) : (sendAck n echoPsn echoTime arrival path d).Meets C := by
  unfold sendAck
  split
  · exact hm
  · extract_lets +onlyGivenNames path₁ d₂ d₃
    clear_value path₁
    have h₂ : d₂.Meets C := by
      dsimp -zeta -iota -proj only [d₂]
      refine foldl_meets hm (fun _ _ h₅ => ?_)
      split
      · exact sendCtl_meets _ _ _ _ _ h₅
    have h₃ : d₃.Meets C := Dev.onConn_meets _ _ _ h₂
    exact sendCtl_meets _ _ _ _ _ h₃

theorem ackLatest_meets {C : Claim} (n : Nat) (d : Dev) (hm : d.Meets C) : (ackLatest n d).Meets C := by
  unfold ackLatest
  split
  · exact hm
  · split
    · extract_lets +onlyGivenNames late
      exact sendAck_meets _ _ _ _ _ _ hm

theorem rxRelease1_meets {C : Claim} (n : Nat) (d : Dev) (hm : d.Meets C) : (rxRelease1 n d).Meets C := by
  unfold rxRelease1
  split
  · exact hm
  · split
    · exact hm
    · extract_lets +onlyGivenNames e
      exact Dev.onQp_meets _ _ _ (tenCount_meets _ _ _ _ hm)

theorem rxAdvance_meets {C : Claim} (n : Nat) (d : Dev) (hm : d.Meets C) : (rxAdvance n d).Meets C := by
  unfold rxAdvance
  extract_lets +onlyGivenNames k d₁
  have h₁ : d₁.Meets C := extendGrant_meets _ _ (iter_meets hm (fun _ h₂ => rxRelease1_meets _ _ h₂))
  clear_value k d₁
  split
  · exact h₁
  · exact meets_ite (ackLatest_meets _ _ h₁) h₁

theorem seqEnd_meets {C : Claim} (n : Nat) (d : Dev) (hm : d.Meets C) : (seqEnd n d).Meets C := by
  unfold seqEnd
  split
  · exact hm
  · split
    · exact endBad_meets _ _ _ _ _ hm
    · exact toFlush_meets _ _ _ _ (count_meets _ _ _ _ _ hm)

theorem settle1_meets {C : Claim} {d e : Dev} (he : settle1 d = some e) (hm : d.Meets C) : e.Meets C := by
  unfold settle1 at he
  split at he
  · next hq =>
    cases he
    obtain ⟨x, -, hx⟩ := List.exists_of_findSome?_eq_some hq
    exact qpRelease_meets hx hm
  · obtain ⟨x, -, hx⟩ := List.exists_of_findSome?_eq_some he
    exact ropeRelease_meets hx hm

theorem settleN_meets {C : Claim} (n : Nat) (d : Dev) (hm : d.Meets C) : (settleN n d).Meets C :=
  settleN_ind (fun e => e.Meets C) (fun _ _ h he => settle1_meets he h) n d hm

theorem settle_meets {C : Claim} (d : Dev) (hm : d.Meets C) : (settle d).Meets C :=
  settle_ind (fun e => e.Meets C) (fun d n h => rxAdvance_meets n d h) (fun d n h => seqEnd_meets n d h) (fun _ _ h he => settle1_meets he h) d hm

theorem liveQ_meets {C : Claim} (f : Dev → Dev) (hf : ∀ a₀, a₀.Meets C → (f a₀).Meets C) (d : Dev) (hm : d.Meets C) : (liveQ f d).Meets C := by
  unfold liveQ
  exact live_meets _ (fun _ h₁ => settle_meets _ (hf _ h₁)) _ hm

theorem destroyQp_meets {C : Claim} (n : Nat) (cause : TombCause) (d : Dev) (hm : d.Meets C) : (destroyQp n cause d).Meets C := by
  unfold destroyQp
  extract_lets +onlyGivenNames d₁ d₂ d₃ tomb d₄
  have h₁ : d₁.Meets C := by
    dsimp -zeta -iota -proj only [d₁]
    split
    · exact meets_ite hm (Dev.onQ_meets hm)
    · exact hm
  have h₂ : d₂.Meets C := dropOps_meets _ _ h₁
  have h₃ : d₃.Meets C := dropWaiters_meets _ _ h₂
  have h₄ : d₄.Meets C := dropKeys_meets _ _ (dropHeld_meets _ _ h₃)
  exact Dev.onQ_meets h₄

theorem destroyCq_meets {C : Claim} (n : Nat) (d : Dev) (hm : d.Meets C) : (destroyCq n d).Meets C := by
  unfold destroyCq
  exact dropWaiters_meets _ _ (Dev.onQ_meets hm)

theorem resetQp_meets {C : Claim} (n : Nat) (d : Dev) (hm : d.Meets C) : (resetQp n d).Meets C := by
  unfold resetQp
  exact Dev.onQp_meets _ _ _ (dropKeys_meets _ _ (dropHeld_meets _ _ (Dev.onQ_meets (dropWaiters_meets _ _ (dropOps_meets _ _ hm)))))

/-! ### Operations of EngOps -/

theorem placeLegs_meets {C : Claim} (tile : Nat) (d : Dev) (hC : C.Wide) (hm : d.Meets C) : (placeLegs tile d).Meets C := by
  unfold placeLegs
  refine foldl_meets hm (fun _ _ h₁ => ?_)
  split
  · extract_lets +onlyGivenNames ten b d₂ d₃ n
    have h₂ : d₂.Meets C := meets_ite (count_meets _ _ _ _ _ h₁) h₁
    have h₃ : d₃.Meets C := meets_ite (count_meets _ _ _ _ _ h₂) h₂
    exact Dev.onOp_meets _ _ _ (Dev.onStkEng_meets _ _ _ (noteSent_meets _ _ _ hC h₃))

theorem drainUp_meets {C : Claim} (w : Nat) (tile : Nat) (d : Dev) (hm : d.Meets C) : (drainUp w tile d).Meets C := by
  unfold drainUp
  exact Dev.onXlt_meets hm

theorem opGone_meets {C : Claim} (i : Nat) (d : Dev) (hC : C.Wide) (hm : d.Meets C) : (opGone i d).Meets C := by
  unfold opGone
  split
  · exact hm
  · extract_lets +onlyGivenNames d₁ d₂
    have h₁ : d₁.Meets C := count_meets _ _ _ _ _ (tenCount_meets _ _ _ _ hm)
    have h₂ : d₂.Meets C := Dev.onEng_meets h₁
    exact placeLegs_meets _ _ hC (dropOps_meets _ _ h₂)

theorem nakMessage_meets {C : Claim} (n : Nat) (msn : BitVec 32) (code : Nat) (detail : Nat) (d : Dev)
    (hm : d.Meets C) : (nakMessage n msn code detail d).Meets C := by
  unfold nakMessage
  split
  · exact hm
  · extract_lets +onlyGivenNames m
    exact sendCtl_meets _ _ _ _ _ hm

theorem opFail_meets {C : Claim} (i : Nat) (code : Nat) (detail : Nat) (d : Dev)
    (hC : C.Wide) (hm : d.Meets C) : (opFail i code detail d).Meets C := by
  unfold opFail
  split
  · exact hm
  · extract_lets +onlyGivenNames d₁
    have h₁ : d₁.Meets C := count_meets _ _ _ _ _ (opGone_meets _ _ hC hm)
    clear_value d₁
    split
    · exact endBad_meets _ _ _ _ _ h₁
    · extract_lets +onlyGivenNames d₂
      have h₂ : d₂.Meets C := nakMessage_meets _ _ _ _ _ h₁
      exact Dev.onConn_meets _ _ _ h₂

theorem cutTouch_meets {C : Claim} (o : Op) (d : Dev) (hm : d.Meets C) : (cutTouch o d).Meets C := by
  unfold cutTouch
  refine meets_ite hm ?_
  extract_lets +onlyGivenNames at_ d₁
  have h₁ : d₁.Meets C := touchPlaces_meets _ _ hm
  exact touchPlaces_meets _ _ h₁

theorem cutOp_meets {C : Claim} (i : Nat) (d : Dev) (hC : C.Wide) (hm : d.Meets C) : (cutOp i d).Meets C := by
  unfold cutOp
  split
  · exact hm
  · next o ho =>
    refine meets_ite hm ?_
    extract_lets d₁ b d₂ src opnd dst res d₃
    have h₁ : d₁.Meets C := Dev.onOp_meets _ _ _ hm
    split
    · next w e hw =>
      have hstall := stallOn_meets o.tile o.tenant w (.op i) e d₁ h₁
      split
      · next he => exact Dev.onOp_meets _ _ _ (hm := .of_pair he hstall)
      · next he => exact opFail_meets _ _ _ _ hC (hm := .of_pair he hstall)
      · next he => exact opFail_meets _ _ _ _ hC (hm := .of_pair he hstall)
    · have h₃ : d₃.Meets C := foldl_meets (cutTouch_meets _ _ h₁) fun d x h => lookupRange_meets _ _ _ _ _ _ h
      split
      · exact opFail_meets _ _ _ _ hC h₃
      · exact meets_ite (opFail_meets _ _ _ _ hC h₃) (meets_ite (opFail_meets _ _ _ _ hC h₃) (placeLegs_meets _ _ hC (Dev.onOp_meets _ _ _ h₃)))

/-! ### Operations of TxOps -/

theorem pushPkts_meets {C : Claim} (n : Nat) (t : BitVec 8) (ext : Bytes) (msn : BitVec 32) (total : Nat) (data : Option Bytes)
    (addr : Option Nat) (imm : Bool) (d : Dev) (hm : d.Meets C) : (pushPkts n t ext msn total data addr imm d).Meets C := by
  unfold pushPkts
  exact Dev.onConn_meets _ _ _ hm

theorem rxDone_meets {C : Claim} (n : Nat) (msn : BitVec 32) (d : Dev) (hm : d.Meets C) : (rxDone n msn d).Meets C := by
  unfold rxDone
  exact Dev.onConn_meets _ _ _ hm

theorem messageRead_meets {C : Claim} (n : Nat) (msn : BitVec 32) (d : Dev) (hm : d.Meets C) : (messageRead n msn d).Meets C := by
  unfold messageRead
  split
  · exact hm
  · split
    · exact hm
    · extract_lets +onlyGivenNames got
      clear_value got
      split
      · split
        · exact Dev.onConn_meets _ _ _ (.of_pair (by assumption) (hostRead_meets _ _ _ _ _ _ hm))
      · exact hm

theorem openOne_meets {C : Claim} (n : Nat) (d : Dev) (hm : d.Meets C) : (openOne n d).Meets C := by
  unfold openOne
  split
  · exact hm
  · split
    · exact hm
    · refine meets_ite hm ?_
      extract_lets +onlyGivenNames b data total d₁ d₂
      have h₁ : d₁.Meets C := Dev.onConn_meets _ _ _ hm
      have h₂ : d₂.Meets C := tenCount_meets _ _ _ _ h₁
      exact pushPkts_meets _ _ _ _ _ _ _ _ _ h₂

theorem openMsgs_meets {C : Claim} (n : Nat) (d : Dev) (hm : d.Meets C) : (openMsgs n d).Meets C := by
  unfold openMsgs
  exact iter_meets hm (fun _ h₁ => openOne_meets _ _ h₁)

/-! ### Operations of OpLegs -/

theorem writeRows_meets {C : Claim} (f : Nat → Dev → Except Nat (List (Nat × Nat) × Bytes × NumFlags × RowIn)) (len : Nat) (l : List Nat)
    (out : LegOut)
    (d : Dev) (hm : d.Meets C) : (writeRows f len l out d).2.Meets C := by
  induction l generalizing out d with
  | nil => exact hm
  | cons r rest ih =>
    simp only [writeRows]
    split
    · exact hm
    · split
      · exact hm
      · exact ih _ _ (writePieces_meets _ _ _ hm)

theorem scatterLeg_meets {C : Claim} (d : Dev) (o : Op) (l : Leg) (hm : d.Meets C) : (scatterLeg d o l).2.Meets C := by
  unfold scatterLeg
  extract_lets +onlyGivenNames b ups rows n
  exact writeRows_meets _ _ _ _ _ hm

theorem copyLeg_meets {C : Claim} (d : Dev) (o : Op) (l : Leg) (hm : d.Meets C) : (copyLeg d o l).2.Meets C := by
  unfold copyLeg
  extract_lets +onlyGivenNames b rows
  exact writeRows_meets _ _ _ _ _ hm

theorem legCompute_meets {C : Claim} (d : Dev) (o : Op) (l : Leg) (hm : d.Meets C) : (legCompute d o l).2.Meets C := by
  unfold legCompute
  extract_lets +onlyGivenNames op
  clear_value op
  split
  · exact hm
  · split
    · exact hm
    · split
      · exact hm
      · split
        · exact hm
        · split
          · exact hm
          · split
            · exact scatterLeg_meets _ _ _ hm
            · exact copyLeg_meets _ _ _ hm

/-! ### Operations of ReplOps -/

theorem applyWrite_meets {C : Claim} (u : Nat) (w : TableWrite) (d : Dev) (hm : d.Meets C) : (applyWrite u w d).Meets C := by
  unfold applyWrite
  extract_lets +onlyGivenNames view
  have h₄ : ∀ a₁ a₂ a₃, Dev.Meets C (view a₁ a₂ a₃) := fun _ _ _ => Dev.onXlt_meets hm
  clear_value view
  split
  · exact h₄ _ _ _
  · exact h₄ _ _ _
  · exact h₄ _ _ _
  · exact Dev.onNet_meets hm
  · exact Dev.onNet_meets hm
  · exact Dev.onTens_meets hm

theorem replSettle_meets {C : Claim} (d : Dev) (hC : C.Wide) (hm : d.Meets C) : (replSettle d).Meets C := by
  unfold replSettle
  extract_lets +onlyGivenNames l d₁
  have h₁ : d₁.Meets C := Dev.onCtl_wide hC hm rfl rfl rfl
  clear_value l d₁
  refine foldl_meets h₁ (fun _ _ h₃ => ?_)
  split
  · exact answerIf_meets _ _ _ _ _ hC h₃
  · exact h₃

theorem replSend_meets {C : Claim} (ws : List TableWrite) (reply : Option ReplyDue) (d : Dev)
    (hC : C.Wide) (hm : d.Meets C) : (replSend ws reply d).Meets C := by
  unfold replSend
  extract_lets +onlyGivenNames l
  exact replSettle_meets _ hC (Dev.onCtl_wide hC hm rfl rfl rfl)

theorem replFinish_meets {C : Claim} (c : CmdSlot) (op : Nat) (st : Nat) (res : Option (Nat × Bytes)) (ws : List TableWrite) (d : Dev)
    (hC : C.Wide) (hm : d.Meets C) : (replFinish c op st res ws d).Meets C := by
  unfold replFinish
  exact replSend_meets _ _ _ hC (onCmd_meets _ _ _ hC hm)

theorem freeWindows_meets {C : Claim} (p : Nat → Window → Bool) (reply : Option ReplyDue) (d : Dev)
    (hC : C.Wide) (hm : d.Meets C) : (freeWindows p reply d).Meets C := by
  unfold freeWindows
  extract_lets +onlyGivenNames ws
  exact replSend_meets _ _ _ hC (Dev.onXlt_meets hm)

theorem replAck_meets {C : Claim} (u : Nat) (w : TableWrite) (d : Dev) (hC : C.Wide) (hm : d.Meets C) : (replAck u w d).Meets C := by
  unfold replAck
  exact replSettle_meets _ hC (Dev.onCtl_wide hC hm rfl rfl rfl)

theorem replForget_meets {C : Claim} (u : Nat) (d : Dev) (hC : C.Wide) (hm : d.Meets C) : (replForget u d).Meets C := by
  unfold replForget
  exact replSettle_meets _ hC (Dev.onCtl_wide hC hm rfl rfl rfl)

theorem tableWrite_meets {C : Claim} (u : Nat) (epoch : BitVec 32) (w : TableWrite) (d : Dev)
    (hC : C.Wide) (hm : d.Meets C) : (tableWrite u epoch w d).Meets C := by
  unfold tableWrite
  refine meets_ite hm ?_
  extract_lets +onlyGivenNames e df
  exact meets_ite (emit_meets _ _ (Dev.onFab_wide hC hm)) (meets_ite hm (replAck_meets _ _ _ hC (applyWrite_meets _ _ _ (Dev.onFab_wide hC hm))))

theorem replCarry_meets {C : Claim} (d : Dev) (hC : C.Wide) (hm : d.Meets C) : (replCarry d).Meets C := by
  unfold replCarry
  extract_lets +onlyGivenNames l
  exact foldl_meets (Dev.onCtl_wide hC hm rfl rfl rfl) (fun _ _ h₂ => tableWrite_meets _ _ _ _ hC h₂)

theorem copyTables_meets {C : Claim} (u : Nat) (d : Dev) (hm : d.Meets C) : (copyTables u d).Meets C := by
  unfold copyTables
  extract_lets +onlyGivenNames d₁ d₂
  have h₁ : d₁.Meets C := Dev.onNet_meets hm
  have h₂ : d₂.Meets C := Dev.onTens_meets h₁
  exact Dev.onFab_meets h₂ rfl

/-! ### Operations of Cipher -/

theorem powered_meets {C : Claim} (f : Dev → Dev) (hf : ∀ a₀, a₀.Meets C → (f a₀).Meets C) (d : Dev) (hm : d.Meets C) : (powered f d).Meets C := by
  unfold powered
  exact meets_ite (hf _ hm) hm

theorem haspMisuse_meets {C : Claim} (a : Agent) (d : Dev) (hm : d.Meets C) : (haspMisuse a d).Meets C := by
  unfold haspMisuse
  split
  · exact count_meets _ _ _ _ _ hm
  · exact hm

theorem zeroPieces_meets {C : Claim} (l : List (Nat × Nat)) (d : Dev) (hm : d.Meets C) : (zeroPieces l d).Meets C := by
  unfold zeroPieces
  exact writePieces_meets _ _ _ hm

theorem failJob_meets {C : Claim} (i : Nat) (st : Nat) (detail : Nat) (d : Dev) (hm : d.Meets C) : (failJob i st detail d).Meets C := by
  unfold failJob
  split
  · exact hm
  · extract_lets +onlyGivenNames d₁ d₂
    have h₁ : d₁.Meets C := zeroPieces_meets _ _ hm
    have h₂ : d₂.Meets C := meets_ite (zeroPieces_meets _ _ h₁) h₁
    exact Dev.onCiph_meets h₂ rfl rfl

theorem jobRelease1_meets {C : Claim} (d : Dev) (hm : d.Meets C) : (jobRelease1 d).Meets C := by
  unfold jobRelease1
  split
  · exact hm
  · split
    · exact hm
    · extract_lets +onlyGivenNames s addr b next
      have h₃ : ∀ a₁, Dev.Meets C a₁ → Dev.Meets C (next a₁) := fun _ h₂ => Dev.onCiph_meets h₂ rfl rfl
      clear_value s addr b next
      split
      · exact meets_ite (msix_meets _ _ _ (h₃ _ (hostWrite_meets _ _ _ _ _ hm))) (meets_ite hm (heldNote_meets _ _ _ hm))
      · exact h₃ _ (emit_meets _ _ hm)
      · exact h₃ _ hm

theorem jobRelease_meets {C : Claim} (d : Dev) (hm : d.Meets C) : (jobRelease d).Meets C := by
  unfold jobRelease
  exact iter_meets hm (fun _ h₁ => jobRelease1_meets _ h₁)

theorem failJobs_meets {C : Claim} (p : Job → Bool) (st : Nat) (detail : Nat) (d : Dev) (hm : d.Meets C) : (failJobs p st detail d).Meets C := by
  unfold failJobs
  exact jobRelease_meets _ (foldl_meets hm (fun _ _ h₁ => failJob_meets _ _ _ _ h₁))

theorem latchSet_meets {C : Claim} (a : Option Agent) (token : BitVec 16) (d : Dev)
    (hC : C.Wide) (hm : d.Meets C) : (latchSet a token d).Meets C := by
  unfold latchSet
  exact Dev.onCiph_wide hC hm

theorem latchDrop_meets {C : Claim} (d : Dev) (hC : C.Wide) (hm : d.Meets C) : (latchDrop d).Meets C := by
  unfold latchDrop
  extract_lets +onlyGivenNames d₁
  have h₁ : d₁.Meets C := foldl_meets hm (fun _ _ h₂ => failJob_meets _ _ _ _ h₂)
  exact latchSet_meets _ _ _ hC (Dev.onCiph_wide hC h₁)

theorem latchDropOf_meets {C : Claim} (a : Agent) (d : Dev) (hC : C.Wide) (hm : d.Meets C) : (latchDropOf a d).Meets C := by
  unfold latchDropOf
  exact meets_ite (latchDrop_meets _ hC hm) hm

theorem devLatchAcquire_meets {C : Claim} (a : Agent) (token : BitVec 16) (d : Dev)
    (hC : C.Wide) (hm : d.Meets C) : (devLatchAcquire a token d).Meets C := by
  unfold devLatchAcquire
  exact meets_ite (haspMisuse_meets _ _ hm) (meets_ite hm (meets_ite (latchSet_meets _ _ _ hC hm) hm))

theorem devLatchRelease_meets {C : Claim} (a : Agent) (token : BitVec 16) (d : Dev)
    (hC : C.Wide) (hm : d.Meets C) : (devLatchRelease a token d).Meets C := by
  unfold devLatchRelease
  exact meets_ite (haspMisuse_meets _ _ hm) (latchSet_meets _ _ _ hC hm)

theorem latchDenied_meets {C : Claim} (a : Agent) (d : Dev) (hm : d.Meets C) : (latchDenied a d).Meets C := by
  unfold latchDenied
  extract_lets +onlyGivenNames d₁
  have h₁ : d₁.Meets C := haspMisuse_meets _ _ hm
  clear_value d₁
  split
  · exact logFirst60_meets _ _ _ _ _ _ _ h₁
  · exact h₁

theorem devCiphJobEnable_meets {C : Claim} (a : Agent) (v : BitVec 32) (d : Dev)
    (hC : C.Wide) (hm : d.Meets C) : (devCiphJobEnable a v d).Meets C := by
  unfold devCiphJobEnable
  exact meets_ite (latchDenied_meets _ _ hm) (Dev.onCiph_wide hC hm)

theorem devCiphJobDisable_meets {C : Claim} (a : Agent) (v : BitVec 32) (d : Dev) (hm : d.Meets C) : (devCiphJobDisable a v d).Meets C := by
  unfold devCiphJobDisable
  exact meets_ite (latchDenied_meets _ _ hm) (Dev.onCiph_meets hm rfl rfl)

theorem devCiphJobProdWrite_meets {C : Claim} (a : Agent) (v : BitVec 32) (d : Dev)
    (hC : C.Wide) (hm : d.Meets C) : (devCiphJobProdWrite a v d).Meets C := by
  unfold devCiphJobProdWrite
  exact meets_ite (latchDenied_meets _ _ hm) (Dev.onCiph_wide hC hm)

theorem jobTake_meets {C : Claim} (n : Nat) (b : Bytes) (d : Dev) (hm : d.Meets C) : (jobTake n b d).Meets C := by
  unfold jobTake
  extract_lets +onlyGivenNames c s i push
  have h₄ : ∀ a₁ a₂, Dev.Meets C a₂ → Dev.Meets C (push a₁ a₂) := fun _ _ h₃ => Dev.onCiph_meets h₃ rfl rfl
  clear_value c s i push
  refine meets_ite (meets_ite (Dev.onCiph_meets hm rfl rfl) (jobRelease_meets _ (h₄ _ _ hm))) ?_
  split
  · exact jobRelease_meets _ (h₄ _ _ hm)
  · extract_lets +onlyGivenNames t gcm
    exact dealJobs_meets _ (h₄ _ _ hm)

theorem devCipherJobBegin_meets {C : Claim} (entry : Bytes) (d : Dev) (hm : d.Meets C) : (devCipherJobBegin entry d).Meets C := by
  unfold devCipherJobBegin
  exact meets_ite (jobTake_meets _ _ _ hm) hm

theorem finishJob_meets {C : Claim} (j : Job) (d : Dev) (hm : d.Meets C) : (finishJob j d).Meets C := by
  unfold finishJob
  extract_lets d₁ tag
  have h₁ : d₁.Meets C := touchPlaces_meets _ _ hm
  clear_value tag
  split
  · split
    · exact failJob_meets _ _ _ _ h₁
    · refine meets_ite (failJob_meets _ _ _ _ h₁) ?_
      split
      next out newTag ok hdata =>
        refine meets_ite (failJob_meets _ _ _ _ (count_meets _ _ _ _ _ h₁)) ?_
        have h₂ := writePieces_meets j.dst out d₁ h₁
        have h₃ : (if jobOp j = 1 then writePieces j.tag newTag (writePieces j.dst out d₁) else writePieces j.dst out d₁).Meets C :=
          meets_ite (writePieces_meets _ _ _ h₂) h₂
        exact Dev.onCiph_meets (foldl_meets (count_meets _ _ _ _ _ h₃) fun d x h => count_meets _ _ _ _ _ h) rfl rfl
  · exact failJob_meets _ _ _ _ h₁

theorem devCipherJobDone_meets {C : Claim} (i : Nat) (how : JobEnd) (d : Dev) (hm : d.Meets C) : (devCipherJobDone i how d).Meets C := by
  unfold devCipherJobDone
  split
  · exact hm
  · refine jobRelease_meets _ ?_
    split
    · exact meets_ite (finishJob_meets _ _ hm) hm
    · exact failJob_meets _ _ _ _ hm
    · exact failJob_meets _ _ _ _ hm
    · exact failJob_meets _ _ _ _ hm

theorem dropTombKey_meets {C : Claim} (k : Nat) (d : Dev) (hm : d.Meets C) : (dropTombKey k d).Meets C := by
  unfold dropTombKey
  exact Dev.onQ_meets hm

theorem devKeyLoad_meets {C : Claim} (c : CmdSlot) (d : Dev) (hC : C.Wide) (hm : d.Meets C) : (devKeyLoad c d).Meets C := by
  unfold devKeyLoad
  refine runChk_meets _ _ _ _ (fun _ _ h₁ => ?_) _ hC hm
  extract_lets +onlyGivenNames k use peer kek twin
  clear_value k use peer kek twin
  refine meets_ite (finish_meets _ _ _ hC h₁) (meets_ite (finish_meets _ _ _ hC h₁) ?_)
  extract_lets +onlyGivenNames key
  clear_value key
  split
  · exact finish_meets _ _ _ hC h₁
  · refine meets_ite (finishAt_meets _ _ _ _ hC h₁) ?_
    extract_lets +onlyGivenNames had s
    exact finish_meets _ _ _ hC (dropTombKey_meets _ _ (Dev.onCiph_wide hC h₁))

theorem keyLost_meets {C : Claim} (n : Nat) (d : Dev) (hm : d.Meets C) : (keyLost n d).Meets C := by
  unfold keyLost
  split
  · exact hm
  · extract_lets +onlyGivenNames d₁
    have h₁ : d₁.Meets C := by
      dsimp -zeta -iota -proj only [d₁]
      split
      · exact endBad_meets _ _ _ _ _ hm
      · exact toFlush_meets _ _ _ _ hm
    exact dropKeys_meets _ _ (Dev.onConn_meets _ _ _ h₁)

theorem dropSlotKeys_meets {C : Claim} (k : Nat) (d : Dev) (hm : d.Meets C) : (dropSlotKeys k d).Meets C := by
  unfold dropSlotKeys
  extract_lets +onlyGivenNames drop mine
  exact Dev.onQ_meets (dropKeys_meets _ _ hm)

theorem devKeyErase_meets {C : Claim} (c : CmdSlot) (d : Dev) (hC : C.Wide) (hm : d.Meets C) : (devKeyErase c d).Meets C := by
  unfold devKeyErase
  refine runChk_meets _ _ _ _ (fun _ _ h₁ => ?_) _ hC hm
  extract_lets +onlyGivenNames k
  clear_value k
  refine meets_ite (finish_meets _ _ _ hC h₁) ?_
  extract_lets +onlyGivenNames d₂ d₃
  have h₂ : d₂.Meets C := failJobs_meets _ _ _ _ h₁
  have h₃ : d₃.Meets C := foldl_meets h₂ (fun _ _ h₄ => keyLost_meets _ _ h₄)
  exact finish_meets _ _ _ hC (dropTombKey_meets _ _ (Dev.onCiph_wide hC (dropSlotKeys_meets _ _ h₃)))

theorem devDrbgReseed_meets {C : Claim} (n : Nat) (ok : Bool) (d : Dev) (hm : d.Meets C) : (devDrbgReseed n ok d).Meets C := by
  unfold devDrbgReseed
  refine meets_ite hm (meets_ite (Dev.onCiph_meets hm rfl rfl) ?_)
  extract_lets +onlyGivenNames f d₁
  have h₁ : d₁.Meets C := Dev.onCiph_meets hm rfl rfl
  exact meets_ite h₁ (logIt_meets _ _ _ _ _ _ (Dev.onCiph_meets h₁ rfl rfl))

theorem devDrbgStop_meets {C : Claim} (n : Nat) (d : Dev) (hm : d.Meets C) : (devDrbgStop n d).Meets C := by
  unfold devDrbgStop
  exact meets_ite (Dev.onCiph_meets hm rfl rfl) hm

theorem devIdentityGet_meets {C : Claim} (c : CmdSlot) (d : Dev) (hC : C.Wide) (hm : d.Meets C) : (devIdentityGet c d).Meets C := by
  unfold devIdentityGet
  refine runChk_meets _ _ _ _ (fun _ _ h₁ => ?_) _ hC hm
  extract_lets +onlyGivenNames chain r
  exact finishRes_meets _ _ _ _ _ hC h₁

/-! ### Operations of HostOps -/

theorem violate_meets {C : Claim} (p : Side) (src : Nat) (esc : Bool) (d : Dev) (hm : d.Meets C) : (violate p src esc d).Meets C := by
  unfold violate
  extract_lets +onlyGivenNames d₁
  have h₁ : d₁.Meets C := count_meets _ _ _ _ _ hm
  clear_value d₁
  refine meets_ite h₁ ?_
  extract_lets +onlyGivenNames l
  clear_value l
  refine meets_ite (Dev.onHost_meets h₁ rfl) ?_
  extract_lets +onlyGivenNames d₂
  have h₂ : d₂.Meets C := Dev.onHost_meets h₁ rfl
  exact signalBoth_meets _ _ (logIt_meets _ _ _ _ _ _ h₂)

theorem hostWrongPort_meets {C : Claim} (p : Side) (d : Dev) (hm : d.Meets C) : (hostWrongPort p d).Meets C := by
  unfold hostWrongPort
  exact violate_meets _ _ _ _ hm

theorem badAccess_meets {C : Claim} (p : Side) (d : Dev) (hm : d.Meets C) : (badAccess p d).Meets C := by
  unfold badAccess
  exact violate_meets _ _ _ _ (aerLog_meets _ _ _ hm)

theorem wakeDev_meets {C : Claim} (d : Dev) (hC : C.Wide) (hm : d.Meets C) : (wakeDev d).Meets C := by
  unfold wakeDev
  exact meets_ite (Dev.onPwr_wide hC hm rfl rfl rfl rfl rfl) hm

theorem bivAbort_meets {C : Claim} (d : Dev) (hC : C.Wide) (hm : d.Meets C) : (bivAbort d).Meets C := by
  unfold bivAbort
  refine meets_ite hm ?_
  extract_lets +onlyGivenNames c d₁
  have h₁ : d₁.Meets C := Dev.onPwr_wide hC hm rfl rfl rfl rfl rfl
  clear_value c d₁
  split
  · exact answerIf_meets _ _ _ _ _ hC h₁
  · exact h₁

theorem internalEnd_meets {C : Claim} (c : CmdSlot) (op : Nat) (d : Dev) (hC : C.Wide) (hm : d.Meets C) : (internalEnd c op d).Meets C := by
  unfold internalEnd
  split
  · exact answerIf_meets _ _ _ _ _ hC (logIt_meets _ _ _ _ _ _ (.of_pair (by assumption) (takeFree_meets _ hm)))

theorem travLost_meets {C : Claim} (s : Side) (d : Dev) (hC : C.Wide) (hm : d.Meets C) : (travLost s d).Meets C := by
  unfold travLost
  refine meets_ite hm ?_
  extract_lets +onlyGivenNames cand c d₁
  have h₁ : d₁.Meets C := Dev.onSvc_meets hm rfl
  clear_value c d₁
  split
  · exact internalEnd_meets _ _ _ hC h₁
  · exact h₁

theorem setHolder_plain {C : Claim} (n : Nat) (a : Option Agent) (token : BitVec 16) (d : Dev) (hC : C.Plain) (hm : d.Meets C) :
    (setHolder n a token d).Meets C := by
  unfold setHolder
  exact meets_ite (epochCast_meets _ (Dev.onHasp_plain _ _ _ hC hm)) (Dev.onHasp_plain _ _ _ hC hm)

theorem setHolder_inv {C : Claim} {n : Nat} (a : Option Agent) (token : BitVec 16) (d : Dev) (hC : C.Inv) (hn : n ≠ 0) (hm : d.Meets C) :
    (setHolder n a token d).Meets C := by
  unfold setHolder
  rw [if_neg hn]
  exact Dev.onHasp_inv _ _ hC hn hm

/-! ### Hasp 0 changes hands -/

/-- The Hasps once Hasp 0 has a holder, or nobody, under a token. -/
def seatHasps (a : Option Agent) (t : BitVec 16) (l : List Hasp) : List Hasp := modAt l 0 fun h => { epoch := h.epoch + 1#32, token := t, holder := a }

theorem setHolder_zero_ctl (a : Option Agent) (t : BitVec 16) (d : Dev) :
    (setHolder 0 a t d).ctl.dies = d.ctl.dies ∧ (setHolder 0 a t d).ctl.hasps = seatHasps a t d.ctl.hasps := by
  have hcast (e : Dev) : (epochCast e).Meets (.same e) := epochCast_meets _ ⟨rfl, rfl, rfl, rfl, rfl, rfl, rfl, rfl⟩
  rw [setHolder, if_pos rfl]
  obtain ⟨-, -, -, -, -, hdies, hhasps, -⟩ := hcast (d.onHasp 0 fun h => { epoch := h.epoch + 1#32, token := t, holder := a })
  exact ⟨hdies, hhasps⟩

section
variable {e : Dev} {l : List Hasp} {t : BitVec 16}

theorem seatHasps_holder {a : Option Agent} (hlen : l.length = 64) (hh : e.ctl.hasps = seatHasps a t l) : (e.hasp 0).holder = a := by
  have hzero : nth (seatHasps a t l) 0 {} = { epoch := (nth l 0 {}).epoch + 1#32, token := t, holder := a } :=
    nth_modAt_self _ 0 _ _ (by rw [hlen]; decide)
  rw [Dev.hasp, hh, hzero]

/-- A die that has taken Hasp 0 while the other does not lead. -/
theorem leadSound_seated {s : Side} (hlen : l.length = 64) (hh : e.ctl.hasps = seatHasps (some (.die s)) t l)
    (hother : e.ctl.dies.get s.other ≠ .leader) : e.LeadSound := by
  have hholder := seatHasps_holder hlen hh
  refine ⟨by rw [hh]; exact (modAt_length ..).trans hlen, fun k hk => ?_, fun p => by rw [hholder]; exact nofun⟩
  have hs : k = s := by
    cases k <;> cases s <;> first | rfl | exact absurd hk hother
  rw [hholder, hs]

/-- Die s leads once it has taken Hasp 0 while the other die does not lead. -/
theorem leadSound_leads {d e : Dev} {s : Side} (hlen : d.ctl.hasps.length = 64) (hdies : e.ctl.dies = d.ctl.dies)
    (hhasps : e.ctl.hasps = seatHasps (some (.die s)) t d.ctl.hasps) (hother : d.ctl.dies.get s.other ≠ .leader) :
    (e.onCtl fun c => { c with dies := c.dies.set s .leader, lease := 1000 }).LeadSound := by
  have hget (p : Pair DieState) : (p.set s .leader).get s.other = p.get s.other := by cases s <;> rfl
  refine leadSound_seated hlen hhasps ?_
  change (e.ctl.dies.set s .leader).get s.other ≠ .leader
  rwa [hget, hdies]

/-- Hasp 0 is free and no die leads. -/
theorem leadSound_unseated (hlen : l.length = 64) (hh : e.ctl.hasps = seatHasps none t l) (hnone : ∀ k, e.ctl.dies.get k ≠ .leader) : e.LeadSound :=
  ⟨by rw [hh]; exact (modAt_length ..).trans hlen, fun k hk => absurd hk (hnone k), fun p => by rw [seatHasps_holder hlen hh]; exact nofun⟩

theorem leadSound_freed {f : Ctl → Ctl} (hlen : l.length = 64) (hhasps : e.ctl.hasps = seatHasps none t l) (hf : ∀ c, (f c).hasps = c.hasps)
    (hnone : ∀ k, (f e.ctl).dies.get k ≠ .leader) : (e.onCtl f).LeadSound :=
  leadSound_unseated hlen ((hf _).trans hhasps) hnone

/-- Where another agent than a die, or nobody, holds Hasp 0, that die does not lead. -/
theorem Dev.LeadSound.not_leads {d : Dev} (h : d.LeadSound) {k : Side} (hk : (d.hasp 0).holder ≠ some (.die k)) : d.ctl.dies.get k ≠ .leader := by
  obtain ⟨-, hlead, -⟩ := h
  exact fun hleads => hk (hlead k hleads)

end

theorem setHolder_meets {C : Claim} (n : Nat) (a : Option Agent) (token : BitVec 16) (d : Dev) (hC : C.Wide) (hn : n ≠ 0)
    (ha : ∀ p, a ≠ some (.port p)) (hm : d.Meets C) : (setHolder n a token d).Meets C := by
  unfold setHolder
  rw [if_neg hn]
  exact Dev.onHasp_meets _ _ _ hC hn (fun p _ => ha p) hm

theorem releaseAll_meets {C : Claim} (a : Agent) (d : Dev) (hC : C.Wide) (hm : d.Meets C) : (releaseAll a d).Meets C := by
  have hfold (l : List Nat) (hl : ∀ n ∈ l, n ≠ 0) (d : Dev) (hm : d.Meets C) : (l.foldl (fun d n => setHolder n none 0#16 d) d).Meets C := by
    induction l generalizing d with
    | nil => exact hm
    | cons n l ih => exact ih (fun k hk => hl k (List.mem_cons_of_mem _ hk)) _ (setHolder_meets _ _ _ _ hC (hl n (by simp)) nofun hm)
  unfold releaseAll
  extract_lets mine d₁ d₂
  have h₂ : d₂.Meets C := latchDropOf_meets _ _ hC (hfold mine (fun n hn => by simp_all [mine]) d hm)
  split
  · exact meets_ite h₂ (raiseIbi_meets _ _ (msix_meets _ _ _ h₂))
  · exact h₂

theorem leaderChanged_meets {C : Claim} (who : Nat) (d : Dev) (hm : d.Meets C) : (leaderChanged who d).Meets C := by
  unfold leaderChanged
  exact signalBoth_meets _ _ (count_meets _ _ _ _ _ (logIt_meets _ _ _ _ _ _ hm))

theorem undoCreation_meets {C : Claim} (m : Cmd) (d : Dev) (hC : C.Wide) (hm : d.Meets C) : (undoCreation m d).Meets C := by
  unfold undoCreation
  exact meets_ite hm (meets_ite (foldl_meets hm (fun _ _ h₁ => Dev.onMem_meets h₁ rfl)) (meets_ite (freeWindows_meets _ _ _ hC hm) (meets_ite
        (foldl_meets hm (fun _ _ h₂ => replSend_meets _ _ _ hC (Dev.onTens_meets h₂))) hm)))

theorem disownCmds_meets {C : Claim} (d : Dev) (hC : C.Wide) (hm : d.Meets C) : (disownCmds d).Meets C := by
  unfold disownCmds
  extract_lets +onlyGivenNames cause d₁ d₂ d₃ d₄ d₅
  have h₁ : d₁.Meets C := Dev.onXlt_meets hm
  have h₂ : d₂.Meets C := Dev.onTens_meets h₁
  have h₃ : d₃.Meets C := Dev.onNet_meets h₂
  have h₄ : d₄.Meets C := Dev.onRopes_meets h₃
  have h₅ : d₅.Meets C := Dev.onSvc_meets h₄ rfl
  exact Dev.onPwr_wide hC h₅ rfl rfl rfl rfl rfl

theorem handedOver_sound {d : Dev} (s : Side) (hlen : d.ctl.hasps.length = 64) :
    ((setHolder 0 (some (.die s.other)) 1#16 (d.onCtl fun c => { c with dies := c.dies.set s .follower })).onCtl fun c =>
      { c with dies := c.dies.set s.other .leader, lease := 1000 }).LeadSound := by
  set x := d.onCtl fun c => { c with dies := c.dies.set s .follower } with hx
  have hlenx : x.ctl.hasps.length = 64 := by rw [hx]; exact hlen
  have hother : x.ctl.dies.get s.other.other ≠ .leader := by
    rw [hx]
    exact fun hs => by cases s <;> cases hs
  clear_value x
  obtain ⟨hdies, hhasps⟩ := setHolder_zero_ctl (some (.die s.other)) 1#16 x
  exact leadSound_leads hlenx hdies hhasps hother

theorem handOver_meets {C : Claim} (d : Dev) (hC : C.Inv) (hm : d.Meets C) : (handOver d).Meets C := by
  unfold handOver
  split
  · exact hm
  · next s _ =>
    extract_lets +onlyGivenNames d₁ d₂ d₃
    refine leaderChanged_meets _ _ (.or_lead hC (fun hp => ?_) fun hc => ?_)
    · have h₁ : d₁.Meets C := setHolder_plain _ _ _ _ hp hm
      have h₂ : d₂.Meets C := Dev.onCtl_plain hp h₁
      exact Dev.onCtl_plain hp (setHolder_plain _ _ _ _ hp h₂)
    · obtain ⟨hlen, -⟩ := hm.leadSound hc
      obtain ⟨-, hfreed⟩ := setHolder_zero_ctl none 0#16 d
      have hlen₁ : d₁.ctl.hasps.length = 64 := by
        dsimp only [d₁]
        rw [hfreed]
        exact (modAt_length ..).trans hlen
      exact handedOver_sound s hlen₁

end Sys2Proof.Machine
end

section
/-! SUPPORT. Claims that operations keep: memory and translation. -/

namespace Sys2Proof.Machine

/-! ### Operations of Memory -/

theorem releaseAlloc_meets {C : Claim} (h : Nat) (d : Dev) (hm : d.Meets C) : (releaseAlloc h d).Meets C := by
  unfold releaseAlloc
  split
  · exact hm
  · extract_lets +onlyGivenNames d₁
    have h₁ : d₁.Meets C := by
      dsimp -zeta -iota -proj only [d₁]
      refine foldl_meets hm (fun _ _ h₃ => ?_)
      extract_lets +onlyGivenNames k
      exact meets_ite (Dev.onStk_meets _ _ _ h₃) h₃
    exact Dev.onMem_meets h₁ rfl

theorem devMemAlloc_meets {C : Claim} (c : CmdSlot) (d : Dev) (hC : C.Wide) (hm : d.Meets C) : (devMemAlloc c d).Meets C := by
  unfold devMemAlloc
  refine runChk_meets _ _ _ _ (fun _ _ h₁ => ?_) _ hC hm
  extract_lets +onlyGivenNames n
  clear_value n
  refine withTenant_meets _ _ _ _ (fun _ _ h₃ => ?_) _ hC h₁
  extract_lets +onlyGivenNames units
  clear_value units
  refine meets_ite (quotaHit_meets _ _ _ _ hC h₃) ?_
  split
  · exact finish_meets _ _ _ hC h₃
  · refine meets_ite (finishAt_meets _ _ _ _ hC h₃) ?_
    extract_lets +onlyGivenNames x d₄
    have h₄ : d₄.Meets C := Dev.onMem_meets h₃ rfl
    exact leave_meets _ _ _ hC (foldl_meets h₄ (fun _ _ h₆ => wakeStack_meets _ _ h₆))

theorem devZeroingDone_meets {C : Claim} (h : Nat) (d : Dev) (hC : C.Wide) (hm : d.Meets C) : (devZeroingDone h d).Meets C := by
  unfold devZeroingDone
  split
  · exact hm
  · refine meets_ite hm ?_
    extract_lets d₁ d₂
    have h₂ : d₂.Meets C := Dev.onMem_meets (foldl_meets hm fun d x h => count_meets _ _ _ _ _ (memZero_meets (touchStack_meets _ _ h))) rfl
    split
    · exact h₂
    · split <;> [exact answerIf_meets _ _ _ _ _ hC h₂; exact h₂]

theorem devMemFree_meets {C : Claim} (c : CmdSlot) (d : Dev) (hC : C.Wide) (hm : d.Meets C) : (devMemFree c d).Meets C := by
  unfold devMemFree
  refine runChk_meets _ _ _ _ (fun _ _ h₁ => withTenant_meets _ _ _ _ (fun _ _ h₂ => ?_) _ hC h₁) _ hC hm
  extract_lets +onlyGivenNames x
  clear_value x
  split
  · exact finishAt_meets _ _ _ _ hC h₂
  · exact meets_ite (finishAt_meets _ _ _ _ hC h₂) (meets_ite (finishAt_meets _ _ _ _ hC h₂) (meets_ite (finish_meets _ _ _ hC h₂)
        (finish_meets _ _ _ hC (releaseAlloc_meets _ _ h₂))))

theorem tableLost_meets {C : Claim} (t : Nat) (spans : List (Nat × Nat)) (d : Dev) (hm : d.Meets C) : (tableLost t spans d).Meets C := by
  unfold tableLost
  extract_lets +onlyGivenNames l
  clear_value l
  split
  · exact hm
  · exact postEvent_meets _ _ _ _ _ _ (onTab_meets _ _ _ hm)

theorem tableUe_meets {C : Claim} (unit : Nat) (cws : List Nat) (d : Dev) (hm : d.Meets C) : (tableUe unit cws d).Meets C := by
  unfold tableUe
  refine foldl_meets hm (fun _ _ h₁ => ?_)
  split
  · refine foldl_meets h₁ (fun _ _ h₂ => ?_)
    split
    · refine meets_ite h₂ ?_
      extract_lets +onlyGivenNames side gone bad put
      exact tableLost_meets _ _ _ (onTab_meets _ _ _ h₂)

theorem copiesLost_meets {C : Claim} (k : Nat) (t : Nat) (side : Side) (d : Dev) (hm : d.Meets C) : (copiesLost k t side d).1.Meets C := by
  unfold copiesLost
  refine foldl_meets_fst hm (fun _ _ h₁ => ?_)
  split
  · split
    · extract_lets +onlyGivenNames mine
      clear_value mine
      split
      · exact h₁
      · extract_lets +onlyGivenNames x other d₂
        have h₆ : ∀ a₃ a₄, Dev.Meets C a₄ → Dev.Meets C (x a₃ a₄) := fun _ _ h₅ => onTab_meets _ _ _ h₅
        have h₂ : d₂.Meets C := h₆ _ _ h₁
        clear_value x other d₂
        split
        · exact h₂
        · extract_lets +onlyGivenNames d₇ d₈
          have h₇ : d₇.Meets C := onTab_meets _ _ _ h₂
          clear_value d₇
          have h₈ : d₈.Meets C := by
            dsimp -zeta -iota -proj only [d₈]
            split
            · exact h₆ _ _ h₇
            · exact logIt_meets _ _ _ _ _ _ h₇
          exact h₈

theorem tableStackLost_meets {C : Claim} (k : Nat) (d : Dev) (hm : d.Meets C) : (tableStackLost k d).Meets C := by
  unfold tableStackLost
  refine foldl_meets hm (fun _ _ h₁ => ?_)
  split
  · split
    · exact tableLost_meets _ _ _ (.of_pair_left (by assumption) (copiesLost_meets _ _ _ _ h₁))

theorem reserveFull_meets {C : Claim} (k : Nat) (d : Dev) (hm : d.Meets C) : (reserveFull k d).Meets C := by
  unfold reserveFull
  exact meets_ite (logIt_meets _ _ _ _ _ _ (Dev.onStk_meets _ _ _ hm)) hm

theorem retireGroup_meets {C : Claim} (k : Nat) (g : Nat) (cause : RetireCause) (d : Dev) (hm : d.Meets C) : (retireGroup k g cause d).Meets C := by
  unfold retireGroup
  extract_lets +onlyGivenNames s dpa
  clear_value s dpa
  refine meets_ite hm ?_
  split
  · exact Dev.onStk_meets _ _ _ hm
  · extract_lets +onlyGivenNames rec_ own d₁ d₂ d₃ d₄
    have h₁ : d₁.Meets C := memPoison_meets _ _ _ hm
    have h₂ : d₂.Meets C := Dev.onStk_meets _ _ _ h₁
    have h₃ : d₃.Meets C := storeWrite_meets _ _ h₂
    have h₄ : d₄.Meets C := count_meets _ _ _ _ _ (logIt_meets _ _ _ _ _ _ h₃)
    clear_value rec_ own d₁ d₂ d₃ d₄
    split
    · exact postEvent_meets _ _ _ _ _ _ h₄
    · exact tableUe_meets _ _ _ h₄

theorem devTableCopyRebuilt_meets {C : Claim} (tenant : Nat) (extent : Nat) (d : Dev)
    (hm : d.Meets C) : (devTableCopyRebuilt tenant extent d).Meets C := by
  unfold devTableCopyRebuilt
  split
  · exact hm
  · extract_lets +onlyGivenNames wipe fresh
    have h₅ : ∀ a₁ a₂, Dev.Meets C a₂ → Dev.Meets C (wipe a₁ a₂) := by
      intro _ _ h₃
      dsimp -zeta -iota -proj only [wipe]
      split
      · exact foldl_meets h₃ (fun _ _ h₄ => memZero_meets h₄)
      · exact h₃
    exact onTab_meets _ _ _ (h₅ _ _ (h₅ _ _ hm))

theorem accFail_meets {C : Claim} (who : Requester) (code : Nat) (detail : Nat) (d : Dev)
    (hC : C.Wide) (hm : d.Meets C) : (accFail who code detail d).Meets C := by
  unfold accFail
  split
  · exact Dev.onQ_meets hm
  · exact opFail_meets _ _ _ _ hC hm
  · exact ropeAbortLocal_meets _ _ _ hm
  · exact hm

theorem zeroingLost_meets {C : Claim} (k : Nat) (d : Dev) (hC : C.Wide) (hm : d.Meets C) : (zeroingLost k d).Meets C := by
  unfold zeroingLost
  refine foldl_meets hm (fun _ _ h₁ => ?_)
  split
  · refine meets_ite ?_ h₁
    extract_lets +onlyGivenNames slot d₂
    have h₂ : d₂.Meets C := releaseAlloc_meets _ _ h₁
    clear_value slot d₂
    split
    · exact answerIf_meets _ _ _ _ _ hC h₂
    · exact h₂

theorem stackLost_meets {C : Claim} (k : Nat) (cause : Nat) (d : Dev) (hC : C.Wide) (hm : d.Meets C) : (stackLost k cause d).Meets C := by
  unfold stackLost
  extract_lets +onlyGivenNames s
  clear_value s
  refine meets_ite hm ?_
  extract_lets +onlyGivenNames ops d₁ d₂ d₃ d₄ d₅ d₆ d₇
  have h₁ : d₁.Meets C := Dev.onStk_meets _ _ _ hm
  have h₂ : d₂.Meets C := Dev.onStkEng_meets _ _ _ h₁
  have h₃ : d₃.Meets C := logIt_meets _ _ _ _ _ _ h₂
  have h₄ : d₄.Meets C := foldl_meets h₃ (fun _ _ h₈ => accFail_meets _ _ _ _ hC h₈)
  have h₅ : d₅.Meets C := foldl_meets h₄ (fun _ _ h₉ => opFail_meets _ _ _ _ hC h₉)
  have h₆ : d₆.Meets C := zeroingLost_meets _ _ hC h₅
  clear_value ops d₁ d₂ d₃ d₄ d₅ d₆
  have h₇ : d₇.Meets C := by
    dsimp -zeta -iota -proj only [d₇]
    refine foldl_meets h₆ (fun _ _ h₁₁ => ?_)
    split
    · refine foldl_meets h₁₁ (fun _ _ h₁₂ => ?_)
      split
      · exact postEvent_meets _ _ _ _ _ _ h₁₂
  exact tableStackLost_meets _ _ h₇

theorem devChimneyFail_meets {C : Claim} (stack : Nat) (d : Dev) (hC : C.Wide) (hm : d.Meets C) : (devChimneyFail stack d).Meets C := by
  unfold devChimneyFail
  exact meets_ite (meets_ite (logIt_meets _ _ _ _ _ _ (Dev.onStk_meets _ _ _ hm)) (stackLost_meets _ _ _ hC hm)) hm

theorem setAside_meets {C : Claim} (k : Nat) (g : Nat) (cause : RetireCause) (d : Dev) (hm : d.Meets C) : (setAside k g cause d).Meets C := by
  unfold setAside
  extract_lets +onlyGivenNames i
  clear_value i
  refine meets_ite hm ?_
  extract_lets +onlyGivenNames dpa r d₁ d₂ d₃ s
  have h₁ : d₁.Meets C := Dev.onStk_meets _ _ _ hm
  have h₂ : d₂.Meets C := storeWrite_meets _ _ h₁
  have h₃ : d₃.Meets C := reserveFull_meets _ _ (count_meets _ _ _ _ _ (logIt_meets _ _ _ _ _ _ h₂))
  clear_value dpa r d₁ d₂ d₃ s
  split
  · exact h₃
  · split
    · exact Dev.onStk_meets _ _ _ h₃
    · exact retireGroup_meets _ _ _ _ (Dev.onStk_meets _ _ _ h₃)

theorem retireAt_meets {C : Claim} (k : Nat) (dpa : Nat) (cause : RetireCause) (d : Dev) (hm : d.Meets C) : (retireAt k dpa cause d).Meets C := by
  unfold retireAt
  extract_lets +onlyGivenNames g
  exact meets_ite (retireGroup_meets _ _ _ _ hm) (setAside_meets _ _ _ _ hm)

theorem ceFound_meets {C : Claim} (k : Nat) (dpa : Nat) (d : Dev) (hm : d.Meets C) : (ceFound k dpa d).Meets C := by
  unfold ceFound
  extract_lets +onlyGivenNames d₁ ch g me s n rest
  have h₁ : d₁.Meets C := count_meets _ _ _ _ _ (Dev.onStk_meets _ _ _ hm)
  clear_value d₁ ch g s n rest
  refine meets_ite (retireAt_meets _ _ _ _ (Dev.onStk_meets _ _ _ h₁)) ?_
  extract_lets +onlyGivenNames rest₂
  exact Dev.onStk_meets _ _ _ h₁

theorem ueFound_meets {C : Claim} (k : Nat) (dpa : Nat) (d : Dev) (hC : C.Wide) (hm : d.Meets C) : (ueFound k dpa d).Meets C := by
  unfold ueFound
  extract_lets +onlyGivenNames d₁ d₂ d₃ ch g recent d₄
  have h₁ : d₁.Meets C := count_meets _ _ _ _ _ (Dev.onStk_meets _ _ _ hm)
  have h₂ : d₂.Meets C := logIt_meets _ _ _ _ _ _ h₁
  clear_value d₁ d₂
  have h₃ : d₃.Meets C := by
    dsimp -zeta -iota -proj only [d₃]
    split
    · exact postEvent_meets _ _ _ _ _ _ h₂
    · exact tableUe_meets _ _ _ h₂
  have h₄ : d₄.Meets C := Dev.onStk_meets _ _ _ h₃
  exact meets_ite (stackLost_meets _ _ _ hC h₄) (retireAt_meets _ _ _ _ h₄)

theorem noteFound_meets {C : Claim} (k : Nat) (dpa : Nat) (f : Found) (d : Dev) (hC : C.Wide) (hm : d.Meets C) : (noteFound k dpa f d).Meets C := by
  unfold noteFound
  split
  · exact ceFound_meets _ _ _ hm
  · exact ueFound_meets _ _ _ hC hm
  · exact hm

theorem eccRead_meets {C : Claim} (k : Nat) (dpa : Nat) (n : Nat) (d : Dev) (hC : C.Wide) (hm : d.Meets C) : (eccRead k dpa n d).2.Meets C := by
  unfold eccRead
  split
  · exact Dev.Meets.paired (noteFound_meets _ _ _ _ hC (.of_pair (by assumption) (eccCell_meets _ _ _ hm)))

theorem noteAll_meets {C : Claim} (k : Nat) (dpa : Nat) (l : List (Nat × Found)) (d : Dev)
    (hC : C.Wide) (hm : d.Meets C) : (noteAll k dpa l d).Meets C := by
  unfold noteAll
  refine foldl_meets hm (fun _ _ h₁ => ?_)
  split
  · exact noteFound_meets _ _ _ _ hC h₁

theorem accAnswer_meets {C : Claim} (k : Nat) (a : Access) (d : Dev) (hC : C.Wide) (hm : d.Meets C) : (accAnswer k a d).Meets C := by
  unfold accAnswer
  split
  · extract_lets +onlyGivenNames d₁ data d₂
    have h₁ : d₁.Meets C := noteAll_meets _ _ _ _ hC (count_meets _ _ _ _ _ hm)
    have h₂ : d₂.Meets C := emit_meets _ _ h₁
    clear_value d₁ data d₂
    refine meets_ite h₂ ?_
    split
    · exact accFail_meets _ _ _ _ hC h₂
    · exact accFail_meets _ _ _ _ hC h₂
    · exact Dev.onQ_meets h₂
    · exact h₂
  · extract_lets +onlyGivenNames dpa d₃ d₄
    have h₃ : d₃.Meets C := noteAll_meets _ _ _ _ hC (count_meets _ _ _ _ _ hm)
    have h₄ : d₄.Meets C := meets_ite (count_meets _ _ _ _ _ h₃) h₃
    clear_value dpa d₃ d₄
    refine meets_ite ?_ h₄
    split
    · exact Dev.onQ_meets h₄
    · exact accFail_meets _ _ _ _ hC h₄
  · exact hm

theorem applyAccess_meets {C : Claim} (k : Nat) (a : Access) (d : Dev) (hC : C.Wide) (hm : d.Meets C) : (applyAccess k a d).Meets C := by
  unfold applyAccess
  split
  · exact accAnswer_meets _ _ _ hC (.of_pair (by assumption) (accCells_meets _ _ _ hm))

theorem serveAccess_meets {C : Claim} (k : Nat) (a : Access) (d : Dev) (hC : C.Wide) (hm : d.Meets C) : (serveAccess k a d).Meets C := by
  unfold serveAccess
  extract_lets +onlyGivenNames s
  clear_value s
  split
  · extract_lets +onlyGivenNames wait
    have h₃ : ∀ a₁, Dev.Meets C a₁ → Dev.Meets C (wait a₁) := fun _ h₂ => Dev.onStk_meets _ _ _ h₂
    clear_value wait
    split
    · exact hm
    · exact accFail_meets _ _ _ _ hC hm
    · exact h₃ _ (wakeStack_meets _ _ hm)
    · exact h₃ _ hm
    · extract_lets +onlyGivenNames d₄
      have h₄ : d₄.Meets C := Dev.onStk_meets _ _ _ hm
      clear_value d₄
      refine meets_ite (h₃ _ h₄) (meets_ite (accAnswer_meets _ _ _ hC h₄) (meets_ite (accFail_meets _ _ _ _ hC (logIt_meets _ _ _ _ _ _ h₄)) ?_))
      split
      · exact meets_ite (Dev.onStk_meets _ _ _ h₄) (h₃ _ h₄)
      · exact applyAccess_meets _ _ _ hC h₄

theorem serveWaiting_meets {C : Claim} (k : Nat) (d : Dev) (hC : C.Wide) (hm : d.Meets C) : (serveWaiting k d).Meets C := by
  unfold serveWaiting
  exact foldl_meets (Dev.onStk_meets _ _ _ hm) (fun _ _ h₁ => serveAccess_meets _ _ _ hC h₁)

theorem devStackRead_meets {C : Claim} (stack : Nat) (off : Nat) (n : Nat) (who : Requester) (errs : List (Nat × Nat)) (d : Dev)
    (hC : C.Wide) (hm : d.Meets C) : (devStackRead stack off n who errs d).Meets C := by
  unfold devStackRead
  exact meets_ite (serveAccess_meets _ _ _ hC hm) hm

theorem devStackWrite_meets {C : Claim} (stack : Nat) (off : Nat) (data : Bytes) (who : Requester) (errs : List (Nat × Nat)) (d : Dev)
    (hC : C.Wide) (hm : d.Meets C) : (devStackWrite stack off data who errs d).Meets C := by
  unfold devStackWrite
  exact meets_ite (serveAccess_meets _ _ _ hC hm) hm

theorem moveCopy_meets {C : Claim} (k : Nat) (dpa : Nat) (errs : List (Nat × Nat)) (d : Dev)
    (hC : C.Wide) (hm : d.Meets C) : (moveCopy k dpa errs d).Meets C := by
  unfold moveCopy
  split
  · exact noteAll_meets _ _ _ _ hC (.of_pair (by assumption) (eccCells_meets _ _ _ _ hm))

theorem devRetirementMoveDone_meets {C : Claim} (k : Nat) (errs : List (Nat × Nat)) (d : Dev)
    (hC : C.Wide) (hm : d.Meets C) : (devRetirementMoveDone k errs d).Meets C := by
  unfold devRetirementMoveDone
  split
  · exact hm
  · extract_lets +onlyGivenNames dpa d₁
    have h₁ : d₁.Meets C := moveCopy_meets _ _ _ _ hC hm
    clear_value dpa d₁
    split
    · exact h₁
    · extract_lets +onlyGivenNames own r d₂ d₃ d₄ d₅ d₆
      have h₂ : d₂.Meets C := Dev.onStk_meets _ _ _ h₁
      have h₃ : d₃.Meets C := reserveFull_meets _ _ (storeWrite_meets _ _ h₂)
      have h₄ : d₄.Meets C := Dev.onStk_meets _ _ _ h₃
      have h₅ : d₅.Meets C := meets_ite h₄ (serveWaiting_meets _ _ hC h₄)
      have h₆ : d₆.Meets C := count_meets _ _ _ _ _ (logIt_meets _ _ _ _ _ _ h₅)
      clear_value own r d₂ d₃ d₄ d₅ d₆
      split
      · exact postEvent_meets _ _ _ _ _ _ h₆
      · exact h₆

theorem devPatrolScrub_meets {C : Claim} (k : Nat) (symbols : Nat) (d : Dev)
    (hC : C.Wide) (hm : d.Meets C) : (devPatrolScrub k symbols d).Meets C := by
  unfold devPatrolScrub
  extract_lets +onlyGivenNames s
  clear_value s
  refine meets_ite ?_ hm
  extract_lets +onlyGivenNames d₁ s₂ dpa last d₃ d₄
  have h₁ : d₁.Meets C := serveCells_meets _ _ hm
  have h₃ : d₃.Meets C := Dev.onStk_meets _ _ _ h₁
  have h₄ : d₄.Meets C := meets_ite (count_meets _ _ _ _ _ h₃) h₃
  exact eccRead_meets _ _ _ _ hC h₄

theorem devCeTrackExpiry_meets {C : Claim} (k : Nat) (chimney : Nat) (group : Nat) (d : Dev)
    (hm : d.Meets C) : (devCeTrackExpiry k chimney group d).Meets C := by
  unfold devCeTrackExpiry
  exact Dev.onStk_meets _ _ _ hm

theorem devMemCe_meets {C : Claim} (k : Nat) (d : Dev) (hm : d.Meets C) : (devMemCe k d).Meets C := by
  unfold devMemCe
  extract_lets +onlyGivenNames early
  exact meets_ite hm (logIt_meets _ _ _ _ _ _ (Dev.onStk_meets _ _ _ hm))

theorem devStackInit_meets {C : Claim} (k : Nat) (ok : Bool) (d : Dev) (hm : d.Meets C) : (devStackInit k ok d).Meets C := by
  unfold devStackInit
  exact meets_ite hm (meets_ite (Dev.onStk_meets _ _ _ hm) (logIt_meets _ _ _ _ _ _ (Dev.onStk_meets _ _ _ hm)))

theorem devParkIdle_meets {C : Claim} (k : Nat) (d : Dev) (hm : d.Meets C) : (devParkIdle k d).Meets C := by
  unfold devParkIdle
  exact Dev.onStk_meets _ _ _ hm

theorem devParkDrained_meets {C : Claim} (k : Nat) (d : Dev) (hm : d.Meets C) : (devParkDrained k d).Meets C := by
  unfold devParkDrained
  exact meets_ite (count_meets _ _ _ _ _ (Dev.onStk_meets _ _ _ hm)) hm

theorem devStackWakeDone_meets {C : Claim} (k : Nat) (d : Dev) (hC : C.Wide) (hm : d.Meets C) : (devStackWakeDone k d).Meets C := by
  unfold devStackWakeDone
  extract_lets +onlyGivenNames s
  exact meets_ite (serveWaiting_meets _ _ hC (Dev.onStk_meets _ _ _ hm)) hm

theorem devRetireQuery_meets {C : Claim} (c : CmdSlot) (d : Dev) (hC : C.Wide) (hm : d.Meets C) : (devRetireQuery c d).Meets C := by
  unfold devRetireQuery
  refine runChk_meets _ _ _ _ (fun _ _ h₁ => ?_) _ hC hm
  extract_lets +onlyGivenNames ks all sel
  exact finishRes_meets _ _ _ _ _ hC h₁

/-! ### Operations of WorkOps -/

theorem recvFail_meets {C : Claim} (n : Nat) (ord : Nat) (code : Nat) (detail : Nat) (d : Dev) (verb : BitVec 64)
    (hm : d.Meets C) : (recvFail n ord code detail d verb).Meets C := by
  unfold recvFail
  split
  · exact hm
  · split
    · exact hm
    · extract_lets +onlyGivenNames d₁ d₂
      have h₁ : d₁.Meets C := by
        dsimp -zeta -iota -proj only [d₁]
        split
        · exact nakMessage_meets _ _ _ _ _ hm
        · exact hm
      have h₂ : d₂.Meets C := Dev.onQp_meets _ _ _ h₁
      exact meets_ite (toFlush_meets _ _ _ _ (count_meets _ _ _ _ _ h₂)) h₂

/-! ### Operations of Xlt -/

theorem resume_meets {C : Claim} (w : Waiter) (d : Dev) (hC : C.Wide) (hm : d.Meets C) : (resume w d).Meets C := by
  unfold resume
  split
  · exact Dev.onQp_meets _ _ _ hm
  · exact Dev.onQp_meets _ _ _ hm
  · exact Dev.onQp_meets _ _ _ hm
  · split
    · exact meets_ite (cutOp_meets _ _ hC hm) (Dev.onOp_meets _ _ _ hm)
    · exact hm
  · exact Dev.onRope_meets _ _ _ hm
  · exact cqDrain_meets _ _ hC (Dev.onCq_meets _ _ _ hm)

theorem fetchFail_meets {C : Claim} (n : Nat) (rq : Bool) (code : Nat) (detail : Nat) (d : Dev)
    (hm : d.Meets C) : (fetchFail n rq code detail d).Meets C := by
  grind [fetchFail, takeFree_meets, Dev.onQp_meets, toFlush_meets, count_meets]

theorem failWaiter_meets {C : Claim} (w : Waiter) (code : Nat) (detail : Nat) (d : Dev)
    (hC : C.Wide) (hm : d.Meets C) : (failWaiter w code detail d).Meets C := by
  unfold failWaiter
  split
  · exact fetchFail_meets _ _ _ _ _ hm
  · exact fetchFail_meets _ _ _ _ _ hm
  · exact Dev.onQp_meets _ _ _ (endBad_meets _ _ _ _ _ hm)
  · exact opFail_meets _ _ _ _ hC hm
  · exact ropeAbortLocal_meets _ _ _ hm
  · exact cqOverflow_meets _ _ _ hm

theorem unresolved_meets {C : Claim} (w : Waiter) (d : Dev) (hC : C.Wide) (hm : d.Meets C) : (unresolved w d).Meets C := by
  unfold unresolved
  exact failWaiter_meets _ _ _ _ hC hm

theorem dropRec_meets {C : Claim} (id : Nat) (d : Dev) (hm : d.Meets C) : (dropRec id d).Meets C := by
  unfold dropRec
  extract_lets +onlyGivenNames keep port
  exact Dev.onXlt_meets hm

theorem stallStream_meets {C : Claim} (w : Waiter) (d : Dev) (hm : d.Meets C) : (stallStream w d).Meets C := by
  unfold stallStream
  split
  · exact Dev.onQp_meets _ _ _ hm
  · exact Dev.onQp_meets _ _ _ hm
  · exact Dev.onQp_meets _ _ _ hm
  · exact Dev.onOp_meets _ _ _ hm
  · exact Dev.onRope_meets _ _ _ hm
  · exact Dev.onCq_meets _ _ _ hm

theorem devMapRange_meets {C : Claim} (c : CmdSlot) (d : Dev) (hC : C.Wide) (hm : d.Meets C) : (devMapRange c d).Meets C := by
  unfold devMapRange
  refine runChk_meets _ _ _ _ (fun _ _ h₁ => ?_) _ hC hm
  extract_lets +onlyGivenNames t
  clear_value t
  refine withTenant_meets _ _ _ _ (fun _ _ h₃ => ?_) _ hC h₁
  extract_lets +onlyGivenNames x m
  clear_value x m
  split
  · exact finishAt_meets _ _ _ _ hC h₃
  · refine meets_ite (finishAt_meets _ _ _ _ hC h₃) (meets_ite (finishAt_meets _ _ _ _ hC h₃) (meets_ite (finishAt_meets _ _ _ _ hC h₃)
        (meets_ite (finishAt_meets _ _ _ _ hC h₃) (meets_ite (finishAt_meets _ _ _ _ hC h₃) (meets_ite (finish_meets _ _ _ hC h₃) ?_)))))
    extract_lets +onlyGivenNames held need
    clear_value held need
    refine meets_ite (quotaHit_meets _ _ _ _ hC h₃) ?_
    split
    · exact finish_meets _ _ _ hC h₃
    · exact finish_meets _ _ _ hC (onTab_meets _ _ _ (placeTables_meets _ _ (by assumption) h₃))

theorem startInval_meets {C : Claim} (t : Nat) (a : Nat) (n : Nat) (ats : Option Side) (cmd : Option CmdSlot) (handles : List Nat)
    (nothing : Bool) (d : Dev) (hm : d.Meets C) : (startInval t a n ats cmd handles nothing d).Meets C := by
  unfold startInval
  extract_lets +onlyGivenNames tiles id inv d₁
  have h₁ : d₁.Meets C := foldl_meets hm (fun _ _ h₂ => count_meets _ _ _ _ _ (Dev.onTile_meets _ _ _ h₂))
  exact Dev.onXlt_meets h₁

theorem devUnmapRange_meets {C : Claim} (c : CmdSlot) (d : Dev) (hC : C.Wide) (hm : d.Meets C) : (devUnmapRange c d).Meets C := by
  unfold devUnmapRange
  refine runChk_meets _ _ _ _ (fun _ _ h₁ => ?_) _ hC hm
  extract_lets +onlyGivenNames t
  clear_value t
  refine withTenant_meets _ _ _ _ (fun _ _ h₃ => ?_) _ hC h₁
  extract_lets +onlyGivenNames a n
  clear_value a n
  refine meets_ite (finishAt_meets _ _ _ _ hC h₃) (meets_ite (finishAt_meets _ _ _ _ hC h₃) (meets_ite (finish_meets _ _ _ hC h₃) (meets_ite
        (finish_meets _ _ _ hC h₃) ?_)))
  extract_lets +onlyGivenNames hit d₄
  have h₄ : d₄.Meets C := onTab_meets _ _ _ h₃
  exact leave_meets _ _ _ hC (startInval_meets _ _ _ _ _ _ _ _ (dropTables_meets _ _ h₄))

theorem invalDone_meets {C : Claim} (id : Nat) (d : Dev) (hC : C.Wide) (hm : d.Meets C) : (invalDone id d).Meets C := by
  unfold invalDone
  split
  · exact hm
  · refine meets_ite hm ?_
    extract_lets +onlyGivenNames d₁
    have h₁ : d₁.Meets C := Dev.onXlt_meets hm
    clear_value d₁
    split
    · extract_lets +onlyGivenNames d₂
      have h₂ : d₂.Meets C := emit_meets _ _ h₁
      clear_value d₂
      split
      · extract_lets +onlyGivenNames d₃
        have h₃ : d₃.Meets C := Dev.onHost_meets h₂ rfl
        clear_value d₃
        split
        · exact startInval_meets _ _ _ _ _ _ _ _ h₃
        · exact emit_meets _ _ h₃
      · exact h₂
    · split
      · exact answerIf_meets _ _ _ _ _ hC h₁
      · exact h₁

theorem ackTile_meets {C : Claim} (tile : Nat) (id : Nat) (d : Dev) (hC : C.Wide) (hm : d.Meets C) : (ackTile tile id d).Meets C := by
  unfold ackTile
  exact invalDone_meets _ _ hC (Dev.onXlt_meets hm)

theorem devInvalidationAck_meets {C : Claim} (tile : Nat) (id : Nat) (d : Dev)
    (hC : C.Wide) (hm : d.Meets C) : (devInvalidationAck tile id d).Meets C := by
  unfold devInvalidationAck
  split
  · exact hm
  · exact meets_ite (ackTile_meets _ _ _ hC hm) hm

theorem abortMarked_meets {C : Claim} (v : Invalidation) (w : Waiter) (d : Dev) (hC : C.Wide) (hm : d.Meets C) : (abortMarked v w d).Meets C := by
  unfold abortMarked
  split
  · extract_lets +onlyGivenNames d₁
    have h₁ : d₁.Meets C := Dev.onQ_meets hm
    exact failWaiter_meets _ _ _ _ hC h₁
  · split
    · exact hm
    · extract_lets +onlyGivenNames hit d₂
      have h₂ : d₂.Meets C := Dev.onQp_meets _ _ _ hm
      exact foldl_meets h₂ (fun _ _ h₄ => recvFail_meets _ _ _ _ _ _ h₄)
  · exact opFail_meets _ _ _ _ hC hm
  · exact ropeAbortLocal_meets _ _ _ hm
  · exact hm

theorem devUnmapAbort_meets {C : Claim} (tile : Nat) (id : Nat) (d : Dev) (hC : C.Wide) (hm : d.Meets C) : (devUnmapAbort tile id d).Meets C := by
  unfold devUnmapAbort
  split
  · exact hm
  · refine meets_ite hm ?_
    extract_lets +onlyGivenNames run jobs d₁ d₂
    have h₁ : d₁.Meets C := failJobs_meets _ _ _ _ (foldl_meets hm (fun _ _ h₃ => abortMarked_meets _ _ _ hC h₃))
    have h₂ : d₂.Meets C := meets_ite h₁ (Dev.onXlt_meets h₁)
    exact ackTile_meets _ _ _ hC h₂

theorem devAtsInvalidation_meets {C : Claim} (p : Side) (pasid : Nat) (addr : Nat) (len : Nat) (d : Dev)
    (hm : d.Meets C) : (devAtsInvalidation p pasid addr len d).Meets C := by
  unfold devAtsInvalidation
  split
  · exact emit_meets _ _ hm
  · extract_lets +onlyGivenNames out
    exact meets_ite (count_meets _ _ _ _ _ (Dev.onHost_meets hm rfl)) (startInval_meets _ _ _ _ _ _ _ _ hm)

theorem devTranslationWalkDone_meets {C : Claim} (tile : Nat) (tenant : Nat) (addr : Nat) (write : Bool) (who : Waiter) (d : Dev)
    (hC : C.Wide) (hm : d.Meets C) : (devTranslationWalkDone tile tenant addr write who d).Meets C := by
  unfold devTranslationWalkDone
  extract_lets +onlyGivenNames dva present reads
  clear_value dva present reads
  refine meets_ite hm ?_
  split
  · extract_lets +onlyGivenNames d₁ d₂
    have h₁ : d₁.Meets C := Dev.onTile_meets _ _ _ hm
    have h₂ : d₂.Meets C := foldl_meets (count_meets _ _ _ _ _ h₁) (fun _ _ h₃ => touchStack_meets _ _ h₃)
    clear_value d₁ d₂
    split
    · refine meets_ite h₂ ?_
      extract_lets +onlyGivenNames d₄
      have h₄ : d₄.Meets C := addRun_meets _ _ _ (addUpper_meets _ _ _ _ h₂)
      exact meets_ite (prefetchFrom_meets _ _ _ _ _ _ h₄) h₄
    · exact h₂
  · refine meets_ite hm (meets_ite (lookup_meets _ _ _ _ _ _ hm) (meets_ite hm ?_))
    split
    · exact stallStream_meets _ _ (.of_pair (by assumption) (raiseFault_meets _ _ _ _ _ _ _ hm))
    · exact unresolved_meets _ _ hC (.of_pair (by assumption) (raiseFault_meets _ _ _ _ _ _ _ hm))

theorem devCairnTimer_meets {C : Claim} (p : Side) (d : Dev) (hm : d.Meets C) : (devCairnTimer p d).Meets C := by
  unfold devCairnTimer
  refine meets_ite hm ?_
  extract_lets +onlyGivenNames x hostT
  clear_value x hostT
  split
  · exact meets_ite (postCairn_meets _ _ _ hm) (postPri_meets _ _ hm)
  · exact postCairn_meets _ _ _ hm
  · exact postPri_meets _ _ hm

theorem repeatFault_meets {C : Claim} (r : FaultRec) (d : Dev) (hC : C.Wide) (hm : d.Meets C) : (repeatFault r d).Meets C := by
  unfold repeatFault
  extract_lets +onlyGivenNames id r₁ d₂
  have h₂ : d₂.Meets C := Dev.onXlt_meets hm
  clear_value id r₁ d₂
  refine meets_ite h₂ ?_
  split
  · exact .of_pair (by assumption) (gather_meets _ _ h₂)
  · exact foldl_meets (dropRec_meets _ _ (.of_pair (by assumption) (gather_meets _ _ h₂))) (fun _ _ h₃ => unresolved_meets _ _ hC h₃)

theorem resolveRec_meets {C : Claim} (id : Nat) (fail : Bool) (d : Dev) (hC : C.Wide) (hm : d.Meets C) : (resolveRec id fail d).Meets C := by
  unfold resolveRec
  split
  · exact hm
  · extract_lets +onlyGivenNames d₁
    have h₁ : d₁.Meets C := dropRec_meets _ _ hm
    clear_value d₁
    refine meets_ite (foldl_meets h₁ (fun _ _ h₃ => unresolved_meets _ _ hC h₃)) ?_
    extract_lets +onlyGivenNames dva
    exact meets_ite (foldl_meets h₁ (fun _ _ h₅ => resume_meets _ _ hC h₅)) (repeatFault_meets _ _ hC h₁)

theorem resolveAll_meets {C : Claim} (l : List (Nat × Bool)) (skipped : Bool) (d : Dev) (hC : C.Wide) (hm : d.Meets C) :
    (resolveAll l skipped d).2.Meets C := by
  induction l generalizing skipped d with
  | nil => exact hm
  | cons x r ih =>
    simp only [resolveAll]
    split
    · split
      · exact ih _ _ hm
      · exact ih _ _ (resolveRec_meets _ _ _ hC hm)
    · exact ih _ _ hm

theorem devCairnResolve_meets {C : Claim} (c : CmdSlot) (d : Dev) (hC : C.Wide) (hm : d.Meets C) : (devCairnResolve c d).Meets C := by
  unfold devCairnResolve
  refine runChk_meets _ _ _ _ (fun _ _ h₁ => ?_) _ hC hm
  extract_lets +onlyGivenNames l foreign
  clear_value l foreign
  refine meets_ite (finish_meets _ _ _ hC h₁) ?_
  split
  · exact finish_meets _ _ _ hC (.of_pair (by assumption) (resolveAll_meets _ _ _ hC h₁))

theorem groupsTidy_meets {C : Claim} (p : Side) (d : Dev) (hm : d.Meets C) : (groupsTidy p d).Meets C := by
  unfold groupsTidy
  extract_lets +onlyGivenNames x live dead
  exact priSend_meets _ _ (Dev.onXPort_meets _ _ _ hm)

theorem devFaultLimitExpiry_meets {C : Claim} (id : Nat) (d : Dev) (hC : C.Wide) (hm : d.Meets C) : (devFaultLimitExpiry id d).Meets C := by
  unfold devFaultLimitExpiry
  split
  · exact hm
  · extract_lets +onlyGivenNames d₁
    have h₁ : d₁.Meets C := foldl_meets (dropRec_meets _ _ hm) (fun _ _ h₂ => unresolved_meets _ _ hC h₂)
    exact meets_ite (groupsTidy_meets _ _ h₁) h₁

theorem hostRetry_meets {C : Claim} (t : Nat) (cpl : Option AtsCpl) (again : Bool) (w : Waiting) (d : Dev)
    (hC : C.Wide) (hm : d.Meets C) : (hostRetry t cpl again w d).Meets C := by
  unfold hostRetry
  split
  · refine meets_ite (resume_meets _ _ hC hm) ?_
    split
    · exact stallStream_meets _ _ (.of_pair (by assumption) (raiseFault_meets _ _ _ _ _ _ _ hm))
    · exact unresolved_meets _ _ hC (.of_pair (by assumption) (raiseFault_meets _ _ _ _ _ _ _ hm))
  · split
    · exact stallStream_meets _ _ (.of_pair (by assumption) (raiseFault_meets _ _ _ _ _ _ _ hm))
    · exact unresolved_meets _ _ hC (.of_pair (by assumption) (raiseFault_meets _ _ _ _ _ _ _ hm))

theorem devAtsCompletion_meets {C : Claim} (p : Side) (tag : Nat) (cpl : AtsCpl) (d : Dev) (hC : C.Wide) (hm : d.Meets C) :
    (devAtsCompletion p tag cpl d).Meets C := by
  unfold devAtsCompletion
  split
  · exact hm
  · refine meets_ite hm ?_
    extract_lets +onlyGivenNames d₁ ok d₂ good base d₃ d₄
    have h₁ : d₁.Meets C := Dev.onXlt_meets hm
    have h₂ : d₂.Meets C := meets_ite h₁ (logIt_meets _ _ _ _ _ _ (count_meets _ _ _ _ _ h₁))
    have h₄ : d₄.Meets C := meets_ite (addRun_meets _ _ _ (Dev.onTile_meets _ _ _ h₂)) h₂
    clear_value d₄
    extract_lets +onlyGivenNames ans
    split
    · exact meets_ite (prefetchFrom_meets _ _ _ _ _ _ h₄) h₄
    · exact hostRetry_meets _ _ _ _ _ hC h₄
    · split
      · exact h₄
      · exact foldl_meets (dropRec_meets _ _ h₄) fun _ _ h => hostRetry_meets _ _ _ _ _ hC h

theorem devPriResponse_meets {C : Claim} (p : Side) (idx : Nat) (code : PriCode) (d : Dev)
    (hC : C.Wide) (hm : d.Meets C) : (devPriResponse p idx code d).Meets C := by
  unfold devPriResponse
  extract_lets +onlyGivenNames x
  clear_value x
  split
  · exact meets_ite (priSend_meets _ _ (Dev.onXPort_meets _ _ _ hm)) (count_meets _ _ _ _ _ hm)
  · extract_lets +onlyGivenNames d₁ recs fail
    have h₁ : d₁.Meets C := Dev.onXPort_meets _ _ _ hm
    clear_value d₁ recs
    have h₇ : ∀ a₂, Dev.Meets C a₂ → Dev.Meets C (fail a₂) := by
      intro _ h₃
      dsimp -zeta -iota -proj only [fail]
      refine foldl_meets h₃ (fun _ _ h₅ => ?_)
      split
      · exact foldl_meets (dropRec_meets _ _ h₅) (fun _ _ h₆ => unresolved_meets _ _ hC h₆)
    clear_value fail
    refine priSend_meets _ _ ?_
    split
    · refine foldl_meets h₁ (fun _ _ h₈ => ?_)
      split
      · split
        · exact askAts_meets _ _ _ _ _ _ _ h₈
        · exact h₈
    · exact h₇ _ h₁
    · exact logIt_meets _ _ _ _ _ _ (h₇ _ (Dev.onXPort_meets _ _ _ h₁))

theorem devPriReset_meets {C : Claim} (p : Side) (d : Dev) (hm : d.Meets C) : (devPriReset p d).Meets C := by
  unfold devPriReset
  exact Dev.onXPort_meets _ _ _ hm

theorem devXltCairnEnable_meets {C : Claim} (p : Side) (g : Side) (v : BitVec 32) (d : Dev)
    (hm : d.Meets C) : (devXltCairnEnable p g v d).Meets C := by
  unfold devXltCairnEnable
  exact meets_ite (hostWrongPort_meets _ _ hm) (cairnDrain_meets _ _ (Dev.onXPort_meets _ _ _ hm))

theorem devXltCairnDisable_meets {C : Claim} (p : Side) (g : Side) (v : BitVec 32) (d : Dev)
    (hm : d.Meets C) : (devXltCairnDisable p g v d).Meets C := by
  unfold devXltCairnDisable
  exact meets_ite (hostWrongPort_meets _ _ hm) (Dev.onXPort_meets _ _ _ hm)

theorem devXltCairnConsWrite_meets {C : Claim} (p : Side) (g : Side) (v : BitVec 32) (d : Dev)
    (hm : d.Meets C) : (devXltCairnConsWrite p g v d).Meets C := by
  unfold devXltCairnConsWrite
  refine meets_ite (hostWrongPort_meets _ _ hm) ?_
  extract_lets +onlyGivenNames x s i
  exact meets_ite (cairnDrain_meets _ _ (Dev.onXPort_meets _ _ _ hm)) (Dev.onXPort_meets _ _ _ hm)

theorem openWindow_meets {C : Claim} (w : Nat) (t : Nat) (dva : Nat) (len : Nat) (rights : Nat) (mode : Nat) (peer : Nat) (d : Dev)
    (hm : d.Meets C) : (openWindow w t dva len rights mode peer d).Meets C := by
  unfold openWindow
  split
  · extract_lets +onlyGivenNames key win
    exact Dev.onXlt_meets (.of_pair (by assumption) (takeFree_meets _ (drbgDraw_meets _ _ _ hm)))

theorem devWindowOpen_meets {C : Claim} (c : CmdSlot) (d : Dev) (hC : C.Wide) (hm : d.Meets C) : (devWindowOpen c d).Meets C := by
  unfold devWindowOpen
  refine meets_ite (runChk_meets _ _ _ _ (fun _ _ h₁ => ?_) _ hC hm) hm
  extract_lets +onlyGivenNames t
  clear_value t
  refine withTenant_meets _ _ _ _ (fun _ _ h₃ => ?_) _ hC h₁
  extract_lets +onlyGivenNames a n r rd wr
  clear_value a n r rd wr
  refine meets_ite (finish_meets _ _ _ hC h₃) (meets_ite (finishAt_meets _ _ _ _ hC h₃) (meets_ite (finish_meets _ _ _ hC h₃) (meets_ite
        (quotaHit_meets _ _ _ _ hC h₃) (meets_ite (quotaHit_meets _ _ _ _ hC h₃) ?_))))
  split
  · exact finish_meets _ _ _ hC h₃
  · extract_lets +onlyGivenNames d₄ key d₅
    have h₄ : d₄.Meets C := openWindow_meets _ _ _ _ _ _ _ _ h₃
    have h₅ : d₅.Meets C := leave_meets _ _ _ hC (onCmd_meets _ _ _ hC h₄)
    exact replFinish_meets _ _ _ _ _ _ hC h₅

theorem devWindowRevoke_meets {C : Claim} (c : CmdSlot) (d : Dev) (hC : C.Wide) (hm : d.Meets C) : (devWindowRevoke c d).Meets C := by
  unfold devWindowRevoke
  refine runChk_meets _ _ _ _ (fun _ _ h₁ => withTenant_meets _ _ _ _ (fun _ _ h₂ => ?_) _ hC h₁) _ hC hm
  extract_lets +onlyGivenNames w
  clear_value w
  split
  · exact finishAt_meets _ _ _ _ hC h₂
  · exact meets_ite (finishAt_meets _ _ _ _ hC h₂) (meets_ite (finish_meets _ _ _ hC h₂) (leave_meets _ _ _ hC (Dev.onXlt_meets h₂)))

theorem devWindowQuery_meets {C : Claim} (c : CmdSlot) (d : Dev) (hC : C.Wide) (hm : d.Meets C) : (devWindowQuery c d).Meets C := by
  unfold devWindowQuery
  refine runChk_meets _ _ _ _ (fun _ _ h₁ => ?_) _ hC hm
  extract_lets +onlyGivenNames go
  have h₄ : ∀ a₂, Dev.Meets C a₂ → Dev.Meets C (go a₂) := by
    intro _ h₃
    dsimp -zeta -iota -proj only [go]
    extract_lets +onlyGivenNames all sel
    exact finishRes_meets _ _ _ _ _ hC h₃
  exact meets_ite (withTenant_meets _ _ _ _ (fun _ _ h₆ => h₄ _ h₆) _ hC h₁) (h₄ _ h₁)

end Sys2Proof.Machine
end

section
/-! SUPPORT. Claims that operations keep: tenants, host ports, the control and snapshots. -/

namespace Sys2Proof.Machine

/-! ### Operations of Tenant -/

theorem devTenantCreate_meets {C : Claim} (c : CmdSlot) (d : Dev) (hC : C.Wide) (hm : d.Meets C) : (devTenantCreate c d).Meets C := by
  unfold devTenantCreate
  refine runChk_meets _ _ _ _ (fun _ _ h₁ => ?_) _ hC hm
  extract_lets +onlyGivenNames x num
  clear_value x num
  split
  · exact finish_meets _ _ _ hC h₁
  · refine meets_ite (finish_meets _ _ _ hC h₁) ?_
    extract_lets +onlyGivenNames t
    exact replFinish_meets _ _ _ _ _ _ hC (leave_meets _ _ _ hC (Dev.onTens_meets h₁))

theorem tenState_meets {C : Claim} (n : Nat) (st : TenState) (d : Dev) (hm : d.Meets C) : (tenState n st d).Meets C := by
  unfold tenState
  exact Dev.onTen_meets _ _ _ hm

theorem dropRuns_meets {C : Claim} (n : Nat) (d : Dev) (hm : d.Meets C) : (dropRuns n d).Meets C := by
  unfold dropRuns
  exact Dev.onXlt_meets hm

theorem finishDestroy_meets {C : Claim} (n : Nat) (stubs : Tab Stub) (cmd : Option CmdSlot) (d : Dev)
    (hC : C.Wide) (hm : d.Meets C) : (finishDestroy n stubs cmd d).Meets C := by
  unfold finishDestroy
  extract_lets +onlyGivenNames d₁ hs d₂ d₃ d₄ d₅
  have h₁ : d₁.Meets C := dropRuns_meets _ _ (Dev.onXlt_meets hm)
  have h₂ : d₂.Meets C := foldl_meets h₁ (fun _ _ h₆ => releaseAlloc_meets _ _ h₆)
  clear_value d₁ hs d₂
  have h₃ : d₃.Meets C := by
    dsimp -zeta -iota -proj only [d₃]
    refine foldl_meets h₂ (fun _ _ h₈ => ?_)
    split
    · exact Dev.onTens_meets h₈
  have h₄ : d₄.Meets C := Dev.onNet_meets h₃
  have h₅ : d₅.Meets C := Dev.onTens_meets h₄
  exact replSend_meets _ _ _ hC h₅

theorem tenResetTry_meets {C : Claim} (n : Nat) (d : Dev) (hC : C.Wide) (hm : d.Meets C) : (tenResetTry n d).Meets C := by
  unfold tenResetTry
  split
  · exact hm
  · refine meets_ite hm ?_
    extract_lets +onlyGivenNames d₁
    have h₁ : d₁.Meets C := postEvent_meets _ _ _ _ _ _ hm
    clear_value d₁
    split
    · exact finishDestroy_meets _ _ _ _ hC h₁
    · extract_lets +onlyGivenNames d₂
      have h₂ : d₂.Meets C := eventDrain_meets _ _ (tenState_meets _ _ _ (Dev.onTen_meets _ _ _ h₁))
      clear_value d₂
      split
      · exact answerIf_meets _ _ _ _ _ hC h₂
      · exact h₂

theorem ropeReset_meets {C : Claim} (slot : Nat) (d : Dev) (hm : d.Meets C) : (ropeReset slot d).Meets C := by
  unfold ropeReset
  exact Dev.onRope_meets _ _ _ (ropeAbortLocal_meets _ _ _ hm)

theorem restartTenant_meets {C : Claim} (n : Nat) (d : Dev) (hm : d.Meets C) : (restartTenant n d).Meets C := by
  unfold restartTenant
  exact Dev.onNet_meets (dropRuns_meets _ _ hm)

theorem tenResetSteps_meets {C : Claim} (n : Nat) (st : TenState) (cause : ResetCause) (d : Dev)
    (hC : C.Wide) (hm : d.Meets C) : (tenResetSteps n st cause d).Meets C := by
  unfold tenResetSteps
  split
  · exact hm
  · extract_lets +onlyGivenNames d₁ d₂ d₃ d₄ reason d₅ d₆ qs d₇ d₈ d₉
    have h₁ : d₁.Meets C := by
      dsimp -zeta -iota -proj only [d₁]
      split
      · exact answerIf_meets _ _ _ _ _ hC hm
      · exact hm
    have h₂ : d₂.Meets C := tenState_meets _ _ _ (Dev.onTen_meets _ _ _ h₁)
    clear_value d₁ d₂
    have h₃ : d₃.Meets C := by
      dsimp -zeta -iota -proj only [d₃]
      refine foldl_meets h₂ (fun _ _ h₁₁ => ?_)
      split
      · exact ropeReset_meets _ _ h₁₁
    have h₄ : d₄.Meets C := Dev.onXlt_meets h₃
    clear_value d₃ d₄ reason
    have h₅ : d₅.Meets C := by
      dsimp -zeta -iota -proj only [d₅]
      refine foldl_meets h₄ (fun _ _ h₁₃ => ?_)
      split
      · exact meets_ite (sendDisconnect_meets _ _ _ h₁₃) h₁₃
    have h₆ : d₆.Meets C := failJobs_meets _ _ _ _ (dropOps_meets _ _ h₅)
    have h₇ : d₇.Meets C := foldl_meets h₆ (fun _ _ h₁₄ => destroyQp_meets _ _ _ h₁₄)
    clear_value d₅ d₆ qs d₇
    have h₈ : d₈.Meets C := by
      dsimp -zeta -iota -proj only [d₈]
      refine foldl_meets h₇ (fun _ _ h₁₆ => ?_)
      split
      · exact destroyCq_meets _ _ h₁₆
    have h₉ : d₉.Meets C := restartTenant_meets _ _ (groupsTidy_meets _ _ h₈)
    exact Dev.onTen_meets _ _ _ h₉

theorem tenantReset_meets {C : Claim} (n : Nat) (cause : ResetCause) (d : Dev) (hC : C.Wide) (hm : d.Meets C) : (tenantReset n cause d).Meets C := by
  unfold tenantReset
  split
  · exact hm
  · exact meets_ite hm (tenResetTry_meets _ _ hC (tenResetSteps_meets _ _ _ _ hC hm))

theorem devTenantReset_meets {C : Claim} (c : CmdSlot) (d : Dev) (hC : C.Wide) (hm : d.Meets C) : (devTenantReset c d).Meets C := by
  unfold devTenantReset
  refine runChk_meets _ _ _ _ (fun _ _ h₁ => ?_) _ hC hm
  extract_lets +onlyGivenNames n
  clear_value n
  refine withTenant_meets _ _ _ _ (fun _ _ h₃ => meets_ite (finish_meets _ _ _ hC h₃) ?_) _ hC h₁
  extract_lets +onlyGivenNames d₄
  have h₄ : d₄.Meets C := leave_meets _ _ _ hC h₃
  exact tenantReset_meets _ _ _ hC (Dev.onTen_meets _ _ _ h₄)

theorem windowEnd_meets {C : Claim} (w : Nat) (v : Window) (d : Dev) (hC : C.Wide) (hm : d.Meets C) : (windowEnd w v d).Meets C := by
  unfold windowEnd
  extract_lets +onlyGivenNames d₁ d₂
  have h₁ : d₁.Meets C := Dev.onXlt_meets hm
  clear_value d₁
  have h₂ : d₂.Meets C := by
    dsimp -zeta -iota -proj only [d₂]
    split
    · exact answerIf_meets _ _ _ _ _ hC h₁
    · exact h₁
  exact tenResetTry_meets _ _ hC h₂

theorem windowsEnd_meets {C : Claim} (d : Dev) (hC : C.Wide) (hm : d.Meets C) : (windowsEnd d).Meets C := by
  unfold windowsEnd
  refine foldl_meets hm (fun _ _ h₁ => ?_)
  split
  · exact meets_ite (windowEnd_meets _ _ _ hC h₁) h₁

theorem devWindowDrained_meets {C : Claim} (w : Nat) (d : Dev) (hC : C.Wide) (hm : d.Meets C) : (devWindowDrained w d).Meets C := by
  unfold devWindowDrained
  split
  · exact hm
  · exact meets_ite hm (windowsEnd_meets _ hC (freeWindows_meets _ _ _ hC hm))

theorem devReplicatedTableWrite_meets {C : Claim} (u : Nat) (epoch : BitVec 32) (w : TableWrite) (d : Dev)
    (hC : C.Wide) (hm : d.Meets C) : (devReplicatedTableWrite u epoch w d).Meets C := by
  unfold devReplicatedTableWrite
  exact windowsEnd_meets _ hC (tableWrite_meets _ _ _ _ hC hm)

theorem devTenantDestroy_meets {C : Claim} (c : CmdSlot) (stubs : Option Bytes) (d : Dev)
    (hC : C.Wide) (hm : d.Meets C) : (devTenantDestroy c stubs d).Meets C := by
  unfold devTenantDestroy
  refine runChk_meets _ _ _ _ (fun _ _ h₁ => ?_) _ hC hm
  extract_lets +onlyGivenNames n read
  clear_value n read
  split
  · exact finishAt_meets _ _ _ _ hC h₁
  · exact finishAt_meets _ _ _ _ hC h₁
  · refine meets_ite (finish_meets _ _ _ hC h₁) ?_
    extract_lets +onlyGivenNames tab d₂
    have h₂ : d₂.Meets C := leave_meets _ _ _ hC (Dev.onTen_meets _ _ _ h₁)
    exact meets_ite h₂ (tenResetTry_meets _ _ hC (tenResetSteps_meets _ _ _ _ hC h₂))

theorem devStubExpiry_meets {C : Claim} (qpn : Nat) (d : Dev) (hm : d.Meets C) : (devStubExpiry qpn d).Meets C := by
  unfold devStubExpiry
  exact Dev.onQ_meets (Dev.onTens_meets hm)

theorem devTenantFreeze_meets {C : Claim} (c : CmdSlot) (d : Dev) (hC : C.Wide) (hm : d.Meets C) : (devTenantFreeze c d).Meets C := by
  unfold devTenantFreeze
  refine runChk_meets _ _ _ _ (fun _ _ h₁ => ?_) _ hC hm
  extract_lets +onlyGivenNames n
  clear_value n
  refine withTenant_meets _ _ _ _ (fun _ _ h₃ => meets_ite (finish_meets _ _ _ hC h₃) (meets_ite (finish_meets _ _ _ hC h₃) ?_)) _ hC h₁
  extract_lets +onlyGivenNames busy
  clear_value busy
  refine meets_ite (finish_meets _ _ _ hC h₃) ?_
  extract_lets +onlyGivenNames d₄ d₅ qs d₆
  have h₄ : d₄.Meets C := leave_meets _ _ _ hC (tenState_meets _ _ _ (Dev.onTen_meets _ _ _ h₃))
  clear_value d₄
  have h₅ : d₅.Meets C := by
    dsimp -zeta -iota -proj only [d₅]
    refine foldl_meets h₄ (fun _ _ h₈ => ?_)
    split
    · exact ropeAbortLocal_meets _ _ _ h₈
  clear_value d₅ qs
  have h₆ : d₆.Meets C := by
    dsimp -zeta -iota -proj only [d₆]
    refine foldl_meets h₅ (fun _ _ h₁₀ => ?_)
    split
    · exact Dev.onQp_meets _ _ _ h₁₀
  exact dropWaiters_meets _ _ h₆

theorem frozenNow_meets {C : Claim} (n : Nat) (flushed : Nat) (st : Nat) (d : Dev)
    (hC : C.Wide) (hm : d.Meets C) : (frozenNow n flushed st d).Meets C := by
  unfold frozenNow
  split
  · exact hm
  · split
    · exact hm
    · extract_lets +onlyGivenNames d₁
      have h₁ : d₁.Meets C := postEvent_meets _ _ _ _ _ _ (tenState_meets _ _ _ (Dev.onTen_meets _ _ _ hm))
      clear_value d₁
      split
      · exact answerIf_meets _ _ _ _ _ hC h₁
      · exact h₁

theorem devFreezeDrained_meets {C : Claim} (n : Nat) (d : Dev) (hC : C.Wide) (hm : d.Meets C) : (devFreezeDrained n d).Meets C := by
  unfold devFreezeDrained
  split
  · exact hm
  · exact meets_ite (frozenNow_meets _ _ _ _ hC hm) hm

theorem unresolveTenant_meets {C : Claim} (n : Nat) (d : Dev) (hC : C.Wide) (hm : d.Meets C) : (unresolveTenant n d).Meets C := by
  unfold unresolveTenant
  extract_lets +onlyGivenNames l
  clear_value l
  refine foldl_meets hm (fun _ _ h₂ => ?_)
  split
  · exact foldl_meets (dropRec_meets _ _ h₂) (fun _ _ h₃ => unresolved_meets _ _ hC h₃)

theorem devFreezeLimit_meets {C : Claim} (n : Nat) (d : Dev) (hC : C.Wide) (hm : d.Meets C) : (devFreezeLimit n d).Meets C := by
  unfold devFreezeLimit
  split
  · exact hm
  · refine meets_ite hm ?_
    extract_lets +onlyGivenNames qs d₁ d₂
    clear_value qs
    have h₁ : d₁.Meets C := by
      dsimp -zeta -iota -proj only [d₁]
      refine foldl_meets hm (fun _ _ h₄ => ?_)
      split
      · exact toFlush_meets _ _ _ _ h₄
    clear_value d₁
    have h₂ : d₂.Meets C := by
      dsimp -zeta -iota -proj only [d₂]
      refine foldl_meets h₁ (fun _ _ h₆ => ?_)
      split
      · exact meets_ite h₆ (cqOverflow_meets _ _ _ h₆)
    exact frozenNow_meets _ _ _ _ hC (unresolveTenant_meets _ _ hC h₂)

theorem devTenantThaw_meets {C : Claim} (c : CmdSlot) (d : Dev) (hC : C.Wide) (hm : d.Meets C) : (devTenantThaw c d).Meets C := by
  unfold devTenantThaw
  refine runChk_meets _ _ _ _ (fun _ _ h₁ => ?_) _ hC hm
  extract_lets +onlyGivenNames n
  exact withTenant_meets _ _ _ _ (fun _ _ h₃ => meets_ite (finishAt_meets _ _ _ _ hC h₃) (meets_ite (finish_meets _ _ _ hC h₃)
        (finish_meets _ _ _ hC (postEvent_meets _ _ _ _ _ _ (tenState_meets _ _ _ h₃))))) _ hC h₁

theorem devTenantQuery_meets {C : Claim} (c : CmdSlot) (d : Dev) (hC : C.Wide) (hm : d.Meets C) : (devTenantQuery c d).Meets C := by
  unfold devTenantQuery
  refine runChk_meets _ _ _ _ (fun _ _ h₁ => ?_) _ hC hm
  split
  · exact finishAt_meets _ _ _ _ hC h₁
  · exact finishRes_meets _ _ _ _ _ hC h₁

/-! ### Operations of Host -/

theorem undoRestore_meets {C : Claim} (m : Cmd) (d : Dev) (hC : C.Wide) (hm : d.Meets C) : (undoRestore m d).Meets C := by
  unfold undoRestore
  refine meets_ite hm ?_
  extract_lets +onlyGivenNames n d₁ d₂ d₃
  have h₁ : d₁.Meets C := dropRuns_meets _ _ (Dev.onXlt_meets hm)
  have h₂ : d₂.Meets C := freeWindows_meets _ _ _ hC h₁
  have h₃ : d₃.Meets C := Dev.onQ_meets h₂
  exact Dev.onMem_meets h₃ rfl

theorem takeover_meets {C : Claim} (d : Dev) (hC : C.Wide) (hm : d.Meets C) : (takeover d).Meets C := by
  unfold takeover
  extract_lets +onlyGivenNames d₁ d₂ d₃ mark d₄
  have h₁ : d₁.Meets C := windowsEnd_meets _ hC (replCarry_meets _ hC hm)
  clear_value d₁
  have h₂ : d₂.Meets C := by
    dsimp -zeta -iota -proj only [d₂]
    refine foldl_meets h₁ (fun _ _ h₆ => ?_)
    split
    · exact h₆
    · refine meets_ite ?_ (meets_ite h₆ (answer_meets _ _ _ _ _ _ hC (undoRestore_meets _ _ hC (undoCreation_meets _ _ hC
          (onCmd_meets _ _ _ hC h₆)))))
      split
      · exact Dev.onRing_meets _ _ _ _ hC (setCmd_meets _ _ _ hC h₆)
      · exact onCmd_meets _ _ _ hC h₆
  clear_value d₂
  have h₃ : d₃.Meets C := disownCmds_meets _ hC h₂
  clear_value d₃
  have h₄ : d₄.Meets C := Dev.onCtl_wide hC h₃ rfl rfl rfl
  clear_value d₄
  have h₅ := cairnDrain_meets .east _ (cairnDrain_meets .west _ h₄)
  revert h₅
  generalize cairnDrain .east (cairnDrain .west d₄) = d₅
  intro h₅
  refine foldl_meets h₅ fun d x h => ?_
  obtain ⟨i, r⟩ := x
  have hgather := gather_meets i d h
  dsimp only
  refine meets_ite ?_ h
  split
  · next he => exact .of_pair he hgather
  · next he => exact settle_meets _ (foldl_meets (dropRec_meets _ _ (.of_pair he hgather)) fun _ _ h => unresolved_meets _ _ hC h)

theorem acquired_sound {d : Dev} (token : BitVec 16) {s : Side} (h : d.LeadSound) (hother : d.ctl.dies.get s.other ≠ .leader) :
    ((setHolder 0 (some (.die s)) token d).onCtl fun c => { c with dies := c.dies.set s .leader, lease := 1000 }).LeadSound := by
  obtain ⟨hlen, -⟩ := h
  obtain ⟨hdies, hhasps⟩ := setHolder_zero_ctl (some (.die s)) token d
  exact leadSound_leads hlen hdies hhasps hother

/-- A die acquires Hasp 0 while the other does not lead. -/
theorem acquireWith_meets {C : Claim} (token : BitVec 16) (s : Side) (d : Dev) (hC : C.Inv) (hother : C = .lead → d.ctl.dies.get s.other ≠ .leader)
    (hm : d.Meets C) : (acquireWith token s d).Meets C := by
  unfold acquireWith
  extract_lets +onlyGivenNames d₁ d₂
  refine takeover_meets _ hC.wide (leaderChanged_meets _ _ (.or_lead hC (fun hp => ?_) fun hc => acquired_sound token (hm.leadSound hc) (hother hc)))
  exact Dev.onCtl_plain hp (setHolder_plain _ _ _ _ hp hm)

theorem acquireLead_meets {C : Claim} (s : Side) (d : Dev) (hC : C.Inv) (hother : C = .lead → d.ctl.dies.get s.other ≠ .leader) (hm : d.Meets C) :
    (acquireLead s d).Meets C := by
  unfold acquireLead
  exact acquireWith_meets _ _ _ hC hother hm

/-- While Hasp 0 is free no die leads. -/
theorem Dev.Meets.unled {C : Claim} {d : Dev} (hm : d.Meets C) (hfree : (d.hasp 0).holder.isSome = false) (k : Side) (hc : C = .lead) :
    d.ctl.dies.get k ≠ .leader :=
  (hm.leadSound hc).not_leads fun h => by rw [h] at hfree; cases hfree

theorem followerAcquire_meets {C : Claim} (d : Dev) (hC : C.Inv) (hm : d.Meets C) : (followerAcquire d).Meets C := by
  unfold followerAcquire
  refine meets_cases (fun _ => hm) fun hfree => ?_
  have hunled := hm.unled (Bool.eq_false_iff.2 hfree)
  exact meets_ite (acquireLead_meets _ _ hC (hunled _) hm) (meets_ite (acquireLead_meets _ _ hC (hunled _) hm) hm)

theorem devHaspAcquire_meets {C : Claim} (a : Agent) (n : Nat) (token : BitVec 16) (d : Dev)
    (hC : C.Inv) (hm : d.Meets C) : (devHaspAcquire a n token d).Meets C := by
  unfold devHaspAcquire
  refine meets_ite hm ?_
  split
  · refine meets_cases (fun _ => haspMisuse_meets _ _ hm) fun hn => ?_
    exact meets_ite (count_meets _ _ _ _ _ (setHolder_inv _ _ _ hC (by simp_all) hm)) hm
  · refine meets_cases (fun _ => hm) fun hfree => meets_cases (fun _ => ?_) fun hn => count_meets _ _ _ _ _ (setHolder_inv _ _ _ hC hn hm)
    refine meets_ite (acquireWith_meets _ _ _ hC (hm.unled ?_ _) hm) hm
    simp_all

/-- A die that does not lead lets Hasp 0 go to the other. -/
theorem leadFreed_meets {C : Claim} (s : Side) (d : Dev) (hC : C.Inv) (hs : C = .lead → d.ctl.dies.get s ≠ .leader) (hm : d.Meets C) :
    (leadFreed s d).Meets C := by
  have hother : s.other.other = s := by cases s <;> rfl
  unfold leadFreed
  exact meets_ite (acquireLead_meets _ _ hC (by rwa [hother]) hm) (followerAcquire_meets _ hC hm)

/-- The holder of Hasp 0 lets it go and follows. -/
theorem released_sound {d : Dev} {s : Side} (h : d.LeadSound) (hheld : (d.hasp 0).holder = some (.die s)) :
    ((setHolder 0 none 0#16 d).onCtl fun c => { c with dies := c.dies.set s .follower, lease := 0 }).LeadSound := by
  obtain ⟨hdies, hhasps⟩ := setHolder_zero_ctl none 0#16 d
  refine leadSound_freed h.1 hhasps (fun _ => rfl) fun k hk => ?_
  dsimp only at hk
  rw [hdies] at hk
  have hks := hheld.symm.trans (h.2.1 k (set_leader (by decide) hk))
  cases hks
  cases s <;> cases hk

theorem devHaspRelease_meets {C : Claim} (a : Agent) (n : Nat) (token : BitVec 16) (d : Dev)
    (hC : C.Inv) (hm : d.Meets C) : (devHaspRelease a n token d).Meets C := by
  unfold devHaspRelease
  refine meets_ite hm ?_
  extract_lets +onlyGivenNames mine
  split
  · refine meets_cases (fun _ => haspMisuse_meets _ _ hm) fun hn => setHolder_inv _ _ _ hC ?_ hm
    rintro rfl
    exact hn (by simp)
  · next s =>
    refine meets_cases (fun _ => hm) fun hmine => meets_cases (fun hn => setHolder_inv _ _ _ hC hn hm) fun hn => ?_
    obtain rfl : n = 0 := not_not.1 hn
    have hheld : (d.hasp 0).holder = some (.die s) := by simp_all [mine]
    set x := (setHolder 0 none 0#16 d).onCtl fun c => { c with dies := c.dies.set s .follower, lease := 0 } with hx
    have hfollows : x.ctl.dies.get s ≠ .leader := by
      rw [hx]
      exact fun h => by cases s <;> cases h
    refine leadFreed_meets _ _ hC (fun _ => hfollows) (.or_lead hC (fun hp => ?_) fun hc => released_sound (hm.leadSound hc) hheld)
    exact Dev.onCtl_plain hp (setHolder_plain _ _ _ _ hp hm)

theorem signalParty_meets {C : Claim} (x : Option Side) (v : Nat) (d : Dev) (hm : d.Meets C) : (signalParty x v d).Meets C := by
  unfold signalParty
  split
  · exact msix_meets _ _ _ hm
  · exact hm

theorem wrongParty_meets {C : Claim} (a : Agent) (d : Dev) (hm : d.Meets C) : (wrongParty a d).Meets C := by
  unfold wrongParty
  split
  · exact hostWrongPort_meets _ _ hm
  · exact hm

theorem devMbxDataWrite_meets {C : Claim} (a : Agent) (k : Nat) (word : BitVec 64) (d : Dev)
    (hm : d.Meets C) : (devMbxDataWrite a k word d).Meets C := by
  unfold devMbxDataWrite
  refine meets_ite hm (meets_ite (wrongParty_meets _ _ hm) (meets_ite ?_ (signalParty_meets _ _ _ (Dev.onMbx_meets _ _ _ hm))))
  split
  · exact aerLog_meets _ _ _ (count_meets _ _ _ _ _ (Dev.onMbx_meets _ _ _ hm))
  · exact emit_meets _ _ hm

theorem answerRead_meets {C : Claim} (a : Agent) (v : BitVec 64) (d : Dev) (hm : d.Meets C) : (answerRead a v d).Meets C := by
  unfold answerRead
  split
  · exact emit_meets _ _ hm
  · exact emit_meets _ _ hm

theorem mbxTake_meets {C : Claim} (a : Agent) (k : Nat) (d : Dev) (hm : d.Meets C) : (mbxTake a k d).2.Meets C := by
  unfold mbxTake
  split
  · exact Dev.Meets.paired (signalParty_meets _ _ _ (Dev.onMbx_meets _ _ _ hm))
  · exact hm

theorem devWithdraw_meets {C : Claim} (a : Agent) (k : Nat) (d : Dev) (hm : d.Meets C) : (devWithdraw a k d).Meets C := by
  unfold devWithdraw
  exact meets_ite hm (meets_ite (wrongParty_meets _ _ hm) (Dev.onMbx_meets _ _ _ hm))

theorem devMbxTimeout_meets {C : Claim} (k : Nat) (d : Dev) (hm : d.Meets C) : (devMbxTimeout k d).Meets C := by
  unfold devMbxTimeout
  exact meets_ite (count_meets _ _ _ _ _ (signalParty_meets _ _ _ (Dev.onMbx_meets _ _ _ hm))) hm

theorem mbxReceiverReset_meets {C : Claim} (k : Nat) (d : Dev) (hm : d.Meets C) : (mbxReceiverReset k d).Meets C := by
  unfold mbxReceiverReset
  exact meets_ite (signalParty_meets _ _ _ (Dev.onMbx_meets _ _ _ hm)) hm

theorem mbxSenderReset_meets {C : Claim} (k : Nat) (d : Dev) (hm : d.Meets C) : (mbxSenderReset k d).Meets C := by
  unfold mbxSenderReset
  exact Dev.onMbx_meets _ _ _ hm

theorem fenceDie_meets {C : Claim} (s : Side) (case : Nat) (d : Dev) (hC : C.Inv) (hm : d.Meets C) : (fenceDie s case d).Meets C := by
  unfold fenceDie
  extract_lets +onlyGivenNames d₁ d₂
  have h₁ : d₁.Meets C := travLost_meets _ _ hC.wide (Dev.onCtl_inv hC hm rfl fun _ => set_leader (by decide))
  have h₂ : d₂.Meets C := logIt_meets _ _ _ _ _ _ (releaseAll_meets _ _ hC.wide h₁)
  clear_value d₁ d₂
  refine meets_ite ?_ h₂
  extract_lets +onlyGivenNames d₃
  have h₃ : d₃.Meets C := mbxReceiverReset_meets _ _ (mbxReceiverReset_meets _ _ h₂)
  exact meets_ite (raiseAlert_meets _ _ h₃) h₃

theorem devLeaseRenewal_meets {C : Claim} (d : Dev) (hC : C.Inv) (hm : d.Meets C) : (devLeaseRenewal d).Meets C := by
  unfold devLeaseRenewal
  split
  · exact Dev.onCtl_inv hC hm rfl fun _ => id
  · exact followerAcquire_meets _ hC hm

/-- The lease of a die that does not lead, and that holds Hasp 0, ends. -/
theorem expired_sound {d : Dev} {s : Side} (h : d.LeadSound) (hheld : (d.hasp 0).holder = some (.die s)) (hs : d.ctl.dies.get s ≠ .leader) :
    ((setHolder 0 none 0#16 d).onCtl fun c => { c with lease := 0 }).LeadSound := by
  obtain ⟨hdies, hhasps⟩ := setHolder_zero_ctl none 0#16 d
  refine leadSound_freed h.1 hhasps (fun _ => rfl) fun k hk => ?_
  dsimp only at hk
  rw [hdies] at hk
  have hks := hheld.symm.trans (h.2.1 k hk)
  cases hks
  exact hs hk

theorem fenceDie_seat (s : Side) (case : Nat) (d : Dev) : (fenceDie s case d).Meets (.seat (d.onCtl fun c => { c with dies := c.dies.set s .fenced })) := by
  unfold fenceDie
  extract_lets +onlyGivenNames d₁ d₂
  have h₂ : d₂.Meets (.seat (d.onCtl fun c => { c with dies := c.dies.set s .fenced })) :=
    logIt_meets _ _ _ _ _ _ (releaseAll_meets _ _ trivial (travLost_meets _ _ trivial ⟨rfl, rfl, rfl, rfl, rfl, rfl⟩))
  clear_value d₁ d₂
  have h₃ := mbxReceiverReset_meets 2 _ (mbxReceiverReset_meets 0 _ h₂)
  exact meets_ite (meets_ite (raiseAlert_meets _ _ h₃) h₃) h₂

theorem devLeaseExpiry_meets {C : Claim} (d : Dev) (hC : C.Inv) (hm : d.Meets C) : (devLeaseExpiry d).Meets C := by
  unfold devLeaseExpiry
  split
  · next s hheld =>
    extract_lets +onlyGivenNames d₁
    have h₁ : d₁.Meets C := meets_ite (fenceDie_meets _ _ _ hC hm) hm
    have hseat : (d₁.hasp 0).holder = some (.die s) ∧ d₁.ctl.dies.get s ≠ .leader := by
      dsimp only [d₁]
      split
      · obtain ⟨hdies, h0, -⟩ := fenceDie_seat s 1 d
        refine ⟨(congrArg Hasp.holder h0).trans hheld, ?_⟩
        rw [hdies]
        exact fun h => by cases s <;> cases h
      · next hs => exact ⟨hheld, hs⟩
    refine followerAcquire_meets _ hC (.or_lead hC (fun hp => ?_) fun hc => expired_sound (h₁.leadSound hc) hseat.1 hseat.2)
    exact Dev.onCtl_plain hp (setHolder_plain _ _ _ _ hp h₁)
  · exact hm

theorem leadOrFollow_meets {C : Claim} (s : Side) (d : Dev) (hC : C.Inv) (hm : d.Meets C) : (leadOrFollow s d).Meets C := by
  unfold leadOrFollow
  refine meets_cases (fun hfree => acquireLead_meets _ _ hC (hm.unled ?_ _) hm) fun _ => Dev.onCtl_inv hC hm rfl fun _ => set_leader (by decide)
  simpa using hfree

theorem devControlDieStart_meets {C : Claim} (s : Side) (d : Dev) (hC : C.Inv) (hm : d.Meets C) : (devControlDieStart s d).Meets C := by
  unfold devControlDieStart
  refine meets_ite hm ?_
  split
  · exact leadOrFollow_meets _ _ hC hm
  · exact meets_ite hm (leadOrFollow_meets _ _ hC hm)

theorem devCdeAcquireDelay_meets {C : Claim} (d : Dev) (hC : C.Inv) (hm : d.Meets C) : (devCdeAcquireDelay d).Meets C := by
  unfold devCdeAcquireDelay
  exact meets_ite (leadOrFollow_meets _ _ hC hm) hm

theorem devFenceNoRenewal_meets {C : Claim} (s : Side) (d : Dev) (hC : C.Inv) (hm : d.Meets C) : (devFenceNoRenewal s d).Meets C := by
  unfold devFenceNoRenewal
  exact meets_ite (fenceDie_meets _ _ _ hC hm) hm

theorem devFenceUnreachable_meets {C : Claim} (s : Side) (d : Dev) (hC : C.Inv) (hm : d.Meets C) : (devFenceUnreachable s d).Meets C := by
  unfold devFenceUnreachable
  exact meets_ite (fenceDie_meets _ _ _ hC hm) hm

theorem devFencedRecovery_meets {C : Claim} (s : Side) (d : Dev) (hC : C.Inv) (hm : d.Meets C) : (devFencedRecovery s d).Meets C := by
  unfold devFencedRecovery
  exact meets_ite (followerAcquire_meets _ hC (Dev.onCtl_inv hC hm rfl fun _ => set_leader (by decide))) hm

theorem devControlDieLost_meets {C : Claim} (s : Side) (d : Dev) (hC : C.Inv) (hm : d.Meets C) : (devControlDieLost s d).Meets C := by
  unfold devControlDieLost
  refine meets_ite hm ?_
  extract_lets +onlyGivenNames d₁
  have h₁ : d₁.Meets C := releaseAll_meets _ _ hC.wide (travLost_meets _ _ hC.wide (Dev.onCtl_inv hC hm rfl fun _ => set_leader (by decide)))
  exact meets_ite (mbxReceiverReset_meets _ _ (mbxReceiverReset_meets _ _ h₁)) h₁

theorem devMsiXUnmask_meets {C : Claim} (p : Side) (v : Option Nat) (d : Dev) (hm : d.Meets C) : (devMsiXUnmask p v d).Meets C := by
  unfold devMsiXUnmask
  refine msixFlush_meets _ _ ?_
  split
  · exact meets_ite (Dev.onHost_meets hm rfl) hm
  · exact Dev.onHost_meets hm rfl

theorem ringsReset_meets {C : Claim} (p : Side) (d : Dev) (hC : C.Wide) (hm : d.Meets C) : (ringsReset p d).Meets C := by
  unfold ringsReset
  extract_lets +onlyGivenNames clear d₁
  have h₁ : d₁.Meets C := by
    dsimp -zeta -iota -proj only [d₁]
    refine foldl_meets hm (fun _ _ h₃ => ?_)
    split
    · exact meets_ite (logIt_meets _ _ _ _ _ _ h₃) h₃
    · exact h₃
  exact Dev.onCtl_wide hC h₁ rfl rfl rfl

theorem portFields_meets {C : Claim} (p : Side) (keepLink : Bool) (d : Dev) (hC : C.Inv) (hm : d.Meets C) : (portFields p keepLink d).Meets C := by
  unfold portFields
  exact Dev.onHost_inv hC hm

theorem portEvent_meets {C : Claim} (p : Side) (keepLink : Bool) (d : Dev) (hC : C.Inv) (hm : d.Meets C) : (portEvent p keepLink d).Meets C := by
  unfold portEvent
  extract_lets +onlyGivenNames d₁ d₂ d₃ d₄ d₅ d₆ bound d₇ d₈
  have h₁ : d₁.Meets C := wakeDev_meets _ hC.wide hm
  have h₂ : d₂.Meets C := portFields_meets _ _ _ hC h₁
  have h₃ : d₃.Meets C := Dev.onQ_meets h₂
  have h₄ : d₄.Meets C := Dev.onXlt_meets h₃
  have h₅ : d₅.Meets C := releaseAll_meets _ _ hC.wide h₄
  have h₆ : d₆.Meets C := ringsReset_meets _ _ hC.wide h₅
  have h₇ : d₇.Meets C := foldl_meets h₆ (fun _ _ h₉ => tenantReset_meets _ _ _ hC.wide h₉)
  clear_value d₁ d₂ d₃ d₄ d₅ d₆ bound d₇
  have h₈ : d₈.Meets C := by
    dsimp -zeta -iota -proj only [d₈]
    refine foldl_meets h₇ (fun _ _ h₁₁ => ?_)
    extract_lets +onlyGivenNames d₁₂
    have h₁₂ : d₁₂.Meets C := meets_ite (mbxReceiverReset_meets _ _ h₁₁) h₁₁
    exact meets_ite (mbxSenderReset_meets _ _ h₁₂) h₁₂
  exact Dev.onXPort_meets _ _ _ h₈

theorem devLinkDown_meets {C : Claim} (p : Side) (d : Dev) (hC : C.Inv) (hm : d.Meets C) : (devLinkDown p d).Meets C := by
  unfold devLinkDown
  exact meets_ite (portEvent_meets _ _ _ hC hm) hm

theorem sendHeldRead_meets {C : Claim} (p : Side) (tag : Nat) (d : Dev) (hm : d.Meets C) : (sendHeldRead p tag d).Meets C := by
  unfold sendHeldRead
  split
  · exact hm
  · exact meets_ite (sendRead_meets _ _ _ _ _ _ (Dev.onQ_meets hm)) hm

theorem sendHeldAts_meets {C : Claim} (p : Side) (tag : Nat) (d : Dev) (hm : d.Meets C) : (sendHeldAts p tag d).Meets C := by
  unfold sendHeldAts
  split
  · exact hm
  · exact meets_ite (emit_meets _ _ (Dev.onXlt_meets hm)) hm

theorem sendHeldReads_meets {C : Claim} (p : Side) (d : Dev) (hm : d.Meets C) : (sendHeldReads p d).Meets C := by
  unfold sendHeldReads
  extract_lets +onlyGivenNames d₁
  have h₁ : d₁.Meets C := by
    dsimp -zeta -iota -proj only [d₁]
    refine foldl_meets hm (fun _ _ h₃ => ?_)
    split
    · exact sendHeldRead_meets _ _ _ h₃
  clear_value d₁
  refine foldl_meets h₁ (fun _ _ h₅ => ?_)
  split
  · exact sendHeldAts_meets _ _ _ h₅

theorem resumeOne_meets {C : Claim} (p : Side) (x : Resume) (w : HeldWork) (hC : C.Wide) (hm : x.2.Meets C) : (resumeOne p x w).2.Meets C := by
  cases w with
  | write =>
    simp only [resumeOne]
    split
    · exact sendWrite_meets _ _ _ _ _ _ hm
    · exact hm
  | reply k => exact retireHeld_meets _ _ _ hC hm
  | read tag => exact sendHeldRead_meets _ _ _ hm
  | ats tag => exact sendHeldAts_meets _ _ _ hm
  | cairn => exact cairnDrain1_meets _ _ hm
  | pages => exact priSend_meets _ _ hm
  | event n => exact eventDrain1_meets _ _ hm
  | completion n => exact cqDrain1_meets _ _ hC hm
  | msix v => exact msixSend_meets _ _ _ hm
  | job => exact jobRelease1_meets _ hm

theorem portResume_meets {C : Claim} (p : Side) (d : Dev) (hC : C.Wide) (hm : d.Meets C) : (portResume p d).Meets C := by
  unfold portResume
  refine meets_ite hm ?_
  extract_lets +onlyGivenNames h d₁
  have h₁ : d₁.Meets C := Dev.onHost_meets hm rfl
  clear_value h d₁
  split
  next ws d₂ he =>
    have h₂ : d₂.Meets C := .of_pair he (foldl_meets_snd h₁ fun _ _ h => resumeOne_meets _ _ _ hC h)
    clear he
    extract_lets +onlyGivenNames d₃ d₄ d₅ d₆ d₇ d₈
    have h₃ : d₃.Meets C := foldl_meets h₂ fun _ _ h => sendWrite_meets _ _ _ _ _ _ h
    have h₄ : d₄.Meets C := retireReplied_meets _ _ hC h₃
    have h₅ : d₅.Meets C := sendHeldReads_meets _ _ h₄
    have h₆ : d₆.Meets C := priSend_meets _ _ (cairnDrain_meets _ _ h₅)
    have h₇ : d₇.Meets C := foldl_meets h₆ fun _ _ h => meets_ite (eventDrain_meets _ _ h) h
    have h₈ : d₈.Meets C := foldl_meets h₇ fun _ _ h => meets_ite (cqDrain_meets _ _ hC h) h
    exact jobRelease_meets _ (msixFlush_meets _ _ h₈)

theorem devHostLinkUp_meets {C : Claim} (p : Side) (width : Nat) (gen : Nat) (flit : Bool) (d : Dev)
    (hC : C.Inv) (hm : d.Meets C) : (devHostLinkUp p width gen flit d).Meets C := by
  unfold devHostLinkUp
  extract_lets +onlyGivenNames rec_ below d₁ d₂
  have h₁ : d₁.Meets C := Dev.onHost_inv hC hm
  have h₂ : d₂.Meets C := meets_ite (logIt_meets _ _ _ _ _ _ h₁) h₁
  exact portResume_meets _ _ hC.wide (Dev.onPwr_inv hC h₂ rfl rfl rfl)

theorem devBusMasterEnableSet_meets {C : Claim} (p : Side) (d : Dev) (hC : C.Inv) (hm : d.Meets C) : (devBusMasterEnableSet p d).Meets C := by
  unfold devBusMasterEnableSet
  exact portResume_meets _ _ hC.wide (Dev.onHost_inv hC hm)

theorem devBusMasterEnableClear_meets {C : Claim} (p : Side) (d : Dev) (hC : C.Inv) (hm : d.Meets C) : (devBusMasterEnableClear p d).Meets C := by
  unfold devBusMasterEnableClear
  exact Dev.onHost_inv hC hm

theorem devD3hotEntry_meets {C : Claim} (p : Side) (d : Dev) (hC : C.Inv) (hm : d.Meets C) : (devD3hotEntry p d).Meets C := by
  unfold devD3hotEntry
  exact Dev.onHost_inv hC hm

theorem devD0Return_meets {C : Claim} (p : Side) (d : Dev) (hC : C.Inv) (hm : d.Meets C) : (devD0Return p d).Meets C := by
  unfold devD0Return
  exact portResume_meets _ _ hC.wide (Dev.onHost_inv hC hm)

theorem hostWorkFail_meets {C : Claim} (u : HostUse) (code : Nat) (detail : Nat) (d : Dev)
    (hm : d.Meets C) : (hostWorkFail u code detail d).Meets C := by
  unfold hostWorkFail
  split
  · split
    · exact hm
    · exact endBad_meets _ _ _ _ _ (Dev.onQ_meets hm)
  · split
    · exact hm
    · exact endBad_meets _ _ _ _ _ hm

theorem takeReq_meets {C : Claim} (tag : Nat) (d : Dev) (hm : d.Meets C) : (takeReq tag d).Meets C := by
  unfold takeReq
  exact Dev.onQ_meets hm

theorem placeFreed_meets {C : Claim} (d : Dev) (hm : d.Meets C) : (placeFreed d).Meets C := by
  unfold placeFreed
  exact sendHeldReads_meets _ _ (sendHeldReads_meets _ _ hm)

theorem hostData_meets {C : Claim} (u : HostUse) (b : Bytes) (d : Dev) (hm : d.Meets C) : (hostData u b d).Meets C := by
  unfold hostData
  split
  · exact Dev.onQ_meets hm
  · exact messageRead_meets _ _ _ (Dev.onConn_meets _ _ _ hm)

theorem hostArrived_meets {C : Claim} (tag : Nat) (data : Bytes) (bad : Option (List Nat)) (r : HostReq) (d : Dev)
    (hm : d.Meets C) : (hostArrived tag data bad r d).Meets C := by
  unfold hostArrived
  extract_lets +onlyGivenNames d₁
  have h₁ : d₁.Meets C := takeReq_meets _ _ hm
  clear_value d₁
  refine placeFreed_meets _ ?_
  split
  · exact hostData_meets _ _ _ h₁
  · extract_lets +onlyGivenNames d₂
    have h₂ : d₂.Meets C := hostData_meets _ _ _ h₁
    exact Dev.onQ_meets h₂
  · exact hostWorkFail_meets _ _ _ _ h₁

theorem hostDelivers_meets {C : Claim} (tag : Nat) (data : Bytes) (bad : Option (List Nat)) (d : Dev)
    (hm : d.Meets C) : (hostDelivers tag data bad d).Meets C := by
  unfold hostDelivers
  split
  · exact hm
  · extract_lets +onlyGivenNames o
    exact crossOr_meets _ _ _ (fun _ h₂ => hostArrived_meets _ _ _ _ _ h₂) _ _ hm

theorem devHostCompletion_meets {C : Claim} (tag : Nat) (data : Bytes) (d : Dev) (hm : d.Meets C) : (devHostCompletion tag data d).Meets C := by
  unfold devHostCompletion
  split
  · exact hm
  · exact meets_ite (hostDelivers_meets _ _ _ _ hm) hm

theorem atsFail_meets {C : Claim} (tag : Nat) (r : AtsReq) (d : Dev) (hC : C.Wide) (hm : d.Meets C) : (atsFail tag r d).Meets C := by
  unfold atsFail
  extract_lets +onlyGivenNames d₁
  have h₁ : d₁.Meets C := Dev.onXlt_meets hm
  clear_value d₁
  refine meets_ite h₁ ?_
  split
  · exact failWaiter_meets _ _ _ _ hC h₁
  · split
    · exact h₁
    · exact foldl_meets (dropRec_meets _ _ h₁) (fun _ _ h₂ => failWaiter_meets _ _ _ _ hC h₂)

theorem hostFailed_meets {C : Claim} (t : HostTarget) (src : Nat) (aer : Side → Dev → Dev) (haer : ∀ a₀ a₁, a₁.Meets C → (aer a₀ a₁).Meets C)
    (d : Dev) (hC : C.Wide) (hm : d.Meets C) : (hostFailed t src aer d).Meets C := by
  unfold hostFailed
  extract_lets +onlyGivenNames note
  have h₄ : ∀ a₁ a₂, Dev.Meets C a₂ → Dev.Meets C (note a₁ a₂) := fun _ _ h₃ => haer _ _ (violate_meets _ _ _ _ h₃)
  clear_value note
  split
  · split
    · exact hm
    · exact meets_ite (placeFreed_meets _ (hostWorkFail_meets _ _ _ _ (h₄ _ _ (takeReq_meets _ _ hm)))) hm
  · split
    · exact meets_ite (h₄ _ _ (onCmd_meets _ _ _ hC hm)) hm
    · exact hm
  · split
    · exact hm
    · exact cqOverflow_meets _ _ _ (h₄ _ _ hm)
  · split
    · exact hm
    · exact meets_ite (atsFail_meets _ _ _ hC (h₄ _ _ hm)) hm

theorem devHostReqFailed_meets {C : Claim} (t : HostTarget) (d : Dev) (hC : C.Wide) (hm : d.Meets C) : (devHostReqFailed t d).Meets C := by
  unfold devHostReqFailed
  exact hostFailed_meets _ _ _ (fun _ _ h₁ => h₁) _ hC hm

theorem devCompletionTimeout_meets {C : Claim} (t : HostTarget) (d : Dev) (hC : C.Wide) (hm : d.Meets C) : (devCompletionTimeout t d).Meets C := by
  unfold devCompletionTimeout
  exact meets_ite (hostFailed_meets _ _ _ (fun _ _ h₁ => aerLog_meets _ _ _ h₁) _ hC hm) hm

theorem devPoisonedCompletion_meets {C : Claim} (tag : Nat) (data : Bytes) (granules : List Nat) (d : Dev)
    (hm : d.Meets C) : (devPoisonedCompletion tag data granules d).Meets C := by
  unfold devPoisonedCompletion
  split
  · exact hm
  · exact meets_ite hm (hostDelivers_meets _ _ _ _ (aerLog_meets _ _ _ (violate_meets _ _ _ _ hm)))

theorem devUnexpectedCompletion_meets {C : Claim} (p : Side) (d : Dev) (hm : d.Meets C) : (devUnexpectedCompletion p d).Meets C := by
  unfold devUnexpectedCompletion
  exact aerLog_meets _ _ _ (count_meets _ _ _ _ _ hm)

theorem devPoisonedWrite_meets {C : Claim} (p : Side) (d : Dev) (hm : d.Meets C) : (devPoisonedWrite p d).Meets C := by
  unfold devPoisonedWrite
  exact aerLog_meets _ _ _ (count_meets _ _ _ _ _ hm)

theorem devEntdaa_meets {C : Claim} (a : I3cAssign) (d : Dev) (hm : d.Meets C) : (devEntdaa a d).Meets C := by
  unfold devEntdaa
  split
  · exact Dev.onSide_meets _ _ hm
  · exact meets_ite (Dev.onSide_meets _ _ hm) hm

theorem devMctpControl_meets {C : Claim} (msg : Bytes) (d : Dev) (hm : d.Meets C) : (devMctpControl msg d).Meets C := by
  unfold devMctpControl
  extract_lets +onlyGivenNames d₁
  have h₁ : d₁.Meets C := by
    dsimp -zeta -iota -proj only [d₁]
    split
    · exact Dev.onSide_meets _ _ hm
    · exact hm
  exact emit_meets _ _ h₁

theorem devPldm_meets {C : Claim} (msg : Bytes) (d : Dev) (hm : d.Meets C) : (devPldm msg d).Meets C := by
  unfold devPldm
  exact emit_meets _ _ hm

theorem devIbiAccept_meets {C : Claim} (d : Dev) (hm : d.Meets C) : (devIbiAccept d).Meets C := by
  unfold devIbiAccept
  split
  · exact hm
  · extract_lets +onlyGivenNames d₁
    have h₁ : d₁.Meets C := emit_meets _ _ (Dev.onSide_meets _ _ hm)
    exact meets_ite (dropAlert_meets _ _ h₁) h₁

theorem devIbiDisabledTimeout_meets {C : Claim} (d : Dev) (hm : d.Meets C) : (devIbiDisabledTimeout d).Meets C := by
  unfold devIbiDisabledTimeout
  exact meets_ite hm (dropAlert_meets _ _ hm)

/-! ### Operations of Snapshot -/

theorem passAllocs_meets {C : Claim} (n : Nat) (carrier : Nat) (reply : ReplyDue) (d : Dev)
    (hC : C.Wide) (hm : d.Meets C) : (passAllocs n carrier reply d).Meets C := by
  unfold passAllocs
  extract_lets +onlyGivenNames d₁ d₂ d₃
  have h₁ : d₁.Meets C := freeWindows_meets _ _ _ hC (Dev.onXlt_meets hm)
  have h₂ : d₂.Meets C := dropRuns_meets _ _ h₁
  have h₃ : d₃.Meets C := Dev.onMem_meets h₂ rfl
  exact Dev.onTen_meets _ _ _ h₃

theorem devTenantSave_meets {C : Claim} (c : CmdSlot) (d : Dev) (hC : C.Wide) (hm : d.Meets C) : (devTenantSave c d).Meets C := by
  unfold devTenantSave
  refine runChk_meets _ _ _ _ (fun _ _ h₁ => ?_) _ hC hm
  extract_lets +onlyGivenNames n car
  clear_value n car
  refine withTenant_meets _ _ _ _ (fun _ _ h₃ => ?_) _ hC h₁
  extract_lets +onlyGivenNames write
  have h₆ : ∀ a₄, Dev.Meets C a₄ → Dev.Meets C (write a₄) := by
    intro _ h₅
    dsimp -zeta -iota -proj only [write]
    extract_lets +onlyGivenNames b
    exact meets_ite (passAllocs_meets _ _ _ _ hC (leave_meets _ _ _ hC h₅)) (finishRes_meets _ _ _ _ _ hC h₅)
  clear_value write
  refine meets_ite (finishAt_meets _ _ _ _ hC h₃) (meets_ite (meets_ite (finish_meets _ _ _ hC h₃) (h₆ _ h₃)) ?_)
  split
  · exact finishAt_meets _ _ _ _ hC h₃
  · exact meets_ite (finishAt_meets _ _ _ _ hC h₃) (meets_ite (finishAt_meets _ _ _ _ hC h₃) (meets_ite (finish_meets _ _ _ hC h₃) (meets_ite
        (quotaHit_meets _ _ _ _ hC h₃) (h₆ _ h₃))))

theorem restoreAll_meets {C : Claim} (t : Nat) (x : Snap) (handles : List Nat) (cqs : List Nat) (qps : List Nat) (wins : List Nat) (d : Dev)
    (hm : d.Meets C) : (restoreAll t x handles cqs qps wins d).Meets C := by
  unfold restoreAll
  extract_lets +onlyGivenNames d₁ maps d₂ d₃ d₄ d₅ d₆
  have h₁ : d₁.Meets C := Dev.onMem_meets hm rfl
  have h₂ : d₂.Meets C := onTab_meets _ _ _ h₁
  clear_value d₁ maps d₂
  have h₃ : d₃.Meets C := by
    dsimp -zeta -iota -proj only [d₃]
    refine foldl_meets h₂ (fun _ _ h₈ => ?_)
    split
    · exact Dev.onQ_meets h₈
  clear_value d₃
  have h₄ : d₄.Meets C := by
    dsimp -zeta -iota -proj only [d₄]
    refine foldl_meets h₃ (fun _ _ h₁₀ => ?_)
    split
    · exact Dev.onQ_meets h₁₀
  have h₅ : d₅.Meets C := Dev.onTen_meets _ _ _ h₄
  have h₆ : d₆.Meets C := Dev.onNet_meets h₅
  clear_value d₄ d₅ d₆
  refine foldl_meets h₆ (fun _ _ h₁₂ => ?_)
  split
  · exact openWindow_meets _ _ _ _ _ _ _ _ h₁₂

theorem restoreChecked_meets {C : Claim} (c : CmdSlot) (p : Bytes) (t : Tenant) (x : Snap) (handles : List Nat) (d : Dev)
    (hC : C.Wide) (hm : d.Meets C) : (restoreChecked c p t x handles d).Meets C := by
  unfold restoreChecked
  extract_lets +onlyGivenNames n donor owned units sameUnits hugeOk maps tables slabs
  clear_value n donor owned units sameUnits hugeOk maps tables slabs
  refine meets_ite (finish_meets _ _ _ hC hm) (meets_ite (finish_meets _ _ _ hC hm) (meets_ite (finish_meets _ _ _ hC hm) (meets_ite
        (quotaHit_meets _ _ _ _ hC hm) (meets_ite (quotaHit_meets _ _ _ _ hC hm) (meets_ite (quotaHit_meets _ _ _ _ hC hm) (meets_ite
        (quotaHit_meets _ _ _ _ hC hm) (meets_ite (quotaHit_meets _ _ _ _ hC hm) ?_)))))))
  split
  · extract_lets +onlyGivenNames same
    clear_value same
    refine meets_ite (finish_meets _ _ _ hC hm) (meets_ite (finish_meets _ _ _ hC hm) ?_)
    extract_lets +onlyGivenNames d₁ res
    have h₁ : d₁.Meets C := restoreAll_meets _ _ _ _ _ _ _ (placeTables_meets _ _ (by assumption) hm)
    exact replFinish_meets _ _ _ _ _ _ hC (postEvent_meets _ _ _ _ _ _ h₁)
  · exact finish_meets _ _ _ hC hm

theorem devTenantRestore_meets {C : Claim} (c : CmdSlot) (snap : Bytes) (handles : Bytes) (d : Dev)
    (hC : C.Wide) (hm : d.Meets C) : (devTenantRestore c snap handles d).Meets C := by
  unfold devTenantRestore
  refine meets_ite (runChk_meets _ _ _ _ (fun _ _ h₁ => ?_) _ hC hm) hm
  extract_lets +onlyGivenNames n
  clear_value n
  refine withTenant_meets _ _ _ _ (fun _ _ h₃ => ?_) _ hC h₁
  split
  · exact finishAt_meets _ _ _ _ hC h₃
  · refine meets_ite (finishAt_meets _ _ _ _ hC h₃) (meets_ite (finishAt_meets _ _ _ _ hC h₃) (meets_ite (finish_meets _ _ _ hC h₃) ?_))
    extract_lets +onlyGivenNames x
    exact restoreChecked_meets _ _ _ _ _ _ hC h₃

end Sys2Proof.Machine
end

section
/-! SUPPORT. Claims that operations keep: work entries, engines and command packets. -/

namespace Sys2Proof.Machine

/-! ### Operations of Qp -/

theorem armCq_meets {C : Claim} (n : Nat) (d : Dev) (hm : d.Meets C) : (armCq n d).Meets C := by
  unfold armCq
  split
  · exact hm
  · exact meets_ite hm (meets_ite (msix_meets _ _ _ (Dev.onCq_meets _ _ _ hm)) (Dev.onCq_meets _ _ _ hm))

theorem armEv_meets {C : Claim} (n : Nat) (d : Dev) (hm : d.Meets C) : (armEv n d).Meets C := by
  unfold armEv
  split
  · exact hm
  · exact meets_ite hm (meets_ite (msix_meets _ _ _ (Dev.onTen_meets _ _ _ hm)) (Dev.onTen_meets _ _ _ hm))

theorem bellApply_meets {C : Claim} {t kind number i : Nat} {arm : Bool} {d e : Dev} (he : bellApply t kind number i arm d = some e) (hC : C.Wide)
    (hm : d.Meets C) : e.Meets C := by
  have hqp {f : WorkRing → Qp → Qp} {r : Option WorkRing} (he : (r.map fun r => d.onQp number (f r)) = some e) : e.Meets C := by
    obtain ⟨r, -, rfl⟩ := Option.map_eq_some_iff.1 he
    exact Dev.onQp_meets _ _ _ hm
  unfold bellApply at he
  split at he
  · split at he
    · cases he
    · dsimp only at he
      split at he
      · cases he
      · split at he
        · exact hqp he
        · split at he
          · cases he
          · exact hqp he
  · split at he
    · split at he
      · cases he
      · split at he
        · cases he
        · cases he
          have hdrained := cqDrain_meets number _ hC (Dev.onCq_meets _ number (fun c => { c with c := i, timer := c.timer && c.c = i }) hm)
          exact meets_ite (armCq_meets _ _ hdrained) hdrained
    · split at he
      · split at he
        · cases he
        · split at he
          · cases he
          · cases he
            have hdrained := eventDrain_meets t _ (Dev.onTen_meets _ t (fun x => { x with ev := { x.ev with c := i } }) hm)
            exact meets_ite (armEv_meets _ _ hdrained) hdrained
      · cases he

theorem bellReject_meets {C : Claim} (t : Nat) (d : Dev) (hm : d.Meets C) : (bellReject t d).Meets C := by
  unfold bellReject
  exact tenCount_meets _ _ _ _ (Dev.onTen_meets _ _ _ hm)

theorem bellLand_meets {C : Claim} (p : Side) (page : Nat) (kind : Nat) (number : Nat) (index : Nat) (arm : Bool) (d : Dev)
    (hC : C.Wide) (hm : d.Meets C) : (bellLand p page kind number index arm d).Meets C := by
  unfold bellLand
  split
  · exact count_meets _ _ _ _ _ (bellApply_meets (by assumption) hC hm)
  · exact bellReject_meets _ _ hm

theorem devBell_meets {C : Claim} (p : Side) (requester : BitVec 16) (page kind : Nat) (number index : BitVec 16) (arm : Bool) (d : Dev) (hC : C.Wide)
    (hm : d.Meets C) : (devBell p requester page kind number index arm d).Meets C := by
  unfold devBell
  split
  · exact hostWrongPort_meets _ _ hm
  · refine meets_ite hm (meets_ite (wakeDev_meets _ hC (Dev.onPwr_wide hC hm rfl rfl rfl rfl rfl)) ?_)
    extract_lets +onlyGivenNames d₁ land
    have h₁ : d₁.Meets C := bivAbort_meets _ hC hm
    split
    · exact crossOr_meets _ _ _ (fun _ h => bellLand_meets _ _ _ _ _ _ _ hC h) _ _ h₁
    · exact bellLand_meets _ _ _ _ _ _ _ hC h₁

theorem fetchSq_meets {C : Claim} (n : Nat) (k : Nat) (b : Bytes) (d : Dev) (hm : d.Meets C) : (fetchSq n k b d).2.Meets C := by
  unfold fetchSq
  split
  · exact hm
  · extract_lets +onlyGivenNames tile full
    clear_value tile full
    split
    · exact hm
    · split
      · exact Dev.Meets.paired (Dev.onQp_meets _ _ _ hm)
      · extract_lets +onlyGivenNames late fail
        clear_value late fail
        split
        · exact Dev.Meets.paired (Dev.onQp_meets _ _ _ hm)
        · split
          · exact Dev.Meets.paired (Dev.onQp_meets _ _ _ hm)
          · exact Dev.Meets.paired (Dev.onQp_meets _ _ _ hm)

theorem fetchRq_meets {C : Claim} (n : Nat) (k : Nat) (b : Bytes) (d : Dev) (hm : d.Meets C) : (fetchRq n k b d).2.Meets C := by
  unfold fetchRq
  split
  · exact hm
  · extract_lets +onlyGivenNames push ends
    split
    · exact Dev.Meets.paired (Dev.onQp_meets _ _ _ hm)
    · extract_lets +onlyGivenNames late
      clear_value late
      split
      · exact Dev.Meets.paired (Dev.onQp_meets _ _ _ hm)
      · split
        · exact Dev.Meets.paired (Dev.onQp_meets _ _ _ hm)
        · split
          · extract_lets +onlyGivenNames d₁
            have h₁ : d₁.Meets C := Dev.onQp_meets _ _ _ hm
            clear_value d₁
            split
            · exact Dev.Meets.paired (toFlush_meets _ _ _ _ (count_meets _ _ _ _ _ h₁))
            · exact h₁
          · split
            · exact Dev.Meets.paired (Dev.onQp_meets _ _ _ (lookupRange_meets _ _ _ _ _ _ hm))
            · extract_lets +onlyGivenNames d₂
              have h₂ : d₂.Meets C := Dev.onQp_meets _ _ _ hm
              clear_value d₂
              split
              · exact Dev.Meets.paired (stallStream_meets _ _ (.of_pair (by assumption) (stallOn_meets _ _ _ _ _ _ h₂)))
              · exact Dev.Meets.paired (fetchFail_meets _ _ _ _ _ (.of_pair (by assumption) (stallOn_meets _ _ _ _ _ _ h₂)))
              · exact Dev.Meets.paired (fetchFail_meets _ _ _ _ _ (.of_pair (by assumption) (stallOn_meets _ _ _ _ _ _ h₂)))

theorem fetchOne_meets {C : Claim} (n : Nat) (k : Nat) (rq : Bool) (b : Bytes) (d : Dev) (hm : d.Meets C) : (fetchOne n k rq b d).2.Meets C := by
  unfold fetchOne
  split
  · exact fetchRq_meets _ _ _ _ hm
  · exact fetchSq_meets _ _ _ _ hm

theorem fetchBurst_meets {C : Claim} (n : Nat) (rq : Bool) (m : Nat) (first : Bool) (host : Bytes) (d : Dev) (hm : d.Meets C) :
    (fetchBurst n rq m first host d).Meets C := by
  induction m generalizing first host d with
  | zero => exact hm
  | succ m ih =>
    simp only [fetchBurst]
    split
    · exact hm
    · next q hq =>
      have htouched := touchRange_meets (qpTile n) q.par.tenant (nextAddr q rq) 64 false d hm
      split
      · exact fetchRq_meets _ _ _ _ htouched
      · split
        · next b hb =>
          have hone := fetchOne_meets n 0 rq b _ htouched
          split <;> [exact ih _ _ _ hone; exact hone]
        · exact fetchFail_meets _ _ _ _ _ htouched
        · next x hx =>
          have hstall := stallOn_meets (qpTile n) q.par.tenant false (ringWho n rq) x _ htouched
          refine meets_ite htouched ?_
          split
          · next he => exact stallStream_meets _ _ (.of_pair he hstall)
          · next he => exact fetchFail_meets _ _ _ _ _ (.of_pair he hstall)
          · next he => exact fetchFail_meets _ _ _ _ _ (.of_pair he hstall)

theorem devWorkFetch_meets {C : Claim} (tile : Nat) (host : Bytes) (d : Dev) (hm : d.Meets C) : (devWorkFetch tile host d).Meets C := by
  unfold devWorkFetch
  extract_lets +onlyGivenNames cs
  clear_value cs
  refine meets_ite hm ?_
  extract_lets +onlyGivenNames ts defs quantum
  clear_value ts defs
  split
  · extract_lets +onlyGivenNames mine fresh
    clear_value mine
    split
    · split
      · extract_lets +onlyGivenNames rq s f m d₁ d₂
        have h₁ : d₁.Meets C := Dev.onQ_meets hm
        have h₂ : d₂.Meets C := lookupRange_meets _ _ _ _ _ _ (Dev.onQp_meets _ _ _ h₁)
        exact fetchBurst_meets _ _ _ _ _ _ h₂
      · exact hm

theorem refetchRing_meets {C : Claim} (n : Nat) (rq : Bool) (data : Bytes) (d : Dev) (hm : d.Meets C) : (refetchRing n rq data d).Meets C := by
  unfold refetchRing
  split
  · exact hm
  · extract_lets +onlyGivenNames k d₁
    have h₁ : d₁.Meets C := touchRange_meets _ _ _ _ _ _ hm
    clear_value k d₁
    refine meets_ite hm ?_
    split
    · exact fetchOne_meets _ _ _ _ _ h₁
    · exact fetchFail_meets _ _ _ _ _ h₁
    · extract_lets +onlyGivenNames d₂
      have h₂ : d₂.Meets C := Dev.onQp_meets _ _ _ h₁
      clear_value d₂
      split
      · exact stallStream_meets _ _ (.of_pair (by assumption) (stallOn_meets _ _ _ _ _ _ h₂))
      · exact fetchFail_meets _ _ _ _ _ (.of_pair (by assumption) (stallOn_meets _ _ _ _ _ _ h₂))
      · exact fetchFail_meets _ _ _ _ _ (.of_pair (by assumption) (stallOn_meets _ _ _ _ _ _ h₂))

theorem placeDev_meets {C : Claim} (q : Nat) (b : Bytes) (bad : List (Nat × Nat)) (d : Dev) (hm : d.Meets C) : (placeDev q b bad d).2.Meets C := by
  unfold placeDev
  extract_lets +onlyGivenNames part d₁
  have h₁ : d₁.Meets C := memWrite_meets hm
  clear_value part d₁
  refine foldl_meets h₁ (fun _ _ h₃ => ?_)
  split
  · exact memPoison_meets _ _ _ h₃

theorem placeHost_meets {C : Claim} (s : Side) (pasid : Option Nat) (a : Nat) (b : Bytes) (bad : List (Nat × Nat)) (d : Dev)
    (hm : d.Meets C) : (placeHost s pasid a b bad d).2.Meets C := by
  unfold placeHost
  refine foldl_meets hm (fun _ _ h₁ => ?_)
  split
  · exact hostPut_meets _ _ _ _ _ _ h₁

theorem moveLeg_meets {C : Claim} {g : XLeg} {d e : Dev} {bad : Bool} (he : moveLeg g d = some (bad, e)) (hm : d.Meets C) : e.Meets C := by
  unfold moveLeg at he
  extract_lets touch off d' at he
  have htouch (p : Place) (d : Dev) (hm : d.Meets C) : (touch p d).Meets C := by
    cases p with
    | dev a => exact touchStack_meets _ _ hm
    | host s pasid a => exact hm
  have hd' : d'.Meets C := htouch _ _ (meets_ite hm (htouch _ _ hm))
  clear_value d'
  split at he
  · cases he
  · dsimp only at he
    split at he
    · exact .of_pair (Option.some.inj he) (placeDev_meets _ _ _ _ hd')
    · exact .of_pair (Option.some.inj he) (placeHost_meets _ _ _ _ _ _ hd')

theorem atomicAt_meets {C : Claim} {p size op a b old : Nat} {d e : Dev} (he : atomicAt p size op a b d = some (old, e))
    (hm : d.Meets C) : e.Meets C := by
  unfold atomicAt at he
  split at he
  · cases he
  · cases he
    exact memWrite_meets hm

theorem xferEnd_meets {C : Claim} (x : Nat) (aux : BitVec 64) (d : Dev) (hm : d.Meets C) : (xferEnd x aux d).Meets C := by
  unfold xferEnd
  split
  · exact hm
  · refine meets_ite hm ?_
    extract_lets +onlyGivenNames d₁ n
    have h₁ : d₁.Meets C := Dev.onQ_meets hm
    clear_value d₁ n
    split
    · exact endBad_meets _ _ _ _ _ h₁
    · exact meets_ite (endEntry_meets _ _ _ _ _ h₁) (endOk_meets _ _ _ _ _ h₁)

theorem moveAtomic_meets {C : Claim} {t : Xfer} {g : XLeg} {d e : Dev} {old : BitVec 64} {bad : Bool} (he : moveAtomic t g d = some (old, bad, e))
    (hm : d.Meets C) : e.Meets C := by
  unfold moveAtomic at he
  split at he
  · cases he
  · next p hp =>
    have htouched := touchStack_meets (dpaStack p) _ hm
    dsimp only at he
    split at he
    · cases he
    · split at he
      · cases he
        exact htouched
      · next old' d' hat =>
        obtain ⟨x, hx, hxe⟩ := Option.map_eq_some_iff.1 he
        cases hxe
        exact moveLeg_meets hx (atomicAt_meets hat htouched)

theorem devLegDone_meets {C : Claim} (x : Nat) (l : Nat) (d : Dev) (hm : d.Meets C) : (devLegDone x l d).Meets C := by
  unfold devLegDone
  split
  · exact hm
  · split
    · exact hm
    · extract_lets +onlyGivenNames waits
      clear_value waits
      refine meets_ite hm ?_
      extract_lets +onlyGivenNames done
      have h₅ : ∀ a₁ a₂ a₃, Dev.Meets C a₃ → Dev.Meets C (done a₁ a₂ a₃) := fun _ _ _ h₄ => Dev.onQ_meets h₄
      clear_value done
      refine meets_ite ?_ ?_
      · split
        · exact xferEnd_meets _ _ _ (h₅ _ _ _ (moveAtomic_meets (by assumption) hm))
        · exact xferEnd_meets _ _ _ (h₅ _ _ _ hm)
      · split
        · exact xferEnd_meets _ _ _ (h₅ _ _ _ (moveLeg_meets (by assumption) hm))
        · exact xferEnd_meets _ _ _ (h₅ _ _ _ hm)

theorem waitEnd_meets {C : Claim} (n : Nat) (w : WaitSt) (d : Dev) (hm : d.Meets C) : (waitEnd n w d).Meets C := by
  unfold waitEnd
  exact Dev.onQp_meets _ _ _ (meets_ite (endBad_meets _ _ _ _ _ hm) (endOk_meets _ _ _ _ _ hm))

theorem devWaitSatisfied_meets {C : Claim} (n : Nat) (d : Dev) (hm : d.Meets C) : (devWaitSatisfied n d).Meets C := by
  unfold devWaitSatisfied
  split
  · exact hm
  · split
    · exact hm
    · split
      · exact hm
      · refine meets_ite hm ?_
        extract_lets +onlyGivenNames w d₁
        have h₁ : d₁.Meets C := Dev.onQp_meets _ _ _ hm
        exact meets_ite (waitEnd_meets _ _ _ h₁) h₁

theorem foldl_moveLeg_meets {C : Claim} (l : List XLeg) {r : Option (Bool × Dev)} {bad : Bool} {e : Dev} (hm : ∀ b d, r = some (b, d) → d.Meets C)
    (he : (l.foldl (fun r g => match r with
      | none => none
      | some (bad, d) => (moveLeg g d).map fun (x, d) => (bad || x, d)) r) = some (bad, e)) : e.Meets C := by
  induction l generalizing r with
  | nil => exact hm _ _ he
  | cons g l ih =>
    refine ih ?_ he
    intro b d hd
    cases r with
    | none => cases hd
    | some x =>
      obtain ⟨y, hy, hyd⟩ := Option.map_eq_some_iff.1 hd
      cases hyd
      exact moveLeg_meets hy (hm _ _ rfl)

theorem patchItem_meets {C : Claim} (n : Nat) (w : WaitSt) (b : Bytes) (k : Nat) (d : Dev) (hC : C.Wide) (hm : d.Meets C) :
    (patchItem n w b k d).2.Meets C := by
  unfold patchItem
  split
  · exact hm
  · next q hq =>
    dsimp -zeta only
    extract_lets +onlyGivenNames tile t stop
    have hstop (write : Bool) (e : XErr) : (stop write e d).Meets C := by
      have hstall := stallOn_meets tile t write (.entry n w.idx) e d hm
      dsimp -zeta only [stop]
      split
      · next he => exact stallStream_meets _ _ (Dev.onQp_meets _ _ _ (.of_pair he hstall))
      · next he => exact failWaiter_meets _ _ _ _ hC (.of_pair he hstall)
      · next he => exact failWaiter_meets _ _ _ _ hC (.of_pair he hstall)
    clear_value stop
    split
    · exact hstop _ _
    · split
      · exact hstop _ _
      · extract_lets +onlyGivenNames legs
        split
        · exact Dev.onQp_meets _ _ _ hm
        · extract_lets +onlyGivenNames who d₁ r
          have h₁ : d₁.Meets C := lookupRange_meets _ _ _ _ _ _ (lookupRange_meets _ _ _ _ _ _ hm)
          have hr (bad : Bool) (e : Dev) (he : r = some (bad, e)) : e.Meets C :=
            foldl_moveLeg_meets legs (fun b d hd => by cases hd; exact h₁) he
          clear_value r
          split
          · exact hr _ _ rfl
          · exact Dev.Meets.paired (failWaiter_meets _ _ _ _ hC h₁)

theorem patchItems_meets {C : Claim} (n : Nat) (b : Bytes) (m : Nat) (w : WaitSt) (d : Dev) (hC : C.Wide) (hm : d.Meets C) :
    (patchItems n b m w d).Meets C := by
  induction m generalizing w d with
  | zero => exact waitEnd_meets _ _ _ hm
  | succ m ih =>
    have hitem := patchItem_meets n w b w.items d hC hm
    simp only [patchItems]
    split
    · next he => exact ih _ _ (.of_pair he hitem)
    · next he => exact .of_pair he hitem

theorem devWaitPatchDone_meets {C : Claim} (n : Nat) (d : Dev) (hC : C.Wide) (hm : d.Meets C) : (devWaitPatchDone n d).Meets C := by
  unfold devWaitPatchDone
  split
  · exact hm
  · split
    · exact hm
    · extract_lets +onlyGivenNames b
      exact meets_ite hm (patchItems_meets _ _ _ _ _ hC hm)

theorem devCqStallLimit_meets {C : Claim} (n : Nat) (d : Dev) (hm : d.Meets C) : (devCqStallLimit n d).Meets C := by
  unfold devCqStallLimit
  split
  · exact hm
  · exact meets_ite (cqOverflow_meets _ _ _ hm) hm

theorem devCqCreate_meets {C : Claim} (c : CmdSlot) (d : Dev) (hC : C.Wide) (hm : d.Meets C) : (devCqCreate c d).Meets C := by
  unfold devCqCreate
  refine runChk_meets _ _ _ _ (fun _ _ h₁ => ?_) _ hC hm
  extract_lets +onlyGivenNames n
  clear_value n
  refine withTenant_meets _ _ _ _ (fun _ _ h₃ => meets_ite (finishAt_meets _ _ _ _ hC h₃) (meets_ite (quotaHit_meets _ _ _ _ hC h₃) ?_)) _ hC h₁
  extract_lets +onlyGivenNames tile
  clear_value tile
  split
  · exact finish_meets _ _ _ hC h₃
  · extract_lets +onlyGivenNames q
    exact finishRes_meets _ _ _ _ _ hC (Dev.onQ_meets h₃)

theorem devCqDestroy_meets {C : Claim} (c : CmdSlot) (d : Dev) (hC : C.Wide) (hm : d.Meets C) : (devCqDestroy c d).Meets C := by
  unfold devCqDestroy
  refine runChk_meets _ _ _ _ (fun _ _ h₁ => withTenant_meets _ _ _ _ (fun _ _ h₂ => ?_) _ hC h₁) _ hC hm
  split
  · exact finishAt_meets _ _ _ _ hC h₂
  · exact meets_ite (finishAt_meets _ _ _ _ hC h₂) (meets_ite (finish_meets _ _ _ hC h₂) (finish_meets _ _ _ hC (destroyCq_meets _ _ h₂)))

theorem devQpCreate_meets {C : Claim} (c : CmdSlot) (d : Dev) (hC : C.Wide) (hm : d.Meets C) : (devQpCreate c d).Meets C := by
  unfold devQpCreate
  refine runChk_meets _ _ _ _ (fun _ _ h₁ => ?_) _ hC hm
  extract_lets +onlyGivenNames n
  clear_value n
  refine withTenant_meets _ _ _ _ (fun _ _ h₃ => ?_) _ hC h₁
  extract_lets +onlyGivenNames tile kind noRq ring chk
  clear_value tile kind noRq chk
  split
  · exact finishAt_meets _ _ _ _ hC h₃
  · refine meets_ite (quotaHit_meets _ _ _ _ hC h₃) ?_
    split
    · exact finish_meets _ _ _ hC h₃
    · extract_lets +onlyGivenNames par q
      exact finishRes_meets _ _ _ _ _ hC (Dev.onQ_meets h₃)

theorem devQpDestroy_meets {C : Claim} (c : CmdSlot) (d : Dev) (hC : C.Wide) (hm : d.Meets C) : (devQpDestroy c d).Meets C := by
  unfold devQpDestroy
  refine runChk_meets _ _ _ _ (fun _ _ h₁ => withTenant_meets _ _ _ _ (fun _ _ h₂ => ?_) _ hC h₁) _ hC hm
  split
  · exact finishAt_meets _ _ _ _ hC h₂
  · exact meets_ite (finishAt_meets _ _ _ _ hC h₂) (meets_ite (finish_meets _ _ _ hC h₂) (finish_meets _ _ _ hC (destroyQp_meets _ _ _ h₂)))

/-! ### Operations of Engine -/

theorem newOp_meets {C : Claim} (tile : Nat) (tenant : Nat) (src : OpSource) (desc : Bytes) (d : Dev)
    (hC : C.Wide) (hm : d.Meets C) : (newOp tile tenant src desc d).Meets C := by
  unfold newOp
  extract_lets +onlyGivenNames i need waits o d₁ d₂
  have h₁ : d₁.Meets C := Dev.onEng_meets hm
  have h₂ : d₂.Meets C := meets_ite (count_meets _ _ _ _ _ h₁) h₁
  exact meets_ite (opFail_meets _ _ _ _ hC h₂) h₂

theorem devMergeSpaceGrant_meets {C : Claim} (tile : Nat) (d : Dev) (hC : C.Wide) (hm : d.Meets C) : (devMergeSpaceGrant tile d).Meets C := by
  unfold devMergeSpaceGrant
  split
  · exact meets_ite (cutOp_meets _ _ hC hm) hm
  · split
    · exact placeLegs_meets _ _ hC hm
    · exact meets_ite (placeLegs_meets _ _ hC hm) (cutOp_meets _ _ hC (Dev.onOp_meets _ _ _ hm))

theorem giveBack_meets {C : Claim} (i : Nat) (k : Nat) (d : Dev) (hm : d.Meets C) : (giveBack i k d).Meets C := by
  unfold giveBack
  split
  · exact hm
  · refine foldl_meets hm (fun _ _ h₁ => ?_)
    split
    · exact meets_ite (Dev.onStkEng_meets _ _ _ (Dev.onOp_meets _ _ _ h₁)) h₁

theorem giveBacks_meets {C : Claim} (d : Dev) (hm : d.Meets C) : (giveBacks d).Meets C := by
  unfold giveBacks
  refine foldl_meets hm (fun _ _ h₁ => ?_)
  split
  · refine meets_ite h₁ ?_
    split
    · exact giveBack_meets _ _ _ h₁
    · exact h₁

theorem grantLeg_meets {C : Claim} (k : Nat) (d : Dev) (hC : C.Wide) (hm : d.Meets C) : (grantLeg k d).Meets C := by
  unfold grantLeg
  extract_lets +onlyGivenNames go
  clear_value go
  refine meets_ite hm ?_
  extract_lets +onlyGivenNames s ts
  clear_value s ts
  split
  · split
    · exact hm
    · extract_lets +onlyGivenNames d₁
      have h₁ : d₁.Meets C := Dev.onStkEng_meets _ _ _ (noteSent_meets _ _ _ hC hm)
      exact Dev.onOp_meets _ _ _ h₁

theorem devLegGrant_meets {C : Claim} (k : Nat) (d : Dev) (hC : C.Wide) (hm : d.Meets C) : (devLegGrant k d).Meets C := by
  unfold devLegGrant
  exact meets_ite (giveBacks_meets _ (grantLeg_meets _ _ hC (giveBacks_meets _ hm))) (meets_ite (wakeStack_meets _ _ hm) hm)

theorem devOpstoreStarvation_meets {C : Claim} (k : Nat) (d : Dev) (hm : d.Meets C) : (devOpstoreStarvation k d).Meets C := by
  unfold devOpstoreStarvation
  refine meets_ite hm ?_
  split
  · exact giveBacks_meets _ (Dev.onStkEng_meets _ _ _ hm)
  · exact hm

theorem legFails_meets {C : Claim} (i : Nat) (detail : Nat) (d : Dev) (hC : C.Wide) (hm : d.Meets C) : (legFails i detail d).Meets C := by
  unfold legFails
  exact opFail_meets _ _ _ _ hC hm

theorem touchAll_meets {C : Claim} (own : Nat → Bool) (l : List SrcRun) (d : Dev) (hm : d.Meets C) : (touchAll own l d).Meets C := by
  unfold touchAll
  refine foldl_meets hm (fun _ _ h₁ => ?_)
  extract_lets +onlyGivenNames k
  exact meets_ite (serveCells_meets _ _ h₁) (touchStack_meets _ _ h₁)

theorem devOperandLoadDone_meets {C : Claim} (i : Nat) (j : Nat) (d : Dev) (hC : C.Wide) (hm : d.Meets C) : (devOperandLoadDone i j d).Meets C := by
  unfold devOperandLoadDone
  split
  · exact hm
  · split
    · exact hm
    · refine meets_ite hm ?_
      extract_lets +onlyGivenNames d₁
      have h₁ : d₁.Meets C := touchAll_meets _ _ _ hm
      clear_value d₁
      split
      · exact legFails_meets _ _ _ hC h₁
      · exact meets_ite (legFails_meets _ _ _ hC h₁) (meets_ite (legFails_meets _ _ _ hC h₁) (Dev.onOp_meets _ _ _ h₁))

theorem opDeliver_meets {C : Claim} (i : Nat) (d : Dev) (hC : C.Wide) (hm : d.Meets C) : (opDeliver i d).Meets C := by
  unfold opDeliver
  split
  · exact hm
  · split
    · extract_lets +onlyGivenNames out done
      clear_value out
      have h₄ : ∀ a₁, Dev.Meets C a₁ → Dev.Meets C (done a₁) := by
        intro _ h₂
        dsimp -zeta -iota -proj only [done]
        extract_lets +onlyGivenNames d₃
        have h₃ : d₃.Meets C := meets_ite (count_meets _ _ _ _ _ h₂) h₂
        exact opGone_meets _ _ hC (meets_ite (count_meets _ _ _ _ _ h₃) h₃)
      clear_value done
      split
      · extract_lets +onlyGivenNames l dv d₅
        clear_value l dv
        have h₅ : d₅.Meets C := by
          dsimp -zeta -iota -proj only [d₅]
          refine foldl_meets hm (fun _ _ h₇ => ?_)
          split
          · exact touchStack_meets _ _ h₇
        clear_value d₅
        refine meets_ite (legFails_meets _ _ _ hC h₅) (meets_ite (legFails_meets _ _ _ hC h₅) ?_)
        extract_lets +onlyGivenNames d₈
        have h₈ : d₈.Meets C := putPieces_meets _ _ _ _ (putPieces_meets _ _ _ _ h₅)
        exact endOk_meets _ _ _ _ _ (h₄ _ h₈)
      · extract_lets +onlyGivenNames d₉
        have h₉ : d₉.Meets C := pushPkts_meets _ _ _ _ _ _ _ _ _ (h₄ _ hm)
        exact rxDone_meets _ _ _ (Dev.onConn_meets _ _ _ h₉)

theorem legEnded_meets {C : Claim} (i : Nat) (j : Nat) (out : LegOut) (d : Dev) (hm : d.Meets C) : (legEnded i j out d).Meets C := by
  unfold legEnded
  split
  · exact hm
  · split
    · exact hm
    · extract_lets +onlyGivenNames t loaded d₁ d₂ d₃
      have h₁ : d₁.Meets C := count_meets _ _ _ _ _ (count_meets _ _ _ _ _ hm)
      have h₂ : d₂.Meets C := meets_ite h₁ (count_meets _ _ _ _ _ h₁)
      have h₃ : d₃.Meets C := Dev.onStkEng_meets _ _ _ h₂
      exact Dev.onOp_meets _ _ _ h₃

theorem devLegFinish_meets {C : Claim} (i : Nat) (j : Nat) (d : Dev) (hC : C.Wide) (hm : d.Meets C) : (devLegFinish i j d).Meets C := by
  unfold devLegFinish
  split
  · exact hm
  · split
    · exact hm
    · refine meets_ite hm ?_
      split
      · exact legFails_meets _ _ _ hC (.of_pair (by assumption) (legCompute_meets _ _ _ (touchAll_meets _ _ _ (touchAll_meets _ _ _ hm))))
      · extract_lets +onlyGivenNames d₁
        have h₁ : d₁.Meets C := legEnded_meets _ _ _ _ (.of_pair (by assumption) (legCompute_meets _ _ _ (touchAll_meets _ _ _
              (touchAll_meets _ _ _ hm))))
        clear_value d₁
        split
        · exact h₁
        · exact meets_ite (opDeliver_meets _ _ hC h₁) (placeLegs_meets _ _ hC h₁)

theorem devLegFail_meets {C : Claim} (i : Nat) (j : Nat) (detail : Nat) (d : Dev)
    (hC : C.Wide) (hm : d.Meets C) : (devLegFail i j detail d).Meets C := by
  unfold devLegFail
  split
  · exact hm
  · split
    · exact hm
    · extract_lets +onlyGivenNames known
      exact meets_ite hm (legFails_meets _ _ _ hC hm)

theorem endWalk_meets {C : Claim} (i : Nat) (d : Dev) (hC : C.Wide) (hm : d.Meets C) : (endWalk i d).Meets C := by
  unfold endWalk
  split
  · exact hm
  · extract_lets +onlyGivenNames d₁
    have h₁ : d₁.Meets C := by
      dsimp -zeta -iota -proj only [d₁]
      refine foldl_meets hm (fun _ _ h₃ => ?_)
      split
      · extract_lets +onlyGivenNames d₄ d₅
        have h₄ : d₄.Meets C := count_meets _ _ _ _ _ h₃
        have h₅ : d₅.Meets C := meets_ite h₄ (count_meets _ _ _ _ _ h₄)
        exact legEnded_meets _ _ _ _ h₅
      · exact h₃
    exact opDeliver_meets _ _ hC h₁

theorem devGraphWalkRound_meets {C : Claim} (i : Nat) (d : Dev) (hC : C.Wide) (hm : d.Meets C) : (devGraphWalkRound i d).Meets C := by
  unfold devGraphWalkRound
  split
  · exact hm
  · refine meets_ite hm ?_
    extract_lets +onlyGivenNames d₁
    have h₁ : d₁.Meets C := touchAll_meets _ _ _ hm
    clear_value d₁
    split
    · exact legFails_meets _ _ _ hC h₁
    · extract_lets +onlyGivenNames d₂
      have h₂ : d₂.Meets C := Dev.onOp_meets _ _ _ h₁
      exact meets_ite h₂ (endWalk_meets _ _ hC h₂)

/-! ### Operations of Begin -/

theorem entryStall_meets {C : Claim} (n : Nat) (i : Nat) (write : Bool) (e : XErr) (d : Dev)
    (hm : d.Meets C) : (entryStall n i write e d).Meets C := by
  unfold entryStall
  split
  · exact hm
  · split
    · exact Dev.onQp_meets _ _ _ (.of_pair (by assumption) (stallOn_meets _ _ _ _ _ _ hm))
    · exact endBad_meets _ _ _ _ _ (.of_pair (by assumption) (stallOn_meets _ _ _ _ _ _ hm))
    · exact endBad_meets _ _ _ _ _ (.of_pair (by assumption) (stallOn_meets _ _ _ _ _ _ hm))

theorem readLegs_meets {C : Claim} (x : Nat) (d : Dev) (hm : d.Meets C) : (readLegs x d).Meets C := by
  unfold readLegs
  split
  · exact hm
  · refine foldl_meets hm (fun _ _ h₁ => ?_)
    split
    · split
      · split
        · exact Dev.onQ_meets (.of_pair (by assumption) (hostRead_meets _ _ _ _ _ _ h₁))
      · exact h₁

theorem beginLocal_meets {C : Claim} (n : Nat) (i : Nat) (b : Bytes) (d : Dev) (hm : d.Meets C) : (beginLocal n i b d).Meets C := by
  unfold beginLocal
  split
  · exact hm
  · extract_lets +onlyGivenNames tile t v
    clear_value tile t v
    refine meets_ite (endBad_meets _ _ _ _ _ hm) ?_
    split
    · exact entryStall_meets _ _ _ _ _ hm
    · extract_lets +onlyGivenNames at_ legs d₁
      clear_value legs
      have h₁ : d₁.Meets C := by
        dsimp -zeta -iota -proj only [d₁]
        refine foldl_meets hm (fun _ _ h₃ => ?_)
        split
        · exact lookupRange_meets _ _ _ _ _ _ h₃
      clear_value d₁
      refine meets_ite (endOk_meets _ _ _ _ _ h₁) ?_
      extract_lets +onlyGivenNames x
      exact readLegs_meets _ _ (Dev.onQ_meets h₁)

theorem beginOperate_meets {C : Claim} (n : Nat) (i : Nat) (b : Bytes) (host : Bytes) (d : Dev)
    (hC : C.Wide) (hm : d.Meets C) : (beginOperate n i b host d).Meets C := by
  unfold beginOperate
  split
  · exact hm
  · split
    · exact entryStall_meets _ _ _ _ _ hm
    · exact endBad_meets _ _ _ _ _ hm
    · extract_lets +onlyGivenNames d₁
      have h₁ : d₁.Meets C := lookupRange_meets _ _ _ _ _ _ hm
      clear_value d₁
      split
      · exact endBad_meets _ _ _ _ _ h₁
      · exact newOp_meets _ _ _ _ _ hC h₁

theorem beginWait_meets {C : Claim} (n : Nat) (i : Nat) (b : Bytes) (d : Dev) (hm : d.Meets C) : (beginWait n i b d).Meets C := by
  unfold beginWait
  split
  · exact hm
  · split
    · exact endBad_meets _ _ _ _ _ hm
    · extract_lets +onlyGivenNames target d₁
      have h₁ : d₁.Meets C := Dev.onQp_meets _ _ _ hm
      exact meets_ite (endBad_meets _ _ _ _ _ h₁) (Dev.onQp_meets _ _ _ h₁)

theorem newMsg_meets {C : Claim} (n : Nat) (i : Nat) (b : Bytes) (len : Nat) (data : Option Bytes) (runs : List (Place × Nat)) (d : Dev)
    (hC : C.Wide) (hm : d.Meets C) : (newMsg n i b len data runs d).Meets C := by
  unfold newMsg
  split
  · exact hm
  · extract_lets +onlyGivenNames v msn takes m d₁
    have h₁ : d₁.Meets C := Dev.onQp_meets _ _ _ hm
    exact openMsgs_meets _ _ (noteSent_meets _ _ _ hC h₁)

theorem beginTransport_meets {C : Claim} (n : Nat) (i : Nat) (b : Bytes) (host : Bytes) (d : Dev)
    (hC : C.Wide) (hm : d.Meets C) : (beginTransport n i b host d).Meets C := by
  unfold beginTransport
  split
  · exact hm
  · extract_lets +onlyGivenNames tile t v
    clear_value tile t v
    split
    · exact entryStall_meets _ _ _ _ _ hm
    · extract_lets +onlyGivenNames runs d₁
      clear_value runs
      have h₁ : d₁.Meets C := by
        dsimp -zeta -iota -proj only [d₁]
        refine foldl_meets hm (fun _ _ h₃ => ?_)
        split
        · exact lookupRange_meets _ _ _ _ _ _ h₃
      clear_value d₁
      refine meets_ite ?_ ?_
      · split
        · exact entryStall_meets _ _ _ _ _ h₁
        · exact endBad_meets _ _ _ _ _ h₁
        · exact meets_ite (endBad_meets _ _ _ _ _ h₁) (newMsg_meets _ _ _ _ _ _ _ hC h₁)
      · extract_lets +onlyGivenNames sends msn d₄
        have h₄ : d₄.Meets C := newMsg_meets _ _ _ _ _ _ _ hC h₁
        exact meets_ite (messageRead_meets _ _ _ h₄) h₄

theorem beginEntry_meets {C : Claim} (n : Nat) (i : Nat) (b : Bytes) (host : Bytes) (d : Dev)
    (hC : C.Wide) (hm : d.Meets C) : (beginEntry n i b host d).Meets C := by
  unfold beginEntry
  split
  · exact hm
  · exact meets_ite (beginWait_meets _ _ _ _ hm) (meets_ite (beginTransport_meets _ _ _ _ _ hC hm) (meets_ite
        (beginOperate_meets _ _ _ _ _ hC hm) (beginLocal_meets _ _ _ _ hm)))

theorem devEntryBegin_meets {C : Claim} (n : Nat) (host : Bytes) (d : Dev) (hC : C.Wide) (hm : d.Meets C) : (devEntryBegin n host d).Meets C := by
  unfold devEntryBegin
  split
  · exact hm
  · split
    · exact meets_ite hm (beginEntry_meets _ _ _ _ _ hC (Dev.onQp_meets _ _ _ hm))
    · refine meets_ite hm ?_
      split
      · exact hm
      · refine meets_ite hm ?_
        extract_lets +onlyGivenNames d₁
        have h₁ : d₁.Meets C := Dev.onQp_meets _ _ _ hm
        clear_value d₁
        split
        · exact endBad_meets _ _ _ _ _ h₁
        · exact beginEntry_meets _ _ _ _ _ hC h₁

theorem toInit_meets {C : Claim} (n : Nat) (d : Dev) (hm : d.Meets C) : (toInit n d).Meets C := by
  unfold toInit
  exact Dev.onQp_meets _ _ _ hm

theorem toRtr_meets {C : Claim} (n : Nat) (p : Bytes) (d : Dev) (hm : d.Meets C) : (toRtr n p d).Meets C := by
  unfold toRtr
  split
  · exact hm
  · extract_lets +onlyGivenNames peer snd rcv auth d₁
    have h₁ : d₁.Meets C := Dev.onQp_meets _ _ _ hm
    exact sendAck_meets _ _ _ _ _ _ (extendGrant_meets _ _ h₁)

theorem devQpModify_meets {C : Claim} (c : CmdSlot) (d : Dev) (hC : C.Wide) (hm : d.Meets C) : (devQpModify c d).Meets C := by
  unfold devQpModify
  refine runChk_meets _ _ _ _ (fun _ _ h₁ => withTenant_meets _ _ _ _ (fun _ _ h₂ => ?_) _ hC h₁) _ hC hm
  extract_lets +onlyGivenNames n
  clear_value n
  split
  · exact finishAt_meets _ _ _ _ hC h₂
  · extract_lets +onlyGivenNames v
    exact meets_ite (finishAt_meets _ _ _ _ hC h₂) (meets_ite (finish_meets _ _ _ hC h₂) (meets_ite (finishAt_meets _ _ _ _ hC h₂) (meets_ite
          (finish_meets _ _ _ hC (resetQp_meets _ _ h₂)) (meets_ite (finish_meets _ _ _ hC (toInit_meets _ _ h₂)) (meets_ite
          (finish_meets _ _ _ hC (toRtr_meets _ _ _ h₂)) (meets_ite (finish_meets _ _ _ hC (Dev.onQp_meets _ _ _ h₂)) (meets_ite
          (finish_meets _ _ _ hC (toFlush_meets _ _ _ _ h₂)) (finishAt_meets _ _ _ _ hC h₂))))))))

/-! ### Operations of Cmd -/

theorem devCmdRingProdWrite_meets {C : Claim} (p : Side) (ring : Side) (k : Nat) (v : BitVec 32) (d : Dev)
    (hC : C.Wide) (hm : d.Meets C) : (devCmdRingProdWrite p ring k v d).Meets C := by
  unfold devCmdRingProdWrite
  refine meets_ite (hostWrongPort_meets _ _ hm) ?_
  extract_lets +onlyGivenNames r s i c ok
  exact Dev.onRing_meets _ _ _ _ hC hm

theorem devCmdRingEnable_meets {C : Claim} (p : Side) (ring : Side) (k : Nat) (v : BitVec 32) (d : Dev)
    (hC : C.Wide) (hm : d.Meets C) : (devCmdRingEnable p ring k v d).Meets C := by
  unfold devCmdRingEnable
  exact meets_ite (hostWrongPort_meets _ _ hm) (Dev.onRing_meets _ _ _ _ hC hm)

theorem devCmdRingDisable_meets {C : Claim} (p : Side) (ring : Side) (k : Nat) (v : BitVec 32) (d : Dev)
    (hC : C.Wide) (hm : d.Meets C) : (devCmdRingDisable p ring k v d).Meets C := by
  unfold devCmdRingDisable
  exact meets_ite (hostWrongPort_meets _ _ hm) (Dev.onRing_meets _ _ _ _ hC hm)

theorem slotReads_meets {C : Claim} (p : Side) (k : Nat) (i : Nat) (b : Option Bytes) (d : Dev) (hm : d.Meets C) : (slotReads p k i b d).Meets C := by
  unfold slotReads
  extract_lets +onlyGivenNames r a d₁ more
  have h₁ : d₁.Meets C := emit_meets _ _ hm
  exact meets_ite (emit_meets _ _ h₁) h₁

theorem takePacket_meets {C : Claim} (c : CmdSlot) (idx : Nat) (vis : Nat) (late : Bool) (b : Bytes) (d : Dev)
    (hC : C.Wide) (hm : d.Meets C) : (takePacket c idx vis late b d).Meets C := by
  unfold takePacket
  extract_lets +onlyGivenNames x m d₁ d₂
  have h₁ : d₁.Meets C := Dev.onCtl_wide hC hm rfl rfl rfl
  have h₂ : d₂.Meets C := setCmd_meets _ _ _ hC h₁
  clear_value x m d₁ d₂
  split
  · exact finishAt_meets _ _ _ _ hC h₂
  · exact meets_ite (finish_meets _ _ _ hC h₂) (setCmd_meets _ _ _ hC h₂)

theorem ringPacket_meets {C : Claim} (p : Side) (k : Nat) (n : Nat) (data : Option Bytes) (d : Dev)
    (hC : C.Wide) (hm : d.Meets C) : (ringPacket p k n data d).Meets C := by
  unfold ringPacket
  extract_lets +onlyGivenNames r s i c vis late d₁
  have h₁ : d₁.Meets C := slotReads_meets _ _ _ _ _ (Dev.onRing_meets _ _ _ _ hC hm)
  clear_value r s i c vis late d₁
  split
  · extract_lets +onlyGivenNames m
    exact finishAt_meets _ _ _ _ hC (setCmd_meets _ _ _ hC h₁)
  · refine meets_ite (takePacket_meets _ _ _ _ _ _ hC h₁) (meets_ite (Dev.onRing_meets _ _ _ _ hC h₁) ?_)
    extract_lets +onlyGivenNames m₂
    exact finishAt_meets _ _ _ _ hC (setCmd_meets _ _ _ hC h₁)

theorem devCommandFetch_meets {C : Claim} (data : Option Bytes) (d : Dev) (hC : C.Wide) (hm : d.Meets C) : (devCommandFetch data d).Meets C := by
  unfold devCommandFetch
  refine meets_ite hm ?_
  extract_lets +onlyGivenNames order
  clear_value order
  split
  · exact hm
  · extract_lets +onlyGivenNames d₁
    have h₁ : d₁.Meets C := Dev.onCtl_wide hC hm rfl rfl rfl
    clear_value d₁
    split
    · exact ringPacket_meets _ _ _ _ _ hC h₁
    · extract_lets +onlyGivenNames b late d₂ vis
      have h₂ : d₂.Meets C := Dev.onSide_meets _ _ h₁
      clear_value b late d₂ vis
      refine meets_ite ?_ (meets_ite (takePacket_meets _ _ _ _ _ _ hC h₂) ?_)
      · extract_lets +onlyGivenNames m
        exact finishAt_meets _ _ _ _ hC (setCmd_meets _ _ _ hC h₂)
      · extract_lets +onlyGivenNames m₃
        exact finishAt_meets _ _ _ _ hC (setCmd_meets _ _ _ hC h₂)

theorem devCommandBegin_meets {C : Claim} (c : CmdSlot) (d : Dev) (hC : C.Inv) (hm : d.Meets C) : (devCommandBegin c d).Meets C := by
  unfold devCommandBegin
  split
  · refine meets_ite hm (meets_ite (wakeDev_meets _ hC.wide hm) ?_)
    extract_lets +onlyGivenNames m d₁
    have h₁ : d₁.Meets C := setCmd_meets _ _ _ hC.wide hm
    clear_value m d₁
    split
    · split
      · exact finishAt_meets _ _ _ _ hC.wide h₁
      · exact h₁
    · extract_lets +onlyGivenNames need
      clear_value need
      refine meets_cases (fun _ => h₁) fun hneed => meets_ite (finish_meets _ _ _ hC.wide h₁) ?_
      extract_lets +onlyGivenNames d₂
      have h₂ : d₂.Meets C := count_meets _ _ _ _ _ (setHolder_inv _ _ _ hC (by simp_all) h₁)
      exact onCmd_meets _ _ _ hC.wide h₂
  · exact hm

theorem devCommandDeadline_meets {C : Claim} (c : CmdSlot) (d : Dev) (hC : C.Wide) (hm : d.Meets C) : (devCommandDeadline c d).Meets C := by
  unfold devCommandDeadline
  split
  · exact meets_ite (finish_meets _ _ _ hC hm) hm
  · exact hm

theorem devSidebandRequest_meets {C : Claim} (msg : Bytes) (d : Dev) (hm : d.Meets C) : (devSidebandRequest msg d).Meets C := by
  unfold devSidebandRequest
  refine meets_ite hm ?_
  extract_lets +onlyGivenNames b
  clear_value b
  refine meets_ite ?_ (Dev.onSide_meets _ _ hm)
  extract_lets +onlyGivenNames m
  exact emit_meets _ _ hm

end Sys2Proof.Machine
end

section
/-! SUPPORT. Claims that operations keep: packets and frames. -/

namespace Sys2Proof.Machine

/-! ### Operations of RxOps -/

theorem setAuth_meets {C : Claim} (n : Nat) (a : Option Auth) (d : Dev) (hm : d.Meets C) : (setAuth n a d).Meets C := by
  unfold setAuth
  split
  · exact hm
  · exact meets_ite (Dev.onConn_meets _ _ _ hm) (Dev.onQ_meets hm)

theorem violation_meets {C : Claim} (n : Nat) (kind : Nat) (limit : Nat) (d : Dev) (hm : d.Meets C) : (violation n kind limit d).2.Meets C := by
  unfold violation
  split
  · exact hm
  · split
    · exact Dev.Meets.paired (Dev.onConn_meets _ _ _ hm)

theorem escalate_meets {C : Claim} (port : Nat) (n : Nat) (src : Nat) (d : Dev) (hm : d.Meets C) : (escalate port n src d).Meets C := by
  unfold escalate
  split
  · exact .of_pair (by assumption) (violation_meets _ _ _ _ (count_meets _ _ _ _ _ hm))
  · extract_lets +onlyGivenNames t
    exact logIt_meets _ _ _ _ _ _ (toFlush_meets _ _ _ _ (count_meets _ _ _ _ _ (.of_pair (by assumption) (violation_meets _ _ _ _
          (count_meets _ _ _ _ _ hm)))))

theorem trailerBad_meets {C : Claim} (port : Nat) (d : Dev) (hm : d.Meets C) : (trailerBad port d).Meets C := by
  unfold trailerBad
  extract_lets +onlyGivenNames d₁ l
  have h₁ : d₁.Meets C := count_meets _ _ _ _ _ hm
  exact meets_ite (logIt_meets _ _ _ _ _ _ (Dev.onPort_meets _ _ _ h₁)) (Dev.onPort_meets _ _ _ h₁)

theorem malformed_meets {C : Claim} (port : Nat) (p : Pkt) (d : Dev) (hm : d.Meets C) : (malformed port p d).Meets C := by
  unfold malformed
  exact logFirst60_meets _ _ _ _ _ _ _ (count_meets _ _ _ _ _ hm)

theorem versionBad_meets {C : Claim} (port : Nat) (p : Pkt) (d : Dev) (hm : d.Meets C) : (versionBad port p d).Meets C := by
  unfold versionBad
  exact logFirst60_meets _ _ _ _ _ _ _ (count_meets _ _ _ _ _ hm)

theorem freePlaces_meets {C : Claim} (port : Nat) (l : Option (Nat × Nat)) (d : Dev) (hm : d.Meets C) : (freePlaces port l d).Meets C := by
  unfold freePlaces
  split
  · exact Dev.onPort_meets _ _ _ hm
  · exact hm

theorem dropInward_meets {C : Claim} (port : Nat) (x : Nat × Bytes) (d : Dev) (hm : d.Meets C) : (dropInward port x d).Meets C := by
  unfold dropInward
  exact Dev.onPort_meets _ _ _ hm

theorem takeInward_meets {C : Claim} (port : Nat) (x : Nat × Bytes) (d : Dev) (hm : d.Meets C) : (takeInward port x d).Meets C := by
  unfold takeInward
  exact freePlaces_meets _ _ _ (dropInward_meets _ _ _ hm)

theorem frameIn_meets {C : Claim} (port : Nat) (x : Option (Nat × Bytes)) (f : Dev → Dev) (hf : ∀ a₀, a₀.Meets C → (f a₀).Meets C) (d : Dev)
    (hm : d.Meets C) : (frameIn port x f d).Meets C := by
  unfold frameIn
  refine meets_ite (hf _ hm) ?_
  split
  · exact hf _ (takeInward_meets _ _ _ hm)
  · exact hm

theorem meterPkt_meets {C : Claim} (port : Nat) (t : BitVec 8) (p : Pkt) (ten : Nat) (d : Dev)
    (hm : d.Meets C) : (meterPkt port t p ten d).2.Meets C := by
  unfold meterPkt
  extract_lets +onlyGivenNames tile pm tm colour drop d₁ d₂ d₃
  have h₁ : d₁.Meets C := Dev.onPort_meets _ _ _ hm
  have h₂ : d₂.Meets C := Dev.onNet_meets h₁
  have h₃ : d₃.Meets C := count_meets _ _ _ _ _ h₂
  exact Dev.Meets.paired (meets_ite (count_meets _ _ _ _ _ h₃) h₃)

theorem nakPkt_meets {C : Claim} (n : Nat) (code : Nat) (detail : Nat) (p : Pkt) (d : Dev) (hm : d.Meets C) : (nakPkt n code detail p d).Meets C := by
  unfold nakPkt
  split
  · exact hm
  · exact sendCtl_meets _ _ _ _ _ hm

theorem nakNotReady_meets {C : Claim} (n : Nat) (port : Nat) (p : Pkt) (d : Dev) (hm : d.Meets C) : (nakNotReady n port p d).Meets C := by
  unfold nakNotReady
  exact nakPkt_meets _ _ _ _ _ (count_meets _ _ _ _ _ hm)

theorem nakFatal_meets {C : Claim} (n : Nat) (code : Nat) (detail : Nat) (p : Pkt) (d : Dev)
    (hm : d.Meets C) : (nakFatal n code detail p d).Meets C := by
  unfold nakFatal
  exact nakPkt_meets _ _ _ _ _ (Dev.onConn_meets _ _ _ hm)

theorem nakAgain_meets {C : Claim} (n : Nat) (q : Qp) (p : Pkt) (d : Dev) (hm : d.Meets C) : (nakAgain n q p d).Meets C := by
  unfold nakAgain
  split
  · exact hm
  · refine meets_ite hm ?_
    extract_lets +onlyGivenNames d₁
    have h₁ : d₁.Meets C := Dev.onConn_meets _ _ _ hm
    exact sendCtl_meets _ _ _ _ _ h₁

theorem answerPlace_meets {C : Claim} (port : Nat) (n : Nat) (ext : Bytes) (p : Pkt) (d : Dev)
    (hm : d.Meets C) : (answerPlace port n ext p d).Meets C := by
  unfold answerPlace
  split
  · exact answerStray_meets _ _ _ _ _ hm
  · refine meets_ite hm ?_
    extract_lets +onlyGivenNames r
    exact release_meets _ _ _ _ _ _ _ _ _ (setAuth_meets _ _ _ hm)

theorem freePlace_meets {C : Claim} (port : Nat) (n : Nat) (t : BitVec 8) (p : Pkt) (d : Dev)
    (hm : d.Meets C) : (freePlace port n t p d).Meets C := by
  unfold freePlace
  extract_lets +onlyGivenNames d₁
  have h₁ : d₁.Meets C := count_meets _ _ _ _ _ hm
  clear_value d₁
  refine meets_ite h₁ ?_
  split
  · extract_lets +onlyGivenNames recent
    clear_value recent
    refine meets_ite h₁ ?_
    extract_lets +onlyGivenNames d₂
    have h₂ : d₂.Meets C := Dev.onTens_meets h₁
    exact answerPlace_meets _ _ _ _ _ h₂
  · refine meets_ite h₁ ?_
    extract_lets +onlyGivenNames d₃ code
    have h₃ : d₃.Meets C := Dev.onQ_meets h₁
    exact answerPlace_meets _ _ _ _ _ h₃

theorem errorQp_meets {C : Claim} (port : Nat) (n : Nat) (t : BitVec 8) (p : Pkt) (d : Dev) (hm : d.Meets C) : (errorQp port n t p d).Meets C := by
  unfold errorQp
  extract_lets +onlyGivenNames d₁
  have h₁ : d₁.Meets C := count_meets _ _ _ _ _ hm
  clear_value d₁
  refine meets_ite h₁ ?_
  extract_lets +onlyGivenNames cum
  exact answerPlace_meets _ _ _ _ _ (Dev.onQ_meets h₁)

theorem ackNow_meets {C : Claim} (n : Nat) (p : Pkt) (d : Dev) (hm : d.Meets C) : (ackNow n p d).Meets C := by
  unfold ackNow
  exact sendAck_meets _ _ _ _ _ _ hm

theorem commit_meets {C : Claim} (n : Nat) (p : Pkt) (arr : BitVec 32) (d : Dev) (hm : d.Meets C) : (commit n p arr d).Meets C := by
  unfold commit
  extract_lets +onlyGivenNames d₁ d₂ d₃ k
  have h₁ : d₁.Meets C := Dev.onConn_meets _ _ _ hm
  clear_value d₁
  have h₂ : d₂.Meets C := by
    dsimp -zeta -iota -proj only [d₂]
    split
    · exact tenCount_meets _ _ _ _ h₁
    · exact h₁
  have h₃ : d₃.Meets C := rxAdvance_meets _ _ h₂
  exact meets_ite (ackLatest_meets _ _ h₃) h₃

theorem windowGate_meets {C : Claim} (n : Nat) (port : Nat) (t : BitVec 8) (p : Pkt) (d : Dev)
    (hm : d.Meets C) : (windowGate n port t p d).2.Meets C := by
  unfold windowGate
  split
  · exact Dev.Meets.paired (nakFatal_meets _ _ _ _ _ (count_meets _ _ _ _ _ hm))
  · exact Dev.Meets.paired (count_meets _ _ _ _ _ hm)

theorem placeBytes_meets {C : Claim} (l : List (Place × Nat)) (b : Bytes) (bad : List (Nat × Nat)) (d : Dev) (hm : d.Meets C) :
    (placeBytes l b bad d).2.Meets C := by
  induction l generalizing b bad d with
  | nil => exact hm
  | cons x r ih =>
    obtain ⟨pl, n⟩ := x
    cases pl with
    | dev a =>
      have htouched := touchStack_meets (dpaStack a) _ hm
      simp only [placeBytes]
      split
      · exact ih _ _ _ htouched
      · exact ih _ _ _ (placeDev_meets _ _ _ _ htouched)
    | host s pasid a => exact ih _ _ _ (placeHost_meets _ _ _ _ _ _ hm)

theorem upRx_meets {C : Claim} (n : Nat) (fresh : RxMsg) (f : RxMsg → RxMsg) (d : Dev) (hm : d.Meets C) : (upRx n fresh f d).Meets C := by
  unfold upRx
  exact Dev.onConn_meets _ _ _ hm

theorem consumeFailed_meets {C : Claim} (n : Nat) (port : Nat) (t : BitVec 8) (p : Pkt) (arr : BitVec 32) (d : Dev)
    (hm : d.Meets C) : (consumeFailed n port t p arr d).Meets C := by
  unfold consumeFailed
  exact commit_meets _ _ _ _ (upRx_meets _ _ _ _ hm)

/-! ### Operations of RxReq -/

theorem lengthConflict_meets {C : Claim} (n : Nat) (port : Nat) (p : Pkt) (d : Dev) (hm : d.Meets C) : (lengthConflict n port p d).Meets C := by
  unfold lengthConflict
  extract_lets +onlyGivenNames t d₁
  have h₁ : d₁.Meets C := logIt_meets _ _ _ _ _ _ (count_meets _ _ _ _ _ hm)
  exact nakFatal_meets _ _ _ _ _ h₁

theorem placePkt_meets {C : Claim} (n : Nat) (port : Nat) (t : BitVec 8) (p : Pkt) (arr : BitVec 32) (ssn : Option (BitVec 32)) (msgLen : Option Nat)
    (places : Option (List (Place × Nat))) (d : Dev) (hm : d.Meets C) : (placePkt n port t p arr ssn msgLen places d).Meets C := by
  have hplaced (bad : Bool) (e : Dev) (he : (match places with
      | some l => placeBytes l p.payload [] d
      | none => (true, d)) = (bad, e)) : e.Meets C := by
    cases places with
    | none => cases he; exact hm
    | some l => exact .of_pair he (placeBytes_meets _ _ _ _ hm)
  unfold placePkt
  split
  next bad d₁ he =>
    have h₁ := hplaced _ _ he
    clear he
    extract_lets +onlyGivenNames fin ext imm d₂ whole d₃
    have h₂ : d₂.Meets C := upRx_meets _ _ _ _ h₁
    have h₃ : d₃.Meets C := meets_ite (Dev.onConn_meets _ _ _ h₂) h₂
    exact commit_meets _ _ _ _ h₃

theorem recvRefuses_meets {C : Claim} (n : Nat) (t : BitVec 8) (r : Recv) (p : Pkt) (detail : Nat) (d : Dev) (hm : d.Meets C) :
    (recvRefuses n t r p detail d).Meets C := by
  unfold recvRefuses
  extract_lets d₁ d₂
  have h₂ : d₂.Meets C := Dev.onQp_meets _ _ _ (nakFatal_meets _ _ _ _ _ hm)
  clear_value d₂
  exact recvFail_meets _ _ _ _ _ _ h₂

theorem withRecv_meets {C : Claim} (n : Nat) (port : Nat) (t : BitVec 8) (p : Pkt) (ssn : BitVec 32) (len : Nat) (f : Recv → Dev → Dev)
    (hf : ∀ a₀ a₁, a₁.Meets C → (f a₀ a₁).Meets C) (d : Dev) (hm : d.Meets C) : (withRecv n port t p ssn len f d).Meets C := by
  unfold withRecv
  split
  · exact hm
  · split
    · exact nakNotReady_meets _ _ _ _ hm
    · exact lengthConflict_meets _ _ _ _ hm
    · exact recvRefuses_meets _ _ _ _ _ _ hm
    · extract_lets +onlyGivenNames d₁
      have h₁ : d₁.Meets C := Dev.onQp_meets _ _ _ hm
      exact meets_ite (recvRefuses_meets _ _ _ _ _ _ h₁) (hf _ _ h₁)

theorem rxSend_meets {C : Claim} (n : Nat) (port : Nat) (p : Pkt) (arr : BitVec 32) (d : Dev) (hm : d.Meets C) : (rxSend n port p arr d).Meets C := by
  unfold rxSend
  split
  · exact hm
  · extract_lets +onlyGivenNames ssn len m
    clear_value ssn len m
    refine meets_ite (lengthConflict_meets _ _ _ _ hm) (withRecv_meets _ _ _ _ _ _ _ (fun _ _ h₂ => ?_) _ hm)
    extract_lets +onlyGivenNames l
    exact meets_ite (nakNotReady_meets _ _ _ _ h₂) (placePkt_meets _ _ _ _ _ _ _ _ _ h₂)

theorem rxWrite_meets {C : Claim} (n : Nat) (port : Nat) (p : Pkt) (arr : BitVec 32) (d : Dev)
    (hm : d.Meets C) : (rxWrite n port p arr d).Meets C := by
  unfold rxWrite
  split
  · exact .of_pair (by assumption) (windowGate_meets _ _ _ _ _ hm)
  · split
    · exact .of_pair (by assumption) (windowGate_meets _ _ _ _ _ hm)
    · extract_lets +onlyGivenNames imm ssn len m
      clear_value imm ssn len m
      refine meets_ite (lengthConflict_meets _ _ _ _ (.of_pair (by assumption) (windowGate_meets _ _ _ _ _ hm))) ?_
      extract_lets +onlyGivenNames a go
      clear_value a
      have h₄ : ∀ a₁, Dev.Meets C a₁ → Dev.Meets C (go a₁) := by
        intro _ h₂
        dsimp -zeta -iota -proj only [go]
        extract_lets +onlyGivenNames d₃
        have h₃ : d₃.Meets C := lookupRange_meets _ _ _ _ _ _ h₂
        exact placePkt_meets _ _ _ _ _ _ _ _ _ h₃
      clear_value go
      split
      · exact withRecv_meets _ _ _ _ _ _ _ (fun _ _ h₅ => h₄ _ h₅) _ (.of_pair (by assumption) (windowGate_meets _ _ _ _ _ hm))
      · exact h₄ _ (.of_pair (by assumption) (windowGate_meets _ _ _ _ _ hm))

theorem rxHold_meets {C : Claim} (n : Nat) (port : Nat) (t : BitVec 8) (p : Pkt) (arr : BitVec 32) (d : Dev)
    (hm : d.Meets C) : (rxHold n port t p arr d).Meets C := by
  unfold rxHold
  split
  · exact hm
  · split
    · exact meets_ite hm (lengthConflict_meets _ _ _ _ hm)
    · refine meets_ite (consumeFailed_meets _ _ _ _ _ _ (nakPkt_meets _ _ _ _ _ (count_meets _ _ _ _ _ hm))) ?_
      split
      · exact .of_pair (by assumption) (windowGate_meets _ _ _ _ _ hm)
      · split
        · exact consumeFailed_meets _ _ _ _ _ _ (nakPkt_meets _ _ _ _ _ (.of_pair (by assumption) (windowGate_meets _ _ _ _ _ hm)))
        · extract_lets +onlyGivenNames d₁
          have h₁ : d₁.Meets C := drainUp_meets _ _ _ (.of_pair (by assumption) (windowGate_meets _ _ _ _ _ hm))
          exact upRx_meets _ _ _ _ h₁

theorem rxRequest_meets {C : Claim} (n : Nat) (port : Nat) (t : BitVec 8) (p : Pkt) (arr : BitVec 32) (d : Dev)
    (hm : d.Meets C) : (rxRequest n port t p arr d).Meets C := by
  unfold rxRequest
  split
  · exact hm
  · exact meets_ite (nakNotReady_meets _ _ _ _ hm) (meets_ite (lengthConflict_meets _ _ _ _ hm) (meets_ite (rxSend_meets _ _ _ _ _ hm)
        (meets_ite (rxWrite_meets _ _ _ _ _ hm) (rxHold_meets _ _ _ _ _ _ hm))))

theorem admitRead_meets {C : Claim} (n : Nat) (w : Window) (m : RxMsg) (p : Pkt) (d : Dev) (hm : d.Meets C) : (admitRead n w m p d).Meets C := by
  unfold admitRead
  extract_lets +onlyGivenNames len a tile d₁ places d₂ d₃
  have h₁ : d₁.Meets C := lookupRange_meets _ _ _ _ _ _ hm
  clear_value len a tile d₁ places
  have h₂ : d₂.Meets C := by
    dsimp -zeta -iota -proj only [d₂]
    refine foldl_meets h₁ (fun _ _ h₅ => ?_)
    split
    · exact touchStack_meets _ _ h₅
  have h₃ : d₃.Meets C := pushPkts_meets _ _ _ _ _ _ _ _ _ h₂
  exact Dev.onConn_meets _ _ _ h₃

theorem admitAtomic_meets {C : Claim} (n : Nat) (w : Window) (m : RxMsg) (p : Pkt) (d : Dev) (hm : d.Meets C) : (admitAtomic n w m p d).Meets C := by
  unfold admitAtomic
  extract_lets tile size a d₁ run
  have h₁ : d₁.Meets C := lookupRange_meets _ _ _ _ _ _ hm
  have hrun (old : Nat) (e : Dev) (he : run = some (old, e)) : e.Meets C := by
    dsimp only [run] at he
    split at he
    · split at he
      · cases he
      · exact atomicAt_meets he (touchStack_meets _ _ h₁)
    · cases he
  clear_value run
  split
  · exact rxDone_meets _ _ _ (nakPkt_meets _ _ _ _ _ h₁)
  · exact rxDone_meets _ _ _ (pushPkts_meets _ _ _ _ _ _ _ _ _ (hrun _ _ rfl))

theorem devResponderAdmit_meets {C : Claim} (n : Nat) (d : Dev) (hC : C.Wide) (hm : d.Meets C) : (devResponderAdmit n d).Meets C := by
  unfold devResponderAdmit
  split
  · exact hm
  · refine meets_ite hm ?_
    split
    · exact hm
    · split
      · exact hm
      · extract_lets +onlyGivenNames win tile
        clear_value win tile
        split
        · exact hm
        · refine meets_ite hm ?_
          extract_lets +onlyGivenNames d₁ d₂
          have h₁ : d₁.Meets C := Dev.onConn_meets _ _ _ hm
          have h₂ : d₂.Meets C := meets_ite (rxDone_meets _ _ _ (drainDown_meets _ _ _ (admitRead_meets _ _ _ _ _ h₁))) (meets_ite
                (drainDown_meets _ _ _ (admitAtomic_meets _ _ _ _ _ h₁)) (newOp_meets _ _ _ _ _ hC h₁))
          exact commit_meets _ _ _ _ h₂

/-! ### Operations of TxPath -/

theorem onPath_meets {C : Claim} (n : Nat) (k : Nat) (f : Path → Path) (d : Dev) (hm : d.Meets C) : (onPath n k f d).Meets C := by
  unfold onPath
  exact Dev.onQp_meets _ _ _ hm

theorem onPkt_meets {C : Claim} (n : Nat) (psn : BitVec 32) (f : TxPkt → TxPkt) (d : Dev) (hm : d.Meets C) : (onPkt n psn f d).Meets C := by
  unfold onPkt
  exact Dev.onConn_meets _ _ _ hm

theorem pathDown_meets {C : Claim} (n : Nat) (k : Nat) (d : Dev) (hm : d.Meets C) : (pathDown n k d).Meets C := by
  unfold pathDown
  exact count_meets _ _ _ _ _ (onPath_meets _ _ _ _ hm)

theorem dropDeadPaths_meets {C : Claim} (n : Nat) (d : Dev) (hm : d.Meets C) : (dropDeadPaths n d).Meets C := by
  unfold dropDeadPaths
  split
  · exact hm
  · extract_lets +onlyGivenNames dead
    clear_value dead
    refine meets_ite hm (foldl_meets hm (fun _ _ h₂ => ?_))
    split
    · exact meets_ite (pathDown_meets _ _ _ h₂) h₂
    · exact h₂

theorem markResend_meets {C : Claim} (n : Nat) (u : TxPkt) (src : Option Nat) (countTimeout : Bool) (d : Dev)
    (hm : d.Meets C) : (markResend n u src countTimeout d).Meets C := by
  unfold markResend
  split
  · exact hm
  · extract_lets +onlyGivenNames f d₁ d₂ d₃
    clear_value f
    have h₁ : d₁.Meets C := by
      dsimp -zeta -iota -proj only [d₁]
      split
      · exact count_meets _ _ _ _ _ hm
      · exact hm
    have h₂ : d₂.Meets C := meets_ite h₁ (count_meets _ _ _ _ _ (onPath_meets _ _ _ _ h₁))
    have h₃ : d₃.Meets C := onPkt_meets _ _ _ _ h₂
    clear_value d₁ d₂ d₃
    split
    · exact meets_ite (pathDown_meets _ _ _ h₃) h₃
    · exact h₃

theorem msgDone_meets {C : Claim} (n : Nat) (port : Nat) (m : TxMsg) (e : WorkEnd) (err : Bool) (d : Dev)
    (hm : d.Meets C) : (msgDone n port m e err d).Meets C := by
  unfold msgDone
  extract_lets +onlyGivenNames d₁
  have h₁ : d₁.Meets C := count_meets _ _ _ _ _ (Dev.onConn_meets _ _ _ hm)
  exact endEntry_meets _ _ _ _ _ h₁

theorem msgFail_meets {C : Claim} (n : Nat) (m : TxMsg) (code : Nat) (detail : Nat) (d : Dev)
    (hm : d.Meets C) : (msgFail n m code detail d).Meets C := by
  unfold msgFail
  exact endBad_meets _ _ _ _ _ (Dev.onConn_meets _ _ _ hm)

theorem noAck_meets {C : Claim} (n : Nat) (u : TxPkt) (d : Dev) (hm : d.Meets C) : (noAck n u d).Meets C := by
  unfold noAck
  split
  · exact hm
  · split
    · exact msgFail_meets _ _ _ _ _ hm
    · exact toFlush_meets _ _ _ _ (count_meets _ _ _ _ _ hm)

theorem finishAcked_meets {C : Claim} (n : Nat) (port : Nat) (d : Dev) (hm : d.Meets C) : (finishAcked n port d).Meets C := by
  unfold finishAcked
  split
  · exact hm
  · extract_lets +onlyGivenNames go
    exact foldl_meets hm (fun _ _ h₂ => msgDone_meets _ _ _ _ _ _ h₂)

theorem ackApply_meets {C : Claim} (n : Nat) (cum : BitVec 32) (sack : Nat → Bool) (d : Dev)
    (hm : d.Meets C) : (ackApply n cum sack d).2.Meets C := by
  unfold ackApply
  split
  · exact hm
  · extract_lets +onlyGivenNames hit got d₁
    have h₁ : d₁.Meets C := foldl_meets hm (fun _ _ h₂ => onPath_meets _ _ _ _ h₂)
    exact Dev.Meets.paired (Dev.onConn_meets _ _ _ h₁)

theorem earlyLoss_meets {C : Claim} (n : Nat) (got : List TxPkt) (d : Dev) (hm : d.Meets C) : (earlyLoss n got d).Meets C := by
  unfold earlyLoss
  split
  · exact hm
  · refine meets_ite hm ?_
    extract_lets +onlyGivenNames lost
    exact foldl_meets hm (fun _ _ h₂ => markResend_meets _ _ _ _ _ h₂)

/-! ### Operations of RxResp -/

theorem rxReadResp_meets {C : Claim} (n : Nat) (port : Nat) (q : Qp) (m : TxMsg) (p : Pkt) (arr : BitVec 32) (d : Dev)
    (hm : d.Meets C) : (rxReadResp n port q m p arr d).Meets C := by
  unfold rxReadResp
  extract_lets +onlyGivenNames b off fin
  clear_value b off fin
  refine meets_ite (lengthConflict_meets _ _ _ _ hm) ?_
  extract_lets +onlyGivenNames bad
  clear_value bad
  split
  · extract_lets +onlyGivenNames m₁ d₂ d₃
    have h₂ : d₂.Meets C := Dev.onConn_meets _ _ _ (.of_pair (by assumption) (placeBytes_meets _ _ _ _ hm))
    have h₃ : d₃.Meets C := commit_meets _ _ _ _ h₂
    exact meets_ite h₃ (msgDone_meets _ _ _ _ _ _ h₃)

theorem rxAtomicResp_meets {C : Claim} (n : Nat) (port : Nat) (q : Qp) (m : TxMsg) (p : Pkt) (arr : BitVec 32) (d : Dev)
    (hm : d.Meets C) : (rxAtomicResp n port q m p arr d).Meets C := by
  unfold rxAtomicResp
  extract_lets +onlyGivenNames b v
  clear_value b v
  split
  · extract_lets +onlyGivenNames d₁
    have h₁ : d₁.Meets C := commit_meets _ _ _ _ (.of_pair (by assumption) (placeBytes_meets _ _ _ _ hm))
    exact msgDone_meets _ _ _ _ _ _ h₁

theorem rxOperateResp_meets {C : Claim} (n : Nat) (port : Nat) (q : Qp) (m : TxMsg) (p : Pkt) (arr : BitVec 32) (d : Dev)
    (hm : d.Meets C) : (rxOperateResp n port q m p arr d).Meets C := by
  unfold rxOperateResp
  extract_lets +onlyGivenNames b off fin last clash
  clear_value b off fin last clash
  refine meets_ite (lengthConflict_meets _ _ _ _ hm) ?_
  extract_lets +onlyGivenNames cut
  clear_value cut
  split
  · extract_lets +onlyGivenNames m₁ d₂ d₃
    have h₂ : d₂.Meets C := Dev.onConn_meets _ _ _ (.of_pair (by assumption) (placeBytes_meets _ _ _ _ hm))
    have h₃ : d₃.Meets C := commit_meets _ _ _ _ h₂
    clear_value m₁ d₂ d₃
    refine meets_ite h₃ ?_
    split
    · extract_lets +onlyGivenNames body ended
      exact msgDone_meets _ _ _ _ _ _ (.of_pair (by assumption) (placeBytes_meets _ _ _ _ h₃))

theorem rxResponse_meets {C : Claim} (n : Nat) (port : Nat) (t : BitVec 8) (p : Pkt) (arr : BitVec 32) (d : Dev)
    (hm : d.Meets C) : (rxResponse n port t p arr d).Meets C := by
  unfold rxResponse
  split
  · exact hm
  · split
    · exact escalate_meets _ _ _ _ hm
    · exact meets_ite (rxReadResp_meets _ _ _ _ _ _ _ hm) (meets_ite (rxAtomicResp_meets _ _ _ _ _ _ _ hm) (rxOperateResp_meets _ _ _ _ _ _ _ hm))

theorem takeSample_meets {C : Claim} (n : Nat) (k : Nat) (r : Nat) (acked : Nat) (d : Dev) (hm : d.Meets C) : (takeSample n k r acked d).Meets C := by
  unfold takeSample
  split
  · exact hm
  · exact Dev.onConn_meets _ _ _ (onPath_meets _ _ _ _ hm)

theorem probeAnswered_meets {C : Claim} (n : Nat) (k : Nat) (r : Nat) (acked : Nat) (echo : BitVec 32) (d : Dev)
    (hm : d.Meets C) : (probeAnswered n k r acked echo d).Meets C := by
  unfold probeAnswered
  split
  · exact hm
  · extract_lets +onlyGivenNames f
    exact takeSample_meets _ _ _ _ _ (onPath_meets _ _ _ _ hm)

theorem raiseLimit_meets {C : Claim} (n : Nat) (limit : BitVec 32) (d : Dev) (hm : d.Meets C) : (raiseLimit n limit d).Meets C := by
  unfold raiseLimit
  exact openMsgs_meets _ _ (Dev.onConn_meets _ _ _ hm)

theorem rxAck_meets {C : Claim} (n : Nat) (port : Nat) (p : Pkt) (d : Dev) (hm : d.Meets C) : (rxAck n port p d).Meets C := by
  unfold rxAck
  split
  · exact hm
  · extract_lets +onlyGivenNames e v1 cum sack
    refine meets_ite (escalate_meets _ _ _ _ hm) ?_
    extract_lets +onlyGivenNames d₁ echoTime delay r d₂
    have h₂ : d₂.Meets C := Dev.onConn_meets _ _ _ (count_meets _ _ _ _ _ hm)
    clear_value sack r d₂
    split
    next got d₃ he =>
      have h₃ : d₃.Meets C := .of_pair he (ackApply_meets _ _ _ _ h₂)
      clear he
      extract_lets +onlyGivenNames d₄ echoPsn k probed acked d₅
      have h₄ : d₄.Meets C := earlyLoss_meets _ _ _ h₃
      have h₅ : d₅.Meets C := by
        refine meets_ite (probeAnswered_meets _ _ _ _ _ _ h₄) ?_
        split
        · exact takeSample_meets _ _ _ _ _ h₄
        · exact h₄
      exact raiseLimit_meets _ _ _ (finishAcked_meets _ _ _ h₅)

theorem nakSuspend_meets {C : Claim} (n : Nat) (port : Nat) (m : TxMsg) (d : Dev) (hm : d.Meets C) : (nakSuspend n port m d).Meets C := by
  unfold nakSuspend
  extract_lets +onlyGivenNames d₁
  have h₁ : d₁.Meets C := count_meets _ _ _ _ _ hm
  exact meets_ite h₁ (meets_ite (msgFail_meets _ _ _ _ _ h₁) (Dev.onConn_meets _ _ _ h₁))

theorem nakSequence_meets {C : Claim} (n : Nat) (psn : BitVec 32) (d : Dev) (hm : d.Meets C) : (nakSequence n psn d).Meets C := by
  unfold nakSequence
  split
  · exact hm
  · exact foldl_meets hm (fun _ _ h₁ => markResend_meets _ _ _ _ _ h₁)

theorem rxNak_meets {C : Claim} (n : Nat) (port : Nat) (p : Pkt) (d : Dev) (hm : d.Meets C) : (rxNak n port p d).Meets C := by
  unfold rxNak
  split
  · exact hm
  · extract_lets +onlyGivenNames e cum
    clear_value e cum
    refine meets_ite (escalate_meets _ _ _ _ hm) ?_
    extract_lets +onlyGivenNames psn msn code
    clear_value psn msn code
    split
    · extract_lets +onlyGivenNames d₁ resp msg d₂ d₃
      have h₁ : d₁.Meets C := count_meets _ _ _ _ _ hm
      clear_value d₁ resp msg
      have h₂ : d₂.Meets C := by
        dsimp -zeta -iota -proj only [d₂]
        split
        · exact meets_ite (Dev.onConn_meets _ _ _ h₁) h₁
        · exact h₁
      have h₃ : d₃.Meets C := finishAcked_meets _ _ _ (ackApply_meets _ _ _ _ h₂)
      clear_value d₂ d₃
      refine meets_ite (nakSequence_meets _ _ _ h₃) (meets_ite (toFlush_meets _ _ _ _ (count_meets _ _ _ _ _ h₃)) ?_)
      split
      · exact meets_ite (toFlush_meets _ _ _ _ (count_meets _ _ _ _ _ h₃)) h₃
      · exact meets_ite (nakSuspend_meets _ _ _ _ h₃) (meets_ite h₃ (msgFail_meets _ _ _ _ _ h₃))

theorem rxProbe_meets {C : Claim} (n : Nat) (p : Pkt) (d : Dev) (hm : d.Meets C) : (rxProbe n p d).Meets C := by
  unfold rxProbe
  exact sendAck_meets _ _ _ _ _ _ hm

theorem rxDisconnect_meets {C : Claim} (n : Nat) (port : Nat) (p : Pkt) (d : Dev) (hm : d.Meets C) : (rxDisconnect n port p d).Meets C := by
  unfold rxDisconnect
  split
  · exact hm
  · exact meets_ite hm (toFlush_meets _ _ _ _ (count_meets _ _ _ _ _ hm))

theorem rxServe_meets {C : Claim} (n : Nat) (port : Nat) (t : BitVec 8) (p : Pkt) (arr : BitVec 32) (d : Dev)
    (hm : d.Meets C) : (rxServe n port t p arr d).Meets C := by
  unfold rxServe
  split
  · exact hm
  · split
    · exact Dev.onFab_meets hm rfl
    · exact meets_ite (rxRequest_meets _ _ _ _ _ _ hm) (rxResponse_meets _ _ _ _ _ _ hm)

theorem rxDupAck_meets {C : Claim} (n : Nat) (port : Nat) (p : Pkt) (d : Dev) (hm : d.Meets C) : (rxDupAck n port p d).Meets C := by
  unfold rxDupAck
  exact ackNow_meets _ _ _ (count_meets _ _ _ _ _ hm)

theorem rxLand_meets {C : Claim} (n : Nat) (port : Nat) (t : BitVec 8) (p : Pkt) (arr : BitVec 32) (d : Dev)
    (hm : d.Meets C) : (rxLand n port t p arr d).Meets C := by
  unfold rxLand
  split
  · exact hm
  · exact meets_ite hm (meets_ite (rxDupAck_meets _ _ _ _ hm) (rxServe_meets _ _ _ _ _ _ hm))

theorem rxSequenced_meets {C : Claim} (n : Nat) (port : Nat) (t : BitVec 8) (p : Pkt) (d : Dev)
    (hm : d.Meets C) : (rxSequenced n port t p d).Meets C := by
  unfold rxSequenced
  split
  · exact hm
  · extract_lets +onlyGivenNames v1 ahead
    exact meets_ite (nakAgain_meets _ _ _ _ hm) (meets_ite (rxDupAck_meets _ _ _ _ hm) (meets_ite (escalate_meets _ _ _ _
          (ackNow_meets _ _ _ hm)) (meets_ite (meets_ite hm (sendCtl_meets _ _ _ _ _ (Dev.onConn_meets _ _ _ hm))) (meets_ite
          (escalate_meets _ _ _ _ hm) (meets_ite (escalate_meets _ _ _ _ hm) (rxServe_meets _ _ _ _ _ _ hm))))))

theorem rxAccepted_meets {C : Claim} (n : Nat) (port : Nat) (t : BitVec 8) (p : Pkt) (d : Dev)
    (hm : d.Meets C) : (rxAccepted n port t p d).Meets C := by
  unfold rxAccepted
  split
  · exact hm
  · split
    · exact .of_pair (by assumption) (meterPkt_meets _ _ _ _ _ hm)
    · refine meets_ite ?_ (meets_ite (.of_pair (by assumption) (meterPkt_meets _ _ _ _ _ hm)) ?_)
      · split
        · exact logIt_meets _ _ _ _ _ _ (.of_pair (by assumption) (violation_meets _ _ _ _ (count_meets _ _ _ _ _ (.of_pair (by assumption)
              (meterPkt_meets _ _ _ _ _ hm)))))
        · exact .of_pair (by assumption) (violation_meets _ _ _ _ (count_meets _ _ _ _ _ (.of_pair (by assumption) (meterPkt_meets _ _ _ _ _ hm))))
      · extract_lets +onlyGivenNames d₁
        have h₁ : d₁.Meets C := Dev.onConn_meets _ _ _ (.of_pair (by assumption) (meterPkt_meets _ _ _ _ _ hm))
        exact meets_ite (rxAck_meets _ _ _ _ h₁) (meets_ite (rxNak_meets _ _ _ _ h₁) (meets_ite (rxDisconnect_meets _ _ _ _ h₁) (meets_ite
              (rxProbe_meets _ _ _ h₁) (rxSequenced_meets _ _ _ _ _ h₁))))

theorem authFail_meets {C : Claim} (n : Nat) (port : Nat) (p : Pkt) (d : Dev) (hm : d.Meets C) : (authFail n port p d).Meets C := by
  unfold authFail
  extract_lets +onlyGivenNames d₁
  have h₁ : d₁.Meets C := count_meets _ _ _ _ _ hm
  clear_value d₁
  split
  · exact .of_pair (by assumption) (violation_meets _ _ _ _ h₁)
  · extract_lets +onlyGivenNames live
    clear_value live
    refine meets_ite (.of_pair (by assumption) (violation_meets _ _ _ _ h₁)) ?_
    extract_lets +onlyGivenNames d₂ d₃
    have h₂ : d₂.Meets C := nakFatal_meets _ _ _ _ _ (.of_pair (by assumption) (violation_meets _ _ _ _ h₁))
    have h₃ : d₃.Meets C := toFlush_meets _ _ _ _ (count_meets _ _ _ _ _ h₂)
    exact logIt_meets _ _ _ _ _ _ h₃

theorem rxChecked_meets {C : Claim} (n : Nat) (port : Nat) (t : BitVec 8) (p : Pkt) (d : Dev)
    (hm : d.Meets C) : (rxChecked n port t p d).Meets C := by
  unfold rxChecked
  refine meets_ite (versionBad_meets _ _ _ hm) (meets_ite (malformed_meets _ _ _ hm) ?_)
  split
  · exact freePlace_meets _ _ _ _ _ hm
  · exact meets_ite (count_meets _ _ _ _ _ hm) (meets_ite (errorQp_meets _ _ _ _ _ hm) (rxAccepted_meets _ _ _ _ _ hm))

theorem rxTrailer_meets {C : Claim} (t : BitVec 8) (port : Nat) (p : Pkt) (d : Dev) (hm : d.Meets C) : (rxTrailer t port p d).Meets C := by
  unfold rxTrailer
  extract_lets +onlyGivenNames n
  clear_value n
  split
  · exact trailerBad_meets _ _ hm
  · exact authFail_meets _ _ _ _ hm
  · exact count_meets _ _ _ _ _ hm
  · exact rxChecked_meets _ _ _ _ _ (setAuth_meets _ _ _ hm)

theorem openLater_meets {C : Claim} (t : BitVec 8) (port : Nat) (p : Pkt) (places : Option (Nat × Nat)) (d : Dev)
    (hm : d.Meets C) : (openLater t port p places d).Meets C := by
  unfold openLater
  split
  · exact Dev.onCiph_meets (.of_pair (by assumption) (chargePacket_meets _ _ _ _ hm)) rfl rfl

theorem openedOne_meets {C : Claim} (o : Opening) (d : Dev) (hm : d.Meets C) : (openedOne o d).Meets C := by
  unfold openedOne
  exact rxTrailer_meets _ _ _ _ (freePlaces_meets _ _ _ hm)

theorem openedAll_meets {C : Claim} (d : Dev) (hm : d.Meets C) : (openedAll d).Meets C := by
  unfold openedAll
  split
  · exact meets_ite hm (settle_meets _ (foldl_meets (Dev.onCiph_meets hm rfl rfl) (fun _ _ h₁ => openedOne_meets _ _ h₁)))

theorem rxWhole_meets {C : Claim} (t : BitVec 8) (port : Nat) (p : Pkt) (places : Option (Nat × Nat)) (d : Dev)
    (hm : d.Meets C) : (rxWhole t port p places d).Meets C := by
  unfold rxWhole
  extract_lets +onlyGivenNames ten d₁
  have h₁ : d₁.Meets C := count_meets _ _ _ _ _ (count_meets _ _ _ _ _ hm)
  exact meets_ite (malformed_meets _ _ _ (freePlaces_meets _ _ _ h₁)) (meets_ite (openLater_meets _ _ _ _ _ h₁) (rxTrailer_meets _ _ _ _
        (freePlaces_meets _ _ _ h₁)))

theorem recvPkt_meets {C : Claim} (t : BitVec 8) (port : Nat) (p : Pkt) (d : Dev) (hm : d.Meets C) : (recvPkt t port p d).Meets C := by
  unfold recvPkt
  extract_lets +onlyGivenNames direct
  clear_value direct
  refine meets_ite hm (meets_ite (count_meets _ _ _ _ _ hm) (meets_ite (rxWhole_meets _ _ _ _ _ hm) ?_))
  split
  · exact rxWhole_meets _ _ _ _ _ (dropInward_meets _ _ _ hm)
  · exact hm

/-! ### Operations of Wire -/

theorem arrive_meets {C : Claim} (t : BitVec 8) (port : Nat) (p : Pkt) (f : Dev → Dev) (hf : ∀ a₀, a₀.Meets C → (f a₀).Meets C) (d : Dev)
    (hC : C.Wide) (hm : d.Meets C) : (arrive t port p f d).Meets C := by
  unfold arrive
  exact meets_ite (meets_ite (meets_ite (count_meets _ _ _ _ _ (wakeDev_meets _ hC hm)) (wakeDev_meets _ hC
        (Dev.onPwr_wide hC hm rfl rfl rfl rfl rfl))) hm) (hf _ hm)

theorem devPkt_meets {C : Claim} (t : BitVec 8) (port : Nat) (p : Pkt) (d : Dev) (hC : C.Wide) (hm : d.Meets C) : (devPkt t port p d).Meets C := by
  unfold devPkt
  exact arrive_meets _ _ _ _ (fun _ h₁ => recvPkt_meets _ _ _ _ h₁) _ hC hm

theorem sendOn_meets {C : Claim} (n : Nat) (q : Qp) (u : TxPkt) (ext : Bytes) (data : Bytes) (k : Nat) (pa : Path) (port : Nat) (d : Dev)
    (hm : d.Meets C) : (sendOn n q u ext data k pa port d).Meets C := by
  unfold sendOn
  extract_lets +onlyGivenNames again p len tile t s excess d₁ d₂ d₃ d₄ d₅ d₆
  have h₁ : d₁.Meets C := Dev.onNet_meets hm
  have h₂ : d₂.Meets C := tenCount_meets _ _ _ _ h₁
  have h₃ : d₃.Meets C := release_meets _ _ _ _ _ _ _ _ _ (noteEgress_meets _ _ _ _ _ _ h₂)
  have h₄ : d₄.Meets C := onPath_meets _ _ _ _ h₃
  have h₅ : d₅.Meets C := onPath_meets _ _ _ _ h₄
  have h₆ : d₆.Meets C := Dev.onConn_meets _ _ _ h₅
  exact onPkt_meets _ _ _ _ h₆

theorem sourceFails_meets {C : Claim} (n : Nat) (q : Qp) (u : TxPkt) (code : Nat) (detail : Nat) (d : Dev)
    (hm : d.Meets C) : (sourceFails n q u code detail d).Meets C := by
  unfold sourceFails
  split
  · exact endEntry_meets _ _ _ _ _ hm
  · exact hm

theorem devPacketSend_meets {C : Claim} (n : Nat) (d : Dev) (hm : d.Meets C) : (devPacketSend n d).Meets C := by
  unfold devPacketSend
  split
  · exact hm
  · refine meets_ite hm ?_
    split
    · exact hm
    · refine meets_ite (seqEnd_meets _ _ hm) (meets_ite hm ?_)
      extract_lets +onlyGivenNames d₁
      have h₁ : d₁.Meets C := touchPlaces_meets _ _ hm
      clear_value d₁
      split
      · exact hm
      · exact sourceFails_meets _ _ _ _ _ _ h₁
      · extract_lets +onlyGivenNames s d₂
        have h₂ : d₂.Meets C := dropDeadPaths_meets _ _ hm
        clear_value s d₂
        refine meets_ite h₂ ?_
        split
        · exact h₂
        · split
          · exact h₂
          · exact sendOn_meets _ _ _ _ _ _ _ _ _ (dropDeadPaths_meets _ _ h₁)

theorem devRetransmitTimer_meets {C : Claim} (n : Nat) (psn : BitVec 32) (d : Dev) (hm : d.Meets C) : (devRetransmitTimer n psn d).Meets C := by
  unfold devRetransmitTimer
  split
  · exact hm
  · split
    · exact hm
    · extract_lets +onlyGivenNames first runs
      exact meets_ite hm (meets_ite (noAck_meets _ _ _ hm) (markResend_meets _ _ _ _ _ hm))

theorem devAckTimer_meets {C : Claim} (n : Nat) (d : Dev) (hm : d.Meets C) : (devAckTimer n d).Meets C := by
  unfold devAckTimer
  split
  · exact hm
  · exact meets_ite hm (ackLatest_meets _ _ hm)

theorem devNotReadyBackoff_meets {C : Claim} (n : Nat) (msn : BitVec 32) (d : Dev) (hm : d.Meets C) : (devNotReadyBackoff n msn d).Meets C := by
  unfold devNotReadyBackoff
  split
  · exact hm
  · exact meets_ite hm (Dev.onConn_meets _ _ _ hm)

theorem sendProbe_meets {C : Claim} (n : Nat) (k : Nat) (d : Dev) (hm : d.Meets C) : (sendProbe n k d).Meets C := by
  unfold sendProbe
  exact sendCtl_meets _ _ _ _ _ (onPath_meets _ _ _ _ hm)

theorem devMsnProbe_meets {C : Claim} (n : Nat) (d : Dev) (hm : d.Meets C) : (devMsnProbe n d).Meets C := by
  unfold devMsnProbe
  split
  · exact hm
  · split
    · exact hm
    · refine meets_ite hm (meets_ite (msgFail_meets _ _ _ _ _ hm) ?_)
      extract_lets +onlyGivenNames d₁
      have h₁ : d₁.Meets C := Dev.onConn_meets _ _ _ hm
      exact sendProbe_meets _ _ _ h₁

theorem devGrantAnnounce_meets {C : Claim} (n : Nat) (d : Dev) (hm : d.Meets C) : (devGrantAnnounce n d).Meets C := by
  unfold devGrantAnnounce
  split
  · exact hm
  · exact meets_ite (sendAck_meets _ _ _ _ _ _ (extendGrant_meets _ _ hm)) hm

theorem devDisconnectRepeat_meets {C : Claim} (n : Nat) (d : Dev) (hm : d.Meets C) : (devDisconnectRepeat n d).Meets C := by
  unfold devDisconnectRepeat
  split
  · exact meets_ite hm (sendCtl_meets _ _ _ _ _ (Dev.onConn_meets _ _ _ hm))
  · split
    · exact hm
    · extract_lets +onlyGivenNames d₁ conn
      have h₁ : d₁.Meets C := sendCtlQ_meets _ _ _ _ _ _ hm
      exact Dev.onQ_meets h₁

theorem devTombstoneExpiry_meets {C : Claim} (n : Nat) (d : Dev) (hm : d.Meets C) : (devTombstoneExpiry n d).Meets C := by
  unfold devTombstoneExpiry
  exact meets_ite hm (Dev.onQ_meets hm)

theorem devPathSet_meets {C : Claim} (c : CmdSlot) (d : Dev) (hC : C.Wide) (hm : d.Meets C) : (devPathSet c d).Meets C := by
  unfold devPathSet
  refine runChk_meets _ _ _ _ (fun _ _ h₁ => withTenant_meets _ _ _ _ (fun _ _ h₂ => ?_) _ hC h₁) _ hC hm
  extract_lets +onlyGivenNames n
  clear_value n
  split
  · exact finishAt_meets _ _ _ _ hC h₂
  · refine meets_ite (finishAt_meets _ _ _ _ hC h₂) (meets_ite (finishAt_meets _ _ _ _ hC h₂) (meets_ite (finishAt_meets _ _ _ _ hC h₂) ?_))
    extract_lets +onlyGivenNames l
    exact finish_meets _ _ _ hC (Dev.onQp_meets _ _ _ h₂)

theorem oddFrame_meets {C : Claim} (port : Nat) (h : FrameHdr) (d : Dev) (hm : d.Meets C) : (oddFrame port h d).Meets C := by
  unfold oddFrame
  extract_lets +onlyGivenNames p
  exact meets_ite (malformed_meets _ _ _ hm) (meets_ite hm (meets_ite (openLater_meets _ _ _ _ _ hm) (rxTrailer_meets _ _ _ _ hm)))

theorem devNonEwewaFrame_meets {C : Claim} (port : Nat) (h : FrameHdr) (d : Dev) (hm : d.Meets C) : (devNonEwewaFrame port h d).Meets C := by
  unfold devNonEwewaFrame
  exact meets_ite hm (meets_ite (count_meets _ _ _ _ _ hm) (frameIn_meets _ _ _ (fun _ h₁ => meets_ite (count_meets _ _ _ _ _ h₁) (meets_ite
        (count_meets _ _ _ _ _ h₁) (oddFrame_meets _ _ _ h₁))) _ hm))

theorem ownQuery_meets {C : Claim} (port : Nat) (n : Nat) (addr : PortEntry → Bytes) (ip : Bytes) (f : Bytes → FrameKind × Nat) (d : Dev)
    (hm : d.Meets C) : (ownQuery port n addr ip f d).Meets C := by
  unfold ownQuery
  refine meets_ite hm (meets_ite (count_meets _ _ _ _ _ hm) (frameIn_meets _ _ _ (fun _ h₁ => meets_ite ?_ h₁) _ hm))
  extract_lets +onlyGivenNames p
  clear_value p
  split
  · exact ownIn_meets _ _ _ _ h₁

theorem devArpRequest_meets {C : Claim} (port : Nat) (mac : Bytes) (src : Bytes) (ip : Bytes) (d : Dev)
    (hm : d.Meets C) : (devArpRequest port mac src ip d).Meets C := by
  unfold devArpRequest
  exact ownQuery_meets _ _ _ _ _ _ hm

theorem devNeighbourSolicitation_meets {C : Claim} (port : Nat) (mac : Bytes) (src : Bytes) (ip : Bytes) (d : Dev)
    (hm : d.Meets C) : (devNeighbourSolicitation port mac src ip d).Meets C := by
  unfold devNeighbourSolicitation
  exact ownQuery_meets _ _ _ _ _ _ hm

theorem devPauseFrame_meets {C : Claim} (port : Nat) (d : Dev) (hm : d.Meets C) : (devPauseFrame port d).Meets C := by
  unfold devPauseFrame
  exact meets_ite hm (meets_ite (count_meets _ _ _ _ _ hm) (count_meets _ _ _ _ _ hm))

end Sys2Proof.Machine
end

section
/-! SUPPORT. Claims that operations keep: links and congestion. -/

namespace Sys2Proof.Machine

/-! ### Operations of LinkOps -/

theorem onLink_meets {C : Claim} (port : Nat) (f : Link → Link) (d : Dev) (hm : d.Meets C) : (onLink port f d).Meets C := by
  unfold onLink
  exact Dev.onPort_meets _ _ _ hm

theorem sendPlain_meets {C : Claim} (port : Nat) (bt : Nat) (seq : Nat) (d : Dev) (hm : d.Meets C) : (sendPlain port bt seq d).Meets C := by
  unfold sendPlain
  split
  · exact emit_meets _ _ (onLink_meets _ _ _ hm)

theorem sendData_meets {C : Claim} (port : Nat) (vc : Nat) (sof : Bool) (eof : Bool) (pl : Bytes) (d : Dev)
    (hm : d.Meets C) : (sendData port vc sof eof pl d).Meets C := by
  unfold sendData
  split
  · extract_lets +onlyGivenNames b
    exact emit_meets _ _ (onLink_meets _ _ _ hm)

theorem sendBlocks_meets {C : Claim} (port vc : Nat) (first : Bool) (n : Nat) (b : Bytes) (d : Dev) (hm : d.Meets C) :
    (sendBlocks port vc first n b d).Meets C := by
  induction n generalizing first b d with
  | zero => exact hm
  | succ n ih => exact ih _ _ _ (sendData_meets _ _ _ _ _ _ hm)

theorem sendWhole_meets {C : Claim} (port : Nat) (vc : Nat) (taken : Bool) (b : Bytes) (d : Dev)
    (hm : d.Meets C) : (sendWhole port vc taken b d).Meets C := by
  unfold sendWhole
  extract_lets +onlyGivenNames n
  exact sendBlocks_meets _ _ _ _ _ _ (meets_ite hm (onLink_meets _ _ _ hm))

theorem sendMgt_meets {C : Claim} (port : Nat) (msg : Bytes) (d : Dev) (hm : d.Meets C) : (sendMgt port msg d).Meets C := by
  unfold sendMgt
  exact ownIn_meets _ _ _ _ hm

theorem answerStep_meets {C : Claim} (x : Option StepCause) (d : Dev) (hC : C.Wide) (hm : d.Meets C) : (answerStep x d).Meets C := by
  unfold answerStep
  split
  · exact answerIf_meets _ _ _ _ _ hC hm
  · exact answerIf_meets _ _ _ _ _ hC hm
  · exact answerIf_meets _ _ _ _ _ hC hm
  · exact hm

theorem endStep_meets {C : Claim} (port : Nat) (d : Dev) (hC : C.Wide) (hm : d.Meets C) : (endStep port d).Meets C := by
  unfold endStep
  extract_lets +onlyGivenNames p d₁ d₂ d₃
  have h₁ : d₁.Meets C := Dev.onPort_meets _ _ _ hm
  have h₂ : d₂.Meets C := answerStep_meets _ _ hC (answerStep_meets _ _ hC h₁)
  clear_value p d₁ d₂
  have h₃ : d₃.Meets C := by
    dsimp -zeta -iota -proj only [d₃]
    split
    · exact answerIf_meets _ _ _ _ _ hC h₂
    · exact h₂
  clear_value d₃
  split
  · exact answerIf_meets _ _ _ _ _ hC h₃
  · exact h₃

theorem resendPort_meets {C : Claim} (port : Nat) (d : Dev) (hm : d.Meets C) : (resendPort port d).Meets C := by
  unfold resendPort
  refine foldl_meets hm (fun _ _ h₁ => ?_)
  split
  · exact foldl_meets h₁ (fun _ _ h₂ => markResend_meets _ _ _ _ _ h₂)

theorem downPaths_meets {C : Claim} (port : Nat) (d : Dev) (hm : d.Meets C) : (downPaths port d).Meets C := by
  unfold downPaths
  refine foldl_meets hm (fun _ _ h₁ => ?_)
  split
  · refine foldl_meets h₁ (fun _ _ h₂ => ?_)
    split
    · exact meets_ite (pathDown_meets _ _ _ h₂) h₂
    · exact h₂

theorem dropAllDead_meets {C : Claim} (d : Dev) (hm : d.Meets C) : (dropAllDead d).Meets C := by
  unfold dropAllDead
  refine foldl_meets hm (fun _ _ h₁ => ?_)
  split
  · exact dropDeadPaths_meets _ _ h₁

theorem portDown_meets {C : Claim} (port : Nat) (d : Dev) (hC : C.Wide) (hm : d.Meets C) : (portDown port d).Meets C := by
  unfold portDown
  extract_lets +onlyGivenNames d₁ d₂ d₃ c d₄
  have h₁ : d₁.Meets C := Dev.onPort_meets _ _ _ hm
  have h₂ : d₂.Meets C := Dev.onCiph_wide hC h₁
  have h₃ : d₃.Meets C := dropAllDead_meets _ (downPaths_meets _ _ (resendPort_meets _ _ (endStep_meets _ _ hC h₂)))
  clear_value d₁ d₂ d₃ c
  have h₄ : d₄.Meets C := by
    dsimp -zeta -iota -proj only [d₄]
    split
    · exact answerIf_meets _ _ _ _ _ hC (Dev.onPort_meets _ _ _ h₃)
    · exact h₃
  exact meets_ite (wakeDev_meets _ hC h₄) h₄

theorem trainAfresh_meets {C : Claim} (port : Nat) (d : Dev) (hC : C.Wide) (hm : d.Meets C) : (trainAfresh port d).Meets C := by
  unfold trainAfresh
  exact Dev.onPort_meets _ _ _ (portDown_meets _ _ hC hm)

theorem replayRetrain_meets {C : Claim} (port : Nat) (d : Dev) (hm : d.Meets C) : (replayRetrain port d).Meets C := by
  unfold replayRetrain
  extract_lets +onlyGivenNames p
  clear_value p
  refine meets_ite ?_ hm
  extract_lets +onlyGivenNames c
  exact Dev.onPort_meets _ _ _ hm

theorem badBlock_meets {C : Claim} (port : Nat) (src : Nat) (d : Dev) (hm : d.Meets C) : (badBlock port src d).Meets C := by
  unfold badBlock
  extract_lets +onlyGivenNames d₁
  have h₁ : d₁.Meets C := count_meets _ _ _ _ _ hm
  clear_value d₁
  split
  · exact Dev.onPort_meets _ _ _ h₁

theorem logLink_meets {C : Claim} (port : Nat) (src : Nat) (d : Dev) (hm : d.Meets C) : (logLink port src d).Meets C := by
  unfold logLink
  split
  · exact logIt_meets _ _ _ _ _ _ (onLink_meets _ _ _ hm)

theorem linkViolation_meets {C : Claim} (port : Nat) (src : Nat) (logged : Bool) (d : Dev)
    (hm : d.Meets C) : (linkViolation port src logged d).Meets C := by
  unfold linkViolation
  extract_lets +onlyGivenNames d₁ d₂
  have h₁ : d₁.Meets C := count_meets _ _ _ _ _ hm
  have h₂ : d₂.Meets C := meets_ite (logLink_meets _ _ _ h₁) h₁
  clear_value d₁ d₂
  split
  · extract_lets +onlyGivenNames d₃
    have h₃ : d₃.Meets C := onLink_meets _ _ _ h₂
    exact meets_ite (replayRetrain_meets _ _ (meets_ite h₃ (logLink_meets _ _ _ h₃))) h₃

theorem holdPort_meets {C : Claim} (port : Nat) (check : Nat) (d : Dev) (hC : C.Wide) (hm : d.Meets C) : (holdPort port check d).Meets C := by
  unfold holdPort
  extract_lets +onlyGivenNames d₁ p d₂
  have h₁ : d₁.Meets C := endStep_meets _ _ hC hm
  have h₂ : d₂.Meets C := count_meets _ _ _ _ _ (Dev.onPort_meets _ _ _ h₁)
  exact logIt_meets _ _ _ _ _ _ h₂

theorem portUpNow_meets {C : Claim} (port : Nat) (d : Dev) (hC : C.Wide) (hm : d.Meets C) : (portUpNow port d).Meets C := by
  unfold portUpNow
  extract_lets +onlyGivenNames c d₁
  have h₁ : d₁.Meets C := Dev.onPort_meets _ _ _ hm
  clear_value c d₁
  split
  · exact answerIf_meets _ _ _ _ _ hC h₁
  · exact h₁

theorem startStep_meets {C : Claim} (port : Nat) (cause : StepCause) (d : Dev) (hm : d.Meets C) : (startStep port cause d).Meets C := by
  unfold startStep
  extract_lets +onlyGivenNames m
  exact sendMgt_meets _ _ _ (Dev.onPort_meets _ _ _ hm)

theorem sendWidthReq_meets {C : Claim} (port : Nat) (m : BitVec 8) (d : Dev) (hm : d.Meets C) : (sendWidthReq port m d).Meets C := by
  unfold sendWidthReq
  extract_lets +onlyGivenNames w
  exact sendMgt_meets _ _ _ (Dev.onPort_meets _ _ _ hm)

theorem fallBack_meets {C : Claim} (port : Nat) (d : Dev) (hm : d.Meets C) : (fallBack port d).Meets C := by
  unfold fallBack
  extract_lets +onlyGivenNames p x
  exact meets_ite (Dev.onPort_meets _ _ _ hm) hm

theorem recalEnd_meets {C : Claim} (port : Nat) (lane : Nat) (c : CmdSlot) (ok : Bool) (d : Dev)
    (hC : C.Wide) (hm : d.Meets C) : (recalEnd port lane c ok d).Meets C := by
  unfold recalEnd
  extract_lets +onlyGivenNames d₁ p
  have h₁ : d₁.Meets C := Dev.onPort_meets _ _ _ hm
  clear_value d₁ p
  refine meets_ite (meets_ite (startStep_meets _ _ _ h₁) (answerIf_meets _ _ _ _ _ hC h₁)) ?_
  extract_lets +onlyGivenNames d₂
  have h₂ : d₂.Meets C := meets_ite (Dev.onPort_meets _ _ _ h₁) (answerIf_meets _ _ _ _ _ hC h₁)
  exact meets_ite (meets_ite (Dev.onPort_meets _ _ _ h₂) h₂) (meets_ite (Dev.onPort_meets _ _ _ h₂) (fallBack_meets _ _ h₂))

theorem stepAgain_meets {C : Claim} (port : Nat) (d : Dev) (hC : C.Wide) (hm : d.Meets C) : (stepAgain port d).Meets C := by
  unfold stepAgain
  extract_lets +onlyGivenNames p
  clear_value p
  refine meets_ite hm (meets_ite (startStep_meets _ _ _ hm) ?_)
  split
  · exact startStep_meets _ _ _ (Dev.onPort_meets _ _ _ hm)
  · exact recalEnd_meets _ _ _ _ _ hC hm
  · refine meets_ite hm ?_
    extract_lets +onlyGivenNames d₁
    have h₁ : d₁.Meets C := Dev.onPort_meets _ _ _ hm
    exact meets_ite (startStep_meets _ _ _ h₁) h₁

theorem finishStep_meets {C : Claim} (port : Nat) (d : Dev) (hC : C.Wide) (hm : d.Meets C) : (finishStep port d).Meets C := by
  unfold finishStep
  extract_lets +onlyGivenNames p
  clear_value p
  split
  · exact hm
  · refine meets_ite hm ?_
    extract_lets +onlyGivenNames lanes old d₁ d₂
    have h₁ : d₁.Meets C := Dev.onPort_meets _ _ _ hm
    have h₂ : d₂.Meets C := logIt_meets _ _ _ _ _ _ (count_meets _ _ _ _ _ h₁)
    clear_value lanes old d₁ d₂
    refine stepAgain_meets _ _ hC ?_
    split
    · exact Dev.onPort_meets _ _ _ h₂
    · exact answerIf_meets _ _ _ _ _ hC h₂
    · exact answerIf_meets _ _ _ _ _ hC h₂
    · exact h₂
    · exact h₂

/-! ### Operations of Cong -/

theorem devCcProfileSet_meets {C : Claim} (c : CmdSlot) (d : Dev) (hC : C.Wide) (hm : d.Meets C) : (devCcProfileSet c d).Meets C := by
  unfold devCcProfileSet
  refine runChk_meets _ _ _ _ (fun _ _ h₁ => ?_) _ hC hm
  extract_lets +onlyGivenNames k
  clear_value k
  refine meets_ite (replFinish_meets _ _ _ _ _ _ hC (Dev.onNet_meets h₁)) ?_
  extract_lets +onlyGivenNames t n
  clear_value t n
  refine withTenantAt_meets _ _ _ _ _ (fun _ _ h₃ => meets_ite ?_ ?_) _ hC h₁
  · extract_lets +onlyGivenNames d₄
    have h₄ : d₄.Meets C := Dev.onNet_meets h₃
    exact finish_meets _ _ _ hC (Dev.onQ_meets h₄)
  · split
    · exact finishAt_meets _ _ _ _ hC h₃
    · exact meets_ite (finishAt_meets _ _ _ _ hC h₃) (meets_ite (finishAt_meets _ _ _ _ hC h₃) (finish_meets _ _ _ hC (Dev.onQp_meets _ _ _ h₃)))

theorem devShaperSet_meets {C : Claim} (c : CmdSlot) (d : Dev) (hC : C.Wide) (hm : d.Meets C) : (devShaperSet c d).Meets C := by
  unfold devShaperSet
  refine runChk_meets _ _ _ _ (fun _ _ h₁ => ?_) _ hC hm
  extract_lets +onlyGivenNames s put
  clear_value s
  refine meets_ite (finish_meets _ _ _ hC (Dev.onPort_meets _ _ _ h₁)) ?_
  extract_lets +onlyGivenNames t
  exact withTenantAt_meets _ _ _ _ _ (fun _ _ h₃ => finish_meets _ _ _ hC (Dev.onNet_meets h₃)) _ hC h₁

theorem devMeterSet_meets {C : Claim} (c : CmdSlot) (d : Dev) (hC : C.Wide) (hm : d.Meets C) : (devMeterSet c d).Meets C := by
  unfold devMeterSet
  refine runChk_meets _ _ _ _ (fun _ _ h₁ => ?_) _ hC hm
  extract_lets +onlyGivenNames s put
  clear_value s
  refine meets_ite (finish_meets _ _ _ hC (Dev.onPort_meets _ _ _ h₁)) ?_
  extract_lets +onlyGivenNames t
  exact withTenantAt_meets _ _ _ _ _ (fun _ _ h₃ => finish_meets _ _ _ hC (Dev.onNet_meets h₃)) _ hC h₁

theorem devBucketFill_meets {C : Claim} (d : Dev) (hm : d.Meets C) : (devBucketFill d).Meets C := by
  unfold devBucketFill
  extract_lets +onlyGivenNames k d₁ d₂
  clear_value k
  have h₁ : d₁.Meets C := by
    dsimp -zeta -iota -proj only [d₁]
    refine foldl_meets hm (fun _ _ h₄ => ?_)
    split
    · split
      · exact Dev.onTen_meets _ _ _ h₄
      · exact h₄
  have h₂ : d₂.Meets C := Dev.onRopes_meets h₁
  exact Dev.onNet_meets h₂

theorem devPathHoldExpiry_meets {C : Claim} (n : Nat) (k : Nat) (d : Dev) (hm : d.Meets C) : (devPathHoldExpiry n k d).Meets C := by
  unfold devPathHoldExpiry
  split
  · exact hm
  · split
    · exact hm
    · exact meets_ite hm (meets_ite (onPath_meets _ _ _ _ hm) (sendProbe_meets _ _ _ hm))

theorem devBaseWinRotate_meets {C : Claim} (n : Nat) (k : Nat) (d : Dev) (hm : d.Meets C) : (devBaseWinRotate n k d).Meets C := by
  unfold devBaseWinRotate
  exact onPath_meets _ _ _ _ hm

theorem devGateListSet_meets {C : Claim} (c : CmdSlot) (d : Dev) (hC : C.Wide) (hm : d.Meets C) : (devGateListSet c d).Meets C := by
  unfold devGateListSet
  refine runChk_meets _ _ _ _ (fun _ _ h₁ => ?_) _ hC hm
  extract_lets +onlyGivenNames k np wait
  have h₄ : ∀ a₂ a₃, Dev.Meets C (wait a₂ a₃) := fun _ _ => Dev.onPort_meets _ _ _ (leave_meets _ _ _ hC h₁)
  clear_value k np wait
  refine meets_ite (finish_meets _ _ _ hC h₁) (meets_ite ?_ ?_)
  · extract_lets +onlyGivenNames l
    exact h₄ _ _
  · split
    · exact finish_meets _ _ _ hC h₁
    · exact h₄ _ _

theorem devGateEntryAdvance_meets {C : Claim} (port : Nat) (d : Dev) (hm : d.Meets C) : (devGateEntryAdvance port d).Meets C := by
  unfold devGateEntryAdvance
  exact Dev.onPort_meets _ _ _ hm

theorem devGateListTakeover_meets {C : Claim} (port : Nat) (d : Dev) (hC : C.Wide) (hm : d.Meets C) : (devGateListTakeover port d).Meets C := by
  unfold devGateListTakeover
  split
  · exact hm
  · extract_lets +onlyGivenNames d₁
    have h₁ : d₁.Meets C := Dev.onPort_meets _ _ _ hm
    exact answerIf_meets _ _ _ _ _ hC h₁

theorem startFrame_meets {C : Claim} (port : Nat) (vc : Nat) (taken : Bool) (f : Frame) (d : Dev)
    (hm : d.Meets C) : (startFrame port vc taken f d).Meets C := by
  unfold startFrame
  extract_lets +onlyGivenNames p
  exact meets_ite (emit_meets _ _ hm) (sendWhole_meets _ _ _ _ _ hm)

theorem devPortSchedule_meets {C : Claim} (port : Nat) (d : Dev) (hm : d.Meets C) : (devPortSchedule port d).Meets C := by
  unfold devPortSchedule
  extract_lets +onlyGivenNames p d₁
  have h₁ : d₁.Meets C := meets_ite (count_meets _ _ _ _ _ hm) hm
  clear_value p d₁
  refine meets_ite ?_ ?_
  · split
    · exact h₁
    · exact Dev.onPort_meets _ _ _ h₁
  · split
    · extract_lets +onlyGivenNames idles
      exact meets_ite (sendPlain_meets _ _ _ _ h₁) h₁
    · extract_lets +onlyGivenNames d₂
      have h₂ : d₂.Meets C := Dev.onPort_meets _ _ _ h₁
      exact startFrame_meets _ _ _ _ _ (count_meets _ _ _ _ _ h₂)
    · extract_lets +onlyGivenNames ch here d₃ d₄ d₅
      have h₃ : d₃.Meets C := Dev.onPort_meets _ _ _ h₁
      have h₄ : d₄.Meets C := count_meets _ _ _ _ _ (count_meets _ _ _ _ _ h₃)
      have h₅ : d₅.Meets C := meets_ite (count_meets _ _ _ _ _ h₄) h₄
      exact startFrame_meets _ _ _ _ _ (meets_ite h₅ (heldDrain_meets _ _ _ h₅))

theorem devEqSamplePeriod_meets {C : Claim} (d : Dev) (hm : d.Meets C) : (devEqSamplePeriod d).Meets C := by
  unfold devEqSamplePeriod
  exact Dev.onNet_meets hm

/-! ### Operations of Link -/

theorem askReplay_meets {C : Claim} (port : Nat) (d : Dev) (hm : d.Meets C) : (askReplay port d).Meets C := by
  unfold askReplay
  extract_lets +onlyGivenNames l
  exact meets_ite hm (sendPlain_meets _ _ _ _ (onLink_meets _ _ _ hm))

theorem holdWhenDrained_meets {C : Claim} (port : Nat) (d : Dev) (hC : C.Wide) (hm : d.Meets C) : (holdWhenDrained port d).Meets C := by
  unfold holdWhenDrained
  extract_lets +onlyGivenNames p
  exact meets_ite (dropAllDead_meets _ (Dev.onPort_meets _ _ _ (downPaths_meets _ _ (resendPort_meets _ _ (endStep_meets _ _ hC hm))))) hm

theorem sleepWhenDrained_meets {C : Claim} (port : Nat) (d : Dev) (hm : d.Meets C) : (sleepWhenDrained port d).Meets C := by
  unfold sleepWhenDrained
  extract_lets +onlyGivenNames p
  exact meets_ite (Dev.onPort_meets _ _ _ (meets_ite (sendPlain_meets _ _ _ _ hm) hm)) hm

theorem linkAck_meets {C : Claim} (port : Nat) (ack : Nat) (d : Dev) (hC : C.Wide) (hm : d.Meets C) : (linkAck port ack d).Meets C := by
  unfold linkAck
  extract_lets +onlyGivenNames l n gone
  exact meets_ite hm (sleepWhenDrained_meets _ _ (holdWhenDrained_meets _ _ hC (onLink_meets _ _ _ hm)))

theorem linkCredits_meets {C : Claim} (port : Nat) (vc : Nat) (n : Nat) (d : Dev) (hm : d.Meets C) : (linkCredits port vc n d).Meets C := by
  unfold linkCredits
  refine meets_ite hm ?_
  extract_lets +onlyGivenNames have_ top d₁
  have h₁ : d₁.Meets C := onLink_meets _ _ _ hm
  exact meets_ite (linkViolation_meets _ _ _ _ h₁) h₁

theorem oweBack_meets {C : Claim} (port : Nat) (vc : Nat) (n : Nat) (d : Dev) (hm : d.Meets C) : (oweBack port vc n d).Meets C := by
  unfold oweBack
  exact onLink_meets _ _ _ hm

theorem dropOpen_meets {C : Claim} (port : Nat) (vc : Nat) (more : Bool) (d : Dev) (hm : d.Meets C) : (dropOpen port vc more d).Meets C := by
  unfold dropOpen
  extract_lets +onlyGivenNames n
  exact onLink_meets _ _ _ hm

theorem wholeFrame_meets {C : Claim} (port : Nat) (vc : Nat) (n : Nat) (b : Bytes) (d : Dev)
    (hm : d.Meets C) : (wholeFrame port vc n b d).Meets C := by
  unfold wholeFrame
  split
  · exact onLink_meets _ _ _ hm
  · exact onLink_meets _ _ _ hm
  · exact linkViolation_meets _ _ _ _ (oweBack_meets _ _ _ _ hm)
  · exact logFirst60_meets _ _ _ _ _ _ _ (count_meets _ _ _ _ _ (oweBack_meets _ _ _ _ hm))

theorem mgtBlock_meets {C : Claim} (port : Nat) (b : Block) (d : Dev) (hm : d.Meets C) : (mgtBlock port b d).Meets C := by
  unfold mgtBlock
  extract_lets +onlyGivenNames d₁
  have h₁ : d₁.Meets C := oweBack_meets _ _ _ _ hm
  exact meets_ite (linkViolation_meets _ _ _ _ h₁) (meets_ite h₁ (count_meets _ _ _ _ _ h₁))

theorem takeData_meets {C : Claim} (port : Nat) (b : Block) (d : Dev) (hm : d.Meets C) : (takeData port b d).Meets C := by
  unfold takeData
  extract_lets +onlyGivenNames vc l
  clear_value vc l
  refine meets_ite (linkViolation_meets _ _ _ _ (dropOpen_meets _ _ _ _ hm)) ?_
  extract_lets +onlyGivenNames d₁
  have h₁ : d₁.Meets C := onLink_meets _ _ _ hm
  clear_value d₁
  refine meets_ite (mgtBlock_meets _ _ _ h₁) ?_
  extract_lets +onlyGivenNames opened body
  clear_value opened body
  refine meets_ite (oweBack_meets _ _ _ _ (onLink_meets _ _ _ h₁)) (meets_ite ?_ (meets_ite (linkViolation_meets _ _ _ _ (oweBack_meets _ _ _ _
        (dropOpen_meets _ _ _ _ h₁))) (meets_ite (linkViolation_meets _ _ _ _ (oweBack_meets _ _ _ _ (dropOpen_meets _ _ _ _ h₁))) (meets_ite ?_
        (onLink_meets _ _ _ h₁)))))
  · extract_lets +onlyGivenNames d₂
    have h₂ : d₂.Meets C := linkViolation_meets _ _ _ _ (dropOpen_meets _ _ _ _ h₁)
    exact meets_ite (wholeFrame_meets _ _ _ _ _ h₂) (onLink_meets _ _ _ h₂)
  · extract_lets +onlyGivenNames n
    exact wholeFrame_meets _ _ _ _ _ (onLink_meets _ _ _ h₁)

theorem rxBlock_meets {C : Claim} (port : Nat) (b : Block) (f : Dev → Dev) (hf : ∀ a₀, a₀.Meets C → (f a₀).Meets C) (d : Dev)
    (hC : C.Wide) (hm : d.Meets C) : (rxBlock port b f d).Meets C := by
  unfold rxBlock
  extract_lets +onlyGivenNames p
  clear_value p
  refine meets_ite hm (meets_ite (askReplay_meets _ _ (badBlock_meets _ _ _ hm)) ?_)
  extract_lets +onlyGivenNames data
  refine meets_ite (askReplay_meets _ _ (badBlock_meets _ _ _ hm)) ?_
  extract_lets +onlyGivenNames d₁
  have h₁ : d₁.Meets C := meets_ite (onLink_meets _ _ _ hm) hm
  clear_value d₁
  refine meets_ite ?_ (hf _ (linkCredits_meets _ _ _ _ (linkAck_meets _ _ _ hC h₁)))
  extract_lets +onlyGivenNames vc d₂
  have h₂ : d₂.Meets C := linkViolation_meets _ _ _ _ h₁
  clear_value vc d₂
  refine meets_ite ?_ h₂
  extract_lets +onlyGivenNames d₃
  have h₃ : d₃.Meets C := onLink_meets _ _ _ h₂
  exact oweBack_meets _ _ _ _ (dropOpen_meets _ _ _ _ h₃)

theorem devData_meets {C : Claim} (port : Nat) (b : Block) (d : Dev) (hC : C.Wide) (hm : d.Meets C) : (devData port b d).Meets C := by
  unfold devData
  exact rxBlock_meets _ _ _ (fun _ h₁ => meets_ite (takeData_meets _ _ _ h₁) h₁) _ hC hm

theorem devIdle_meets {C : Claim} (port : Nat) (b : Block) (d : Dev) (hC : C.Wide) (hm : d.Meets C) : (devIdle port b d).Meets C := by
  unfold devIdle
  exact rxBlock_meets _ _ _ (fun _ h₁ => h₁) _ hC hm

theorem replayFrom_meets {C : Claim} (port : Nat) (seq : Nat) (d : Dev) (hm : d.Meets C) : (replayFrom port seq d).Meets C := by
  unfold replayFrom
  extract_lets +onlyGivenNames l i
  clear_value l i
  refine meets_ite (replayRetrain_meets _ _ (logLink_meets _ _ _ (count_meets _ _ _ _ _ hm))) ?_
  extract_lets +onlyGivenNames n
  clear_value n
  refine meets_ite (replayRetrain_meets _ _ hm) ?_
  extract_lets +onlyGivenNames d₁ d₂
  have h₁ : d₁.Meets C := onLink_meets _ _ _ hm
  have h₂ : d₂.Meets C := count_meets _ _ _ _ _ (Dev.onPort_meets _ _ _ h₁)
  clear_value d₁ d₂
  refine foldl_meets h₂ (fun _ _ h₄ => ?_)
  split
  · exact emit_meets _ _ h₄

theorem devReplayReq_meets {C : Claim} (port : Nat) (b : Block) (d : Dev) (hC : C.Wide) (hm : d.Meets C) : (devReplayReq port b d).Meets C := by
  unfold devReplayReq
  exact rxBlock_meets _ _ _ (fun _ h₁ => meets_ite (replayFrom_meets _ _ _ h₁) h₁) _ hC hm

theorem devReplayReqTimer_meets {C : Claim} (port : Nat) (d : Dev) (hm : d.Meets C) : (devReplayReqTimer port d).Meets C := by
  unfold devReplayReqTimer
  exact onLink_meets _ _ _ hm

theorem devRetrainTimeout_meets {C : Claim} (port : Nat) (d : Dev) (hC : C.Wide) (hm : d.Meets C) : (devRetrainTimeout port d).Meets C := by
  unfold devRetrainTimeout
  extract_lets +onlyGivenNames p
  exact meets_ite (portDown_meets _ _ hC hm) hm

theorem subTrained_meets {C : Claim} (port : Nat) (lanes : BitVec 8) (d : Dev)
    (hC : C.Wide) (hm : d.Meets C) : (subTrained port lanes d).Meets C := by
  unfold subTrained
  extract_lets +onlyGivenNames p new
  clear_value p new
  refine meets_ite hm ?_
  extract_lets +onlyGivenNames d₁
  have h₁ : d₁.Meets C := Dev.onPort_meets _ _ _ hm
  clear_value d₁
  split
  · exact answerIf_meets _ _ _ _ _ hC h₁
  · exact h₁

theorem devTrainingDone_meets {C : Claim} (port : Nat) (lanes : BitVec 8) (d : Dev)
    (hC : C.Wide) (hm : d.Meets C) : (devTrainingDone port lanes d).Meets C := by
  unfold devTrainingDone
  extract_lets +onlyGivenNames p
  clear_value p
  refine meets_ite (subTrained_meets _ _ _ hC hm) (meets_ite hm (meets_ite hm ?_))
  extract_lets +onlyGivenNames d₁
  have h₁ : d₁.Meets C := Dev.onPwr_wide hC hm rfl rfl rfl rfl rfl
  clear_value d₁
  refine meets_ite (stepAgain_meets _ _ hC (Dev.onPort_meets _ _ _ h₁)) (meets_ite ?_ ?_)
  · extract_lets +onlyGivenNames d₂
    have h₂ : d₂.Meets C := Dev.onPort_meets _ _ _ h₁
    exact sendMgt_meets _ _ _ h₂
  · extract_lets +onlyGivenNames act split d₃
    have h₃ : d₃.Meets C := Dev.onPort_meets _ _ _ h₁
    exact meets_ite (holdPort_meets _ _ _ hC h₃) (meets_ite (Dev.onPort_meets _ _ _ h₃) (portUpNow_meets _ _ hC h₃))

theorem devTrainingTimeout_meets {C : Claim} (port : Nat) (d : Dev) (hm : d.Meets C) : (devTrainingTimeout port d).Meets C := by
  unfold devTrainingTimeout
  extract_lets +onlyGivenNames p
  exact meets_ite (Dev.onPort_meets _ _ _ hm) hm

theorem devIdent_meets {C : Claim} (port : Nat) (msg : Bytes) (d : Dev) (hC : C.Wide) (hm : d.Meets C) : (devIdent port msg d).Meets C := by
  unfold devIdent
  extract_lets +onlyGivenNames p
  clear_value p
  refine meets_ite hm ?_
  extract_lets +onlyGivenNames d₁ bad
  have h₁ : d₁.Meets C := Dev.onPort_meets _ _ _ hm
  clear_value d₁ bad
  split
  · exact meets_ite (stepAgain_meets _ _ hC (portUpNow_meets _ _ hC h₁)) (holdPort_meets _ _ _ hC h₁)
  · exact h₁
  · extract_lets +onlyGivenNames d₂
    have h₂ : d₂.Meets C := meets_ite h₁ (sendMgt_meets _ _ _ h₁)
    clear_value d₂
    refine meets_ite (Dev.onPort_meets _ _ _ h₂) ?_
    extract_lets +onlyGivenNames d₃
    have h₃ : d₃.Meets C := count_meets _ _ _ _ _ (Dev.onPort_meets _ _ _ h₂)
    exact holdWhenDrained_meets _ _ hC (logIt_meets _ _ _ _ _ _ h₃)

theorem devIdentTimeout_meets {C : Claim} (port : Nat) (d : Dev) (hC : C.Wide) (hm : d.Meets C) : (devIdentTimeout port d).Meets C := by
  unfold devIdentTimeout
  extract_lets +onlyGivenNames p
  exact meets_ite (trainAfresh_meets _ _ hC hm) hm

theorem devLldpdu_meets {C : Claim} (port : Nat) (chassis : Bytes) (portId : Bytes) (d : Dev)
    (hC : C.Wide) (hm : d.Meets C) : (devLldpdu port chassis portId d).Meets C := by
  unfold devLldpdu
  refine meets_ite (count_meets _ _ _ _ _ hm) ?_
  extract_lets +onlyGivenNames d₁ p
  have h₁ : d₁.Meets C := Dev.onPort_meets _ _ _ hm
  exact meets_ite h₁ (meets_ite (portUpNow_meets _ _ hC h₁) (holdPort_meets _ _ _ hC h₁))

theorem devLldpTimeout_meets {C : Claim} (port : Nat) (d : Dev) (hC : C.Wide) (hm : d.Meets C) : (devLldpTimeout port d).Meets C := by
  unfold devLldpTimeout
  extract_lets +onlyGivenNames p
  exact meets_ite (holdPort_meets _ _ _ hC hm) hm

theorem devLossOfSignal_meets {C : Claim} (port : Nat) (d : Dev) (hC : C.Wide) (hm : d.Meets C) : (devLossOfSignal port d).Meets C := by
  unfold devLossOfSignal
  exact meets_ite (portDown_meets _ _ hC hm) hm

theorem ethLane_meets {C : Claim} (port : Nat) (lane : Nat) (d : Dev) (hC : C.Wide) (hm : d.Meets C) : (ethLane port lane d).Meets C := by
  unfold ethLane
  extract_lets +onlyGivenNames p
  clear_value p
  refine meets_ite ?_ (meets_ite (meets_ite (portDown_meets _ _ hC hm) hm) (fallBack_meets _ _ (portDown_meets _ _ hC hm)))
  extract_lets +onlyGivenNames d₁ p₂
  have h₁ : d₁.Meets C := Dev.onPort_meets _ _ _ hm
  exact meets_ite h₁ (portDown_meets _ _ hC h₁)

theorem devLaneUnhealthy_meets {C : Claim} (port : Nat) (lane : Nat) (d : Dev)
    (hC : C.Wide) (hm : d.Meets C) : (devLaneUnhealthy port lane d).Meets C := by
  unfold devLaneUnhealthy
  extract_lets +onlyGivenNames d₁ p
  have h₁ : d₁.Meets C := Dev.onPort_meets _ _ _ hm
  clear_value d₁ p
  refine meets_ite h₁ (meets_ite (ethLane_meets _ _ _ hC h₁) (meets_ite h₁ (meets_ite (portDown_meets _ _ hC h₁) ?_)))
  split
  · exact startStep_meets _ _ _ h₁
  · exact meets_ite (startStep_meets _ _ _ h₁) h₁

theorem devLaneStepUp_meets {C : Claim} (port : Nat) (lane : Nat) (d : Dev) (hC : C.Wide) (hm : d.Meets C) : (devLaneStepUp port lane d).Meets C := by
  unfold devLaneStepUp
  extract_lets +onlyGivenNames d₁
  have h₁ : d₁.Meets C := Dev.onPort_meets _ _ _ hm
  exact stepAgain_meets _ _ hC h₁

theorem devLaneState_meets {C : Claim} (port : Nat) (mask : BitVec 8) (d : Dev)
    (hC : C.Wide) (hm : d.Meets C) : (devLaneState port mask d).Meets C := by
  unfold devLaneState
  extract_lets +onlyGivenNames p
  clear_value p
  refine meets_ite hm ?_
  extract_lets +onlyGivenNames d₁ m
  have h₁ : d₁.Meets C := by
    dsimp -zeta -iota -proj only [d₁]
    split
    · exact startStep_meets _ _ _ hm
    · exact meets_ite (startStep_meets _ _ _ hm) hm
  exact meets_ite (portDown_meets _ _ hC h₁) (sendWidthReq_meets _ _ _ (Dev.onPort_meets _ _ _ h₁))

theorem devWidthReq_meets {C : Claim} (port : Nat) (mask : BitVec 8) (width : Nat) (d : Dev)
    (hC : C.Wide) (hm : d.Meets C) : (devWidthReq port mask width d).Meets C := by
  unfold devWidthReq
  extract_lets +onlyGivenNames p
  clear_value p
  refine meets_ite hm ?_
  extract_lets +onlyGivenNames d₁
  have h₁ : d₁.Meets C := meets_ite hm (Dev.onPort_meets _ _ _ hm)
  clear_value d₁
  split
  · exact h₁
  · refine meets_ite ?_ (meets_ite h₁ ?_)
    · extract_lets +onlyGivenNames m
      clear_value m
      refine meets_ite (portDown_meets _ _ hC h₁) ?_
      extract_lets +onlyGivenNames d₂
      have h₂ : d₂.Meets C := Dev.onPort_meets _ _ _ h₁
      exact meets_ite (sendWidthReq_meets _ _ _ h₂) h₂
    · extract_lets +onlyGivenNames d₃ d₄
      have h₃ : d₃.Meets C := sendMgt_meets _ _ _ h₁
      have h₄ : d₄.Meets C := Dev.onPort_meets _ _ _ h₃
      exact finishStep_meets _ _ hC (meets_ite h₄ (sendWidthReq_meets _ _ _ h₄))

theorem devWidthAck_meets {C : Claim} (port : Nat) (mask : BitVec 8) (width : Nat) (d : Dev)
    (hC : C.Wide) (hm : d.Meets C) : (devWidthAck port mask width d).Meets C := by
  unfold devWidthAck
  extract_lets +onlyGivenNames p
  clear_value p
  split
  · exact hm
  · exact meets_ite hm (finishStep_meets _ _ hC (Dev.onPort_meets _ _ _ hm))

theorem devLaneRecal_meets {C : Claim} (c : CmdSlot) (d : Dev) (hC : C.Wide) (hm : d.Meets C) : (devLaneRecal c d).Meets C := by
  unfold devLaneRecal
  refine runChk_meets _ _ _ _ (fun _ _ h => ?_) _ hC hm
  extract_lets +onlyGivenNames port lane np
  refine meets_ite (finish_meets _ _ _ hC h) (meets_ite (finishAt_meets _ _ _ _ hC h) (meets_ite ?_ ?_))
  · extract_lets +onlyGivenNames active
    refine meets_ite (finish_meets _ _ _ hC h) ?_
    extract_lets +onlyGivenNames d₁ d₂
    have h₂ : d₂.Meets C := Dev.onPort_meets _ _ _ (leave_meets _ _ _ hC h)
    exact meets_ite (startStep_meets _ _ _ h₂) h₂
  · extract_lets d₁ d₂ d₃
    have h₁ : d₁.Meets C := leave_meets _ _ _ hC h
    have h₂ : d₂.Meets C := Dev.onPort_meets _ _ _ h₁
    exact Dev.onPort_meets _ _ _ (meets_ite (meets_ite h₂ (portDown_meets _ _ hC h₂)) (portDown_meets _ _ hC h₁))

theorem devLaneRecalDone_meets {C : Claim} (port : Nat) (ok : Bool) (d : Dev)
    (hC : C.Wide) (hm : d.Meets C) : (devLaneRecalDone port ok d).Meets C := by
  unfold devLaneRecalDone
  extract_lets +onlyGivenNames p
  clear_value p
  split
  · exact hm
  · exact meets_ite (Dev.onPort_meets _ _ _ hm) (recalEnd_meets _ _ _ _ _ hC hm)

theorem devLinkControl_meets {C : Claim} (c : CmdSlot) (d : Dev) (hC : C.Wide) (hm : d.Meets C) : (devLinkControl c d).Meets C := by
  unfold devLinkControl
  refine runChk_meets _ _ _ _ (fun _ _ h₁ => ?_) _ hC hm
  extract_lets +onlyGivenNames port a np
  clear_value port a np
  refine meets_ite (finish_meets _ _ _ hC h₁) (meets_ite (finish_meets _ _ _ hC h₁) (meets_ite (meets_ite ?_ (finish_meets _ _ _ hC
        (Dev.onPort_meets _ _ _ (portDown_meets _ _ hC h₁)))) (meets_ite (finish_meets _ _ _ hC (Dev.onPort_meets _ _ _ h₁)) (meets_ite
        (finish_meets _ _ _ hC (Dev.onPort_meets _ _ _ (trainAfresh_meets _ _ hC h₁))) ?_))))
  · extract_lets +onlyGivenNames d₂
    have h₂ : d₂.Meets C := Dev.onPort_meets _ _ _ (leave_meets _ _ _ hC h₁)
    exact downPaths_meets _ _ (resendPort_meets _ _ h₂)
  · extract_lets +onlyGivenNames d₃ np₄
    have h₃ : d₃.Meets C := Dev.onPort_meets _ _ _ h₁
    exact meets_ite (finish_meets _ _ _ hC h₃) (meets_ite (startStep_meets _ _ _ (leave_meets _ _ _ hC h₃)) (meets_ite (Dev.onPort_meets _ _ _
          (leave_meets _ _ _ hC h₃)) (finish_meets _ _ _ hC h₃)))

theorem devAdminDownDrainEnd_meets {C : Claim} (port : Nat) (d : Dev) (hC : C.Wide) (hm : d.Meets C) : (devAdminDownDrainEnd port d).Meets C := by
  unfold devAdminDownDrainEnd
  exact meets_ite (portDown_meets _ _ hC hm) hm

theorem devEthFecUncorrectableRetrain_meets {C : Claim} (port : Nat) (worstLane : Nat) (d : Dev)
    (hC : C.Wide) (hm : d.Meets C) : (devEthFecUncorrectableRetrain port worstLane d).Meets C := by
  unfold devEthFecUncorrectableRetrain
  extract_lets +onlyGivenNames p
  clear_value p
  refine meets_ite hm ?_
  extract_lets +onlyGivenNames again d₁
  have h₁ : d₁.Meets C := logLink_meets _ _ _ (count_meets _ _ _ _ _ (Dev.onPort_meets _ _ _ hm))
  exact meets_ite (devLaneUnhealthy_meets _ _ _ hC h₁) (trainAfresh_meets _ _ hC h₁)

theorem devSleepIdleTimer_meets {C : Claim} (port : Nat) (d : Dev) (hm : d.Meets C) : (devSleepIdleTimer port d).Meets C := by
  unfold devSleepIdleTimer
  extract_lets +onlyGivenNames p
  exact meets_ite (sendMgt_meets _ _ _ (Dev.onPort_meets _ _ _ hm)) hm

theorem devSleepReq_meets {C : Claim} (port : Nat) (d : Dev) (hm : d.Meets C) : (devSleepReq port d).Meets C := by
  unfold devSleepReq
  extract_lets +onlyGivenNames p
  exact meets_ite (sendMgt_meets _ _ _ (Dev.onPort_meets _ _ _ hm)) hm

theorem devSleepAck_meets {C : Claim} (port : Nat) (d : Dev) (hm : d.Meets C) : (devSleepAck port d).Meets C := by
  unfold devSleepAck
  extract_lets +onlyGivenNames p
  exact meets_ite (sleepWhenDrained_meets _ _ (Dev.onPort_meets _ _ _ hm)) hm

theorem devLinkWake_meets {C : Claim} (port : Nat) (d : Dev) (hC : C.Wide) (hm : d.Meets C) : (devLinkWake port d).Meets C := by
  unfold devLinkWake
  exact stepAgain_meets _ _ hC (Dev.onPort_meets _ _ _ hm)

theorem devFrameForward_meets {C : Claim} (port : Nat) (d : Dev) (hm : d.Meets C) : (devFrameForward port d).Meets C := by
  unfold devFrameForward
  extract_lets +onlyGivenNames p heads go
  clear_value p heads
  split
  · exact hm
  · extract_lets +onlyGivenNames n d₁ d₂ f
    have h₁ : d₁.Meets C := oweBack_meets _ _ _ _ (onLink_meets _ _ _ hm)
    have h₂ : d₂.Meets C := onLink_meets _ _ _ h₁
    exact count_meets _ _ _ _ _ (Dev.onPort_meets _ _ _ h₂)

theorem devNodeTableWrite_meets {C : Claim} (c : CmdSlot) (d : Dev) (hC : C.Wide) (hm : d.Meets C) : (devNodeTableWrite c d).Meets C := by
  unfold devNodeTableWrite
  refine runChk_meets _ _ _ _ (fun _ _ h₁ => ?_) _ hC hm
  extract_lets +onlyGivenNames es
  exact replFinish_meets _ _ _ _ _ _ hC (Dev.onNet_meets h₁)

end Sys2Proof.Machine
end

section
/-! SUPPORT. Claims that operations keep: records, power steps and ropes. -/

namespace Sys2Proof.Machine

/-! ### Operations of ServiceOps -/

theorem applyEntry_meets {C : Claim} (port : Nat) (e : PortEntry) (nodeNew : Bool) (d : Dev)
    (hC : C.Wide) (hm : d.Meets C) : (applyEntry port e nodeNew d).Meets C := by
  unfold applyEntry
  extract_lets +onlyGivenNames p c old afresh
  have h₃ : ∀ a₁, Dev.Meets C a₁ → Dev.Meets C (afresh a₁) := fun _ h₂ => Dev.onPort_meets _ _ _ h₂
  clear_value p c old afresh
  refine meets_ite ?_ (meets_ite hm ?_)
  · extract_lets +onlyGivenNames d₄ keep
    have h₄ : d₄.Meets C := portDown_meets _ _ hC hm
    exact h₃ _ (Dev.onPort_meets _ _ _ h₄)
  · extract_lets +onlyGivenNames d₅
    have h₅ : d₅.Meets C := Dev.onPort_meets _ _ _ hm
    clear_value d₅
    split
    · exact h₃ _ (portDown_meets _ _ hC h₅)
    · exact sendMgt_meets _ _ _ (Dev.onPort_meets _ _ _ h₅)
    · exact sendMgt_meets _ _ _ (Dev.onPort_meets _ _ _ h₅)
    · exact sendMgt_meets _ _ _ (Dev.onPort_meets _ _ _ h₅)
    · exact sendMgt_meets _ _ _ (Dev.onPort_meets _ _ _ h₅)
    · exact meets_ite (sendMgt_meets _ _ _ (Dev.onPort_meets _ _ _ h₅)) h₅
    · exact h₅

theorem hostWidth_meets {C : Claim} (p : Side) (w : Nat) (d : Dev) (hC : C.Inv) (hm : d.Meets C) : (hostWidth p w d).Meets C := by
  unfold hostWidth
  extract_lets +onlyGivenNames x below d₁
  have h₁ : d₁.Meets C := Dev.onHost_inv hC hm
  exact meets_ite (logIt_meets _ _ _ _ _ _ h₁) h₁

/-! ### Operations of Ops -/

theorem Dev.onPwr_bounded {c : Claim} {d : Dev} {f : Pwr → Pwr} (hi : c.Inv) (h : d.Meets c) (hf : d.LimitsOk → (d.onPwr f).LimitsOk) :
    (d.onPwr f).Meets c := by
  cases c with
  | memory => exact h
  | limits => exact hf h
  | lead => exact h
  | _ => exact (hi.elim id nofun).elim

/-! ### Operations of PowerOps -/

theorem limitCap_le (d : Dev) : limitCap d ≤ 3000 := by
  have hstage : stageCap d ≤ 3000 := by
    unfold stageCap
    split <;> omega
  unfold limitCap
  split
  · exact (Nat.min_le_right _ _).trans hstage
  · exact (Nat.min_le_right _ _).trans hstage

theorem limitNow_le (d : Dev) : limitNow d ≤ 3000 := by
  unfold limitNow
  split
  · exact (Nat.min_le_right _ _).trans (limitCap_le d)
  · exact limitCap_le d

/-! ### Operations of ServiceOps -/

theorem applyRecord_meets {C : Claim} (b : Bytes) (d : Dev) (hC : C.Inv) (hm : d.Meets C) : (applyRecord b d).Meets C := by
  unfold applyRecord
  extract_lets +onlyGivenNames body node nodeNew d₁ d₂ d₃
  have h₁ : d₁.Meets C := Dev.onNet_meets hm
  have h₂ : d₂.Meets C := Dev.onPwr_bounded hC h₁ fun ⟨hl, _, ht⟩ => ⟨hl, nofun, ht⟩
  have h₃ : d₃.Meets C := hostWidth_meets _ _ _ hC (hostWidth_meets _ _ _ hC h₂)
  exact foldl_meets h₃ fun _ _ h => applyEntry_meets _ _ _ _ hC.wide h

theorem restartFlow_meets {C : Claim} (tiles : List Nat) (d : Dev) (hm : d.Meets C) : (restartFlow tiles d).Meets C := by
  unfold restartFlow
  extract_lets +onlyGivenNames here d₁ each d₂
  have h₁ : d₁.Meets C := Dev.onQ_meets hm
  have h₂ : d₂.Meets C := Dev.onNet_meets h₁
  exact Dev.onRopes_meets h₂

/-! ### Operations of PowerOps -/

theorem needHasp_meets {C : Claim} (p : Side) (n : Nat) (off : Nat) (f : Dev → Dev) (hf : ∀ a₀, a₀.Meets C → (f a₀).Meets C) (d : Dev)
    (hm : d.Meets C) : (needHasp p n off f d).Meets C := by
  unfold needHasp
  exact meets_ite (hf _ hm) (logFirst60_meets _ _ _ _ _ _ _ (haspMisuse_meets _ _ hm))

theorem powerLoss_meets {C : Claim} (d : Dev) (hC : C.Inv) (hm : d.Meets C) : (powerLoss d).Meets C := by
  cases C with
  | memory => rfl
  | limits => exact ⟨show 1000 ≤ 3000 by omega, nofun, Nat.zero_le _⟩
  | lead => exact ⟨rfl, fun k hk => (by cases k <;> cases hk), fun _ => nofun⟩
  | _ => exact (hC.elim id nofun).elim

theorem setRails_meets {C : Claim} (r : Rails) (d : Dev) (hC : C.Inv) (hm : d.Meets C) : (setRails r d).Meets C := by
  unfold setRails
  exact Dev.onPwr_inv hC hm rfl rfl rfl

theorem powerOff_meets {C : Claim} (d : Dev) (hC : C.Inv) (hm : d.Meets C) : (powerOff d).Meets C := by
  unfold powerOff
  split
  · exact hm
  · exact hm
  · exact hm
  · exact powerLoss_meets _ hC hm

theorem copyAll_meets {C : Claim} (d : Dev) (hm : d.Meets C) : (copyAll d).Meets C := by
  unfold copyAll
  exact foldl_meets hm (fun _ _ h₁ => copyTables_meets _ _ h₁)

theorem trainStack_meets {C : Claim} (k : Nat) (ok : Bool) (d : Dev) (hm : d.Meets C) : (trainStack k ok d).Meets C := by
  unfold trainStack
  exact meets_ite (Dev.onStk_meets _ _ _ hm) (logIt_meets _ _ _ _ _ _ (Dev.onStk_meets _ _ _ hm))

theorem absentRecords_meets {C : Claim} (l : List Nat) (d : Dev) (hm : d.Meets C) : (absentRecords l d).Meets C := by
  unfold absentRecords
  extract_lets +onlyGivenNames d₁
  have h₁ : d₁.Meets C := Dev.onSvc_meets hm rfl
  exact meets_ite (Dev.onMem_meets h₁ rfl) h₁

theorem diesStart_meets {C : Claim} (e : PowerOnEnv) (d : Dev) (hC : C.Plain) (hm : d.Meets C) : (diesStart e d).Meets C := by
  unfold diesStart
  extract_lets +onlyGivenNames w x d₁
  have hlead (s : Side) : (acquireLead s d).Meets C := acquireLead_meets _ _ hC.inv hC.not_lead hm
  have h₁ : d₁.Meets C := meets_ite (hlead _) (meets_ite (hlead _) hm)
  exact meets_ite (Dev.onCtl_plain hC h₁) h₁

theorem bootLogs_meets {C : Claim} (bad : List Nat) (rej : Option (Side × Nat × Nat)) (d : Dev) (hm : d.Meets C) : (bootLogs bad rej d).Meets C := by
  unfold bootLogs
  extract_lets +onlyGivenNames d₁
  have h₁ : d₁.Meets C := foldl_meets hm (fun _ _ h₂ => logIt_meets _ _ _ _ _ _ h₂)
  clear_value d₁
  split
  · exact logIt_meets _ _ _ _ _ _ h₁
  · exact h₁

theorem powerUp_meets {C : Claim} (e : PowerOnEnv) (bank : Side) (bad : List Nat) (rej : Option (Side × Nat × Nat)) (d : Dev) (hC : C.Plain)
    (hm : d.Meets C) : (powerUp e bank bad rej d).Meets C := by
  unfold powerUp
  extract_lets +onlyGivenNames d₁ d₂ d₃ d₄ d₅
  have h₁ : d₁.Meets C := Dev.onPwr_inv hC.inv hm rfl rfl rfl
  have h₂ : d₂.Meets C := Dev.onSvc_inv hC.inv h₁
  have h₃ : d₃.Meets C := bootLogs_meets _ _ _ (diesStart_meets _ _ hC h₂)
  have h₄ : d₄.Meets C := foldl_meets h₃ fun _ _ h => trainStack_meets _ _ _ h
  clear_value d₄
  have h₅ : d₅.Meets C := by
    dsimp -zeta only [d₅]
    split
    · exact meets_ite (applyRecord_meets _ _ hC.inv h₄) (Dev.onSvc_inv hC.inv h₄)
    · exact h₄
  exact Dev.onPwr_bounded hC.inv (copyAll_meets _ h₅) fun ⟨_, hs, ht⟩ => ⟨limitNow_le _, hs, ht⟩

theorem bootHalted_meets {C : Claim} (e : PowerOnEnv) (alert : Bool) (d : Dev) (hC : C.Inv) (hm : d.Meets C) : (bootHalted e alert d).Meets C := by
  unfold bootHalted
  extract_lets +onlyGivenNames d₁
  have h₁ : d₁.Meets C := Dev.onPwr_inv hC hm rfl rfl rfl
  exact meets_ite (raiseAlert_meets _ _ h₁) h₁

theorem resetPort_meets {C : Claim} (warm : Bool) (k : Nat) (d : Dev) (hC : C.Wide) (hm : d.Meets C) : (resetPort warm k d).Meets C := by
  unfold resetPort
  extract_lets +onlyGivenNames d₁ d₂
  have h₁ : d₁.Meets C := portDown_meets _ _ hC hm
  have h₂ : d₂.Meets C := Dev.onPort_meets _ _ _ h₁
  exact Dev.onPort_meets _ _ _ h₂

theorem resetStack_meets {C : Claim} (k : Nat) (d : Dev) (hm : d.Meets C) : (resetStack k d).Meets C := by
  unfold resetStack
  exact Dev.onStk_meets _ _ _ hm

theorem freshStkEng_meets {C : Claim} (warm : Bool) (k : Nat) (d : Dev) (hm : d.Meets C) : (freshStkEng warm k d).Meets C := by
  unfold freshStkEng
  exact Dev.onStkEng_meets _ _ _ hm

theorem resetTile_meets {C : Claim} (t : Nat) (d : Dev) (hC : C.Wide) (hm : d.Meets C) : (resetTile t d).Meets C := by
  unfold resetTile
  extract_lets +onlyGivenNames d₁ d₂ d₃ d₄ d₅
  have h₁ : d₁.Meets C := dropWaiters_meets _ _ hm
  have h₂ : d₂.Meets C := Dev.onCiph_wide hC (Dev.onTile_meets _ _ _ h₁)
  have h₃ : d₃.Meets C := Dev.onXlt_meets h₂
  have h₄ : d₄.Meets C := foldl_meets h₃ (fun _ _ h₆ => ackTile_meets _ _ _ hC h₆)
  have h₅ : d₅.Meets C := windowsEnd_meets _ hC (replForget_meets _ _ hC (copyTables_meets _ _ h₄))
  exact Dev.onRopes_meets (Dev.onQ_meets h₅)

theorem flushOther_meets {C : Claim} (h : Side) (d : Dev) (hC : C.Wide) (hm : d.Meets C) : (flushOther h d).Meets C := by
  unfold flushOther
  extract_lets +onlyGivenNames ops d₁ xs d₂ rs
  have h₁ : d₁.Meets C := foldl_meets hm (fun _ _ h₃ => opFail_meets _ _ _ _ hC h₃)
  clear_value ops d₁ xs
  have h₂ : d₂.Meets C := by
    dsimp -zeta -iota -proj only [d₂]
    refine foldl_meets h₁ (fun _ _ h₅ => ?_)
    split
    · exact endBad_meets _ _ _ _ _ (Dev.onQ_meets h₅)
  clear_value d₂ rs
  refine foldl_meets h₂ (fun _ _ h₇ => ?_)
  split
  · exact hostWorkFail_meets _ _ _ _ (takeReq_meets _ _ h₇)

theorem resetObjects_meets {C : Claim} (t : Nat) (d : Dev) (hm : d.Meets C) : (resetObjects t d).Meets C := by
  unfold resetObjects
  extract_lets +onlyGivenNames qs cs d₁ d₂ d₃
  clear_value qs cs
  have h₁ : d₁.Meets C := by
    dsimp -zeta -iota -proj only [d₁]
    refine foldl_meets hm (fun _ _ h₅ => ?_)
    split
    · exact resetQp_meets _ _ h₅
  clear_value d₁
  have h₂ : d₂.Meets C := by
    dsimp -zeta -iota -proj only [d₂]
    refine foldl_meets h₁ (fun _ _ h₇ => ?_)
    split
    · exact Dev.onCq_meets _ _ _ h₇
  have h₃ : d₃.Meets C := Dev.onQ_meets h₂
  clear_value d₂ d₃
  refine foldl_meets h₃ (fun _ _ h₉ => ?_)
  extract_lets +onlyGivenNames a b
  exact meets_ite h₉ (postEvent_meets _ _ _ _ _ _ h₉)

theorem resetRopes_meets {C : Claim} (t : Nat) (d : Dev) (hm : d.Meets C) : (resetRopes t d).Meets C := by
  unfold resetRopes
  refine foldl_meets hm (fun _ _ h₁ => ?_)
  split
  · exact Dev.onRope_meets _ _ _ (ropeAbortLocal_meets _ _ _ h₁)

theorem halfReset_meets {C : Claim} (h : Side) (d : Dev) (hC : C.Inv) (hm : d.Meets C) : (halfReset h d).Meets C := by
  unfold halfReset
  extract_lets +onlyGivenNames d₁ d₂ d₃ d₄ d₅ d₆ d₇ d₈ d₉ d₁₀ d₁₁ d₁₂
  have h₁ : d₁.Meets C := releaseAll_meets _ _ hC.wide hm
  have h₂ : d₂.Meets C := Dev.onFab_wide hC.wide h₁
  have h₃ : d₃.Meets C := flushOther_meets _ _ hC.wide h₂
  have h₄ : d₄.Meets C := foldl_meets h₃ (fun _ _ h₁₃ => resetRopes_meets _ _ h₁₃)
  have h₅ : d₅.Meets C := foldl_meets h₄ (fun _ _ h₁₄ => resetObjects_meets _ _ h₁₄)
  have h₆ : d₆.Meets C := foldl_meets h₅ (fun _ _ h₁₅ => freshStkEng_meets _ _ _ (resetStack_meets _ _ h₁₅))
  have h₇ : d₇.Meets C := epochCast_meets _ (foldl_meets h₆ (fun _ _ h₁₆ => resetTile_meets _ _ hC.wide h₁₆))
  have h₈ : d₈.Meets C := foldl_meets h₇ (fun _ _ h₁₇ => resetPort_meets _ _ _ hC.wide h₁₇)
  have h₉ : d₉.Meets C := restartFlow_meets _ _ h₈
  have h₁₀ : d₁₀.Meets C := Dev.onCtl_inv hC h₉ rfl fun _ => upd_leader fun x => by cases x <;> decide
  have h₁₁ : d₁₁.Meets C := Dev.onSvc_inv hC h₁₀
  have h₁₂ : d₁₂.Meets C := Dev.onPwr_inv hC h₁₁ rfl rfl rfl
  exact logIt_meets _ _ _ _ _ _ h₁₂

theorem dropCommands_meets {C : Claim} (d : Dev) (hC : C.Inv) (hm : d.Meets C) : (dropCommands d).Meets C := by
  unfold dropCommands
  extract_lets +onlyGivenNames d₁
  have h₁ : d₁.Meets C := by
    dsimp -zeta -iota -proj only [d₁]
    refine foldl_meets hm (fun _ _ h₃ => ?_)
    split
    · exact undoCreation_meets _ _ hC.wide h₃
    · exact h₃
  clear_value d₁
  exact Dev.onCtl_inv hC h₁ rfl fun _ => id

theorem warmTenant_meets {C : Claim} (n : Nat) (d : Dev) (hC : C.Wide) (hm : d.Meets C) : (warmTenant n d).Meets C := by
  unfold warmTenant
  extract_lets +onlyGivenNames d₁ st
  have h₁ : d₁.Meets C := Dev.onTen_meets _ _ _ hm
  exact tenResetSteps_meets _ _ _ _ hC h₁

theorem drainPort_meets {C : Claim} (k : Nat) (d : Dev) (hm : d.Meets C) : (drainPort k d).Meets C := by
  unfold drainPort
  extract_lets +onlyGivenNames n
  exact iter_meets hm (fun _ h₂ => devPortSchedule_meets _ _ h₂)

theorem freeHasps_plain {C : Claim} (d : Dev) (hC : C.Plain) (hm : d.Meets C) : (freeHasps d).Meets C := by
  unfold freeHasps
  extract_lets +onlyGivenNames d₁ l
  have h₁ : d₁.Meets C := Dev.onCtl_plain hC hm
  exact Dev.onCiph_wide hC.inv.wide h₁

/-- A warm reset frees Hasp 0. -/
theorem freeHasps_holder (d : Dev) : ((freeHasps d).hasp 0).holder = none := by
  simp only [freeHasps, Dev.hasp, Dev.onCiph, Dev.onCtl, nth, List.getElem?_map]
  cases d.ctl.hasps[0]? with
  | none => rfl
  | some h =>
    simp only [Option.map_some, Option.getD_some]
    split <;> rfl

/-- What a warm reset makes of a die: it starts again, or stays lost. -/
def dieRestart (x : DieState) : DieState := if x = .lost then .lost else .starting

theorem dieRestart_ne (x : DieState) : dieRestart x ≠ .leader := by cases x <;> decide

/-- After the Hasps are free and the dies start again, leadership is sound and nobody leads. -/
theorem restarted_sound {d : Dev} {f : Ctl → Ctl} (h : d.LeadSound) (hf : ∀ c, (f c).hasps = c.hasps)
    (hnone : ∀ k, (f (freeHasps d).ctl).dies.get k ≠ .leader) : ((freeHasps d).onCtl f).LeadSound := by
  obtain ⟨hlen, -⟩ := h
  have hhasps : ((freeHasps d).onCtl f).ctl.hasps = (freeHasps d).ctl.hasps := hf _
  refine ⟨by rw [hhasps]; exact (List.length_map _).trans hlen, fun k hk => absurd hk (hnone k), fun p => ?_⟩
  rw [Dev.hasp, hhasps]
  exact fun hp => nomatch (freeHasps_holder d).symm.trans hp

theorem warmHost_meets {C : Claim} (p : Side) (d : Dev) (hm : d.Meets C) : (warmHost p d).Meets C := by
  unfold warmHost
  exact aerLog_meets _ _ _ (Dev.onHost_meets hm rfl)

theorem warmReset_meets {C : Claim} (cause : Nat) (d : Dev) (hC : C.Inv) (hm : d.Meets C) : (warmReset cause d).Meets C := by
  unfold warmReset
  extract_lets +onlyGivenNames d₁ d₂ ts d₃ d₄ tombs d₅ d₆ d₇ d₈ d₉ d₁₀ d₁₁ d₁₂ d₁₃ d₁₄ d₁₅ d₁₆ d₁₇ d₁₈ d₁₉ d₂₀ d₂₁ d₂₂ d₂₃
  have h₁ : d₁.Meets C := dropCommands_meets _ hC hm
  have h₂ : d₂.Meets C := meets_ite (latchDrop_meets _ hC.wide h₁) h₁
  clear_value d₂ ts
  have h₃ : d₃.Meets C := foldl_meets h₂ fun _ _ h => warmTenant_meets _ _ hC.wide h
  clear_value d₃
  have h₄ : d₄.Meets C := foldl_meets h₃ fun _ _ h => drainPort_meets _ _ h
  clear_value d₄
  have h₉ : d₉.Meets C := Dev.onXlt_meets (Dev.onEng_meets (Dev.onRopes_meets (Dev.onTens_meets (Dev.onQ_meets h₄))))
  have h₁₀ : d₁₀.Meets C := Dev.onFab_wide hC.wide h₉
  clear_value d₁₀
  have h₁₁ : d₁₁.Meets C := foldl_meets h₁₀ fun _ _ h => resetStack_meets _ _ h
  clear_value d₁₁
  have h₁₂ : d₁₂.Meets C := Dev.onPwr_inv hC h₁₁ rfl rfl rfl
  clear_value d₁₂
  have h₁₃ : d₁₃.Meets C := foldl_meets h₁₂ fun _ _ h => resetPort_meets _ _ _ hC.wide h
  clear_value d₁₃
  have h₁₄ : d₁₄.Meets C := restartFlow_meets _ _ h₁₃
  have h₁₅ : d₁₅.Meets C := warmHost_meets _ _ (warmHost_meets _ _ h₁₄)
  clear_value d₁₅
  have hunled (k : Side) : d₁₉.ctl.dies.get k ≠ .leader := by
    cases k <;> exact dieRestart_ne _
  have h₁₇ : d₁₇.Meets C := .or_lead hC (fun hp => Dev.onCtl_plain hp (freeHasps_plain _ hp h₁₅)) fun hc =>
    restarted_sound (h₁₅.leadSound hc) (fun _ => rfl) hunled
  have h₁₉ : d₁₉.Meets C := Dev.onPwr_inv hC (Dev.onSvc_inv hC h₁₇) rfl rfl rfl
  clear_value d₁₉
  have hlead (s : Side) : (acquireLead s d₁₉).Meets C := acquireLead_meets _ _ hC (fun _ => hunled _) h₁₉
  have h₂₀ : d₂₀.Meets C := meets_ite (meets_ite h₁₉ (hlead _)) (hlead _)
  have h₂₃ : d₂₃.Meets C := logIt_meets _ _ _ _ _ _ (copyAll_meets _ (Dev.onCtl_inv hC h₂₀ rfl fun _ => upd_leader fun x => by cases x <;> decide))
  clear_value d₂₃
  exact foldl_meets h₂₃ fun _ _ h => tenResetTry_meets _ _ hC.wide h

/-! ### Operations of RopeOps -/

theorem ownTake_meets {C : Claim} (slot : Nat) (r : Rope) (c : Call) (w : Nat) (k : Nat) (d : Dev)
    (hm : d.Meets C) : (ownTake slot r c w k d).2.Meets C := by
  unfold ownTake
  split
  · exact hm
  · extract_lets +onlyGivenNames n d₁
    have h₁ : d₁.Meets C := touchRange_meets _ _ _ _ _ _ hm
    clear_value n d₁
    split
    · exact h₁
    · exact Dev.Meets.paired (lookupRange_meets _ _ _ _ _ _ h₁)

theorem ropeFault_meets {C : Claim} (slot : Nat) (r : Rope) (write : Bool) (x : XErr) (d : Dev)
    (hm : d.Meets C) : (ropeFault slot r write x d).Meets C := by
  unfold ropeFault
  split
  · exact stallStream_meets _ _ (.of_pair (by assumption) (stallOn_meets _ _ _ _ _ _ hm))
  · exact ropeAbortLocal_meets _ _ _ (.of_pair (by assumption) (stallOn_meets _ _ _ _ _ _ hm))
  · exact ropeAbortLocal_meets _ _ _ (.of_pair (by assumption) (stallOn_meets _ _ _ _ _ _ hm))

theorem ropeCommit_meets {C : Claim} (slot : Nat) (r : Rope) (c : Call) (check : Bool) (w : Nat) (l : List Nat) (d : Dev)
    (hm : d.Meets C) : (ropeCommit slot r c check w l d).2.Meets C := by
  unfold ropeCommit
  split
  · split
    · exact Dev.Meets.paired (ropeAbortLocal_meets _ _ _ hm)
    · exact hm
  · extract_lets +onlyGivenNames n
    clear_value n
    split
    · exact Dev.Meets.paired (ropeFault_meets _ _ _ _ _ hm)
    · split
      · exact Dev.Meets.paired (ropeAbortLocal_meets _ _ _ hm)
      · split
        · exact Dev.Meets.paired (ropeAbortLocal_meets _ _ _ hm)
        · exact Dev.Meets.paired (writePieces_meets _ _ _ (lookupRange_meets _ _ _ _ _ _ hm))

theorem onCall_meets {C : Claim} (slot : Nat) (f : Call → Call) (d : Dev) (hm : d.Meets C) : (onCall slot f d).Meets C := by
  unfold onCall
  exact Dev.onRope_meets _ _ _ hm

theorem onInput_meets {C : Claim} (slot : Nat) (piece : Nat) (lap : Nat) (f : PieceIn → PieceIn) (d : Dev)
    (hm : d.Meets C) : (onInput slot piece lap f d).Meets C := by
  unfold onInput
  exact onCall_meets _ _ _ hm

theorem onOutput_meets {C : Claim} (slot : Nat) (piece : Nat) (lap : Nat) (f : PieceOut → PieceOut) (d : Dev)
    (hm : d.Meets C) : (onOutput slot piece lap f d).Meets C := by
  unfold onOutput
  exact onCall_meets _ _ _ hm

theorem chunkWork_meets {C : Claim} (slot : Nat) (r : Rope) (c : Call) (i : PieceIn) (k : Chunk) (d : Dev)
    (hm : d.Meets C) : (chunkWork slot r c i k d).Meets C := by
  unfold chunkWork
  extract_lets +onlyGivenNames e n w xs
  clear_value e n w xs
  refine meets_ite ?_ ?_
  · split
    · exact ropeFault_meets _ _ _ _ _ (.of_pair (by assumption) (ownTake_meets _ _ _ _ _ _ hm))
    · exact ropeAbortLocal_meets _ _ _ (.of_pair (by assumption) (ownTake_meets _ _ _ _ _ _ hm))
    · extract_lets +onlyGivenNames cs vs out fl
      clear_value cs vs out fl
      split
      · exact .of_pair (by assumption) (ropeCommit_meets _ _ _ _ _ _ _ (.of_pair (by assumption) (ownTake_meets _ _ _ _ _ _ hm)))
      · extract_lets +onlyGivenNames res
        exact onCall_meets _ _ _ (onInput_meets _ _ _ _ _ (.of_pair (by assumption) (ropeCommit_meets _ _ _ _ _ _ _ (.of_pair (by assumption)
              (ownTake_meets _ _ _ _ _ _ hm)))))
  · split
    · exact .of_pair (by assumption) (ropeCommit_meets _ _ _ _ _ _ _ hm)
    · exact onInput_meets _ _ _ _ _ (.of_pair (by assumption) (ropeCommit_meets _ _ _ _ _ _ _ hm))

theorem pushHop_meets {C : Claim} (slot : Nat) (t : BitVec 8) (piece : Nat) (lap : Nat) (flags : Nat) (hpn : Nat) (off : Nat) (first : Bool)
    (last : Bool) (data : Bytes) (d : Dev) (hm : d.Meets C) : (pushHop slot t piece lap flags hpn off first last data d).Meets C := by
  unfold pushHop
  exact Dev.onRope_meets _ _ _ hm

theorem sendHop_meets {C : Claim} (slot : Nat) (h : HopPkt) (d : Dev) (hm : d.Meets C) : (sendHop slot h d).2.Meets C := by
  unfold sendHop
  split
  · exact hm
  · next r hr =>
    extract_lets
    split
    · exact hm
    · split
      · next he => exact .of_pair he (sendRope_meets _ _ _ _ _ hm)
      · next d₁ he =>
        have h₁ := tenCount_meets r.par.tenant 4 (if h.ptype = 0x20#8 then h.p.payload.length else 0) _ (.of_pair he (sendRope_meets _ _ _ _ _ hm))
        exact Dev.Meets.paired (Dev.onRope_meets _ _ _ (meets_ite (count_meets _ _ _ _ _ h₁) h₁))

theorem flushConfirms_meets {C : Claim} (f slot : Nat) (d : Dev) (hm : d.Meets C) : (flushConfirms f slot d).Meets C := by
  induction f generalizing d with
  | zero => exact hm
  | succ f ih =>
    simp only [flushConfirms]
    split
    · exact hm
    · next h hdue =>
      have hsent := sendHop_meets slot h d hm
      refine meets_ite hm ?_
      split
      · next he => exact ih _ (.of_pair he hsent)
      · next he => exact .of_pair he hsent

theorem sendRopeAck_meets {C : Claim} (slot : Nat) (d : Dev) (hm : d.Meets C) : (sendRopeAck slot d).Meets C := by
  unfold sendRopeAck
  split
  · exact hm
  · split
    · exact hm
    · split
      · extract_lets +onlyGivenNames delay ext d₁
        have h₁ : d₁.Meets C := onCall_meets _ _ _ hm
        exact sendRope_meets _ _ _ _ _ h₁

theorem confirmTo_meets {C : Claim} (slot : Nat) (n : Nat) (d : Dev) (hm : d.Meets C) : (confirmTo slot n d).Meets C := by
  unfold confirmTo
  split
  · exact hm
  · refine meets_ite hm ?_
    extract_lets +onlyGivenNames k d₁ d₂
    have h₁ : d₁.Meets C := pushHop_meets _ _ _ _ _ _ _ _ _ _ _ hm
    have h₂ : d₂.Meets C := onCall_meets _ _ _ h₁
    clear_value k d₁ d₂
    split
    · exact h₂
    · extract_lets +onlyGivenNames d₃
      have h₃ : d₃.Meets C := Dev.onRope_meets _ _ _ h₂
      exact flushConfirms_meets _ _ _ (count_meets _ _ _ _ _ h₃)

theorem finishCall_meets {C : Claim} (slot : Nat) (d : Dev) (hm : d.Meets C) : (finishCall slot d).Meets C := by
  unfold finishCall
  split
  · exact hm
  · split
    · exact hm
    · exact count_meets _ _ _ _ _ (Dev.onRope_meets _ _ _ hm)

theorem ropeTidy_meets {C : Claim} (slot : Nat) (d : Dev) (hm : d.Meets C) : (ropeTidy slot d).Meets C := by
  unfold ropeTidy
  split
  · exact hm
  · split
    · exact hm
    · refine meets_ite hm ?_
      extract_lets outs c ins c₁ free rx c₂ d₁ d₂ d₃ d₄
      have h₁ : d₁.Meets C := Dev.onRope_meets _ _ _ hm
      have h₂ : d₂.Meets C := meets_ite h₁ (count_meets _ _ _ _ _ h₁)
      have h₃ : d₃.Meets C := meets_ite h₂ (sendRopeAck_meets _ _ h₂)
      have h₄ : d₄.Meets C := meets_ite (confirmTo_meets _ _ _ h₃) h₃
      clear_value d₄
      split
      · exact h₄
      · split
        · exact h₄
        · exact meets_ite (finishCall_meets _ _ h₄) h₄

/-! ### Operations of Rope -/

theorem devRopeCreate_meets {C : Claim} (c : CmdSlot) (d : Dev) (hC : C.Wide) (hm : d.Meets C) : (devRopeCreate c d).Meets C := by
  unfold devRopeCreate
  refine runChk_meets _ _ _ _ (fun _ _ h₁ => ?_) _ hC hm
  extract_lets +onlyGivenNames n
  clear_value n
  refine withTenant_meets _ _ _ _ (fun _ _ h₃ => meets_ite (finishAt_meets _ _ _ _ hC h₃) (meets_ite (finishAt_meets _ _ _ _ hC h₃) (meets_ite
        (quotaHit_meets _ _ _ _ hC h₃) (meets_ite (finish_meets _ _ _ hC h₃) ?_)))) _ hC h₁
  extract_lets +onlyGivenNames mark r
  exact finish_meets _ _ _ hC (Dev.onRopes_meets h₃)

theorem aloneCall_meets {C : Claim} (slot : Nat) (r : Rope) (c : Call) (d : Dev) (hm : d.Meets C) : (aloneCall slot r c d).Meets C := by
  unfold aloneCall
  extract_lets +onlyGivenNames e
  clear_value e
  refine meets_ite (finishCall_meets _ _ hm) ?_
  extract_lets +onlyGivenNames k
  clear_value k
  split
  · exact ropeFault_meets _ _ _ _ _ (.of_pair (by assumption) (ownTake_meets _ _ _ _ _ _ hm))
  · exact ropeAbortLocal_meets _ _ _ (.of_pair (by assumption) (ownTake_meets _ _ _ _ _ _ hm))
  · extract_lets +onlyGivenNames cs out
    clear_value cs out
    split
    · exact .of_pair (by assumption) (ropeCommit_meets _ _ _ _ _ _ _ (.of_pair (by assumption) (ownTake_meets _ _ _ _ _ _ hm)))
    · exact finishCall_meets _ _ (onCall_meets _ _ _ (.of_pair (by assumption) (ropeCommit_meets _ _ _ _ _ _ _ (.of_pair (by assumption)
          (ownTake_meets _ _ _ _ _ _ hm)))))

theorem callBegin_meets {C : Claim} (slot : Nat) (n : Nat) (e : Bytes) (d : Dev) (hm : d.Meets C) : (callBegin slot n e d).Meets C := by
  unfold callBegin
  split
  · exact hm
  · extract_lets +onlyGivenNames num c start
    have h₃ : ∀ a₁, Dev.Meets C a₁ → Dev.Meets C (start a₁) := fun _ h₂ => Dev.onRope_meets _ _ _ h₂
    exact meets_ite (meets_ite (Dev.onRope_meets _ _ _ hm) (ropeAbortLocal_meets _ _ _ (h₃ _ hm))) (meets_ite (ropeAbortLocal_meets _ _ _
          (h₃ _ hm)) (meets_ite (ropeAbortLocal_meets _ _ _ (h₃ _ hm)) (meets_ite (meets_ite (aloneCall_meets _ _ _ _ (h₃ _ hm)) (h₃ _ hm))
          (sendRopeAck_meets _ _ (h₃ _ hm)))))

theorem takeCall_meets {C : Claim} (slot : Nat) (r : Rope) (d : Dev) (hm : d.Meets C) : (takeCall slot r d).2.Meets C := by
  unfold takeCall
  extract_lets +onlyGivenNames a d₁
  have h₁ : d₁.Meets C := touchRange_meets _ _ _ _ _ _ hm
  clear_value a d₁
  split
  · exact h₁
  · exact Dev.Meets.paired (enterRun_meets _ _ _ _ _ h₁)

theorem callRead_meets {C : Claim} (slot : Nat) (n : Nat) (d : Dev) (hm : d.Meets C) : (callRead slot n d).Meets C := by
  unfold callRead
  split
  · exact hm
  · split
    · exact callBegin_meets _ _ _ _ (.of_pair (by assumption) (takeCall_meets _ _ _ hm))
    · exact ropeAbortLocal_meets _ _ _ (.of_pair (by assumption) (takeCall_meets _ _ _ hm))
    · exact ropeFault_meets _ _ _ _ _ (Dev.onRope_meets _ _ _ (.of_pair (by assumption) (takeCall_meets _ _ _ hm)))

theorem dueAborted_meets {C : Claim} (slot : Nat) (origin : Nat) (reason : Nat) (d : Dev)
    (hm : d.Meets C) : (dueAborted slot origin reason d).Meets C := by
  grind [dueAborted, takeCall_meets, takeFree_meets, Dev.onRope_meets]

theorem devRopeCallDue_meets {C : Claim} (slot : Nat) (d : Dev) (hm : d.Meets C) : (devRopeCallDue slot d).Meets C := by
  unfold devRopeCallDue
  split
  · exact hm
  · refine meets_ite hm ?_
    split
    · exact dueAborted_meets _ _ _ _ hm
    · exact meets_ite (callRead_meets _ _ _ hm) hm
    · exact hm

theorem devPhaseRefetch_meets {C : Claim} (t : RefetchTarget) (data : Bytes) (d : Dev)
    (hC : C.Wide) (hm : d.Meets C) : (devPhaseRefetch t data d).Meets C := by
  unfold devPhaseRefetch
  split
  · exact refetchRing_meets _ _ _ _ hm
  · exact refetchRing_meets _ _ _ _ hm
  · split
    · extract_lets +onlyGivenNames n
      exact meets_ite hm (ringPacket_meets _ _ _ _ _ hC hm)
    · exact hm
  · exact meets_ite (jobTake_meets _ _ _ hm) hm
  · split
    · exact meets_ite (callRead_meets _ _ _ hm) hm
    · exact hm

theorem devRopeAckRepeat_meets {C : Claim} (slot : Nat) (d : Dev) (hm : d.Meets C) : (devRopeAckRepeat slot d).Meets C := by
  unfold devRopeAckRepeat
  split
  · exact hm
  · exact meets_ite hm (sendRopeAck_meets _ _ hm)

theorem noRope_meets {C : Claim} (port : Nat) (t : BitVec 8) (p : Pkt) (d : Dev) (hm : d.Meets C) : (noRope port t p d).Meets C := by
  unfold noRope
  extract_lets +onlyGivenNames d₁ recent
  have h₁ : d₁.Meets C := count_meets _ _ _ _ _ hm
  clear_value d₁ recent
  refine meets_ite h₁ ?_
  extract_lets +onlyGivenNames d₂ e m fromUp me head tile r
  have h₂ : d₂.Meets C := Dev.onRopes_meets h₁
  exact meets_ite (release_meets _ _ _ _ _ _ _ _ _ h₂) h₂

theorem ackPast_meets {C : Claim} (slot : Nat) (r : Rope) (p : Pkt) (d : Dev) (hm : d.Meets C) : (ackPast slot r p d).Meets C := by
  unfold ackPast
  extract_lets +onlyGivenNames e call
  clear_value e call
  split
  · extract_lets +onlyGivenNames cum head
    exact sendRope_meets _ _ _ _ _ hm

theorem commitRope_meets {C : Claim} (slot : Nat) (p : Pkt) (d : Dev) (hm : d.Meets C) : (commitRope slot p d).Meets C := by
  unfold commitRope
  extract_lets +onlyGivenNames d₁ k
  have h₁ : d₁.Meets C := onCall_meets _ _ _ hm
  exact meets_ite (sendRopeAck_meets _ _ h₁) h₁

theorem takeRopeData_meets {C : Claim} (slot : Nat) (r : Rope) (c : Call) (p : Pkt) (d : Dev)
    (hm : d.Meets C) : (takeRopeData slot r c p d).Meets C := by
  unfold takeRopeData
  extract_lets +onlyGivenNames e j lap hpn off len old lapOk
  clear_value e j lap hpn off len old lapOk
  refine meets_ite (ropeAbortLocal_meets _ _ _ hm) ?_
  extract_lets +onlyGivenNames fl k d₁ d₂ d₃
  clear_value fl k
  have h₁ : d₁.Meets C := by
    dsimp -zeta -iota -proj only [d₁]
    split
    · exact onInput_meets _ _ _ _ _ hm
    · exact onCall_meets _ _ _ hm
  have h₂ : d₂.Meets C := commitRope_meets _ _ _ (tenCount_meets _ _ _ _ h₁)
  clear_value d₁ d₂
  have h₃ : d₃.Meets C := by
    dsimp -zeta -iota -proj only [d₃]
    refine meets_ite ?_ h₂
    split
    · split
      · exact chunkWork_meets _ _ _ _ _ _ h₂
      · exact h₂
    · exact h₂
  exact ropeTidy_meets _ _ h₃

theorem takeConfirm_meets {C : Claim} (slot : Nat) (r : Rope) (c : Call) (p : Pkt) (d : Dev)
    (hm : d.Meets C) : (takeConfirm slot r c p d).Meets C := by
  unfold takeConfirm
  extract_lets +onlyGivenNames j
  clear_value j
  refine meets_ite (ropeAbortLocal_meets _ _ _ hm) ?_
  extract_lets +onlyGivenNames d₁ d₂
  have h₁ : d₁.Meets C := onCall_meets _ _ _ hm
  have h₂ : d₂.Meets C := commitRope_meets _ _ _ h₁
  exact ropeTidy_meets _ _ (meets_ite (confirmTo_meets _ _ _ h₂) h₂)

theorem ropePayload_meets {C : Claim} (port : Nat) (slot : Nat) (r : Rope) (t : BitVec 8) (p : Pkt) (d : Dev)
    (hm : d.Meets C) : (ropePayload port slot r t p d).Meets C := by
  unfold ropePayload
  extract_lets +onlyGivenNames call
  clear_value call
  split
  · exact meets_ite (count_meets _ _ _ _ _ hm) (meets_ite hm (ackPast_meets _ _ _ _ hm))
  · extract_lets +onlyGivenNames at_
    clear_value at_
    refine meets_ite (count_meets _ _ _ _ _ hm) (meets_ite (ackPast_meets _ _ _ _ hm) (meets_ite (ropeAbortLocal_meets _ _ _ hm) ?_))
    extract_lets +onlyGivenNames k answer
    have h₂ : ∀ a₁, Dev.Meets C (answer a₁) := fun _ => sendRopeAck_meets _ _ (onCall_meets _ _ _ (count_meets _ _ _ _ _ hm))
    exact meets_ite (h₂ _) (meets_ite (h₂ _) (meets_ite (takeRopeData_meets _ _ _ _ _ hm) (takeConfirm_meets _ _ _ _ _ hm)))

theorem ropeAcked_meets {C : Claim} (port : Nat) (slot : Nat) (r : Rope) (p : Pkt) (d : Dev)
    (hm : d.Meets C) : (ropeAcked port slot r p d).Meets C := by
  unfold ropeAcked
  extract_lets +onlyGivenNames call
  clear_value call
  split
  · exact meets_ite (count_meets _ _ _ _ _ hm) hm
  · extract_lets +onlyGivenNames at_
    clear_value at_
    refine meets_ite (count_meets _ _ _ _ _ hm) (meets_ite hm (meets_ite (ropeAbortLocal_meets _ _ _ hm) ?_))
    extract_lets +onlyGivenNames e cum sack next
    clear_value e cum next
    refine meets_ite (count_meets _ _ _ _ _ hm) ?_
    extract_lets +onlyGivenNames hit got early echo rtt sample
    clear_value got echo rtt sample
    split
    · extract_lets +onlyGivenNames d₁
      have h₁ : d₁.Meets C := Dev.onRope_meets _ _ _ hm
      exact ropeTidy_meets _ _ (flushConfirms_meets _ _ _ h₁)

theorem ropeAborted_meets {C : Claim} (slot : Nat) (r : Rope) (p : Pkt) (d : Dev) (hm : d.Meets C) : (ropeAborted slot r p d).Meets C := by
  unfold ropeAborted
  extract_lets +onlyGivenNames origin down m next
  exact ropeAbort_meets _ _ _ _ _ _ hm

theorem meterRope_meets {C : Claim} (port : Nat) (p : Pkt) (ten : Nat) (d : Dev) (hm : d.Meets C) : (meterRope port p ten d).2.Meets C := by
  unfold meterRope
  extract_lets +onlyGivenNames m colour drop d₁ d₂
  have h₁ : d₁.Meets C := Dev.onPort_meets _ _ _ hm
  have h₂ : d₂.Meets C := count_meets _ _ _ _ _ h₁
  exact Dev.Meets.paired (meets_ite (count_meets _ _ _ _ _ h₂) h₂)

theorem ropeChecked_meets {C : Claim} (port : Nat) (t : BitVec 8) (p : Pkt) (d : Dev) (hm : d.Meets C) : (ropeChecked port t p d).Meets C := by
  unfold ropeChecked
  extract_lets +onlyGivenNames slot
  clear_value slot
  split
  · exact noRope_meets _ _ _ _ hm
  · refine meets_ite (noRope_meets _ _ _ _ hm) ?_
    split
    · exact .of_pair (by assumption) (meterRope_meets _ _ _ _ hm)
    · split
      · exact count_meets _ _ _ _ _ (.of_pair (by assumption) (meterRope_meets _ _ _ _ hm))
      · refine meets_ite (meets_ite (.of_pair (by assumption) (meterRope_meets _ _ _ _ hm)) (ropePayload_meets _ _ _ _ _ _ (.of_pair
            (by assumption) (meterRope_meets _ _ _ _ hm)))) (meets_ite (ropeAbortLocal_meets _ _ _ (.of_pair (by assumption)
            (meterRope_meets _ _ _ _ hm))) (meets_ite ?_ (meets_ite (meets_ite (ropeAcked_meets _ _ _ _ _ (.of_pair (by assumption)
            (meterRope_meets _ _ _ _ hm))) ?_) (ropePayload_meets _ _ _ _ _ _ (.of_pair (by assumption) (meterRope_meets _ _ _ _ hm))))))
        · extract_lets +onlyGivenNames mine
          exact meets_ite (ropeAborted_meets _ _ _ _ (.of_pair (by assumption) (meterRope_meets _ _ _ _ hm))) (ropeAbortLocal_meets _ _ _
                (.of_pair (by assumption) (meterRope_meets _ _ _ _ hm)))
        · split
          · exact meets_ite (ropeAbortLocal_meets _ _ _ (.of_pair (by assumption) (meterRope_meets _ _ _ _ hm))) (.of_pair (by assumption)
                (meterRope_meets _ _ _ _ hm))
          · exact .of_pair (by assumption) (meterRope_meets _ _ _ _ hm)

theorem ropeLand_meets {C : Claim} (port : Nat) (t : BitVec 8) (p : Pkt) (d : Dev) (hm : d.Meets C) : (ropeLand port t p d).Meets C := by
  unfold ropeLand
  split
  · exact meets_ite (ropeChecked_meets _ _ _ _ hm) hm
  · exact ropeChecked_meets _ _ _ _ hm

theorem recvRope_meets {C : Claim} (t : BitVec 8) (port : Nat) (p : Pkt) (d : Dev) (hm : d.Meets C) : (recvRope t port p d).Meets C := by
  unfold recvRope
  extract_lets +onlyGivenNames np size
  clear_value np size
  refine meets_ite hm (meets_ite (count_meets _ _ _ _ _ hm) (frameIn_meets _ _ _ (fun _ h₂ => ?_) _ hm))
  extract_lets +onlyGivenNames ten d₃
  have h₃ : d₃.Meets C := count_meets _ _ _ _ _ (count_meets _ _ _ _ _ h₂)
  clear_value ten d₃
  refine meets_ite (malformed_meets _ _ _ h₃) (meets_ite (malformed_meets _ _ _ h₃) ?_)
  split
  · refine meets_ite (versionBad_meets _ _ _ h₃) (meets_ite (malformed_meets _ _ _ h₃) ?_)
    split
    · exact meets_ite (crossOr_meets _ _ _ (fun _ h₄ => ropeLand_meets _ _ _ _ h₄) _ _ h₃) h₃
    · exact ropeChecked_meets _ _ _ _ h₃
  · exact trailerBad_meets _ _ h₃

theorem devRopePkt_meets {C : Claim} (t : BitVec 8) (port : Nat) (p : Pkt) (d : Dev)
    (hC : C.Wide) (hm : d.Meets C) : (devRopePkt t port p d).Meets C := by
  unfold devRopePkt
  exact arrive_meets _ _ _ _ (fun _ h₁ => recvRope_meets _ _ _ _ h₁) _ hC hm

theorem servePacket_meets {C : Claim} (slot : Nat) (r : Rope) (c : Call) (o : PieceOut) (d : Dev)
    (hm : d.Meets C) : (servePacket slot r c o d).Meets C := by
  unfold servePacket
  extract_lets +onlyGivenNames e
  split
  extract_lets +onlyGivenNames w last out own
  have hout (data : Bytes) (fl : Nat) (d : Dev) (hm : d.Meets C) : (out data fl d).Meets C := by
    dsimp -zeta -iota -proj only [out]
    extract_lets +onlyGivenNames d₁ d₂
    have h₂ : d₂.Meets C := pushHop_meets _ _ _ _ _ _ _ _ _ _ _ (onOutput_meets _ _ _ _ _ hm)
    split
    · exact sendHop_meets _ _ _ h₂
    · exact h₂
  have hown (f : List Nat → Dev → Dev) (hf : ∀ l d, d.Meets C → (f l d).Meets C) : (own f).Meets C := by
    have htaken (k : Nat) := ownTake_meets slot r c w k d hm
    dsimp -zeta -iota -proj only [own]
    split
    · next he => exact ropeFault_meets _ _ _ _ _ (.of_pair he (htaken _))
    · next he => exact ropeAbortLocal_meets _ _ _ (.of_pair he (htaken _))
    · next he => exact hf _ _ (.of_pair he (htaken _))
  clear_value out own
  split
  · exact hm
  · exact hown _ fun _ _ h => hout _ _ _ h
  · split
    · exact hm
    · exact meets_ite (hout _ _ _ hm) (hown _ fun _ _ h => hout _ _ _ h)

theorem pitchAct_meets {C : Claim} {d e : Dev} {slot : Nat} {r : Rope} {c : Call} {x : Nat × Nat} (he : pitchAct d slot r c x = some e)
    (hm : d.Meets C) : e.Meets C := by
  unfold pitchAct at he
  split at he
  · split at he <;> cases he
    exact aloneCall_meets _ _ _ _ hm
  · split at he
    · split at he <;> cases he
      next hs => exact .of_pair hs (sendHop_meets _ _ _ hm)
    · split at he
      · split at he <;> cases he
        exact ropeTidy_meets _ _ (chunkWork_meets _ _ _ _ _ _ hm)
      · split at he
        · cases he
        · split at he
          · cases he
            exact ropeTidy_meets _ _ (servePacket_meets _ _ _ _ _ hm)
          · split at he <;> cases he
            exact ropeTidy_meets _ _ (servePacket_meets _ _ _ _ _ (Dev.onRope_meets _ _ _ hm))

theorem devRopePitchServe_meets {C : Claim} (tile : Nat) (d : Dev) (hm : d.Meets C) : (devRopePitchServe tile d).Meets C := by
  unfold devRopePitchServe
  refine meets_ite hm ?_
  extract_lets age d₁ turns
  have h₁ : d₁.Meets C := Dev.onRopes_meets hm
  split
  · exact h₁
  · extract_lets d₂
    have h₂ : d₂.Meets C := Dev.onRope_meets _ _ _ (Dev.onRopes_meets h₁)
    split
    · exact h₂
    · next r c hrc =>
      cases hact : pitchAct d₂ ‹PitchTurn›.slot r c ‹PitchTurn›.pitch with
      | none => exact h₂
      | some e => exact pitchAct_meets hact h₂

theorem devPitchTimeout_meets {C : Claim} (slot : Nat) (d : Dev) (hm : d.Meets C) : (devPitchTimeout slot d).Meets C := by
  unfold devPitchTimeout
  split
  · exact hm
  · exact meets_ite (ropeAbortLocal_meets _ _ _ hm) hm

theorem devRopeAbortRepeat_meets {C : Claim} (slot : Nat) (d : Dev) (hm : d.Meets C) : (devRopeAbortRepeat slot d).Meets C := by
  unfold devRopeAbortRepeat
  split
  · exact hm
  · extract_lets +onlyGivenNames d₁ d₂
    have h₁ : d₁.Meets C := meets_ite hm (sendAbort_meets _ _ _ hm)
    have h₂ : d₂.Meets C := meets_ite h₁ (sendAbort_meets _ _ _ h₁)
    exact Dev.onRope_meets _ _ _ h₂

theorem hopTimer_meets {C : Claim} (slot : Nat) (psn : BitVec 32) (d : Dev) (hm : d.Meets C) : (hopTimer slot psn d).Meets C := by
  unfold hopTimer
  split
  · exact hm
  · split
    · exact hm
    · exact meets_ite (ropeAbortLocal_meets _ _ _ hm) (onCall_meets _ _ _ hm)

theorem devTimer_meets {C : Claim} (q : Sender) (psn : BitVec 32) (d : Dev) (hm : d.Meets C) : (devTimer q psn d).Meets C := by
  unfold devTimer
  split
  · exact devRetransmitTimer_meets _ _ _ hm
  · exact flushConfirms_meets _ _ _ (hopTimer_meets _ _ _ hm)

theorem devAckDue_meets {C : Claim} (q : Sender) (d : Dev) (hm : d.Meets C) : (devAckDue q d).Meets C := by
  unfold devAckDue
  split
  · exact devAckTimer_meets _ _ hm
  · split
    · exact meets_ite hm (sendRopeAck_meets _ _ hm)
    · exact hm

theorem withRope_meets {C : Claim} (c : CmdSlot) (p : Bytes) (busyRule : Bool) (f : Rope → Dev → Dev)
    (hf : ∀ a₀ a₁, a₁.Meets C → (f a₀ a₁).Meets C) (d : Dev) (hC : C.Wide) (hm : d.Meets C) : (withRope c p busyRule f d).Meets C := by
  unfold withRope
  refine withTenant_meets _ _ _ _ (fun _ _ h₁ => ?_) _ hC hm
  split
  · exact finishAt_meets _ _ _ _ hC h₁
  · exact meets_ite (finishAt_meets _ _ _ _ hC h₁) (hf _ _ h₁)

theorem devRopeDestroy_meets {C : Claim} (c : CmdSlot) (d : Dev) (hC : C.Wide) (hm : d.Meets C) : (devRopeDestroy c d).Meets C := by
  unfold devRopeDestroy
  refine runChk_meets _ _ _ _ (fun _ _ h₁ => withRope_meets _ _ _ _ (fun _ _ h₂ => ?_) _ hC h₁) _ hC hm
  extract_lets +onlyGivenNames k d₃ d₄ n d₅
  have h₃ : d₃.Meets C := leave_meets _ _ _ hC h₂
  have h₄ : d₄.Meets C := meets_ite (ropeAbortLocal_meets _ _ _ h₃) h₃
  have h₅ : d₅.Meets C := iter_meets h₄ (fun _ h₆ => dueAborted_meets _ _ _ _ h₆)
  exact Dev.onRope_meets _ _ _ h₅

theorem devRopeSlotFreed_meets {C : Claim} (slot : Nat) (d : Dev) (hC : C.Wide) (hm : d.Meets C) : (devRopeSlotFreed slot d).Meets C := by
  unfold devRopeSlotFreed
  split
  · exact hm
  · split
    · exact hm
    · refine meets_ite hm ?_
      extract_lets +onlyGivenNames d₁ d₂
      have h₁ : d₁.Meets C := dropWaiters_meets _ _ (Dev.onRopes_meets hm)
      clear_value d₁
      have h₂ : d₂.Meets C := by
        dsimp -zeta -iota -proj only [d₂]
        split
        · exact answerIf_meets _ _ _ _ _ hC h₁
        · exact h₁
      exact tenResetTry_meets _ _ hC h₂

theorem devRopeQuery_meets {C : Claim} (c : CmdSlot) (d : Dev) (hC : C.Wide) (hm : d.Meets C) : (devRopeQuery c d).Meets C := by
  unfold devRopeQuery
  exact runChk_meets _ _ _ _ (fun _ _ h₁ => withRope_meets _ _ _ _ (fun _ _ h₂ => finishRes_meets _ _ _ _ _ hC h₂) _ hC h₁) _ hC hm

end Sys2Proof.Machine
end

section
/-! SUPPORT. Claims that operations keep: power, service, registers and the queues between dies. -/

namespace Sys2Proof.Machine

/-! ### Operations of Power -/

theorem devPwrEnAssert_meets {C : Claim} (mV : Nat) (d : Dev) (hC : C.Inv) (hm : d.Meets C) : (devPwrEnAssert mV d).Meets C := by
  unfold devPwrEnAssert
  exact Dev.onPwr_inv hC hm rfl rfl rfl

theorem devPwrEnDeassert_meets {C : Claim} (d : Dev) (hC : C.Inv) (hm : d.Meets C) : (devPwrEnDeassert d).Meets C := by
  unfold devPwrEnDeassert
  exact Dev.onPwr_inv hC (powerOff_meets _ hC hm) rfl rfl rfl

theorem devPowerOnHoldoff_meets {C : Claim} (d : Dev) (hC : C.Inv) (hm : d.Meets C) : (devPowerOnHoldoff d).Meets C := by
  unfold devPowerOnHoldoff
  refine Dev.onPwr_inv hC hm ?_ ?_ ?_ <;> split <;> rfl

theorem devInputInRange_meets {C : Claim} (mV : Nat) (d : Dev) (hC : C.Inv) (hm : d.Meets C) : (devInputInRange mV d).Meets C := by
  unfold devInputInRange
  exact Dev.onPwr_inv hC hm rfl rfl rfl

theorem devVinEvent_meets {C : Claim} (band : VinBand) (mV : Nat) (d : Dev) (hC : C.Inv) (hm : d.Meets C) : (devVinEvent band mV d).Meets C := by
  unfold devVinEvent
  extract_lets +onlyGivenNames d₁
  have h₁ : d₁.Meets C := Dev.onPwr_inv hC hm rfl rfl rfl
  clear_value d₁
  refine meets_ite h₁ ?_
  extract_lets +onlyGivenNames event note
  have h₄ : ∀ a₂, Dev.Meets C a₂ → Dev.Meets C (event a₂) := fun _ h₃ => Dev.onPwr_inv hC h₃ rfl rfl rfl
  have h₇ : ∀ a₅, Dev.Meets C a₅ → Dev.Meets C (note a₅) := fun _ h₆ => meets_ite (logIt_meets _ _ _ _ _ _ h₆) h₆
  clear_value event note
  split
  · exact h₇ _ (h₄ _ h₁)
  · exact h₄ _ h₁
  · exact h₇ _ (Dev.onPwr_inv hC (h₄ _ h₁) rfl rfl rfl)
  · exact Dev.onPwr_inv hC (powerLoss_meets _ hC h₁) rfl rfl rfl

theorem devUndervoltageRecovery_meets {C : Claim} (d : Dev) (hC : C.Wide) (hm : d.Meets C) : (devUndervoltageRecovery d).Meets C := by
  unfold devUndervoltageRecovery
  exact Dev.onPwr_wide hC hm rfl rfl rfl rfl rfl

theorem devIsolationLinkLoss_meets {C : Claim} (d : Dev) (hC : C.Wide) (hm : d.Meets C) : (devIsolationLinkLoss d).Meets C := by
  unfold devIsolationLinkLoss
  exact Dev.onPwr_wide hC hm rfl rfl rfl rfl rfl

theorem devIsolationLinkReturn_meets {C : Claim} (d : Dev) (hC : C.Wide) (hm : d.Meets C) : (devIsolationLinkReturn d).Meets C := by
  unfold devIsolationLinkReturn
  exact Dev.onPwr_wide hC hm rfl rfl rfl rfl rfl

theorem devIsolationLinkTimeout_meets {C : Claim} (d : Dev) (hC : C.Inv) (hm : d.Meets C) : (devIsolationLinkTimeout d).Meets C := by
  unfold devIsolationLinkTimeout
  exact meets_ite (powerOff_meets _ hC hm) hm

theorem devStageLost_meets {C : Claim} (d : Dev) (hC : C.Inv) (hm : d.Meets C) : (devStageLost d).Meets C := by
  unfold devStageLost
  refine meets_ite hm (meets_ite (powerOff_meets _ hC hm) ?_)
  extract_lets +onlyGivenNames d₁
  have h₁ : d₁.Meets C := Dev.onPwr_inv hC hm rfl rfl rfl
  clear_value d₁
  refine meets_ite h₁ ?_
  split
  · exact logIt_meets _ _ _ _ _ _ (.of_pair (by assumption) (takeFree_meets _ h₁))

theorem devLimiterStep_meets {C : Claim} (average : Nat) (hottest : Int) (d : Dev) (hC : C.Inv) (hm : d.Meets C) :
    (devLimiterStep average hottest d).Meets C := by
  unfold devLimiterStep
  extract_lets +onlyGivenNames limit hot began l l' d₁ d₂
  have h₁ : d₁.Meets C := meets_ite hm (count_meets _ _ _ _ _ hm)
  have hl' (ht : d.pwr.throttle ≤ 15) : l' ≤ 15 := by
    dsimp only [l', l]
    split
    · exact Nat.min_le_left _ _
    · exact limitStep_le ht
  have h₂ : d₂.Meets C := by
    cases C with
    | memory => exact h₁
    | limits => exact ⟨limitNow_le d, h₁.2.1, hl' hm.2.2⟩
    | lead => exact h₁
    | _ => exact (hC.elim id nofun).elim
  refine meets_ite h₂ ?_
  split
  next he => exact logIt_meets _ _ _ _ _ _ (.of_pair he (takeFree_meets _ h₂))

theorem devPowerSample_meets {C : Claim} (watts : Nat) (d : Dev) (hC : C.Inv) (hm : d.Meets C) : (devPowerSample watts d).Meets C := by
  unfold devPowerSample
  exact meets_ite (Dev.onPwr_bounded hC hm fun ⟨hl, hs, _⟩ => ⟨hl, hs, Nat.min_le_left _ _⟩)
    (meets_ite (Dev.onPwr_bounded hC hm fun ⟨hl, hs, _⟩ => ⟨hl, hs, Nat.min_le_left _ _⟩) hm)

/-! ### Operations of Operands -/

theorem runChk_checked {C : Claim} {c : CmdSlot} {op : Nat} {chk : Bytes → Dev → List (Nat × Bool)} {f : Bytes → Dev → Dev} {d : Dev} (hC : C.Wide)
    (hf : ∀ p d, firstBad (chk p d) = none → d.Meets C → (f p d).Meets C) (hm : d.Meets C) : (runChk c op chk f d).Meets C := by
  unfold runChk
  refine runCmd_meets _ _ _ (fun p d hm => ?_) _ hm
  split
  · exact finishAt_meets _ _ _ _ hC hm
  · next hnone => exact hf p d hnone hm

/-! ### Operations of Power -/

theorem devSetPowerLimit_meets {C : Claim} (c : CmdSlot) (d : Dev) (hC : C.Inv) (hm : d.Meets C) : (devSetPowerLimit c d).Meets C := by
  unfold devSetPowerLimit
  refine runChk_checked hC.wide (fun p d hchk hm => finish_meets _ _ _ hC.wide (Dev.onPwr_bounded hC hm fun ⟨hl, _, ht⟩ => ⟨hl, ?_, ht⟩)) hm
  intro w hw
  obtain rfl : u16 p 0 = w := Option.some.inj hw
  by_contra hout
  have hbad : (decide (500 ≤ u16 p 0) && decide (u16 p 0 ≤ 3000)) = false := by simpa using hout
  simp only [firstBad, hbad] at hchk
  cases hchk

theorem devSensorUpdate_meets {C : Claim} (v : Sensors) (d : Dev) (hC : C.Wide) (hm : d.Meets C) : (devSensorUpdate v d).Meets C := by
  unfold devSensorUpdate
  extract_lets +onlyGivenNames old new crossed d₁ d₂
  have h₁ : d₁.Meets C := Dev.onPwr_wide hC hm rfl rfl rfl rfl rfl
  have h₂ : d₂.Meets C := meets_ite (raiseAlert_meets _ _ h₁) (dropAlert_meets _ _ h₁)
  exact meets_ite (emit_meets _ _ h₂) h₂

/-- The claim is an invariant that a power-on keeps: a plain one, or that of leadership where no bank verifies, so that no die starts. -/
def Claim.Boots (C : Claim) : Prop := C.Plain ∨ C = .lead ∧ ∀ v b, bankFault v b ≠ none

theorem Claim.Boots.inv {C : Claim} (h : C.Boots) : C.Inv := h.imp_right And.left

theorem Claim.Boots.plain {C : Claim} (h : C.Boots) {v : Svc} {b : Side} (hnone : bankFault v b = none) : C.Plain :=
  h.resolve_right fun hlead => hlead.2 v b hnone

theorem bootBanks_meets {C : Claim} (e : PowerOnEnv) (bad : List Nat) (d : Dev) (hC : C.Boots) (hm : d.Meets C) : (bootBanks e bad d).Meets C := by
  unfold bootBanks
  extract_lets +onlyGivenNames b
  clear_value b
  split
  · next hnone => exact powerUp_meets _ _ _ _ _ (hC.plain hnone) hm
  · split
    · next hnone => exact powerUp_meets _ _ _ _ _ (hC.plain hnone) hm
    · exact bootHalted_meets _ _ _ hC.inv (Dev.onSvc_inv hC.inv hm)

theorem devPowerOn_meets {C : Claim} (e : PowerOnEnv) (d : Dev) (hC : C.Boots) (hm : d.Meets C) : (devPowerOn e d).Meets C := by
  unfold devPowerOn
  refine meets_ite hm ?_
  split
  · exact bootHalted_meets _ _ _ hC.inv hm
  · extract_lets +onlyGivenNames d₁ bad
    have h₁ : d₁.Meets C := Dev.onSvc_inv hC.inv hm
    exact meets_ite (bootHalted_meets _ _ _ hC.inv h₁) (bootBanks_meets _ _ _ hC (absentRecords_meets _ _ h₁))

theorem lockLost_meets {C : Claim} (d : Dev) (hC : C.Wide) (hm : d.Meets C) : (lockLost d).Meets C := by
  unfold lockLost
  exact Dev.onPwr_wide hC hm rfl rfl rfl rfl rfl

theorem devClockLoss_meets {C : Claim} (d : Dev) (hC : C.Inv) (hm : d.Meets C) : (devClockLoss d).Meets C := by
  unfold devClockLoss
  exact meets_ite (Dev.onPwr_inv hC (lockLost_meets _ hC.wide hm) rfl rfl rfl) hm

theorem devClockLockReturn_meets {C : Claim} (d : Dev) (hC : C.Inv) (hm : d.Meets C) : (devClockLockReturn d).Meets C := by
  unfold devClockLockReturn
  exact meets_ite (settle_meets _ (warmReset_meets _ _ hC (Dev.onPwr_inv hC hm rfl rfl rfl))) hm

theorem devClockHalt_meets {C : Claim} (d : Dev) (hC : C.Inv) (hm : d.Meets C) : (devClockHalt d).Meets C := by
  unfold devClockHalt
  exact meets_ite (raiseAlert_meets _ _ (setRails_meets _ _ hC hm)) hm

theorem devSerdesPllLoss_meets {C : Claim} (n : Nat) (d : Dev) (hC : C.Wide) (hm : d.Meets C) : (devSerdesPllLoss n d).Meets C := by
  unfold devSerdesPllLoss
  refine meets_ite hm ?_
  extract_lets +onlyGivenNames d₁
  have h₁ : d₁.Meets C := Dev.onPwr_wide hC (lockLost_meets _ hC hm) rfl rfl rfl rfl rfl
  exact segmentDown_meets _ _ hC (portDown_meets _ _ hC (portDown_meets _ _ hC h₁))

theorem devPciePllLoss_meets {C : Claim} (p : Side) (d : Dev) (hC : C.Inv) (hm : d.Meets C) : (devPciePllLoss p d).Meets C := by
  unfold devPciePllLoss
  extract_lets +onlyGivenNames d₁
  have h₁ : d₁.Meets C := Dev.onPwr_inv hC (lockLost_meets _ hC.wide hm) rfl rfl rfl
  exact devLinkDown_meets _ _ hC h₁

theorem devWarmReset_meets {C : Claim} (p : Side) (d : Dev) (hC : C.Inv) (hm : d.Meets C) : (devWarmReset p d).Meets C := by
  unfold devWarmReset
  exact needHasp_meets _ _ _ _ (fun _ h₁ => warmReset_meets _ _ hC h₁) _ hm

theorem devHalfReset_meets {C : Claim} (c : CmdSlot) (d : Dev) (hC : C.Inv) (hm : d.Meets C) : (devHalfReset c d).Meets C := by
  unfold devHalfReset
  refine runChk_meets _ _ _ _ (fun _ _ h₁ => ?_) _ hC.wide hm
  extract_lets +onlyGivenNames x d₂ leads
  have h₂ : d₂.Meets C := Dev.onCtl_inv hC h₁ rfl fun _ => id
  exact meets_ite (finish_meets _ _ _ hC.wide h₂) (meets_ite (finish_meets _ _ _ hC.wide h₂) (meets_ite (Dev.onCtl_inv hC h₂ rfl fun _ => id)
        (finish_meets _ _ _ hC.wide (halfReset_meets _ _ hC (meets_ite (handOver_meets _ hC h₂) h₂)))))

theorem stackPark_meets {C : Claim} (c : CmdSlot) (k : Nat) (withdraw : Bool) (d : Dev)
    (hC : C.Wide) (hm : d.Meets C) : (stackPark c k withdraw d).Meets C := by
  unfold stackPark
  extract_lets +onlyGivenNames s
  clear_value s
  refine meets_ite (finish_meets _ _ _ hC (Dev.onStk_meets _ _ _ hm)) (meets_ite (finish_meets _ _ _ hC hm) (meets_ite (finish_meets _ _ _ hC hm) ?_))
  extract_lets +onlyGivenNames d₁
  have h₁ : d₁.Meets C := Dev.onStk_meets _ _ _ hm
  exact finish_meets _ _ _ hC (meets_ite (count_meets _ _ _ _ _ h₁) h₁)

theorem portSleep_meets {C : Claim} (c : CmdSlot) (k : Nat) (withdraw : Bool) (d : Dev)
    (hC : C.Wide) (hm : d.Meets C) : (portSleep c k withdraw d).Meets C := by
  unfold portSleep
  extract_lets +onlyGivenNames p
  exact meets_ite (finish_meets _ _ _ hC hm) (meets_ite (finish_meets _ _ _ hC hm) (finish_meets _ _ _ hC (Dev.onPort_meets _ _ _ hm)))

theorem bivouacCmd_meets {C : Claim} (c : CmdSlot) (k : Nat) (withdraw : Bool) (d : Dev)
    (hC : C.Wide) (hm : d.Meets C) : (bivouacCmd c k withdraw d).Meets C := by
  unfold bivouacCmd
  refine meets_ite ?_ (meets_ite (finish_meets _ _ _ hC hm) (meets_ite (finish_meets _ _ _ hC hm) (leave_meets _ _ _ hC
        (Dev.onPwr_wide hC hm rfl rfl rfl rfl rfl))))
  split
  · exact finish_meets _ _ _ hC hm
  · exact wakeDev_meets _ hC (leave_meets _ _ _ hC (Dev.onPwr_wide hC hm rfl rfl rfl rfl rfl))
  · exact finish_meets _ _ _ hC hm

theorem devPowerState_meets {C : Claim} (c : CmdSlot) (d : Dev) (hC : C.Wide) (hm : d.Meets C) : (devPowerState c d).Meets C := by
  unfold devPowerState
  refine runChk_meets _ _ _ _ (fun _ _ h₁ => ?_) _ hC hm
  extract_lets +onlyGivenNames w k
  clear_value k
  refine meets_ite (finish_meets _ _ _ hC h₁) (meets_ite (finish_meets _ _ _ hC h₁) ?_)
  split
  · exact stackPark_meets _ _ _ _ hC h₁
  · exact portSleep_meets _ _ _ _ hC h₁
  · exact bivouacCmd_meets _ _ _ _ hC h₁

theorem stacksRest_meets {C : Claim} (d : Dev) (hm : d.Meets C) : (stacksRest d).Meets C := by
  unfold stacksRest
  exact Dev.onMem_meets hm rfl

theorem stacksRise_meets {C : Claim} (d : Dev) (hC : C.Wide) (hm : d.Meets C) : (stacksRise d).Meets C := by
  unfold stacksRise
  extract_lets +onlyGivenNames d₁
  have h₁ : d₁.Meets C := Dev.onMem_meets hm rfl
  exact foldl_meets h₁ (fun _ _ h₃ => meets_ite (serveWaiting_meets _ _ hC h₃) h₃)

theorem devBivouacDrained_meets {C : Claim} (d : Dev) (hC : C.Wide) (hm : d.Meets C) : (devBivouacDrained d).Meets C := by
  unfold devBivouacDrained
  refine meets_ite hm ?_
  extract_lets +onlyGivenNames d₁ c d₂
  have h₁ : d₁.Meets C := by
    dsimp -zeta only [d₁]
    exact foldl_meets hm fun _ _ h => meets_ite h (portDown_meets _ _ hC h)
  clear_value d₁
  have h₂ : d₂.Meets C := Dev.onPwr_wide hC (stacksRest_meets _ h₁) rfl rfl rfl rfl rfl
  clear_value c
  split
  · exact answerIf_meets _ _ _ _ _ hC h₂
  · exact h₂

theorem applyArrived_meets {C : Claim} (a : Arrived) (d : Dev) (hC : C.Wide) (hm : d.Meets C) : (applyArrived a d).Meets C := by
  unfold applyArrived
  split
  · exact devBell_meets _ _ _ _ _ _ _ _ hC hm
  · exact meets_ite (devRopePkt_meets _ _ _ _ hC hm) (devPkt_meets _ _ _ _ hC hm)
  · exact hostDelivers_meets _ _ _ _ hm
  · exact rxLand_meets _ _ _ _ _ _ hm
  · exact ropeLand_meets _ _ _ _ hm
  · exact outwardLand_meets _ _ _ _ _ _ _ hm
  · exact hm
  · exact hm

theorem devBivouacExitDone_meets {C : Claim} (d : Dev) (hC : C.Wide) (hm : d.Meets C) : (devBivouacExitDone d).Meets C := by
  unfold devBivouacExitDone
  refine meets_ite hm ?_
  extract_lets +onlyGivenNames bells pkts c d₁ d₂ d₃ d₄ d₅ d₆
  have h₁ : d₁.Meets C := Dev.onXlt_meets hm
  have h₂ : d₂.Meets C := restartFlow_meets _ _ (stacksRise_meets _ hC h₁)
  clear_value d₂ bells pkts
  have h₃ : d₃.Meets C := Dev.onPwr_wide hC h₂ rfl rfl rfl rfl rfl
  have h₄ : d₄.Meets C := Dev.onNet_meets h₃
  clear_value d₄
  have h₅ : d₅.Meets C := foldl_meets h₄ fun _ _ h => applyArrived_meets _ _ hC h
  have h₆ : d₆.Meets C := foldl_meets h₅ fun _ _ h => applyArrived_meets _ _ hC h
  clear_value c d₆
  split
  · exact answerIf_meets _ _ _ _ _ hC h₆
  · exact h₆

theorem onLegacy_meets {C : Claim} (f : Legacy → Legacy) (d : Dev) (hC : C.Wide) (hm : d.Meets C) : (onLegacy f d).Meets C := by
  unfold onLegacy
  exact Dev.onPwr_wide hC hm rfl rfl rfl rfl rfl

theorem devCapture_meets {C : Claim} (d : Dev) (hC : C.Wide) (hm : d.Meets C) : (devCapture d).Meets C := by
  unfold devCapture
  exact meets_ite hm (onLegacy_meets _ _ hC hm)

theorem sampleWord_meets {C : Claim} (k : Nat) (agree : List Bool) (d : Dev) (hC : C.Wide) (hm : d.Meets C) : (sampleWord k agree d).2.Meets C := by
  unfold sampleWord
  extract_lets +onlyGivenNames bit
  clear_value bit
  split
  · extract_lets +onlyGivenNames v
    exact Dev.Meets.paired (onLegacy_meets _ _ hC hm)
  · exact Dev.Meets.paired (onLegacy_meets _ _ hC hm)

theorem devLegacyLiveRead_meets {C : Claim} (p : Side) (off : Nat) (size : Nat) (agree : List Bool) (d : Dev)
    (hC : C.Wide) (hm : d.Meets C) : (devLegacyLiveRead p off size agree d).Meets C := by
  unfold devLegacyLiveRead
  extract_lets +onlyGivenNames o
  clear_value o
  refine meets_ite (emit_meets _ _ (badAccess_meets _ _ hm)) (meets_ite hm ?_)
  extract_lets +onlyGivenNames k hi held
  clear_value k hi held
  split
  · exact emit_meets _ _ hm
  · split
    · refine meets_ite (emit_meets _ _ (.of_pair (by assumption) (sampleWord_meets _ _ _ hC hm))) ?_
      extract_lets +onlyGivenNames d₁
      have h₁ : d₁.Meets C := meets_ite (.of_pair (by assumption) (sampleWord_meets _ _ _ hC hm)) (onLegacy_meets _ _ hC (.of_pair
            (by assumption) (sampleWord_meets _ _ _ hC hm)))
      exact emit_meets _ _ h₁

/-! ### Operations of Service -/

theorem devDeviceInfo_meets {C : Claim} (c : CmdSlot) (d : Dev) (hC : C.Wide) (hm : d.Meets C) : (devDeviceInfo c d).Meets C := by
  unfold devDeviceInfo
  exact runChk_meets _ _ _ _ (fun _ _ h₁ => finishRes_meets _ _ _ _ _ hC h₁) _ hC hm

theorem devEnvCheck_meets {C : Claim} (c : CmdSlot) (record : Bytes) (d : Dev) (hC : C.Wide) (hm : d.Meets C) : (devEnvCheck c record d).Meets C := by
  unfold devEnvCheck
  refine runChk_meets _ _ _ _ (fun _ _ h₁ => meets_ite ?_ ?_) _ hC hm
  · split
    · exact finish_meets _ _ _ hC h₁
    · exact finishRes_meets _ _ _ _ _ hC h₁
  · extract_lets +onlyGivenNames b
    clear_value b
    split
    · exact answer_meets _ _ _ _ _ _ hC h₁
    · exact finish_meets _ _ _ hC h₁
    · exact finishRes_meets _ _ _ _ _ hC h₁

theorem acceptRecord_meets {C : Claim} (b : Bytes) (d : Dev) (hC : C.Inv) (hm : d.Meets C) : (acceptRecord b d).Meets C := by
  unfold acceptRecord
  extract_lets +onlyGivenNames next d₁
  have h₁ : d₁.Meets C := storeWrite_meets _ _ (Dev.onSvc_inv hC hm)
  exact applyRecord_meets _ _ hC (logIt_meets _ _ _ _ _ _ h₁)

theorem devRecordLoad_meets {C : Claim} (c : CmdSlot) (record : Bytes) (d : Dev)
    (hC : C.Inv) (hm : d.Meets C) : (devRecordLoad c record d).Meets C := by
  unfold devRecordLoad
  refine runChk_meets _ _ _ _ (fun _ _ h₁ => meets_ite (finish_meets _ _ _ hC.wide h₁) ?_) _ hC.wide hm
  extract_lets +onlyGivenNames b
  clear_value b
  split
  · exact answer_meets _ _ _ _ _ _ hC.wide h₁
  · exact finish_meets _ _ _ hC.wide h₁
  · exact replFinish_meets _ _ _ _ _ _ hC.wide (acceptRecord_meets _ _ hC h₁)

theorem devImageStage_meets {C : Claim} (c : CmdSlot) (data : Bytes) (d : Dev) (hC : C.Inv) (hm : d.Meets C) : (devImageStage c data d).Meets C := by
  unfold devImageStage
  exact runChk_meets _ _ _ _ (fun _ _ h₁ => meets_ite (finish_meets _ _ _ hC.wide h₁) (finish_meets _ _ _ hC.wide (storeWrite_meets _ _
        (Dev.onSvc_inv hC h₁)))) _ hC.wide hm

theorem verifyType_meets {C : Claim} (t : Nat) (d : Dev) (hm : d.Meets C) : (verifyType t d).2.2.Meets C := by
  unfold verifyType
  extract_lets +onlyGivenNames v b i r x d₁ d₂
  have h₁ : d₁.Meets C := storeWrite_meets _ _ (Dev.onSvc_meets hm rfl)
  have h₂ : d₂.Meets C := meets_ite (logIt_meets _ _ _ _ _ _ h₁) h₁
  exact h₂

theorem verifyTypes_meets {C : Claim} (l : List Nat) (d : Dev) (hm : d.Meets C) : (verifyTypes l d).2.2.Meets C := by
  induction l generalizing d with
  | nil => exact hm
  | cons t r ih => exact ih _ (verifyType_meets _ _ hm)

theorem devImageVerify_meets {C : Claim} (c : CmdSlot) (d : Dev) (hC : C.Wide) (hm : d.Meets C) : (devImageVerify c d).Meets C := by
  unfold devImageVerify
  refine runChk_meets _ _ _ _ (fun _ _ h₁ => ?_) _ hC hm
  split
  · exact finishRes_meets _ _ _ _ _ hC (.of_triple (by assumption) (verifyTypes_meets _ _ h₁))

theorem onTraverse_meets {C : Claim} (f : Traverse → Traverse) (d : Dev) (hm : d.Meets C) : (onTraverse f d).Meets C := by
  unfold onTraverse
  exact Dev.onSvc_meets hm rfl

theorem restartDie_meets {C : Claim} (s : Side) (d : Dev) (hC : C.Inv) (hm : d.Meets C) : (restartDie s d).Meets C := by
  unfold restartDie
  extract_lets +onlyGivenNames b
  exact Dev.onCtl_inv hC (Dev.onSvc_inv hC hm) rfl fun _ => set_leader (by decide)

theorem travEnd_meets {C : Claim} (d : Dev) (hC : C.Wide) (hm : d.Meets C) : (travEnd d).Meets C := by
  unfold travEnd
  split
  · exact hm
  · extract_lets +onlyGivenNames undo d₁ d₂
    have h₁ : d₁.Meets C := Dev.onSvc_meets hm rfl
    have h₂ : d₂.Meets C := Dev.onCtl_wide hC h₁ rfl rfl rfl
    exact meets_ite (answerIf_meets _ _ _ _ _ hC h₂) (meets_ite (internalEnd_meets _ _ _ hC h₂) (answerIf_meets _ _ _ _ _ hC h₂))

theorem travNext_meets {C : Claim} (d : Dev) (hC : C.Inv) (hm : d.Meets C) : (travNext d).Meets C := by
  unfold travNext
  split
  · exact hm
  · split
    · refine meets_ite ?_ (meets_ite (Dev.onCtl_inv hC hm rfl fun _ => id) ?_)
      · extract_lets +onlyGivenNames b d₁
        have h₁ : d₁.Meets C := Dev.onSvc_inv hC hm
        exact onTraverse_meets _ _ h₁
      · extract_lets +onlyGivenNames d₂ d₃
        have h₂ : d₂.Meets C := meets_ite (handOver_meets _ hC hm) hm
        have h₃ : d₃.Meets C := restartDie_meets _ _ hC (Dev.onCtl_inv hC h₂ rfl fun _ => id)
        exact onTraverse_meets _ _ h₃
    · exact meets_ite (onTraverse_meets _ _ hm) hm

theorem travGo_meets {C : Claim} (d : Dev) (hC : C.Inv) (hm : d.Meets C) : (travGo d).Meets C := by
  unfold travGo
  split
  · exact hm
  · refine meets_ite ?_ (meets_ite (travNext_meets _ hC hm) (travEnd_meets _ hC.wide hm))
    extract_lets +onlyGivenNames d₁
    have h₁ : d₁.Meets C := travNext_meets _ hC hm
    clear_value d₁
    split
    · exact meets_ite (travEnd_meets _ hC.wide h₁) h₁
    · exact h₁

theorem devTraverseBegin_meets {C : Claim} (c : CmdSlot) (d : Dev) (hC : C.Inv) (hm : d.Meets C) : (devTraverseBegin c d).Meets C := by
  unfold devTraverseBegin
  refine runChk_meets _ _ _ _ (fun _ _ h₁ => ?_) _ hC.wide hm
  extract_lets +onlyGivenNames v major
  clear_value v
  refine meets_ite (finish_meets _ _ _ hC.wide h₁) (meets_ite (finish_meets _ _ _ hC.wide h₁) ?_)
  extract_lets +onlyGivenNames lead t d₂
  have h₂ : d₂.Meets C := leave_meets _ _ _ hC.wide (Dev.onSvc_inv hC h₁)
  exact restartDie_meets _ _ hC (logIt_meets _ _ _ _ _ _ h₂)

theorem devTraverseDieFollower_meets {C : Claim} (s : Side) (d : Dev) (hC : C.Inv) (hm : d.Meets C) : (devTraverseDieFollower s d).Meets C := by
  unfold devTraverseDieFollower
  split
  · exact hm
  · exact meets_ite hm (travGo_meets _ hC (Dev.onCtl_inv hC hm rfl fun _ => set_leader (by decide)))

theorem devTraverseRestartTimeout_meets {C : Claim} (s : Side) (d : Dev) (hC : C.Inv) (hm : d.Meets C) : (devTraverseRestartTimeout s d).Meets C := by
  unfold devTraverseRestartTimeout
  split
  · exact hm
  · refine meets_ite hm (meets_ite (travEnd_meets _ hC.wide (onTraverse_meets _ _ hm)) ?_)
    extract_lets +onlyGivenNames o again
    exact restartDie_meets _ _ hC (onTraverse_meets _ _ hm)

theorem devCentreRuntimeRestartDone_meets {C : Claim} (d : Dev) (hC : C.Inv) (hm : d.Meets C) : (devCentreRuntimeRestartDone d).Meets C := by
  unfold devCentreRuntimeRestartDone
  split
  · exact hm
  · refine meets_ite hm ?_
    extract_lets +onlyGivenNames b d₁ d₂
    have h₁ : d₁.Meets C := Dev.onSvc_inv hC hm
    have h₂ : d₂.Meets C := onTraverse_meets _ _ h₁
    exact meets_ite (travGo_meets _ hC h₂) (travEnd_meets _ hC.wide h₂)

theorem devTraverseCommit_meets {C : Claim} (c : CmdSlot) (d : Dev) (hC : C.Inv) (hm : d.Meets C) : (devTraverseCommit c d).Meets C := by
  unfold devTraverseCommit
  refine runChk_meets _ _ _ _ (fun _ _ h₁ => ?_) _ hC.wide hm
  extract_lets +onlyGivenNames v ok revoke
  exact meets_ite (finish_meets _ _ _ hC.wide h₁) (meets_ite (finish_meets _ _ _ hC.wide h₁) (finish_meets _ _ _ hC.wide
        (logIt_meets _ _ _ _ _ _ (storeWrite_meets _ _ (Dev.onSvc_inv hC h₁)))))

theorem devTraverseAbort_meets {C : Claim} (c : CmdSlot) (d : Dev) (hC : C.Inv) (hm : d.Meets C) : (devTraverseAbort c d).Meets C := by
  unfold devTraverseAbort
  refine runChk_meets _ _ _ _ (fun _ _ h₁ => ?_) _ hC.wide hm
  split
  · exact finishAt_meets _ _ _ _ hC.wide h₁
  · exact finish_meets _ _ _ hC.wide h₁
  · extract_lets +onlyGivenNames d₂ lead centre dies t d₃ d₄
    have h₂ : d₂.Meets C := by
      dsimp -zeta -iota -proj only [d₂]
      split
      · exact answerIf_meets _ _ _ _ _ hC.wide h₁
      · exact h₁
    have h₃ : d₃.Meets C := leave_meets _ _ _ hC.wide (Dev.onSvc_inv hC h₂)
    have h₄ : d₄.Meets C := logIt_meets _ _ _ _ _ _ h₃
    exact meets_ite h₄ (travGo_meets _ hC h₄)

theorem microcodeNext_meets {C : Claim} (d : Dev) (hC : C.Wide) (hm : d.Meets C) : (microcodeNext d).Meets C := by
  unfold microcodeNext
  split
  · exact hm
  · split
    · extract_lets +onlyGivenNames m
      clear_value m
      refine meets_ite (Dev.onSvc_meets hm rfl) ?_
      extract_lets +onlyGivenNames d₁
      have h₁ : d₁.Meets C := logIt_meets _ _ _ _ _ _ (Dev.onSvc_meets hm rfl)
      clear_value d₁
      split
      · exact answerIf_meets _ _ _ _ _ hC h₁
      · exact h₁

theorem devMicrocodeLoad_meets {C : Claim} (c : CmdSlot) (d : Dev) (hC : C.Wide) (hm : d.Meets C) : (devMicrocodeLoad c d).Meets C := by
  unfold devMicrocodeLoad
  refine runChk_meets _ _ _ _ (fun _ _ h₁ => meets_ite (finish_meets _ _ _ hC h₁) ?_) _ hC hm
  extract_lets +onlyGivenNames base
  exact microcodeNext_meets _ hC (leave_meets _ _ _ hC (Dev.onSvc_meets h₁ rfl))

theorem devMicrocodeUnitDrained_meets {C : Claim} (u : Nat) (d : Dev) (hC : C.Wide) (hm : d.Meets C) : (devMicrocodeUnitDrained u d).Meets C := by
  unfold devMicrocodeUnitDrained
  split
  · exact hm
  · refine meets_ite hm ?_
    extract_lets +onlyGivenNames ver dig
    exact microcodeNext_meets _ hC (Dev.onSvc_meets hm rfl)

theorem devMicrocodeDrainTimeout_meets {C : Claim} (u : Nat) (d : Dev) (hC : C.Wide) (hm : d.Meets C) : (devMicrocodeDrainTimeout u d).Meets C := by
  unfold devMicrocodeDrainTimeout
  split
  · exact hm
  · exact meets_ite hm (microcodeNext_meets _ hC (Dev.onSvc_meets hm rfl))

theorem devLogRead_meets {C : Claim} (c : CmdSlot) (d : Dev) (hC : C.Wide) (hm : d.Meets C) : (devLogRead c d).Meets C := by
  unfold devLogRead
  refine runChk_meets _ _ _ _ (fun _ _ h₁ => ?_) _ hC hm
  extract_lets +onlyGivenNames g oldest l
  exact finishRes_meets _ _ _ _ _ hC h₁

theorem clearLog_meets {C : Claim} (s : Side) (d : Dev) (hm : d.Meets C) : (clearLog s d).Meets C := by
  unfold clearLog
  exact logIt_meets _ _ _ _ _ _ (Dev.onSvc_meets hm rfl)

theorem devLogClear_meets {C : Claim} (c : CmdSlot) (d : Dev) (hC : C.Wide) (hm : d.Meets C) : (devLogClear c d).Meets C := by
  unfold devLogClear
  refine runChk_meets _ _ _ _ (fun _ _ h₁ => ?_) _ hC hm
  extract_lets +onlyGivenNames d₂
  have h₂ : d₂.Meets C := meets_ite (clearLog_meets _ _ h₁) h₁
  exact finish_meets _ _ _ hC (meets_ite (clearLog_meets _ _ h₂) h₂)

theorem devCounterSelect_meets {C : Claim} (c : CmdSlot) (d : Dev) (hC : C.Wide) (hm : d.Meets C) : (devCounterSelect c d).Meets C := by
  unfold devCounterSelect
  refine runChk_meets _ _ _ _ (fun _ _ h₁ => finish_meets _ _ _ hC (foldl_meets h₁ (fun _ _ h₂ => ?_))) _ hC hm
  extract_lets +onlyGivenNames n
  exact Dev.onSvc_meets h₂ rfl

theorem devCounterRead_meets {C : Claim} (c : CmdSlot) (d : Dev) (hC : C.Wide) (hm : d.Meets C) : (devCounterRead c d).Meets C := by
  unfold devCounterRead
  exact runChk_meets _ _ _ _ (fun _ _ h₁ => finishRes_meets _ _ _ _ _ hC h₁) _ hC hm

theorem lostObjects_meets {C : Claim} (t : Nat) (d : Dev) (hm : d.Meets C) : (lostObjects t d).Meets C := by
  unfold lostObjects
  extract_lets +onlyGivenNames qs cs d₁ d₂ d₃
  clear_value qs cs
  have h₁ : d₁.Meets C := by
    dsimp -zeta -iota -proj only [d₁]
    refine foldl_meets hm (fun _ _ h₅ => ?_)
    split
    · exact destroyQp_meets _ _ _ h₅
  clear_value d₁
  have h₂ : d₂.Meets C := by
    dsimp -zeta -iota -proj only [d₂]
    refine foldl_meets h₁ (fun _ _ h₇ => ?_)
    split
    · exact destroyCq_meets _ _ h₇
  have h₃ : d₃.Meets C := Dev.onQ_meets h₂
  clear_value d₂ d₃
  refine foldl_meets h₃ (fun _ _ h₉ => ?_)
  extract_lets +onlyGivenNames a b
  exact meets_ite h₉ (postEvent_meets _ _ _ _ _ _ h₉)

theorem lostOps_meets {C : Claim} (t : Nat) (d : Dev) (hC : C.Wide) (hm : d.Meets C) : (lostOps t d).Meets C := by
  unfold lostOps
  extract_lets +onlyGivenNames l
  exact foldl_meets hm (fun _ _ h₂ => opFail_meets _ _ _ _ hC h₂)

theorem devTileLost_meets {C : Claim} (t : Nat) (d : Dev) (hC : C.Wide) (hm : d.Meets C) : (devTileLost t d).Meets C := by
  unfold devTileLost
  refine meets_ite hm ?_
  extract_lets +onlyGivenNames d₁ d₂ d₃ d₄ d₅ d₆ d₇ d₈ d₉ d₁₀ d₁₁
  have h₁ : d₁.Meets C := Dev.onEng_meets hm
  have h₂ : d₂.Meets C := Dev.onFab_wide hC h₁
  have h₃ : d₃.Meets C := logIt_meets _ _ _ _ _ _ h₂
  have h₄ : d₄.Meets C := lostOps_meets _ _ hC h₃
  have h₅ : d₅.Meets C := resetRopes_meets _ _ h₄
  have h₆ : d₆.Meets C := lostObjects_meets _ _ h₅
  have h₇ : d₇.Meets C := foldl_meets h₆ (fun _ _ h₁₂ => stackLost_meets _ _ _ hC h₁₂)
  have h₈ : d₈.Meets C := portDown_meets _ _ hC (portDown_meets _ _ hC h₇)
  have h₉ : d₉.Meets C := Dev.onCiph_wide hC h₈
  have h₁₀ : d₁₀.Meets C := foldl_meets h₉ (fun _ _ h₁₃ => ackTile_meets _ _ _ hC h₁₃)
  have h₁₁ : d₁₁.Meets C := Dev.onXlt_meets h₁₀
  exact segmentDown_meets _ _ hC (windowsEnd_meets _ hC (replSettle_meets _ hC h₁₁))

/-! ### Operations of Spdm -/

theorem drawWords_meets {C : Claim} (n : Nat) (d : Dev) (hm : d.Meets C) : (drawWords n d).2.Meets C := by
  induction n generalizing d with
  | zero => exact hm
  | succ n ih => exact ih _ (takeFree_meets _ (drbgDraw_meets _ _ _ hm))

theorem spdmSign_meets {C : Claim} (msg : Bytes) (b : Bytes) (d : Dev) (hm : d.Meets C) : (spdmSign msg b d).2.Meets C := by
  unfold spdmSign
  split
  · exact Dev.Meets.paired (.of_pair (by assumption) (drawWords_meets _ _ hm))

theorem spdmChallenge_meets {C : Claim} (ver : Nat) (msg : Bytes) (d : Dev) (hm : d.Meets C) : (spdmChallenge ver msg d).2.Meets C := by
  unfold spdmChallenge
  split
  · exact hm
  · split
    · exact hm
    · split
      · extract_lets +onlyGivenNames sum
        exact spdmSign_meets _ _ _ (.of_pair (by assumption) (drawWords_meets _ _ hm))

theorem spdmMeasurements_meets {C : Claim} (ver : Nat) (msg : Bytes) (d : Dev) (hm : d.Meets C) : (spdmMeasurements ver msg d).2.Meets C := by
  unfold spdmMeasurements
  extract_lets +onlyGivenNames op signed
  clear_value op signed
  split
  · exact hm
  · split
    · exact hm
    · extract_lets +onlyGivenNames l n
      clear_value l n
      split
      · extract_lets +onlyGivenNames b
        clear_value b
        split
        · exact spdmSign_meets _ _ _ (.of_pair (by assumption) (drawWords_meets _ _ hm))
        · exact Dev.Meets.paired (.of_pair (by assumption) (drawWords_meets _ _ hm))

theorem spdmAnswer_meets {C : Claim} (req : SpdmReq) (msg : Bytes) (d : Dev) (hm : d.Meets C) : (spdmAnswer req msg d).2.Meets C := by
  unfold spdmAnswer
  extract_lets +onlyGivenNames ver
  clear_value ver
  split
  · exact hm
  · exact hm
  · exact hm
  · exact hm
  · exact hm
  · exact spdmChallenge_meets _ _ _ hm
  · exact spdmMeasurements_meets _ _ _ hm
  · exact hm

theorem devSpdm_meets {C : Claim} (route : SpdmRoute) (req : SpdmReq) (msg : Bytes) (d : Dev) (hm : d.Meets C) :
    (devSpdm route req msg d).Meets C := by
  unfold devSpdm
  extract_lets busy up
  refine meets_ite hm ?_
  have hanswer : (if busy = true then (spdmError (u8 msg 0) speBusy 0, d) else spdmAnswer req msg d).2.Meets C := by
    split <;> [exact hm; exact spdmAnswer_meets _ _ _ hm]
  split
  next he =>
    split
    · exact emit_meets _ _ (.of_pair he hanswer)
    · exact emit_meets _ _ (.of_pair he hanswer)

/-! ### Operations of Registers -/

theorem RegWrite.both_meets {C : Claim} (w : RegWrite) (f : Nat → BitVec 32 → Dev → Dev) (hf : ∀ a₀ a₁ a₂, a₂.Meets C → (f a₀ a₁ a₂).Meets C)
    (d : Dev) (hm : d.Meets C) : (RegWrite.both w f d).Meets C := by
  unfold RegWrite.both
  extract_lets +onlyGivenNames d₁
  have h₁ : d₁.Meets C := by
    dsimp -zeta -iota -proj only [d₁]
    split
    · exact hf _ _ _ hm
    · exact hm
  clear_value d₁
  split
  · exact hf _ _ _ h₁
  · exact h₁

theorem writeDev_meets {C : Claim} (off : Nat) (v : BitVec 32) (d : Dev) (hm : d.Meets C) : (writeDev off v d).Meets C := by
  unfold writeDev
  exact meets_ite (Dev.onHost_meets hm rfl) (meets_ite (Dev.onHost_meets hm rfl) (meets_ite (Dev.onStk_meets _ _ _ hm) hm))

theorem writeHasp_meets {C : Claim} (p : Side) (off : Nat) (w : RegWrite) (d : Dev)
    (hC : C.Inv) (hm : d.Meets C) : (writeHasp p off w d).Meets C := by
  unfold writeHasp
  extract_lets +onlyGivenNames n
  clear_value n
  refine meets_ite hm (meets_ite (haspMisuse_meets _ _ hm) (meets_ite ?_ hm))
  split
  · extract_lets +onlyGivenNames t a
    exact meets_ite (devHaspAcquire_meets _ _ _ _ hC hm) (meets_ite (devHaspRelease_meets _ _ _ _ hC hm) (haspMisuse_meets _ _ hm))
  · exact hm

theorem mbxClear_meets {C : Claim} (snd : Bool) (rcv : Bool) (v : BitVec 32) (k : Nat) (d : Dev)
    (hm : d.Meets C) : (mbxClear snd rcv v k d).Meets C := by
  unfold mbxClear
  exact Dev.onMbx_meets _ _ _ hm

theorem writeMbx_meets {C : Claim} (p : Side) (off : Nat) (w : RegWrite) (d : Dev) (hm : d.Meets C) : (writeMbx p off w d).Meets C := by
  unfold writeMbx
  extract_lets +onlyGivenNames k
  clear_value k
  refine meets_ite hm ?_
  extract_lets +onlyGivenNames snd rcv
  exact meets_ite (hostWrongPort_meets _ _ hm) (meets_ite (meets_ite (hostWrongPort_meets _ _ hm) (meets_ite (devMbxDataWrite_meets _ _ _ _ hm)
        (Dev.onMbx_meets _ _ _ hm))) (meets_ite (RegWrite.both_meets _ _ (fun _ _ _ h₂ => meets_ite (meets_ite (hostWrongPort_meets _ _ h₂)
        (meets_ite (devWithdraw_meets _ _ _ h₂) h₂)) (mbxClear_meets _ _ _ _ _ h₂)) _ hm) hm))

theorem writeRing_meets {C : Claim} (p : Side) (g : Side) (k : Nat) (o : Nat) (w : RegWrite) (d : Dev)
    (hC : C.Wide) (hm : d.Meets C) : (writeRing p g k o w d).Meets C := by
  unfold writeRing
  exact meets_ite (hostWrongPort_meets _ _ hm) (meets_ite (Dev.onRing_meets _ _ _ _ hC hm) (meets_ite (Dev.onRing_meets _ _ _ _ hC hm)
        (RegWrite.both_meets _ _ (fun _ _ _ h₁ => meets_ite (meets_ite (devCmdRingEnable_meets _ _ _ _ _ hC h₁)
        (devCmdRingDisable_meets _ _ _ _ _ hC h₁)) (meets_ite (devCmdRingProdWrite_meets _ _ _ _ _ hC h₁) (meets_ite
        (Dev.onRing_meets _ _ _ _ hC h₁) h₁))) _ hm)))

theorem writePwr_meets {C : Claim} (off : Nat) (v : BitVec 32) (d : Dev) (hC : C.Wide) (hm : d.Meets C) : (writePwr off v d).Meets C := by
  unfold writePwr
  exact meets_ite (Dev.onPwr_wide hC hm rfl rfl rfl rfl rfl) hm

theorem writeRst_meets {C : Claim} (p : Side) (off : Nat) (v : BitVec 32) (d : Dev) (hC : C.Inv) (hm : d.Meets C) : (writeRst p off v d).Meets C := by
  unfold writeRst
  exact meets_ite (needHasp_meets _ _ _ _ (fun _ h₁ => meets_ite (warmReset_meets _ _ hC h₁) h₁) _ hm) hm

theorem writeEvc_meets {C : Claim} (p : Side) (off : Nat) (w : RegWrite) (d : Dev) (hm : d.Meets C) : (writeEvc p off w d).Meets C := by
  unfold writeEvc
  refine meets_ite hm ?_
  extract_lets +onlyGivenNames k
  exact needHasp_meets _ _ _ _ (fun _ h₂ => Dev.onSvc_meets h₂ rfl) _ hm

theorem writeLegacy_meets {C : Claim} (off : Nat) (v : BitVec 32) (d : Dev) (hC : C.Wide) (hm : d.Meets C) : (writeLegacy off v d).Meets C := by
  unfold writeLegacy
  refine meets_ite ?_ hm
  extract_lets +onlyGivenNames d₁
  have h₁ : d₁.Meets C := onLegacy_meets _ _ hC hm
  exact meets_ite (devCapture_meets _ hC h₁) h₁

theorem writeCiph_meets {C : Claim} (p : Side) (off : Nat) (w : RegWrite) (d : Dev)
    (hC : C.Wide) (hm : d.Meets C) : (writeCiph p off w d).Meets C := by
  unfold writeCiph
  extract_lets +onlyGivenNames a
  clear_value a
  refine meets_ite (meets_ite (latchDenied_meets _ _ hm) (Dev.onCiph_wide hC hm)) (RegWrite.both_meets _ _ (fun _ _ _ h₂ => ?_) _ hm)
  extract_lets +onlyGivenNames o
  clear_value o
  refine meets_ite ?_ (meets_ite (meets_ite (devCiphJobEnable_meets _ _ _ hC h₂) (devCiphJobDisable_meets _ _ _ h₂)) (meets_ite
        (devCiphJobProdWrite_meets _ _ _ hC h₂) (meets_ite (Dev.onCiph_wide hC h₂) (meets_ite (needHasp_meets _ _ _ _
        (fun _ h₄ => Dev.onCiph_wide hC h₄) _ h₂) h₂))))
  extract_lets +onlyGivenNames t x
  exact meets_ite (devLatchAcquire_meets _ _ _ hC h₂) (meets_ite (devLatchRelease_meets _ _ _ hC h₂) (haspMisuse_meets _ _ h₂))

theorem writeXlt_meets {C : Claim} (p : Side) (g : Side) (o : Nat) (w : RegWrite) (d : Dev) (hm : d.Meets C) : (writeXlt p g o w d).Meets C := by
  unfold writeXlt
  refine meets_ite (hostWrongPort_meets _ _ hm) (meets_ite (Dev.onXPort_meets _ _ _ hm) (RegWrite.both_meets _ _ (fun _ _ _ h₁ => ?_) _ hm))
  extract_lets +onlyGivenNames o₂
  exact meets_ite (meets_ite (devXltCairnEnable_meets _ _ _ _ h₁) (devXltCairnDisable_meets _ _ _ _ h₁)) (meets_ite
        (devXltCairnConsWrite_meets _ _ _ _ h₁) (meets_ite (Dev.onXPort_meets _ _ _ h₁) (meets_ite (Dev.onXPort_meets _ _ _ h₁) h₁)))

theorem writePage_meets {C : Claim} (p : Side) (requester : BitVec 16) (n : Nat) (o : Nat) (w : RegWrite) (d : Dev)
    (hC : C.Wide) (hm : d.Meets C) : (writePage p requester n o w d).Meets C := by
  unfold writePage
  split
  · exact hostWrongPort_meets _ _ hm
  · refine meets_ite hm (meets_ite (meets_ite (devBell_meets _ _ _ _ _ _ _ _ hC hm) (violate_meets _ _ _ _ (bellReject_meets _ _ hm)))
        (meets_ite ?_ hm))
    split
    · exact Dev.onTen_meets _ _ _ hm
    · exact hm

theorem writeMsix_meets {C : Claim} (p : Side) (off : Nat) (w : RegWrite) (d : Dev) (hm : d.Meets C) : (writeMsix p off w d).Meets C := by
  unfold writeMsix
  refine meets_ite hm ?_
  extract_lets +onlyGivenNames k e e₁
  exact msixFlush_meets _ _ (Dev.onHost_meets hm rfl)

theorem writeBlock_meets {C : Claim} (p : Side) (requester : BitVec 16) (off : Nat) (w : RegWrite) (d : Dev)
    (hC : C.Inv) (hm : d.Meets C) : (writeBlock p requester off w d).Meets C := by
  unfold writeBlock
  refine meets_ite (RegWrite.both_meets _ _ (fun _ _ _ h₁ => writeDev_meets _ _ _ h₁) _ hm) (meets_ite (writeHasp_meets _ _ _ _ hC hm)
        (meets_ite (writeMbx_meets _ _ _ _ hm) (meets_ite ?_ (meets_ite (RegWrite.both_meets _ _
        (fun _ _ _ h₂ => writePwr_meets _ _ _ hC.wide h₂) _ hm) (meets_ite hm (meets_ite (RegWrite.both_meets _ _
        (fun _ _ _ h₃ => writeRst_meets _ _ _ _ hC h₃) _ hm) (meets_ite (writeEvc_meets _ _ _ _ hm) (meets_ite hm (meets_ite
        (RegWrite.both_meets _ _ (fun _ _ _ h₄ => writeLegacy_meets _ _ _ hC.wide h₄) _ hm) (meets_ite (writeCiph_meets _ _ _ _ hC.wide hm)
        (meets_ite hm (meets_ite ?_ (meets_ite (writePage_meets _ _ _ _ _ _ hC.wide hm) (writeMsix_meets _ _ _ _ hm))))))))))))))
  · split
    · exact writeRing_meets _ _ _ _ _ _ hC.wide hm
    · exact hm
  · split
    · exact writeXlt_meets _ _ _ _ _ hm
    · exact hm

theorem unmapped_meets {C : Claim} (p : Side) (off : Nat) (d : Dev) (hm : d.Meets C) : (unmapped p off d).Meets C := by
  unfold unmapped
  exact logFirst60_meets _ _ _ _ _ _ _ (violate_meets _ _ _ _ hm)

theorem dieAccess_meets {C : Claim} (r : DieAccess) (k : Nat) (f : Dev → Dev) (hf : ∀ a₀, a₀.Meets C → (f a₀).Meets C) (d : Dev)
    (hm : d.Meets C) : (dieAccess r k f d).Meets C := by
  unfold dieAccess
  exact toBase_meets _ _ _ (fun _ h₁ => hf _ h₁) _ hm

theorem regRead_meets {C : Claim} (a : Agent) (p : Side) (off : Nat) (size : Nat) (d : Dev)
    (hm : d.Meets C) : (regRead a p off size d).2.Meets C := by
  unfold regRead
  split
  · split
    · exact Dev.Meets.paired (.of_pair (by assumption) (mbxTake_meets _ _ _ hm))
  · exact hm

theorem busRead_meets {C : Claim} (a : Agent) (off : Nat) (size : Nat) (d : Dev) (hm : d.Meets C) : (busRead a off size d).Meets C := by
  unfold busRead
  split
  · refine meets_ite hm ?_
    split
    · exact answerRead_meets _ _ _ (.of_pair (by assumption) (regRead_meets _ _ _ _ _ hm))
  · refine meets_ite hm (meets_ite (emit_meets _ _ (badAccess_meets _ _ hm)) (meets_ite (answerRead_meets _ _ _ (unmapped_meets _ _ _ hm)) ?_))
    split
    · exact answerRead_meets _ _ _ (.of_pair (by assumption) (regRead_meets _ _ _ _ _ hm))

theorem devMbxDataRead_meets {C : Claim} (a : Agent) (r : RegAt) (d : Dev) (hm : d.Meets C) : (devMbxDataRead a r d).Meets C := by
  unfold devMbxDataRead
  split
  · exact meets_ite (busRead_meets _ _ _ _ hm) (dieAccess_meets _ _ _ (fun _ h₁ => busRead_meets _ _ _ _ h₁) _ hm)
  · exact busRead_meets _ _ _ _ hm

theorem writeBytes_meets {C : Claim} (p : Side) (requester : BitVec 16) (off : Nat) (size : Nat) (v : BitVec 64) (d : Dev)
    (hC : C.Inv) (hm : d.Meets C) : (writeBytes p requester off size v d).Meets C := by
  unfold writeBytes
  refine meets_ite (writeBlock_meets _ _ _ _ _ hC hm) ?_
  extract_lets +onlyGivenNames lo
  exact meets_ite (writeBlock_meets _ _ _ _ _ hC hm) (writeBlock_meets _ _ _ _ _ hC hm)

theorem barWrite_meets {C : Claim} (p : Side) (off : Nat) (size : Nat) (v : BitVec 64) (requester : BitVec 16) (d : Dev)
    (hC : C.Inv) (hm : d.Meets C) : (barWrite p off size v requester d).Meets C := by
  unfold barWrite
  refine meets_ite hm (meets_ite (badAccess_meets _ _ hm) (meets_ite (unmapped_meets _ _ _ hm) ?_))
  split
  · exact dieAccess_meets _ _ _ (fun _ h₁ => writeBytes_meets _ _ _ _ _ _ hC h₁) _ hm
  · exact writeBytes_meets _ _ _ _ _ _ hC hm

theorem dieMbxWrite_meets {C : Claim} (s : Side) (off : Nat) (v : BitVec 32) (d : Dev) (hm : d.Meets C) : (dieMbxWrite s off v d).Meets C := by
  unfold dieMbxWrite
  extract_lets +onlyGivenNames k
  exact meets_ite hm (meets_ite (mbxClear_meets _ _ _ _ _ hm) (meets_ite (devWithdraw_meets _ _ _ hm) hm))

theorem configWrite_meets {C : Claim} (p : Side) (r : ConfigReg) (v : Nat) (d : Dev) (hm : d.Meets C) : (configWrite p r v d).Meets C := by
  unfold configWrite
  extract_lets +onlyGivenNames x aer put size
  have h₃ : ∀ a₁ a₂, Dev.Meets C (x a₁ a₂) := fun _ _ => meets_ite (Dev.onHost_meets hm rfl) hm
  have h₅ : ∀ a₄, Dev.Meets C (aer a₄) := fun _ => Dev.onHost_meets hm rfl
  clear_value x aer size
  split
  · exact h₃ _ _
  · exact h₃ _ _
  · exact h₃ _ _
  · exact h₃ _ _
  · exact h₃ _ _
  · exact h₃ _ _
  · exact Dev.onHost_meets hm rfl
  · exact priSend_meets _ _ (Dev.onHost_meets hm rfl)
  · exact meets_ite (devMsiXUnmask_meets _ _ _ hm) (Dev.onHost_meets hm rfl)
  · exact h₅ _
  · exact h₅ _

theorem malformedTlp_meets {C : Claim} (p : Side) (e : AerError) (d : Dev) (hm : d.Meets C) : (malformedTlp p e d).Meets C := by
  unfold malformedTlp
  extract_lets +onlyGivenNames a d₁
  have h₁ : d₁.Meets C := aerLog_meets _ _ _ hm
  exact meets_ite h₁ (emit_meets _ _ h₁)

theorem devRegisterWrite_meets {C : Claim} (w : RegWriter) (off : Nat) (size : Nat) (v : BitVec 64) (requester : BitVec 16) (d : Dev)
    (hC : C.Inv) (hm : d.Meets C) : (devRegisterWrite w off size v requester d).Meets C := by
  unfold devRegisterWrite
  split
  · exact barWrite_meets _ _ _ _ _ _ hC hm
  · exact dieMbxWrite_meets _ _ _ _ hm
  · exact configWrite_meets _ _ _ _ hm
  · exact malformedTlp_meets _ _ _ hm

/-! ### Operations of Fabric -/

theorem crossOne_meets {C : Claim} (a : Arrived) (d : Dev) (hC : C.Inv) (hm : d.Meets C) : (crossOne a d).Meets C := by
  unfold crossOne
  split
  · split
    · exact barWrite_meets _ _ _ _ _ _ hC hm
    · exact devMbxDataRead_meets _ _ _ hm
  · exact toBase_meets _ _ _ (fun _ h₁ => Dev.onFab_wide hC.wide h₁) _ hm
  · exact applyArrived_meets _ _ hC.wide hm

theorem crossAll_meets {C : Claim} (d : Dev) (hC : C.Inv) (hm : d.Meets C) : (crossAll d).Meets C := by
  unfold crossAll
  exact foldl_meets (Dev.onFab_wide hC.wide hm) (fun _ _ h₁ => crossOne_meets _ _ hC h₁)

theorem hostMoves_meets {C : Claim} (d : Dev) (hC : C.Wide) (hm : d.Meets C) : (hostMoves d).Meets C := by
  unfold hostMoves
  extract_lets +onlyGivenNames d₁
  have h₁ : d₁.Meets C := sendHeldReads_meets _ _ (sendHeldReads_meets _ _ hm)
  clear_value d₁
  refine foldl_meets h₁ (fun _ _ h₃ => ?_)
  split
  · exact cqDrain_meets _ _ hC h₃

theorem stackMoves_meets {C : Claim} (d : Dev) (hC : C.Wide) (hm : d.Meets C) : (stackMoves d).Meets C := by
  unfold stackMoves
  exact foldl_meets hm (fun _ _ h₁ => meets_ite h₁ (serveWaiting_meets _ _ hC h₁))

theorem fabricMoves_meets {C : Claim} (d : Dev) (hC : C.Inv) (hm : d.Meets C) : (fabricMoves d).Meets C := by
  unfold fabricMoves
  exact stackMoves_meets _ hC.wide (hostMoves_meets _ hC.wide (crossAll_meets _ hC (Dev.onFab_wide hC.wide hm)))

theorem unitOut_meets {C : Claim} {q : QueueId} {d e : Dev} (he : unitOut q d = some e) (hC : C.Wide) (hm : d.Meets C) : e.Meets C := by
  unfold unitOut at he
  extract_lets c room at he
  split at he <;> cases he
  exact Dev.onFab_wide hC hm

theorem heldSend1_meets {C : Claim} (q : QueueId) (d : Dev) (hC : C.Wide) (hm : d.Meets C) : (heldSend1 q d).Meets C := by
  unfold heldSend1
  extract_lets c
  refine meets_ite hm ?_
  cases hout : unitOut q (d.onFab fun f => setQueue f { c with held := c.held - 1 }) with
  | none => exact hm
  | some e => exact unitOut_meets hout hC (Dev.onFab_wide hC hm)

theorem heldSend_meets {C : Claim} (q : QueueId) (d : Dev) (hC : C.Wide) (hm : d.Meets C) : (heldSend q d).Meets C := by
  unfold heldSend
  exact meets_ite hm (iter_meets hm (fun _ h₁ => heldSend1_meets _ _ hC h₁))

theorem devCreditQueueSend_meets {C : Claim} (q : QueueId) (d : Dev) (hC : C.Wide) (hm : d.Meets C) : (devCreditQueueSend q d).Meets C := by
  unfold devCreditQueueSend
  split
  · exact meets_ite (Dev.onFab_wide hC hm) hm
  · refine meets_ite hm ?_
    extract_lets c hold
    have hhold : hold.Meets C := Dev.onFab_wide hC hm
    refine meets_ite ?_ hhold
    cases hout : unitOut q d with
    | none => exact hhold
    | some e => exact unitOut_meets hout hC hm

theorem devCreditReturn_meets {C : Claim} (q : QueueId) (d : Dev) (hC : C.Inv) (hm : d.Meets C) : (devCreditReturn q d).Meets C := by
  unfold devCreditReturn
  extract_lets +onlyGivenNames c
  clear_value c
  split
  · exact hm
  · refine meets_ite hm ?_
    extract_lets +onlyGivenNames gone place
    clear_value place
    split
    · exact hm
    · exact fabricMoves_meets _ hC (heldSend_meets _ _ hC.wide (Dev.onFab_wide hC.wide hm))
    · exact meets_ite (fabricMoves_meets _ hC (heldSend_meets _ _ hC.wide (Dev.onFab_wide hC.wide hm))) (meets_ite (fabricMoves_meets _ hC
          (heldSend_meets _ _ hC.wide (Dev.onFab_wide hC.wide hm))) hm)

theorem devCreditStall_meets {C : Claim} (q : QueueId) (d : Dev) (hC : C.Wide) (hm : d.Meets C) : (devCreditStall q d).Meets C := by
  unfold devCreditStall
  extract_lets +onlyGivenNames c quiet
  clear_value c quiet
  refine meets_ite hm ?_
  split
  · extract_lets +onlyGivenNames first d₁
    have h₁ : d₁.Meets C := logIt_meets _ _ _ _ _ _ (count_meets _ _ _ _ _ hm)
    exact Dev.onFab_wide hC h₁

theorem devCreditQueueReady_meets {C : Claim} (q : QueueId) (d : Dev) (hC : C.Inv) (hm : d.Meets C) : (devCreditQueueReady q d).Meets C := by
  unfold devCreditQueueReady
  extract_lets +onlyGivenNames c
  exact meets_ite hm (fabricMoves_meets _ hC (heldSend_meets _ _ hC.wide (Dev.onFab_wide hC.wide hm)))

theorem devSegmentUp_meets {C : Claim} (n : Nat) (d : Dev) (hC : C.Inv) (hm : d.Meets C) : (devSegmentUp n d).Meets C := by
  unfold devSegmentUp
  exact meets_ite (fabricMoves_meets _ hC (Dev.onFab_wide hC.wide hm)) hm

theorem devIntraHalfLinkDown_meets {C : Claim} (a : Nat) (b : Nat) (d : Dev)
    (hC : C.Inv) (hm : d.Meets C) : (devIntraHalfLinkDown a b d).Meets C := by
  unfold devIntraHalfLinkDown
  exact meets_ite (fabricMoves_meets _ hC (Dev.onFab_wide hC.wide hm)) hm

/-! ### Operations of Tick -/

theorem tick_meets {C : Claim} (d : Dev) (hC : C.Inv) (hm : d.Meets C) : (tick d).Meets C := by
  unfold tick
  refine meets_ite ?_ hm
  extract_lets t held c
  have hc : c.dies = d.ctl.dies ∧ c.hasps = d.ctl.hasps := by
    dsimp only [c]
    split <;> exact ⟨rfl, rfl⟩
  exact openedAll_meets _ (coresTick_meets _ hC.wide (hm.of_inv hC rfl rfl rfl rfl (fun _ hk => hc.1 ▸ hk) hc.2))

end Sys2Proof.Machine
end

section
/-! SUPPORT. Every step keeps device memory canonical and the power limits, and leadership where no bank verifies; what a release leaves alone. -/

namespace Sys2Proof.Machine

/-! ### A step keeps an invariant -/

theorem onDev_meets {C : Claim} {s t : State} {f : Dev → Dev} (hm : (f s.dev).Meets C) (he : onDev s f = .next t) : t.dev.Meets C := by
  cases he
  exact hm

/-- Every row keeps the invariants that a power-on keeps: each is its operation's lemma, under the condition on the rails that the row puts. -/
theorem exec_meets {C : Claim} {c : Instr} {s t : State} (hB : C.Boots) (hm : s.dev.Meets C) (he : exec c s = .next t) : t.dev.Meets C := by
  have hC := hB.inv
  cases c with
  | deviceInfo _ => exact onDev_meets (live_meets _ (fun _ h₁ => devDeviceInfo_meets _ _ hC.wide h₁) _ hm) he
  | envCheck _ _ => exact onDev_meets (live_meets _ (fun _ h₁ => devEnvCheck_meets _ _ _ hC.wide h₁) _ hm) he
  | halfReset _ => exact onDev_meets (liveQ_meets _ (fun _ h₁ => devHalfReset_meets _ _ hC h₁) _ hm) he
  | powerState _ => exact onDev_meets (live_meets _ (fun _ h₁ => devPowerState_meets _ _ hC.wide h₁) _ hm) he
  | setPowerLimit _ => exact onDev_meets (live_meets _ (fun _ h₁ => devSetPowerLimit_meets _ _ hC h₁) _ hm) he
  | tenantCreate _ => exact onDev_meets (live_meets _ (fun _ h₁ => devTenantCreate_meets _ _ hC.wide h₁) _ hm) he
  | tenantDestroy _ _ => exact onDev_meets (liveQ_meets _ (fun _ h₁ => devTenantDestroy_meets _ _ _ hC.wide h₁) _ hm) he
  | tenantReset _ => exact onDev_meets (liveQ_meets _ (fun _ h₁ => devTenantReset_meets _ _ hC.wide h₁) _ hm) he
  | tenantFreeze _ => exact onDev_meets (liveQ_meets _ (fun _ h₁ => devTenantFreeze_meets _ _ hC.wide h₁) _ hm) he
  | tenantSave _ => exact onDev_meets (live_meets _ (fun _ h₁ => devTenantSave_meets _ _ hC.wide h₁) _ hm) he
  | tenantRestore _ _ _ => exact onDev_meets (live_meets _ (fun _ h₁ => devTenantRestore_meets _ _ _ _ hC.wide h₁) _ hm) he
  | tenantThaw _ => exact onDev_meets (liveQ_meets _ (fun _ h₁ => devTenantThaw_meets _ _ hC.wide h₁) _ hm) he
  | tenantQuery _ => exact onDev_meets (live_meets _ (fun _ h₁ => devTenantQuery_meets _ _ hC.wide h₁) _ hm) he
  | memAlloc _ => exact onDev_meets (live_meets _ (fun _ h₁ => devMemAlloc_meets _ _ hC.wide h₁) _ hm) he
  | memFree _ => exact onDev_meets (live_meets _ (fun _ h₁ => devMemFree_meets _ _ hC.wide h₁) _ hm) he
  | mapRange _ => exact onDev_meets (live_meets _ (fun _ h₁ => devMapRange_meets _ _ hC.wide h₁) _ hm) he
  | unmapRange _ => exact onDev_meets (live_meets _ (fun _ h₁ => devUnmapRange_meets _ _ hC.wide h₁) _ hm) he
  | cairnResolve _ => exact onDev_meets (liveQ_meets _ (fun _ h₁ => devCairnResolve_meets _ _ hC.wide h₁) _ hm) he
  | retireQuery _ => exact onDev_meets (live_meets _ (fun _ h₁ => devRetireQuery_meets _ _ hC.wide h₁) _ hm) he
  | windowOpen _ => exact onDev_meets (live_meets _ (fun _ h₁ => devWindowOpen_meets _ _ hC.wide h₁) _ hm) he
  | windowRevoke _ => exact onDev_meets (live_meets _ (fun _ h₁ => devWindowRevoke_meets _ _ hC.wide h₁) _ hm) he
  | windowQuery _ => exact onDev_meets (live_meets _ (fun _ h₁ => devWindowQuery_meets _ _ hC.wide h₁) _ hm) he
  | qpCreate _ => exact onDev_meets (live_meets _ (fun _ h₁ => devQpCreate_meets _ _ hC.wide h₁) _ hm) he
  | qpModify _ => exact onDev_meets (liveQ_meets _ (fun _ h₁ => devQpModify_meets _ _ hC.wide h₁) _ hm) he
  | qpDestroy _ => exact onDev_meets (live_meets _ (fun _ h₁ => devQpDestroy_meets _ _ hC.wide h₁) _ hm) he
  | cqCreate _ => exact onDev_meets (live_meets _ (fun _ h₁ => devCqCreate_meets _ _ hC.wide h₁) _ hm) he
  | cqDestroy _ => exact onDev_meets (live_meets _ (fun _ h₁ => devCqDestroy_meets _ _ hC.wide h₁) _ hm) he
  | pathSet _ => exact onDev_meets (live_meets _ (fun _ h₁ => devPathSet_meets _ _ hC.wide h₁) _ hm) he
  | ccProfileSet _ => exact onDev_meets (live_meets _ (fun _ h₁ => devCcProfileSet_meets _ _ hC.wide h₁) _ hm) he
  | ropeCreate _ => exact onDev_meets (live_meets _ (fun _ h₁ => devRopeCreate_meets _ _ hC.wide h₁) _ hm) he
  | ropeDestroy _ => exact onDev_meets (liveQ_meets _ (fun _ h₁ => devRopeDestroy_meets _ _ hC.wide h₁) _ hm) he
  | ropeQuery _ => exact onDev_meets (live_meets _ (fun _ h₁ => devRopeQuery_meets _ _ hC.wide h₁) _ hm) he
  | shaperSet _ => exact onDev_meets (live_meets _ (fun _ h₁ => devShaperSet_meets _ _ hC.wide h₁) _ hm) he
  | meterSet _ => exact onDev_meets (live_meets _ (fun _ h₁ => devMeterSet_meets _ _ hC.wide h₁) _ hm) he
  | gateListSet _ => exact onDev_meets (live_meets _ (fun _ h₁ => devGateListSet_meets _ _ hC.wide h₁) _ hm) he
  | nodeTableWrite _ => exact onDev_meets (live_meets _ (fun _ h₁ => devNodeTableWrite_meets _ _ hC.wide h₁) _ hm) he
  | linkControl _ => exact onDev_meets (liveQ_meets _ (fun _ h₁ => devLinkControl_meets _ _ hC.wide h₁) _ hm) he
  | laneRecal _ => exact onDev_meets (liveQ_meets _ (fun _ h₁ => devLaneRecal_meets _ _ hC.wide h₁) _ hm) he
  | keyLoad _ => exact onDev_meets (live_meets _ (fun _ h₁ => devKeyLoad_meets _ _ hC.wide h₁) _ hm) he
  | keyErase _ => exact onDev_meets (liveQ_meets _ (fun _ h₁ => devKeyErase_meets _ _ hC.wide h₁) _ hm) he
  | imageStage _ _ => exact onDev_meets (live_meets _ (fun _ h₁ => devImageStage_meets _ _ _ hC h₁) _ hm) he
  | imageVerify _ => exact onDev_meets (live_meets _ (fun _ h₁ => devImageVerify_meets _ _ hC.wide h₁) _ hm) he
  | traverseBegin _ => exact onDev_meets (live_meets _ (fun _ h₁ => devTraverseBegin_meets _ _ hC h₁) _ hm) he
  | traverseCommit _ => exact onDev_meets (live_meets _ (fun _ h₁ => devTraverseCommit_meets _ _ hC h₁) _ hm) he
  | traverseAbort _ => exact onDev_meets (live_meets _ (fun _ h₁ => devTraverseAbort_meets _ _ hC h₁) _ hm) he
  | microcodeLoad _ => exact onDev_meets (live_meets _ (fun _ h₁ => devMicrocodeLoad_meets _ _ hC.wide h₁) _ hm) he
  | counterSelect _ => exact onDev_meets (live_meets _ (fun _ h₁ => devCounterSelect_meets _ _ hC.wide h₁) _ hm) he
  | counterRead _ => exact onDev_meets (live_meets _ (fun _ h₁ => devCounterRead_meets _ _ hC.wide h₁) _ hm) he
  | logRead _ => exact onDev_meets (live_meets _ (fun _ h₁ => devLogRead_meets _ _ hC.wide h₁) _ hm) he
  | logClear _ => exact onDev_meets (live_meets _ (fun _ h₁ => devLogClear_meets _ _ hC.wide h₁) _ hm) he
  | identityGet _ => exact onDev_meets (live_meets _ (fun _ h₁ => devIdentityGet_meets _ _ hC.wide h₁) _ hm) he
  | recordLoad _ _ => exact onDev_meets (liveQ_meets _ (fun _ h₁ => devRecordLoad_meets _ _ _ hC h₁) _ hm) he
  | cmdRingProdWrite _ _ _ _ => exact onDev_meets (live_meets _ (fun _ h₁ => devCmdRingProdWrite_meets _ _ _ _ _ hC.wide h₁) _ hm) he
  | cmdRingEnable _ _ _ _ => exact onDev_meets (live_meets _ (fun _ h₁ => devCmdRingEnable_meets _ _ _ _ _ hC.wide h₁) _ hm) he
  | cmdRingDisable _ _ _ _ => exact onDev_meets (live_meets _ (fun _ h₁ => devCmdRingDisable_meets _ _ _ _ _ hC.wide h₁) _ hm) he
  | commandFetch _ => exact onDev_meets (live_meets _ (fun _ h₁ => devCommandFetch_meets _ _ hC.wide h₁) _ hm) he
  | commandBegin _ => exact onDev_meets (live_meets _ (fun _ h₁ => devCommandBegin_meets _ _ hC h₁) _ hm) he
  | commandDeadline _ => exact onDev_meets (live_meets _ (fun _ h₁ => devCommandDeadline_meets _ _ hC.wide h₁) _ hm) he
  | sidebandRequest _ => exact onDev_meets (live_meets _ (fun _ h₁ => devSidebandRequest_meets _ _ h₁) _ hm) he
  | leaseRenewal  => exact onDev_meets (live_meets _ (fun _ h₁ => devLeaseRenewal_meets _ hC h₁) _ hm) he
  | leaseExpiry  => exact onDev_meets (live_meets _ (fun _ h₁ => devLeaseExpiry_meets _ hC h₁) _ hm) he
  | controlDieStart _ => exact onDev_meets (live_meets _ (fun _ h₁ => devControlDieStart_meets _ _ hC h₁) _ hm) he
  | cdeAcquireDelay  => exact onDev_meets (live_meets _ (fun _ h₁ => devCdeAcquireDelay_meets _ hC h₁) _ hm) he
  | fenceNoRenewal _ => exact onDev_meets (live_meets _ (fun _ h₁ => devFenceNoRenewal_meets _ _ hC h₁) _ hm) he
  | fenceUnreachable _ => exact onDev_meets (live_meets _ (fun _ h₁ => devFenceUnreachable_meets _ _ hC h₁) _ hm) he
  | fencedRecovery _ => exact onDev_meets (live_meets _ (fun _ h₁ => devFencedRecovery_meets _ _ hC h₁) _ hm) he
  | controlDieLost _ => exact onDev_meets (live_meets _ (fun _ h₁ => devControlDieLost_meets _ _ hC h₁) _ hm) he
  | haspAcquire _ _ _ => exact onDev_meets (live_meets _ (fun _ h₁ => devHaspAcquire_meets _ _ _ _ hC h₁) _ hm) he
  | haspRelease _ _ _ => exact onDev_meets (live_meets _ (fun _ h₁ => devHaspRelease_meets _ _ _ _ hC h₁) _ hm) he
  | latchAcquire _ _ => exact onDev_meets (live_meets _ (fun _ h₁ => devLatchAcquire_meets _ _ _ hC.wide h₁) _ hm) he
  | latchRelease _ _ => exact onDev_meets (live_meets _ (fun _ h₁ => devLatchRelease_meets _ _ _ hC.wide h₁) _ hm) he
  | mbxDataWrite _ _ _ => exact onDev_meets (live_meets _ (fun _ h₁ => devMbxDataWrite_meets _ _ _ _ h₁) _ hm) he
  | mbxDataRead _ _ => exact onDev_meets (powered_meets _ (fun _ h₁ => settle_meets _ (devMbxDataRead_meets _ _ _ h₁)) _ hm) he
  | withdraw _ _ => exact onDev_meets (live_meets _ (fun _ h₁ => devWithdraw_meets _ _ _ h₁) _ hm) he
  | mbxTimeout _ => exact onDev_meets (live_meets _ (fun _ h₁ => devMbxTimeout_meets _ _ h₁) _ hm) he
  | msiXUnmask _ _ => exact onDev_meets (powered_meets _ (fun _ h₁ => devMsiXUnmask_meets _ _ _ h₁) _ hm) he
  | registerWrite _ _ _ _ _ => exact onDev_meets (powered_meets _ (fun _ h₁ => settle_meets _ (devRegisterWrite_meets _ _ _ _ _ _ hC h₁)) _ hm) he
  | xltCairnEnable _ _ _ => exact onDev_meets (live_meets _ (fun _ h₁ => devXltCairnEnable_meets _ _ _ _ h₁) _ hm) he
  | xltCairnDisable _ _ _ => exact onDev_meets (live_meets _ (fun _ h₁ => devXltCairnDisable_meets _ _ _ _ h₁) _ hm) he
  | xltCairnConsWrite _ _ _ => exact onDev_meets (live_meets _ (fun _ h₁ => devXltCairnConsWrite_meets _ _ _ _ h₁) _ hm) he
  | ciphJobEnable _ _ => exact onDev_meets (live_meets _ (fun _ h₁ => devCiphJobEnable_meets _ _ _ hC.wide h₁) _ hm) he
  | ciphJobDisable _ _ => exact onDev_meets (live_meets _ (fun _ h₁ => devCiphJobDisable_meets _ _ _ h₁) _ hm) he
  | ciphJobProdWrite _ _ => exact onDev_meets (live_meets _ (fun _ h₁ => devCiphJobProdWrite_meets _ _ _ hC.wide h₁) _ hm) he
  | capture _ => exact onDev_meets (powered_meets _ (fun _ h₁ => devCapture_meets _ hC.wide h₁) _ hm) he
  | legacyLiveRead _ _ _ _ => exact onDev_meets (powered_meets _ (fun _ h₁ => devLegacyLiveRead_meets _ _ _ _ _ hC.wide h₁) _ hm) he
  | warmReset _ => exact onDev_meets (liveQ_meets _ (fun _ h₁ => devWarmReset_meets _ _ hC h₁) _ hm) he
  | sqDoorbell _ _ _ _ _ _ => exact onDev_meets (liveQ_meets _ (fun _ h₁ => devBell_meets _ _ _ _ _ _ _ _ hC.wide h₁) _ hm) he
  | rqDoorbell _ _ _ _ _ _ => exact onDev_meets (liveQ_meets _ (fun _ h₁ => devBell_meets _ _ _ _ _ _ _ _ hC.wide h₁) _ hm) he
  | cqDoorbell _ _ _ _ _ => exact onDev_meets (liveQ_meets _ (fun _ h₁ => devBell_meets _ _ _ _ _ _ _ _ hC.wide h₁) _ hm) he
  | eventRingDoorbell _ _ _ _ _ => exact onDev_meets (liveQ_meets _ (fun _ h₁ => devBell_meets _ _ _ _ _ _ _ _ hC.wide h₁) _ hm) he
  | arm _ _ _ _ _ _ => exact onDev_meets (liveQ_meets _ (fun _ h₁ => devBell_meets _ _ _ _ _ _ _ _ hC.wide h₁) _ hm) he
  | perstN _ => exact onDev_meets (liveQ_meets _ (fun _ h₁ => portEvent_meets _ _ _ hC h₁) _ hm) he
  | hotReset _ => exact onDev_meets (liveQ_meets _ (fun _ h₁ => portEvent_meets _ _ _ hC h₁) _ hm) he
  | linkDown _ => exact onDev_meets (liveQ_meets _ (fun _ h₁ => devLinkDown_meets _ _ hC h₁) _ hm) he
  | functionLevelReset _ => exact onDev_meets (liveQ_meets _ (fun _ h₁ => portEvent_meets _ _ _ hC h₁) _ hm) he
  | hostLinkUp _ _ _ _ => exact onDev_meets (powered_meets _ (fun _ h₁ => settle_meets _ (devHostLinkUp_meets _ _ _ _ _ hC h₁)) _ hm) he
  | busMasterEnableSet _ => exact onDev_meets (powered_meets _ (fun _ h₁ => settle_meets _ (devBusMasterEnableSet_meets _ _ hC h₁)) _ hm) he
  | busMasterEnableClear _ => exact onDev_meets (powered_meets _ (fun _ h₁ => devBusMasterEnableClear_meets _ _ hC h₁) _ hm) he
  | d3hotEntry _ => exact onDev_meets (powered_meets _ (fun _ h₁ => devD3hotEntry_meets _ _ hC h₁) _ hm) he
  | d0Return _ => exact onDev_meets (powered_meets _ (fun _ h₁ => settle_meets _ (devD0Return_meets _ _ hC h₁)) _ hm) he
  | hostCompletion _ _ => exact onDev_meets (liveQ_meets _ (fun _ h₁ => devHostCompletion_meets _ _ _ h₁) _ hm) he
  | hostReqFailed _ => exact onDev_meets (liveQ_meets _ (fun _ h₁ => devHostReqFailed_meets _ _ hC.wide h₁) _ hm) he
  | completionTimeout _ => exact onDev_meets (liveQ_meets _ (fun _ h₁ => devCompletionTimeout_meets _ _ hC.wide h₁) _ hm) he
  | poisonedCompletion _ _ _ => exact onDev_meets (liveQ_meets _ (fun _ h₁ => devPoisonedCompletion_meets _ _ _ _ h₁) _ hm) he
  | unexpectedCompletion _ => exact onDev_meets (live_meets _ (fun _ h₁ => devUnexpectedCompletion_meets _ _ h₁) _ hm) he
  | poisonedWrite _ => exact onDev_meets (live_meets _ (fun _ h₁ => devPoisonedWrite_meets _ _ h₁) _ hm) he
  | atsCompletion _ _ _ => exact onDev_meets (liveQ_meets _ (fun _ h₁ => devAtsCompletion_meets _ _ _ _ hC.wide h₁) _ hm) he
  | atsInvalidation _ _ _ _ => exact onDev_meets (live_meets _ (fun _ h₁ => devAtsInvalidation_meets _ _ _ _ _ h₁) _ hm) he
  | priResponse _ _ _ => exact onDev_meets (liveQ_meets _ (fun _ h₁ => devPriResponse_meets _ _ _ _ hC.wide h₁) _ hm) he
  | entdaa _ => exact onDev_meets (powered_meets _ (fun _ h₁ => devEntdaa_meets _ _ h₁) _ hm) he
  | mctpControl _ => exact onDev_meets (powered_meets _ (fun _ h₁ => devMctpControl_meets _ _ h₁) _ hm) he
  | pldm _ => exact onDev_meets (powered_meets _ (fun _ h₁ => devPldm_meets _ _ h₁) _ hm) he
  | spdm _ _ _ => exact onDev_meets (powered_meets _ (fun _ h₁ => devSpdm_meets _ _ _ _ h₁) _ hm) he
  | replicatedTableWrite _ _ _ => exact onDev_meets (live_meets _ (fun _ h₁ => devReplicatedTableWrite_meets _ _ _ _ hC.wide h₁) _ hm) he
  | translationWalkDone _ _ _ _ _ => exact onDev_meets (liveQ_meets _ (fun _ h₁ => devTranslationWalkDone_meets _ _ _ _ _ _ hC.wide h₁) _ hm) he
  | cairnTimer _ => exact onDev_meets (live_meets _ (fun _ h₁ => devCairnTimer_meets _ _ h₁) _ hm) he
  | faultLimitExpiry _ => exact onDev_meets (liveQ_meets _ (fun _ h₁ => devFaultLimitExpiry_meets _ _ hC.wide h₁) _ hm) he
  | invalidationAck _ _ => exact onDev_meets (liveQ_meets _ (fun _ h₁ => devInvalidationAck_meets _ _ _ hC.wide h₁) _ hm) he
  | unmapAbort _ _ => exact onDev_meets (liveQ_meets _ (fun _ h₁ => devUnmapAbort_meets _ _ _ hC.wide h₁) _ hm) he
  | windowDrained _ => exact onDev_meets (liveQ_meets _ (fun _ h₁ => devWindowDrained_meets _ _ hC.wide h₁) _ hm) he
  | stackRead _ _ _ _ _ => exact onDev_meets (liveQ_meets _ (fun _ h₁ => devStackRead_meets _ _ _ _ _ _ hC.wide h₁) _ hm) he
  | stackWrite _ _ _ _ => exact onDev_meets (liveQ_meets _ (fun _ h₁ => devStackWrite_meets _ _ _ _ _ _ hC.wide h₁) _ hm) he
  | retirementMoveDone _ => exact onDev_meets (liveQ_meets _ (fun _ h₁ => devRetirementMoveDone_meets _ _ _ hC.wide h₁) _ hm) he
  | patrolScrub _ _ => exact onDev_meets (liveQ_meets _ (fun _ h₁ => devPatrolScrub_meets _ _ _ hC.wide h₁) _ hm) he
  | ceTrackExpiry _ _ _ => exact onDev_meets (live_meets _ (fun _ h₁ => devCeTrackExpiry_meets _ _ _ _ h₁) _ hm) he
  | memCe _ => exact onDev_meets (live_meets _ (fun _ h₁ => devMemCe_meets _ _ h₁) _ hm) he
  | stackInit _ _ => exact onDev_meets (live_meets _ (fun _ h₁ => devStackInit_meets _ _ _ h₁) _ hm) he
  | parkIdle _ => exact onDev_meets (live_meets _ (fun _ h₁ => devParkIdle_meets _ _ h₁) _ hm) he
  | parkDrained _ => exact onDev_meets (live_meets _ (fun _ h₁ => devParkDrained_meets _ _ h₁) _ hm) he
  | stackWakeDone _ => exact onDev_meets (liveQ_meets _ (fun _ h₁ => devStackWakeDone_meets _ _ hC.wide h₁) _ hm) he
  | chimneyFail _ _ => exact onDev_meets (liveQ_meets _ (fun _ h₁ => devChimneyFail_meets _ _ hC.wide h₁) _ hm) he
  | zeroingDone _ => exact onDev_meets (live_meets _ (fun _ h₁ => devZeroingDone_meets _ _ hC.wide h₁) _ hm) he
  | creditQueueSend _ => exact onDev_meets (live_meets _ (fun _ h₁ => devCreditQueueSend_meets _ _ hC.wide h₁) _ hm) he
  | creditReturn _ => exact onDev_meets (live_meets _ (fun _ h₁ => devCreditReturn_meets _ _ hC h₁) _ hm) he
  | creditStall _ => exact onDev_meets (live_meets _ (fun _ h₁ => devCreditStall_meets _ _ hC.wide h₁) _ hm) he
  | creditQueueReady _ => exact onDev_meets (live_meets _ (fun _ h₁ => devCreditQueueReady_meets _ _ hC h₁) _ hm) he
  | segmentDown _ => exact onDev_meets (live_meets _ (fun _ h₁ => crossAll_meets _ hC (segmentDown_meets _ _ hC.wide h₁)) _ hm) he
  | segmentUp _ => exact onDev_meets (live_meets _ (fun _ h₁ => devSegmentUp_meets _ _ hC h₁) _ hm) he
  | intraHalfLinkDown _ _ => exact onDev_meets (live_meets _ (fun _ h₁ => devIntraHalfLinkDown_meets _ _ _ hC h₁) _ hm) he
  | workFetch _ _ => exact onDev_meets (liveQ_meets _ (fun _ h₁ => devWorkFetch_meets _ _ _ h₁) _ hm) he
  | phaseRefetch _ _ => exact onDev_meets (liveQ_meets _ (fun _ h₁ => devPhaseRefetch_meets _ _ _ hC.wide h₁) _ hm) he
  | entryBegin _ _ => exact onDev_meets (liveQ_meets _ (fun _ h₁ => devEntryBegin_meets _ _ _ hC.wide h₁) _ hm) he
  | legDone _ _ => exact onDev_meets (liveQ_meets _ (fun _ h₁ => devLegDone_meets _ _ _ h₁) _ hm) he
  | waitSatisfied _ => exact onDev_meets (liveQ_meets _ (fun _ h₁ => devWaitSatisfied_meets _ _ h₁) _ hm) he
  | waitPatchDone _ => exact onDev_meets (liveQ_meets _ (fun _ h₁ => devWaitPatchDone_meets _ _ hC.wide h₁) _ hm) he
  | cqStallLimit _ => exact onDev_meets (liveQ_meets _ (fun _ h₁ => devCqStallLimit_meets _ _ h₁) _ hm) he
  | mergeSpaceGrant _ => exact onDev_meets (liveQ_meets _ (fun _ h₁ => devMergeSpaceGrant_meets _ _ hC.wide h₁) _ hm) he
  | legGrant _ => exact onDev_meets (liveQ_meets _ (fun _ h₁ => devLegGrant_meets _ _ hC.wide h₁) _ hm) he
  | opstoreStarvation _ => exact onDev_meets (live_meets _ (fun _ h₁ => devOpstoreStarvation_meets _ _ h₁) _ hm) he
  | operandLoadDone _ _ => exact onDev_meets (liveQ_meets _ (fun _ h₁ => devOperandLoadDone_meets _ _ _ hC.wide h₁) _ hm) he
  | legFinish _ _ => exact onDev_meets (liveQ_meets _ (fun _ h₁ => devLegFinish_meets _ _ _ hC.wide h₁) _ hm) he
  | legFail _ _ _ => exact onDev_meets (liveQ_meets _ (fun _ h₁ => devLegFail_meets _ _ _ _ hC.wide h₁) _ hm) he
  | graphWalkRound _ => exact onDev_meets (liveQ_meets _ (fun _ h₁ => devGraphWalkRound_meets _ _ hC.wide h₁) _ hm) he
  | write _ _ => exact onDev_meets (liveQ_meets _ (fun _ h₁ => devPkt_meets _ _ _ _ hC.wide h₁) _ hm) he
  | readReq _ _ => exact onDev_meets (liveQ_meets _ (fun _ h₁ => devPkt_meets _ _ _ _ hC.wide h₁) _ hm) he
  | readResp _ _ => exact onDev_meets (liveQ_meets _ (fun _ h₁ => devPkt_meets _ _ _ _ hC.wide h₁) _ hm) he
  | send _ _ => exact onDev_meets (liveQ_meets _ (fun _ h₁ => devPkt_meets _ _ _ _ hC.wide h₁) _ hm) he
  | atomicReq _ _ => exact onDev_meets (liveQ_meets _ (fun _ h₁ => devPkt_meets _ _ _ _ hC.wide h₁) _ hm) he
  | atomicResp _ _ => exact onDev_meets (liveQ_meets _ (fun _ h₁ => devPkt_meets _ _ _ _ hC.wide h₁) _ hm) he
  | operateReq _ _ => exact onDev_meets (liveQ_meets _ (fun _ h₁ => devPkt_meets _ _ _ _ hC.wide h₁) _ hm) he
  | operateResp _ _ => exact onDev_meets (liveQ_meets _ (fun _ h₁ => devPkt_meets _ _ _ _ hC.wide h₁) _ hm) he
  | ack _ _ => exact onDev_meets (liveQ_meets _ (fun _ h₁ => devPkt_meets _ _ _ _ hC.wide h₁) _ hm) he
  | nak _ _ => exact onDev_meets (liveQ_meets _ (fun _ h₁ => devPkt_meets _ _ _ _ hC.wide h₁) _ hm) he
  | probe _ _ => exact onDev_meets (liveQ_meets _ (fun _ h₁ => devPkt_meets _ _ _ _ hC.wide h₁) _ hm) he
  | disconnect _ _ => exact onDev_meets (liveQ_meets _ (fun _ h₁ => devPkt_meets _ _ _ _ hC.wide h₁) _ hm) he
  | responderAdmit _ => exact onDev_meets (liveQ_meets _ (fun _ h₁ => devResponderAdmit_meets _ _ hC.wide h₁) _ hm) he
  | nonEwewaFrame _ _ => exact onDev_meets (liveQ_meets _ (fun _ h₁ => devNonEwewaFrame_meets _ _ _ h₁) _ hm) he
  | arpRequest _ _ => exact onDev_meets (live_meets _ (fun _ h₁ => devArpRequest_meets _ _ _ _ _ h₁) _ hm) he
  | neighbourSolicitation _ _ => exact onDev_meets (live_meets _ (fun _ h₁ => devNeighbourSolicitation_meets _ _ _ _ _ h₁) _ hm) he
  | pauseFrame _ => exact onDev_meets (live_meets _ (fun _ h₁ => devPauseFrame_meets _ _ h₁) _ hm) he
  | lldpdu _ _ _ => exact onDev_meets (live_meets _ (fun _ h₁ => devLldpdu_meets _ _ _ _ hC.wide h₁) _ hm) he
  | packetSend _ => exact onDev_meets (liveQ_meets _ (fun _ h₁ => devPacketSend_meets _ _ h₁) _ hm) he
  | retransmitTimer _ _ => exact onDev_meets (liveQ_meets _ (fun _ h₁ => devTimer_meets _ _ _ h₁) _ hm) he
  | ackTimer _ => exact onDev_meets (liveQ_meets _ (fun _ h₁ => devAckDue_meets _ _ h₁) _ hm) he
  | notReadyBackoff _ _ => exact onDev_meets (liveQ_meets _ (fun _ h₁ => devNotReadyBackoff_meets _ _ _ h₁) _ hm) he
  | msnProbe _ => exact onDev_meets (liveQ_meets _ (fun _ h₁ => devMsnProbe_meets _ _ h₁) _ hm) he
  | grantAnnounce _ => exact onDev_meets (liveQ_meets _ (fun _ h₁ => devGrantAnnounce_meets _ _ h₁) _ hm) he
  | disconnectRepeat _ => exact onDev_meets (liveQ_meets _ (fun _ h₁ => devDisconnectRepeat_meets _ _ h₁) _ hm) he
  | tombstoneExpiry _ => exact onDev_meets (live_meets _ (fun _ h₁ => devTombstoneExpiry_meets _ _ h₁) _ hm) he
  | pathHoldExpiry _ _ => exact onDev_meets (liveQ_meets _ (fun _ h₁ => devPathHoldExpiry_meets _ _ _ h₁) _ hm) he
  | baseWinRotate _ _ => exact onDev_meets (live_meets _ (fun _ h₁ => devBaseWinRotate_meets _ _ _ h₁) _ hm) he
  | bucketFill  => exact onDev_meets (live_meets _ (fun _ h₁ => devBucketFill_meets _ h₁) _ hm) he
  | portSchedule _ => exact onDev_meets (live_meets _ (fun _ h₁ => devPortSchedule_meets _ _ h₁) _ hm) he
  | gateEntryAdvance _ => exact onDev_meets (live_meets _ (fun _ h₁ => devGateEntryAdvance_meets _ _ h₁) _ hm) he
  | gateListTakeover _ => exact onDev_meets (live_meets _ (fun _ h₁ => devGateListTakeover_meets _ _ hC.wide h₁) _ hm) he
  | eqSamplePeriod  => exact onDev_meets (live_meets _ (fun _ h₁ => devEqSamplePeriod_meets _ h₁) _ hm) he
  | data _ _ => exact onDev_meets (liveQ_meets _ (fun _ h₁ => devData_meets _ _ _ hC.wide h₁) _ hm) he
  | idle _ _ => exact onDev_meets (liveQ_meets _ (fun _ h₁ => devIdle_meets _ _ _ hC.wide h₁) _ hm) he
  | replayReq _ _ => exact onDev_meets (liveQ_meets _ (fun _ h₁ => devReplayReq_meets _ _ _ hC.wide h₁) _ hm) he
  | replayReqTimer _ => exact onDev_meets (live_meets _ (fun _ h₁ => devReplayReqTimer_meets _ _ h₁) _ hm) he
  | retrainTimeout _ => exact onDev_meets (liveQ_meets _ (fun _ h₁ => devRetrainTimeout_meets _ _ hC.wide h₁) _ hm) he
  | ident _ _ => exact onDev_meets (liveQ_meets _ (fun _ h₁ => devIdent_meets _ _ _ hC.wide h₁) _ hm) he
  | laneState _ _ => exact onDev_meets (liveQ_meets _ (fun _ h₁ => devLaneState_meets _ _ _ hC.wide h₁) _ hm) he
  | widthReq _ _ _ => exact onDev_meets (liveQ_meets _ (fun _ h₁ => devWidthReq_meets _ _ _ _ hC.wide h₁) _ hm) he
  | widthAck _ _ _ => exact onDev_meets (live_meets _ (fun _ h₁ => devWidthAck_meets _ _ _ _ hC.wide h₁) _ hm) he
  | sleepReq _ => exact onDev_meets (live_meets _ (fun _ h₁ => devSleepReq_meets _ _ h₁) _ hm) he
  | sleepAck _ => exact onDev_meets (live_meets _ (fun _ h₁ => devSleepAck_meets _ _ h₁) _ hm) he
  | sleepIdleTimer _ => exact onDev_meets (live_meets _ (fun _ h₁ => devSleepIdleTimer_meets _ _ h₁) _ hm) he
  | linkWake _ => exact onDev_meets (live_meets _ (fun _ h₁ => devLinkWake_meets _ _ hC.wide h₁) _ hm) he
  | laneUnhealthy _ _ => exact onDev_meets (liveQ_meets _ (fun _ h₁ => devLaneUnhealthy_meets _ _ _ hC.wide h₁) _ hm) he
  | laneStepUp _ _ => exact onDev_meets (live_meets _ (fun _ h₁ => devLaneStepUp_meets _ _ _ hC.wide h₁) _ hm) he
  | laneRecalDone _ _ => exact onDev_meets (live_meets _ (fun _ h₁ => devLaneRecalDone_meets _ _ _ hC.wide h₁) _ hm) he
  | trainingDone _ _ => exact onDev_meets (live_meets _ (fun _ h₁ => devTrainingDone_meets _ _ _ hC.wide h₁) _ hm) he
  | trainingTimeout _ => exact onDev_meets (live_meets _ (fun _ h₁ => devTrainingTimeout_meets _ _ h₁) _ hm) he
  | identTimeout _ => exact onDev_meets (liveQ_meets _ (fun _ h₁ => devIdentTimeout_meets _ _ hC.wide h₁) _ hm) he
  | lldpTimeout _ => exact onDev_meets (live_meets _ (fun _ h₁ => devLldpTimeout_meets _ _ hC.wide h₁) _ hm) he
  | lossOfSignal _ => exact onDev_meets (liveQ_meets _ (fun _ h₁ => devLossOfSignal_meets _ _ hC.wide h₁) _ hm) he
  | frameForward _ => exact onDev_meets (live_meets _ (fun _ h₁ => devFrameForward_meets _ _ h₁) _ hm) he
  | ropeCallDue _ => exact onDev_meets (liveQ_meets _ (fun _ h₁ => devRopeCallDue_meets _ _ h₁) _ hm) he
  | ropeAckRepeat _ => exact onDev_meets (live_meets _ (fun _ h₁ => devRopeAckRepeat_meets _ _ h₁) _ hm) he
  | ropeData _ _ => exact onDev_meets (liveQ_meets _ (fun _ h₁ => devRopePkt_meets _ _ _ _ hC.wide h₁) _ hm) he
  | ropeConfirm _ _ => exact onDev_meets (liveQ_meets _ (fun _ h₁ => devRopePkt_meets _ _ _ _ hC.wide h₁) _ hm) he
  | ropeAck _ _ => exact onDev_meets (liveQ_meets _ (fun _ h₁ => devRopePkt_meets _ _ _ _ hC.wide h₁) _ hm) he
  | ropeAbort _ _ => exact onDev_meets (liveQ_meets _ (fun _ h₁ => devRopePkt_meets _ _ _ _ hC.wide h₁) _ hm) he
  | ropePitchServe _ => exact onDev_meets (liveQ_meets _ (fun _ h₁ => devRopePitchServe_meets _ _ h₁) _ hm) he
  | pitchTimeout _ => exact onDev_meets (liveQ_meets _ (fun _ h₁ => devPitchTimeout_meets _ _ h₁) _ hm) he
  | ropeAbortRepeat _ => exact onDev_meets (live_meets _ (fun _ h₁ => devRopeAbortRepeat_meets _ _ h₁) _ hm) he
  | ropeSlotFreed _ => exact onDev_meets (liveQ_meets _ (fun _ h₁ => devRopeSlotFreed_meets _ _ hC.wide h₁) _ hm) he
  | freezeDrained _ => exact onDev_meets (liveQ_meets _ (fun _ h₁ => devFreezeDrained_meets _ _ hC.wide h₁) _ hm) he
  | freezeLimit _ => exact onDev_meets (liveQ_meets _ (fun _ h₁ => devFreezeLimit_meets _ _ hC.wide h₁) _ hm) he
  | stubExpiry _ => exact onDev_meets (live_meets _ (fun _ h₁ => devStubExpiry_meets _ _ h₁) _ hm) he
  | cipherJobBegin _ => exact onDev_meets (live_meets _ (fun _ h₁ => devCipherJobBegin_meets _ _ h₁) _ hm) he
  | cipherJobDone _ _ => exact onDev_meets (live_meets _ (fun _ h₁ => devCipherJobDone_meets _ _ _ h₁) _ hm) he
  | drbgReseed _ _ => exact onDev_meets (live_meets _ (fun _ h₁ => devDrbgReseed_meets _ _ _ h₁) _ hm) he
  | drbgStop _ => exact onDev_meets (live_meets _ (fun _ h₁ => devDrbgStop_meets _ _ h₁) _ hm) he
  | limiterStep _ _ => exact onDev_meets (live_meets _ (fun _ h₁ => devLimiterStep_meets _ _ _ hC h₁) _ hm) he
  | powerSample _ => exact onDev_meets (live_meets _ (fun _ h₁ => devPowerSample_meets _ _ hC h₁) _ hm) he
  | thermalShutdown  => exact onDev_meets (powerOff_meets _ hC hm) he
  | vinEvent _ _ => exact onDev_meets (devVinEvent_meets _ _ _ hC hm) he
  | isolationLinkLoss  => exact onDev_meets (powered_meets _ (fun _ h₁ => devIsolationLinkLoss_meets _ hC.wide h₁) _ hm) he
  | isolationLinkTimeout  => exact onDev_meets (devIsolationLinkTimeout_meets _ hC hm) he
  | stageLost  => exact onDev_meets (devStageLost_meets _ hC hm) he
  | pwrEnAssert _ => exact onDev_meets (devPwrEnAssert_meets _ _ hC hm) he
  | pwrEnDeassert  => exact onDev_meets (devPwrEnDeassert_meets _ hC hm) he
  | powerOn _ => exact onDev_meets (devPowerOn_meets _ _ hB hm) he
  | clockLoss  => exact onDev_meets (devClockLoss_meets _ hC hm) he
  | clockLockReturn  => exact onDev_meets (devClockLockReturn_meets _ hC hm) he
  | clockHalt  => exact onDev_meets (devClockHalt_meets _ hC hm) he
  | serdesPllLoss _ => exact onDev_meets (liveQ_meets _ (fun _ h₁ => devSerdesPllLoss_meets _ _ hC.wide h₁) _ hm) he
  | pciePllLoss _ => exact onDev_meets (liveQ_meets _ (fun _ h₁ => devPciePllLoss_meets _ _ hC h₁) _ hm) he
  | bivouacDrained  => exact onDev_meets (liveQ_meets _ (fun _ h₁ => devBivouacDrained_meets _ hC.wide h₁) _ hm) he
  | bivouacEntryTimeout  => exact onDev_meets (liveQ_meets _ (fun _ h₁ => bivAbort_meets _ hC.wide h₁) _ hm) he
  | bivouacWake cause =>
    refine onDev_meets (live_meets _ (fun _ h => ?_) _ hm) he
    cases cause <;> exact wakeDev_meets _ hC.wide h
  | bivouacExitDone  => exact onDev_meets (liveQ_meets _ (fun _ h₁ => devBivouacExitDone_meets _ hC.wide h₁) _ hm) he
  | sensorUpdate _ => exact onDev_meets (powered_meets _ (fun _ h₁ => devSensorUpdate_meets _ _ hC.wide h₁) _ hm) he
  | traverseDieFollower _ => exact onDev_meets (live_meets _ (fun _ h₁ => devTraverseDieFollower_meets _ _ hC h₁) _ hm) he
  | traverseRestartTimeout _ => exact onDev_meets (live_meets _ (fun _ h₁ => devTraverseRestartTimeout_meets _ _ hC h₁) _ hm) he
  | microcodeUnitDrained _ => exact onDev_meets (live_meets _ (fun _ h₁ => devMicrocodeUnitDrained_meets _ _ hC.wide h₁) _ hm) he
  | microcodeDrainTimeout _ => exact onDev_meets (live_meets _ (fun _ h₁ => devMicrocodeDrainTimeout_meets _ _ hC.wide h₁) _ hm) he
  | tileLost _ => exact onDev_meets (liveQ_meets _ (fun _ h₁ => devTileLost_meets _ _ hC.wide h₁) _ hm) he
  | ethFecUncorrectableRetrain _ _ => exact onDev_meets (liveQ_meets _ (fun _ h₁ => devEthFecUncorrectableRetrain_meets _ _ _ hC.wide h₁) _ hm) he
  | adminDownDrainEnd _ => exact onDev_meets (liveQ_meets _ (fun _ h₁ => devAdminDownDrainEnd_meets _ _ hC.wide h₁) _ hm) he
  | tableCopyRebuilt _ _ => exact onDev_meets (live_meets _ (fun _ h₁ => devTableCopyRebuilt_meets _ _ _ h₁) _ hm) he
  | priReset _ => exact onDev_meets (live_meets _ (fun _ h₁ => devPriReset_meets _ _ h₁) _ hm) he
  | ibiAccept  => exact onDev_meets (powered_meets _ (fun _ h₁ => devIbiAccept_meets _ h₁) _ hm) he
  | ibiDisabledTimeout  => exact onDev_meets (powered_meets _ (fun _ h₁ => devIbiDisabledTimeout_meets _ h₁) _ hm) he
  | undervoltageRecovery  => exact onDev_meets (devUndervoltageRecovery_meets _ hC.wide hm) he
  | inputInRange _ => exact onDev_meets (devInputInRange_meets _ _ hC hm) he
  | powerOnHoldoff  => exact onDev_meets (devPowerOnHoldoff_meets _ hC hm) he
  | isolationLinkReturn  => exact onDev_meets (powered_meets _ (fun _ h₁ => devIsolationLinkReturn_meets _ hC.wide h₁) _ hm) he
  | centreRuntimeRestartDone  => exact onDev_meets (live_meets _ (fun _ h₁ => devCentreRuntimeRestartDone_meets _ hC h₁) _ hm) he

theorem step_meets {C : Claim} {s t : State} (hC : C.Boots) (hm : s.dev.Meets C) (he : step s = .next t) : t.dev.Meets C := by
  unfold step at he
  split at he
  · cases he
    exact tick_meets _ hC.inv hm
  · next c rest hpending => exact exec_meets (s := { s with pending := rest }) hC hm he

/-- Settles O57: the canonical form of memory is a claim that every step keeps. -/
theorem memoryKept : Obligations.MemoryKept := by
  unfold Obligations.MemoryKept
  exact fun _ _ hm he => step_meets (C := .memory) (.inl trivial) hm he

/-- Settles O59: the bounds of the power limits are a claim that every step keeps. -/
theorem limitsKept : Obligations.LimitsKept := by
  unfold Obligations.LimitsKept
  exact fun _ _ hm he => step_meets (C := .limits) (.inl trivial) hm he

/-! ### Releasing what is due -/

theorem foldl_eq_self {α β : Type} {f : β → α → β} {b : β} (l : List α) (hf : ∀ a ∈ l, f b a = b) : l.foldl f b = b := by
  induction l with
  | nil => rfl
  | cons a l ih =>
    rw [List.foldl_cons, hf a List.mem_cons_self]
    exact ih fun x hx => hf x (List.mem_cons_of_mem _ hx)

theorem settle_quiet {d : Dev} (hquiet : d.Quiet) (hnone : ∀ x ∈ d.q.qps, rxAdvance x.1 d = d ∧ spentNow x.2 = false) : settle d = d := by
  have hrx : d.q.qps.foldl (fun d (n, _) => rxAdvance n d) d = d := foldl_eq_self _ fun x hx => (hnone x hx).1
  have hspent : d.q.qps.foldl (fun d (n, q) => if spentNow q then seqEnd n d else d) d = d :=
    foldl_eq_self _ fun x hx => by simp [(hnone x hx).2]
  unfold settle
  rw [hrx]
  dsimp only
  rw [hspent]
  exact settleN_quiet _ d hquiet

/-- Settles O56: releasing keeps the parts of the claim `same`, and every fold in it is the identity where nothing is due. -/
theorem settleRules : Obligations.SettleRules := by
  unfold Obligations.SettleRules
  intro d
  refine ⟨settle_quiet, ?_⟩
  obtain ⟨hpwr, hqueues, hslots, hlatch, hrings, hdies, hhasps, -⟩ := settle_meets (C := .same d) d ⟨rfl, rfl, rfl, rfl, rfl, rfl, rfl, rfl⟩
  exact ⟨hpwr, hqueues, hslots, hlatch, hrings, hdies, hhasps⟩

end Sys2Proof.Machine
end

section
/-! SUPPORT. A message that waits on its vector's mask is sent once the mask clears (R412). -/

namespace Sys2Proof.Machine

/-- A vector's message can leave: it waits, its entry is unmasked with an address, and the port issues. -/
def Dev.msixReady (d : Dev) (p : Side) (v : Nat) : Prop :=
  (msixEntry d p v).pending = true ∧ (msixEntry d p v).masked = false ∧ (msixEntry d p v).addr ≠ 0#64 ∧ (d.host.get p).funcMask = false
    ∧ canIssue d p = true

theorem msixSend_ready {d : Dev} {p : Side} {v : Nat} (h : d.msixReady p v) : .msix p v ∈ (msixSend p v d).out := by
  obtain ⟨hpend, hmask, haddr, hfunc, hissue⟩ := h
  simp [msixSend, hpend, hmask, haddr, hfunc, hissue, emit]

/-- Sending a vector's message takes nothing from what has left. -/
theorem msixSend_out {d : Dev} {p : Side} {v : Nat} {x : Output} (h : x ∈ d.out) : x ∈ (msixSend p v d).out := by
  simp only [msixSend]
  split <;> simp [emit, Dev.onHost, h]

theorem msixSend_other {d : Dev} {p : Side} {v w : Nat} (hne : v ≠ w) (h : d.msixReady p v) : (msixSend p w d).msixReady p v := by
  simp only [msixSend]
  split
  · obtain ⟨hpend, hmask, haddr, hfunc, hissue⟩ := h
    have hentry (e : MsixEntry) : ((d.host.get p).msix.set w e).getD v {} = msixEntry d p v := by
      rw [Tab.getD, Tab.get?_set_other _ _ _ _ hne, msixEntry, Tab.getD]
    simp only [Dev.msixReady, msixEntry, emit, Dev.onHost, canIssue, Pair.get_upd_self, hentry] at hissue ⊢
    exact ⟨hpend, hmask, haddr, hfunc, hissue⟩
  · exact h

theorem msixSend_parts (p : Side) (v : Nat) (d : Dev) :
    (msixSend p v d).mem = d.mem ∧ (msixSend p v d).q = d.q ∧ (msixSend p v d).ctl = d.ctl ∧ (msixSend p v d).ten = d.ten := by
  simp only [msixSend]
  split <;> exact ⟨rfl, rfl, rfl, rfl⟩

theorem foldl_msixSend_sends {p : Side} {v : Nat} (l : Tab MsixEntry) {d : Dev}
    (h : .msix p v ∈ d.out ∨ d.msixReady p v ∧ v ∈ l.map Prod.fst) : .msix p v ∈ (l.foldl (fun d (v, _) => msixSend p v d) d).out := by
  induction l generalizing d with
  | nil => simpa using h
  | cons x l ih =>
    refine ih ?_
    obtain hout | ⟨hready, hmem⟩ := h
    · exact .inl (msixSend_out hout)
    · by_cases hx : v = x.1
      · subst hx
        exact .inl (msixSend_ready hready)
      · exact .inr ⟨msixSend_other hx hready, by simpa [hx] using hmem⟩

theorem msixFlush_parts (p : Side) (d : Dev) :
    (msixFlush p d).mem = d.mem ∧ (msixFlush p d).q = d.q ∧ (msixFlush p d).ctl = d.ctl ∧ (msixFlush p d).ten = d.ten :=
  foldl_ind (fun e => e.mem = d.mem ∧ e.q = d.q ∧ e.ctl = d.ctl ∧ e.ten = d.ten) _
    (fun e x ⟨hmem, hq, hctl, hten⟩ =>
      have ⟨kmem, kq, kctl, kten⟩ := msixSend_parts p x.1 e
      ⟨kmem.trans hmem, kq.trans hq, kctl.trans hctl, kten.trans hten⟩) _ d ⟨rfl, rfl, rfl, rfl⟩

theorem msixFlush_ready {d : Dev} {p : Side} {v : Nat} (h : d.msixReady p v) : .msix p v ∈ (msixFlush p d).out := by
  refine foldl_msixSend_sends _ (.inr ⟨h, ?_⟩)
  by_contra hnone
  have hpend := h.1
  rw [msixEntry, Tab.getD, (Tab.get?_eq_none_iff ..).2 hnone] at hpend
  cases hpend

theorem devMsiXUnmask_sends {d : Dev} {p : Side} {v : Nat} (hv : v < 2048) (hpend : (msixEntry d p v).pending = true) (haddr : (msixEntry d p v).addr ≠ 0#64)
    (hfunc : (d.host.get p).funcMask = false) (hissue : canIssue d p = true) :
    let e := devMsiXUnmask p (some v) d
    .msix p v ∈ e.out ∧ e.mem = d.mem ∧ e.q = d.q ∧ e.ctl = d.ctl ∧ e.ten = d.ten := by
  simp only [devMsiXUnmask, if_pos hv]
  refine ⟨msixFlush_ready ?_, msixFlush_parts p _⟩
  rw [msixEntry] at hpend haddr
  simp only [Dev.msixReady, msixEntry, Dev.onHost, Pair.get_upd_self, Tab.getD, Tab.get?_set_self, Option.getD_some, canIssue] at hissue hpend haddr ⊢
  exact ⟨hpend, trivial, haddr, hfunc, hissue⟩

/-! ### The conditions of a host port -/

theorem HostPort.cond_inj {g h : HostPort} (hc : g.cond = h.cond) :
    g.linkUp = h.linkUp ∧ g.width = h.width ∧ g.gen = h.gen ∧ g.flit = h.flit ∧ g.belowRecord = h.belowRecord ∧ g.busMaster = h.busMaster
      ∧ g.d3hot = h.d3hot := by
  simpa only [HostPort.cond, Prod.mk.injEq] using hc

theorem Dev.Meets.cond {d : Dev} {h : Pair HostPort} (hm : d.Meets (.ports h)) (p : Side) : (d.host.get p).cond = (h.get p).cond := by
  obtain ⟨hw, he⟩ := Pair.mk.inj hm
  cases p <;> [exact hw; exact he]

theorem meets_own_ports (d : Dev) : d.Meets (.ports d.host) := rfl

/-! ### What a resumed port keeps (R384, R387, R417) -/

theorem devHostLinkUp_ports (p : Side) (width gen : Nat) (flit : Bool) (d : Dev) :
    (settle (devHostLinkUp p width gen flit d)).Meets (.ports (d.host.upd p fun h =>
      { h with linkUp := true, width := width, gen := gen, flit := flit,
               belowRecord := (d.host.get p).recordWidth ≠ 0 && width < (d.host.get p).recordWidth })) := by
  refine settle_meets _ (portResume_meets _ _ trivial (Dev.onPwr_wide trivial (meets_ite (logIt_meets _ _ _ _ _ _ ?_) ?_) rfl rfl rfl rfl rfl)) <;>
    exact meets_own_ports _

theorem devBusMasterEnableSet_ports (p : Side) (d : Dev) :
    (settle (devBusMasterEnableSet p d)).Meets (.ports (d.host.upd p fun h => { h with busMaster := true })) :=
  settle_meets _ (portResume_meets _ _ trivial (meets_own_ports _))

theorem devD0Return_ports (p : Side) (d : Dev) : (settle (devD0Return p d)).Meets (.ports (d.host.upd p fun h => { h with d3hot := false })) :=
  settle_meets _ (portResume_meets _ _ trivial (meets_own_ports _))

/-- Settles O16: what the host sets is a claim about the ports' conditions that the work then resumed keeps. -/
theorem hostPortConditions : Obligations.HostPortConditions := by
  unfold Obligations.HostPortConditions
  refine ⟨fun s p hon => ⟨fun width gen flit => .of_powered hon rfl ?_, .of_powered hon rfl ?_, .of_powered hon rfl rfl, .of_powered hon rfl rfl,
    .of_powered hon rfl ?_⟩, fun s p v hon hv hpend haddr hfunc hissue => .of_powered hon rfl (devMsiXUnmask_sends hv hpend haddr hfunc hissue)⟩
  · obtain ⟨hlink, hwidth, hgen, hflit, hbelow, -, -⟩ := HostPort.cond_inj ((devHostLinkUp_ports p width gen flit s.dev).cond p)
    rw [Pair.get_upd_self] at hlink hwidth hgen hflit hbelow
    exact ⟨hlink, hwidth, hgen, hflit, by rw [hbelow]; simp⟩
  · obtain ⟨hlink, -, -, -, -, hmaster, -⟩ := HostPort.cond_inj ((devBusMasterEnableSet_ports p s.dev).cond p)
    rw [Pair.get_upd_self] at hlink hmaster
    exact ⟨hmaster, hlink⟩
  · obtain ⟨-, -, -, -, -, -, hd3⟩ := HostPort.cond_inj ((devD0Return_ports p s.dev).cond p)
    rw [Pair.get_upd_self] at hd3
    exact hd3

/-! ### PORT events (R394, R410, R587) -/

/-- What a PORT event does once the port's Hasps are free. -/
def portEventRest (p : Side) (d : Dev) : Dev :=
  let d := ringsReset p d
  let d := ((d.ten.tenants.filter fun (_, t) => t.par.port = p).map Prod.fst).foldl (fun d n => tenantReset n .port d) d
  let d := (List.range 6).foldl (fun d k =>
    let d := if mbxReceiver k = some p then mbxReceiverReset k d else d
    if mbxSender k = some p then mbxSenderReset k d else d) d
  d.onXPort p fun _ => {}

/-- What a PORT event does before it frees the port's Hasps. -/
def portEventFields (p : Side) (keepLink : Bool) (d : Dev) : Dev :=
  ((portFields p keepLink (wakeDev d)).onQ fun q => { q with hostReqs := q.hostReqs.filter fun (_, r) => r.port ≠ p }).onXlt fun x =>
    { x with ats := x.ats.filter (fun (_, a) => a.port ≠ p), invs := x.invs.filter fun (_, v) => v.ats ≠ some p }

theorem portEvent_eq (p : Side) (keepLink : Bool) (d : Dev) :
    portEvent p keepLink d = portEventRest p (releaseAll (.port p) (portEventFields p keepLink d)) := rfl

theorem portEventRest_meets {C : Claim} (p : Side) (d : Dev) (hC : C.Wide) (hm : d.Meets C) : (portEventRest p d).Meets C := by
  unfold portEventRest
  exact Dev.onXPort_meets _ _ _ (foldl_meets (foldl_meets (ringsReset_meets _ _ hC hm) fun _ _ h => tenantReset_meets _ _ _ hC h) fun _ k h =>
    have hreceiver := meets_ite (p := mbxReceiver k = some p) (mbxReceiverReset_meets k _ h) h
    meets_ite (mbxSenderReset_meets _ _ hreceiver) hreceiver)

theorem portEvent_ports (p : Side) (keepLink : Bool) (d : Dev) : (portEvent p keepLink d).Meets (.ports (portFields p keepLink (wakeDev d)).host) := by
  rw [portEvent_eq]
  exact portEventRest_meets _ _ trivial (releaseAll_meets _ _ trivial (meets_own_ports _))

theorem foldl_setHolder_other {l : List Nat} (hl : ∀ n ∈ l, n ≠ 0) {m : Nat} (hm : m ∉ l) (d : Dev) :
    (l.foldl (fun d n => setHolder n none 0#16 d) d).hasp m = d.hasp m := by
  induction l generalizing d with
  | nil => rfl
  | cons n l ih =>
    rw [List.mem_cons, not_or] at hm
    rw [List.foldl_cons, ih (fun k hk => hl k (List.mem_cons_of_mem _ hk)) hm.2]
    exact setHolder_other (hl n List.mem_cons_self) _ _ _ hm.1

/-- A Hasp that is freed is held by nobody. -/
theorem setHolder_none {n : Nat} (hn : n ≠ 0) (t : BitVec 16) (d : Dev) : ((setHolder n none t d).hasp n).holder = none := by
  by_cases hlen : n < d.ctl.hasps.length
  · rw [setHolder_hasp hlen hn]
  · have hnone : (modAt d.ctl.hasps n fun h => { epoch := h.epoch + 1#32, token := t, holder := none })[n]? = none :=
      List.getElem?_eq_none (by simpa using Nat.le_of_not_lt hlen)
    simp [setHolder, hn, Dev.onHasp, Dev.onCtl, Dev.hasp, nth, hnone]

theorem foldl_setHolder_freed {l : List Nat} (hl : ∀ n ∈ l, n ≠ 0) {m : Nat} (hm : m ∈ l) (d : Dev) :
    ((l.foldl (fun d n => setHolder n none 0#16 d) d).hasp m).holder = none := by
  induction l generalizing d with
  | nil => cases hm
  | cons n l ih =>
    have hrest := fun k hk => hl k (List.mem_cons_of_mem n hk)
    rw [List.foldl_cons]
    by_cases hmem : m ∈ l
    · exact ih hrest hmem _
    · obtain rfl : m = n := by simpa [hmem] using hm
      rw [foldl_setHolder_other hrest hmem]
      exact setHolder_none (hl m List.mem_cons_self) _ _

/-- The Hasps from 1 to 63 that the agent holds. -/
def haspsOf (a : Agent) (d : Dev) : List Nat := (List.range 64).filter fun n => (d.hasp n).holder = some a && n ≠ 0

theorem mem_haspsOf {a : Agent} {d : Dev} {n : Nat} : n ∈ haspsOf a d ↔ n < 64 ∧ (d.hasp n).holder = some a ∧ n ≠ 0 := by
  simp [haspsOf]

theorem Dev.Meets.hasps {d e : Dev} (h : d.Meets (.same e)) : d.ctl.hasps = e.ctl.hasps := by
  obtain ⟨-, -, -, -, -, -, hhasps, -⟩ := h
  exact hhasps

theorem meets_same (d : Dev) : d.Meets (.same d) := ⟨rfl, rfl, rfl, rfl, rfl, rfl, rfl, rfl⟩

theorem latchDropOf_hasps (a : Agent) (d : Dev) : (latchDropOf a d).ctl.hasps = d.ctl.hasps := by
  unfold latchDropOf
  split
  · exact (foldl_meets (meets_same d) fun _ _ h => failJob_meets _ _ _ _ h).hasps
  · rfl

theorem releaseAll_hasps (a : Agent) (d : Dev) :
    (releaseAll a d).ctl.hasps = ((haspsOf a d).foldl (fun d n => setHolder n none 0#16 d) d).ctl.hasps := by
  refine Eq.trans ?_ (latchDropOf_hasps a _)
  unfold releaseAll
  extract_lets mine d₁ d₂
  cases a with
  | port p =>
    have hrest : (if mine = [] then d₂ else raiseIbi 3 (msix p.other 3 d₂)).Meets (.same d₂) :=
      meets_ite (meets_same d₂) (raiseIbi_meets _ _ (msix_meets _ _ _ (meets_same d₂)))
    exact hrest.hasps
  | die _ => rfl

theorem releaseAll_frees (a : Agent) (d : Dev) {n : Nat} (hpos : 0 < n) (hlt : n < 64) : ((releaseAll a d).hasp n).holder ≠ some a := by
  have hl : ∀ n ∈ haspsOf a d, n ≠ 0 := fun n hn => (mem_haspsOf.1 hn).2.2
  rw [Dev.hasp, releaseAll_hasps]
  change ((List.foldl _ d _).hasp n).holder ≠ _
  by_cases hmem : n ∈ haspsOf a d
  · rw [foldl_setHolder_freed hl hmem]
    exact nofun
  · rw [foldl_setHolder_other hl hmem]
    exact fun hheld => hmem (mem_haspsOf.2 ⟨hlt, hheld, Nat.ne_of_gt hpos⟩)

theorem portEvent_unheld (p : Side) (keepLink : Bool) (d : Dev) : (portEvent p keepLink d).Meets (.unheld p) := by
  rw [portEvent_eq]
  exact portEventRest_meets _ _ trivial fun _ hpos hlt => releaseAll_frees _ _ hpos hlt

/-- A port that has dropped everything issues nothing and holds no Hasp from 1 to 63. -/
def Dev.Dropped (d : Dev) (p : Side) : Prop :=
  canIssue d p = false ∧ (d.host.get p).busMaster = false ∧ (d.host.get p).d3hot = false ∧ ∀ n, 0 < n → n < 64 → (d.hasp n).holder ≠ some (.port p)

theorem portFields_cond (p : Side) (keepLink : Bool) (d : Dev) :
    let h := (portFields p keepLink (wakeDev d)).host.get p
    h.linkUp = (keepLink && (d.host.get p).linkUp) ∧ h.busMaster = false ∧ h.d3hot = false := by
  have hwake : (wakeDev d).host = d.host := by
    unfold wakeDev
    split <;> rfl
  intro h
  have hh : h = ((wakeDev d).host.upd p _).get p := rfl
  rw [Pair.get_upd_self, hwake] at hh
  cases keepLink <;> simp [hh]

theorem settle_portEvent (p : Side) (keepLink : Bool) (d : Dev) :
    (settle (portEvent p keepLink d)).Dropped p
      ∧ ((settle (portEvent p keepLink d)).host.get p).linkUp = (keepLink && (d.host.get p).linkUp) := by
  obtain ⟨hlink, -, -, -, -, hmaster, hd3⟩ := HostPort.cond_inj ((settle_meets _ (portEvent_ports p keepLink d)).cond p)
  obtain ⟨klink, kmaster, kd3⟩ := portFields_cond p keepLink d
  exact ⟨⟨by simp [canIssue, hmaster, kmaster], hmaster.trans kmaster, hd3.trans kd3, settle_meets (C := .unheld p) _ (portEvent_unheld p keepLink d)⟩,
    hlink.trans klink⟩

/-- Settles O15: a PORT event clears the port's fields and frees its Hasps first, and neither what follows nor releasing what is due gives them back. -/
theorem portEvents : Obligations.PortEvents := by
  unfold Obligations.PortEvents
  intro s p hon dropped
  have hdown : (settle (portEvent p false s.dev)).Dropped p ∧ ((settle (portEvent p false s.dev)).host.get p).linkUp = false :=
    settle_portEvent p false s.dev
  refine ⟨.of_live (f := fun d => settle (portEvent p false d)) hon rfl hdown, .of_live (f := fun d => settle (portEvent p false d)) hon rfl hdown,
    fun hup => .of_live (f := fun d => settle (devLinkDown p d)) hon rfl ?_,
    .of_live (f := fun d => settle (portEvent p true d)) hon rfl (settle_portEvent p true s.dev)⟩
  rw [devLinkDown, if_pos hup]
  exact hdown

end Sys2Proof.Machine
end

section
/-! SUPPORT. Who leads: acquisition of Hasp 0, starts, fencing and loss of control dies (R394 to R399). -/

namespace Sys2Proof.Machine

theorem side_eq_or_other (j k : Side) : j = k ∨ j = k.other := by
  cases j <;> cases k <;> decide

theorem meets_seat (d : Dev) : d.Meets (.seat d) := ⟨rfl, rfl, rfl, rfl, rfl, rfl⟩

theorem meets_seat_iff {d e : Dev} : d.Meets (.seat e) ↔ d.ctl.dies = e.ctl.dies ∧ d.hasp 0 = e.hasp 0 ∧ d.ctl.lease = e.ctl.lease
    ∧ d.pwr.rails = e.pwr.rails ∧ d.pwr.tsc = e.pwr.tsc ∧ d.svc.bank = e.svc.bank := Iff.rfl

/-! ### A die takes Hasp 0 -/

/-- Hasp 0 once an agent has taken it, or nobody holds it, under a token. -/
def Dev.haspZero (a : Option Agent) (t : BitVec 16) (d : Dev) : Dev := d.onHasp 0 fun h => { epoch := h.epoch + 1#32, token := t, holder := a }

/-- Die s is the leader, with a full lease. -/
def Dev.leads (s : Side) (d : Dev) : Dev := d.onCtl fun c => { c with dies := c.dies.set s .leader, lease := 1000 }

/-- No lease runs. -/
def Dev.noLease (d : Dev) : Dev := d.onCtl fun c => { c with lease := 0 }

theorem setHolder_zero (a : Option Agent) (t : BitVec 16) (d : Dev) : setHolder 0 a t d = epochCast (d.haspZero a t) := by
  rw [setHolder, if_pos rfl, Dev.haspZero]

theorem setHolder_zero_seat (a : Option Agent) (t : BitVec 16) (d : Dev) : (setHolder 0 a t d).Meets (.seat (d.haspZero a t)) := by
  rw [setHolder_zero]
  exact epochCast_meets _ (meets_seat _)

theorem Dev.Meets.leads {d e : Dev} (h : d.Meets (.seat e)) (s : Side) : (d.leads s).Meets (.seat (e.leads s)) := by
  obtain ⟨hdies, h0, -, hrest⟩ := meets_seat_iff.1 h
  exact meets_seat_iff.2 ⟨congrArg (·.set s .leader) hdies, h0, rfl, hrest⟩

theorem acquireWith_eq (token : BitVec 16) (s : Side) (d : Dev) :
    acquireWith token s d = takeover (leaderChanged (s.idx + 1) ((setHolder 0 (some (.die s)) token d).leads s)) := rfl

/-- What follows the seat, the news of it and the take-over of the work in hand, keeps it. -/
theorem acquireWith_seat (token : BitVec 16) (s : Side) (d : Dev) :
    (acquireWith token s d).Meets (.seat ((d.haspZero (some (.die s)) token).leads s)) := by
  rw [acquireWith_eq]
  exact takeover_meets _ trivial (leaderChanged_meets _ _ ((setHolder_zero_seat _ token d).leads s))

theorem haspZero_hasp {d : Dev} (hlen : 0 < d.ctl.hasps.length) (a : Option Agent) (t : BitVec 16) :
    (d.haspZero a t).hasp 0 = { epoch := (d.hasp 0).epoch + 1#32, token := t, holder := a } := nth_modAt_self _ 0 _ _ hlen

theorem leads_hasp (s : Side) (d : Dev) (n : Nat) : (d.leads s).hasp n = d.hasp n := rfl

theorem noLease_dies (d : Dev) : d.noLease.ctl.dies = d.ctl.dies := rfl

theorem noLease_hasps (d : Dev) : d.noLease.ctl.hasps = d.ctl.hasps := rfl

theorem noLease_hasp (d : Dev) (n : Nat) : d.noLease.hasp n = d.hasp n := rfl

/-- Die s leads: it holds Hasp 0 under an EPOCH one higher, with a full lease, and the other die is as it was in d. -/
theorem acquireLead_leads {d : Dev} (hlen : 0 < d.ctl.hasps.length) (s : Side) :
    (acquireLead s d).ctl.dies = d.ctl.dies.set s .leader ∧ ((acquireLead s d).hasp 0).holder = some (.die s)
      ∧ leadEpoch (acquireLead s d) = leadEpoch d + 1#32 ∧ (acquireLead s d).ctl.lease = 1000 := by
  rw [acquireLead, leadEpoch, leadEpoch]
  obtain ⟨hdies, h0, hlease, -⟩ := meets_seat_iff.1 (acquireWith_seat 1#16 s d)
  rw [leads_hasp, haspZero_hasp hlen] at h0
  rw [h0, hdies, hlease]
  exact ⟨rfl, rfl, rfl, rfl⟩

/-! ### A follower takes Hasp 0 where it is free -/

theorem followerAcquire_held {d : Dev} (hheld : (d.hasp 0).holder ≠ none) : followerAcquire d = d :=
  if_pos (Option.isSome_iff_ne_none.2 hheld)

theorem followerAcquire_none {d : Dev} (hnone : ∀ k, d.ctl.dies.get k ≠ .follower) : followerAcquire d = d := by
  have hw : d.ctl.dies.w ≠ .follower := hnone .west
  have he : d.ctl.dies.e ≠ .follower := hnone .east
  rw [followerAcquire, if_neg hw, if_neg he, ite_self]

theorem followerAcquire_one {d : Dev} {k : Side} (hfree : (d.hasp 0).holder = none) (hk : d.ctl.dies.get k = .follower)
    (hother : d.ctl.dies.get k.other ≠ .follower) : followerAcquire d = acquireLead k d := by
  rw [followerAcquire, hfree]
  cases k with
  | west => exact if_pos hk
  | east => exact (if_neg hother).trans (if_pos hk)

/-! ### The lease of a fenced die ends (R396) -/

/-- The end of a lease frees Hasp 0, and then no lease runs. -/
def leaseFreed (d : Dev) : Dev := (setHolder 0 none 0#16 d).noLease

theorem leaseFreed_dies (d : Dev) : (leaseFreed d).ctl.dies = d.ctl.dies := by
  obtain ⟨hdies, -⟩ := meets_seat_iff.1 (setHolder_zero_seat none 0#16 d)
  rw [leaseFreed, noLease_dies, hdies]
  rfl

theorem leaseFreed_hasp {d : Dev} (hlen : 0 < d.ctl.hasps.length) :
    (leaseFreed d).hasp 0 = { epoch := (d.hasp 0).epoch + 1#32, token := 0#16, holder := none } := by
  obtain ⟨-, h0, -⟩ := meets_seat_iff.1 (setHolder_zero_seat none 0#16 d)
  rw [leaseFreed, noLease_hasp, h0, haspZero_hasp hlen]

theorem leaseFreed_length (d : Dev) : (leaseFreed d).ctl.hasps.length = d.ctl.hasps.length := by
  have hcast : (epochCast (d.haspZero none 0#16)).ctl.hasps = _ := (epochCast_meets _ (meets_same _)).hasps
  rw [leaseFreed, noLease_hasps, setHolder_zero, hcast]
  exact modAt_length ..

theorem devLeaseExpiry_fenced {d : Dev} {k : Side} (hheld : (d.hasp 0).holder = some (.die k)) (hfenced : d.ctl.dies.get k = .fenced) :
    devLeaseExpiry d = followerAcquire (leaseFreed d) := by
  simp only [devLeaseExpiry, hheld, hfenced]
  rfl

/-! ### Starts (R398) -/

theorem leadOrFollow_free {d : Dev} {k : Side} (hfree : (d.hasp 0).holder = none) : leadOrFollow k d = acquireLead k d := by
  rw [leadOrFollow, hfree]
  rfl

theorem leadOrFollow_held {d : Dev} {k : Side} (hheld : (d.hasp 0).holder ≠ none) :
    leadOrFollow k d = d.onCtl fun c => { c with dies := c.dies.set k .follower } :=
  if_neg (by simpa using hheld)

/-! ### Fencing and loss (R394, R397 to R399) -/

/-- Die k has come to e from d₀: it holds no Hasp from 1 to 63, and Hasp 0, the other Hasps and the other die are as they were. -/
def Dev.Left (e : DieState) (k : Side) (d d₀ : Dev) : Prop :=
  d.ctl.dies.get k = e ∧ d.ctl.dies.get k.other = d₀.ctl.dies.get k.other ∧ d.hasp 0 = d₀.hasp 0
    ∧ (∀ n, 0 < n → n < 64 → (d.hasp n).holder ≠ some (.die k))
    ∧ (∀ n, 0 < n → n < 64 → (d₀.hasp n).holder ≠ some (.die k) → d.hasp n = d₀.hasp n)

theorem Dev.Left.of_same {e : DieState} {k : Side} {d₀ d d' : Dev} (h : d.Left e k d₀) (hs : d'.Meets (.same d)) : d'.Left e k d₀ := by
  obtain ⟨-, -, -, -, -, hdies, hhasps, -⟩ := hs
  simpa only [Dev.Left, Dev.hasp, hdies, hhasps] using h

theorem travLost_ctl {s : Side} {d : Dev} (htrav : d.svc.traverse = none) : (travLost s d).ctl = d.ctl := by
  unfold travLost
  split
  · rfl
  · simp only [htrav]
    rfl

theorem releaseAll_other (a : Agent) (d : Dev) {n : Nat} (hn : (d.hasp n).holder ≠ some a) : (releaseAll a d).hasp n = d.hasp n := by
  rw [Dev.hasp, releaseAll_hasps]
  exact foldl_setHolder_other (fun m hm => (mem_haspsOf.1 hm).2.2) (fun hmem => hn (mem_haspsOf.1 hmem).2.1) d

/-- A die that is set to e and whose Traverse and Hasps end has left. -/
theorem releaseAll_left (e : DieState) (k : Side) {d : Dev} (htrav : d.svc.traverse = none) :
    (releaseAll (.die k) (travLost k (d.onCtl fun c => { c with dies := c.dies.set k e }))).Left e k d := by
  set x := travLost k (d.onCtl fun c => { c with dies := c.dies.set k e })
  have hctl : x.ctl = { d.ctl with dies := d.ctl.dies.set k e } := travLost_ctl htrav
  have hhasp (n : Nat) : x.hasp n = d.hasp n := by rw [Dev.hasp, hctl, Dev.hasp]
  obtain ⟨hdies, h0, -⟩ := releaseAll_meets (.die k) x (C := .seat x) trivial (meets_seat x)
  rw [hctl] at hdies
  refine ⟨by rw [hdies]; cases k <;> rfl, by rw [hdies]; cases k <;> rfl, h0.trans (hhasp 0), fun n => releaseAll_frees _ _, fun n _ _ hn => ?_⟩
  exact (releaseAll_other _ _ (by rwa [hhasp])).trans (hhasp n)

theorem fenceDie_left (k : Side) (case : Nat) {d : Dev} (htrav : d.svc.traverse = none) : (fenceDie k case d).Left .fenced k d := by
  refine (releaseAll_left .fenced k htrav).of_same ?_
  have hlog := logIt_meets 0x0602 5 k.idx [case] 0xFFFF _ (meets_same (releaseAll (.die k) (travLost k (d.onCtl fun c => { c with dies := c.dies.set k .fenced }))))
  have hmbx := mbxReceiverReset_meets 2 _ (mbxReceiverReset_meets 0 _ hlog)
  exact meets_ite (meets_ite (raiseAlert_meets _ _ hmbx) hmbx) hlog

theorem devControlDieLost_left {k : Side} {d : Dev} (hk : d.ctl.dies.get k ≠ .lost) (htrav : d.svc.traverse = none) :
    (devControlDieLost k d).Left .lost k d := by
  refine (releaseAll_left .lost k htrav).of_same ?_
  rw [devControlDieLost, if_neg hk]
  exact meets_ite (mbxReceiverReset_meets _ _ (mbxReceiverReset_meets _ _ (meets_same _))) (meets_same _)

/-- Settles O11: a die that acquires is seated by `acquireWith_leads`, and one that fences or is lost has left by `releaseAll_left`. -/
theorem leadershipRules : Obligations.LeadershipRules := by
  unfold Obligations.LeadershipRules
  refine ⟨fun s k hon => ⟨fun hlead => ?_, fun hheld hfenced hlen => ⟨fun hother => ?_, fun hother => ?_⟩⟩, fun s hon hlen => ?starts, ?losses⟩
  · obtain ⟨x, hx⟩ := Option.isSome_iff_exists.1 hlead
    exact .of_live hon rfl (by rw [devLeaseRenewal, hx])
  · refine .of_live hon rfl ?_
    rw [devLeaseExpiry_fenced hheld hfenced, followerAcquire_none]
    · rfl
    · intro j
      rw [leaseFreed_dies]
      obtain rfl | rfl := side_eq_or_other j k
      · exact fun hfollow => nomatch hfenced.symm.trans hfollow
      · exact hother
  · refine .of_live hon rfl ?_
    have hk : (leaseFreed s.dev).ctl.dies.get k.other.other ≠ .follower := by
      rw [leaseFreed_dies]
      cases k <;> simp_all [Side.other]
    have hlen' : 0 < (leaseFreed s.dev).ctl.hasps.length := (leaseFreed_length s.dev).symm ▸ hlen
    rw [devLeaseExpiry_fenced hheld hfenced, followerAcquire_one (by rw [leaseFreed_hasp hlen]) (by rw [leaseFreed_dies, hother]) hk]
    obtain ⟨hdies, hholder, hepoch, hlease⟩ := acquireLead_leads hlen' k.other
    refine ⟨?_, hholder, ?_, hlease⟩
    · rw [hdies]
      cases k <;> rfl
    · rw [hepoch, leadEpoch, leaseFreed_hasp hlen, BitVec.add_assoc]
      rfl
  case starts =>
    refine ⟨fun hw hfree => .of_live hon rfl ?_, fun hw hheld => .of_live hon rfl ?_, fun he hheld => .of_live hon rfl ?_,
      fun he hfree => .of_live hon rfl ?_⟩
    · have hstart : devControlDieStart .west s.dev = acquireLead .west s.dev :=
        (if_neg (not_not_intro hw)).trans (leadOrFollow_free hfree)
      obtain ⟨hdies, hholder, hepoch, -⟩ := acquireLead_leads hlen .west
      rw [hstart, hdies]
      exact ⟨rfl, rfl, hholder, hepoch⟩
    · exact (if_neg (not_not_intro hw)).trans (leadOrFollow_held hheld)
    · exact (if_pos he).trans (leadOrFollow_held hheld)
    · have hdelay : devCdeAcquireDelay s.dev = acquireLead .east s.dev := (if_pos he).trans (leadOrFollow_free hfree)
      obtain ⟨hdies, hholder, -⟩ := acquireLead_leads hlen .east
      rw [hdelay, hdies]
      exact ⟨rfl, hholder⟩
  case losses =>
    intro s k hon _ htrav gone
    refine ⟨fun hlead => .of_live hon rfl ?_, fun hfollow => .of_live hon rfl ?_, fun hlost => .of_live hon rfl (devControlDieLost_left hlost htrav),
      fun hfenced hheld => .of_live hon rfl ?_⟩
    · rw [devFenceNoRenewal, if_pos hlead]
      exact fenceDie_left k 1 htrav
    · rw [devFenceUnreachable, if_pos (by simp [hfollow])]
      exact fenceDie_left k 2 htrav
    · exact (if_pos hfenced).trans (followerAcquire_held hheld)

end Sys2Proof.Machine
end

section
/-! SUPPORT. The power input, the boot banks and what a loss of power keeps (R511 to R513, R541, R580). -/

namespace Sys2Proof.Machine

/-! ### Rows of the power input -/

theorem powerOff_on {d : Dev} (hon : d.On) : powerOff d = powerLoss d := by
  rw [powerOff, show d.pwr.rails = .on from hon]

theorem railsUp_on {d : Dev} (hon : d.On) : railsUp d = true := by
  rw [railsUp, show d.pwr.rails = .on from hon]

theorem pwrEnAssert_off {s : State} (mV : Nat) (hoff : s.dev.pwr.rails = .off) :
    Gives (.pwrEnAssert mV) s
      (s.dev.onPwr fun p => { p with pwrEn := true, vin := mV, rails := if vinOk mV then .starting else .waitInput }) :=
  .of_onDev rfl (Dev.onPwr_congr (by rw [hoff]))

theorem pwrEnDeassert_on {s : State} (hon : s.dev.On) :
    Gives .pwrEnDeassert s ((powerLoss s.dev).onPwr fun p => { p with pwrEn := false, rails := .holdoff }) :=
  .of_onDev rfl (by rw [devPwrEnDeassert, powerOff_on hon])

theorem powerOnHoldoff_ends {s : State} (hhold : s.dev.pwr.rails = .holdoff) :
    Gives .powerOnHoldoff s (s.dev.onPwr fun p =>
      { p with rails := if s.dev.pwr.pwrEn then (if vinOk s.dev.pwr.vin then .starting else .waitInput) else .off }) := by
  refine .of_onDev rfl (Dev.onPwr_congr ?_)
  rw [if_neg (not_not_intro hhold)]
  cases s.dev.pwr.pwrEn <;> rfl

theorem inputInRange_starts {s : State} {mV : Nat} (hwait : s.dev.pwr.rails = .waitInput) (hen : s.dev.pwr.pwrEn = true) (hok : vinOk mV = true) :
    Gives (.inputInRange mV) s (s.dev.onPwr fun p => { p with vin := mV, rails := .starting }) :=
  .of_onDev rfl (Dev.onPwr_congr (by rw [hwait, hen, hok]; rfl))

/-- What a power event of the input sets before it is logged. -/
def vinSeen (mV : Nat) (d : Dev) : Dev := d.onPwr fun p => { p with vin := mV, vinEvent := true, vinReg := BitVec.ofNat 16 (min mV 65535) }

theorem vinEvent_on {s : State} (mV : Nat) (hon : s.dev.On) :
    Gives (.vinEvent .high58 mV) s (logIt 0x0701 0 0 [mV] (d := vinSeen mV s.dev))
    ∧ Gives (.vinEvent .low40 mV) s (vinSeen mV s.dev)
    ∧ Gives (.vinEvent .below38 mV) s (logIt 0x0701 0 0 [mV] (d := (vinSeen mV s.dev).onPwr fun p => { p with vinCause := true }))
    ∧ Gives (.vinEvent .powerLoss mV) s
        ((powerLoss (s.dev.onPwr fun p => { p with vin := mV })).onPwr fun p => { p with rails := if p.pwrEn then .waitInput else .off }) := by
  have hup : railsUp (s.dev.onPwr fun p => { p with vin := mV }) = true := railsUp_on hon
  refine ⟨.of_onDev rfl ?_, .of_onDev rfl ?_, .of_onDev rfl ?_, .of_onDev rfl ?_⟩ <;> simp only [devVinEvent, hup]
  · exact if_pos hon
  · rfl
  · exact if_pos hon
  · rfl

theorem stageLost_second {s : State} (hon : s.dev.On) (hstages : s.dev.pwr.stages < 4) : Gives .stageLost s (powerLoss s.dev) :=
  .of_onDev rfl (by simp only [devStageLost, railsUp_on hon, hstages, powerOff_on hon, Bool.not_true, Bool.false_eq_true, if_false, if_true])

theorem stageLost_first {s : State} (hon : s.dev.On) (hstages : s.dev.pwr.stages = 4) :
    let x := takeFree (s.dev.onPwr fun p => { p with stages := 3, stageLost := true })
    Gives .stageLost s (logIt 0x0703 7 (x.1.toNat % 4) [] (d := x.2)) := by
  refine .of_onDev rfl ?_
  simp only [devStageLost, railsUp_on hon, hstages, Nat.lt_irrefl, Bool.not_true, Bool.false_eq_true, if_false]
  exact if_neg (not_not_intro hon)

/-! ### Power-on -/

theorem powerOn_gives {s : State} {e : PowerOnEnv} {d : Dev} (hd : devPowerOn e s.dev = d) :
    Gives (.powerOn e) s d := .of_onDev rfl hd

theorem devPowerOn_noSeed {e : PowerOnEnv} {d : Dev} (hstart : d.pwr.rails = .starting) (hseed : seedOf e = none) :
    devPowerOn e d = bootHalted e true d := by
  rw [devPowerOn, if_neg (not_not_intro hstart), hseed]

theorem devPowerOn_vital {e : PowerOnEnv} {d : Dev} {x : Bytes} (hstart : d.pwr.rails = .starting) (hseed : seedOf e = some x)
    (hvital : (badRecords e (d.onSvc fun v => { v with seed := x })).contains rkPuf = true
      ∨ (badRecords e (d.onSvc fun v => { v with seed := x })).contains rkSvn = true) :
    devPowerOn e d = bootHalted e false (d.onSvc fun v => { v with seed := x }) := by
  simp only [devPowerOn, if_neg (not_not_intro hstart), hseed]
  exact if_pos (by simpa using hvital)

theorem devPowerOn_boots {e : PowerOnEnv} {d : Dev} {x : Bytes} (hstart : d.pwr.rails = .starting) (hseed : seedOf e = some x)
    (hvital : ¬ ((badRecords e (d.onSvc fun v => { v with seed := x })).contains rkPuf = true
      ∨ (badRecords e (d.onSvc fun v => { v with seed := x })).contains rkSvn = true)) :
    devPowerOn e d = bootBanks e (badRecords e (d.onSvc fun v => { v with seed := x }))
      (absentRecords (badRecords e (d.onSvc fun v => { v with seed := x })) (d.onSvc fun v => { v with seed := x })) := by
  simp only [devPowerOn, if_neg (not_not_intro hstart), hseed]
  exact if_neg (by simpa using hvital)

/-- POWER_ON once the vital records hold: the selected bank, or the other where the selector does not hold, boots where its images verify,
else the other one, and where neither verifies the device halts. -/
theorem bootBanks_cases (e : PowerOnEnv) (bad : List Nat) (d : Dev) {b : Side}
    (hb : b = if bad.contains rkSelector then d.svc.bank.other else d.svc.bank) :
    (bankFault d.svc b = none → bootBanks e bad d = powerUp e b bad none d)
    ∧ (∀ f, bankFault d.svc b = some f →
      (bankFault d.svc b.other = none → bootBanks e bad d = powerUp e b.other bad (some (b, f)) d)
      ∧ (∀ g, bankFault d.svc b.other = some g → bootBanks e bad d = bootHalted e true (d.onSvc (measureTo b.other g.1)))) := by
  subst hb
  refine ⟨fun hnone => ?_, fun f hf => ⟨fun hnone => ?_, fun g hg => ?_⟩⟩ <;> simp only [bootBanks, *]

/-! ### Who leads after power-on (R398, R580) -/

theorem acquireLead_kept (s : Side) (d : Dev) : (acquireLead s d).pwr.rails = d.pwr.rails ∧ (acquireLead s d).pwr.tsc = d.pwr.tsc
    ∧ (acquireLead s d).svc.bank = d.svc.bank := by
  rw [acquireLead]
  obtain ⟨-, -, -, hrails, htsc, hbank⟩ := meets_seat_iff.1 (acquireWith_seat 1#16 s d)
  rw [hrails, htsc, hbank]
  exact ⟨rfl, rfl, rfl⟩

/-- The die that takes Hasp 0 first at power-on: the West one where it runs its image, else the East one where that runs its own. -/
def firstDie (e : PowerOnEnv) (d : Dev) : Dev :=
  if dieRuns e d.svc .west then acquireLead .west d else if dieRuns e d.svc .east then acquireLead .east d else d

/-- The East die follows. -/
def Dev.eastFollows (d : Dev) : Dev := d.onCtl fun c => { c with dies := c.dies.set .east .follower }

theorem diesStart_eq (e : PowerOnEnv) (d : Dev) :
    diesStart e d = if dieRuns e d.svc .west && dieRuns e d.svc .east then (firstDie e d).eastFollows else firstDie e d := rfl

theorem eastFollows_parts (d : Dev) : d.eastFollows.pwr = d.pwr ∧ d.eastFollows.svc = d.svc ∧ d.eastFollows.ctl.dies = d.ctl.dies.set .east .follower
    ∧ d.eastFollows.hasp 0 = d.hasp 0 ∧ leadEpoch d.eastFollows = leadEpoch d := ⟨rfl, rfl, rfl, rfl, rfl⟩

theorem firstDie_kept (e : PowerOnEnv) (d : Dev) : (firstDie e d).pwr.rails = d.pwr.rails ∧ (firstDie e d).pwr.tsc = d.pwr.tsc
    ∧ (firstDie e d).svc.bank = d.svc.bank := by
  unfold firstDie
  split
  · exact acquireLead_kept _ d
  · split
    · exact acquireLead_kept _ d
    · exact ⟨rfl, rfl, rfl⟩

theorem diesStart_kept (e : PowerOnEnv) (d : Dev) : (diesStart e d).pwr.rails = d.pwr.rails ∧ (diesStart e d).pwr.tsc = d.pwr.tsc
    ∧ (diesStart e d).svc.bank = d.svc.bank := by
  obtain ⟨hpwr, hsvc, -⟩ := eastFollows_parts (firstDie e d)
  rw [diesStart_eq]
  split
  · rw [hpwr, hsvc]
    exact firstDie_kept e d
  · exact firstDie_kept e d

section
variable {e : PowerOnEnv} {d : Dev} (hctl : d.ctl = {})
include hctl

theorem acquireLead_first (s : Side) : (acquireLead s d).ctl.dies = (⟨.starting, .starting⟩ : Pair DieState).set s .leader
    ∧ ((acquireLead s d).hasp 0).holder = some (.die s) ∧ leadEpoch (acquireLead s d) = 1#32 := by
  obtain ⟨hdies, hholder, hepoch, -⟩ := acquireLead_leads (d := d) (by rw [hctl]; decide) s
  have hzero : leadEpoch d = 0#32 := by
    rw [leadEpoch, Dev.hasp, hctl]
    rfl
  rw [hdies, hholder, hepoch, hzero, hctl]
  exact ⟨rfl, rfl, rfl⟩

/-- The West die runs its image: it leads, and the East die follows where it runs its own. -/
theorem diesStart_west (hw : dieRuns e d.svc .west = true) :
    (diesStart e d).ctl.dies = ⟨.leader, if dieRuns e d.svc .east then .follower else .starting⟩
      ∧ ((diesStart e d).hasp 0).holder = some (.die .west) ∧ leadEpoch (diesStart e d) = 1#32 := by
  obtain ⟨hdies, hholder, hepoch⟩ := acquireLead_first hctl .west
  have hfirst : firstDie e d = acquireLead .west d := if_pos hw
  obtain ⟨-, -, kdies, khasp, kepoch⟩ := eastFollows_parts (acquireLead .west d)
  rw [diesStart_eq, hfirst, hw]
  cases hx : dieRuns e d.svc .east with
  | false =>
    rw [if_neg (by decide), hdies, hholder, hepoch]
    exact ⟨rfl, rfl, rfl⟩
  | true =>
    rw [Bool.and_self, if_pos rfl, kdies, khasp, kepoch, hdies, hholder, hepoch]
    exact ⟨rfl, rfl, rfl⟩

/-- The West die does not run its image and the East die runs its own, so the East die leads. -/
theorem diesStart_east (hw : dieRuns e d.svc .west = false) (hx : dieRuns e d.svc .east = true) :
    (diesStart e d).ctl.dies = ⟨.starting, .leader⟩ ∧ ((diesStart e d).hasp 0).holder = some (.die .east) := by
  obtain ⟨hdies, hholder, -⟩ := acquireLead_first hctl .east
  have hfirst : firstDie e d = acquireLead .east d := (if_neg (by simp [hw])).trans (if_pos hx)
  rw [diesStart_eq, hfirst, hw, Bool.false_and, if_neg Bool.false_ne_true, hdies, hholder]
  exact ⟨rfl, rfl⟩

end

/-- The device whose rails are up and which measures the images of a bank, before a die leads. -/
def railsBooted (e : PowerOnEnv) (bank : Side) (d : Dev) : Dev :=
  (d.onPwr fun p => { p with
    rails := .on, tsc := 0#64, refOk := true, rootLock := true, serdesLock := List.replicate 8 true, pcieLock := ⟨true, true⟩
    straps := e.straps % 4, lastCause := 1#8 }).onSvc fun v => bootVersions { v with bank := bank }

/-- The stacks train. -/
def stacksTrain (e : PowerOnEnv) (d : Dev) : Dev := (List.range 32).foldl (fun d k => trainStack k (tb e.stacksTrained.toNat k) d) d

/-- A record that holds is applied, and one that does not is absent. -/
def recordBoot (d : Dev) : Dev :=
  match d.svc.record with
  | some r => if recordHolds d.svc r then applyRecord r d else d.onSvc fun v => { v with record := none }
  | none => d

theorem powerUp_eq (e : PowerOnEnv) (bank : Side) (bad : List Nat) (rej : Option (Side × Nat × Nat)) (d : Dev) :
    let x := recordBoot (stacksTrain e (bootLogs bad rej (diesStart e (railsBooted e bank d))))
    powerUp e bank bad rej d = (copyAll x).onPwr fun p => { p with limitW := limitNow x } := rfl

section
variable {d x : Dev}

theorem bootLogs_seat (bad : List Nat) (rej : Option (Side × Nat × Nat)) (h : d.Meets (.seat x)) : (bootLogs bad rej d).Meets (.seat x) := by
  have hlogs := foldl_meets (l := bad) h fun _ k hd => logIt_meets 0x0802 6 0 [recordRow k] 0xFFFF _ hd
  unfold bootLogs
  split
  · exact logIt_meets _ _ _ _ _ _ hlogs
  · exact hlogs

theorem stacksTrain_seat (e : PowerOnEnv) (h : d.Meets (.seat x)) : (stacksTrain e d).Meets (.seat x) :=
  foldl_meets h fun _ k hd => trainStack_meets k _ _ hd

theorem Dev.Meets.seat_onPwr {f : Pwr → Pwr} (h : d.Meets (.seat x)) (hr : (f d.pwr).rails = d.pwr.rails) (ht : (f d.pwr).tsc = d.pwr.tsc) :
    (d.onPwr f).Meets (.seat x) := by
  obtain ⟨hdies, h0, hlease, hrails, htsc, hbank⟩ := meets_seat_iff.1 h
  exact meets_seat_iff.2 ⟨hdies, h0, hlease, hr.trans hrails, ht.trans htsc, hbank⟩

theorem hostWidth_seat (p : Side) (w : Nat) (h : d.Meets (.seat x)) : (hostWidth p w d).Meets (.seat x) := by
  have hhost (f : HostPort → HostPort) : (d.onHost p f).Meets (.seat x) := meets_seat_iff.2 (meets_seat_iff.1 h)
  exact meets_ite (logIt_meets _ _ _ _ _ _ (hhost _)) (hhost _)

theorem applyRecord_seat (b : Bytes) (h : d.Meets (.seat x)) : (applyRecord b d).Meets (.seat x) := by
  unfold applyRecord
  exact foldl_meets (hostWidth_seat _ _ (hostWidth_seat _ _ (Dev.Meets.seat_onPwr (Dev.onNet_meets h) rfl rfl)))
    fun _ _ hd => applyEntry_meets _ _ _ _ trivial hd

theorem recordBoot_seat (h : d.Meets (.seat x)) : (recordBoot d).Meets (.seat x) := by
  unfold recordBoot
  split
  · exact meets_ite (applyRecord_seat _ h) (Dev.onSvc_meets h rfl)
  · exact h

end

/-- What power-on does after the dies have started keeps who leads. -/
theorem powerUp_seat (e : PowerOnEnv) (bank : Side) (bad : List Nat) (rej : Option (Side × Nat × Nat)) (d : Dev) :
    (powerUp e bank bad rej d).Meets (.seat (diesStart e (railsBooted e bank d))) := by
  rw [powerUp_eq]
  exact Dev.Meets.seat_onPwr (copyAll_meets _ (recordBoot_seat (stacksTrain_seat e (bootLogs_seat bad rej (meets_seat _))))) rfl rfl

/-- Measuring the images leaves the banks, so which dies run their image is as before. -/
theorem dieRuns_booted (e : PowerOnEnv) (bank : Side) (d : Dev) (k : Side) :
    dieRuns e (railsBooted e bank d).svc k = dieRuns e { d.svc with bank := bank } k := rfl

theorem powerUp_leads (e : PowerOnEnv) (bank : Side) (bad : List Nat) (rej : Option (Side × Nat × Nat)) {d : Dev} (hctl : d.ctl = {}) :
    let x := powerUp e bank bad rej d
    let runs (k : Side) : Bool := dieRuns e { d.svc with bank := bank } k
    x.On ∧ x.pwr.tsc = 0#64 ∧ x.svc.bank = bank
      ∧ (runs .west = true → leader x = some .west ∧ x.ctl.dies.e = (if runs .east then .follower else .starting)
        ∧ (x.hasp 0).holder = some (.die .west) ∧ leadEpoch x = 1#32)
      ∧ (runs .west = false → runs .east = true → leader x = some .east ∧ x.ctl.dies.w = .starting ∧ (x.hasp 0).holder = some (.die .east)) := by
  intro x runs
  obtain ⟨hdies, h0, -, hrails, htsc, hbank⟩ := meets_seat_iff.1 (powerUp_seat e bank bad rej d)
  obtain ⟨krails, ktsc, kbank⟩ := diesStart_kept e (railsBooted e bank d)
  refine ⟨hrails.trans krails, htsc.trans ktsc, hbank.trans kbank, fun hw => ?_, fun hw hx => ?_⟩
  · obtain ⟨kdies, kholder, kepoch⟩ := diesStart_west (e := e) (d := railsBooted e bank d) hctl hw
    rw [← h0] at kholder
    rw [leadEpoch, ← h0] at kepoch
    rw [kdies] at hdies
    exact ⟨by rw [leader, hdies]; rfl, by rw [hdies]; rfl, kholder, kepoch⟩
  · obtain ⟨kdies, kholder⟩ := diesStart_east (e := e) (d := railsBooted e bank d) hctl hw hx
    rw [← h0] at kholder
    rw [kdies] at hdies
    exact ⟨by rw [leader, hdies]; rfl, by rw [hdies], kholder⟩

/-! ### A loss of power -/

theorem powerLoss_withheld (d : Dev) (k : Nat) (hk : k < d.mem.stk.length) : ((powerLoss d).stack k).withheld = (d.stack k).withheld := by
  simp [powerLoss, Dev.stack, nth, List.getElem?_eq_getElem hk, keptStack]

/-- Settles O54: power-on is followed branch by branch, and what comes after the dies have started keeps who leads. -/
theorem powerInput : Obligations.PowerInput := by
  unfold Obligations.PowerInput
  intro s mV pwr start
  refine ⟨pwrEnAssert_off mV, pwrEnDeassert_on, powerOnHoldoff_ends, inputInRange_starts, vinEvent_on mV, .of_onDev rfl rfl, fun hon => ?iso,
    stageLost_second, stageLost_first, fun e hstart => ⟨fun hseed => powerOn_gives (devPowerOn_noSeed hstart hseed), fun x hseed => ?boot⟩,
    fun e b bad rej hctl => powerUp_leads e b bad rej hctl, rfl, rfl, rfl, rfl, rfl, rfl, rfl, rfl, rfl, rfl, rfl, rfl, powerLoss_withheld s.dev⟩
  case iso =>
    refine ⟨.of_powered hon rfl rfl, .of_powered hon rfl rfl, fun hdown => .of_onDev rfl ?_, .of_onDev rfl (powerOff_on hon)⟩
    rw [devIsolationLinkTimeout, if_pos hdown, powerOff_on hon]
  case boot =>
    intro d bad vital
    refine ⟨fun hvital => powerOn_gives (devPowerOn_vital hstart hseed hvital), fun hvital => ?_⟩
    intro d' b
    obtain ⟨hfirst, hsecond⟩ := bootBanks_cases e bad d' (b := b) rfl
    have hboots : devPowerOn e s.dev = bootBanks e bad d' := devPowerOn_boots hstart hseed hvital
    refine ⟨fun hnone => powerOn_gives (hboots.trans (hfirst hnone)), fun f hf => ⟨fun hnone => ?_, fun g hg => ?_⟩⟩
    · exact powerOn_gives (hboots.trans ((hsecond f hf).1 hnone))
    · exact powerOn_gives (hboots.trans ((hsecond f hf).2 g hg))

end Sys2Proof.Machine
end

section
/-! SUPPORT. What O58 (`Obligations.LeadKept`, not settled) turns on: it holds exactly where no bank verifies, and that is open. -/

namespace Sys2Proof.Machine

/-- The East die leads, and the rails start again, with the service state v. -/
def eastLeads (v : Svc) : Dev := { State.reset.dev with
  pwr := { State.reset.dev.pwr with rails := .starting }
  svc := { v with bank := .west }
  ctl := { dies := ⟨.follower, .leader⟩, hasps := { epoch := 1#32, token := 1#16, holder := some (.die .east) } :: List.replicate 63 {}, lease := 1000 } }

/-- A power-on whose PUF reading and record fit, and in which the East die is loaded with x. -/
def eastLoads (v : Svc) (x : Bytes) : PowerOnEnv :=
  let seed := Config.fuzzyExtract [] Config.pufHelper
  let data := Config.pufHelper ++ Config.seedCheck seed
  let count := nth v.storeLast rkPuf 0#64
  ⟨0, 0xFFFFFFFF#32, [[]], [⟨rkPuf, data, count, storeMac { v with bank := .west, seed := seed } rkPuf count data⟩], [(.east, x)]⟩

theorem eastLeads_sound (v : Svc) : (eastLeads v).LeadSound :=
  ⟨rfl, fun k hk => by cases k <;> [cases hk; rfl], fun _ => nofun⟩

theorem eastLoads_seed (v : Svc) (x : Bytes) : seedOf (eastLoads v x) = some (Config.fuzzyExtract [] Config.pufHelper) := by
  simp [seedOf, eastLoads]

/-- The device of `eastLeads` once the seed is known. -/
def eastSeeded (v : Svc) : Dev := (eastLeads v).onSvc fun s => { s with seed := Config.fuzzyExtract [] Config.pufHelper }

theorem eastLoads_records (v : Svc) (x : Bytes) : badRecords (eastLoads v x) (eastSeeded v) = [] := by
  rw [badRecords, List.filter_eq_nil_iff]
  intro k _
  by_cases hk : rkPuf = k
  · subst hk
    simp [recordPasses, eastLoads, eastSeeded, eastLeads, Dev.onSvc]
  · simp [recordPasses, eastLoads, hk, storeCopy]

theorem absentRecords_none (d : Dev) : absentRecords [] d = d.onSvc fun v => { v with chainOk := true } := rfl

/-- A load whose digest is not the given one. -/
theorem exists_other_load (digest : Bytes) : ∃ x, sha512 x ≠ digest := by
  by_cases h : sha512 [] = digest
  · exact ⟨[0#8], fun h' => absurd (h.trans h'.symm) (by decide +kernel)⟩
  · exact ⟨[], h⟩

/-- The device of `eastSeeded` once every record has passed. -/
def eastChecked (v : Svc) : Dev := (eastSeeded v).onSvc fun s => { s with chainOk := true }

theorem eastLeads_boots {v : Svc} (hv : bankFault v .west = none) (x : Bytes) :
    devPowerOn (eastLoads v x) (eastLeads v) = powerUp (eastLoads v x) .west [] none (eastChecked v) := by
  have hbad := eastLoads_records v x
  rw [eastSeeded] at hbad
  rw [devPowerOn_boots rfl (eastLoads_seed v x) (by rw [hbad]; decide), hbad, absentRecords_none]
  exact (bootBanks_cases _ [] (eastChecked v) rfl).1 hv

theorem diesStart_clash {e : PowerOnEnv} {d : Dev} (hlen : 0 < d.ctl.hasps.length) (hdies : d.ctl.dies = ⟨.follower, .leader⟩)
    (hw : dieRuns e d.svc .west = true) (hx : dieRuns e d.svc .east = false) :
    (diesStart e d).ctl.dies = ⟨.leader, .leader⟩ ∧ ((diesStart e d).hasp 0).holder = some (.die .west) := by
  obtain ⟨kdies, hholder, -⟩ := acquireLead_leads hlen .west
  have hfirst : firstDie e d = acquireLead .west d := if_pos hw
  rw [diesStart_eq, hfirst, hw, hx, Bool.and_false, if_neg Bool.false_ne_true, kdies, hholder, hdies]
  exact ⟨rfl, rfl⟩

/-- Where a bank verifies, power-on starts the West die while the East die, whose load is not its image, still leads. -/
theorem leadKept_fails_of_sound_bank {v : Svc} (hv : bankFault v .west = none) : ¬ Obligations.LeadKept := by
  intro hkept
  obtain ⟨x, hx⟩ := exists_other_load (imageDigest v .west 3)
  set y := powerUp (eastLoads v x) .west [] none (eastChecked v)
  have hstep : step { State.reset with dev := eastLeads v, pending := [.powerOn (eastLoads v x)] } = .next { State.reset with dev := y, pending := [] } :=
    powerOn_gives (s := { State.reset with dev := eastLeads v, pending := [] }) (eastLeads_boots hv x)
  obtain ⟨-, hlead, -⟩ := hkept _ _ (eastLeads_sound v) hstep
  obtain ⟨hdies, h0, -⟩ := meets_seat_iff.1 (powerUp_seat (eastLoads v x) .west [] none (eastChecked v))
  obtain ⟨kdies, kholder⟩ := diesStart_clash (e := eastLoads v x) (d := railsBooted (eastLoads v x) .west (eastChecked v)) (Nat.zero_lt_succ _) rfl rfl (decide_eq_false hx)
  have heast : (y.hasp 0).holder = some (.die .east) := hlead .east (by rw [hdies, kdies]; rfl)
  rw [h0, kholder] at heast
  cases heast

/-- `Obligations.LeadKept` holds exactly where no bank verifies: every step keeps leadership sound but the power-on of a bank that does. Whether one can
verify is open, since its root key has to have the digest `Config.romRootDigest`, a constant of manufacture without a body (log 11). -/
theorem leadKept_iff_no_sound_bank : Obligations.LeadKept ↔ ∀ v b, bankFault v b ≠ none := by
  refine ⟨fun hkept v b hv => ?_, fun hnone s t hs hstep => step_meets (C := .lead) (.inr ⟨rfl, hnone⟩) hs hstep⟩
  cases b with
  | west => exact leadKept_fails_of_sound_bank hv hkept
  | east => exact leadKept_fails_of_sound_bank (v := { v with banks := ⟨v.banks.e, v.banks.w⟩ }) hv hkept

end Sys2Proof.Machine
end
